-- ==== Sys2Proof/Word.lean ====
section
/-!
DEFINITION. Word types of Crety: byte, sector-independent 16 B Bond word, 128 B line, and the
sparse-map shape that every large store of the block uses.
-/

namespace Sys2Proof

/-- One byte (R10: the byte at the lowest address holds bits [7:0]). -/
abbrev Byte := BitVec 8

/-- The data of one Bond word, 128 bits (R169). -/
abbrev BondData := BitVec 128

/-- The data of one 128 B line (R41). -/
abbrev LineData := BitVec 1024

/-- The check bits of one 128 B line, 16 for each Bond word (R41). -/
abbrev LineChk := BitVec 128

/-- An FP32 code (R220). -/
abbrev F32 := BitVec 32

/-- A finite map from numbers, kept sorted by key and listing no entry equal to its default. -/
abbrev Sparse (α : Type) := List (Nat × α)

end Sys2Proof
end

