-- ==== Sys2Proof/Syntax.lean ====
section
/-!
DEFINITION. The commands of Crety: one constructor of `Instr` for each row of
spec/opcode_table.json, in the table's order, with the operands that the command carries.

`at` operands are the REFCLK cycle within the tick (CY_TICK_PHASE, R527) in which the receiving
logic accepts the event (R15).  Environment results that Crety measures (clocks, rails,
temperatures, lane eyes, march tests) are operands of the command that measures them.
-/

namespace Sys2Proof

/-- What one attempt of a start sequence measures of its surroundings (R463, R465, R469). -/
structure StartEnv where
  /-- Phase 1: ACLK, SCLK, CCLK and REFCLK lie within 1 % of R25 (R465). -/
  clocksOk : Bool
  /-- Phase 1: ACLK_PT as sampled (R526). -/
  aclkPt : BitVec 2
  /-- Phase 2: VDD_S, VDD_B, VDD_IO and VDD_C pass (R465). -/
  railsOk : Bool
  /-- Phase 2: the 64 sensor readings, s16 in 1/16 °C, die d sensor k at 4 d + k (R108). -/
  temps : List (BitVec 16)
  /-- Phase 4: the verifying loopback of the stored calibration passes (R463). -/
  loopbackOk : Bool
  /-- Phase 4: full training ends with lanes that work; the limit of R465 is held against `margins`. -/
  trainOk : Bool
  /-- Phase 4: EYE and EYE_LANE of each channel at its training or verification (R534). -/
  margins : Sparse (BitVec 16)
  /-- Phase 4: the interface spares that training assigns: channel, spare, lane (R129). -/
  ifSpares : List (Nat × Nat × Nat)
  /-- Phase 7: rows that the march pattern fails: bank index and logical row, or 9,216 + spare (R469). -/
  bistFails : List (Nat × Nat)
  /-- Phase 7: the conditions of R130 for FPROG are met within 1 s (R469). -/
  fprogCond : Bool
  /-- Phase 11: the arithmetic tests of every lane pass (R465). -/
  laneTestOk : Bool
  /-- Phase 11: every lane returns the output block of R263. -/
  tumblerOk : Bool
  deriving DecidableEq, Repr

/-- What a tick edge takes of the tick that has just ended and State does not count (R429, R431).  DESIGN CHOICE (log 72): the counts
of Crety's controller model, and the ACTs and sectors of accesses that the model makes without a frame, come with the command. -/
structure TickCounts where
  /-- ACT commands outside beds that no recorded frame carries. -/
  nAct : Nat
  /-- 32 B sectors over DQ lanes that no recorded frame carries. -/
  nExt : Nat
  deriving DecidableEq, Repr

/-- The commands, one for each row of the opcode table. -/
inductive Instr where
  -- Pintle ports
  | read (port : Nat) (ctl : Bool) (addr : BitVec 37) (tag : BitVec 8)
  | write (port : Nat) (ctl : Bool) (addr : BitVec 37) (tag : BitVec 8) (data : LineData) (chk : LineChk) (ben : BitVec 128)
  | fadd64 (port : Nat) (ctl : Bool) (addr : BitVec 37) (tag : BitVec 8) (data : LineData) (chk : LineChk)
  | fadd64Acquire (port : Nat) (ctl : Bool) (addr : BitVec 37) (tag : BitVec 8) (data : LineData) (chk : LineChk) (at_ : Nat)
  | cas64 (port : Nat) (ctl : Bool) (addr : BitVec 37) (tag : BitVec 8) (data : LineData) (chk : LineChk)
  | pintleReservedOp (port : Nat) (op : BitVec 3) (ctl : Bool) (addr : BitVec 37) (tag : BitVec 8)
  | pintleResponse (port : Nat)
  | upLinkCredit (port : Nat)
  -- Fabric port
  | rdReq (src : BitVec 14) (tag : BitVec 10) (off : BitVec 38)
  | wrLine (src : BitVec 14) (tag : BitVec 10) (off : BitVec 38) (data : LineData) (chk : LineChk) (at_ : Nat)
  | sealWr (src : BitVec 14) (tag : BitVec 10) (off : BitVec 38) (data : LineData) (chk : LineChk) (at_ : Nat)
  | sealRelease (contrib : Nat)
  | fadd (src : BitVec 14) (tag : BitVec 10) (off : BitVec 38) (data : BitVec 512) (chk : BitVec 64)
  | cas (src : BitVec 14) (tag : BitVec 10) (off : BitVec 38) (data : BitVec 512) (chk : BitVec 64)
  | heldRelease (src : BitVec 14)
  | faddAcquire (src : BitVec 14) (tag : BitVec 10) (off : BitVec 38) (data : BitVec 512) (chk : BitVec 64) (at_ : Nat)
  | fabricReservedType (src : BitVec 14) (vc : Bool) (type : BitVec 4) (tag : BitVec 10) (off : BitVec 38)
  | rdResp (tag : BitVec 10) (data : LineData) (chk : LineChk) (at_ : Nat)
  | errResp (tag : BitVec 10) (stat : BitVec 3) (at_ : Nat)
  | remoteTimeout (tag : BitVec 10)
  -- Latches and the control port
  | acquireDone (index : Nat)
  | acquireTimeout (index : Nat)
  | captureRead (off : BitVec 27)
  -- Budget interface and supply
  | pwrCapLvlChange (level : BitVec 4) (at_ : Nat)
  | senseSample (rail : BitVec 2) (data : BitVec 16) (at_ : Nat)
  | sagAccept (at_ : Nat)
  | dboltDone
  | sagClearStart (envs : List StartEnv)
  -- Reset and start
  | cyRstNAssert
  | cyRstNDeassert (envs : List StartEnv)
  | startThermalWait (temps : List (BitVec 16)) (envs : List StartEnv)
  | fwWaitExpiry (envs : List StartEnv)
  | startComplete (fclkOk : Option Bool)
  | fclkRecheck (fclkOk : Option Bool)
  -- Clocks and TAP reset
  | aclkHoldRise
  | aclkIdle
  | aclkHoldFall (pt : BitVec 2)
  | trstN
  | clockStopped (domain : Nat)
  | clockRestart (domain : Nat)
  -- Stack interface
  | alertPulse (chan : Nat) (ignored : Nat)
  | thermTrip (chan : Nat)
  -- Ticks, beds and refresh
  | tickEdge (counts : TickCounts)
  | refreshAccrual (bank : Nat)
  | bedEnd (bank : Nat) (work : Nat)
  | courseWindowEnd
  | reservedRefreshSlot (bank : Nat)
  | tierRead (die : Nat) (t0 t1 t2 t3 : BitVec 16)
  | tierLower (die : Nat)
  | esrExit (temps : List (BitVec 16))
  | patrolTurn (bank : Nat)
  | mortarPatrol
  | plumbWindowEnd (sixty : Bool)
  -- Intake and step
  | accumContrib (bank : Nat)
  | setClearDone
  | deadlineClose
  | sealScanDone
  | updateStart
  | factoredPass2Start (group : Nat)
  | leanUnitStart (group : Nat) (unit : Nat)
  | leanUnitDone (group : Nat) (unit : Nat)
  | updateDone
  | commitDone
  | verdictRecorded
  -- Mailbox
  | haspDoorbell (hasp : Nat) (at_ : Nat)
  | getInfo (hasp : Nat)
  | setCompat (hasp : Nat)
  | defineRegion (hasp : Nat)
  | defineGroup (hasp : Nat)
  | loadSchedule (hasp : Nat)
  | setSeed (hasp : Nat)
  | drawSeed (hasp : Nat)
  | entropyDrawDone (bits : List Bool)
  | openStep (hasp : Nat)
  | getStepReport (hasp : Nat)
  | verdict (hasp : Nat)
  | checkpointExport (hasp : Nat)
  | exportDone
  | checkpointImport (hasp : Nat)
  | pullReplica (hasp : Nat) (at_ : Nat)
  | setBudget (hasp : Nat)
  | getPlumb (hasp : Nat)
  | startScrub (hasp : Nat)
  | scrubTurn
  | scrubProgress
  | repairSoft (hasp : Nat)
  | repairSoftDone
  | repairFuse (hasp : Nat)
  | repairCondTimeout
  | fprogDone (refused : Bool)
  | fwStage (hasp : Nat)
  | fwActivate (hasp burnt : Nat) (startOk restoreOk : Bool) (envs : List StartEnv)
  | shutdown (hasp : Nat)
  -- Firmware load window
  | fwLoadStart
  | fwLoadData (word : BitVec 32)
  | fwLoadEnd (envs : List StartEnv)
  -- Rings
  | ringTailWrite (bank : Nat) (value : BitVec 32)
  | ringConfigWrite (bank : Nat) (reg : Nat) (value : BitVec 32)
  | ringEnable (bank : Nat)
  | ringStop (bank : Nat)
  | ringSave (bank : Nat)
  | ringSaveDone (bank : Nat)
  | ringRestore (bank : Nat)
  | ringAbort (bank : Nat)
  | descriptorStart (bank : Nat)
  | descriptorRetire (bank : Nat)
  -- Registers
  | lock
  | erLogClear
  | channelAliasWrite (off : BitVec 27) (value : BitVec 32)
  | registerWrite (off : BitVec 27) (value : BitVec 32)
  -- Debug port
  | dbChallenge (request : Bool)
  | chalReady (bits : List Bool)
  | challengeExpiry
  | dbResponse (response : BitVec 1568)
  | unlockVerifyDone
  | lockoutEnd
  | relock
  | halt
  | wardenHalted
  | resume
  | step
  | dbBkpt (value : BitVec 40)
  | dbWatch (value : BitVec 48)
  | breakpointHit (index : Nat)
  | watchpointHit (index : Nat)
  | dbAddr (value : BitVec 48)
  | dbData (value : BitVec 152)
  | dbAccessDone
  | dbRepair (value : BitVec 40)
  -- Rows that stand last in the table
  | controlPortWrite (off : BitVec 27) (value : BitVec 32)
  | importDone
  | vddSLoss
  | vddCRemoval
  deriving DecidableEq, Repr

end Sys2Proof
end

