-- ==== Sys2Proof/Decode.lean ====
section
/-!
DEFINITION. The words of the opcode table: spec/opcode_table.json gives no row any bits, so no word spells
a command.
-/

namespace Sys2Proof

/-- The command that a word spells by the table's bits.  No row of the table gives bits: a command
reaches Crety on a port, a pin or a clock, not as an encoded word. -/
def decodeTableWord (nbits w : Nat) : Option Instr :=
  match nbits, w with
  | _, _ => none

end Sys2Proof
end

