-- ==== Sys2Proof/Machine/Sparse.lean ====
section
/-!
DEFINITION. Sparse maps in one canonical form: keys strictly rising, no entry equal to the default.
-/

namespace Sys2Proof.Machine

/-- The value at a key; the default where the map lists none. -/
def Sparse.get {α : Type} (d : α) : Sparse α → Nat → α
  | [], _ => d
  | (k, v) :: r, i => if i = k then v else Sparse.get d r i

/-- Puts a value at a key in key order. -/
def Sparse.put {α : Type} (k : Nat) (v : α) : Sparse α → Sparse α
  | [] => [(k, v)]
  | (k', v') :: r =>
    if k < k' then (k, v) :: (k', v') :: r
    else if k = k' then (k, v) :: r
    else (k', v') :: Sparse.put k v r

/-- Removes a key. -/
def Sparse.del {α : Type} (k : Nat) (m : Sparse α) : Sparse α := m.filter (fun e => e.1 != k)

/-- Writes a value: writing the default removes the entry. -/
def Sparse.set {α : Type} [DecidableEq α] (d : α) (m : Sparse α) (k : Nat) (v : α) : Sparse α :=
  if v = d then Sparse.del k m else Sparse.put k v m

/-- Applies a function at a key. -/
def Sparse.upd {α : Type} [DecidableEq α] (d : α) (m : Sparse α) (k : Nat) (f : α → α) : Sparse α :=
  Sparse.set d m k (f (Sparse.get d m k))

/-- Keys strictly rise from above `lo`. -/
def Sparse.rising {α : Type} : Option Nat → Sparse α → Bool
  | _, [] => true
  | none, (k, _) :: r => Sparse.rising (some k) r
  | some lo, (k, _) :: r => decide (lo < k) && Sparse.rising (some k) r

/-- The canonical form. -/
def Sparse.wf {α : Type} [DecidableEq α] (d : α) (m : Sparse α) : Bool :=
  Sparse.rising none m && m.all (fun e => decide (e.2 ≠ d))

end Sys2Proof.Machine
end

