-- ==== Sys2Proof/Machine/State.lean ====
section
/-!
DEFINITION. The state of Crety as plain data: every register, queue, buffer, counter, mode, pin and
durable record that the manual names, grouped by the part that holds it, the queue of commands that
wait, and the state right after power-up with CY_RST_N low.

Large stores are `Sparse` maps: sorted by key, without an entry equal to the default.
-/

namespace Sys2Proof.Machine

/-- Why the block stops with a fault. -/
inductive Fault where
  /-- A command names a unit that the block does not have (a Pintle port of 32 or above, a bank index
  of 4,096 or above, a hasp of 16 or above: R19, R40).  No such command can reach the hardware, so
  stopping is safe. Raised by the meaning of every command with a unit number. -/
  | noSuchUnit
  deriving DecidableEq, Repr

/-- Why the model gives a command no meaning. -/
inductive Refusal where
  /-- The command has no meaning in the model yet; raised by an arm of `exec` only.  Safe. -/
  | notModelled (mnemonic : String)
  deriving DecidableEq, Repr

/-! ### Stores of Bond words -/

/-- A store of 16 B Bond words.  `cells` are the data bytes by byte address (unlisted: 0).  `synd` maps
a word number (byte address / 16) to the XOR of the stored check bits with the correct check bits of
the stored data, which is the word's syndrome (R170, R171; unlisted: 0, a codeword). -/
structure Store where
  cells : List Host.Cell
  synd  : Sparse (BitVec 16)
  deriving DecidableEq, Repr

/-! ### Ports -/

/-- An up flit of a Pintle port (R41). -/
structure UpFlit where
  kind : Bool
  tag  : BitVec 8
  stat : BitVec 3
  data : LineData
  chk  : LineChk
  /-- The answer to a held duplicate, which frees no tag (R48). -/
  dup  : Bool
  deriving DecidableEq, Repr

/-- A request taken from a Pintle down link (R41, R43).  `seq` numbers accepted requests of all ports
in the order in which Crety accepted them. -/
structure PintleReq where
  port : Nat
  op   : BitVec 3
  ctl  : Bool
  addr : BitVec 37
  tag  : BitVec 8
  data : LineData
  chk  : LineChk
  ben  : BitVec 128
  /-- REFCLK cycle of its acceptance (R411). -/
  at_  : Nat
  /-- Channels that a group alias selected when it was accepted (R141). -/
  chans : List Nat
  seq  : Nat
  deriving DecidableEq, Repr

/-- One Pintle host port (R41, R42, R48, R51). -/
structure PintlePort where
  /-- Down-link credits that the host holds; 32 when CY_RST_N rises (R42). -/
  dnCred : Nat
  /-- Up-link credits that Crety holds; 32 when CY_RST_N rises (R42). -/
  upCred : Nat
  /-- Outstanding tags (R48). -/
  busy   : List (BitVec 8)
  /-- Held duplicates of outstanding tags, oldest first (R48). -/
  dups   : List PintleReq
  /-- Requests to a line on which an earlier request of the port has not completed (R49). -/
  behind : List PintleReq
  /-- Responses in completion order that wait for an up-link credit (R49, R51). -/
  upQ    : List UpFlit
  /-- The flit last driven on PTn_UP (R41). -/
  sent   : Option UpFlit
  deriving DecidableEq, Repr

/-- A beat group sent on the fabric port (R57): `vc` 0 request, 1 response. -/
structure FabOut where
  vc   : Bool
  type : BitVec 4
  dst  : BitVec 14
  tag  : BitVec 10
  off  : BitVec 38
  stat : BitVec 3
  data : LineData
  chk  : LineChk
  deriving DecidableEq, Repr

/-- A fabric atomic, held under R416 when it is a release. -/
structure FabAtomic where
  src   : BitVec 14
  tag   : BitVec 10
  isCas : Bool
  latch : Nat
  data  : BitVec 128
  seq   : Nat
  deriving DecidableEq, Repr

/-- What an outbound read of PULL_REPLICA fetches (R358). -/
inductive PullRead where
  | latchFirst
  | line (l : Nat)
  | latchLast
  deriving DecidableEq, Repr

/-- One outstanding outbound RD_REQ (R70, R71): its tag, the hasp of its PULL_REPLICA, what it reads
and the REFCLK cycle at which its window ends. -/
structure OutRead where
  tag   : BitVec 10
  hasp  : Nat
  what  : PullRead
  until_ : Nat
  deriving DecidableEq, Repr

/-- What a beat of the fabric asks of the latches: a read of a line of two slots, an acquire with its acceptance cycle, or a
release (R63, R406). -/
inductive FabWant where
  | read (slot : Nat)
  | acquire (latch : Nat) (scope : Nat) (target : Nat) (at_ : Nat)
  | release (isCas : Bool) (latch : Nat) (data : BitVec 128)
  deriving DecidableEq, Repr

/-- A beat of the fabric on its way into CCLK, with its acceptance number (R555). -/
structure FabWait where
  src  : BitVec 14
  tag  : BitVec 10
  seq  : Nat
  want : FabWant
  deriving DecidableEq, Repr

/-- The fabric port (R57, R571). -/
structure Fabric where
  /-- The port is up (R571). -/
  up       : Bool
  /-- Beats sent, oldest first; the fabric's FO_READY has no command, so none is removed (log 12). -/
  fo       : List FabOut
  /-- Beats that wait for FCLK or for the port, oldest first (R557, R571). -/
  ready    : List FabOut
  /-- Held releases, oldest first (R416). -/
  held     : List FabAtomic
  /-- Outstanding outbound reads (R70). -/
  outbound : List OutRead
  /-- Accesses to latches that wait for a stopped CCLK, oldest first (R555, R557). -/
  crossing : List FabWait
  deriving DecidableEq, Repr

/-- The control port's response pins (R74). -/
structure CtResp where
  rdata : BitVec 32
  err   : Bool
  deriving DecidableEq, Repr

/-- What the control port's capture register holds (R46, R77, R521): the offset of the low half, the whole captured
value until its high half is read, and CY_TICK_PHASE, until it is read, where CY_TICK_LO was read. -/
structure Capture where
  low   : Nat
  value : Option (BitVec 64)
  phase : Option Nat
  deriving DecidableEq, Repr

/-- The control port (R74 to R77). -/
structure ControlPort where
  capture : Option Capture
  last    : Option CtResp
  deriving DecidableEq, Repr

/-! ### Latches -/

/-- Who holds an acquire: a Pintle port with its tag, or a peer with its tag (R402). -/
inductive Requester where
  | pintle (port : Nat) (tag : BitVec 8)
  | peer (src : BitVec 14) (tag : BitVec 10)
  deriving DecidableEq, Repr

/-- The comparison of a held acquire that has succeeded (R410): the word as it stood, the effective
scope, the acceptance number that bounds the drain set, and the bank of a BANK drain. -/
structure Matched where
  word  : BitVec 64
  scope : Nat
  seq   : Nat
  bank  : Nat
  deriving DecidableEq, Repr

/-- A held acquire (R410 to R412). -/
structure HeldAcquire where
  who     : Requester
  latch   : Nat
  scope   : Nat
  target  : Nat
  /-- REFCLK cycle at which the window of R411 ends. -/
  until_  : Nat
  matched : Option Matched
  deriving DecidableEq, Repr

/-! ### Channels, dies and banks -/

/-- A host access that waits in a channel controller's queue for its bank (R201, R202): a Pintle request, a fabric read, a
debug access and whether it writes, a line that is written at its stack offset, by PULL_REPLICA (R359) or by the Keystone
engine (R484), or one row access of a Keystone work item: its number, whether it writes, the row and its sectors (R203); or
results of a work item that the unit has in row latch 0 and the channel controller takes by CXRD (R20, R312, R317). -/
inductive BankAccess where
  | pintle (req : PintleReq)
  | fabricRead (src : BitVec 14) (tag : BitVec 10) (off : BitVec 38) (seq : Nat)
  | debug (write : Bool) (seq : Nat)
  | line (ks : Bool) (off : Nat) (words : List (BondData × Bool)) (seq : Nat)
  | keystone (item : Nat) (write : Bool) (row : Nat) (sectors : List Nat) (seq : Nat)
  | take (item : Nat) (data : List Byte) (seq : Nat)
  deriving DecidableEq, Repr

/-- Which command last touched each context of a unit, coded as CTX_STATE of R116. -/
inductive CtxState where
  | empty
  | parked
  | paused
  | fault
  deriving DecidableEq, Repr

/-- A course in progress (R112): its context and the granted length of the bed that runs (R110, R116 BED_BUSY). -/
structure Course where
  ctx : Nat
  len : Nat
  deriving DecidableEq, Repr

/-- What a channel controller knows a row latch to hold: what it needs no more (`spent`); staged pieces of intake (R275); the chunk of column statistics of a group for a run of a step (R312); mark masks that a scan needs from other banks (R20, R285; log 14); the vector chunk of a descriptor
from its column on, and for each vector whether a word of it was poisoned (R391); or the slate values of the rows of a
descriptor from a row on, and for each whether cells were missing and whether one was poisoned (R388). -/
inductive LatchUse where
  | spent
  | staged
  | columns (group : Nat) (step : BitVec 64) (run : Nat) (chunk : Nat)
  | masks (step : BitVec 64) (chunk : Nat)
  | vector (q : Nat) (column : Nat) (bad : List Bool)
  | slate (q : Nat) (row : Nat) (rows : List (Bool × Bool))
  deriving DecidableEq, Repr

/-- A 2 KiB row latch of a Corbel unit (R109): empty after self-refresh (R117), else holding `data` in its first bytes and,
past them, what the manual does not give: the n-th free content (log 62). -/
inductive RowLatch where
  | empty
  | held (n : Nat) (use : LatchUse) (data : List Byte)
  deriving DecidableEq, Repr

/-- One bank with its Corbel unit and its channel controller's state for it. -/
structure Bank where
  /-- Owed REFpb, 0 to 8 (R209). -/
  owed     : Nat
  /-- Accrual accumulator, u16 (R209). -/
  acc      : BitVec 16
  /-- REFpb issued in this tick (R211). -/
  refs     : Nat
  /-- The course in progress (R112). -/
  course   : Option Course
  /-- No further course may start in this tick (R195, R212). -/
  barred   : Bool
  /-- States of the four contexts (R116). -/
  ctx      : List CtxState
  /-- CTX_STATE as last read by CSTAT (R534). -/
  ctxSeen  : BitVec 8
  /-- Host accesses queued for the bank, oldest first. -/
  queue    : List BankAccess
  /-- Numbers of the queued accesses that have already waited behind one REFpb (R200). -/
  waited   : List Nat
  /-- Next line of the patrol: 16 × row + line (R181), and its turn came while a bed ran (R199). -/
  patrol   : Nat
  patrolDue : Bool
  /-- Tick-relative SCLK cycle from which the bank takes its next command (R191, R193). -/
  busyTo   : Nat
  /-- CSTAT counters since the last CSTAT: CE, UE, POISON (R116). -/
  cstat    : BitVec 16 × BitVec 16 × BitVec 16
  /-- Row latches 0 and 1 (R109). -/
  rowLat   : RowLatch × RowLatch
  /-- The stack's row counter of the bank: REFpb number within a pass, each refreshing 2 logical rows (R97). -/
  rowCtr   : Nat
  /-- Lines of the present work of contexts 0 and 1 that the bank's beds have passed (R194, R195). -/
  passed   : Nat × Nat
  /-- Scalar file, 64 × 32 bits (R109), as the image of the context whose course ran last holds it (R395). -/
  scalars  : Sparse (BitVec 32)
  /-- The Mortar save buffer holds an image of context 0, of context 1 (R450). -/
  saved    : Bool × Bool
  /-- Soft remap entries 0 to 3, those enabled: logical row and spare (R127). -/
  soft     : Sparse (Nat × Nat)
  /-- Fused spares in the order of fusing: logical row and spare (R128). -/
  fused    : List (Nat × Nat)
  /-- Spares that BIST found unusable (R469). -/
  bad      : List Nat
  /-- A repair holds every access to the bank (R470). -/
  hold     : Bool
  deriving DecidableEq, Repr

/-- What a channel controller has done in the present tick, for Plumb (R429, R436): ACTs outside beds, 32 B sectors over DQ lanes,
REFpb executed, and of the ACTs and sectors those of host accesses. -/
structure ChanCounts where
  acts        : Nat
  sectors     : Nat
  refs        : Nat
  hostActs    : Nat
  hostSectors : Nat
  deriving DecidableEq, Repr

def ChanCounts.zero : ChanCounts := { acts := 0, sectors := 0, refs := 0, hostActs := 0, hostSectors := 0 }

/-- One channel controller (R19, R534). -/
structure Channel where
  /-- Counts of the present tick (R429). -/
  counts    : ChanCounts
  /-- Active units allowed in the tick, 0 to 8 (R197). -/
  allow     : Nat
  /-- The channel is in self-refresh (R534 SREF). -/
  sref      : Bool
  /-- The channel reached normal mode: TRN mode 0 was issued (R102, R468). -/
  trained   : Bool
  /-- An FPROG hold is on the channel or a bank of it (R130). -/
  fprogHold : Bool
  ceCnt     : BitVec 32
  ueCnt     : BitVec 32
  poisonCnt : BitVec 32
  caparCnt  : BitVec 32
  refFull   : BitVec 32
  /-- CH_LANE_MARGIN (R534). -/
  margin    : BitVec 32
  /-- CH_ERR: ALERT_SEEN, THERM_TRIP, CTX_FAULT in bits 0 to 2 (R534). -/
  err       : BitVec 3
  /-- The last command frames sent, newest first, at most 16; past them `State.frames` (R101, R106; log 26). -/
  hist      : List (BitVec 48)
  /-- Tick-relative SCLK cycles in which the beds of this tick begin (R196). -/
  begun     : List Nat
  /-- Interface spares assigned by TRN mode 4: spare and lane (R129). -/
  ifSpares  : List (Nat × Nat)
  /-- Internal TSV spares fused, bits [3:0] of page 33 (R129). -/
  tsvUsed   : BitVec 4
  deriving DecidableEq, Repr

/-- One die (R96, R215 to R217, R446). -/
structure Die where
  /-- The four sensors as last read by TSR, s16 in 1/16 °C (R108). -/
  sensors  : List (BitVec 16)
  /-- Refresh tier in force (R210). -/
  tier     : Nat
  /-- Tier that takes effect at the next tick edge (R215, R216). -/
  nextTier : Nat
  /-- Consecutive ticks in which both temperatures lay 3 °C below the lower tier's bound (R216). -/
  below    : Nat
  /-- The TSR of this tick has been read (R215). -/
  read     : Bool
  /-- Throttle limit in active units (R446). -/
  throttle : Nat
  /-- Active BCLK cycles granted in this tick, and in each of the 500 ticks before it, newest first
  (R217). -/
  act      : Nat
  actHist  : List Nat
  /-- THERM_TRIP is present on the die (R107). -/
  trip     : Bool
  deriving DecidableEq, Repr

/-! ### Rings -/

/-- STATE of RG_STATUS (R363). -/
inductive RingState where
  | stopped
  | running
  | saved
  | fault
  deriving DecidableEq, Repr

/-- A descriptor in flight in context 2 + (q mod 2) (R366), with its cursor (R395). -/
structure InFlight where
  q     : Nat
  desc  : BitVec 512
  outer : Nat
  inner : Nat
  pass  : Bool
  /-- Running values of the row in progress: scalar entries 16 to 19 (R395). -/
  run   : List F32
  /-- Every word is written (R367). -/
  done  : Bool
  /-- It wrote a poisoned word (R370). -/
  poison : Bool
  /-- The values in `run` come from a poisoned word (R179). -/
  rowBad : Bool
  deriving DecidableEq, Repr

/-- The ring of one bank (R362, R363). -/
structure Ring where
  base   : BitVec 11
  logSz  : BitVec 4
  tail   : BitVec 32
  /-- Descriptors retired, u48 (R362). -/
  head   : BitVec 48
  enable : Bool
  state  : RingState
  /-- The contexts have been started: by ENABLE, and not stopped, saved or aborted since; a fault leaves it (R363, R368). -/
  live   : Bool
  err    : BitVec 4
  poisoned    : Bool
  slateShort  : Bool
  slateFull   : Bool
  orderForced : Bool
  cfgIgnored  : Bool
  errSeq : BitVec 32
  save   : BitVec 15
  forced : BitVec 32
  poisonCnt : BitVec 32
  /-- Descriptors in flight, oldest first, at most two (R366). -/
  flight : List InFlight
  /-- A check of the next descriptor failed with this code; the ring faults when the one ahead retires
  (R368). -/
  failed : Option (BitVec 4)
  /-- The next descriptor has been counted as held back (R366). -/
  forcedQ : Option Nat
  /-- SAVE has been written and its images are not yet written (R398). -/
  saving : Bool
  /-- RESTORE has been written, and its CLOADs wait for a course boundary (R397, R399). -/
  loading : Bool
  /-- ABORT has been written, and its CABORTs wait for a bed boundary (R115, R369). -/
  aborting : Bool
  /-- The descriptor that has been read and has not started: its number, its 64 bytes, and whether it read UNCORRECTABLE
  or POISON (R365). -/
  fetched : Option (Nat × BitVec 512 × Bool)
  deriving DecidableEq, Repr

/-- The tag that Mortar keeps beside a slate cell: the writing bank and the generation (R386).  The values stand in
Mortar. -/
structure SlateTag where
  bank : Nat
  gen  : BitVec 16
  deriving DecidableEq, Repr

/-! ### Configuration -/

/-- A region entry (R145). -/
structure Region where
  first  : Nat
  slabs  : Nat
  placed : Bool
  defer  : Bool
  /-- 0 DATA, 1 STATE, 2 COFFER. -/
  role   : Nat
  detect : Bool
  deriving DecidableEq, Repr

/-- A group of the group table (R291), with what DEFINE_GROUP assigns to it (R153, R266, R294). -/
structure Group where
  rule   : Nat
  flags  : BitVec 8
  mFmt   : Nat
  vFmt   : Nat
  wFmt   : Nat
  rnd    : BitVec 8
  k      : Nat
  stReg  : Nat
  cfReg  : Nat
  eLsb   : Int
  n      : Nat
  rows   : Nat
  cols   : Nat
  beta1  : F32
  beta2  : F32
  eps    : F32
  lambda : F32
  clipD  : F32
  /-- S_G, the start epoch (R294). -/
  start  : BitVec 64
  /-- B_G, the intake base (R266). -/
  base   : Nat
  /-- First state slab and number of state slabs (R153). -/
  slab   : Nat
  slabs  : Nat
  /-- First stack offset of the Coffer area (R153). -/
  coffer : Nat
  /-- Knot count of the schedule table (R298). -/
  knots  : Nat
  /-- COFFER_LOW (R320). -/
  low    : BitVec 64
  /-- RND and seed with which the version of the epoch was derived (R240, R257, R320). -/
  wRnd   : BitVec 8
  wSeed  : BitVec 64
  /-- Column statistics C_j and Q of statistics areas 0 and 1, area (epoch mod 2) being the committed one (R296, R341);
  a value formed from a poisoned word carries true (R179). -/
  colA   : Sparse (F32 × Bool)
  colB   : Sparse (F32 × Bool)
  qA     : F32 × Bool
  qB     : F32 × Bool
  /-- Done map of the LEAN units of the step (R337), by unit number. -/
  done   : List Nat
  /-- PASS1_DONE (R338). -/
  pass1  : Bool
  /-- Staging of a LEAN FACTORED group: R_i', C_j' and meanR (R338); the same for a SAFE one between
  its passes (R309). -/
  rStage : Sparse (F32 × Bool)
  cStage : Sparse (F32 × Bool)
  meanR  : F32 × Bool
  /-- IMPORT_INCOMPLETE (R488). -/
  marked : Bool
  /-- A stopped run left the uncommitted slot undefined (R333). -/
  undef  : Bool
  /-- It left the Coffer slot of version t + 1 undefined, and with K = 1 version t has not been derived there again (R320,
  R333). -/
  cofUndef : Bool
  deriving DecidableEq, Repr

/-! ### Steps -/

/-- STATE of a step (R322, R508). -/
inductive StepState where
  | opened
  | sealing
  | isSealed
  | updating
  | updated
  | committing
  | committed
  | abandoned
  deriving DecidableEq, Repr

/-- RESULT of a step (R286, R508). -/
inductive SealResult where
  | none
  | isSealed
  | incomplete
  | invalid
  | nonfinite
  | overrange
  deriving DecidableEq, Repr

/-- Seal state of a contributor (R282, R286). -/
inductive SealState where
  | notSealed
  | held
  | good
  | bad
  deriving DecidableEq, Repr

/-- An expected contributor of an open step and its ledger entry (R271, R275, R280). -/
structure Contributor where
  node  : BitVec 14
  sum   : BitVec 64
  lines : BitVec 32
  state : SealState
  deriving DecidableEq, Repr

/-- An accepted seal that waits for its contributor's lines (R66, R282). -/
structure HeldSeal where
  contrib  : Nat
  src      : BitVec 14
  tag      : BitVec 10
  checksum : BitVec 64
  lines    : BitVec 32
  stamp    : Nat
  seq      : Nat
  deriving DecidableEq, Repr

/-- One staged addend of a piece: group, element, value, mark (R275). -/
structure Addend where
  group : Nat
  elem  : Nat
  value : BitVec 64
  mark  : Bool
  deriving DecidableEq, Repr

/-- A piece of an accepted line, bound for one bank, and whether its addends and mark mask stand in the unit's row latch 0
(R275).  Of a HASHED group it may go to a bank that holds only the bits of its mark mask: then it adds nothing (R20, R296; log 14). -/
structure Piece where
  bank : Nat
  adds : List Addend
  marksOnly : Bool
  fed  : Bool
  deriving DecidableEq, Repr

/-- An accepted line in the staging buffer (R278). -/
structure StagedLine where
  src    : BitVec 14
  setB   : Bool
  seq    : Nat
  pieces : List Piece
  deriving DecidableEq, Repr

/-- Per-group part of a step report (R286, R360, R508). -/
structure GroupReport where
  defined : Bool
  eLsb    : Int
  ssq     : BitVec 192
  marked  : BitVec 32
  under   : BitVec 32
  present : BitVec 32
  nfState : BitVec 32
  poison  : BitVec 32
  low     : BitVec 64
  deriving DecidableEq, Repr

/-- Per-step scalars of a group (R302), set with the seal result (R301), with the hyperparameters in
force then. -/
structure Scalars where
  lr   : F32
  omb1 : F32
  omb2 : F32
  bc1  : F32
  bc2  : F32
  b1   : F32
  b2   : F32
  eps  : F32
  lam  : F32
  clipD : F32
  rnd  : BitVec 8
  eLsb : Int
  catchUp : Bool
  deriving DecidableEq, Repr

/-- A verdict (R327): KIND 1 COMMIT, 2 COMMIT_MASKED. -/
structure Verdict where
  masked : Bool
  clip   : F32
  exp    : BitVec 8
  deriving DecidableEq, Repr

/-- An update run in progress or finished (R325, R333): speculative or not, its clip factor and
exponent, whether its SAFE groups have already run, and the groups whose pass 2 has begun. -/
structure Run where
  spec   : Bool
  clip   : F32
  exp    : BitVec 8
  safeDone : Bool
  pass2  : List Nat
  deriving DecidableEq, Repr

/-- One intake set with the step that holds it, or held it last, and that step's report (R270, R286,
R323, R340, R360). -/
structure StepSet where
  /-- A report is kept for the set (R323). -/
  kept     : Bool
  /-- Crety holds the step (R322). -/
  held     : Bool
  /-- Acceptance number of its OPEN_STEP, which orders reports of one step number (log 3). -/
  opened   : Nat
  step     : BitVec 64
  state    : StepState
  key      : BitVec 10
  lossExp  : BitVec 8
  deadline : BitVec 64
  expected : Nat
  /-- The clear of R273 has ended. -/
  clear    : Bool
  /-- The set has closed (R284). -/
  closed   : Bool
  /-- The mark masks of HASHED groups have left their banks for the scan (R20, R285; log 14). -/
  masked   : Bool
  /-- 0 not closed, 1 ALL_SEALED, 2 DEADLINE (R508). -/
  cause    : Nat
  closeTick : BitVec 64
  contribs : Sparse Contributor
  seals    : List HeldSeal
  stray    : BitVec 32
  nonfin   : BitVec 64
  overr    : BitVec 64
  /-- Row-presence maps: group and its present rows, ascending (R288). -/
  present  : Sparse (List Nat)
  result   : SealResult
  arrival  : BitVec 64
  scan     : BitVec 64
  poisonAcc : BitVec 32
  firstMarked : Option (Nat × Nat)
  groups   : Sparse GroupReport
  scalars  : Sparse Scalars
  /-- The seal record is durable and not marked invalid, in copies 0 and 1 (R332, R340). -/
  rec0     : Bool
  rec1     : Bool
  verdict  : Option Verdict
  run      : Option Run
  runs     : Nat
  recovered : Bool
  /-- 0 none, 1 SAG, 2 RESTART, 3 FW_ACTIVATE (R353). -/
  lost     : Nat
  commitTick : BitVec 64
  deriving DecidableEq, Repr

/-- One entry of the LEAN undo journal (R336): its unit, its payload length and its place in the journal area, where its
header and payload stand, in Mortar and in the system-area backing. -/
structure JEntry where
  group : Nat
  unit  : Nat
  step  : BitVec 64
  bytes : Nat
  at_   : Nat
  deriving DecidableEq, Repr

/-- One piece of work of Crety at a bank that no running bed may see (R111, R198, R203): a row access of the Keystone engine, by
physical row and first sectors, or the results that a unit leaves in row latch 0, which CXRD takes (R20, R312, R317). -/
inductive Reach where
  | row (write : Bool) (bank : Nat) (phys : Nat) (sectors : List Nat)
  | take (bank : Nat) (data : List Byte)
  deriving DecidableEq, Repr

/-- What follows once a work item's accesses to the stack have been served (R203). -/
inductive KsTask where
  /-- A Corbel unit's old words have left it for the journal; the journal entry of a unit is formed; the unit's results are written
  (R337). -/
  | unitRead (group : Nat) (unit : Nat)
  | unitStart (group : Nat) (unit : Nat)
  | unitDone (group : Nat) (unit : Nat)
  /-- A Corbel unit's short weights have left it, and go to the Coffer (R317). -/
  | unitOut (group : Nat) (unit : Nat)
  /-- The partials of a FACTORED group's pass 1, of a run, and of a seal scan have left the units (R285, R309, R312). -/
  | pass2 (setB : Bool) (group : Nat)
  | updateOut (setB : Bool)
  | scanEnd (setB : Bool)
  /-- The mark masks of HASHED groups have left their banks, and the scan begins (R20, R285). -/
  | masksOut (setB : Bool)
  /-- The rows that the SAFE groups of a run read and write are moved (R325, R437). -/
  | runRows (setB : Bool)
  /-- The first line of an export is zero (R484). -/
  | zeroLine
  /-- The sources of image lines have been read, the lines go out, and the header line ends the export (R484). -/
  | exportLines (first : Nat) (last : Nat)
  | exportEnd
  /-- The source of an import has been read and is checked, and its last accesses (R486, R487). -/
  | importRead (hasp : Nat)
  | importRows (hasp : Nat)
  /-- The areas of a new group have been zeroed, and DEFINE_GROUP completes (R294). -/
  | create (hasp : Nat)
  /-- Both copies of the record in flight are written, and what it serves goes on (R342, R347). -/
  | recordEnd
  /-- Version t of some groups is derived again, and the ABANDON of the hasp goes on: whether the step after is abandoned too, and
  whether its verdict is to be cleared (R320, R332). -/
  | derive (hasp : Nat) (setB : Bool) (groups : List Nat) (later : Bool) (clears : Bool)
  /-- The record without V1 is written, and the ABANDON ends (R332). -/
  | abandoned (hasp : Nat) (setB : Bool) (later : Bool)
  deriving DecidableEq, Repr

/-- A work item under its number: the sectors of the Keystone allowance that it still waits for, the accesses that it makes as they
are paid, the Keystone parameters that it updates with them (R431), and, while its accesses wait in the queues of banks, what follows
them (R203, R437). -/
structure KsItem where
  id   : Nat
  task : KsTask
  owed : Nat
  plan : List Reach
  params : Nat
  deriving DecidableEq, Repr

/-- A Lintel record write in flight (R347): the record has been written to copy 0 and waits for copy
1, and the event that it serves. -/
inductive LintelWrite where
  | verdict (hasp : Nat) (setB : Bool)
  | commit (setB : Bool)
  deriving DecidableEq, Repr

/-- A record line that waits for its bank: its copy, its bytes, and its acceptance number, as a write of Warden's (R347, R403). -/
structure LintelLine where
  copy  : Bool
  bytes : List Byte
  seq   : Nat
  deriving DecidableEq, Repr

/-- Step control: Warden's and Lintel's part of the state. -/
structure StepCtl where
  /-- Committed epoch (R26, R527). -/
  epoch    : BitVec 64
  seed     : BitVec 64
  /-- 0 cold start, 1 SET_SEED, 2 DRAW_SEED (R344). -/
  seedSrc  : BitVec 8
  compat   : Nat
  numRev   : Nat
  /-- SEQ of the last Lintel record (R344). -/
  seq      : BitVec 64
  commitTick : BitVec 64
  /-- Sequence number of the configuration image (R341). -/
  cfgSeq   : BitVec 32
  writing  : Option LintelWrite
  /-- Record lines that wait for the next bed boundary of their bank, oldest first (R347). -/
  lintel   : List LintelLine
  setA     : StepSet
  setB     : StepSet
  staged   : List StagedLine
  journal  : List JEntry
  /-- Keystone work items that wait for banks, oldest first (R203). -/
  items    : List KsItem
  /-- Sectors that the Keystone engine has still to move for an export, and all of them (R437, R570). -/
  debt     : Nat
  debtAll  : Nat
  deriving DecidableEq, Repr

/-! ### Mailbox -/

/-- STATE of a hasp (R492). -/
inductive HaspState where
  | idle
  | pending
  | running
  | done
  deriving DecidableEq, Repr

/-- One hasp's control words, and the copy of the request that its command runs from (R492, R493):
the copied bytes [0, 0x800), whether every word read CLEAN or CORRECTED, the REFCLK cycle of acceptance (R15), and
the level in force when the command started (R514). -/
structure Hasp where
  state    : HaspState
  overrun  : Bool
  progress : BitVec 16
  req      : List (Nat × Byte)
  reqOk    : Bool
  stamp    : Nat
  level    : Nat
  deriving DecidableEq, Repr

/-- A PULL_REPLICA in progress (R357, R358): its fields, its phase (0 the first latch read is out, 1 lines, 2 the last
latch read is out, 3 ended), the next line to request, lines arrived, poisoned lines and the lowest, the last latch
VALUE seen, whether a read timed out or failed, and how it ended (0 whole, 1 VERSION_WAIT, 2 TORN, 3 a lost read). -/
structure Pull where
  hasp  : Nat
  node  : BitVec 14
  off   : Nat
  lines : Nat
  latch : Nat
  ver   : BitVec 64
  k     : Nat
  dst   : Nat
  done  : Nat
  phase : Nat
  next  : Nat
  arrived : Nat
  bad   : Nat
  firstBad : Option Nat
  seen  : BitVec 48
  timedOut : Bool
  ended : Nat
  deriving DecidableEq, Repr

/-- A running background command (R499). -/
inductive Background where
  | pull (p : Pull)
  /-- START_SCRUB (R185): range, interval, next line per bank, counts, lines visited, next tick. -/
  | scrub (hasp : Nat) (first : Nat) (slabs : Nat) (interval : Nat) (next : Nat) (ce : Nat) (ue : Nat) (poison : Nat)
      (visited : Nat) (due : Nat) (report : Nat)
  /-- CHECKPOINT_EXPORT (R484): destination and size; the groups and the words of the schedule tables as they stood at its
  checks, word i of group n at key 64 n + i (R500). -/
  | export_ (hasp : Nat) (dst : Nat) (bytes : Nat) (groups : Sparse Group) (sched : Sparse (BondData × Bool)) (epoch : BitVec 64)
  /-- A row repair (R470, R471): the hasp, or none for DB_REPAIR; fuse or soft; bank, logical row and
  spare; and the REFCLK cycle at which a fuse repair gives up waiting for R130. -/
  | repair (hasp : Option Nat) (fuse : Bool) (bank : Nat) (row : Nat) (spare : Nat) (until_ : Nat) (issued : Bool)
  deriving DecidableEq, Repr

/-- What GET_INFO shows of what serial commands change (R499, R513): SEED, SEED_SRC, COMPAT_LVL, NUM_REV, CFG_SEQ, EPOCH,
counts of groups and regions, IMPORT_INCOMPLETE. -/
structure Shown where
  seed    : BitVec 64
  seedSrc : BitVec 8
  compat  : Nat
  numRev  : Nat
  cfgSeq  : BitVec 32
  epoch   : BitVec 64
  groups  : Nat
  regions : Nat
  marked  : Bool
  deriving DecidableEq, Repr

/-- The mailbox (R491 to R501). -/
structure Mailbox where
  hasps  : Sparse Hasp
  /-- Hasps with a PENDING serial or background command, in acceptance order (R499). -/
  queue  : List Nat
  /-- The hasp whose serial command is RUNNING. -/
  active : Option Nat
  bg     : List Background
  /-- The end of a serial command whose record waits for its lines (R347): hasp, status code, detail and payload. -/
  after  : Option (Nat × Nat × Nat × List Byte)
  /-- What a query shows while a serial command is partly done: things as they stood before it (R499), and the intake sets that an
OPEN_STEP or a VERDICT has changed, as they were. -/
  before : Option Shown
  sets   : List (Bool × StepSet)
  /-- SEED and SEED_SRC of a SET_SEED or DRAW_SEED whose record waits for its lines (R256, R347). -/
  newSeed : Option (BitVec 64 × BitVec 8)
  deriving DecidableEq, Repr

/-! ### Global registers -/

/-- One entry of ER_LOG (R187). -/
structure LogEntry where
  source   : BitVec 8
  outcome  : BitVec 8
  syndrome : BitVec 16
  agent    : BitVec 16
  where_   : BitVec 64
  tick     : BitVec 64
  deriving DecidableEq, Repr

/-- Global register fields that hold a value of their own (R523 to R539). -/
structure Regs where
  lock      : Bool
  lockViol  : Bool
  irqStatus : BitVec 20
  irqEnable : BitVec 20
  rmtTmo    : BitVec 16
  scrubInt  : BitVec 16
  /-- INTERVAL as in force since the last tick edge (R529). -/
  scrubOn   : BitVec 16
  ceThresh  : BitVec 32
  thermGain : BitVec 6
  tierEarly : BitVec 32
  mortarCe  : BitVec 32
  mortarUe  : BitVec 32
  portCe    : BitVec 32
  portUe    : BitVec 32
  fabCe     : BitVec 32
  fabUe     : BitVec 32
  /-- CY_TRNG_STATUS: FAIL_CNT, KAT_FAIL, APT_FAIL, RCT_FAIL, RUNNING. -/
  trngFails : BitVec 16
  katFail   : Bool
  aptFail   : Bool
  rctFail   : Bool
  /-- CY_GRP_MASKg word j at key 8 g + j (R531). -/
  grpMask   : Sparse (BitVec 32)
  /-- CY_WARDn at key n (R163). -/
  ward      : Sparse (BitVec 32)
  /-- CY_CDC_STATUS (R537). -/
  stopped     : BitVec 5
  stoppedSeen : BitVec 5
  cdcOver     : BitVec 5
  cdcCnt      : Sparse (BitVec 16)
  tmoTicks  : BitVec 16
  ltWiden   : BitVec 32
  ltTmo     : BitVec 32
  ltFull    : BitVec 32
  ltDenied  : BitVec 32
  logCe     : Bool
  log       : List LogEntry
  overflow  : Bool
  statePoison : BitVec 32
  lateResp  : BitVec 32
  stale     : BitVec 32
  late      : BitVec 32
  stray     : BitVec 32
  lintelFail : BitVec 32
  noUnlock  : Bool
  unlockCnt : BitVec 32
  failCnt   : BitVec 32
  /-- CORRECTED outcomes of the current 60 s window, and whether BOND_CE was set in it (R189). -/
  ceWindow  : Nat
  ceFired   : Bool
  /-- Next Mortar line of the patrol (R184). -/
  mortarPatrol : Nat
  deriving DecidableEq, Repr

/-! ### Plumb -/

/-- A Plumb energy record (R442). -/
structure PlRecord where
  index  : BitVec 32
  eS     : Nat
  eB     : Nat
  eC     : Nat
  eIO    : Nat
  peak   : Nat
  sensed : List Nat
  flags  : BitVec 5
  deriving DecidableEq, Repr

/-- Sums of the window in progress (R442): energies in pJ, peak in pJ, ticks sensed, flags, ticks
counted. -/
structure PlSum where
  eS     : Nat
  eB     : Nat
  eC     : Nat
  eIO    : Nat
  peak   : Nat
  sensed : List Nat
  flags  : BitVec 5
  ticks  : Nat
  deriving DecidableEq, Repr

/-- Plumb (R428 to R457). -/
structure Plumb where
  watts    : BitVec 8
  /-- Cap entries 1 to 15 at list positions 0 to 14 (R457). -/
  caps     : List (BitVec 8)
  ramp     : BitVec 12
  ksShare  : BitVec 8
  senseEn  : Bool
  /-- WATTS and the cap table as in force since the last tick edge (R435). -/
  wattsOn  : BitVec 8
  capsOn   : List (BitVec 8)
  capLvl   : BitVec 4
  /-- A level of PWR_CAP_LVL that waits for a stopped REFCLK (R555, R557). -/
  capPin   : Option (BitVec 4)
  allow    : Nat
  ksAllow  : Nat
  /-- Sectors that the Keystone leaves have moved in this tick, as far as commands have told (R437; log 61). -/
  ksUsed   : Nat
  /-- Keystone parameters updated, flits of the Pintle links and beats of the fabric port in this tick (R431; log 72). -/
  ksParams : Nat
  ptBeats  : Nat
  fbBeats  : Nat
  hostOver : Bool
  esr      : Bool
  /-- Bucket level in pJ, s64 (R436). -/
  level    : Int
  throttleT : BitVec 8
  coolTicks : BitVec 16
  senseLsb : List (BitVec 16)
  railMv   : List (BitVec 16)
  vddcMv   : List (BitVec 16)
  kCorr    : List (BitVec 16)
  senseOver : BitVec 32
  hostOverCnt : BitVec 32
  esrCnt   : BitVec 32
  /-- FLAGS of the tick in progress, which go to its windows at its end (R442). -/
  tickFlags : BitVec 5
  /-- Dies outside self-refresh at the start of the tick in progress (R429). -/
  dUp      : Nat
  /-- Host external energy of the last tick, in pJ (R436). -/
  hostLast : Nat
  /-- The last sense sample of each rail in the current tick, with the PL_VDDC_MV value of its moment
  (R81, R445). -/
  samples  : List (Option (BitVec 16 × BitVec 16))
  w1s      : PlRecord
  w60      : PlRecord
  hist1s   : List PlRecord
  hist60   : List PlRecord
  sum1s    : PlSum
  sum60    : PlSum
  /-- Records of windows that have ended and are not yet written to the registers (R443). -/
  due1s    : Option PlRecord
  due60    : Option PlRecord
  /-- Charged stack-rail energy of the last 500 ticks in pJ, newest first (R442). -/
  last500  : List Nat
  /-- Tick at which emergency self-refresh ends (R449). -/
  esrUntil : BitVec 64
  deriving DecidableEq, Repr

/-! ### Start, firmware and repair -/

/-- What Crety is doing with its stack and ports. -/
inductive Mode where
  /-- CY_RST_N is low. -/
  | reset
  /-- A start sequence runs (R463). -/
  | starting
  /-- Crety serves the stack. -/
  | serving
  /-- A sag has been accepted and DBOLT_DONE has not risen (R83). -/
  | deadbolt
  /-- DBOLT_DONE has risen (R84). -/
  | dark
  /-- SHUTDOWN has completed (R502). -/
  | shut
  /-- FAILED (R468). -/
  | failed
  deriving DecidableEq, Repr

/-- Kind of the start in progress (R459, R463, R477). -/
inductive StartKind where
  /-- After CY_RST_N, not yet decided (R459). -/
  | undecided
  | cold
  | warmReset
  | warmNoReset
  | restart
  deriving DecidableEq, Repr

/-- Where a start sequence waits. -/
inductive StartWait where
  /-- The temperatures of phase 2 (R465). -/
  | thermal
  /-- A host-loaded image in phase 6 (R475). -/
  | image
  /-- Phase 12 (START_COMPLETE). -/
  | ports
  deriving DecidableEq, Repr

/-- A firmware slot (R475, R476): image bytes and how many are taken. -/
structure FwSlot where
  bytes : List (Nat × Byte)
  len   : Nat
  deriving DecidableEq, Repr

/-- The Warden image that runs (R473). -/
structure FwRun where
  major : BitVec 8
  minor : BitVec 8
  patch : BitVec 16
  svn   : BitVec 8
  cmin  : BitVec 8
  cmax  : BitVec 8
  deriving DecidableEq, Repr

/-- The calibration record (R462), and the parts of it that other rules name. -/
structure Calib where
  /-- Copies 0 and 1 of the record are valid. -/
  copy0   : Bool
  copy1   : Bool
  serial  : BitVec 64
  /-- Die temperatures at the last training: highest sensor of each die (R463). -/
  temps   : List (BitVec 16)
  /-- Soft entries: bank, logical row, spare. -/
  soft    : List (Nat × Nat × Nat)
  /-- Spares found unusable: bank, spare. -/
  bad     : List (Nat × Nat)
  /-- FPROG_PENDING: bank, logical row, spare (R471). -/
  pending : Option (Nat × Nat × Nat)
  /-- TSV lane fuses to issue: channel, lane (R471). -/
  tsv     : List (Nat × Nat)
  /-- Interface spare assignments: channel, spare, lane (R129, R462). -/
  ifs     : List (Nat × Nat × Nat)
  /-- Lane delays: the set that the n-th training found, whose values the manual does not give (log 70). -/
  delays  : Nat
  /-- Active firmware slot (R475). -/
  slot    : Bool
  deriving DecidableEq, Repr

/-- The lane part of the calibration record as the retained registers hold it, with the temperatures of its training (R462, R463,
R564). -/
structure Retained where
  serial : BitVec 64
  temps  : List (BitVec 16)
  ifs    : List (Nat × Nat × Nat)
  delays : Nat
  deriving DecidableEq, Repr

/-- A Lintel record as a start reads it (R344, R348). -/
structure LintelRecord where
  compat : Nat
  numRev : Nat
  seq    : Nat
  epoch  : Nat
  seed   : BitVec 64
  seedSrc : BitVec 8
  v0 : Option (Verdict × Bool)
  v1 : Option (Verdict × Bool)
  cfgSeq : BitVec 32
  commitTick : BitVec 64
  bytes : List Byte
  deriving DecidableEq, Repr

/-- The spill record (R452) with what the Mortar spill holds, and the register image (R518). -/
structure Spill where
  /-- Copy 0, on dies 0 to 7, and copy 1, on dies 8 to 15, of the record are marked valid (R452). -/
  copy0   : Bool
  copy1   : Bool
  /-- 1 SAG, 2 RESTART (R452). -/
  cause   : Nat
  tick    : BitVec 64
  scratch : Store
  latches : Sparse (BitVec 64)
  image   : Option (Regs × Plumb)
  /-- Ring control registers kept for the start (R399). -/
  rings   : Sparse Ring
  deriving DecidableEq, Repr

/-- The start sequence, firmware and repair state. -/
structure Start where
  mode     : Mode
  kind     : StartKind
  wait     : StartWait
  /-- CY_START_STATUS fields (R489). -/
  phase    : Nat
  lastKind : BitVec 2
  trained  : Bool
  noLintel : Bool
  cause    : BitVec 4
  warmFails : Nat
  coldFails : Nat
  /-- Failed warm and cold attempts of the start sequence in progress (R467). -/
  seqWarm  : Nat
  seqCold  : Nat
  /-- The sequence follows a rise of CY_RST_N: its warm start restores the register image (R518). -/
  afterReset : Bool
  fabricDown : Bool
  softLost : Bool
  fuseSuspect : Bool
  vddsLost : Bool
  /-- RWS fields (R489). -/
  forceCold : Bool
  forceTrain : Bool
  fwWait   : BitVec 16
  /-- CY_FW_LOAD_CTRL.STATE (R489). -/
  loadState : BitVec 2
  load     : FwSlot
  fuseSvn  : BitVec 8
  run      : FwRun
  slot0    : FwSlot
  slot1    : FwSlot
  stagedOk : Bool
  calib    : Calib
  /-- Retained calibration registers (R462). -/
  retained : Option Retained
  spill    : Spill
  /-- The spill record was marked valid as the present cold attempt began, which cleared the mark (R459, R475; log 38). -/
  heldSpill : Bool
  /-- VDD_S loss flag (R455). -/
  vddsFlag : Bool
  /-- VDD_C has fallen below 0.45 V and no start has begun since: nothing watches VDD_S (R455, R564). -/
  vddcOff  : Bool
  /-- Copies 0 and 1 of the configuration image read UNCORRECTABLE (R356, R459). -/
  cfgLost0 : Bool
  cfgLost1 : Bool
  /-- The Lintel record that phase 5 of this attempt found (R348, R464). -/
  found    : Option LintelRecord
  /-- A start has read the calibration record since CY_RST_N rose (R463, R489). -/
  calibRead : Bool
  /-- Rows poisoned under R461 since the last cold start (R513). -/
  softRows : BitVec 32
  repairIncomplete : Bool
  /-- REFCLK cycle at which the wait of phase 2 or phase 6 began (R14, R465, R475). -/
  waitFrom : Nat
  /-- The sag was accepted during a start (R85, R466), or during FAILED. -/
  sagInStart : Bool
  sagInFail  : Bool
  /-- The hasp of a FW_ACTIVATE in progress (R477, R478). -/
  activate : Option Nat
  /-- Registers that the host wrote during the start, by offset (R518). -/
  written  : List Nat
  /-- STACK_SERIAL as read in phase 3 of the last start, zero if none (R543). -/
  readSerial : BitVec 64
  deriving DecidableEq, Repr

/-! ### Debug port -/

/-- The states of a TAP controller (R91, IEEE 1149.1). -/
inductive TapState where
  | testLogicReset
  | runTestIdle
  | selectDrScan
  | captureDr
  | shiftDr
  | exit1Dr
  | pauseDr
  | exit2Dr
  | updateDr
  | selectIrScan
  | captureIr
  | shiftIr
  | exit1Ir
  | pauseIr
  | exit2Ir
  | updateIr
  deriving DecidableEq, Repr

/-- What the authentication engine or the entropy source does for the debug port (R544 BUSY). -/
inductive DbBusy where
  | idle
  /-- A challenge draw, which waits while a DRAW_SEED holds the entropy source (R542). -/
  | draw (waits : Bool)
  | verify (response : BitVec 1568)
  deriving DecidableEq, Repr

/-- The debug port (R540 to R550). -/
structure Debug where
  /-- State of the TAP controller (R91). -/
  tap       : TapState
  /-- The bits last shifted into the selected data register, as updated (R541). -/
  dr        : BitVec 1568
  /-- Instruction register; IDCODE in Test-Logic-Reset (R92). -/
  ir        : BitVec 8
  sessionOn : Bool
  scope     : BitVec 4
  sessionTick : BitVec 64
  busy      : DbBusy
  chalReady : Bool
  challenge : BitVec 256
  /-- REFCLK cycle at which CHAL_READY rose (R542). -/
  chalAt    : Nat
  /-- REFCLK cycle at which the lockout ends (R543). -/
  lockout   : Option Nat
  unlockRes : BitVec 2
  /-- FAILED was entered with NO_UNLOCK 1: debug access is refused until CY_RST_N (R539). -/
  refused   : Bool
  haltReq   : Option (BitVec 4)
  halted    : Bool
  haltCause : BitVec 4
  hitIndex  : BitVec 3
  repairRes : BitVec 4
  /-- Enabled breakpoints: ADDRESS by INDEX (R547). -/
  bkpts     : Sparse (Option (BitVec 32))
  /-- Enabled watchpoints: the DB_WATCH word by INDEX (R547). -/
  watches   : Sparse (Option (BitVec 48))
  addr      : BitVec 48
  /-- Result of the last access: DATA, CHECK, OUTCOME (R548). -/
  result    : BitVec 152
  /-- The access in progress, as updated (R548), and the channels that a group alias selected when it was accepted
(R141). -/
  access    : Option (BitVec 152)
  accessChans : List Nat
  /-- DB_ADDR as the access in progress found it, and the DB_DATA updates that wait for its end, oldest first (R541, R548). -/
  accessAddr : BitVec 48
  accessNext : List (BitVec 152)
  /-- Instruction address of the stepped Warden, a free value (R546; log 9). -/
  pc        : BitVec 32
  deriving DecidableEq, Repr

/-! ### Clocks and pins -/

/-- Time, the DVFS handshake and the other pins (R82 to R90, R527). -/
structure Clock where
  tick     : BitVec 64
  /-- REFCLK cycle within the tick, 0 to 199. -/
  phase    : Nat
  /-- ACLK_PT as sampled (R526). -/
  pt       : BitVec 2
  hold     : Bool
  idle     : Bool
  dbolt    : Bool
  /-- CY_UP and CY_FAILED (R90). -/
  up       : Bool
  /-- The open phase has begun in this tick (R192). -/
  openPhase : Bool
  /-- VDD_S lies within 3 % of 1.10 V, as far as a command has told: a start's rail check, an accepted sag, a loss of VDD_S
  (R130; log 33). -/
  vddsNear : Bool
  /-- STK_RST_N (R98). -/
  stkRstN  : Bool
  /-- What the checks of FCLK have told of whether it has run for 1,024 cycles since CY_RST_N rose, so that a stop of it can be
detected; nothing before the first (R537; log 53). -/
  fclkRan  : Option Bool
  /-- REFCLK cycle until which STOPPED bit 2, held in the REFCLK domain, still reads 1 once CCLK runs again (R537, R559). -/
  stopShown : Nat
  deriving DecidableEq, Repr

/-! ### The whole block -/

/-- What waits on its way into a stopped CCLK besides accesses of the ports: an Update-DR of the debug port, by instruction and
value, and a doorbell (R555, R557; log 55). -/
inductive CclkWait where
  | update (ir : BitVec 8) (value : Nat)
  | ring (hasp : Nat)
  deriving DecidableEq, Repr

/-- The state of Crety. -/
structure State where
  /-- Commands that wait, first in, first out. -/
  pending : List Instr
  clk     : Clock
  regs    : Regs
  plumb   : Plumb
  start   : Start
  dbg     : Debug
  ports   : Sparse PintlePort
  fab     : Fabric
  ct      : ControlPort
  /-- Latch words at their index (R405). -/
  latches : Sparse (BitVec 64)
  /-- Held acquires in acceptance order, at most 1,024 (R412). -/
  acq     : List HeldAcquire
  chans   : Sparse Channel
  /-- Where Crety last did something over the stack whose frames have no stated place or order: the number of the free frames that
  every channel sent before those of its `hist` (R106; log 66). -/
  frameBase : Option Nat
  dies    : Sparse Die
  banks   : Sparse Bank
  rings   : Sparse Ring
  /-- Tags of slate cells at key 16 × (256 n + row) + cell; none is a free cell (R386). -/
  slates  : Sparse (Option SlateTag)
  regions : Sparse (Option Region)
  groups  : Sparse (Option Group)
  ctl     : StepCtl
  mbox    : Mailbox
  /-- The stack by physical byte: 18,939,904 × bank index + 2,048 × physical row + byte.  Data and
  syndromes are held as differences from the background of `bg`. -/
  stack   : Store
  /-- 0 where an unwritten word of the stack reads as zero; else a number, new at each loss of VDD_S, that names the
  undefined contents (logs 2, 8). -/
  bg      : Nat
  /-- Mortar by byte, from control-space offset 0x0200_0000. -/
  mortar  : Store
  /-- Hasp storage by byte, from control-space offset 0x00C0_0000. -/
  hasps   : Store
  /-- Identity page 0, byte by byte (R123). -/
  idPage  : List Byte
  /-- Syndromes of the words of the identity and repair pages, by word number; unlisted: 0, a codeword (R122, R124). -/
  idSyn   : Sparse (BitVec 16)
  /-- FB_NODE_ID and CY_JTAG_MFR, static inputs (R90). -/
  nodeId  : BitVec 14
  jtagMfr : BitVec 11
  /-- IP revision: 0x21 or 0x20 (R524). -/
  ipRev   : BitVec 8
  /-- Acceptance counter of requests, the model's own (log 3). -/
  seq     : Nat
  /-- Events that a source has sent towards a stopped CCLK since it stopped, at most 16 (R555): channel controllers 0 to 255,
  the fabric port 256, the Pintle ports 257. -/
  crossing : Sparse Nat
  /-- Debug updates and doorbells that wait for a stopped CCLK, oldest first (R555). -/
  waits : List CclkWait
  /-- Words that a debug access has written where no rule lays out what stands: 2 × word number, plus 1 in Mortar (R549;
  log 5). -/
  dbWords : List Nat
  /-- Free-value counter, the model's own (log 4). -/
  free    : Nat
  deriving DecidableEq, Repr

/-! ### Reset values -/

def Store.empty : Store := { cells := [], synd := [] }

/-- A Pintle port as it is when CY_RST_N rises (R42). -/
def PintlePort.init : PintlePort :=
  { dnCred := 32, upCred := 32, busy := [], dups := [], behind := [], upQ := [], sent := none }

/-- A bank before any refresh, course or repair.  DESIGN CHOICE (log 54): no rule gives the row latches and the scalar file at power-up;
the latches start empty, as self-refresh leaves them (R117), and the file at zero. -/
def Bank.init : Bank :=
  { owed := 0, acc := 0, refs := 0, course := none, barred := false,
    ctx := [.empty, .empty, .empty, .empty], ctxSeen := 0, queue := [], waited := [],
    patrol := 0, patrolDue := false, busyTo := 0, cstat := (0, 0, 0), rowLat := (.empty, .empty), rowCtr := 0,
    passed := (0, 0), scalars := [], saved := (false, false),
    soft := [], fused := [], bad := [], hold := false }

/-- A channel controller at the Reset column of R534; a stack out of reset is in boot mode (R102). -/
def Channel.init : Channel :=
  { allow := 0, sref := false, trained := false, fprogHold := false,
    ceCnt := 0, ueCnt := 0, poisonCnt := 0, caparCnt := 0, refFull := 0, margin := 0, err := 0,
    hist := [], begun := [], counts := .zero, ifSpares := [], tsvUsed := 0 }

/-- A die that no TSR has read yet: tier 0 (R534 TIER reset) and no throttle (R446). -/
def Die.init : Die :=
  { sensors := [0, 0, 0, 0], tier := 0, nextTier := 0, below := 0, read := false, throttle := 128,
    act := 0, actHist := [], trip := false }

/-- A ring at the reset values of R362 and R363. -/
def Ring.init : Ring :=
  { base := 0, logSz := 8, tail := 0, head := 0, enable := false, state := .stopped, live := false, err := 0,
    poisoned := false, slateShort := false, slateFull := false, orderForced := false,
    cfgIgnored := false, errSeq := 0, save := 0, forced := 0, poisonCnt := 0,
    flight := [], failed := none, forcedQ := none, saving := false, loading := false, aborting := false, fetched := none }

/-- A hasp that is zero with STATE IDLE (R492, R501). -/
def Hasp.init : Hasp :=
  { state := .idle, overrun := false, progress := 0, req := [], reqOk := true, stamp := 0, level := 0 }

/-- An intake set that no step has held. -/
def StepSet.init : StepSet :=
  { kept := false, held := false, opened := 0, step := 0, state := .abandoned, key := 0, lossExp := 0,
    deadline := 0, expected := 0, clear := false, closed := false, masked := false, cause := 0, closeTick := 0,
    contribs := [], seals := [], stray := 0, nonfin := 0, overr := 0, present := [],
    result := .none, arrival := 0, scan := 0, poisonAcc := 0, firstMarked := none, groups := [],
    scalars := [], rec0 := false, rec1 := false, verdict := none, run := none, runs := 0,
    recovered := false, lost := 0, commitTick := 0 }

/-- Global registers at the Reset column of R523 to R539. -/
def Regs.init : Regs :=
  { lock := false, lockViol := false, irqStatus := 0, irqEnable := 0, rmtTmo := 0x03E8,
    scrubInt := 0x0040, scrubOn := 0x0040, ceThresh := 0x00010000, thermGain := 4, tierEarly := 0, mortarCe := 0,
    mortarUe := 0, portCe := 0, portUe := 0, fabCe := 0, fabUe := 0, trngFails := 0,
    katFail := false, aptFail := false, rctFail := false, grpMask := [], ward := [],
    stopped := 0, stoppedSeen := 0, cdcOver := 0, cdcCnt := [], tmoTicks := 0x01F4,
    ltWiden := 0, ltTmo := 0, ltFull := 0, ltDenied := 0, logCe := false, log := [],
    overflow := false, statePoison := 0, lateResp := 0, stale := 0, late := 0, stray := 0,
    lintelFail := 0, noUnlock := false, unlockCnt := 0, failCnt := 0, ceWindow := 0,
    ceFired := false, mortarPatrol := 0 }

/-- A Plumb record slot that holds no completed window (R457, R511). -/
def PlRecord.none : PlRecord :=
  { index := 0xFFFFFFFF, eS := 0, eB := 0, eC := 0, eIO := 0, peak := 0, sensed := [0, 0, 0, 0], flags := 0 }

/-- The sums of a window at its start. -/
def PlSum.zero : PlSum :=
  { eS := 0, eB := 0, eC := 0, eIO := 0, peak := 0, sensed := [0, 0, 0, 0], flags := 0, ticks := 0 }

/-- Reset values of the cap table: 110 − 5 L for L = 1 to 14, and 0 for L = 15 (R457). -/
def Plumb.capsInit : List (BitVec 8) :=
  [105, 100, 95, 90, 85, 80, 75, 70, 65, 60, 55, 50, 45, 40, 0]

/-- Plumb at the Reset column of R457. -/
def Plumb.init : Plumb :=
  { watts := 0x4B, caps := Plumb.capsInit, ramp := 0x100, ksShare := 0x80, senseEn := true,
    wattsOn := 0x4B, capsOn := Plumb.capsInit, capLvl := 0, capPin := none, allow := 0, ksAllow := 0, ksUsed := 0, ksParams := 0, ptBeats := 0, fbBeats := 0,
    hostOver := false, esr := false, level := 1200000000, throttleT := 0x64, coolTicks := 0xC350,
    senseLsb := [0x07D0, 0x01F4, 0x03E8, 0x01F4], railMv := [0x044C, 0x0226, 0x01C2],
    vddcMv := [0x02EE, 0x02BC, 0x028A, 0x0258], kCorr := [0x4000, 0x4000, 0x4000, 0x4000],
    senseOver := 0, hostOverCnt := 0, esrCnt := 0, tickFlags := 0, dUp := 16, hostLast := 0, samples := [none, none, none, none],
    w1s := .none, w60 := .none, hist1s := [], hist60 := [], sum1s := .zero, sum60 := .zero,
    due1s := Option.none, due60 := Option.none, last500 := [], esrUntil := 0 }

def FwSlot.empty : FwSlot := { bytes := [], len := 0 }

/-- No image runs before phase 6 of the first start (R489: RUN_SVN reads 0). -/
def FwRun.none : FwRun := { major := 0, minor := 0, patch := 0, svn := 0, cmin := 0, cmax := 0 }

/-- A calibration record that was never written. -/
def Calib.none : Calib :=
  { copy0 := false, copy1 := false, serial := 0, temps := [], soft := [], bad := [], pending := Option.none, tsv := [], ifs := [],
    delays := 0, slot := false }

/-- A spill record that was never written (R452). -/
def Spill.none : Spill :=
  { copy0 := false, copy1 := false, cause := 0, tick := 0, scratch := .empty, latches := [], image := Option.none, rings := [] }

/-- CY_START_STATUS, CY_START_CTRL and the firmware registers at the Reset column of R489, with
CY_RST_N low. -/
def Start.init : Start :=
  { mode := .reset, kind := .undecided, wait := .ports, phase := 0, lastKind := 0, trained := false,
    noLintel := false, cause := 0, warmFails := 0, coldFails := 0, seqWarm := 0, seqCold := 0, afterReset := false, fabricDown := false,
    softLost := false, fuseSuspect := false, vddsLost := false, forceCold := false,
    forceTrain := false, fwWait := 0x1388, loadState := 0, load := .empty, fuseSvn := 0,
    run := .none, slot0 := .empty, slot1 := .empty, stagedOk := false, calib := .none,
    retained := none, spill := .none, heldSpill := false, vddsFlag := false, vddcOff := false, cfgLost0 := false, cfgLost1 := false,
    found := none, calibRead := false, softRows := 0, repairIncomplete := false, waitFrom := 0, sagInStart := false, sagInFail := false, activate := none, written := [],
    readSerial := 0 }

/-- The debug port at the Reset column of R539 and R544. -/
def Debug.init : Debug :=
  { tap := .testLogicReset, dr := 0, ir := 0x01, sessionOn := false, scope := 0, sessionTick := 0, busy := .idle, chalReady := false,
    challenge := 0, chalAt := 0, lockout := none, unlockRes := 0, refused := false, haltReq := none, halted := false,
    haltCause := 0, hitIndex := 0, repairRes := 0, bkpts := [], watches := [], addr := 0,
    result := 0, access := none, accessChans := [], accessAddr := 0, accessNext := [], pc := 0 }

/-- Time and pins while CY_RST_N is low (R527, R84, R90). -/
def Clock.init : Clock :=
  { tick := 0, phase := 0, pt := 0, hold := false, idle := false, dbolt := false, up := false, openPhase := false, vddsNear := true, stkRstN := false,
    fclkRan := none, stopShown := 0 }

/-- Step control before any start has read a Lintel record; the seed, level and revision are those of
a cold start without a record (R464). -/
def StepCtl.init : StepCtl :=
  { epoch := 0, seed := 0, seedSrc := 0, compat := 3, numRev := 2, seq := 0, commitTick := 0,
    cfgSeq := 0, writing := none, lintel := [], setA := .init, setB := .init, staged := [], journal := [], items := [], debt := 0, debtAll := 0 }

/-- Identity page 0 of the stack at power-up: a CP2-F page that meets every required value of R123,
with the typical coefficients of R430 (log 10). -/
def idPageReset : List Byte :=
  [0x43#8, 0x42#8, 0x4c#8, 0x32#8, 0x02#8, 0x00#8, 0x02#8, 0x00#8, 0x10#8, 0x10#8, 0x10#8, 0x10#8, 0x00#8, 0x24#8, 0x20#8, 0x00#8,
   0x00#8, 0x08#8, 0x00#8, 0x01#8, 0x01#8, 0x00#8, 0x00#8, 0x00#8, 0x01#8, 0x00#8, 0x00#8, 0x00#8, 0x00#8, 0x00#8, 0x00#8, 0x00#8,
   0x40#8, 0x06#8, 0x40#8, 0x06#8, 0x80#8, 0x0c#8, 0xc0#8, 0x12#8, 0xe0#8, 0x2e#8, 0x0b#8, 0x01#8, 0x40#8, 0x06#8, 0x20#8, 0x03#8,
   0x20#8, 0x4e#8, 0x10#8, 0x0c#8, 0x00#8, 0x00#8, 0x00#8, 0x00#8, 0x40#8, 0x7d#8, 0x00#8, 0x00#8, 0xc0#8, 0x3e#8, 0x00#8, 0x00#8,
   0x80#8, 0x1f#8, 0x00#8, 0x00#8, 0x04#8, 0x73#8, 0x00#8, 0x00#8, 0x80#8, 0x00#8, 0x40#8, 0x00#8, 0x04#8, 0x00#8, 0x04#8, 0x00#8,
   0x60#8, 0x09#8, 0x90#8, 0x1a#8, 0x90#8, 0x1a#8, 0xb8#8, 0x0b#8, 0x70#8, 0x17#8, 0x50#8, 0x05#8, 0x25#8, 0x02#8, 0x96#8, 0x00#8]
  ++ List.replicate 412 0 ++ [0x6b#8, 0x45#8, 0xf9#8, 0xeb#8]

/-- The machine after power-up, with CY_RST_N low (R527, R517): the command that starts it is
`cyRstNDeassert`. -/
def State.reset : State :=
  { pending := [], clk := .init, regs := .init, plumb := .init, start := .init, dbg := .init,
    ports := [], fab := { up := false, fo := [], ready := [], held := [], outbound := [], crossing := [] },
    ct := { capture := none, last := none }, latches := [], acq := [], chans := [], frameBase := none, dies := [],
    banks := [], rings := [], slates := [], regions := [], groups := [], ctl := .init,
    mbox := { hasps := [], queue := [], active := none, bg := [], after := none, before := none, sets := [], newSeed := none },
    stack := .empty, bg := 0, mortar := .empty, hasps := .empty, idPage := idPageReset, idSyn := [],
    nodeId := 0, jtagMfr := 0, ipRev := 0x21, seq := 0, crossing := [], waits := [], dbWords := [], free := 0 }

end Sys2Proof.Machine
end

