-- ==== Sys2Proof/Machine/Access.lean ====
section
/-!
DEFINITION. One reader and one writer for each numbered unit of the state.
-/

namespace Sys2Proof.Machine

def State.port (s : State) (n : Nat) : PintlePort := Sparse.get .init s.ports n
def State.setPort (s : State) (n : Nat) (p : PintlePort) : State := { s with ports := Sparse.set .init s.ports n p }
def State.chan (s : State) (c : Nat) : Channel := Sparse.get .init s.chans c
def State.setChan (s : State) (c : Nat) (x : Channel) : State := { s with chans := Sparse.set .init s.chans c x }
def State.die (s : State) (d : Nat) : Die := Sparse.get .init s.dies d
def State.setDie (s : State) (d : Nat) (x : Die) : State := { s with dies := Sparse.set .init s.dies d x }
def State.bank (s : State) (k : Nat) : Bank := Sparse.get .init s.banks k
def State.setBank (s : State) (k : Nat) (b : Bank) : State := { s with banks := Sparse.set .init s.banks k b }
def State.ring (s : State) (k : Nat) : Ring := Sparse.get .init s.rings k
def State.setRing (s : State) (k : Nat) (r : Ring) : State := { s with rings := Sparse.set .init s.rings k r }
def State.region (s : State) (i : Nat) : Option Region := Sparse.get none s.regions i
def State.setRegion (s : State) (i : Nat) (r : Option Region) : State := { s with regions := Sparse.set none s.regions i r }
def State.group (s : State) (g : Nat) : Option Group := Sparse.get none s.groups g
def State.setGroup (s : State) (g : Nat) (x : Option Group) : State := { s with groups := Sparse.set none s.groups g x }
def State.latch (s : State) (i : Nat) : BitVec 64 := Sparse.get 0 s.latches i
def State.setLatch (s : State) (i : Nat) (w : BitVec 64) : State := { s with latches := Sparse.set 0 s.latches i w }
def State.hasp (s : State) (h : Nat) : Hasp := Sparse.get .init s.mbox.hasps h
def State.setHasp (s : State) (h : Nat) (x : Hasp) : State :=
  { s with mbox := { s.mbox with hasps := Sparse.set .init s.mbox.hasps h x } }
def State.slateTag (s : State) (k : Nat) : Option SlateTag := Sparse.get none s.slates k
def State.setSlateTag (s : State) (k : Nat) (x : Option SlateTag) : State := { s with slates := Sparse.set none s.slates k x }
/-- Intake set A (false) or B (true) (R270). -/
def State.set (s : State) (b : Bool) : StepSet := if b then s.ctl.setB else s.ctl.setA
def State.setSet (s : State) (b : Bool) (x : StepSet) : State :=
  if b then { s with ctl := { s.ctl with setB := x } } else { s with ctl := { s.ctl with setA := x } }

/-- The defined groups, ascending. -/
def State.groupList (s : State) : List (Nat × Group) := s.groups.filterMap (fun e => e.2.map (fun g => (e.1, g)))

/-- The defined regions, ascending. -/
def State.regionList (s : State) : List (Nat × Region) := s.regions.filterMap (fun e => e.2.map (fun r => (e.1, r)))

/-- REFCLK cycle count (R527). -/
def State.now (s : State) : Nat := 200 * s.clk.tick.toNat + s.clk.phase

/-- The next acceptance number (log 3). -/
def State.bump (s : State) : State := { s with seq := s.seq + 1 }

/-- Clock domain d runs: 0 ACLK, 1 SCLK, 2 CCLK, 3 FCLK, 4 REFCLK (R537, R557). -/
def State.runs (s : State) (d : Nat) : Bool := !s.regs.stopped.getLsbD d

/-- Moves time on to a REFCLK cycle of the tick in progress; time never runs back, and stands while REFCLK does (R557; log 15). -/
def State.touch (s : State) (at_ : Nat) : State :=
  { s with clk := { s.clk with phase := if s.runs 4 then max s.clk.phase (min at_ 199) else s.clk.phase } }

def State.serving (s : State) : Bool := s.start.mode == .serving

/-- Warden goes on with the work of steps and records: it runs and the stack answers (R448, R547, R557). -/
def State.wardenRuns (s : State) : Bool := s.serving && !s.dbg.halted && !s.plumb.esr && s.runs 1 && s.runs 2

/-- The Keystone leaves go on: ACLK runs, and no change of point holds them: they stop at their next stack access once
ACLK_HOLD has risen (R89, R557). -/
def State.leavesRun (s : State) : Bool := s.runs 0 && !s.clk.idle && !s.clk.hold

end Sys2Proof.Machine
end

