-- ==== Sys2Proof/Machine/Bits.lean ====
section
/-!
DEFINITION. Bit-field, byte-order, saturation and list helpers (R9, R10, R519).
-/

namespace Sys2Proof.Machine

/-- Bits [hi:lo] of a number, both ends included (R9). -/
def bits (x hi lo : Nat) : Nat := (x >>> lo) % 2 ^ (hi + 1 - lo)

/-- Bit i of a number. -/
def bit (x i : Nat) : Bool := (x >>> i) % 2 == 1

/-- Little-endian value of a list of bytes (R10). -/
def leNat : List Byte → Nat
  | [] => 0
  | b :: r => b.toNat + 256 * leNat r

/-- The number that bytes [lo, lo + n) of a list spell (R10). -/
def field (bs : List Byte) (lo n : Nat) : Nat := leNat ((bs.drop lo).take n)

/-- The n low bytes of a number, little-endian (R10). -/
def leBytes : Nat → Nat → List Byte
  | 0, _ => []
  | n + 1, x => BitVec.ofNat 8 x :: leBytes n (x / 256)

/-- The signed value of a number taken as a w-bit two's complement code. -/
def sInt (w x : Nat) : Int := (BitVec.ofNat w x).toInt

/-- Adds to a counter that stops at its largest value (R519). -/
def satAdd {w : Nat} (c : BitVec w) (n : Nat) : BitVec w :=
  if c.toNat + n < 2 ^ w then BitVec.ofNat w (c.toNat + n) else BitVec.allOnes w

/-- A host write to a counter: zero clears it, any other value has no effect (R519). -/
def cntWrite {w : Nat} (old : BitVec w) (v : BitVec 32) : BitVec w := if v = 0 then 0 else old

/-- A write to W1C bits: 1 clears, 0 has no effect (R516). -/
def w1c {w : Nat} (old v : BitVec w) : BitVec w := old &&& ~~~ v

/-- Keeps a value within [lo, hi] (the clamps of R71, R411, R457, R529). -/
def clampNat (lo hi x : Nat) : Nat := if x < lo then lo else if hi < x then hi else x

/-- Smallest multiple of m that is not below x. -/
def roundUp (m x : Nat) : Nat := (x + m - 1) / m * m

/-- Rounded-up quotient. -/
def ceilDiv (x m : Nat) : Nat := (x + m - 1) / m

/-- Replaces position i of a list (no change past its end). -/
def setAt {α : Type} : List α → Nat → α → List α
  | [], _, _ => []
  | _ :: r, 0, v => v :: r
  | a :: r, i + 1, v => a :: setAt r i v

/-- 1 for true. -/
def b2n (b : Bool) : Nat := if b then 1 else 0

/-- A Bool as a bit vector. -/
def bbit (w : Nat) (b : Bool) : BitVec w := BitVec.ofNat w (b2n b)

/-- Position of the highest one bit plus one; 0 for 0. -/
def bitLen (x : Nat) : Nat := if x = 0 then 0 else Nat.log2 x + 1

/-- CRC-32 of IEEE 802.3 over bytes, one bit at a time (R123). -/
def crcBit (c : Nat) : Nat := if c % 2 = 1 then (c / 2) ^^^ 0xEDB88320 else c / 2

def crcByte (c : Nat) (b : Byte) : Nat :=
  (List.range 8).foldl (fun c _ => crcBit c) (c ^^^ b.toNat)

/-- CRC-32: initial value all ones, reflected, final XOR all ones (R123). -/
def crc32 (bs : List Byte) : BitVec 32 :=
  BitVec.ofNat 32 ((bs.foldl crcByte 0xFFFFFFFF) ^^^ 0xFFFFFFFF)

/-- Word i of a line, bits [128 i + 127 : 128 i]. -/
def lineWord (d : LineData) (i : Nat) : BitVec 128 := BitVec.ofNat 128 (d.toNat >>> (128 * i))

/-- Check bits of word i of a line. -/
def lineChk (c : LineChk) (i : Nat) : BitVec 16 := BitVec.ofNat 16 (c.toNat >>> (16 * i))

/-- A line from its eight words, word 0 first. -/
def lineOfWords (ws : List (BitVec 128)) : LineData :=
  BitVec.ofNat 1024 (ws.foldr (fun w acc => w.toNat + 2 ^ 128 * acc) 0)

/-- Line check bits from eight 16-bit values, word 0 first. -/
def chkOfWords (cs : List (BitVec 16)) : LineChk :=
  BitVec.ofNat 128 (cs.foldr (fun w acc => w.toNat + 2 ^ 16 * acc) 0)

end Sys2Proof.Machine
end

