-- ==== Sys2Proof/Config.lean ====
section
/-!
DEFINITION. What one implementation of Crety fixes, and the free values: values that the manual
leaves open although the machine goes on.  Each is a constant without a body, so no proof can
learn it.
-/

namespace Sys2Proof.Config

/-- FREE VALUE (log 5): the content of a Bond word that the manual leaves undefined, for the n-th
read of such a word: a slot that a stopped run left part-written (R333), a system-area word whose
place or layout the manual does not give (R568), and a stack word after VDD_S was lost (R455). -/
opaque freeWord : Nat → BitVec 128

/-- FREE VALUE (log 6): the static VDD_C power in mW at each ACLK point (R431, R513: fixed in Warden
firmware). -/
opaque vddcStatic : Nat → BitVec 16

/-- FREE VALUE (log 6): the four dynamic VDD_C coefficients in 0.1 pJ (R431, R513). -/
opaque vddcDyn : Nat → BitVec 16

/-- FREE VALUE (log 66): the n-th command frame that the manual does not name: the last ones of an activity over the whole stack
whose order Crety chooses (R106, R437). -/
opaque frame : Nat → BitVec 48

/-- FREE VALUE (log 28): the work that the n-th bed does whose end no BED_END tells, as it runs to its granted length (R195). -/
opaque bedUnits : Nat → Nat

/-- FREE VALUE (log 7): the firmware key hash that the integrator fuses at chip test (R474). -/
opaque fwKeyHash : BitVec 384

/-- FREE VALUE (log 7): the debug key hash that the integrator fuses at chip test (R543). -/
opaque dbKeyHash : BitVec 384

/-- FREE VALUE (log 8): data and check-bit syndrome of a stack word that has not been written since the n-th
loss of VDD_S: the contents are then undefined word by word (R455). -/
opaque lostWord : Nat → Nat → BitVec 128
opaque lostSyn : Nat → Nat → BitVec 16

/-- FREE VALUE (log 8): a record of the system area, the n-th that may have been destroyed, still reads as it was (R356, R455,
R549). -/
opaque kept : Nat → Bool

/-- FREE VALUE (log 53): FCLK had run for 1,024 cycles when the n-th stop of it came that no check had preceded (R537). -/
opaque fclkRan : Nat → Bool

/-- FREE VALUE (log 11): the Keystone leaf, 0 to 15, that makes an access: any leaf may take any stone. -/
opaque leaf : Nat → BitVec 4

/-- FREE VALUE (log 9): an instruction of Warden stepped or run under debug has no effect that the
manual states (R546, R24); this is the HALT_CAUSE-independent number of the instruction address
that the n-th step reaches. -/
opaque wardenPc : Nat → BitVec 32

/-- FREE VALUE (log 36): the cause that CY_START_STATUS shows when a staged image does not start, for the n-th such
failure (R467 lists no cause for step 3 of R477). -/
opaque imageCause : Nat → BitVec 4

end Sys2Proof.Config
end

