-- ==== Sys2Proof/Machine/Bond.lean ====
section
/-!
DEFINITION. The Bond code: the field GF(16), the columns of H, encoding, syndromes and the CORRECT and
DETECT policies (R168 to R174).
-/

namespace Sys2Proof.Machine

/-- Multiplies a field element by alpha: alpha^4 = alpha + 1 (R168). -/
def gfX (a : Nat) : Nat := if a < 8 then 2 * a else (2 * a) ^^^ 0x13

/-- Product of two field elements (R168). -/
def gfMul (a b : Nat) : Nat :=
  (if bit b 0 then a else 0) ^^^ (if bit b 1 then gfX a else 0) ^^^
  (if bit b 2 then gfX (gfX a) else 0) ^^^ (if bit b 3 then gfX (gfX (gfX a)) else 0)

/-- Inverse of a non-zero element: a^14. -/
def gfInv (a : Nat) : Nat :=
  let a2 := gfMul a a
  let a4 := gfMul a2 a2
  let a8 := gfMul a4 a4
  gfMul a8 (gfMul a4 a2)

/-- The columns H_0 to H_35 (R169). -/
def bondH : List Nat :=
  [0x2053, 0x2172, 0x2271, 0x2350, 0x24A7, 0x2586, 0x2685, 0x27A4, 0x282B,
   0x290A, 0x2A09, 0x2B28, 0x2CDF, 0x2DFE, 0x2EFD, 0x2FDC, 0x40D5, 0x4194,
   0x4237, 0x4376, 0x4491, 0x45D0, 0x4673, 0x4732, 0x48FD, 0x49BC, 0x4A1F,
   0x4B5E, 0x4CB9, 0x4DF8, 0x4E5B, 0x4F1A, 0x0001, 0x0010, 0x0100, 0x1000]

/-- Scales a packed column by a field element. -/
def gfScale (h e : Nat) : Nat :=
  gfMul (bits h 3 0) e + 16 * gfMul (bits h 7 4) e + 256 * gfMul (bits h 11 8) e +
    4096 * gfMul (bits h 15 12) e

/-- XOR of column j scaled by symbol j, from symbol j on. -/
def bondSum : List Nat → Nat → Nat
  | [], _ => 0
  | h :: r, d => gfScale h (d % 16) ^^^ bondSum r (d / 16)

/-- The check bits of a data word (R171). -/
def bondEncode (d : BondData) : BitVec 16 := BitVec.ofNat 16 (bondSum (bondH.take 32) d.toNat)

/-- The syndrome of a received word (R170); check columns are unit vectors. -/
def bondSyndrome (d : BondData) (c : BitVec 16) : BitVec 16 := bondEncode d ^^^ c

/-- The poison mask, which is also the syndrome of a poisoned word (R174). -/
def poisonMask : BitVec 16 := 0xA5A5

/-- Outcome of a check (R172, R173). -/
inductive BondOutcome where
  | clean
  | corrected (d : BondData)
  | poison
  | uncorrectable
  deriving DecidableEq, Repr

/-- The error value that column h would need to give the syndrome: the syndrome's symbol in the lowest
row in which h is not zero, divided by h's (R172). -/
def bondErr (h s : Nat) : Nat :=
  if bits h 3 0 ≠ 0 then gfMul (bits s 3 0) (gfInv (bits h 3 0))
  else if bits h 7 4 ≠ 0 then gfMul (bits s 7 4) (gfInv (bits h 7 4))
  else if bits h 11 8 ≠ 0 then gfMul (bits s 11 8) (gfInv (bits h 11 8))
  else gfMul (bits s 15 12) (gfInv (bits h 15 12))

/-- Looks for the one column that explains the syndrome, from column j on (R172). -/
def bondFind (s : Nat) : List Nat → Nat → Option (Nat × Nat)
  | [], _ => none
  | h :: r, j =>
    let e := bondErr h s
    if gfScale h e = s then some (j, e) else bondFind s r (j + 1)

/-- Checks a word under CORRECT, given its data and syndrome (R172). -/
def bondCorrect (d : BondData) (s : BitVec 16) : BondOutcome :=
  if s = 0 then .clean
  else if s = poisonMask then .poison
  else match bondFind s.toNat bondH 0 with
    | some (j, e) => .corrected (if j < 32 then d ^^^ BitVec.ofNat 128 (e <<< (4 * j)) else d)
    | none => .uncorrectable

/-- Checks a word under DETECT (R173). -/
def bondDetect (s : BitVec 16) : BondOutcome :=
  if s = 0 then .clean else if s = poisonMask then .poison else .uncorrectable

/-- Checks under the named policy: DETECT when the flag is set (R152, R175). -/
def bondCheck (detect : Bool) (d : BondData) (s : BitVec 16) : BondOutcome :=
  if detect then bondDetect s else bondCorrect d s

/-- The data that an outcome delivers, and whether it is delivered poisoned (R176). -/
def BondOutcome.value (o : BondOutcome) (d : BondData) : BondData × Bool :=
  match o with
  | .clean => (d, false)
  | .corrected d' => (d', false)
  | .poison => (d, true)
  | .uncorrectable => (d, true)

/-- The check bits of a word that is driven or stored, poisoned or not (R174). -/
def chkFor (d : BondData) (poisoned : Bool) : BitVec 16 :=
  if poisoned then bondEncode d ^^^ poisonMask else bondEncode d

end Sys2Proof.Machine
end

