-- ==== Sys2Proof/Machine/Store.lean ====
section
/-!
DEFINITION. Stores of Bond words: reading and writing bytes, words and lines, and their canonical form.
-/

namespace Sys2Proof.Machine

/-- The data byte at an address. -/
def Store.byte (m : Store) (a : Nat) : Byte := Sparse.get 0 m.cells a

/-- n bytes from an address, lowest first. -/
def Store.bytes (m : Store) (a n : Nat) : List Byte := (List.range n).map (fun i => m.byte (a + i))

/-- The stored data of word w. -/
def Store.data (m : Store) (w : Nat) : BondData := BitVec.ofNat 128 (leNat (m.bytes (16 * w) 16))

/-- The syndrome of word w. -/
def Store.syn (m : Store) (w : Nat) : BitVec 16 := Sparse.get 0 m.synd w

/-- Writes one byte and leaves the syndrome of its word. -/
def Store.setByte (m : Store) (a : Nat) (b : Byte) : Store :=
  { m with cells := Sparse.set 0 m.cells a b }

/-- Sets the syndrome of word w. -/
def Store.setSyn (m : Store) (w : Nat) (s : BitVec 16) : Store :=
  { m with synd := Sparse.set 0 m.synd w s }

/-- Writes bytes from an address on. -/
def Store.setBytes (m : Store) : Nat → List Byte → Store
  | _, [] => m
  | a, b :: r => Store.setBytes (m.setByte a b) (a + 1) r

/-- Writes a whole word with a given syndrome (0 for fresh check bits, the poison mask for poison). -/
def Store.setWord (m : Store) (w : Nat) (d : BondData) (s : BitVec 16) : Store :=
  (m.setBytes (16 * w) (leBytes 16 d.toNat)).setSyn w s

/-- Writes bytes [a, a + length) with fresh check bits in every word that they touch, as an agent does
that rewrites whole words. -/
def Store.writeFresh (m : Store) (a : Nat) (bs : List Byte) : Store :=
  let m' := m.setBytes a bs
  (List.range (ceilDiv (a + bs.length) 16 - a / 16)).foldl (fun m i => m.setSyn (a / 16 + i) 0) m'

/-- Makes every byte of [a, a + n) zero with valid check bits. -/
def Store.zero (m : Store) (a n : Nat) : Store :=
  { cells := m.cells.filter (fun e => decide (e.1 < a ∨ a + n ≤ e.1)),
    synd := m.synd.filter (fun e => decide (16 * e.1 + 15 < a ∨ a + n ≤ 16 * e.1)) }

/-- The part of a store inside [a, a + n), moved so that a becomes 0. -/
def Store.window (m : Store) (a n : Nat) : Store :=
  { cells := (m.cells.filter (fun e => decide (a ≤ e.1 ∧ e.1 < a + n))).map (fun e => (e.1 - a, e.2)),
    synd := (m.synd.filter (fun e => decide (a ≤ 16 * e.1 ∧ 16 * e.1 < a + n))).map
      (fun e => (e.1 - a / 16, e.2)) }

/-- Writes every listed byte and syndrome of a window at an offset (the window replaces the range). -/
def Store.restore (m : Store) (a n : Nat) (win : Store) : Store :=
  let z := m.zero a n
  let c := win.cells.foldl (fun (m : Store) e => m.setByte (a + e.1) e.2) z
  win.synd.foldl (fun (m : Store) e => m.setSyn (a / 16 + e.1) e.2) c

/-- The canonical form of a store. -/
def Store.wf (m : Store) : Bool := Sparse.wf 0 m.cells && Sparse.wf 0 m.synd

/-- A word as a checker reads it: outcome, delivered data and whether it is poisoned (R172 to R176). -/
def Store.check (m : Store) (detect : Bool) (w : Nat) : BondOutcome :=
  bondCheck detect (m.data w) (m.syn w)

def Store.value (m : Store) (detect : Bool) (w : Nat) : BondData × Bool :=
  (m.check detect w).value (m.data w)

end Sys2Proof.Machine
end

