-- ==== Sys2Proof/Machine/Address.lean ====
section
/-!
DEFINITION. Address spaces and placement: the control map, regions, the Quoin hash, PLACED regions and the
physical rows behind logical rows (R131 to R160).
-/

namespace Sys2Proof.Machine

/-- Extent of stack space, 72 GiB (R132). -/
def stackSize : Nat := 0x1200000000
def slabSize : Nat := 0x800000
/-- Slabs that regions may use; the rest is the system area (R144). -/
def slabLimit : Nat := 9208

/-- A place in a bank: bank index, logical row, byte in the row. -/
structure Loc where
  bank : Nat
  row  : Nat
  byte : Nat
  deriving DecidableEq, Repr

/-- The Quoin hash (R156). -/
def quoin (a : Nat) : Loc :=
  let chan := bits a 14 7 ^^^ bits a 22 15 ^^^ bits a 30 23 ^^^ bits a 38 31
  let bank := bits a 18 15 ^^^ bits a 22 19 ^^^ bits a 26 23 ^^^ bits a 30 27 ^^^ bits a 34 31 ^^^ bits a 38 35
  { bank := 16 * chan + bank, row := bits a 36 23, byte := 128 * bits a 22 19 + bits a 6 0 }

/-- Offsets of a PLACED region with first slab f and n slabs (R158). -/
def placedLoc (a f n : Nat) : Loc :=
  let l := a - f * slabSize
  let span := n * 2048
  { bank := l / span, row := f + l % span / 2048, byte := l % span % 2048 }

/-- Whether a region covers a slab. -/
def Region.covers (r : Region) (slab : Nat) : Bool := decide (r.first ≤ slab) && decide (slab < r.first + r.slabs)

/-- The region that holds a slab. -/
def State.regionAtSlab (s : State) (slab : Nat) : Option Region :=
  (s.regionList.find? (fun e => e.2.covers slab)).map (·.2)

/-- The region that holds a stack offset (R133, R145). -/
def State.regionAt (s : State) (a : Nat) : Option Region :=
  if a < stackSize then s.regionAtSlab (a / slabSize) else none

/-- Where a region's offset lies (R145, R156, R158). -/
def Region.loc (r : Region) (a : Nat) : Loc := if r.placed then placedLoc a r.first r.slabs else quoin a

/-- Logical rows and spares of the soft entries, then of the fuses. -/
def Bank.remaps (b : Bank) : List (Nat × Nat) := b.soft.map (·.2) ++ b.fused

/-- The physical row of a logical row: the target of its soft entry, else the spare that was fused for it last,
else itself; spare k is physical row 9,216 + k (R126 to R128). -/
def Bank.physRow (b : Bank) (row : Nat) : Nat :=
  match b.soft.find? (fun e => e.2.1 == row) with
  | some e => 9216 + e.2.2
  | none =>
    match b.fused.reverse.find? (fun e => e.1 == row) with
    | some e => 9216 + e.2
    | none => row

/-- The offset that the hash of R156 takes to a place. -/
def unquoin (l : Loc) : Nat :=
  let hi := 2 ^ 23 * l.row + 2 ^ 19 * (l.byte / 128)
  let bank := l.bank % 16 ^^^ bits hi 22 19 ^^^ bits hi 26 23 ^^^ bits hi 30 27 ^^^ bits hi 34 31 ^^^ bits hi 38 35
  let mid := hi + 2 ^ 15 * bank
  mid + 128 * (l.bank / 16 ^^^ bits mid 22 15 ^^^ bits mid 30 23 ^^^ bits mid 38 31) + l.byte % 128

/-- The logical row that a physical row holds, if it holds one. -/
def Bank.logicalRow (b : Bank) (phys : Nat) : Option Nat :=
  if phys < 9216 then if b.physRow phys = phys then some phys else none
  else (b.remaps.map (·.1)).find? (fun r => b.physRow r == phys)

/-- Bytes of one bank with its spare rows, 9,248 × 2,048. -/
def bankBytes : Nat := 18939904

/-- Word number in the stack store of word wi of a logical row. -/
def State.stackWordNo (s : State) (bank row wi : Nat) : Nat :=
  bank * (bankBytes / 16) + (s.bank bank).physRow row * 128 + wi

/-- The place of word w of the stack store, where a logical row lies in its physical row. -/
def State.wordLoc (s : State) (w : Nat) : Option Loc :=
  let bank := w / (bankBytes / 16)
  let r := w % (bankBytes / 16)
  ((s.bank bank).logicalRow (r / 128)).map (fun row => { bank := bank, row := row, byte := 16 * (r % 128) })

/-- Data of a word of the stack store. -/
def State.stkData (s : State) (w : Nat) : BondData :=
  if s.bg = 0 then s.stack.data w else s.stack.data w ^^^ Config.lostWord s.bg w

/-- Syndrome of a word of the stack store. -/
def State.stkSyn (s : State) (w : Nat) : BitVec 16 :=
  if s.bg = 0 then s.stack.syn w else s.stack.syn w ^^^ Config.lostSyn s.bg w

/-- Writes a word of the stack store. -/
def State.stkSet (s : State) (w : Nat) (d : BondData) (syn : BitVec 16) : State :=
  if s.bg = 0 then { s with stack := s.stack.setWord w d syn }
  else { s with stack := s.stack.setWord w (d ^^^ Config.lostWord s.bg w) (syn ^^^ Config.lostSyn s.bg w) }

/-- The policy of a region (R152, R175). -/
def Region.policy (r : Option Region) : Bool := match r with
  | some r => r.detect
  | none => false

/-! ### Control space (R134, R136) -/

/-- What an offset of control space names. -/
inductive CtlTarget where
  | global (off : Nat)
  | chan (c : Nat) (off : Nat)
  | broadcast (off : Nat)
  | groupAlias (g : Nat) (off : Nat)
  | latch (i : Nat) (off : Nat)
  | ring (k : Nat) (off : Nat)
  | hasp (off : Nat)
  /-- Mortar, with the rights of its area: reads and writes allowed (R136). -/
  | mortar (off : Nat) (rd wr : Bool)
  | unmapped
  deriving DecidableEq, Repr

/-- The map of R134 and R136. -/
def ctlTarget (off : Nat) : CtlTarget :=
  if off < 0x10000 then .global off
  else if off < 0x100000 then .unmapped
  else if off < 0x200000 then .chan ((off - 0x100000) / 0x1000) (off % 0x1000)
  else if off < 0x201000 then .broadcast (off % 0x1000)
  else if off < 0x210000 then .unmapped
  else if off < 0x220000 then .groupAlias ((off - 0x210000) / 0x1000) (off % 0x1000)
  else if off < 0x400000 then .unmapped
  else if off < 0x480000 then .latch ((off - 0x400000) / 64) (off % 64)
  else if off < 0x800000 then .unmapped
  else if off < 0x900000 then .ring ((off - 0x800000) / 256) (off % 256)
  else if off < 0xC00000 then .unmapped
  else if off < 0xC10000 then .hasp (off - 0xC00000)
  else if off < 0x2000000 then .unmapped
  else if off < 0x3000000 then .mortar (off - 0x2000000) true true
  else if off < 0x3200000 then .mortar (off - 0x2000000) true false
  else if off < 0x8000000 then .mortar (off - 0x2000000) false false
  else .unmapped

/-- A target that holds registers: written in whole 32-bit registers (R45). -/
def CtlTarget.isReg : CtlTarget → Bool
  | .global _ => true
  | .chan _ _ => true
  | .broadcast _ => true
  | .groupAlias _ _ => true
  | .ring _ _ => true
  | _ => false

end Sys2Proof.Machine
end

