-- ==== Sys2Proof/Machine/Operands.lean ====
section
/-!
DEFINITION. Operand forms: the operand word of an atomic and the latch word (R405, R406), and byte fields of
payloads and lines (R10).
-/

namespace Sys2Proof.Machine

/-! ### Atomics (R406) -/

/-- ADD of an FADD, CMP of a CAS. -/
def opLow (w : BitVec 128) : Nat := bits w.toNat 47 0
def opAcq (w : BitVec 128) : Bool := bit w.toNat 61
def opScope (w : BitVec 128) : Nat := bits w.toNat 63 62
/-- TARGET of an acquire, SWAP of a CAS. -/
def opHigh (w : BitVec 128) : Nat := bits w.toNat 111 64

/-- An operand word that is refused with BAD_OP (R406). TARGET of a release is a field that must be zero. -/
def atomicBad (isCas : Bool) (w : BitVec 128) : Bool :=
  opScope w == 3 || bits w.toNat 60 48 != 0 || bits w.toNat 127 112 != 0 ||
  (if isCas then opAcq w
   else (opAcq w && opLow w != 0) || (!opAcq w && opHigh w != 0))

/-! ### The latch word (R405) -/

def latchValue (w : BitVec 64) : Nat := bits w.toNat 47 0
def latchAgent (w : BitVec 64) : Nat := bits w.toNat 61 48
def latchScope (w : BitVec 64) : Nat := bits w.toNat 63 62

/-- An agent ID of a Corbel unit (R402). -/
def isCorbel (agent : Nat) : Bool := decide (64 ≤ agent) && decide (agent ≤ 4159)

/-- The word that a release leaves: a BANK release by any agent but a Corbel unit is recorded as STACK
(R404). -/
def latchWord (value scope agent : Nat) : BitVec 64 :=
  let sc := if scope = 0 && !isCorbel agent then 1 else scope
  BitVec.ofNat 64 (sc * 2 ^ 62 + agent % 2 ^ 14 * 2 ^ 48 + value % 2 ^ 48)

/-! ### Byte fields (R10) -/

/-- Bytes of a line, byte 0 first. -/
def lineBytes (d : LineData) : List Byte := leBytes 128 d.toNat

def lineOfBytes (bs : List Byte) : LineData := BitVec.ofNat 1024 (leNat bs)

/-- Whether any byte of [lo, lo + n) is not zero; the lowest such byte. -/
def firstNonzero (bs : List Byte) (lo n : Nat) : Option Nat :=
  (List.range n).findSome? (fun i => if bs.getD (lo + i) 0 = 0 then none else some (lo + i))

/-- A sparse byte map read as a list. -/
def bytesOf (m : List (Nat × Byte)) (lo n : Nat) : List Byte :=
  (List.range n).map (fun i => match m.find? (fun e => e.1 == lo + i) with
    | some e => e.2
    | none => 0)

/-- A list of bytes as a sparse map without zeros. -/
def toSparse (bs : List Byte) : List (Nat × Byte) :=
  (List.zip (List.range bs.length) bs).filter (fun e => e.2 != 0)

end Sys2Proof.Machine
end

