-- ==== Sys2Proof/Machine/Ops.lean ====
section
/-!
DEFINITION. Shared operations: interrupt causes, the error log, the Bond counters, and reading, writing and
merging Bond words of the stack, Mortar and hasps (R45, R174 to R189, R528).
-/

namespace Sys2Proof.Machine

/-- A command that names a unit outside the block stops; any other has its effect. -/
def guard (ok : Bool) (s : State) : Host.Outcome State Fault Refusal :=
  if ok then .next s else .fault .noSuchUnit

/-! ### Records kept twice (R356, R452, R459, R462) -/

/-- A copy of the calibration record is valid. -/
def Calib.valid (c : Calib) : Bool := c.copy0 || c.copy1

/-- A copy of the spill record is marked valid. -/
def Spill.valid (x : Spill) : Bool := x.copy0 || x.copy1

/-- No copy of the configuration image reads back. -/
def Start.cfgBad (t : Start) : Bool := t.cfgLost0 && t.cfgLost1

/-! ### Interrupt causes (R528) -/

/-- Bits of CY_IRQ_STATUS (R528). -/
inductive Irq where
  | startDone | mboxDone | stepEvent | stateFault | ringDone | ringFault | bondCe | bondUe | bondPoison
  | trngFail | pwrOver | thermThrottle | thermEsr | remoteTimeout | remoteError | clockStopped | cdcOverrun
  | erOverflow | lintelFail | debug
  deriving DecidableEq, Repr

/-- Bit number of a cause (R528). -/
def Irq.bit : Irq → Nat
  | .startDone => 0 | .mboxDone => 1 | .stepEvent => 2 | .stateFault => 3 | .ringDone => 4 | .ringFault => 5
  | .bondCe => 6 | .bondUe => 7 | .bondPoison => 8 | .trngFail => 9 | .pwrOver => 10 | .thermThrottle => 11
  | .thermEsr => 12 | .remoteTimeout => 13 | .remoteError => 14 | .clockStopped => 15 | .cdcOverrun => 16
  | .erOverflow => 17 | .lintelFail => 18 | .debug => 19

/-- Sets a cause; it stays set until it is cleared (R528). -/
def State.irq (s : State) (i : Irq) : State :=
  { s with regs := { s.regs with irqStatus := s.regs.irqStatus ||| BitVec.ofNat 20 (2 ^ i.bit) } }

/-- CY_IRQ: 1 while any cause is set and enabled (R90, R528). -/
def State.cyIrq (s : State) : Bool := decide (s.regs.irqStatus &&& s.regs.irqEnable ≠ 0)

/-! ### Error log (R187, R188) -/

/-- Adds an entry, or drops it and sets OVERFLOW when 64 are held (R188, R528 bit 17). -/
def State.pushLog (s : State) (src outcome : Nat) (syn : BitVec 16) (agent : Nat) (where_ : Nat) : State :=
  if s.regs.log.length < 64 then
    { s with regs := { s.regs with log := s.regs.log ++
      [{ source := BitVec.ofNat 8 src, outcome := BitVec.ofNat 8 outcome, syndrome := syn,
         agent := BitVec.ofNat 16 agent, where_ := BitVec.ofNat 64 where_, tick := s.clk.tick }] } }
  else if s.regs.overflow then s
  else ({ s with regs := { s.regs with overflow := true } } : State).irq .erOverflow

/-! ### Counting outcomes (R186, R189) -/

/-- Adds one to CY_CDC_OVR_CNTd and sets OVERRUN bit d, which raises CDC_OVERRUN as it rises (R528, R537, R556). -/
def State.overrun (s : State) (d : Nat) : State :=
  let r := s.regs
  let n := Sparse.get 0 r.cdcCnt d
  let s : State := { s with regs := { r with cdcOver := r.cdcOver ||| BitVec.ofNat 5 (2 ^ d),
                                             cdcCnt := Sparse.set 0 r.cdcCnt d (satAdd n 1) } }
  if r.cdcOver.getLsbD d then s else s.irq .cdcOverrun

/-- An event of source c, channel controller 0 to 255, the fabric port 256 or the Pintle ports 257, crosses into CCLK (R555): it
has its effect, unless CCLK is stopped and 16 events of that source wait, when it is dropped and counted (R556; log 55). -/
def State.cross (s : State) (c : Nat) (event : State → State) : State :=
  if s.runs 2 then event s
  else
    let n := Sparse.get 0 s.crossing c
    if n < 16 then event { s with crossing := Sparse.set 0 s.crossing c (n + 1) } else s.overrun 2

/-- An interrupt cause crosses in the same way; one that is dropped is not lost, since a later event raises the same bit
(R556). -/
def State.crossIrq (s : State) (c : Nat) (i : Irq) : State := (s.cross c id).irq i

/-- Which counters an outcome goes to (R186): a channel's, a Corbel unit's own, Mortar's, the ports' or the
fabric's. -/
inductive Site where
  | chan (c : Nat)
  | unit (bank : Nat)
  | mortar
  | port
  | fab
  deriving DecidableEq, Repr

/-- AGENT values of R187 that are not agent IDs. -/
def agentCt : Nat := 0xFFFE
def agentDebug : Nat := 0xFFFD
def agentNone : Nat := 0xFFFF
def agentWarden : Nat := 48

/-- Sources of the event crossing that are no channel controllers. -/
def sourceFab : Nat := 256
def sourcePorts : Nat := 257

/-- One CORRECTED outcome towards BOND_CE (R189). -/
def State.countCe (s : State) : State :=
  let n := s.regs.ceWindow + 1
  if s.regs.ceThresh ≠ 0 && !s.regs.ceFired && decide (s.regs.ceThresh.toNat < n) then
    ({ s with regs := { s.regs with ceWindow := n, ceFired := true } } : State).irq .bondCe
  else { s with regs := { s.regs with ceWindow := n } }

/-- The source that reports the outcomes of a site to CCLK; a Corbel unit keeps its own counts until CSTAT, and Mortar lies in
CCLK itself (R116, R186, R555). -/
def Site.source : Site → Option Nat
  | .chan c => some c
  | .unit k => some (k / 16)
  | .port => some sourcePorts
  | .fab => some sourceFab
  | .mortar => none

/-- A cause from a site: through the event crossing of its source, if it has one. -/
def State.siteIrq (s : State) (site : Site) (i : Irq) : State :=
  match site.source with
  | some c => s.crossIrq c i
  | none => s.irq i

/-- Adds 1 to the CE counter of a site. -/
def State.siteCe (s : State) : Site → State
  | .chan c => s.cross c (fun s => (s.setChan c { s.chan c with ceCnt := satAdd (s.chan c).ceCnt 1 }).countCe)
  | .unit k => s.setBank k { s.bank k with cstat := (satAdd (s.bank k).cstat.1 1, (s.bank k).cstat.2) }
  | .mortar => ({ s with regs := { s.regs with mortarCe := satAdd s.regs.mortarCe 1 } } : State).countCe
  | .port => s.cross sourcePorts (fun s => ({ s with regs := { s.regs with portCe := satAdd s.regs.portCe 1 } } : State).countCe)
  | .fab => s.cross sourceFab (fun s => ({ s with regs := { s.regs with fabCe := satAdd s.regs.fabCe 1 } } : State).countCe)

/-- Adds 1 to the UE counter of a site. -/
def State.siteUe (s : State) : Site → State
  | .chan c => s.cross c (fun s => s.setChan c { s.chan c with ueCnt := satAdd (s.chan c).ueCnt 1 })
  | .unit k => s.setBank k { s.bank k with cstat := ((s.bank k).cstat.1, satAdd (s.bank k).cstat.2.1 1, (s.bank k).cstat.2.2) }
  | .mortar => { s with regs := { s.regs with mortarUe := satAdd s.regs.mortarUe 1 } }
  | .port => s.cross sourcePorts (fun s => { s with regs := { s.regs with portUe := satAdd s.regs.portUe 1 } })
  | .fab => s.cross sourceFab (fun s => { s with regs := { s.regs with fabUe := satAdd s.regs.fabUe 1 } })

/-- Adds 1 to the POISON counter of a site that has one. -/
def State.sitePoison (s : State) : Site → State
  | .chan c => s.cross c (fun s => s.setChan c { s.chan c with poisonCnt := satAdd (s.chan c).poisonCnt 1 })
  | .unit k => s.setBank k { s.bank k with cstat := ((s.bank k).cstat.1, (s.bank k).cstat.2.1, satAdd (s.bank k).cstat.2.2 1) }
  | _ => s

/-- Who reads or writes: SOURCE and AGENT of R187. -/
structure Who where
  src   : Nat
  agent : Nat
  deriving DecidableEq, Repr

/-- Counts, logs and raises what an outcome calls for (R176, R186, R187, R189). -/
def State.account (s : State) (site : Site) (w : Who) (where_ : Nat) (o : BondOutcome) (syn : BitVec 16) : State :=
  match o with
  | .clean => s
  | .corrected _ =>
    let s := s.siteCe site
    if s.regs.logCe then s.pushLog w.src 1 syn w.agent where_ else s
  | .poison => s.sitePoison site
  | .uncorrectable => ((s.siteUe site).pushLog w.src 3 syn w.agent where_).siteIrq site .bondUe

/-- A poisoned word has been written into a STATE region by way of a site (R179, R187, R189). -/
def State.statePoison (s : State) (site : Site) (w : Who) (where_ : Nat) : State :=
  let count (s : State) : State := { s with regs := { s.regs with statePoison := satAdd s.regs.statePoison 1 } }
  ((match site.source with
    | some c => s.cross c count
    | none => count s).pushLog w.src 4 poisonMask w.agent where_).siteIrq site .bondPoison

/-! ### Identity and repair pages (R122, R126, R129) -/

/-- Byte o of identity and repair page space: page 0, row repair pages 1 to 32, the TSV page 33. -/
def State.pageByte (s : State) (o : Nat) : Byte :=
  let page := o / 512
  let b := o % 512
  if page = 0 then s.idPage.getD b 0
  else if page < 33 then
    let bank := 128 * (page - 1) + b / 4
    let m := (s.bank bank).fused.foldl (fun a e => a ||| 2 ^ e.2) 0
    BitVec.ofNat 8 (m >>> (8 * (b % 4)))
  else if page = 33 then BitVec.ofNat 8 (if b % 2 = 0 then (s.chan (b / 2)).tsvUsed.toNat else 0)
  else 0

/-- Bond word w of those pages. -/
def State.pageWord (s : State) (w : Nat) : BondData :=
  BitVec.ofNat 128 (leNat ((List.range 16).map (fun i => s.pageByte (16 * w + i))))

/-! ### Places of Bond words -/

/-- A store of Bond words; `pages` are the identity and repair pages, which no access writes. -/
inductive Space where
  | stack
  | mortar
  | hasp
  | pages
  deriving DecidableEq, Repr

/-- A Bond word: its store, its number there, the counters of its checks, its policy and its WHERE (R187). -/
structure Place where
  space  : Space
  word   : Nat
  site   : Site
  detect : Bool
  where_ : Nat
  deriving DecidableEq, Repr

/-- WHERE of a stack word (R187). -/
def stackWhere (bank row wi : Nat) : Nat := bank * 2 ^ 32 + row * 2 ^ 16 + wi

/-- Word wi of a logical row under a policy. -/
def State.rowPlace (s : State) (bank row wi : Nat) (detect : Bool) : Place :=
  { space := .stack, word := s.stackWordNo bank row wi, site := .chan (bank / 16), detect := detect,
    where_ := stackWhere bank row wi }

/-- The word that holds a location. -/
def State.locPlace (s : State) (l : Loc) (detect : Bool) : Place := s.rowPlace l.bank l.row (l.byte / 16) detect

/-- The word at an offset of the Mortar window (from 0x0200_0000). -/
def mortarPlace (off : Nat) : Place :=
  { space := .mortar, word := off / 16, site := .mortar, detect := false, where_ := 0x2000000 + off / 16 * 16 }

/-- The word at an offset of hasp storage (from 0x00C0_0000). -/
def haspPlace (off : Nat) : Place :=
  { space := .hasp, word := off / 16, site := .mortar, detect := false, where_ := 0xC00000 + off / 16 * 16 }

/-- Word w of the identity and repair pages; the outcomes of their reads go to channel 0 (log 51). -/
def pagePlace (w : Nat) : Place := { space := .pages, word := w, site := .chan 0, detect := false, where_ := 16 * w }

def State.placeData (s : State) (p : Place) : BondData :=
  match p.space with
  | .stack => s.stkData p.word
  | .mortar => s.mortar.data p.word
  | .hasp => s.hasps.data p.word
  | .pages => s.pageWord p.word

def State.placeSyn (s : State) (p : Place) : BitVec 16 :=
  match p.space with
  | .stack => s.stkSyn p.word
  | .mortar => s.mortar.syn p.word
  | .hasp => s.hasps.syn p.word
  | .pages => Sparse.get 0 s.idSyn p.word

/-- Stores data with a syndrome. -/
def State.placeSet (s : State) (p : Place) (d : BondData) (syn : BitVec 16) : State :=
  match p.space with
  | .stack => s.stkSet p.word d syn
  | .mortar => { s with mortar := s.mortar.setWord p.word d syn }
  | .hasp => { s with hasps := s.hasps.setWord p.word d syn }
  | .pages => s

/-- Stores a word with fresh or poisoned check bits (R174). -/
def State.placeWrite (s : State) (p : Place) (d : BondData) (poisoned : Bool) : State :=
  s.placeSet p d (if poisoned then poisonMask else 0)

/-- The outcome of checking a stored word (R172, R173, R175). -/
def State.placeCheck (s : State) (p : Place) : BondOutcome := bondCheck p.detect (s.placeData p) (s.placeSyn p)

/-- The delivered data of a stored word and whether it is poisoned, with nothing counted. -/
def State.peek (s : State) (p : Place) : BondData × Bool := (s.placeCheck p).value (s.placeData p)

/-- Reads a word: what is delivered, with the outcome counted (R176, R177). -/
def State.readPlace (s : State) (w : Who) (p : Place) : (BondData × Bool) × State :=
  (s.peek p, s.account p.site w p.where_ (s.placeCheck p) (s.placeSyn p))

/-- Reads words in order. -/
def State.readPlaces (s : State) (w : Who) : List Place → List (BondData × Bool) × State
  | [] => ([], s)
  | p :: r =>
    let (v, s) := s.readPlace w p
    let (vs, s) := State.readPlaces s w r
    (v :: vs, s)

/-- Identity page 0 as its reads deliver it (R124). -/
def State.idBytes (s : State) : List Byte :=
  if s.idSyn.isEmpty then s.idPage else ((List.range 32).map (fun w => leBytes 16 (s.peek (pagePlace w)).1.toNat)).flatten

/-- Merges the enabled bytes of a word: bit i of `ben` selects byte i. -/
def mergeBytes (old new : BondData) (ben : Nat) : BondData :=
  BitVec.ofNat 128 (leNat ((List.range 16).map (fun i =>
    BitVec.ofNat 8 (if bit ben i then new.toNat >>> (8 * i) else old.toNat >>> (8 * i)))))

/-- Writes the enabled bytes of one word (R45, R54, R178): a full word replaces the stored one; a part is merged
into it, and a merge with a word that does not check stays poisoned, is counted and logged. -/
def State.mergePlace (s : State) (w : Who) (p : Place) (d : BondData) (poisoned : Bool) (ben : Nat) : State :=
  if ben % 2 ^ 16 = 0 then s
  else if ben % 2 ^ 16 = 2 ^ 16 - 1 then s.placeWrite p d poisoned
  else
    let o := s.placeCheck p
    let syn := s.placeSyn p
    let v := s.peek p
    let s := match o with
      | .clean => s
      | .corrected _ => s.account p.site { w with src := 3 } p.where_ o syn
      | .poison => (s.sitePoison p.site).pushLog 3 2 syn w.agent p.where_
      | .uncorrectable => s.account p.site { w with src := 3 } p.where_ o syn
    s.placeWrite p (mergeBytes v.1 d ben) (v.2 || poisoned)

/-- Writes words in order, each (data, poisoned). -/
def State.writePlaces (s : State) : List (Place × BondData × Bool) → State
  | [] => s
  | (p, d, b) :: r => State.writePlaces (s.placeWrite p d b) r

/-- The eight words of a line at a location. -/
def State.linePlaces (s : State) (l : Loc) (detect : Bool) : List Place :=
  (List.range 8).map (fun i => s.rowPlace l.bank l.row (l.byte / 128 * 8 + i) detect)

def mortarLine (off : Nat) : List Place := (List.range 8).map (fun i => mortarPlace (off / 128 * 128 + 16 * i))
def haspLine (off : Nat) : List Place := (List.range 8).map (fun i => haspPlace (off / 128 * 128 + 16 * i))

/-- Bank of a Lintel copy (R345). -/
def lintelBank (copy : Bool) : Nat := if copy then 2048 else 0

/-- The line of a Lintel copy (R345). -/
def State.lintelLine (s : State) (copy : Bool) : List Place :=
  (List.range 8).map (fun i => s.rowPlace (lintelBank copy) 9208 i false)

/-- A line and its check bits from delivered words: a poisoned word carries the poison mask (R55). -/
def lineOfValues (vs : List (BondData × Bool)) : LineData × LineChk :=
  (lineOfWords (vs.map (·.1)), chkOfWords (vs.map (fun v => chkFor v.1 v.2)))

/-! ### Command frames (R100 to R103, R110, R111; logs 26, 66) -/

/-- The 32 B sectors that the data of a frame moves over DQ lanes (R100, R102). -/
def frameSectors (op arg : Nat) : Nat :=
  if op == 3 || op == 4 then 2 ^ (arg / 64 % 4)
  else if op == 8 then 4
  else if op == 0x20 then 2
  else if op == 0x24 || op == 0x25 then 12
  else b2n ([9, 0x27, 0x28, 0x29, 0x2A].contains op)

/-- The counts of a channel after a frame (R429). -/
def ChanCounts.frame (n : ChanCounts) (op arg : Nat) : ChanCounts :=
  { n with acts := n.acts + b2n (op == 1), sectors := n.sectors + frameSectors op arg, refs := n.refs + b2n (op == 5) }

/-- A frame: OP, BANK and ARG (R101). -/
def cmdFrame (op bank arg : Nat) : BitVec 48 := BitVec.ofNat 48 (op * 2 ^ 42 + bank % 16 * 2 ^ 38 + arg % 2 ^ 38)

/-- Records a frame sent to a channel: OP, BANK and ARG; the newest 16 are kept (R101, R102, R106), and the frame counts in the tick
(R429). -/
def State.sent (s : State) (c op bank arg : Nat) : State :=
  let ch := s.chan c
  s.setChan c { ch with counts := ch.counts.frame op arg, hist := (cmdFrame op bank arg :: ch.hist).take 16 }

/-- The last 16 frames of a channel, newest first: those recorded, and before them free ones (R106; log 66). -/
def State.frames (s : State) (c : Nat) : List (BitVec 48) :=
  ((s.chan c).hist ++ (match s.frameBase with
    | some n => (List.range 16).map (fun i => Config.frame (n + 16 * c + i))
    | none => [])).take 16

/-- IDR of a line of an identity or repair page: a repair page on the first channel of its half die, the others on channel 0 (R102,
R122, R126, R129). -/
def State.idrLine (s : State) (page line : Nat) : State := s.sent (if page = 0 ∨ 32 < page then 0 else 8 * (page - 1)) 8 0 (page + 64 * line)

/-- One column command of a row access: RD or WR, its first sector, and its burst, 0 BL2, 1 BL4, 2 BL8 (R100, R102). -/
structure Column where
  write  : Bool
  sector : Nat
  burst  : Nat
  deriving DecidableEq, Repr

/-- The frame of a column command. -/
def State.sendColumn (s : State) (k : Nat) (c : Column) : State :=
  s.sent (k / 16) (if c.write then 4 else 3) k (c.sector % 64 + 64 * c.burst)

/-- ACT of the physical row behind a logical row. -/
def State.sendAct (s : State) (k row : Nat) : State := s.sent (k / 16) 1 k ((s.bank k).physRow row)

/-- PRE. -/
def State.sendPre (s : State) (k : Nat) : State := s.sent (k / 16) 2 k 0

/-- The frames of one whole access of a physical row: ACT, the columns and PRE. -/
def State.sendPhys (s : State) (k phys : Nat) (cs : List Column) : State :=
  (cs.foldl (fun s c => s.sendColumn k c) (s.sent (k / 16) 1 k phys)).sendPre k

/-- The frames of one whole row access. -/
def State.sendRow (s : State) (k row : Nat) (cs : List Column) : State := s.sendPhys k ((s.bank k).physRow row) cs

/-- Earliest next RD, earliest next WR and earliest PRE, in SCLK cycles after ACT, once a column command has been issued
(tCCD, tRTW, tWTR, tRTP, tWR of R103, latencies of R104). -/
def Column.next (t : Nat × Nat × Nat) (c : Column) : Nat × Nat × Nat :=
  let n := 2 ^ c.burst
  if c.write then (max (t.1) (t.2.1 + 12 + n + 9), t.2.1 + n, max t.2.2 (t.2.1 + 12 + n + 18))
  else (t.1 + n, max t.2.1 (t.1 + 16 + n + 2 - 12), max t.2.2 (t.1 + 4))

/-- SCLK cycles from ACT until the bank takes its next command after a row access: tRCD 18 to the first column command,
tRAS 36, tRP 18 (R103). -/
def rowCycles (cs : List Column) : Nat := (cs.foldl Column.next (18, 18, 36)).2.2 + 18

/-- Tick-relative SCLK cycle of the REFCLK cycle that has been reached (R191). -/
def State.sclk (s : State) : Nat := s.clk.phase * 2250 / 200

/-- Bank k takes n SCLK cycles from the present, or from the end of what it does. -/
def State.occupy (s : State) (k n : Nat) : State :=
  s.setBank k { s.bank k with busyTo := max (s.bank k).busyTo s.sclk + n }

/-- The same for Corbel commands, each of which stands in an even SCLK cycle (R111). -/
def State.occupyEven (s : State) (k n : Nat) : State :=
  s.setBank k { s.bank k with busyTo := roundUp 2 (max (s.bank k).busyTo s.sclk) + roundUp 2 n }

/-- One row access of a bank: its frames and its time. -/
def State.rowAccess (s : State) (k row : Nat) (cs : List Column) : State := (s.sendRow k row cs).occupy k (rowCycles cs)

/-- A transfer of a context over the channel, and the time until the bank takes its next command: CDESC, CSAVE, CLOAD, CSCW
and CABORT (R102, R104, R111; log 66). -/
def State.corbel (s : State) (k op arg n : Nat) : State := (s.sent (k / 16) op k arg).occupyEven k n

def State.sendDesc (s : State) (k ctx : Nat) : State := s.corbel k 0x20 ctx 14
def State.sendSave (s : State) (k ctx : Nat) : State := s.corbel k 0x24 ctx 28
def State.sendLoad (s : State) (k ctx : Nat) : State := s.corbel k 0x25 ctx 24
def State.sendScalar (s : State) (k i : Nat) (v : BitVec 32) : State := s.corbel k 0x26 (i * 2 ^ 32 + v.toNat) 2
def State.sendAbort (s : State) (k ctx : Nat) : State := s.corbel k 0x2B ctx 2

/-- What a row latch is known to hold, and its bytes. -/
def RowLatch.use : RowLatch → LatchUse
  | .empty => .spent
  | .held _ u _ => u
def RowLatch.data : RowLatch → List Byte
  | .empty => []
  | .held _ _ d => d

/-- Row latch `one` of a unit. -/
def Bank.latch (b : Bank) (one : Bool) : RowLatch := if one then b.rowLat.2 else b.rowLat.1

/-- A row latch takes bytes; past them its content is free (log 62). -/
def State.fillLatch (s : State) (k : Nat) (one : Bool) (use : LatchUse) (data : List Byte) : State :=
  let l := RowLatch.held s.free use data
  let s := s.setBank k { s.bank k with rowLat := if one then ((s.bank k).rowLat.1, l) else (l, (s.bank k).rowLat.2) }
  { s with free := s.free + 1 }

/-- CXWR of bytes into a row latch, in 32 B sectors, one in every second cycle; the data of the last end 12 cycles on (R20, R102,
R104, R111, R312). -/
def State.putLatch (s : State) (k : Nat) (one : Bool) (use : LatchUse) (data : List Byte) : State :=
  let n := ceilDiv data.length 32
  (((List.range n).foldl (fun s i => s.sent (k / 16) 0x29 k (b2n one + 2 * (i % 64))) s).fillLatch k one use data).occupyEven k (2 * n + 12)

/-- A unit leaves bytes in row latch 0, 2 KiB at a time, and CXRD takes them in 32 B sectors, one in every second cycle; the data of
the last end 16 cycles on (R102, R104, R111, R312, R317).  Only where the bank is at a boundary or has no course (R111). -/
def State.latchOut (s : State) (k : Nat) (data : List Byte) : State :=
  (List.range (ceilDiv data.length 2048)).foldl (fun s j =>
    let part := (data.drop (2048 * j)).take 2048
    let n := ceilDiv part.length 32
    ((List.range n).foldl (fun s i => s.sent (k / 16) 0x28 k (2 * i)) (s.fillLatch k false .spent part)).occupyEven k (2 * n + 16)) s

/-! ### Stack pins, frames and parity (R98, R101, R102, R104, R105, R129) -/

/-- What Crety drives on the pins of a channel in an SCLK cycle, on its first and its second edge; `none` is high-Z: CHc_CA, CHc_CAPAR,
the forwarded clocks, one Bond codeword per beat on CHc_DQ, the four CHc_DQS, and the four lanes of CHc_SPR. -/
structure ChPins where
  ca    : BitVec 24 × BitVec 24
  capar : Bool × Bool
  ck    : Bool
  bck   : Bool
  dq    : Option (BitVec 144 × BitVec 144)
  dqs   : Option (BitVec 4 × BitVec 4)
  spr   : List (Option (Bool × Bool))
  deriving DecidableEq, Repr

/-- Even parity of one edge of a frame (R105). -/
def evenParity (v : BitVec 24) : Bool := decide (((List.range 24).filter (fun i => v.getLsbD i)).length % 2 = 1)

/-- A frame's two edges on CA, and CAPAR over each. -/
def caEdges (f : BitVec 48) : BitVec 24 × BitVec 24 := (f.setWidth 24, (f >>> 24).setWidth 24)
def caParity (f : BitVec 48) : Bool × Bool := (evenParity (caEdges f).1, evenParity (caEdges f).2)

/-- What an SCLK cycle of a channel carries: the frame that stands in it, 0 for NOP, and the two codewords that Crety drives in it. -/
structure PinCycle where
  frame : BitVec 48
  data  : Option (BitVec 144 × BitVec 144)
  deriving DecidableEq, Repr

/-- The commands whose data Crety drives on DQ: WR, CDESC, CLOAD and CXWR (R102, R104, R111). -/
def drivesData (op : Nat) : Bool := op == 4 || op == 0x20 || op == 0x25 || op == 0x29

/-- A word with its check bits as a codeword of 144 bits (R98, R174). -/
def codeword (w : BondData × Bool) : BitVec 144 := chkFor w.1 w.2 ++ w.1

/-- The SCLK cycles that a command takes part in, counted from its frame: the frame, and where Crety drives its data, two words in each
cycle from tCWL = 12 on (R104).  Cycles of several commands that coincide are one cycle, with a frame and data. -/
def commandCycles (f : BitVec 48) (words : List (BondData × Bool)) : List (Nat × PinCycle) :=
  (0, { frame := f, data := none }) ::
  (if drivesData (f.toNat / 2 ^ 42) then (List.range (words.length / 2)).map (fun i =>
      (12 + i, { frame := 0, data := some (codeword (words.getD (2 * i) (0, false)), codeword (words.getD (2 * i + 1) (0, false))) }))
    else [])

/-- What one lane carries on the two edges of a cycle, by the lane index of R129: 0 to 143 DQ, 144 to 167 CA, 168 CAPAR. -/
def laneValue (x : PinCycle) (lane : Nat) : Option (Bool × Bool) :=
  if lane < 144 then x.data.map (fun d => (d.1.getLsbD lane, d.2.getLsbD lane))
  else if lane < 168 then some ((caEdges x.frame).1.getLsbD (lane - 144), (caEdges x.frame).2.getLsbD (lane - 144))
  else some (caParity x.frame)

/-- The pins of channel c in a cycle: all at their Reset column while CY_RST_N is low; else the forwarded clocks run with SCLK, CA carries
the frame, or NOP where there is none, DQ and DQS are driven with data alone, and an assigned spare carries what its lane carries
(R98, R129).  DEDUCED (log 66): a strobe is 1 on the first edge and 0 on the second. -/
def State.chPins (s : State) (c : Nat) (x : PinCycle) : ChPins :=
  if s.start.mode = .reset then
    { ca := (0, 0), capar := (false, false), ck := false, bck := false, dq := none, dqs := none, spr := [none, none, none, none] }
  else
    { ca := caEdges x.frame, capar := caParity x.frame, ck := s.runs 1, bck := s.runs 1, dq := x.data,
      dqs := x.data.map (fun _ => (15, 0)),
      spr := (List.range 4).map (fun i => match (s.chan c).ifSpares.find? (fun e => e.1 == i) with
        | some e => laneValue x e.2
        | none => none) }

/-- OP values of the table of R102; any other is reserved. -/
def definedOp (op : Nat) : Bool := decide (op < 0x0E) || (decide (0x20 ≤ op) && decide (op < 0x2C))

/-- The stack takes a frame for a parity error and pulls CHc_ALERT_N low: the parity of an edge is wrong, or its OP is reserved
(R102, R105). -/
def frameError (f : BitVec 48) (capar : Bool × Bool) : Bool := capar != caParity f || !definedOp (f.toNat / 2 ^ 42)

/-- CSCR of scalar entry i: its value is in bytes [3:0] of the sector (R102); its even cycles, log 66. -/
def State.readScalar (s : State) (k i : Nat) : BitVec 32 × State := (Sparse.get 0 (s.bank k).scalars i, s.corbel k 0x27 (i % 64) 18)

/-! ### CSTAT (R116, R186, R534) -/

/-- CTX_STATE as CSTAT codes it (R116). -/
def CtxState.code : CtxState → Nat
  | .empty => 0
  | .parked => 1
  | .paused => 2
  | .fault => 3

/-- CTX_STATE of four contexts (R116). -/
def ctxCode (l : List CtxState) : Nat := (List.range 4).foldl (fun a i => a + (l.getD i .empty).code * 4 ^ i) 0

/-- The 32 B sector that CSTAT returns for a bank (R116). -/
def Bank.status (b : Bank) (busy : Bool) : List Byte :=
  leBytes 1 (ctxCode b.ctx) ++ leBytes 1 (b2n busy) ++ leBytes 2 b.cstat.1.toNat ++ leBytes 2 b.cstat.2.1.toNat ++
  leBytes 2 b.cstat.2.2.toNat ++ List.replicate 24 0

/-- Adds counts of CORRECTED, UNCORRECTABLE and POISON outcomes to a channel, one increment at a time (R186, R555). -/
def State.addChan (s : State) (c ce ue po : Nat) : State :=
  let s := (List.replicate ce ()).foldl (fun s _ => s.siteCe (.chan c)) s
  let s := (List.replicate ue ()).foldl (fun s _ => s.siteUe (.chan c)) s
  (List.replicate po ()).foldl (fun s _ => s.sitePoison (.chan c)) s

/-- CSTAT: the counters that the sector holds go to the channel, and the unit's start again at zero; a FAULT shows in CH_ERR
(R116, R186, R534). -/
def State.cstat (s : State) (k : Nat) : State :=
  let sector := (s.bank k).status (s.bank k).course.isSome
  let s := s.sent (k / 16) 0x2A k 0
  let s := s.setBank k { s.bank k with cstat := (0, 0, 0), ctxSeen := BitVec.ofNat 8 (field sector 0 1) }
  let s := s.addChan (k / 16) (field sector 2 2) (field sector 4 2) (field sector 6 2)
  if (s.bank k).ctx.contains .fault then
    s.cross (k / 16) (fun s => s.setChan (k / 16) { s.chan (k / 16) with err := (s.chan (k / 16)).err ||| 4 })
  else s

/-- A fuse is being programmed in the bank: no command reaches it (R130). -/
def State.fuseHeld (s : State) (k : Nat) : Bool := (s.bank k).hold && (s.chan (k / 16)).fprogHold

/-- The outcomes that a Corbel unit has counted reach its channel: with the CSTAT of its course's end, or by one now where
the work ends with no course in progress (R186); behind a fuse hold they wait for the next CSTAT (R130). -/
def State.unitReport (s : State) (k : Nat) : State := if (s.bank k).course.isSome || s.fuseHeld k then s else s.cstat k

/-- Acceptance number of a queued access. -/
def BankAccess.seq : BankAccess → Nat
  | .pintle r => r.seq
  | .fabricRead _ _ _ q => q
  | .debug _ q => q
  | .line _ _ _ q => q
  | .keystone _ _ _ _ q => q
  | .take _ _ q => q

/-- An access of a host, and not of the Keystone engine, a unit or Warden (R199, R200). -/
def BankAccess.host : BankAccess → Bool
  | .line ks _ _ _ => !ks
  | .keystone _ _ _ _ _ => false
  | .take _ _ _ => false
  | .pintle _ => true
  | .fabricRead _ _ _ _ => true
  | .debug _ _ => true

/-- The work item that an access belongs to. -/
def BankAccess.item : BankAccess → Option Nat
  | .keystone i _ _ _ _ => some i
  | .take i _ _ => some i
  | _ => none

/-! ### REFpb (R97, R103, R200, R209 to R212) -/

/-- SCLK cycles of a REFpb (R103). -/
def refCycles : Nat := 135

/-- REFpb of one pass over a bank (R97). -/
def refPass : Nat := 4608

/-- A bank whose row counter moves on by n REFpb, each of which refreshes two logical rows (R97). -/
def Bank.refreshed (b : Bank) (n : Nat) : Bank := { b with owed := b.owed - n, rowCtr := (b.rowCtr + n) % refPass }

/-- The logical rows that the next REFpb refreshes (R97). -/
def Bank.nextRows (b : Bank) : Nat × Nat := (2 * b.rowCtr, 2 * b.rowCtr + 1)

/-- One REFpb to a bank. -/
def State.refpb (s : State) (k : Nat) : State :=
  let b := (s.bank k).refreshed 1
  ((s.setBank k { b with refs := b.refs + 1, waited := (b.queue.filter (·.host)).map (·.seq) }).occupy k refCycles).sent (k / 16) 5 k 0

/-- A REFpb may be issued now: one is owed, fewer than two were issued in the tick (R211), and it does not pass a host access
that has waited behind one, unless eight are owed (R200). -/
def Bank.mayRefresh (b : Bank) : Bool :=
  decide (1 ≤ b.owed) && decide (b.refs < 2) && (decide (8 ≤ b.owed) || b.queue.all (fun a => !b.waited.contains a.seq))

/-- The stack of a channel takes refresh and accesses: it is in normal mode and out of self-refresh, and SCLK runs; a start may
be waiting, and a deadbolt or a shutdown may be on its way to SRE (R102, R209, R213, R451). -/
def State.chanLive (s : State) (c : Nat) : Bool :=
  (s.serving || s.start.mode == .deadbolt || s.start.mode == .shut || (s.start.mode == .starting && (s.chan c).trained)) &&
  s.runs 1 && !(s.chan c).sref

/-- The channel controller may issue a REFpb to the bank; none while a fuse is programmed there (R130). -/
def State.mayRefresh (s : State) (k : Nat) : Bool := (s.bank k).mayRefresh && s.chanLive (k / 16) && !s.fuseHeld k

/-- The refresh at FULL level (R212). -/
def State.fullRefresh (s : State) (k : Nat) : State := if decide (8 ≤ (s.bank k).owed) && s.mayRefresh k then s.refpb k else s

/-- The work of contexts 0 (`ctx1` false) or 1 begins again in every bank. -/
def State.newWork (s : State) (ctx1 : Bool) : State :=
  (s.banks.map (·.1)).foldl (fun s k =>
    let b := s.bank k
    s.setBank k { b with passed := if ctx1 then (b.passed.1, 0) else (0, b.passed.2) }) s

/-! ### Whether a bank can be reached (R198, R212, R448, R470, R557) -/

/-- Something keeps the channel controller from serving the bank now: self-refresh, a repair or fuse hold, a stopped SCLK,
refresh at FULL level. -/
def State.bankHeld (s : State) (k : Nat) : Bool :=
  let b := s.bank k
  let c := s.chan (k / 16)
  s.plumb.esr || b.hold || c.sref || !s.runs 1 || decide (8 ≤ b.owed)

/-- No course stands in the way either: the bank is in the open phase, at a course boundary, or has no course (R198, R203,
R397). -/
def State.bankOpen (s : State) (k : Nat) : Bool := (s.bank k).course.isNone && !s.bankHeld k

/-! ### Row accesses of the Keystone engine (R203, R437) -/

/-- The bank of a word of the stack store. -/
def wordBank (w : Nat) : Nat := w / (bankBytes / 16)

/-- The lines of words in ascending order, by physical row: bank, row and first sectors. -/
def ksRows : List Nat → List (Nat × Nat × List Nat)
  | [] => []
  | w :: r =>
    let k := wordBank w
    let row := w % (bankBytes / 16) / 128
    let line := w % 128 / 8 * 4
    match ksRows r with
    | (k', row', ls) :: rest =>
      if k' = k ∧ row' = row then (k, row, if ls.head? = some line then ls else line :: ls) :: rest
      else (k, row, [line]) :: (k', row', ls) :: rest
    | [] => [(k, row, [line])]

/-- Sectors of those lines. -/
def ksSectorsOf (ws : List Nat) : Nat := ((ksRows ws).map (fun e => 4 * e.2.2.length)).sum

/-- Column commands of whole lines, by their first sectors. -/
def lineColumns (write : Bool) (ls : List Nat) : List Column := ls.map (fun l => { write := write, sector := l, burst := 2 : Column })

/-- Frames and bank time of row accesses that move the lines of words (R101, R103). -/
def State.moveRows (s : State) (write : Bool) (rows : List (Nat × Nat × List Nat)) : State :=
  rows.foldl (fun s e => (s.sendPhys e.1 e.2.1 (lineColumns write e.2.2)).occupy e.1 (rowCycles (lineColumns write e.2.2))) s

/-- Frames of an access of Crety to the lines of words of the stack, which follow in ascending order (log 66). -/
def State.moveWords (s : State) (write : Bool) (ws : List Nat) : State := s.moveRows write (ksRows ws)

/-- The stack words among places, ascending. -/
def stackWords (ps : List Place) : List Nat :=
  (ps.foldl (fun m p => if p.space = .stack then Sparse.put p.word () m else m) ([] : Sparse Unit)).map (·.1)

/-- The last frames of every channel are free: what Crety did last has no stated place or order (log 66). -/
def State.freeFrames (s : State) : State :=
  { (s.chans.map (·.1)).foldl (fun s c => s.setChan c { s.chan c with hist := [] }) s with frameBase := some s.free, free := s.free + 4096 }

/-- Crety writes a record whose place or layout the manual does not give: it may stand where a debug access wrote, so that those
words are free again (R549, R568; log 5). -/
def State.forgetDb (s : State) : State := { s with dbWords := [] }

/-- The same for a record in the stack, whose frames have no stated place or order either (R106; log 66). -/
def State.wroteRecord (s : State) : State := s.forgetDb.freeFrames

/-- The engine spends sectors of the tick's allowance (R437). -/
def State.ksSpend (s : State) (n : Nat) : State := { s with plumb := { s.plumb with ksUsed := s.plumb.ksUsed + n } }

/-- Keystone parameters have been updated in the tick (R431; log 72). -/
def State.countParams (s : State) (n : Nat) : State := { s with plumb := { s.plumb with ksParams := s.plumb.ksParams + n } }

/-- Ascending words of several lists. -/
def wordUnion (ls : List (List Nat)) : List Nat :=
  (ls.foldl (fun m l => l.foldl (fun m w => Sparse.put w () m) m) ([] : Sparse Unit)).map (·.1)

/-- The rows of an access of the Keystone engine: lists of ascending words, read or written. -/
def accessRows (acc : List (Bool × List Nat)) : List (Bool × Nat × Nat × List Nat) :=
  acc.flatMap (fun a => (ksRows a.2).map (fun e => (a.1, e)))

/-- The rows of an access of the Keystone engine as work at banks. -/
def rowPlan (acc : List (Bool × List Nat)) : List Reach := (accessRows acc).map (fun e => .row e.1 e.2.1 e.2.2.1 e.2.2.2)

/-- Makes an access whole, row by row. -/
def State.moveAccess (s : State) (acc : List (Bool × List Nat)) : State := (accessRows acc).foldl (fun s e => s.moveRows e.1 [e.2]) s

def Reach.bank : Reach → Nat
  | .row _ k _ _ => k
  | .take k _ => k

/-- Sectors of the allowance that a piece of the engine's work takes (R437). -/
def Reach.cost : Reach → Nat
  | .row _ _ _ ls => 4 * ls.length
  | .take _ _ => 0

/-- Sectors that a plan moves. -/
def planCost (plan : List Reach) : Nat := (plan.map Reach.cost).sum

/-- The front of a plan that is paid for while `owed` sectors are not, line by line, and the rest (R437). -/
def splitPlan (owed : Nat) : List Reach → List Reach × List Reach
  | [] => ([], [])
  | r :: p =>
    if owed ≤ planCost p then
      let x := splitPlan owed p
      (r :: x.1, x.2)
    else match r with
      | .row w k phys ls =>
        let n := (planCost (r :: p) - owed) / 4
        if n = 0 then ([], r :: p) else ([.row w k phys (ls.take n)], .row w k phys (ls.drop n) :: p)
      | .take _ _ => ([], r :: p)

/-- The bank takes work of Crety now: no course runs there, nothing holds it, and nothing waits there ahead (R111, R203). -/
def State.bankFree (s : State) (k : Nat) : Bool := s.bankOpen k && (s.bank k).queue.isEmpty

/-- Does one piece of work at its bank. -/
def State.doReach (s : State) : Reach → State
  | .row w k phys sectors => s.moveRows w [(k, phys, sectors)]
  | .take k data => s.latchOut k data

/-- The piece of work as an access of item `id` in its bank's queue. -/
def Reach.queued (b : Bank) (id seq : Nat) : Reach → BankAccess
  | .row w _ phys sectors => .keystone id w ((b.logicalRow phys).getD 0) sectors seq
  | .take _ data => .take id data seq

/-- The piece of work waits in its bank's queue. -/
def State.queueReach (s : State) (id : Nat) (r : Reach) : State :=
  let b := s.bank r.bank
  (s.setBank r.bank { b with queue := b.queue ++ [r.queued b id s.seq] }).bump

/-- Does what a plan holds for banks that take it now, and lets the rest wait in their queues (R203). -/
def State.issue (s : State) (id : Nat) (plan : List Reach) : State :=
  let s1 := (plan.filter (fun r => s.bankFree r.bank)).foldl (fun t r => t.doReach r) s
  (plan.filter (fun r => !s.bankFree r.bank)).foldl (fun t r => t.queueReach id r) s1

/-- Sectors of the tick's allowance that the Keystone engine can still move: none while its leaves stand still (R89, R437, R557). -/
def State.ksRest (s : State) : Nat := if s.leavesRun then s.plumb.ksAllow - s.plumb.ksUsed else 0

/-- Everything that a plan holds can be done now, and its sectors lie within the tick's allowance (R203, R437). -/
def State.goes (s : State) (plan : List Reach) (cost : Nat) : Bool := decide (cost ≤ s.ksRest) && plan.all (fun r => s.bankFree r.bank)

/-- Makes an access of Crety, with which the engine updates parameters: at once where it goes, else as a work item with the task
that follows.  What the allowance pays for is moved in this tick, whole lines, and the rest as later ticks pay for it; what cannot be
reached waits in the queues of its banks.  The answer says whether something waits (R203, R437). -/
def State.ksMove (s : State) (plan : List Reach) (cost params : Nat) (task : KsTask) : State × Bool :=
  if s.goes plan cost then (plan.foldl (fun t r => t.doReach r) ((s.ksSpend cost).countParams params), false)
  else
    let paid := min cost (s.ksRest / 4 * 4)
    let n := if cost = 0 then params else params * paid / cost
    let id := s.seq
    let x := splitPlan (cost - paid) plan
    let s1 := (((s.ksSpend paid).countParams n).bump).issue id x.1
    ({ s1 with ctl := { s1.ctl with items := s1.ctl.items ++
        [{ id := id, task := task, owed := cost - paid, plan := x.2, params := params - n }] } }, true)

/-- The same without parameters. -/
def State.ksAccess (s : State) (plan : List Reach) (cost : Nat) (task : KsTask) : State × Bool := s.ksMove plan cost 0 task

/-- The Keystone engine has sectors to move (R437, R570). -/
def State.owe (s : State) (n : Nat) : State := { s with ctl := { s.ctl with debt := n, debtAll := n } }

/-- A work item with this task waits. -/
def State.tasked (s : State) (task : KsTask) : Bool := s.ctl.items.any (fun i => i.task == task)

/-- A work item that waits for no bank and no allowance. -/
def State.addTask (s : State) (task : KsTask) : State :=
  ({ s with ctl := { s.ctl with items := s.ctl.items ++ [{ id := s.seq, task := task, owed := 0, plan := [], params := 0 }] } } : State).bump

/-- The end of the record in flight waits no more. -/
def State.dropRecordEnd (s : State) : State :=
  { s with ctl := { s.ctl with items := s.ctl.items.filter (fun i => i.task != .recordEnd) } }

/-- Some access of a work item has not been served. -/
def State.itemWaits (s : State) (id : Nat) : Bool :=
  s.banks.any (fun e => e.2.queue.any (fun a => a.item == some id))

/-- Takes the work items of some tasks and their waiting accesses away, and with an export what it had still to move. -/
def State.dropTasks (s : State) (pick : KsTask → Bool) : State :=
  let gone := (s.ctl.items.filter (fun i => pick i.task)).map (·.id)
  let keep (a : BankAccess) : Bool := match a.item with
    | some i => !gone.contains i
    | none => true
  let s := (s.banks.map (·.1)).foldl (fun s k => s.setBank k { s.bank k with queue := (s.bank k).queue.filter keep }) s
  { s with ctl := { s.ctl with
      items := s.ctl.items.filter (fun i => !pick i.task),
      debt := if pick .exportEnd then 0 else s.ctl.debt, debtAll := if pick .exportEnd then 0 else s.ctl.debtAll } }

/-- Takes every work item away: the engine has stopped. -/
def State.dropItems (s : State) : State := s.dropTasks (fun _ => true)

/-- A task of an update run (R333, R337). -/
def KsTask.ofRun : KsTask → Bool
  | .unitRead _ _ => true
  | .unitStart _ _ => true
  | .unitOut _ _ => true
  | .unitDone _ _ => true
  | .pass2 _ _ => true
  | .updateOut _ => true
  | .runRows _ => true
  | .scanEnd _ => false
  | .masksOut _ => false
  | .zeroLine => false
  | .exportLines _ _ => false
  | .exportEnd => false
  | .importRead _ => false
  | .importRows _ => false
  | .create _ => false
  | .recordEnd => false
  | .derive _ _ _ _ _ => false
  | .abandoned _ _ _ => false

/-- The leaves have sectors of their allowance left (R437, R441). -/
def State.ksLeft (s : State) : Bool := decide (s.plumb.ksUsed < s.plumb.ksAllow)

/-- A free word (log 5) and the state with the free-value counter advanced (log 4). -/
def State.freshWord (s : State) : BondData × State := (Config.freeWord s.free, { s with free := s.free + 1 })

def State.freshWords (s : State) : Nat → List (BondData × Bool) × State
  | 0 => ([], s)
  | n + 1 =>
    let (w, s) := s.freshWord
    let (ws, s) := State.freshWords s n
    ((w, false) :: ws, s)

end Sys2Proof.Machine
end

