-- ==== Sys2Proof/Machine/Latch.lean ====
section
/-!
DEFINITION. Responses on the ports, and latches: releases, acquires, holds and drains (R402 to R412).
-/

namespace Sys2Proof.Machine

/-! ### Responses -/

/-- Pintle status codes (R53). -/
def ptOkay : BitVec 3 := 0
def ptDataErr : BitVec 3 := 1
def ptAddrErr : BitVec 3 := 2
def ptBadOp : BitVec 3 := 3
def ptNotReady : BitVec 3 := 4

/-- Fabric status codes (R61). -/
def fbOkay : BitVec 3 := 0
def fbAddrErr : BitVec 3 := 1
def fbBadOp : BitVec 3 := 2
def fbNotWard : BitVec 3 := 3
def fbDataErr : BitVec 3 := 4
def fbNotReady : BitVec 3 := 5

/-- Queues a response of a port in completion order (R49, R51). -/
def State.upPush (s : State) (port : Nat) (f : UpFlit) : State :=
  let p := s.port port
  s.setPort port { p with upQ := p.upQ ++ [f] }

/-- Answers without a line; the data of KIND 0 is the old latch word or zero (R41). -/
def State.answer (s : State) (port : Nat) (tag : BitVec 8) (stat : BitVec 3) (word : BitVec 64) : State :=
  let d := lineOfWords [word.setWidth 128]
  s.upPush port { kind := false, tag := tag, stat := stat, data := d,
                  chk := chkOfWords [bondEncode (word.setWidth 128)], dup := false }

/-- Answers a request with a status and no data: a READ gets a KIND 1 flit of zeros (R44). -/
def State.refuse (s : State) (r : PintleReq) (stat : BitVec 3) : State :=
  s.upPush r.port { kind := r.op == 0, tag := r.tag, stat := stat, data := 0, chk := 0, dup := false }

/-- Answers a READ with a line: DATA_ERR where a word is delivered poisoned (R55). -/
def State.answerLine (s : State) (r : PintleReq) (vs : List (BondData × Bool)) : State :=
  let l := lineOfValues vs
  s.upPush r.port { kind := true, tag := r.tag,
                    stat := if vs.any (·.2) then ptDataErr else ptOkay,
                    data := l.1, chk := l.2, dup := false }

/-- Beats transfer on the fabric port: it is up, FCLK runs and CY_RST_N is high (R58, R88, R557, R571). -/
def State.fabRuns (s : State) : Bool := s.fab.up && s.runs 3 && s.start.mode != .reset

/-- Beats of a fabric message by its type (R59). -/
def fabBeats (type : BitVec 4) : Nat := if type = 1 ∨ type = 2 ∨ type = 8 then 2 else 1

/-- Beats have transferred on the fabric port (R431; log 72). -/
def State.countFab (s : State) (n : Nat) : State := { s with plumb := { s.plumb with fbBeats := s.plumb.fbBeats + n } }

/-- A flit has moved on a Pintle link (R431; log 72). -/
def State.countPt (s : State) : State := { s with plumb := { s.plumb with ptBeats := s.plumb.ptBeats + 1 } }

/-- Sends beats on the fabric port (R57 to R59); they wait where no beat can transfer now (R58, R557). -/
def State.foPush (s : State) (o : FabOut) : State :=
  if s.fabRuns then { s.countFab (fabBeats o.type) with fab := { s.fab with fo := s.fab.fo ++ [o] } }
  else { s with fab := { s.fab with ready := s.fab.ready ++ [o] } }

/-- Beats that waited for FCLK or for the port transfer, oldest first. -/
def State.foFlush (s : State) : State :=
  if s.fabRuns then
    { s.countFab ((s.fab.ready.map (fun o => fabBeats o.type)).sum) with fab := { s.fab with fo := s.fab.fo ++ s.fab.ready, ready := [] } }
  else s

/-- ERR_RESP (R59, R65). -/
def State.errResp (s : State) (src : BitVec 14) (tag : BitVec 10) (stat : BitVec 3) : State :=
  s.foPush { vc := true, type := 0xB, dst := src, tag := tag, off := 0, stat := stat, data := 0, chk := 0 }

/-- ATOM_RESP with the old word (R59). -/
def State.atomResp (s : State) (src : BitVec 14) (tag : BitVec 10) (word : BitVec 64) : State :=
  s.foPush { vc := true, type := 0x9, dst := src, tag := tag, off := 0, stat := 0,
             data := lineOfWords [word.setWidth 128], chk := chkOfWords [bondEncode (word.setWidth 128)] }

/-- SEAL_ACK (R59, R66). -/
def State.sealAck (s : State) (src : BitVec 14) (tag : BitVec 10) : State :=
  s.foPush { vc := true, type := 0xA, dst := src, tag := tag, off := 0, stat := 0, data := 0, chk := 0 }

/-- RD_RESP with a line (R59). -/
def State.rdResp (s : State) (src : BitVec 14) (tag : BitVec 10) (vs : List (BondData × Bool)) : State :=
  let l := lineOfValues vs
  s.foPush { vc := true, type := 0x8, dst := src, tag := tag, off := 0, stat := 0, data := l.1, chk := l.2 }

/-! ### Acquires -/

/-- The comparison of an acquire that has succeeded: the word, the effective scope and the drain's bound
(R410). -/
def matchOf (scope : Nat) (word : BitVec 64) (seq : Nat) : Matched :=
  let sc := max scope (latchScope word)
  let agent := latchAgent word
  { word := word, scope := if sc = 0 && !isCorbel agent then 1 else sc, seq := seq, bank := agent - 64 }

/-- An acquire whose request scope is narrower than the recorded one is counted (R410). -/
def State.countWiden (s : State) (scope : Nat) (word : BitVec 64) : State :=
  if scope < latchScope word then { s with regs := { s.regs with ltWiden := satAdd s.regs.ltWiden 1 } } else s

/-- Writes a latch word; every held acquire of the latch compares again (R410 step 1), within its window
(R411). -/
def State.wake (s : State) (i : Nat) : State :=
  let w := s.latch i
  let hit (h : HeldAcquire) : Bool :=
    h.matched.isNone && h.latch == i && decide (h.target ≤ latchValue w) && decide (s.now < h.until_)
  let n := (s.acq.filter (fun h => hit h && decide (h.scope < latchScope w))).length
  { s with acq := s.acq.map (fun h => if hit h then { h with matched := some (matchOf h.scope w s.seq) } else h),
           regs := { s.regs with ltWiden := satAdd s.regs.ltWiden n } }

/-- A release: the new VALUE with the scope and the agent recorded (R404, R407). -/
def State.release (s : State) (i value scope agent : Nat) : State :=
  (s.setLatch i (latchWord value scope agent)).wake i

/-- A release by a ring or by DONE_LATCH: one to latch 0 is dropped and counted (R409). -/
def State.releaseNot0 (s : State) (i value scope agent : Nat) : State :=
  if i = 0 then { s with regs := { s.regs with ltDenied := satAdd s.regs.ltDenied 1 } }
  else s.release i value scope agent

/-- Acquires held for their comparison (R412, LT_ACQ_STATUS.HELD). -/
def State.heldCount (s : State) : Nat := (s.acq.filter (fun h => h.matched.isNone)).length

/-- A queued access that a drain waits for: a write accepted before the bound, from any agent (R403). -/
def BankAccess.writeBefore (n : Nat) (a : BankAccess) : Bool :=
  decide (a.seq < n) && (match a with
    | .pintle r => r.op == 1
    | .fabricRead _ _ _ _ => false
    | .debug w _ => w
    | .line _ _ _ _ => true
    | .keystone _ w _ _ _ => w
    | .take _ _ _ => false)

/-- A queued fabric read accepted before the bound. -/
def BankAccess.fabBefore (n : Nat) : BankAccess → Bool
  | .fabricRead _ _ _ q => decide (q < n)
  | _ => false

/-- Bank of a request to stack space that lies in a region. -/
def State.reqBank (s : State) (r : PintleReq) : Option Nat :=
  if r.ctl then none else (s.regionAt r.addr.toNat).map (fun g => (g.loc r.addr.toNat).bank)

/-- No write accepted before the bound waits behind an earlier request of its port (R49), in one bank or in any. -/
def State.behindDrained (s : State) (bank : Option Nat) (n : Nat) : Bool :=
  s.ports.all (fun e => e.2.behind.all (fun r => !(r.op == 1 && decide (r.seq < n) &&
    (bank.isNone || s.reqBank r == bank))))

/-- No line of a Lintel record, a write of Warden's, accepted before the bound waits for its bank (R345, R347), in one bank or in
any. -/
def State.recordDrained (s : State) (bank : Option Nat) (n : Nat) : Bool :=
  s.ctl.lintel.all (fun l => decide (n ≤ l.seq) || !(bank.isNone || bank == some (lintelBank l.copy)))

/-- The drain set of a matched acquire has completed (R403, R410 step 3).  FLEET adds the requests accepted on
the fabric port: staged lines, held seals and releases, and reads that wait for a bank. -/
def State.drained (s : State) (m : Matched) : Bool :=
  let stack := s.banks.all (fun e => e.2.queue.all (fun a => !a.writeBefore m.seq)) && s.behindDrained none m.seq &&
    s.recordDrained none m.seq
  if m.scope = 0 then
    (s.bank m.bank).queue.all (fun a => !a.writeBefore m.seq) && s.behindDrained (some m.bank) m.seq && s.recordDrained (some m.bank) m.seq
  else if m.scope = 1 then stack
  else stack && s.banks.all (fun e => e.2.queue.all (fun a => !a.fabBefore m.seq)) &&
    s.ctl.staged.all (fun l => decide (m.seq ≤ l.seq)) &&
    s.fab.held.all (fun a => decide (m.seq ≤ a.seq)) && s.fab.crossing.all (fun a => decide (m.seq ≤ a.seq)) &&
    s.ctl.setA.seals.all (fun a => decide (m.seq ≤ a.seq)) &&
    s.ctl.setB.seals.all (fun a => decide (m.seq ≤ a.seq))

/-- Answers an acquire with OKAY and a word (R410, R411). -/
def State.acqOkay (s : State) (who : Requester) (word : BitVec 64) : State :=
  match who with
  | .pintle port tag => s.answer port tag ptOkay word
  | .peer src tag => s.atomResp src tag word

/-- Answers a held acquire NOT_READY (R412). -/
def State.acqNotReady (s : State) (who : Requester) : State :=
  match who with
  | .pintle port tag => s.answer port tag ptNotReady 0
  | .peer src tag => s.errResp src tag fbNotReady

/-- Answers every held acquire NOT_READY: at an accepted sag, a start and FW_ACTIVATE (R412). -/
def State.dropAcquires (s : State) : State :=
  let s' : State := { s with acq := [] }
  s.acq.foldl (fun s h => s.acqNotReady h.who) s'

/-- Takes an acquire that was accepted in REFCLK cycle `at_`, from which its window runs (R410 to R412). -/
def State.acquire (s : State) (who : Requester) (i scope target at_ : Nat) : State :=
  let w := s.latch i
  let until_ := at_ + 200 * s.regs.tmoTicks.toNat
  if target ≤ latchValue w ∧ s.now < until_ then
    let s := s.countWiden scope w
    let m := matchOf scope w s.seq
    if s.drained m then s.acqOkay who w
    else { s with acq := s.acq ++ [{ who := who, latch := i, scope := scope, target := target, until_ := until_, matched := some m }] }
  else if s.heldCount < 1024 then
    { s with acq := s.acq ++ [{ who := who, latch := i, scope := scope, target := target, until_ := until_, matched := none }] }
  else ({ s with regs := { s.regs with ltFull := satAdd s.regs.ltFull 1 } } : State).acqOkay who w

/-- What a release atomic does to a latch: the old word and, where it is a release, the new VALUE (R407). -/
def atomicRelease (isCas : Bool) (ops : BitVec 128) (w : BitVec 64) : Option Nat :=
  if isCas then (if latchValue w = opLow ops then some (opHigh ops) else none)
  else some ((latchValue w + opLow ops) % 2 ^ 48)

/-- Performs a release atomic for an agent; the old word is in the latch before (R407). -/
def State.atomic (s : State) (isCas : Bool) (i : Nat) (ops : BitVec 128) (agent : Nat) : State :=
  match atomicRelease isCas ops (s.latch i) with
  | some v => s.release i v (opScope ops) agent
  | none => s

/-- An atomic that is refused with BAD_OP: its operands (R406), or a release of latch 0 (R409). -/
def atomicRefused (isCas : Bool) (i : Nat) (ops : BitVec 128) : Bool :=
  atomicBad isCas ops || (i == 0 && (isCas || !opAcq ops))

/-- Removes position i. -/
def removeAt {α : Type} : List α → Nat → List α
  | [], _ => []
  | _ :: r, 0 => r
  | a :: r, i + 1 => a :: removeAt r i

end Sys2Proof.Machine
end

