-- ==== Sys2Proof/Machine/Mailbox.lean ====
section
/-!
DEFINITION. The mailbox: hasp storage and control words, doorbells, the checks that every command meets, and
responses (R491 to R501, R572).
-/

namespace Sys2Proof.Machine

/-! ### Requests -/

/-- OPCODE of a copied request (R495). -/
def Hasp.opcode (h : Hasp) : Nat := field (bytesOf h.req 0 2) 0 2

/-- Bytes [lo, lo + n) of a copied request's payload. -/
def Hasp.payload (h : Hasp) (lo n : Nat) : List Byte := bytesOf h.req (0x40 + lo) n

/-- The number in payload bytes [lo, lo + n). -/
def Hasp.pay (h : Hasp) (lo n : Nat) : Nat := leNat (h.payload lo n)

def Hasp.flags (h : Hasp) : Nat := leNat (bytesOf h.req 2 1)
def Hasp.reqLen (h : Hasp) : Nat := leNat (bytesOf h.req 4 4)

/-- Status codes (R498). -/
inductive MStatus where
  | okay | badOpcode | badLength | badField | notAtLevel | aborted | engineBusy | reqPoisoned
  | stepBusy | badStep | notSealed | verdictRefused | verdictDone | importIncomplete
  | regionOverlap | regionBusy | noSpace | groupExists | ringBusy | numericsInUse | entropyFail
  | versionWait | torn | remoteTimeout | remoteError | repairNoSpare | repairCond | repairFault
  | fwAuth | fwRollback | fwNoneStaged | compatUnsupported | fwReverted | imageCrc | imageMismatch
  deriving DecidableEq, Repr

/-- Numbers of the status codes (R498). -/
def MStatus.code : MStatus → Nat
  | .okay => 0 | .badOpcode => 1 | .badLength => 2 | .badField => 3 | .notAtLevel => 4 | .aborted => 5
  | .engineBusy => 6 | .reqPoisoned => 7 | .stepBusy => 0x10 | .badStep => 0x11 | .notSealed => 0x12
  | .verdictRefused => 0x13 | .verdictDone => 0x14 | .importIncomplete => 0x15 | .regionOverlap => 0x20
  | .regionBusy => 0x21 | .noSpace => 0x22 | .groupExists => 0x23 | .ringBusy => 0x24 | .numericsInUse => 0x25
  | .entropyFail => 0x30 | .versionWait => 0x40 | .torn => 0x41 | .remoteTimeout => 0x42 | .remoteError => 0x43
  | .repairNoSpare => 0x50 | .repairCond => 0x51 | .repairFault => 0x52 | .fwAuth => 0x60 | .fwRollback => 0x61
  | .fwNoneStaged => 0x62 | .compatUnsupported => 0x63 | .fwReverted => 0x64 | .imageCrc => 0x70 | .imageMismatch => 0x71

/-- Length that R503 gives a command's payload. -/
def Hasp.wantLen (h : Hasp) : Nat :=
  match h.opcode with
  | 0x02 => 8
  | 0x03 => 24
  | 0x04 => 64
  | 0x05 => 16 + 16 * h.pay 2 1
  | 0x06 => 8
  | 0x08 => 32
  | 0x09 => 16
  | 0x0A => 16
  | 0x0B => 16
  | 0x0C => 16
  | 0x0D => 64
  | 0x0E => 16
  | 0x0F => 8
  | 0x10 => 8
  | 0x11 => 8
  | 0x12 => 8
  | 0x13 => 64 + h.pay 4 2
  | 0x14 => 8
  | _ => 0

/-- Reserved bits of the payload of a command: first byte, number of bytes and mask, ascending (R505 to R510, R145,
R291, R298). -/
def Hasp.reserved (h : Hasp) : List (Nat × Nat × Nat) :=
  match h.opcode with
  | 0x02 => [(2, 6, 0xFF)]
  | 0x03 => [(1, 7, 0xFF), (16, 8, 0xFF)]
  | 0x04 => [(1, 1, 0x80), (5, 1, 0xFC), (9, 1, 0xFF), (14, 2, 0xFF), (48, 16, 0xFF)]
  | 0x05 => (3, 13, 0xFF) :: (List.range (h.pay 2 1)).map (fun j => (16 + 16 * j + 12, 4, 0xFF))
  | 0x08 => [(23, 1, 0xFC), (24, 1, 0xFE), (26, 6, 0xFF)]
  | 0x09 => [(10, 6, 0xFF)]
  | 0x0A => [(8, 1, 0xFC), (10, 2, 0xFF)]
  | 0x0D => [(7, 1, 0xFF), (36, 28, 0xFF)]
  | 0x0F => [(1, 7, 0xFF)]
  | 0x10 => [(6, 2, 0xFF)]
  | 0x11 => [(4, 4, 0xFF)]
  | 0x12 => [(1, 1, 0xFF), (6, 2, 0xFF)]
  | 0x13 => [(6, 1, 0xFE), (7, 57, 0xFF)]
  | 0x14 => [(0, 1, 0xFC), (1, 7, 0xFF)]
  | _ => []

/-- The lowest hasp offset of a byte that holds a non-zero reserved bit (R497 check 4, R572). -/
def Hasp.reservedAt (h : Hasp) : Option Nat :=
  let look (l : List (Nat × Nat × Nat)) : Option Nat := l.findSome? (fun e => (List.range e.2.1).findSome? (fun i =>
    if (leNat (bytesOf h.req (e.1 + i) 1)) &&& e.2.2 = 0 then none else some (e.1 + i)))
  look ([(2, 1, 0xFE), (3, 1, 0xFF), (16, 48, 0xFF)] ++ h.reserved.map (fun e => (e.1 + 0x40, e.2.1, e.2.2)))

def isQuery (op : Nat) : Bool := op == 0x01 || op == 0x09 || op == 0x0F
def isBackground (op : Nat) : Bool := op == 0x0D || op == 0x10 || op == 0x0B || op == 0x11 || op == 0x12

/-! ### Responses (R494, R496) -/

/-- Byte o of hasp h in hasp storage. -/
def haspAt (h o : Nat) : Nat := 4096 * h + o

/-- Writes bytes into hasp storage as Warden does. -/
def State.haspPut (s : State) (h o : Nat) (bs : List Byte) : State :=
  (List.range (ceilDiv bs.length 16)).foldl (fun s i =>
    let part := (bs.drop (16 * i)).take 16
    s.mergePlace { src := 4, agent := agentWarden } (haspPlace (haspAt h (o + 16 * i))) (BitVec.ofNat 128 (leNat part)) false
      (2 ^ part.length - 1)) s

/-- Answers a command with a status code: the payload, then the header, then STATE DONE, and the interrupt that the request asked
for (R494, R496). -/
def State.answerHasp (s : State) (h code d : Nat) (payload : List Byte) : State :=
  let x := s.hasp h
  let hdr := bytesOf x.req 0 2 ++ leBytes 2 code ++ leBytes 4 payload.length ++ bytesOf x.req 8 8 ++ leBytes 8 d ++
    leBytes 8 s.clk.tick.toNat ++ List.replicate 32 0
  let s := (s.haspPut h 0x840 payload).haspPut h 0x800 hdr
  let x := s.hasp h
  let s := s.setHasp h { x with state := .done, progress := if isBackground x.opcode then 0xFFFF else 0 }
  let s : State := { s with mbox := { s.mbox with queue := s.mbox.queue.filter (· != h),
                                                  active := if s.mbox.active = some h then none else s.mbox.active,
                                                  before := if s.mbox.active = some h then none else s.mbox.before,
                                                  sets := if s.mbox.active = some h then [] else s.mbox.sets } }
  if bit x.flags 0 then s.irq .mboxDone else s

/-- Checks 1 and 2 of R497. -/
def Hasp.firstChecks (x : Hasp) : Option MStatus :=
  if !x.reqOk then some .reqPoisoned
  else if x.opcode = 0 ∨ 0x15 < x.opcode then some .badOpcode
  else none

/-- The status of a waiting request that fails check 1 or 2. -/
def State.badStatus (s : State) (h : Nat) : Option MStatus := if (s.hasp h).state = .pending then (s.hasp h).firstChecks else none

/-- The next request to be answered for check 1 or 2: a query, which nothing delays, or the head of the serial order once the
command before it has ended; its opcode, as it was read, gives its class (R499; log 22). -/
def State.nextBad (s : State) : Option (Nat × MStatus) :=
  if s.dbg.halted || !s.serving || !s.runs 2 then none
  else match (List.range 16).find? (fun h => isQuery (s.hasp h).opcode && (s.badStatus h).isSome) with
    | some h => (s.badStatus h).map (fun st => (h, st))
    | none => if s.mbox.active.isSome then none else s.mbox.queue.head?.bind (fun h => (s.badStatus h).map (fun st => (h, st)))

/-- Answers the requests that fail check 1 or 2 and whose turn it is, up to a number of them. -/
def State.sweepUpTo (s : State) : Nat → State
  | 0 => s
  | n + 1 => match s.nextBad with
    | some (h, st) => State.sweepUpTo ((s.setHasp h { s.hasp h with level := s.ctl.compat }).answerHasp h st.code 0 []) n
    | none => s

def State.sweepBad (s : State) : State := s.sweepUpTo 16

/-- Ends a command; the serial order goes on (R499). -/
def State.complete (s : State) (h code d : Nat) (payload : List Byte) : State := (s.answerHasp h code d payload).sweepBad

/-- A serial command's Lintel record waits for a bed boundary, so that the command has not ended (R346, R347). -/
def State.recordWaits (s : State) (h : Nat) : Bool :=
  !s.ctl.lintel.isEmpty && (s.hasp h).state == .running && !isQuery (s.hasp h).opcode && !isBackground (s.hasp h).opcode

/-- Ends a command: at once, or, where it is a serial command that succeeds, once its record is written.  DETAIL names the field
below level 3 (R496). -/
def State.finish (s : State) (h : Nat) (st : MStatus) (detail : Nat) (payload : List Byte) : State :=
  let d := if st = .badField ∧ (s.hasp h).level ≠ 3 then detail else 0
  if st = .okay ∧ s.recordWaits h then
    { s with mbox := { s.mbox with active := some h, after := some (h, st.code, d, payload) } }
  else s.complete h st.code d payload

/-- The level and the revision that a SET_COMPAT names come into force: as its record is written (R481, R514, R524). -/
def State.applyCompat (s : State) (h : Nat) : State :=
  { s with ctl := { s.ctl with compat := (s.hasp h).pay 0 1, numRev := (s.hasp h).pay 1 1 } }

/-- A new seed whose record is written comes into force (R255, R256). -/
def State.applySeed (s : State) : State :=
  match s.mbox.newSeed with
  | some v => { s with ctl := { s.ctl with seed := v.1, seedSrc := v.2 }, mbox := { s.mbox with newSeed := none } }
  | none => s

/-- The record lines are written: the command that waited for them ends. -/
def State.endAfter (s : State) : State :=
  match s.mbox.after with
  | some (h, code, d, payload) =>
    if s.ctl.lintel.isEmpty then
      let s : State := { s.applySeed with mbox := { s.applySeed.mbox with after := none } }
      (if (s.hasp h).opcode = 0x02 then s.applyCompat h else s).complete h code d payload
    else s
  | none => s

/-- Puts a serial or background request into the order of acceptance: same-cycle doorbells by ascending hasp (R499). -/
def State.enqueue (s : State) (h : Nat) : State :=
  let now := (s.hasp h).stamp
  let before (j : Nat) : Bool := decide ((s.hasp j).stamp < now) || ((s.hasp j).stamp == now && decide (j < h))
  let q := s.mbox.queue
  { s with mbox := { s.mbox with queue := q.filter before ++ [h] ++ q.filter (fun j => !before j) } }

/-- A doorbell (R493). -/
def State.doorbell (s : State) (h : Nat) : State :=
  let x := s.hasp h
  if x.state = .pending ∨ x.state = .running then s.setHasp h { x with overrun := true }
  else
    let (vs, s) := s.readPlaces { src := 4, agent := agentWarden } ((List.range 128).map (fun i => haspPlace (haspAt h (16 * i))))
    let bs := (vs.map (fun v => leBytes 16 v.1.toNat)).flatten
    let y : Hasp := { x with state := .pending, progress := 0, req := toSparse bs, reqOk := !vs.any (·.2), stamp := s.now }
    let s := s.setHasp h y
    (if isQuery y.opcode then s else s.enqueue h).sweepBad

/-! ### Host access to hasp storage (R45, R491, R492) -/

/-- Status word 0xFC4 (R492). -/
def Hasp.statusWord (x : Hasp) : Nat :=
  (match x.state with
   | .idle => 0
   | .pending => 1
   | .running => 2
   | .done => 3) + 4 * b2n x.overrun + 65536 * x.progress.toNat

/-- Writes to word 0xFC0: OVERRUN clears, then RING rings (R492, R520). -/
def State.haspControl (s : State) (h : Nat) (d : BondData) (ben : Nat) : State :=
  let s := if bit ben 4 && d.getLsbD 34 then s.setHasp h { s.hasp h with overrun := false } else s
  if bit ben 0 && d.getLsbD 0 then s.doorbell h else s

/-- Writes the enabled bytes of one 16 B word of hasp storage; only the request areas are stored (R491).  DESIGN CHOICE
(log 68): a poisoned word that reaches the control words, which store nothing, acts on its data bits. -/
def State.haspWordWrite (s : State) (w : Who) (off : Nat) (d : BondData) (poisoned : Bool) (ben : Nat) : State :=
  let o := off % 4096
  if o < 0x800 then s.mergePlace w (haspPlace off) d poisoned ben
  else if o / 16 = 0xFC then s.haspControl (off / 4096) d ben
  else s

/-- Reads one 16 B word of hasp storage. -/
def State.haspWordRead (s : State) (w : Who) (off : Nat) : (BondData × Bool) × State :=
  let o := off % 4096
  if o < 0xFC0 then s.readPlace w (haspPlace off)
  else if o / 16 = 0xFC then ((BitVec.ofNat 128 ((s.hasp (off / 4096)).statusWord * 2 ^ 32), false), s)
  else ((0, false), s)

/-! ### Running commands -/

/-- The hasp's request is PENDING with this opcode and it is its turn (R499); Warden runs (R547); and a
command that needs the stack waits for the end of emergency self-refresh (R448; log 24). -/
def State.ready (s : State) (h op : Nat) : Bool :=
  s.serving && s.runs 2 && !s.dbg.halted && (s.hasp h).state == .pending && (s.hasp h).opcode == op && (s.hasp h).reqOk &&
  (isQuery op || (s.mbox.queue.head? == some h && s.mbox.active.isNone && (!s.plumb.esr || op == 0x0E || op == 0x15)))

/-- Checks 3 to 5 of R497 (R514). -/
def State.preChecks (s : State) (h : Nat) : Option (MStatus × Nat) :=
  let x := s.hasp h
  if x.reqLen ≠ x.wantLen ∨ 1984 < x.reqLen then some (.badLength, 0)
  else match x.reservedAt with
    | some o => some (.badField, o)
    | none => if x.opcode = 0x0F ∧ x.pay 0 1 = 2 ∧ s.ctl.compat = 3 then some (.notAtLevel, 0) else none

/-- Takes a request from the queue and marks it RUNNING at the level in force (R499, R514). -/
def State.begin_ (s : State) (h : Nat) : State :=
  let s := s.setHasp h { s.hasp h with state := .running, level := s.ctl.compat }
  { s with mbox := { s.mbox with queue := s.mbox.queue.filter (· != h) } }

/-- What a query shows now. -/
def State.shownNow (s : State) : Shown :=
  { seed := s.ctl.seed, seedSrc := s.ctl.seedSrc, compat := s.ctl.compat, numRev := s.ctl.numRev, cfgSeq := s.ctl.cfgSeq, epoch := s.ctl.epoch,
    groups := s.groupList.length, regions := s.regionList.length, marked := s.groupList.any (fun e => e.2.marked) }

/-- A serial command that has not ended is partly done: queries show things as they stood before it, in state `old`, and of an
OPEN_STEP or a VERDICT, beside which other steps go on, the sets that it has changed (R499). -/
def State.hidePart (s : State) (h : Nat) (old : State) : State :=
  if s.mbox.active = some h then
    if (s.hasp h).opcode = 0x08 ∨ (s.hasp h).opcode = 0x0A then
      { s with mbox := { s.mbox with sets := ([false, true].filter (fun b => s.set b != old.set b)).map (fun b => (b, old.set b)) } }
    else { s with mbox := { s.mbox with before := some old.shownNow } }
  else s

/-- The state as queries see it: intake sets as they stood before a command that is partly done (R499). -/
def State.asSeen (s : State) : State := s.mbox.sets.foldl (fun s e => s.setSet e.1 e.2) s

/-- Runs a command's own part after the checks of R497, when it is its turn. -/
def State.runCommand (s : State) (h op : Nat) (body : State → State) : State :=
  if s.ready h op then
    let s := s.begin_ h
    match s.preChecks h with
    | some (st, d) => s.finish h st d []
    | none => ((body s).hidePart h s).sweepBad
  else s

/-- A serial command whose end is a later event keeps the queue until then. -/
def State.holdSerial (s : State) (h : Nat) : State := { s with mbox := { s.mbox with active := some h } }

/-- A payload field's offset in the hasp (R505). -/
def fieldAt (o : Nat) : Nat := 0x40 + o

/-- A stack range that a command may name: 128 B aligned, in one DATA region (R509). -/
def State.dataRange (s : State) (a n : Nat) : Option Region :=
  match s.regionAt a with
  | some r => if r.role = 0 ∧ a % 128 = 0 ∧ n % 128 = 0 ∧ a + n ≤ (r.first + r.slabs) * slabSize then some r else none
  | none => none

/-- The mailbox as every start but a restart leaves it: hasps zero and IDLE (R501). -/
def State.clearMailbox (s : State) : State :=
  { s with hasps := .empty, mbox := { hasps := [], queue := [], active := none, bg := [], after := none, before := none, sets := [], newSeed := none } }

/-- HASP_DOORBELL (R493); one that a stopped CCLK does not take waits for it (R555, R557; log 55). -/
def execHaspDoorbell (hasp at_ : Nat) (s : State) : Host.Outcome State Fault Refusal :=
  guard (decide (hasp < 16)) (
    if !s.serving then s
    else
      let t := s.touch at_
      if s.runs 2 then t.doorbell hasp else { t with waits := t.waits ++ [.ring hasp] })

end Sys2Proof.Machine
end

