-- ==== Sys2Proof/Machine/Fp.lean ====
section
/-!
DEFINITION. Exact binary arithmetic and its one rounding: dyadic numbers, the number formats, the three
rounding modes, and every FP32 operation of a lane (R220 to R222, R233 to R236, R239).
-/

namespace Sys2Proof.Machine

/-- An exact dyadic number m × 2^e. -/
structure Dyad where
  m : Int
  e : Int
  deriving DecidableEq, Repr

/-- What a floating-point code stands for (R220). -/
inductive Num where
  | nan
  | inf (neg : Bool)
  | fin (neg : Bool) (m : Nat) (e : Int)
  deriving DecidableEq, Repr

def signed (neg : Bool) (m : Nat) : Int := if neg then -(m : Int) else (m : Int)

def Dyad.zero : Dyad := { m := 0, e := 0 }

/-- The exact sum. -/
def Dyad.add (a b : Dyad) : Dyad :=
  if a.e ≤ b.e then { m := a.m + b.m * 2 ^ (b.e - a.e).toNat, e := a.e }
  else { m := a.m * 2 ^ (a.e - b.e).toNat + b.m, e := b.e }

/-- The exact product. -/
def Dyad.mul (a b : Dyad) : Dyad := { m := a.m * b.m, e := a.e + b.e }

def Dyad.neg (a : Dyad) : Dyad := { m := -a.m, e := a.e }

def Dyad.sub (a b : Dyad) : Dyad := a.add b.neg

/-- Multiplies by 2^k. -/
def Dyad.scale (a : Dyad) (k : Int) : Dyad := { m := a.m, e := a.e + k }

def Dyad.abs (a : Dyad) : Dyad := { m := a.m.natAbs, e := a.e }

/-- a < b. -/
def Dyad.lt (a b : Dyad) : Bool := decide ((a.sub b).m < 0)

/-- floor(log2 |a|) of a non-zero number. -/
def Dyad.log2 (a : Dyad) : Int := a.e + (Nat.log2 a.m.natAbs : Int)

/-- The exact integer or fraction as a pair floor, is-exact. -/
def Dyad.floor (a : Dyad) : Int :=
  if 0 ≤ a.e then a.m * 2 ^ a.e.toNat else a.m / 2 ^ (-a.e).toNat

/-- The finite value of a number; 0 for the others. -/
def Num.dyad : Num → Dyad
  | .fin neg m e => { m := signed neg m, e := e }
  | _ => .zero

def Num.isNan : Num → Bool
  | .nan => true
  | _ => false

def Num.isFin : Num → Bool
  | .fin _ _ _ => true
  | _ => false

def Num.neg : Num → Bool
  | .nan => false
  | .inf n => n
  | .fin n _ _ => n

def Num.isZero : Num → Bool
  | .fin _ m _ => m == 0
  | _ => false

/-! ### Rounding -/

/-- The rounding modes (R236). -/
inductive RndMode where
  | rne
  | tieDither
  | sr
  deriving DecidableEq, Repr

/-- Number of trailing zeros of a non-zero number, looking at no more than `fuel` bits. -/
def trailZeros : Nat → Nat → Nat
  | 0, _ => 0
  | fuel + 1, x => if x % 2 = 1 then 0 else 1 + trailZeros fuel (x / 2)

/-- Whether the magnitude rounds up from T, where r / 2^sh is phi (R236). -/
def roundsUp (mode : RndMode) (word : BitVec 32) (t r sh : Nat) : Bool :=
  if r = 0 then false
  else match mode with
    | .rne => decide (2 ^ sh < 2 * r) || (decide (2 * r = 2 ^ sh) && t % 2 == 1)
    | .tieDither => if 2 * r = 2 ^ sh then word.getLsbD 0 else decide (2 ^ sh < 2 * r)
    | .sr =>
      let d := sh - trailZeros sh r
      let q := min d 24
      decide (word.toNat % 2 ^ q < (r <<< q) >>> sh)

/-- Rounds m × 2^e to a multiple of 2^q: the multiple's coefficient (R236). -/
def roundAt (mode : RndMode) (word : BitVec 32) (m : Nat) (e q : Int) : Nat :=
  if q ≤ e then m <<< (e - q).toNat
  else
    let sh := (q - e).toNat
    let t := m >>> sh
    let r := m % 2 ^ sh
    if roundsUp mode word t r sh then t + 1 else t

/-- Rounds an exact number to an integer (R228, R236), keeping its sign. -/
def roundInt (mode : RndMode) (word : BitVec 32) (x : Dyad) : Int :=
  signed (decide (x.m < 0)) (roundAt mode word x.m.natAbs x.e 0)

/-! ### Formats -/

/-- A floating-point format: field widths, bias, the magnitude code of the largest finite value, and the
magnitude codes of Inf and the canonical NaN where it has them (R220, R222). -/
structure Fmt where
  eb   : Nat
  fb   : Nat
  bias : Nat
  maxCode : Nat
  inf  : Option Nat
  nan  : Option Nat
  deriving DecidableEq, Repr

def fmtF32  : Fmt := { eb := 8, fb := 23, bias := 127, maxCode := 0x7F7FFFFF, inf := some 0x7F800000, nan := some 0x7FC00000 }
def fmtF16  : Fmt := { eb := 5, fb := 10, bias := 15, maxCode := 0x7BFF, inf := some 0x7C00, nan := some 0x7E00 }
def fmtBf16 : Fmt := { eb := 8, fb := 7, bias := 127, maxCode := 0x7F7F, inf := some 0x7F80, nan := some 0x7FC0 }
def fmtE4M3 : Fmt := { eb := 4, fb := 3, bias := 7, maxCode := 0x7E, inf := none, nan := some 0x7F }
def fmtE5M2 : Fmt := { eb := 5, fb := 2, bias := 15, maxCode := 0x7B, inf := some 0x7C, nan := some 0x7E }
def fmtE3M2 : Fmt := { eb := 3, fb := 2, bias := 3, maxCode := 0x1F, inf := none, nan := none }
def fmtE2M3 : Fmt := { eb := 2, fb := 3, bias := 1, maxCode := 0x1F, inf := none, nan := none }
def fmtE2M1 : Fmt := { eb := 2, fb := 1, bias := 1, maxCode := 0x7, inf := none, nan := none }

/-- Width of a code. -/
def Fmt.width (f : Fmt) : Nat := f.eb + f.fb + 1

/-- Exponent of the smallest normal. -/
def Fmt.emin (f : Fmt) : Int := 1 - (f.bias : Int)

/-- The value of a code (R220). -/
def Fmt.decode (f : Fmt) (c : Nat) : Num :=
  let mag := c % 2 ^ (f.eb + f.fb)
  let neg := bit c (f.eb + f.fb)
  let ex := mag >>> f.fb
  let fr := mag % 2 ^ f.fb
  if f.maxCode < mag then (if some mag = f.inf then .inf neg else .nan)
  else if ex = 0 then .fin neg fr (f.emin - f.fb)
  else .fin neg (2 ^ f.fb + fr) ((ex : Int) - f.bias - f.fb)

/-- The magnitude code that a finite magnitude rounds to, before saturation. -/
def Fmt.magCode (f : Fmt) (mode : RndMode) (word : BitVec 32) (m : Nat) (e : Int) : Nat :=
  if m = 0 then 0
  else
    let top : Int := e + (Nat.log2 m : Int)
    let q : Int := max top f.emin - f.fb
    (q - (f.emin - f.fb)).toNat * 2 ^ f.fb + roundAt mode word m e q

def Fmt.withSign (f : Fmt) (neg : Bool) (mag : Nat) : Nat := if neg then 2 ^ (f.eb + f.fb) + mag else mag

/-- Conversion to a narrow format: one rounding, then saturation and special values (R236, R239). Formats
without NaN never see one (R226). -/
def Fmt.narrow (f : Fmt) (mode : RndMode) (word : BitVec 32) (x : Num) : Nat :=
  match x with
  | .nan => f.nan.getD 0
  | .inf neg => match f.inf with
    | some c => f.withSign neg c
    | none => f.nan.getD 0
  | .fin neg m e => f.withSign neg (min (f.magCode mode word m e) f.maxCode)

/-- The canonical FP32 NaN (R222). -/
def f32NaN : F32 := 0x7FC00000

/-- The FP32 code of a finite magnitude, rounded by RNE; overflow gives infinity (R233). -/
def f32OfMag (neg : Bool) (m : Nat) (e : Int) : F32 :=
  BitVec.ofNat 32 (fmtF32.withSign neg (min (fmtF32.magCode .rne 0 m e) 0x7F800000))

/-- f32_round_rne of an exact number; 0 gives +0.0. -/
def f32Round (x : Dyad) : F32 := f32OfMag (decide (x.m < 0)) x.m.natAbs x.e

/-- The FP32 code of a number. -/
def f32Of : Num → F32
  | .nan => f32NaN
  | .inf neg => BitVec.ofNat 32 (fmtF32.withSign neg 0x7F800000)
  | .fin neg m e => f32OfMag neg m e

/-- What an FP32 code stands for. -/
def f32Num (x : F32) : Num := fmtF32.decode x.toNat

def f32IsNan (x : F32) : Bool := (f32Num x).isNan
def f32IsFin (x : F32) : Bool := (f32Num x).isFin
def f32IsZero (x : F32) : Bool := (f32Num x).isZero
def f32Neg (x : F32) : F32 := if f32IsNan x then f32NaN else x ^^^ 0x80000000
def f32Abs (x : F32) : F32 := if f32IsNan x then f32NaN else x &&& 0x7FFFFFFF

/-- The exact value of a finite FP32 code. -/
def f32Val (x : F32) : Dyad := (f32Num x).dyad

/-- The rounded exact sum of two numbers, IEEE 754-2019 (R221, R233). -/
def numAdd (a b : Num) : F32 :=
  match a, b with
  | .nan, _ => f32NaN
  | _, .nan => f32NaN
  | .inf p, .inf q => if p = q then f32Of (.inf p) else f32NaN
  | .inf p, _ => f32Of (.inf p)
  | _, .inf q => f32Of (.inf q)
  | .fin p m e, .fin q n k =>
    let x := (Dyad.mk (signed p m) e).add (Dyad.mk (signed q n) k)
    if x.m = 0 then f32Of (.fin (m == 0 && n == 0 && p && q) 0 0) else f32Round x

/-- The exact product of two numbers.  DESIGN CHOICE (log 69): R234 does not name the product of a zero and an infinity; it
is NaN here, so the result is 0x7FC0_0000. -/
def numMul (a b : Num) : Num :=
  match a, b with
  | .nan, _ => .nan
  | _, .nan => .nan
  | .inf p, .inf q => .inf (p != q)
  | .inf p, .fin q n _ => if n = 0 then .nan else .inf (p != q)
  | .fin p m _, .inf q => if m = 0 then .nan else .inf (p != q)
  | .fin p m e, .fin q n k => .fin (p != q) (m * n) (e + k)

def f32Add (a b : F32) : F32 := numAdd (f32Num a) (f32Num b)
def f32Sub (a b : F32) : F32 := f32Add a (b ^^^ 0x80000000)
def f32Mul (a b : F32) : F32 := f32Of (numMul (f32Num a) (f32Num b))

/-- f32_fma_rne: a × b + c, rounded once. -/
def f32Fma (a b c : F32) : F32 := numAdd (numMul (f32Num a) (f32Num b)) (f32Num c)

/-- A magnitude num / den × 2^e as 64 or more leading bits with a sticky bit below them: it rounds by RNE
to any format of at most 60 significant bits as the exact quotient does. -/
def stickyDiv (num den : Nat) (e : Int) : Nat × Int :=
  let k := 66 + bitLen den - bitLen num
  let n := num <<< k
  let q := n / den
  (2 * q + (if n % den = 0 then 0 else 1), e - k - 1)

/-- f32_div_rne. -/
def f32Div (a b : F32) : F32 :=
  match f32Num a, f32Num b with
  | .nan, _ => f32NaN
  | _, .nan => f32NaN
  | .inf _, .inf _ => f32NaN
  | .inf p, y => f32Of (.inf (p != y.neg))
  | .fin p _ _, .inf q => f32Of (.fin (p != q) 0 0)
  | .fin p m e, .fin q n k =>
    if n = 0 then (if m = 0 then f32NaN else f32Of (.inf (p != q)))
    else if m = 0 then f32Of (.fin (p != q) 0 0)
    else
      let r := stickyDiv m n (e - k)
      f32OfMag (p != q) r.1 r.2

/-- Integer square root by bits from bit `i` down: the largest s with s² ≤ x and low bits free. -/
def isqrtAux : Nat → Nat → Nat → Nat
  | 0, _, s => s
  | i + 1, x, s => let t := s + 2 ^ i; isqrtAux i x (if t * t ≤ x then t else s)

def isqrt (x : Nat) : Nat := isqrtAux (bitLen x / 2 + 1) x 0

/-- f32_sqrt_rne. -/
def f32Sqrt (a : F32) : F32 :=
  match f32Num a with
  | .nan => f32NaN
  | .inf neg => if neg then f32NaN else f32Of (.inf false)
  | .fin neg m e =>
    if m = 0 then f32Of (.fin neg 0 0)
    else if neg then f32NaN
    else
      -- an even exponent, and 64 bits or more of root with a sticky bit
      let e' : Int := if e % 2 = 0 then e - 128 else e - 129
      let n := m <<< (e - e').toNat
      let r := isqrt n
      f32OfMag false (2 * r + (if r * r = n then 0 else 1)) (e' / 2 - 1)

/-- Conversion from an integer (R233). -/
def f32OfInt (n : Int) : F32 := f32Round { m := n, e := 0 }

/-- A constant n × 2^e. -/
def f32Const (n : Int) (e : Int) : F32 := f32Round { m := n, e := e }

def f32One : F32 := 0x3F800000

/-- a < b of FP32; false when either is NaN. -/
def f32Lt (a b : F32) : Bool :=
  match f32Num a, f32Num b with
  | .nan, _ => false
  | _, .nan => false
  | .inf p, y => p && y != .inf true
  | _, .inf q => !q
  | x, y => x.dyad.lt y.dyad

/-- a = b of FP32 as numbers; false when either is NaN. -/
def f32Eq (a b : F32) : Bool := !f32IsNan a && !f32IsNan b && !f32Lt a b && !f32Lt b a

def f32Le (a b : F32) : Bool := f32Lt a b || f32Eq a b

/-- bf16_dot4: the exact sum of a value and four products, rounded once (R234).  An exact zero is -0 only
when every term is -0. -/
def numDot (acc : Num) (ps : List Num) : F32 :=
  let ts := acc :: ps
  if ts.any Num.isNan then f32NaN
  else
    let pos := ts.any (fun t => t == .inf false)
    let neg := ts.any (fun t => t == .inf true)
    if pos && neg then f32NaN
    else if pos then f32Of (.inf false)
    else if neg then f32Of (.inf true)
    else
      let x := ts.foldl (fun (x : Dyad) t => x.add t.dyad) .zero
      if x.m = 0 then f32Of (.fin (ts.all (fun t => t.neg && t.isZero)) 0 0) else f32Round x

/-- bf16_dot4 on BF16 codes. -/
def bf16Dot4 (acc : F32) (a b : List (BitVec 16)) : F32 :=
  numDot (f32Num acc) ((a.zip b).map (fun p => numMul (fmtBf16.decode p.1.toNat) (fmtBf16.decode p.2.toNat)))

end Sys2Proof.Machine
end

