-- ==== Sys2Proof/Machine/Numerics.lean ====
section
/-!
DEFINITION. Number rules of the block above single operations: microscaling blocks, Q8 moments, the
master pair, Ashlar conversion and the reduction order (R223 to R247).
-/

namespace Sys2Proof.Machine

/-! ### Microscaling blocks (R223 to R227) -/

/-- emax of an MX element format (R223). -/
def mxEmax (f : Fmt) : Int :=
  if f = fmtE4M3 then 8 else if f = fmtE5M2 then 15 else if f = fmtE3M2 then 4 else 2

/-- The larger of two magnitudes. -/
def Dyad.maxAbs (a b : Dyad) : Dyad := if a.abs.lt b.abs then b.abs else a.abs

/-- Scale and element codes of one block from the exact values of its elements inside the group and the
random word of each (R225, R226). -/
def mxEncode (f : Fmt) (mode : RndMode) (xs : List (Num × BitVec 32)) : Nat × List Nat :=
  if xs.any (fun x => !x.1.isFin) then (0xFF, xs.map (fun _ => 0))
  else
    let amax := xs.foldl (fun (a : Dyad) x => a.maxAbs x.1.dyad) .zero
    if amax.m = 0 then (0, xs.map (fun _ => 0))
    else
      let x : Int := max (amax.log2 - mxEmax f) (-127)
      ((x + 127).toNat, xs.map (fun v => match v.1 with
        | .fin neg m e => f.narrow mode v.2 (.fin neg m (e - x))
        | n => f.narrow mode v.2 n))

/-- The value of an MX element (R224). -/
def mxDecode (f : Fmt) (scale code : Nat) : Num :=
  if scale = 0xFF then .nan
  else match f.decode code with
    | .fin neg m e => .fin neg m (e + (scale : Int) - 127)
    | n => n

/-! ### Q8 moments (R228) -/

/-- Encodes the moments of one Q8 block: codes and scale.  `sgn` selects signed Q8. -/
def q8Encode (sgn : Bool) (mode : RndMode) (ys : List (F32 × BitVec 32)) : List (BitVec 8) × F32 :=
  if ys.any (fun y => !f32IsFin y.1) then (ys.map (fun _ => 0), f32NaN)
  else
    let qmax : Nat := if sgn then 127 else 255
    let amax := ys.foldl (fun (a : F32) y => if f32Lt a (f32Abs y.1) then f32Abs y.1 else a) 0
    let scale := f32Div amax (f32OfInt qmax)
    if f32IsZero scale then (ys.map (fun _ => 0), scale)
    else
      let lo : Int := if sgn then -127 else 0
      (ys.map (fun y =>
        let q := roundInt mode y.2 (f32Val (f32Div y.1 scale))
        BitVec.ofInt 8 (max lo (min q qmax))), scale)

/-- The moment that a Q8 code and its block's scale stand for. -/
def q8Decode (sgn : Bool) (code : BitVec 8) (scale : F32) : F32 :=
  f32Mul (f32OfInt (if sgn then code.toInt else code.toNat)) scale

/-! ### The master pair (R229 to R231) -/

/-- Exponent of ulp(h) of a finite head (R229). -/
def ulpExp (h : F32) : Int :=
  let ex : Nat := bits h.toNat 30 23
  max ((ex : Int) - 127) (-126) - 23

/-- The exact value of a pair (R229); a zero keeps the sign of its head. -/
def pairNum (h : F32) (t : BitVec 16) : Num :=
  match f32Num h with
  | .fin neg m e =>
    let x := (Dyad.mk (signed neg m) e).add { m := t.toInt, e := ulpExp h - 16 }
    .fin (if x.m = 0 then neg else decide (x.m < 0)) x.m.natAbs x.e
  | n => n

/-- The next FP32 value toward +infinity of a finite head. -/
def nextUp (h : F32) : F32 :=
  if h = 0x80000000 then 1 else if bit h.toNat 31 then h - 1 else h + 1

/-- The tail of an exact value under a finite head: the remainder in steps of 2^-16 ulp(h), half to
even. -/
def tailOf (x : Dyad) (h : F32) : Int := roundInt .rne 0 ((x.sub (f32Val h)).scale (16 - ulpExp h))

/-- pair_normalize (R230). -/
def pairNormalize (x : Dyad) : F32 × BitVec 16 :=
  let h := f32Round x
  if !f32IsFin h then (h, 0)
  else
    let n := tailOf x h
    if n = 32768 then
      if h = 0x7F7FFFFF then (h, 32767)
      else
        let h' := nextUp h
        (h', BitVec.ofInt 16 (tailOf x h'))
    else (h, BitVec.ofInt 16 n)

/-- Adds an FP32 quantity to a pair (R231).  DESIGN CHOICE (log 69): an exact sum of zero has the head +0.0, also where the
head and the quantity are both -0.0. -/
def pairAdd (h : F32) (t : BitVec 16) (d : F32) : F32 × BitVec 16 :=
  match f32Num h, f32Num d with
  | .nan, _ => (f32NaN, 0)
  | _, .nan => (f32NaN, 0)
  | .inf p, .inf q => if p = q then (f32Of (.inf p), 0) else (f32NaN, 0)
  | .inf p, _ => (f32Of (.inf p), 0)
  | _, .inf q => (f32Of (.inf q), 0)
  | _, y => pairNormalize ((pairNum h t).dyad.add y.dyad)

/-! ### Ashlar conversion (R241 to R247) -/

/-- Outcome of a conversion (R242). -/
inductive AshlarKind where
  | value
  | nonfinite
  | overrange
  deriving DecidableEq, Repr

structure AshlarOut where
  kind  : AshlarKind
  v     : BitVec 64
  under : Bool
  deriving DecidableEq, Repr

/-- Converts a decoded element (R242). -/
def ashlarConvert (x : Num) (eLsb : Int) : AshlarOut :=
  match x with
  | .fin neg mant ex =>
    if mant = 0 then { kind := .value, v := 0, under := false }
    else
      let m := roundAt .rne 0 mant ex eLsb
      let under := decide (ex < eLsb) && decide (mant < 2 ^ (eLsb - ex).toNat)
      if 2 ^ 51 ≤ m then { kind := .overrange, v := 0, under := false }
      else { kind := .value, v := BitVec.ofInt 64 (signed neg m), under := under }
  | _ => { kind := .nonfinite, v := 0, under := false }

/-- Takes an Ashlar-64 partial (R245). -/
def ashlarPartial (v : BitVec 64) : AshlarOut :=
  if v = 0x8000000000000000 then { kind := .nonfinite, v := 0, under := false }
  else if 2 ^ 51 ≤ v.toInt.natAbs then { kind := .overrange, v := 0, under := false }
  else { kind := .value, v := v, under := false }

/-- The accumulated gradient in FP32 before the clip factor: A × 2^(E_lsb − s) (R247). -/
def accF32 (a : BitVec 64) (eLsb : Int) (s : Int) : F32 := f32Round { m := a.toInt, e := eLsb - s }

/-! ### Reduction order (R235) -/

/-- One level of the pairwise tree: an odd last element is carried up. -/
def pairUp : List F32 → List F32
  | a :: b :: r => f32Add a b :: pairUp r
  | l => l

/-- The tree over at most 16 values. -/
def treeSum (g : List F32) : F32 := (pairUp (pairUp (pairUp (pairUp g)))).headD 0

/-- The chunks of 16 after the first, added in order; `fuel` is at least their number. -/
def chunkSum : Nat → F32 → List F32 → F32
  | 0, acc, _ => acc
  | fuel + 1, acc, l =>
    if l.isEmpty then acc else chunkSum fuel (f32Add acc (treeSum (l.take 16))) (l.drop 16)

/-- bank_partial of a share that is not empty (R235). -/
def bankPartial (share : List F32) : F32 :=
  chunkSum share.length (treeSum (share.take 16)) (share.drop 16)

/-- total: the partials of the banks with a share, in ascending bank order (R235). -/
def totalOf : List F32 → F32
  | [] => 0
  | p :: r => r.foldl f32Add p

end Sys2Proof.Machine
end

