-- ==== Sys2Proof/Machine/Group.lean ====
section
/-!
DEFINITION. Groups: the fields of an entry, the layout of state arrays and of the Coffer, journal units, and the
room that a group takes (R153, R154, R159, R266, R291, R296, R318, R335, R567, R568).
-/

namespace Sys2Proof.Machine

/-! ### Fields (R291) -/

def Group.lean (g : Group) : Bool := g.flags.getLsbD 0
def Group.sparse (g : Group) : Bool := g.flags.getLsbD 1
def Group.catchUp (g : Group) : Bool := g.flags.getLsbD 2
def Group.maskOk (g : Group) : Bool := g.flags.getLsbD 3
def Group.nesterov (g : Group) : Bool := g.flags.getLsbD 5
def Group.firstMoment (g : Group) : Bool := g.flags.getLsbD 6

/-- The group runs on Corbel units (R292). -/
def Group.corbel (g : Group) : Bool := g.rule == 1 || (g.rule == 2 && !g.flags.getLsbD 4)

def Group.hasM (g : Group) : Bool := g.rule == 0 || g.rule == 2 || (g.rule == 1 && g.firstMoment)
def Group.hasV (g : Group) : Bool := g.rule == 0

/-- Rounding mode of short weights and of moments (R238, R291). -/
def weightMode (rnd : BitVec 8) : RndMode := if rnd.getLsbD 0 then .sr else .rne
def momentMode (rnd : BitVec 8) : RndMode := if rnd.getLsbD 1 then .rne else .sr

/-- Format of the short weights (R291). -/
def Group.fmt (g : Group) : Fmt :=
  match g.wFmt with
  | 0 => fmtBf16
  | 1 => fmtF16
  | 2 => fmtE4M3
  | 3 => fmtE5M2
  | 4 => fmtE4M3
  | 5 => fmtE5M2
  | 6 => fmtE3M2
  | 7 => fmtE2M3
  | _ => fmtE2M1

def Group.mx (g : Group) : Bool := decide (4 ≤ g.wFmt)

/-! ### Placement rows (R159) -/

/-- Elements of a full placement row. -/
def Group.width (g : Group) : Nat := if g.cols = 0 then 512 else g.cols

/-- Number of placement rows. -/
def Group.pRows (g : Group) : Nat := ceilDiv g.n g.width

/-- Elements of placement row u. -/
def Group.rowLen (g : Group) (u : Nat) : Nat := min g.width (g.n - u * g.width)

/-! ### State arrays (R296) -/

/-- The arrays of R296; a Q8 moment has a code array and a scale array. -/
inductive Arr where
  | head | tail | acc | nf | m | mScale | v | vScale | rstat | rcnt | rlast
  deriving DecidableEq, Repr

/-- The arrays of a group in order, each with its slot or set. -/
def Group.arrays (g : Group) : List (Arr × Nat) :=
  let slots : List Nat := if g.lean then [0] else [0, 1]
  let per (a : Arr) : List (Arr × Nat) := slots.map (fun i => (a, i))
  let mom (a sc : Arr) (fmt : Nat) : List (Arr × Nat) :=
    (slots.map (fun i => if fmt = 2 then [(a, i), (sc, i)] else [(a, i)])).flatten
  per .head ++ per .tail ++ [(.acc, 0), (.acc, 1), (.nf, 0), (.nf, 1)] ++
  (if g.hasM then mom .m .mScale g.mFmt else []) ++
  (if g.hasV then mom .v .vScale g.vFmt else []) ++
  (if g.rule = 1 then per .rstat else []) ++
  (if g.sparse && g.rule == 0 then [(.rcnt, 0)] else []) ++
  (if g.sparse then [(.rlast, 0)] else [])

/-- Bytes of a moment element. -/
def momBytes (fmt : Nat) : Nat := if fmt = 0 then 2 else if fmt = 1 then 4 else 1

/-- Placement rows of the busiest bank, which is bank 0; all rows in a HASHED region (log 14). -/
def Group.layRows (g : Group) (pl : Bool) : Nat := if pl then ceilDiv g.pRows 4096 else g.pRows

/-- Elements of the busiest bank; all elements in a HASHED region. -/
def Group.layElems (g : Group) (pl : Bool) : Nat :=
  if pl then
    let r := g.layRows pl
    (r - 1) * g.width + g.rowLen (4096 * (r - 1))
  else g.n

/-- Q8 scales that the layout keeps: for each placement row held, one for each block that can begin in it. -/
def Group.layScales (g : Group) (pl : Bool) : Nat :=
  if pl then g.layRows pl * ceilDiv g.width 64 else ceilDiv g.n 64

/-- Bytes of an array in the busiest bank. -/
def Group.arrBytes (g : Group) (pl : Bool) (a : Arr) : Nat :=
  let e := g.layElems pl
  match a with
  | .head => 4 * e
  | .tail => 2 * e
  | .acc => 8 * e
  | .nf => ceilDiv e 8
  | .m => momBytes g.mFmt * e
  | .mScale => 4 * g.layScales pl
  | .v => momBytes g.vFmt * e
  | .vScale => 4 * g.layScales pl
  | .rstat => 4 * g.layRows pl
  | .rcnt => 4 * g.layRows pl
  | .rlast => 4 * g.layRows pl

/-- Sum of the rounded sizes of the arrays before (a, i). -/
def arrOffAux (g : Group) (pl : Bool) (a : Arr) (i : Nat) : List (Arr × Nat) → Nat → Nat
  | [], acc => acc
  | (b, j) :: r, acc => if b = a ∧ j = i then acc else arrOffAux g pl a i r (acc + roundUp 128 (g.arrBytes pl b))

/-- Byte offset of an array in the group's stretch of a bank, or in its slabs when HASHED (R154). -/
def Group.arrOff (g : Group) (pl : Bool) (a : Arr) (i : Nat) : Nat := arrOffAux g pl a i g.arrays 0

/-- Bytes of all arrays, each rounded up to a line. -/
def Group.totalBytes (g : Group) (pl : Bool) : Nat :=
  g.arrays.foldl (fun t e => t + roundUp 128 (g.arrBytes pl e.1)) 0

/-- State slabs of the group (R154). -/
def Group.needSlabs (g : Group) (pl : Bool) : Nat := ceilDiv (g.totalBytes pl) (if pl then 2048 else slabSize)

/-- Where byte `off` of the group's stretch in a bank lies; in a HASHED region, byte `off` of its slabs. -/
def Group.byteLoc (g : Group) (pl : Bool) (bank off : Nat) : Loc :=
  if pl then { bank := bank, row := g.slab + off / 2048, byte := off % 2048 }
  else quoin (g.slab * slabSize + off)

/-- The byte of the group's stretch that a place holds, if the group covers its row. -/
def Group.stretchOff (g : Group) (pl : Bool) (l : Loc) : Option Nat :=
  if l.row < g.slab ∨ g.slab + g.slabs ≤ l.row then none
  else some (if pl then (l.row - g.slab) * 2048 + l.byte else unquoin l - g.slab * slabSize)

/-- Bank and index of element i within an array of the bank (R159). -/
def Group.elemIdx (g : Group) (pl : Bool) (i : Nat) : Nat × Nat :=
  if pl then
    let u := i / g.width
    (u % 4096, u / 4096 * g.width + i % g.width)
  else (0, i)

/-- Bank and index of placement row u in a per-row array. -/
def Group.rowIdx (pl : Bool) (u : Nat) : Nat × Nat := if pl then (u % 4096, u / 4096) else (0, u)

/-- Bank and index of Q8 block b in a scale array: the block belongs to the row of its first element. -/
def Group.scaleIdx (g : Group) (pl : Bool) (b : Nat) : Nat × Nat :=
  if pl then
    let u := 64 * b / g.width
    (u % 4096, u / 4096 * ceilDiv g.width 64 + (b - ceilDiv (u * g.width) 64))
  else (0, b)

/-- Bytes of one element of an array. -/
def Group.elemBytes (g : Group) (a : Arr) : Nat :=
  match a with
  | .head => 4
  | .tail => 2
  | .acc => 8
  | .nf => 1
  | .m => momBytes g.mFmt
  | .v => momBytes g.vFmt
  | _ => 4

/-- First byte of element i (of row i or block i in arrays that have one entry for each). -/
def Group.arrLoc (g : Group) (pl : Bool) (a : Arr) (slot i : Nat) : Loc :=
  let bi := match a with
    | .mScale => g.scaleIdx pl i
    | .vScale => g.scaleIdx pl i
    | .rstat => Group.rowIdx pl i
    | .rcnt => Group.rowIdx pl i
    | .rlast => Group.rowIdx pl i
    | _ => g.elemIdx pl i
  match a with
  | .nf => g.byteLoc pl bi.1 (g.arrOff pl a slot + bi.2 / 8)
  | _ => g.byteLoc pl bi.1 (g.arrOff pl a slot + g.elemBytes a * bi.2)

/-- Bit of the non-finite bitmap byte that marks element i. -/
def Group.nfBit (g : Group) (pl : Bool) (i : Nat) : Nat := (g.elemIdx pl i).2 % 8

/-- Whether the group's STATE region is PLACED. -/
def State.gPlaced (s : State) (g : Group) : Bool := match s.region g.stReg with
  | some r => r.placed
  | none => false

/-- Slot that the update of step t reads and writes (R297). -/
def Group.rdSlot (g : Group) (t : BitVec 64) : Nat := if g.lean then 0 else t.toNat % 2
def Group.wrSlot (g : Group) (t : BitVec 64) : Nat := if g.lean then 0 else (t.toNat + 1) % 2

/-! ### Coffer (R318) -/

/-- Bytes of the element array and of the scale array of one version. -/
def Group.cofferElemBytes (g : Group) : Nat :=
  if g.mx then roundUp 128 (ceilDiv g.n 32 * 4 * g.fmt.width)
  else roundUp 128 (g.n * (g.fmt.width / 8))

def Group.cofferSize (g : Group) : Nat :=
  if g.mx then g.cofferElemBytes + roundUp 128 (ceilDiv g.n 32) else g.cofferElemBytes

/-- First stack offset of version v. -/
def Group.versionOff (g : Group) (v : Nat) : Nat := g.coffer + v % g.k * g.cofferSize

/-- The Coffer area holds an offset (R150). -/
def Group.inCoffer (g : Group) (a : Nat) : Bool :=
  decide (g.coffer ≤ a) && decide (a < g.coffer + g.k * g.cofferSize)

/-- The group whose Coffer area holds a stack offset. -/
def State.cofferAt (s : State) (a : Nat) : Option (Nat × Group) := s.groupList.find? (fun e => e.2.inCoffer a)

/-- The line at offset a belongs to the slot of version t + 1 of a group whose run was stopped (R333). -/
def State.cofferUndef (s : State) (a : Nat) : Bool :=
  match s.cofferAt a with
  | some (_, g) =>
    let v := s.ctl.epoch.toNat + 1
    g.cofUndef && decide (g.versionOff v ≤ a) && decide (a < g.versionOff v + g.cofferSize)
  | none => false

/-- A place belongs to the uncommitted slot of a group whose run was stopped: its contents are undefined (R333). -/
def State.slotUndef (s : State) (l : Loc) : Bool :=
  s.groupList.any (fun e =>
    let g := e.2
    let pl := s.gPlaced g
    g.undef && !g.lean && (match g.stretchOff pl l with
      | none => false
      | some o => g.arrays.any (fun a =>
          a.1 != .acc && a.1 != .nf && a.2 == (s.ctl.epoch.toNat + 1) % 2 && decide (g.arrOff pl a.1 a.2 ≤ o) &&
          decide (o < g.arrOff pl a.1 a.2 + g.arrBytes pl a.1))))

/-! ### Journal units (R335) -/

/-- Number of units. -/
def Group.units (g : Group) : Nat :=
  if g.corbel then
    if g.cols = 0 then g.pRows else g.pRows * ceilDiv g.cols 512
  else ceilDiv g.n 4096

/-- The elements of a unit. -/
def Group.unitElems (g : Group) (unit : Nat) : List Nat :=
  if g.corbel then
    let u := unit / 512
    let j := unit % 512
    let l := g.rowLen u
    (List.range (min 512 (l - 512 * j))).map (fun i => u * g.width + 512 * j + i)
  else (List.range (min 4096 (g.n - 4096 * unit))).map (fun i => 4096 * unit + i)

/-- All unit numbers, ascending. -/
def Group.unitList (g : Group) : List Nat :=
  if g.corbel then
    ((List.range g.pRows).map (fun u => (List.range (ceilDiv (g.rowLen u) 512)).map (fun j => u * 512 + j))).flatten
  else List.range g.units

/-! ### Room (R153, R266, R567, R568) -/

/-- Bytes that a group takes of the Mortar group pool (R567). -/
def Group.mortarPool (g : Group) : Nat :=
  (if g.rule = 1 then roundUp 128 (8 * g.cols + 64) else 0) +
  (if g.rule = 1 && g.lean then roundUp 128 (4 * g.rows + 4 * g.cols + 64) else 0) +
  (if g.sparse then roundUp 128 (2 * ceilDiv g.pRows 8) else 0)

/-- Bytes that a group takes of the system pool (R568): the PASS1_DONE mark stands beside the done map. -/
def Group.sysPool (g : Group) : Nat :=
  (if g.rule = 1 then roundUp 128 (2 * (4 * g.cols + 64)) else 0) +
  (if g.lean then roundUp 128 (ceilDiv (g.units + if g.rule = 1 then 1 else 0) 8) else 0) +
  (if g.sparse then roundUp 128 (4 * ceilDiv g.pRows 8) else 0)

/-- The lowest start, from a list of candidates, at which `len` units fit below `top` clear of every taken
range; candidates are the lowest start and the ends of the taken ranges. -/
def firstFit (lo top len : Nat) (taken : List (Nat × Nat)) (align : Nat → Nat) : Option Nat :=
  let cands := (lo :: taken.map (fun t => align (t.1 + t.2))).filter (fun c =>
    decide (lo ≤ c) && decide (c + len ≤ top) &&
    taken.all (fun t => decide (c + len ≤ t.1) || decide (t.1 + t.2 ≤ c)))
  cands.foldl (fun b c => match b with
    | none => some c
    | some x => some (min x c)) none

/-- First state slab of a new group (R153). -/
def State.fitSlabs (s : State) (g : Group) (r : Region) : Option Nat :=
  firstFit r.first (r.first + r.slabs) (g.needSlabs r.placed)
    (s.groupList.map (fun e => (e.2.slab, e.2.slabs))) id

/-- First Coffer offset of a new group (R153). -/
def State.fitCoffer (s : State) (g : Group) (r : Region) : Option Nat :=
  firstFit (r.first * slabSize) ((r.first + r.slabs) * slabSize) (g.k * g.cofferSize)
    (s.groupList.map (fun e => (e.2.coffer, e.2.k * e.2.cofferSize))) id

/-- Intake base of a new group (R266). -/
def State.fitBase (s : State) (g : Group) : Option Nat :=
  firstFit 0 (2 ^ 32) g.n (s.groupList.map (fun e => (e.2.base, e.2.n))) (roundUp 192)

def State.mortarPoolUsed (s : State) : Nat := s.groupList.foldl (fun t e => t + e.2.mortarPool) 0
def State.sysPoolUsed (s : State) : Nat := s.groupList.foldl (fun t e => t + e.2.sysPool) 0

/-! ### Reading and writing bytes of arrays -/

/-- A set of word writes, by word number of the stack store: place, mask of bytes, data, poison, and
whether a word that is not wholly covered keeps the poison it had; one that does not recomputes its check bits
(R113; log 73). -/
structure WordWrite where
  place : Place
  mask  : Nat
  data  : Nat
  bad   : Bool
  keep  : Bool
  deriving DecidableEq, Repr

/-- Adds one byte. -/
def addByte (m : Sparse WordWrite) (p : Place) (i : Nat) (b : Byte) (bad keep : Bool) : Sparse WordWrite :=
  let old := Sparse.get { place := p, mask := 0, data := 0, bad := false, keep := keep } m p.word
  Sparse.put p.word { old with mask := old.mask ||| 2 ^ i, data := old.data ||| b.toNat <<< (8 * i),
                               bad := old.bad || bad } m

/-- Adds the bytes at consecutive locations that a function gives. -/
def State.addBytes (s : State) (loc : Nat → Loc) (m : Sparse WordWrite) (off : Nat) (bad keep : Bool) : List Byte → Sparse WordWrite
  | [] => m
  | b :: r =>
    let l := loc off
    State.addBytes s loc (addByte m (s.locPlace l false) (l.byte % 16) b bad keep) (off + 1) bad keep r

/-- Who checks a word: the unit of its bank, by its own counters, where a unit works (`own`); else `who` (R116, R176, R186). -/
def Place.readBy (p : Place) (who : Who) (own : Bool) : Place × Who :=
  if own then ({ p with site := .unit (wordBank p.word) }, { who with src := 1, agent := 64 + wordBank p.word }) else (p, who)

/-- Writes the words: a word that is not wholly covered keeps its other bytes as they are delivered, and where
it says so its poison (R179); where it is not among the words that have been read, it is read for that (R113, R176).  In a STATE
region each poisoned word is counted.  Answers the number of poisoned words. -/
def State.flush (s : State) (who : Who) (role own : Bool) (known : Nat → Bool) : List (Nat × WordWrite) → State × Nat
  | [] => (s, 0)
  | (_, w) :: r =>
    let old := s.peek w.place
    let whole := w.mask % 2 ^ 16 == 2 ^ 16 - 1
    let bad := w.bad || (!whole && w.keep && old.2)
    let d := mergeBytes old.1 (BitVec.ofNat 128 w.data) w.mask
    let x := w.place.readBy who own
    let s := if whole || known w.place.word then s else (s.readPlace x.2 x.1).2
    let s := s.placeWrite w.place d bad
    let s := if bad && role then s.statePoison w.place.site who w.place.where_ else s
    let (s, n) := State.flush s who role own known r
    (s, n + b2n bad)

/-- The number that `n` bytes at a location spell, and whether their word is poisoned; the bytes lie in one
word. -/
def State.peekNat (s : State) (l : Loc) (n : Nat) : Nat × Bool :=
  let v := s.peek (s.locPlace l false)
  ((v.1.toNat >>> (8 * (l.byte % 16))) % 2 ^ (8 * n), v.2)

/-- Counts the outcome of each listed word once, in word order (R176). -/
def State.accountWords (s : State) (who : Who) (ps : Sparse Place) : State :=
  ps.foldl (fun s e => (s.readPlace who e.2).2) s

/-- Adds the word of a location to a list of input words. -/
def State.addWord (s : State) (m : Sparse Place) (l : Loc) : Sparse Place :=
  let p := s.locPlace l false
  Sparse.put p.word p m

/-! ### Loss of system-area records (R356, R455, R549, R568; logs 8, 35) -/

/-- Free contents of a statistics area of n columns, from free number i on. -/
def freeStats (i n : Nat) : Sparse (F32 × Bool) :=
  ((List.range n).map (fun j => (j, ((Config.freeWord (i + j)).setWidth 32, false)))).filter (fun e => e.2 != ((0, false) : F32 × Bool))

/-- Those of some numbers whose bit in a map of free contents is set. -/
def freeMap (i : Nat) (l : List Nat) : List Nat := l.filter (fun u => (Config.freeWord (i + u)).getLsbD 0)

/-- A group whose areas of the system pool may no longer read as they were: statistics areas, done map and PASS1_DONE. -/
def Group.losePool (g : Group) (i : Nat) : Group :=
  let live (j : Nat) : Bool := Config.kept (i + j)
  let q (j : Nat) : F32 × Bool := ((Config.freeWord (i + j)).setWidth 32, false)
  { g with
    colA := if live 0 then g.colA else freeStats i g.cols, qA := if live 0 then g.qA else q 0,
    colB := if live 1 then g.colB else freeStats (i + g.cols) g.cols, qB := if live 1 then g.qB else q 1,
    done := if live 2 then g.done else freeMap i g.unitList, pass1 := if live 3 then g.pass1 else (Config.freeWord i).getLsbD 1 }

/-- A set whose row-presence maps, kept with its seal record, may no longer read as they were. -/
def State.losePresent (s : State) (i : Nat) (x : StepSet) : StepSet :=
  { x with present := x.present.map (fun e => (e.1, if Config.kept (i + e.1) then e.2 else match s.group e.1 with
    | some g => freeMap (i + 1024) (List.range g.pRows)
    | none => e.2)) }

/-- The records of the system area that the manual gives no byte layout, each copy and each area of which may no longer read:
spill, calibration, firmware slots, configuration image, seal records, and the areas of the system pool. -/
def State.loseRecords (s : State) : State :=
  let n := s.free
  let t := s.start
  let live (i : Nat) : Bool := Config.kept (n + i)
  let seals (i : Nat) (x : StepSet) : StepSet := s.losePresent (n + 1024 * i) { x with rec0 := x.rec0 && live i, rec1 := x.rec1 && live (i + 1) }
  let s : State := { s with
    free := n + 16384,
    start := { t with
      spill := { t.spill with copy0 := t.spill.copy0 && live 0, copy1 := t.spill.copy1 && live 1 },
      heldSpill := t.heldSpill && (live 0 || live 1),
      calib := { t.calib with copy0 := t.calib.copy0 && live 2, copy1 := t.calib.copy1 && live 3 },
      slot0 := if live 4 then t.slot0 else .empty, slot1 := if live 5 then t.slot1 else .empty,
      stagedOk := t.stagedOk && live 4 && live 5, cfgLost0 := t.cfgLost0 || !live 6, cfgLost1 := t.cfgLost1 || !live 7 },
    ctl := { s.ctl with setA := seals 8 s.ctl.setA, setB := seals 10 s.ctl.setB } }
  s.groupList.foldl (fun s e => ({ s with free := s.free + 2 ^ 24 } : State).setGroup e.1 (some (e.2.losePool s.free))) s

/-! ### Debug writes to Mortar words that no rule lays out (R23, R549, R567; logs 5, 35) -/

/-- A value of a group's Mortar areas that may no longer read as it was, clean or poisoned. -/
def loseValue (i : Nat) (v : F32 × Bool) : F32 × Bool :=
  if Config.kept i then v else ((Config.freeWord i).setWidth 32, (Config.freeWord i).getLsbD 32)

def loseValues (i n : Nat) (m : Sparse (F32 × Bool)) : Sparse (F32 × Bool) :=
  ((List.range n).map (fun j => (j, loseValue (i + j) (Sparse.get (0, false) m j)))).filter (fun e => e.2 != ((0, false) : F32 × Bool))

/-- A group whose working column statistics, RMS sums and LEAN staging may no longer read as they were. -/
def Group.loseStats (g : Group) (i : Nat) : Group :=
  let c := g.cols
  { g with
    colA := loseValues i c g.colA, colB := loseValues (i + c) c g.colB, cStage := loseValues (i + 2 * c) c g.cStage,
    rStage := loseValues (i + 3 * c) g.rows g.rStage, qA := loseValue (i + 3 * c + g.rows) g.qA,
    qB := loseValue (i + 3 * c + g.rows + 1) g.qB, meanR := loseValue (i + 3 * c + g.rows + 2) g.meanR }

/-- A staged addend that may no longer read as it was. -/
def Addend.lose (i : Nat) (a : Addend) : Addend :=
  if Config.kept i then a
  else
    let m := (Config.freeWord i).getLsbD 64
    { a with value := if m then 0 else (Config.freeWord i).setWidth 64, mark := m }

/-- A debug write to a Mortar word of an area that no rule lays out may stand in anything that the area holds: the latch backing, the
staging buffer, or the working space and the group pool with their statistics and row-presence maps. -/
def State.loseMortar (s : State) (off : Nat) : State :=
  let n := s.free
  if off < 0x3300000 then
    { s with free := n + 8192,
             latches := ((List.range 8192).map (fun i =>
               (i, if Config.kept (n + i) then s.latch i else (Config.freeWord (n + i)).setWidth 64))).filter (fun e => e.2 != 0) }
  else if off < 0x4900000 then
    { s with free := n + (s.seq + 1) * 2 ^ 44,
             ctl := { s.ctl with staged := s.ctl.staged.map (fun l => { l with pieces := l.pieces.map (fun p =>
               { p with adds := p.adds.map (fun a => a.lose (n + (l.seq * 2 ^ 11 + a.group) * 2 ^ 33 + a.elem)) }) }) } }
  else
    let s : State := { s with free := n + 2 ^ 40, ctl := { s.ctl with
      setA := s.losePresent n s.ctl.setA, setB := s.losePresent (n + 2 ^ 39) s.ctl.setB } }
    s.groupList.foldl (fun s e => ({ s with free := s.free + 2 ^ 24 } : State).setGroup e.1 (some (e.2.loseStats s.free))) s

/-! ### The shares of a bank (R153, R194, R273, R312) -/

/-- A group has elements in a bank: placement row u of a PLACED group lies in bank u mod 4,096 (R158, R159). -/
def State.groupIn (s : State) (g : Group) (k : Nat) : Bool := !s.gPlaced g || decide (k < g.pRows)

/-- Banks that hold elements of a group. -/
def State.banksOf (s : State) (g : Group) : List Nat := List.range (if s.gPlaced g then min 4096 g.pRows else 4096)

/-- Sets whose step is in a state. -/
def State.setsIn (s : State) (st : StepState) : List Bool := [false, true].filter (fun b => (s.set b).held && (s.set b).state == st)

/-- The seal scan of a set runs: the set has closed and is cleared, and its lines and seals are all through (R284). -/
def State.scanning (s : State) (b : Bool) : Bool :=
  let x := s.set b
  x.held && x.state == .sealing && x.clear && x.seals.isEmpty && s.ctl.staged.all (fun l => l.setB != b)

/-- The groups of HASHED regions, whose non-finite bitmaps need not lie in the banks of their accumulators (R154; log 14). -/
def State.hashedGroups (s : State) : List (Nat × Group) := s.groupList.filter (fun e => !s.gPlaced e.2)

/-- The units of the banks scan: the mark masks that they need from other banks are in Mortar (R20, R285; log 14). -/
def State.scanRuns (s : State) (b : Bool) : Bool := s.scanning b && ((s.set b).masked || s.hashedGroups.isEmpty)

/-- Some set is being cleared or scanned (R273, R285). -/
def State.sweeping (s : State) : Bool := [false, true].any (fun b => ((s.set b).held && !(s.set b).clear) || s.scanRuns b)

/-- Lines of a bank that the state areas of groups take, 16 in the row of each slab (R153). -/
def shareOf (gs : List Group) : Nat := 16 * (gs.map (·.slabs)).sum

/-- The lines of a bank that a clear or a scan passes. -/
def State.sweepShare (s : State) (k : Nat) : Nat := shareOf ((s.groupList.map (·.2)).filter (fun g => s.groupIn g k))

/-- Every bank has passed its share of the clear or the scan in progress. -/
def State.swept (s : State) : Bool :=
  s.groupList.all (fun e => (s.banksOf e.2).all (fun k => decide (s.sweepShare k ≤ (s.bank k).passed.1)))

/-- The run of the step that is UPDATING, with its set (R325). -/
def State.updRun (s : State) : Option (Bool × Run) :=
  (s.setsIn .updating).findSome? (fun b => (s.set b).run.map (fun r => (b, r)))

/-- A run still works on a group (R27, R325). -/
def Run.takes (r : Run) (g : Group) : Bool := if g.lean then !r.spec else !r.safeDone

/-- Corbel groups of a run with elements in a bank. -/
def State.firstPass (s : State) (r : Run) (k : Nat) : List (Nat × Group) :=
  s.groupList.filter (fun e => e.2.corbel && r.takes e.2 && s.groupIn e.2 k)

/-- Those of them whose pass 2 has begun, in the order in which it began. -/
def State.secondPass (s : State) (r : Run) (k : Nat) : List (Nat × Group) :=
  r.pass2.filterMap (fun n => (s.firstPass r k).find? (fun e => e.1 == n))

/-- The lines of a bank that the first passes of a run take, and those of its second passes (R312; log 28). -/
def State.firstShare (s : State) (r : Run) (k : Nat) : Nat := shareOf ((s.firstPass r k).map (·.2))
def State.runShare (s : State) (r : Run) (k : Nat) : Nat := s.firstShare r k + shareOf ((s.secondPass r k).map (·.2))

/-- The beds of every bank that the run's Corbel groups have elements in have passed a share of lines. -/
def State.runPassed (s : State) (r : Run) (share : Nat → Nat) : Bool :=
  s.groupList.all (fun e => !(e.2.corbel && r.takes e.2) ||
    (s.banksOf e.2).all (fun k => decide (share k ≤ (s.bank k).passed.2)))

/-- The group that a bank's beds are in at a number of lines passed, and the lines passed of it. -/
def groupAtLine : List (Nat × Group) → Nat → Option (Nat × Group × Nat)
  | [], _ => none
  | e :: r, p => if p < 16 * e.2.slabs then some (e.1, e.2, p) else groupAtLine r (p - 16 * e.2.slabs)

/-! ### Clearing -/

/-- Physical row p of bank k is where a logical row of [first, first + n) lies. -/
def State.physIn (s : State) (k p first n : Nat) : Bool :=
  let b := s.bank k
  let inRange (r : Nat) : Bool := decide (first ≤ r) && decide (r < first + n)
  if p < 9216 then inRange p && b.physRow p == p
  else (b.remaps).any (fun e => e.2 == p - 9216 && inRange e.1 && b.physRow e.1 == p)

/-- Zeroes logical rows [first, first + n) of every bank with valid check bits. -/
def State.zeroSlabs (s : State) (first n : Nat) : State :=
  if s.bg = 0 then
    { s with stack :=
      { cells := s.stack.cells.filter (fun e => !s.physIn (e.1 / bankBytes) (e.1 % bankBytes / 2048) first n),
        synd := s.stack.synd.filter (fun e => !s.physIn (16 * e.1 / bankBytes) (16 * e.1 % bankBytes / 2048) first n) } }
  else
    (List.range 4096).foldl (fun s k => (List.range n).foldl (fun s r => (List.range 128).foldl (fun s w =>
      s.stkSet (s.stackWordNo k (first + r) w) 0 0) s) s) s

/-- Zeroes `n` lines from stack offset a of a region. -/
def State.zeroLines (s : State) (r : Region) (a n : Nat) : State :=
  (List.range n).foldl (fun s i =>
    (s.linePlaces (r.loc (a + 128 * i)) false).foldl (fun s p => s.placeWrite p 0 false) s) s

end Sys2Proof.Machine
end

