-- ==== Sys2Proof/Machine/Act.lean ====
section
/-!
DEFINITION. The activation tables: exact core functions evaluated to 320 fractional bits, their cubic Hermite
coefficients rounded to FP32, and the functions of ACT (R378, R379).
-/

namespace Sys2Proof.Machine

/-- Fractional bits of the fixed-point numbers below (log 16). -/
def fxBits : Nat := 320

def fxOne : Int := 2 ^ fxBits

/-- n × 2^-k. -/
def fxOf (n : Int) (k : Nat) : Int := n * 2 ^ (fxBits - k)

def fxMul (a b : Int) : Int := a * b / fxOne
def fxDiv (a b : Int) : Int := a * fxOne / b

/-- The exponential series from term n on. -/
def fxExpTerms : Nat → Nat → Int → Int → Int
  | 0, _, _, _ => 0
  | fuel + 1, n, x, t => t + fxExpTerms fuel (n + 1) x (fxMul t x / (n + 1))

/-- Squares k times. -/
def fxSquares : Nat → Int → Int
  | 0, x => x
  | k + 1, x => fxSquares k (fxMul x x)

/-- e^x for |x| ≤ 64. -/
def fxExp (x : Int) : Int := fxSquares 12 (fxExpTerms 64 0 (x / 4096) fxOne)

/-- ln 2 as the sum of 1 / (k 2^k). -/
def fxLn2 : Int := (List.range 340).foldl (fun a k => a + fxOne / (((k + 1) * 2 ^ (k + 1) : Nat) : Int)) 0

/-- arctan(1 / q). -/
def fxAtanInv : Nat → Nat → Int → Int → Int
  | 0, _, _, _ => 0
  | fuel + 1, n, q2, t => t / (2 * n + 1) - fxAtanInv fuel (n + 1) q2 (t / q2)

/-- π by Machin's formula. -/
def fxPi : Int := 16 * fxAtanInv 160 0 25 (fxOne / 5) - 4 * fxAtanInv 60 0 (239 * 239) (fxOne / 239)

def fxSqrt (x : Int) : Int := (isqrt (x.toNat * 2 ^ fxBits) : Nat)

/-- Series of the normal integral over φ: x^(2n+1) / (1·3·5…(2n+1)). -/
def fxPhiTerms : Nat → Nat → Int → Int → Int
  | 0, _, _, _ => 0
  | fuel + 1, n, x2, t => t + fxPhiTerms fuel (n + 1) x2 (fxMul t x2 / (2 * n + 3))

/-- The standard normal density. -/
def fxDensity (x : Int) : Int := fxDiv (fxExp (-(fxMul x x) / 2)) (fxSqrt (2 * fxPi))

/-- Core functions (R378): Φ, σ, tanh, 2^f, each with its derivative. -/
inductive Core where
  | gelu
  | silu
  | tanh
  | exp
  deriving DecidableEq, Repr

def Core.val (c : Core) (x : Int) : Int :=
  match c with
  | .gelu => fxOne / 2 + fxMul (fxDensity x) (fxPhiTerms 400 0 (fxMul x x) x)
  | .silu => fxDiv fxOne (fxOne + fxExp (-x))
  | .tanh => let e := fxExp (2 * x); fxDiv (e - fxOne) (e + fxOne)
  | .exp => fxExp (fxMul x fxLn2)

def Core.slope (c : Core) (x : Int) : Int :=
  match c with
  | .gelu => fxDensity x
  | .silu => let g := Core.val .silu x; fxMul g (fxOne - g)
  | .tanh => let g := Core.val .tanh x; fxOne - fxMul g g
  | .exp => fxMul fxLn2 (Core.val .exp x)

/-- Lower end of the domain in 1/64, and log2 of 1 / segment width (R378). -/
def Core.lo : Core → Int
  | .gelu => -512
  | .silu => -1024
  | _ => 0

def Core.wLog : Core → Nat
  | .gelu => 2
  | .silu => 1
  | .tanh => 3
  | .exp => 6

/-- Coefficients c0 to c3 of segment j (R378). -/
def Core.coef (c : Core) (j : Nat) : F32 × F32 × F32 × F32 :=
  let z (i : Int) : Int := fxOf (c.lo + i * 2 ^ (6 - c.wLog)) 6
  let g0 := c.val (z j)
  let g1 := c.val (z (j + 1))
  let s0 := c.slope (z j) / 2 ^ c.wLog
  let s1 := c.slope (z (j + 1)) / 2 ^ c.wLog
  let r (v : Int) : F32 := f32Round { m := v, e := -(fxBits : Int) }
  (r g0, r s0, r (3 * (g1 - g0) - (2 * s0 + s1)), r (2 * (g0 - g1) + (s0 + s1)))

/-- g(z) inside the domain (R378). -/
def Core.table (c : Core) (z : F32) : F32 :=
  -- (z − lo) / w, exact
  let x := ((f32Val z).sub { m := c.lo, e := -6 }).scale c.wLog
  let j := x.floor.toNat
  let t := f32Round (x.sub { m := j, e := 0 })
  let k := c.coef j
  f32Fma (f32Fma (f32Fma k.2.2.2 t k.2.2.1) t k.2.1) t k.1

/-- exp_tab (R378, R379).  DESIGN CHOICE (log 16): for a tiny negative y the subtraction rounds to 1.0, which no segment of [0, 1)
holds; the polynomial of segment 64, formed like the others, is taken there. -/
def expTab (z : F32) : F32 :=
  let y := f32Mul z 0x3FB8AA3B
  if f32IsNan y then f32NaN
  else if f32Le 0x43000000 y then f32Of (.inf false)
  else if f32Lt y 0xC3160000 then 0
  else
    let n := (f32Val y).floor
    let f := f32Sub y (f32OfInt n)
    f32Round ((f32Val (Core.table .exp f)).scale n)

/-- Whether lo ≤ z < hi, given in FP32. -/
def f32In (lo hi z : F32) : Bool := f32Le lo z && f32Lt z hi

/-- act_FUNC (R378, R379). -/
def actFn (func : Nat) (z : F32) : F32 :=
  if f32IsNan z then f32NaN
  else match func with
  | 0 =>
    if z = 0x7F800000 then z else if z = 0xFF800000 then 0x80000000 else if f32IsZero z then z
    else f32Mul z (if f32Lt z 0xC1000000 then 0 else if f32Lt z 0x41000000 then Core.table .gelu z else f32One)
  | 1 =>
    if z = 0x7F800000 then z else if z = 0xFF800000 then 0x80000000 else if f32IsZero z then z
    else f32Mul z (if f32Lt z 0xC1800000 then expTab z else if f32Lt z 0x41800000 then Core.table .silu z else f32One)
  | 2 =>
    if f32IsZero z then z
    else
      let a := f32Abs z
      (if f32Lt a 0x41000000 then Core.table .tanh a else f32One) ||| (z &&& 0x80000000)
  | _ => expTab z

end Sys2Proof.Machine
end

