-- ==== Sys2Proof/Machine/Tumbler.lean ====
section
/-!
DEFINITION. The Tumbler function and its streams, and the health tests of the entropy source (R248 to
R264).
-/

namespace Sys2Proof.Machine

/-- A Tumbler block: w0 to w3. -/
structure TBlock where
  w0 : BitVec 32
  w1 : BitVec 32
  w2 : BitVec 32
  w3 : BitVec 32
  deriving DecidableEq, Repr

/-- Key word k[i] (R249). -/
def tumblerKey (seed step : BitVec 64) (i : Nat) : BitVec 32 :=
  let k0 := seed.setWidth 32
  let k1 := (seed >>> 32).setWidth 32
  let k2 := step.setWidth 32
  let k3 := (step >>> 32).setWidth 32
  match i % 5 with
  | 0 => k0
  | 1 => k1
  | 2 => k2
  | 3 => k3
  | _ => 0xC5A30F69 ^^^ k0 ^^^ k1 ^^^ k2 ^^^ k3

/-- inject(j) (R249). -/
def tumblerInject (seed step : BitVec 64) (j : Nat) (x : TBlock) : TBlock :=
  { w0 := x.w0 + tumblerKey seed step j,
    w1 := x.w1 + tumblerKey seed step (j + 1),
    w2 := x.w2 + tumblerKey seed step (j + 2),
    w3 := x.w3 + tumblerKey seed step (j + 3) + BitVec.ofNat 32 j }

/-- Rotation amounts (R250). -/
def tumblerRot (r : Nat) : Nat × Nat :=
  match r % 4 with
  | 0 => (16, 12)
  | 1 => (8, 4)
  | 2 => (24, 20)
  | _ => (12, 28)

/-- One round (R249). -/
def tumblerRound (x : TBlock) (r : Nat) : TBlock :=
  let rot := tumblerRot r
  let x0 := x.w0 + x.w1
  let x3 := (x.w3 ^^^ x0).rotateLeft rot.1
  let x2 := x.w2 + x3
  let x1 := (x.w1 ^^^ x2).rotateLeft rot.2
  { w0 := x0, w1 := x1, w2 := x2, w3 := x3 }

/-- Four rounds after an injection. -/
def tumblerQuarter (seed step : BitVec 64) (x : TBlock) (j : Nat) : TBlock :=
  [4 * j, 4 * j + 1, 4 * j + 2, 4 * j + 3].foldl tumblerRound (tumblerInject seed step j x)

/-- tumbler(seed, stream, step, index) (R249). -/
def tumbler (seed stream step index : BitVec 64) : TBlock :=
  let x : TBlock := { w0 := index.setWidth 32, w1 := (index >>> 32).setWidth 32,
                      w2 := stream.setWidth 32, w3 := (stream >>> 32).setWidth 32 }
  tumblerInject seed step 3 ([0, 1, 2].foldl (tumblerQuarter seed step) x)

/-- Stream numbers (R253). -/
def streamWeight : BitVec 64 := 1
def streamMoment : BitVec 64 := 2
def streamAct : BitVec 64 := 3
def streamDropout : BitVec 64 := 4
def streamInit : BitVec 64 := 5

/-- Tumbler index of element i of group G (R237, R253). -/
def groupIndex (g i : Nat) : BitVec 64 := BitVec.ofNat 64 (2 ^ 40 * g + i)

/-- State of the two health tests: last bit, run length, first bit of the window and its count, and which
test has failed (R260). -/
structure Health where
  last  : Bool
  run   : Nat
  first : Bool
  count : Nat
  rct   : Bool
  apt   : Bool
  deriving DecidableEq, Repr

def Health.init : Health := { last := false, run := 0, first := false, count := 0, rct := false, apt := false }

/-- Runs both tests on raw bit number j of steps 2 and 3; the sequence stops at the first failure
(R260, R261). -/
def Health.feed (h : Health) (j : Nat) (b : Bool) : Health :=
  if h.rct || h.apt then h
  else
    let run := if j ≠ 0 && b == h.last then h.run + 1 else 1
    let first := if j % 1024 = 0 then b else h.first
    let count := if j % 1024 = 0 then 1 else if b == h.first then h.count + 1 else h.count
    { last := b, run := run, first := first, count := count,
      rct := decide (41 ≤ run), apt := decide (800 ≤ count) }

def healthRun : Nat → Health → List Bool → Health
  | _, h, [] => h
  | j, h, b :: r => healthRun (j + 1) (h.feed j b) r

/-- Packs raw bits into bytes, bit j into bit j mod 8 of byte j / 8 (R259 step 4). -/
def packBits (n : Nat) (bs : List Bool) : List Byte :=
  (List.range n).map (fun i =>
    BitVec.ofNat 8 ((List.range 8).foldl (fun a k => a + (if bs.getD (8 * i + k) false then 2 ^ k else 0)) 0))

/-- The tests' result over a sequence's raw bits, and its 128 B message (R259 steps 1 to 4).  A bit that the
command does not list reads as zero. -/
def entropySequence (bs : List Bool) : Health × List Byte :=
  let used := (List.range 2048).map (fun i => bs.getD (10 + i) false)
  (healthRun 0 Health.init used, packBits 128 (used.drop 1024))

end Sys2Proof.Machine
end

