-- ==== Sys2Proof/Machine/RingOps.lean ====
section
/-!
DEFINITION. Ring descriptors: their fields and checks, and what one unit of work of each operation reads and
writes (R368, R372 to R391).
-/

namespace Sys2Proof.Machine

/-! ### The descriptor (R372) -/

structure Desc where
  op    : Nat
  flags : Nat
  fmtA  : Nat
  fmtB  : Nat
  fmtC  : Nat
  fmtO  : Nat
  func  : Nat
  aux   : Nat
  count : Nat
  len   : Nat
  a     : Nat
  b     : Nat
  c     : Nat
  out   : Nat
  slates : Nat
  sc0   : F32
  sc1   : F32
  sc2   : F32
  tstep : BitVec 64
  ibase : Nat
  rel   : Nat
  deriving DecidableEq, Repr

/-- Reads the fields of a descriptor (R372). -/
def Desc.of (d : BitVec 512) : Desc :=
  let x := d.toNat
  let f (lo n : Nat) : Nat := (x >>> (8 * lo)) % 2 ^ (8 * n)
  { op := f 0 1, flags := f 1 1, fmtA := f 2 1 % 16, fmtB := f 2 1 / 16, fmtC := f 3 1 % 16, fmtO := f 3 1 / 16,
    func := f 4 2, aux := f 6 2, count := f 8 4, len := f 12 4, a := f 16 4, b := f 20 4, c := f 24 4,
    out := f 28 4, slates := f 32 4, sc0 := BitVec.ofNat 32 (f 36 4), sc1 := BitVec.ofNat 32 (f 40 4),
    sc2 := BitVec.ofNat 32 (f 44 4), tstep := BitVec.ofNat 64 (f 48 8), ibase := f 56 6, rel := f 62 2 }

def Desc.wait (d : Desc) : Bool := bit d.flags 0
def Desc.tdith (d : Desc) : Bool := bit d.flags 1
def Desc.irqFlag (d : Desc) : Bool := bit d.flags 2
def Desc.relKind (d : Desc) : Nat := bits d.flags 4 3
def Desc.scope (d : Desc) : Nat := bits d.flags 6 5
def Desc.batch (d : Desc) : Nat := d.aux % 16
def Desc.srow (d : Desc) : Nat := d.aux % 256
def Desc.parts (d : Desc) : Nat := bits d.aux 12 8
def Desc.slateIn (d : Desc) : Nat := bits d.slates 8 0
def Desc.inValid (d : Desc) : Bool := bit d.slates 15
def Desc.slateOut (d : Desc) : Nat := bits d.slates 24 16
def Desc.outValid (d : Desc) : Bool := bit d.slates 31
def Desc.gen (d : Desc) : BitVec 16 := d.tstep.setWidth 16

/-- Element formats of a ring (R373). -/
def ringFmt (code : Nat) : Option Fmt :=
  match code with
  | 0 => some fmtF32
  | 1 => some fmtBf16
  | 2 => some fmtF16
  | 3 => some fmtE4M3
  | 4 => some fmtE5M2
  | _ => none

/-- Bytes of an element (R373). -/
def ringSize (code : Nat) : Nat := if code = 0 then 4 else if code = 1 ∨ code = 2 then 2 else 1

/-- Kinds of operation. -/
def Desc.elementwise (d : Desc) : Bool :=
  (d.op == 1 && d.func == 0) || (decide (2 ≤ d.op) && decide (d.op ≤ 9)) || d.op == 0x0E || d.op == 0x10
def Desc.slateCopy (d : Desc) : Bool := d.op == 1 && d.func == 1
def Desc.reduces (d : Desc) : Bool := d.op == 0x0A || d.op == 0x0B || d.op == 0x0D
def Desc.norm (d : Desc) : Bool := d.op == 0x0C
def Desc.gemv (d : Desc) : Bool := d.op == 0x0F

def Desc.usesA (d : Desc) : Bool :=
  !(d.slateCopy || d.op == 2 || d.op == 0x10)
def Desc.usesB (d : Desc) : Bool := (decide (4 ≤ d.op) && decide (d.op ≤ 7)) || (d.norm && d.func != 2)
def Desc.usesC (d : Desc) : Bool := d.op == 7 || (d.norm && d.func == 1) || (d.op == 0x0E && d.func == 1) || d.gemv
def Desc.usesOut (d : Desc) : Bool := !(d.reduces && d.outValid)
/-- The output is rounded under R376, so that TDITH, TSTEP and IBASE have a use. -/
def Desc.rounds (d : Desc) : Bool := !(d.op == 1 || d.reduces)
def Desc.usesSlates (d : Desc) : Bool := d.slateCopy || d.reduces || d.norm
/-- The descriptor draws Tumbler bits, so that IBASE and TSTEP have a use (R382). -/
def Desc.draws (d : Desc) : Bool := (d.rounds && d.tdith) || d.op == 0x0E || d.op == 0x10
/-- The descriptor reads or writes slate cells, so that the generation in TSTEP has a use (R387, R388). -/
def Desc.tagsSlates (d : Desc) : Bool := d.slateCopy || (d.reduces && d.outValid) || (d.norm && d.inValid)

/-- Bytes of one output row of a reduction (R384, R385). -/
def Desc.redBytes (d : Desc) : Nat := if d.op == 0x0A || (d.op == 0x0B && d.func == 0) then 4 else 8

/-- The operands of a descriptor (R372). -/
inductive Operand where
  | a
  | b
  | c
  | out
  deriving DecidableEq, Repr

/-- One range of a descriptor: its operand, whether it is written, its first bank address and its bytes. -/
structure Range where
  who    : Operand
  writes : Bool
  at_    : Nat
  bytes  : Nat
  deriving DecidableEq, Repr

/-- Two ranges share a byte. -/
def Range.overlaps (x y : Range) : Bool := decide (x.at_ < y.at_ + y.bytes) && decide (y.at_ < x.at_ + x.bytes)

/-- The ranges of a descriptor (R374, R391). -/
def Desc.ranges (d : Desc) : List Range :=
  let rows := d.count * d.len
  let aBytes := if d.elementwise then d.count * ringSize d.fmtA else rows * ringSize d.fmtA
  let bBytes := if d.elementwise then d.count * ringSize d.fmtB else d.len * ringSize d.fmtB
  let cBytes := if d.gemv then 4 * d.count * d.batch else if d.op = 0x0E then ceilDiv d.count 8
    else if d.elementwise then d.count * ringSize d.fmtC else d.len * ringSize d.fmtC
  let oBytes := if d.slateCopy then 8 * d.count else if d.reduces then d.redBytes * d.count
    else if d.gemv then d.count * d.batch * ringSize d.fmtO
    else if d.elementwise then d.count * ringSize d.fmtO else rows * ringSize d.fmtO
  (if d.usesA then [⟨.a, false, d.a, aBytes⟩] else []) ++ (if d.usesB then [⟨.b, false, d.b, bBytes⟩] else []) ++
  (if d.usesC then [⟨.c, d.gemv || d.op == 0x0E, d.c, cBytes⟩] else []) ++
  (if d.usesOut then [⟨.out, true, d.out, oBytes⟩] else [])

/-- A range lies in one PLACED DATA region within a bank's stretch: that region (R160). -/
def State.ringRegion (s : State) (a n : Nat) : Option Region :=
  match s.regionAtSlab (a / 2048) with
  | some r => if r.placed && r.role == 0 && decide (0 < n) && decide (a + n ≤ (r.first + r.slabs) * 2048) then some r else none
  | none => none

/-! ### Checks (R368) -/

def fmtOk (code : Nat) : Bool := decide (code ≤ 4)

/-- 1: reserved OP or FUNC. -/
def Desc.badOp (d : Desc) : Bool :=
  match d.op with
  | 1 => decide (1 < d.func)
  | 9 => decide (3 < d.func)
  | 0x0B => decide (1 < d.func)
  | 0x0C => decide (2 < d.func)
  | 0x0E => decide (1 < d.func)
  | 0x10 => decide (1 < d.func)
  | o => !(decide (2 ≤ o) && decide (o ≤ 0x0F))

/-- 2: a format code that the operation does not accept. -/
def Desc.badFmt (d : Desc) : Bool :=
  if d.gemv then d.fmtA != 1 || d.fmtB != 0 || d.fmtC != 0 || !fmtOk d.fmtO
  else if d.slateCopy then d.fmtO != 0
  else (d.usesA && !fmtOk d.fmtA) || (d.usesB && !fmtOk d.fmtB) ||
    (d.usesC && (if d.op = 0x0E then d.fmtC != 15 else !fmtOk d.fmtC)) || !fmtOk d.fmtO ||
    (d.op == 1 && d.fmtA != d.fmtO) || (d.reduces && d.fmtO != 0)

/-- 3: an operand range outside one PLACED DATA region, or not on a sector. -/
def State.badRange (s : State) (d : Desc) : Bool :=
  d.ranges.any (fun r => (s.ringRegion r.at_ r.bytes).isNone || r.at_ % 32 != 0)

/-- The two overlaps that R375 allows: OUT equal to A or B of an element-wise operation with elements of one size, and
OUT equal to C of GEMV_THIN where OUT is FP32.  DESIGN CHOICE (log 47): NORM_APPLY, which is not element-wise, faults with
ALIAS where OUT is A, although the section's worked example runs it in place in BF16. -/
def Desc.mayEqual (d : Desc) (x y : Range) : Bool :=
  x.at_ == y.at_ &&
  ((d.elementwise && x.who == .out && (y.who == .a || y.who == .b) &&
     ringSize d.fmtO == ringSize (if y.who == .a then d.fmtA else d.fmtB)) ||
   (d.gemv && x.who == .out && y.who == .c && d.fmtO == 0))

/-- 4: a range that the descriptor writes overlaps another of its ranges, where R375 does not allow it. -/
def Desc.badAlias (d : Desc) : Bool :=
  d.ranges.any (fun x => d.ranges.any (fun y =>
    x.writes && x.who != y.who && x.overlaps y && !d.mayEqual x y && !(y.writes && d.mayEqual y x)))

/-- 5: COUNT, LEN or AUX outside the operation's limits. -/
def Desc.badShape (d : Desc) : Bool :=
  if d.elementwise then
    d.count == 0 || decide (2 ^ 24 < d.count) ||
    (d.op == 0x0E && (f32IsNan d.sc0 || f32Lt d.sc0 0 || f32Le f32One d.sc0))
  else if d.slateCopy then d.count == 0 || d.parts == 0 || decide (16 < d.parts)
  else if d.gemv then
    d.count == 0 || decide (65536 < d.count) || d.len % 4 != 0 || decide (d.len < 4) || decide (262144 < d.len) ||
    d.batch == 0 || decide (8 < d.batch)
  else d.count == 0 || decide (65536 < d.count) || d.len == 0 || decide (2 ^ 22 < d.len) ||
    decide (2 ^ 24 < d.count * d.len) || (d.norm && d.inValid && (d.parts == 0 || decide (16 < d.parts)))

/-- 6: a slate row range past row 255. -/
def Desc.badSlate (d : Desc) : Bool :=
  d.usesSlates && (d.slateCopy || (d.norm && d.inValid) || (d.reduces && d.outValid)) && decide (256 < d.srow + d.count)

/-- 7: XVEC. -/
def Desc.badXvec (d : Desc) : Bool :=
  d.gemv && (d.slates % 128 != 0 || decide (d.slates < 0x2000000) ||
    decide (0x3000000 < d.slates + 2 * d.len * d.batch))

/-- 8: a reserved or unused field that is not zero. -/
def Desc.badReserved (d : Desc) : Bool :=
  bit d.flags 7 || d.relKind == 3 || d.scope == 3 || bits d.rel 15 13 != 0 ||
  (!d.usesA && (d.a != 0 || d.fmtA != 0)) || (!d.usesB && (d.b != 0 || d.fmtB != 0)) ||
  (!d.usesC && (d.c != 0 || d.fmtC != 0)) || (!d.usesOut && d.out != 0) ||
  ((d.op == 2 || d.op == 3 || (decide (4 ≤ d.op) && decide (d.op ≤ 8)) || d.op == 0x0A || d.op == 0x0D || d.gemv) && d.func != 0) ||
  ((d.elementwise || d.slateCopy) && d.len != 0) ||
  (if d.gemv then bits d.aux 15 4 != 0
   else if d.usesSlates && (d.slateCopy || (d.norm && d.inValid)) then bits d.aux 15 13 != 0
   else if d.reduces && d.outValid then bits d.aux 15 8 != 0
   else d.aux != 0) ||
  (if d.gemv then false
   else if d.usesSlates then bits d.slates 14 9 != 0 || bits d.slates 30 25 != 0 ||
     (!(d.slateCopy || d.norm) && bits d.slates 15 0 != 0) || (d.norm && !d.inValid && bits d.slates 15 0 != 0) ||
     (!d.reduces && d.slates / 2 ^ 16 != 0) || (d.reduces && !d.outValid && d.slates / 2 ^ 16 != 0)
   else d.slates != 0) ||
  (!(d.op == 2 || d.op == 3 || d.op == 4 || d.op == 9 || (d.norm && d.func != 2) || d.op == 0x0E || d.op == 0x10 || d.gemv) && d.sc0 != 0) ||
  (!(d.op == 4 || (d.norm && d.func != 2) || d.op == 0x0E || d.op == 0x10) && d.sc1 != 0) || d.sc2 != 0 ||
  (!d.rounds && d.tdith) || (!d.draws && d.ibase != 0) || (!(d.draws || d.tagsSlates) && d.tstep != 0) ||
  (d.relKind == 0 && (d.rel != 0 || d.scope != 0))

/-- The first check that fails: the codes of R368 in ascending order, but SHAPE before RANGE, since the limits of COUNT,
LEN and AUX bound the ranges (DESIGN CHOICE, log 47). -/
def State.descErr (s : State) (d : Desc) : Option (BitVec 4) :=
  if d.badOp then some 1 else if d.badFmt then some 2 else if d.badShape then some 5 else if s.badRange d then some 3
  else if d.badAlias then some 4 else if d.badSlate then some 6
  else if d.badXvec then some 7 else if d.badReserved then some 8 else none

/-- Descriptor q + 1 must wait for descriptor q whatever WAIT says (R366). -/
def descConflict (d e : Desc) : Bool :=
  d.ranges.any (fun x => e.ranges.any (fun y => (x.writes || y.writes) && x.overlaps y)) ||
  (d.reduces && d.outValid && (e.slateCopy || (e.norm && e.inValid)) && d.slateOut == e.slateIn)

/-! ### Reading and writing operands -/

/-- The word place of a bank address for the unit of bank k. -/
def State.ringPlace (s : State) (k a : Nat) : Place :=
  let det := Region.policy (s.regionAtSlab (a / 2048))
  { s.rowPlace k (a / 2048) (a % 2048 / 16) det with site := .unit k }

/-- The code of n bytes at a bank address, and whether its word is poisoned. -/
def State.ringCode (s : State) (k a n : Nat) : Nat × Bool :=
  let v := s.peek (s.ringPlace k a)
  ((v.1.toNat >>> (8 * (a % 16))) % 2 ^ (8 * n), v.2)

/-- Element e of an array decoded to FP32 (R376). -/
def State.ringElem (s : State) (k base fmt e : Nat) : F32 × Bool :=
  let v := s.ringCode k (base + e * ringSize fmt) (ringSize fmt)
  match ringFmt fmt with
  | some f => (f32Of (f.decode v.1), v.2)
  | none => (0, v.2)

/-- Counts the outcomes of the words of n bytes from a bank address (R176). -/
def State.ringAccount (s : State) (k a n : Nat) : State :=
  (List.range (if n = 0 then 0 else (a + n - 1) / 16 - a / 16 + 1)).foldl
    (fun s i => (s.readPlace { src := 1, agent := 64 + k } (s.ringPlace k (a / 16 * 16 + 16 * i))).2) s

/-- The words of n bytes from a bank address. -/
def State.ringWords (s : State) (k a n : Nat) : List Nat :=
  (List.range (if n = 0 then 0 else (a + n - 1) / 16 - a / 16 + 1)).map (fun i => (s.ringPlace k (a / 16 * 16 + 16 * i)).word)

/-- The bytes of an output element: rounded in the activation class (R376, R382). -/
def Desc.outBytes (d : Desc) (seed : BitVec 64) (e : Nat) (x : F32) : List Byte :=
  match ringFmt d.fmtO with
  | none => []
  | some f =>
    if d.fmtO = 0 then leBytes 4 (f32Of (f32Num x)).toNat
    else
      let w := if d.tdith then (tumbler seed streamAct d.tstep (BitVec.ofNat 64 (d.ibase + e))).w0 else 0
      leBytes (ringSize d.fmtO) (f.narrow (if d.tdith then .tieDither else .rne) w (f32Num x))

/-- Adds output bytes at a bank address.  DESIGN CHOICE (log 73): a word that begins in this write is taken as the write's own, so that
where the write covers a part of it, its other bytes stay as they were read, and its check bits are formed anew, also where it read
POISON or UNCORRECTABLE; R113 and R179 leave open what becomes of such a word. -/
def State.ringPut (s : State) (k : Nat) (m : Sparse WordWrite) (a : Nat) (bad : Bool) (bs : List Byte) : Sparse WordWrite :=
  (List.range bs.length).foldl (fun m i =>
    let at_ := a + i
    addByte m (s.ringPlace k at_) (at_ % 16) (bs.getD i 0) bad (a % 16 != 0 && decide (at_ / 16 = a / 16))) m

/-- Writes the outputs of a unit and notes a poisoned one (R370).  A word that is not wholly covered has been read where it is one
of the unit's operand words, or where an earlier unit of the descriptor began it; `fresh` says that none did (R113, R176). -/
def State.ringFlush (s : State) (k : Nat) (m : Sparse WordWrite) (f : InFlight) (ops : List Nat) (fresh : Bool) : State × InFlight :=
  let r := s.flush { src := 1, agent := 64 + k } false true
    (fun w => ops.contains w || (!fresh && m.any (fun e => e.1 == w && e.2.keep))) m
  (r.1, if r.2 = 0 then f else { f with poison := true })

/-! ### Slates (R386 to R388) -/

def slateKey (n row cell : Nat) : Nat := 16 * (256 * n + row) + cell

/-- Offset of a cell in the Mortar window: slate n at 0x0370_0000 + 0x8000 × n, rows of 16 cells of 8 B. -/
def slateOff (n row cell : Nat) : Nat := 0x1700000 + 0x8000 * n + 128 * row + 8 * cell

/-- A cell as Mortar delivers it: its two values, its tag, and whether its Bond word is poisoned. -/
structure SlateCell where
  v0   : F32
  v1   : F32
  bank : Nat
  gen  : BitVec 16
  bad  : Bool
  deriving DecidableEq, Repr

/-- The cell of a slate row, where it has a tag. -/
def State.slateCell (s : State) (n row i : Nat) : Option SlateCell :=
  (s.slateTag (slateKey n row i)).map (fun t =>
    let off := slateOff n row i
    let v := s.peek (mortarPlace off)
    let x := v.1.toNat >>> (8 * (off % 16))
    { v0 := BitVec.ofNat 32 x, v1 := BitVec.ofNat 32 (x >>> 32), bank := t.bank, gen := t.gen, bad := v.2 })

def State.slateRow (s : State) (n row : Nat) : List (Option SlateCell) :=
  (List.range 16).map (fun i => s.slateCell n row i)

/-- Writes a cell: its 8 B are merged into their Bond word of Mortar, poisoned where they come from poison (R178, R179;
log 64), and its tag is set. -/
def State.slatePut (s : State) (n row i : Nat) (c : SlateCell) : State :=
  let off := slateOff n row i
  let d : BondData := BitVec.ofNat 128 ((c.v0.toNat + 2 ^ 32 * c.v1.toNat) * 2 ^ (8 * (off % 16)))
  (s.mergePlace { src := 4, agent := 64 + c.bank } (mortarPlace off) d c.bad (255 * 2 ^ (off % 16))).setSlateTag (slateKey n row i)
    (some { bank := c.bank, gen := c.gen })

/-- Counts the outcomes of reading a slate row (R176). -/
def State.slateAccount (s : State) (k n row : Nat) : State :=
  (s.readPlaces { src := 4, agent := 64 + k } ((List.range 8).map (fun i => mortarPlace (slateOff n row (2 * i))))).2

/-- The cell of a row that takes a bank's values (R387). -/
def State.slateSlot (s : State) (n row bank : Nat) (gen : BitVec 16) : Option Nat :=
  let cells := (List.range 16).zip (s.slateRow n row)
  let pick (p : Option SlateCell → Bool) : Option Nat := (cells.find? (fun c => p c.2)).map (·.1)
  match pick (fun c => match c with | some x => x.bank == bank | none => false) with
  | some i => some i
  | none =>
    match pick (fun c => match c with | some x => x.gen != gen | none => false) with
    | some i => some i
    | none => pick (fun c => c.isNone)

/-- Cells of a generation in ascending bank index. -/
def State.slateCells (s : State) (n row : Nat) (gen : BitVec 16) : List SlateCell :=
  ((s.slateRow n row).filterMap id |>.filter (fun c => c.gen == gen)).mergeSort (fun a b => decide (a.bank ≤ b.bank))

/-- The larger of two FP32 numbers, +0 above −0, NaN winning (R385). -/
def f32Max (a b : F32) : F32 :=
  if f32IsNan a || f32IsNan b then f32NaN
  else if f32Lt a b then b else if f32Lt b a then a
  else if bit a.toNat 31 then b else a

/-- Combined values of the cells of a row: V0, V1 (R388). -/
def slateTotals (cs : List SlateCell) : F32 × F32 := (totalOf (cs.map (·.v0)), totalOf (cs.map (·.v1)))

/-- Combined softmax values of the pairs of a row: M and S (R388). -/
def slateSoftmax (cs : List (F32 × F32)) : F32 × F32 :=
  let m := (cs.map (·.1)).foldl f32Max 0xFF800000
  (m, cs.foldl (fun (x : F32) c => if c.1 = 0xFF800000 then x else f32Fma c.2 (expTab (f32Sub c.1 m)) x) 0)

/-! ### Slate values in row latch 1 (R388, R400; log 62) -/

/-- SOFTMAX_PARTS partials: the unit forms M and S itself. -/
def Desc.softmaxIn (d : Desc) : Bool := d.norm && d.func == 2

/-- The unit works with slate values. -/
def Desc.slateFed (d : Desc) : Bool := d.slateCopy || (d.norm && d.inValid)

/-- Bytes of row latch 1 for one slate row: V0 and V1, or up to 16 cells. -/
def Desc.slateStride (d : Desc) : Nat := if d.softmaxIn then 128 else 8

/-- What the channel controller loads for a row: V0 and V1, or for SOFTMAX_PARTS the cells, in ascending bank index (R388). -/
def Desc.slateBytes (d : Desc) (cs : List SlateCell) : List Byte :=
  let bs : List Byte := if d.softmaxIn then cs.flatMap (fun c => leBytes 4 c.v0.toNat ++ leBytes 4 c.v1.toNat)
    else leBytes 4 (slateTotals cs).1.toNat ++ leBytes 4 (slateTotals cs).2.toNat
  bs ++ List.replicate (d.slateStride - bs.length) 0

/-- Loads the slate values of the next rows of a descriptor into row latch 1, 16 rows at most, so that a latch holds the cells of
each (R388; log 62). -/
def State.slateLoad (s : State) (k : Nat) (d : Desc) (f : InFlight) : State :=
  let rows := (List.range (min 16 (d.count - f.outer))).map (fun i => d.srow + f.outer + i)
  let cells := rows.map (fun r => s.slateCells d.slateIn r d.gen)
  (rows.foldl (fun s r => s.slateAccount k d.slateIn r) s).putLatch k true
    (.slate f.q f.outer (cells.map (fun cs => (cs.length != d.parts, cs.any (·.bad))))) (cells.flatMap d.slateBytes)

/-- What row latch 1 holds for a row of descriptor q: its bytes, whether cells were missing, and whether one was poisoned. -/
def Bank.slateHeld (b : Bank) (d : Desc) (q row : Nat) : Option (List Byte × Bool × Bool) :=
  match b.rowLat.2.use with
  | .slate q' row0 rows =>
    if q' = q ∧ row0 ≤ row then
      rows[row - row0]?.map (fun r => ((b.rowLat.2.data.drop (d.slateStride * (row - row0))).take d.slateStride, r))
    else none
  | _ => none

/-- V0 and V1 of a row in the latch. -/
def latchTotals (bs : List Byte) : F32 × F32 := (BitVec.ofNat 32 (field bs 0 4), BitVec.ofNat 32 (field bs 4 4))

/-- The cells of a row in the latch. -/
def Desc.latchCells (d : Desc) (bs : List Byte) : List (F32 × F32) :=
  (List.range d.parts).map (fun i => (BitVec.ofNat 32 (field bs (8 * i) 4), BitVec.ofNat 32 (field bs (8 * i + 4) 4)))

def Ring.set (r : Ring) (slateShort slateFull : Bool) : Ring :=
  { r with slateShort := r.slateShort || slateShort, slateFull := r.slateFull || slateFull }

/-! ### Units of work -/

/-- One output element of an element-wise operation from its inputs (R377, R380, R381). -/
def Desc.elemValue (d : Desc) (seed : BitVec 64) (e : Nat) (a b c : F32) : F32 :=
  let idx := BitVec.ofNat 64 (d.ibase + e)
  match d.op with
  | 2 => d.sc0
  | 3 => f32Mul d.sc0 a
  | 4 => f32Fma d.sc0 a (f32Mul d.sc1 b)
  | 5 => f32Add a b
  | 6 => f32Mul a b
  | 7 => f32Fma a b c
  | 8 => a
  | 9 => actFn d.func (f32Sub a d.sc0)
  | 0x0E => f32Mul a d.sc1
  | 0x10 =>
    let t := tumbler seed streamInit d.tstep idx
    if d.func = 0 then f32Fma (f32Const (t.w0.toNat / 256) (-24)) (f32Sub d.sc1 d.sc0) d.sc0
    else
      let h (w : BitVec 32) : Nat := w.toNat % 2 ^ 16 + w.toNat / 2 ^ 16
      let n : Int := h t.w0 + h t.w1 + h t.w2 + h t.w3
      -- K = 2^16 × sqrt(2/3), rounded once
      let kk : F32 := f32Round { m := 2 * (fxSqrt (fxDiv 2 3)) + 1, e := 15 - (fxBits : Int) }
      f32Fma (f32Div (f32OfInt (n - 262140)) kk) d.sc1 d.sc0
  | _ => a

/-- DROPOUT threshold P (R380). -/
def Desc.dropP (d : Desc) : Nat := min (2 ^ 32 - 1) (((f32Val d.sc0).scale 32).floor.toNat)

/-- DROPOUT keeps element e (R380). -/
def Desc.kept (d : Desc) (seed : BitVec 64) (e : Nat) : Bool :=
  decide (d.dropP ≤ (tumbler seed streamDropout d.tstep (BitVec.ofNat 64 (d.ibase + e))).w0.toNat)

/-- Up to 128 elements of an element-wise operation from the cursor.  DESIGN CHOICE (log 47): the bits of the last mask byte past
COUNT are written 0 (R380). -/
def State.unitElementwise (s : State) (k : Nat) (d : Desc) (f : InFlight) : State × InFlight :=
  let n := min 128 (d.count - f.outer)
  let seed := s.ctl.seed
  let es := (List.range n).map (fun i => f.outer + i)
  let acc (s : State) (on : Bool) (base fmt : Nat) : State :=
    if on then s.ringAccount k (base + f.outer * ringSize fmt) (n * ringSize fmt) else s
  let s1 := acc (acc (acc s d.usesA d.a d.fmtA) d.usesB d.b d.fmtB) (d.op == 7) d.c d.fmtC
  let m := es.foldl (fun (m : Sparse WordWrite) e =>
    let a := if d.usesA then s.ringElem k d.a d.fmtA e else (0, false)
    let b := if d.usesB then s.ringElem k d.b d.fmtB e else (0, false)
    let c := if d.op = 7 then s.ringElem k d.c d.fmtC e else (0, false)
    let bad := a.2 || b.2 || c.2
    let bytes :=
      if d.op = 1 then leBytes (ringSize d.fmtO) (s.ringCode k (d.a + e * ringSize d.fmtA) (ringSize d.fmtA)).1
      else if d.op = 0x0E && !d.kept seed e then leBytes (ringSize d.fmtO) 0
      else d.outBytes seed e (d.elemValue seed e a.1 b.1 c.1)
    s.ringPut k m (d.out + e * ringSize d.fmtO) bad bytes) []
  let m := if d.op = 0x0E && d.func == 1 then
      (List.range (ceilDiv n 8)).foldl (fun (m : Sparse WordWrite) i =>
        let e0 := f.outer + 8 * i
        let v := (List.range 8).foldl (fun v j => v + (if decide (e0 + j < d.count) && d.kept seed (e0 + j) then 2 ^ j else 0)) 0
        s.ringPut k m (d.c + e0 / 8) false [BitVec.ofNat 8 v]) m
    else m
  let ops (on : Bool) (base fmt : Nat) : List Nat :=
    if on then s.ringWords k (base + f.outer * ringSize fmt) (n * ringSize fmt) else []
  let r := s1.ringFlush k m { f with outer := f.outer + n }
    (ops d.usesA d.a d.fmtA ++ ops d.usesB d.b d.fmtB ++ ops (d.op == 7) d.c d.fmtC) false
  (r.1, { r.2 with done := decide (d.count ≤ f.outer + n) })

/-- One row of COPY FUNC 1, from the values in row latch 1; without them the unit waits for the next bed boundary (R377, R388).
DEDUCED (log 47): it reads its slate row whatever IN_VALID says. -/
def State.unitSlateCopy (s : State) (k : Nat) (d : Desc) (f : InFlight) : State × InFlight :=
  match (s.bank k).slateHeld d f.q f.outer with
  | none => (s, f)
  | some (bs, short, bad) =>
    let v := if short then (0, 0) else latchTotals bs
    let s := s.setRing k ((s.ring k).set short false)
    let m := s.ringPut k [] (d.out + 8 * f.outer) (short || bad) (leBytes 4 v.1.toNat ++ leBytes 4 v.2.toNat)
    let r := s.ringFlush k m { f with outer := f.outer + 1 } [] false
    (r.1, { r.2 with done := decide (d.count ≤ f.outer + 1) })

/-- The chunk of 16 elements of a row from the cursor, decoded. -/
def State.rowChunk (s : State) (k : Nat) (d : Desc) (f : InFlight) : List (F32 × Bool) :=
  (List.range (min 16 (d.len - f.inner))).map (fun i => s.ringElem k d.a d.fmtA (f.outer * d.len + f.inner + i))

/-- acc of R235 after one more chunk. -/
def accChunk (first : Bool) (acc : F32) (g : List F32) : F32 := if first then treeSum g else f32Add acc (treeSum g)

/-- Running statistics after one more chunk: (v0, v1, m). `kind` 0 sum, 1 squares, 2 both, 3 maximum, 4 shifted
exponentials (R384, R385). -/
def statChunk (kind : Nat) (first : Bool) (run : F32 × F32 × F32) (g : List F32) : F32 × F32 × F32 :=
  let sq := g.map (fun a => f32Mul a a)
  match kind with
  | 0 => (accChunk first run.1 g, 0, run.2.2)
  | 1 => (accChunk first run.1 sq, 0, run.2.2)
  | 2 => (accChunk first run.1 g, accChunk first run.2.1 sq, run.2.2)
  | 3 => (run.1, run.2.1, g.foldl f32Max (if first then 0xFF800000 else run.2.2))
  | _ => (run.1, if run.2.2 = 0xFF800000 then 0 else accChunk first run.2.1 (g.map (fun a => expTab (f32Sub a run.2.2))), run.2.2)

def InFlight.runOf (f : InFlight) : F32 × F32 × F32 := (f.run.getD 0 0, f.run.getD 1 0, f.run.getD 2 0)

/-- What a reduction accumulates in its present pass. -/
def Desc.statKind (d : Desc) (pass : Bool) : Nat :=
  if d.op = 0x0A then 0
  else if d.op = 0x0B then (if d.func = 0 then 1 else 2)
  else if d.op = 0x0D then (if pass then 4 else 3)
  else if d.func = 0 then 1 else if d.func = 1 then 2 else 3

/-- Values that a finished row of a reduction delivers. -/
def Desc.redValues (d : Desc) (run : F32 × F32 × F32) : F32 × F32 :=
  if d.op = 0x0D then (run.2.2, run.2.1) else (run.1, run.2.1)

/-- One chunk of a reduction; the last chunk of a row delivers the row, to a slate by way of row latch 0 (R20, R384, R385, R387).  DEDUCED (log 47): SLATE_FULL sets its
own flag, and neither POISONED nor the count of RG_POISON_CNT, which R363 gives to poison alone (R370). -/
def State.unitReduce (s : State) (k : Nat) (d : Desc) (f : InFlight) : State × InFlight :=
  let g := s.rowChunk k d f
  let s := s.ringAccount k (d.a + (f.outer * d.len + f.inner) * ringSize d.fmtA) (g.length * ringSize d.fmtA)
  let run := statChunk (d.statKind f.pass) (f.inner == 0) f.runOf (g.map (·.1))
  let bad := g.any (·.2) || (f.rowBad && (f.inner != 0 || f.pass))
  let f := { f with run := [run.1, run.2.1, run.2.2, 0], rowBad := bad, inner := f.inner + 16 }
  if f.inner < d.len then (s, f)
  else if d.op = 0x0D && !f.pass then (s, { f with pass := true, inner := 0 })
  else
    let v := d.redValues run
    let f' := { f with outer := f.outer + 1, inner := 0, pass := false, run := [0, 0, 0, 0], rowBad := false,
                       done := decide (d.count ≤ f.outer + 1) }
    if d.outValid then
      let s := s.latchOut k (leBytes 4 v.1.toNat ++ leBytes 4 v.2.toNat)
      match s.slateSlot d.slateOut (d.srow + f.outer) k d.gen with
      | some i => (s.slatePut d.slateOut (d.srow + f.outer) i { v0 := v.1, v1 := v.2, bank := k, gen := d.gen, bad := bad },
          if bad then { f' with poison := true } else f')
      | none => (s.setRing k ((s.ring k).set false true), f')
    else
      let bytes := leBytes 4 v.1.toNat ++ (if d.redBytes = 8 then leBytes 4 v.2.toNat else [])
      s.ringFlush k (s.ringPut k [] (d.out + d.redBytes * f.outer) bad bytes) f' [] false

/-- Statistics that NORM_APPLY applies: entries 16 to 19 of R395 (R389).  DESIGN CHOICE (log 75): where the variance is NaN, max(+0.0, x)
is the canonical NaN; R389 does not say whether its max keeps it. -/
def Desc.normStats (d : Desc) (v0 v1 m : F32) : List F32 :=
  match d.func with
  | 0 =>
    let ms := f32Div v0 d.sc1
    [0, 0, f32Div f32One (f32Sqrt (f32Add ms d.sc0)), 0]
  | 1 =>
    let mu := f32Div v0 d.sc1
    let q := f32Div v1 d.sc1
    let var := f32Fma (mu ^^^ 0x80000000) mu q
    let var := if f32IsNan var then f32NaN else f32Max 0 var
    [0, 0, f32Div f32One (f32Sqrt (f32Add var d.sc0)), mu]
  | _ => [0, v1, m, 0]

/-- One element of NORM_APPLY (R389). -/
def Desc.normElem (d : Desc) (run : List F32) (x g beta : F32) : F32 :=
  let rho := run.getD 2 0
  match d.func with
  | 0 => f32Mul (f32Mul x rho) g
  | 1 => f32Fma (f32Mul (f32Sub x (run.getD 3 0)) rho) g beta
  | _ => if rho = 0xFF800000 then f32NaN else f32Div (expTab (f32Sub x rho)) (run.getD 1 0)

/-- s of a whole row once its maximum m is known (R385). -/
def State.rowExpSum (s : State) (k : Nat) (d : Desc) (row : Nat) (m : F32) : F32 :=
  if m = 0xFF800000 then 0
  else bankPartial ((List.range d.len).map (fun j => expTab (f32Sub (s.ringElem k d.a d.fmtA (row * d.len + j)).1 m)))

/-- The statistics of a row from the slate values in row latch 1 (R388, R389). -/
def Desc.latchStats (d : Desc) (bs : List Byte) : List F32 :=
  if d.softmaxIn then d.normStats 0 (slateSoftmax (d.latchCells bs)).2 (slateSoftmax (d.latchCells bs)).1
  else d.normStats (latchTotals bs).1 (latchTotals bs).2 0

/-- A row of NORM_APPLY with IN_VALID, as it starts and as it goes on: its values stand in row latch 1, and where cells are missing
SLATE_SHORT is set and the row goes on poisoned, also after a resumption (R388, R400).  DESIGN CHOICE (log 47): the row's one pass
over A counts as the second, so that its image shows PASS 1 (R395). -/
def State.normRow (s : State) (k : Nat) (d : Desc) (f : InFlight) (bs : List Byte) (short bad : Bool) : State × InFlight :=
  (s.setRing k ((s.ring k).set short false),
   if f.pass then { f with rowBad := f.rowBad || short || bad }
   else { f with pass := true, inner := 0, run := if short then [0, 0, 0, 0] else d.latchStats bs, rowBad := short || bad })

/-- One chunk of NORM_APPLY: of the statistics of a row in the first pass, or of its outputs in the second (R389). -/
def State.unitRow (s : State) (k : Nat) (d : Desc) (f : InFlight) : State × InFlight :=
    let g := s.rowChunk k d f
    let s1 := s.ringAccount k (d.a + (f.outer * d.len + f.inner) * ringSize d.fmtA) (g.length * ringSize d.fmtA)
    if !f.pass then
      let run := statChunk (d.statKind false) (f.inner == 0) f.runOf (g.map (·.1))
      let bad := g.any (·.2) || (f.rowBad && f.inner != 0)
      let f := { f with run := [run.1, run.2.1, run.2.2, 0], rowBad := bad, inner := f.inner + 16 }
      if f.inner < d.len then (s1, f)
      else
        let v1 := if d.func = 2 then s.rowExpSum k d f.outer run.2.2 else run.2.1
        let s1 := if d.func = 2 then s1.ringAccount k (d.a + f.outer * d.len * ringSize d.fmtA) (d.len * ringSize d.fmtA) else s1
        (s1, { f with pass := true, inner := 0, run := d.normStats run.1 v1 run.2.2 })
    else
      let acc (s : State) (on : Bool) (base fmt : Nat) : State :=
        if on then s.ringAccount k (base + f.inner * ringSize fmt) (g.length * ringSize fmt) else s
      let s2 := acc (acc s1 d.usesB d.b d.fmtB) d.usesC d.c d.fmtC
      let m := (List.range g.length).foldl (fun (m : Sparse WordWrite) i =>
        let j := f.inner + i
        let x := g.getD i (0, false)
        let b := if d.usesB then s.ringElem k d.b d.fmtB j else (0, false)
        let c := if d.usesC then s.ringElem k d.c d.fmtC j else (0, false)
        let e := f.outer * d.len + j
        s.ringPut k m (d.out + e * ringSize d.fmtO) (x.2 || b.2 || c.2 || f.rowBad)
          (d.outBytes s.ctl.seed e (d.normElem f.run x.1 b.1 c.1))) []
      let row := decide (d.len ≤ f.inner + 16)
      let f' := if row then { f with outer := f.outer + 1, inner := 0, pass := false, run := [0, 0, 0, 0], rowBad := false,
                                      done := decide (d.count ≤ f.outer + 1) }
        else { f with inner := f.inner + 16 }
      let ops (on : Bool) (base fmt : Nat) : List Nat := if on then s.ringWords k (base + f.inner * ringSize fmt) (g.length * ringSize fmt) else []
      s2.ringFlush k m f' (ops true (d.a + f.outer * d.len * ringSize d.fmtA) d.fmtA ++ ops d.usesB d.b d.fmtB ++ ops d.usesC d.c d.fmtC) false

/-- One unit of NORM_APPLY.  With IN_VALID the row's values must stand in row latch 1: without them the unit waits for the next bed
boundary, and a row that starts takes them first. -/
def State.unitNorm (s : State) (k : Nat) (d : Desc) (f : InFlight) : State × InFlight :=
  if !d.inValid then s.unitRow k d f
  else match (s.bank k).slateHeld d f.q f.outer with
    | none => (s, f)
    | some (bs, short, bad) =>
      let x := s.normRow k d f bs short bad
      if f.pass then x.1.unitRow k d x.2 else x

/-- Element k of vector b of XVEC: a BF16 code of host scratch (R390). -/
def State.xvecCode (s : State) (d : Desc) (b j : Nat) : BitVec 16 × Bool :=
  let off := d.slates - 0x2000000 + 2 * (d.len * b + j)
  let v := s.peek (mortarPlace off)
  (BitVec.ofNat 16 (v.1.toNat >>> (8 * (off % 16))), v.2)

/-- Columns of a chunk, and of the chunk at a column (R391). -/
def Desc.chunk (d : Desc) : Nat := 64 * (16 / d.batch)
def Desc.chunkAt (d : Desc) (inner : Nat) : Nat := min d.chunk (d.len - inner)

/-- Loads the chunk of every vector that a descriptor is at into row latch 1: cw × BATCH × 2 B at most; the outcomes of the Mortar
words are counted (R391; log 62). -/
def State.gemvLoad (s : State) (k : Nat) (d : Desc) (f : InFlight) : State :=
  let n := d.chunkAt f.inner
  let codes := (List.range d.batch).map (fun b => (List.range n).map (fun j => s.xvecCode d b (f.inner + j)))
  let s1 := (List.range d.batch).foldl (fun s b =>
      let off := d.slates - 0x2000000 + 2 * (d.len * b + f.inner)
      (List.range ((off + 2 * n - 1) / 16 - off / 16 + 1)).foldl (fun s i =>
        (s.readPlace { src := 4, agent := agentNone } (mortarPlace (off / 16 * 16 + 16 * i))).2) s) s
  s1.putLatch k true (.vector f.q f.inner (codes.map (fun v => v.any (·.2)))) (codes.flatMap (fun v => v.flatMap (fun c => leBytes 2 c.1.toNat)))

/-- The vector chunk in row latch 1, where it is the one that a descriptor is at: its bytes, and which vectors are poisoned. -/
def Bank.vectorHeld (b : Bank) (f : InFlight) : Option (List Byte × List Bool) :=
  match b.rowLat.2.use with
  | .vector q c bad => if q = f.q ∧ c = f.inner then some (b.rowLat.2.data, bad) else none
  | _ => none

/-- One row of one column chunk of GEMV_THIN, for every vector, with the chunk in row latch 1 (R391). -/
def State.gemvRow (s : State) (k : Nat) (d : Desc) (f : InFlight) (vec : List Byte) (vbad : List Bool) : State × InFlight :=
  let cw := d.chunk
  let n := d.chunkAt f.inner
  let last := decide (d.len ≤ f.inner + cw)
  let r := f.outer
  let a0 := d.a + 2 * (r * d.len + f.inner)
  let s1 := s.ringAccount k a0 (2 * n)
  let s1 := if f.inner = 0 then s1 else (List.range d.batch).foldl (fun s b => s.ringAccount k (d.c + 4 * (b * d.count + r)) 4) s1
  let m := (List.range d.batch).foldl (fun (m : Sparse WordWrite) b =>
    let e := b * d.count + r
    let c0 := if f.inner = 0 then ((0 : F32), false) else s.ringElem k d.c 0 e
    let av := (List.range n).map (fun j => s.ringCode k (a0 + 2 * j) 2)
    let xv : List (BitVec 16) := (List.range n).map (fun j => BitVec.ofNat 16 (field vec (2 * (n * b + j)) 2))
    let acc := (List.range (n / 4)).foldl (fun acc i =>
      bf16Dot4 acc (((av.drop (4 * i)).take 4).map (fun v => BitVec.ofNat 16 v.1)) ((xv.drop (4 * i)).take 4)) c0.1
    let bad := c0.2 || av.any (·.2) || vbad.getD b false
    let m := s.ringPut k m (d.c + 4 * e) bad (leBytes 4 acc.toNat)
    if last then s.ringPut k m (d.out + e * ringSize d.fmtO) bad (d.outBytes s.ctl.seed e (f32Mul d.sc0 acc)) else m) []
  let f' := if r + 1 < d.count then { f with outer := r + 1 }
    else { f with outer := if last then d.count else 0, inner := f.inner + cw, done := last }
  s1.ringFlush k m f' (if f.inner = 0 then [] else (List.range d.batch).flatMap (fun b => s.ringWords k (d.c + 4 * (b * d.count + r)) 4))
    (decide (r = 0) && decide (f.inner = 0))

/-- One unit of GEMV_THIN; without its chunk in row latch 1 the unit waits for the next bed boundary (R391). -/
def State.unitGemv (s : State) (k : Nat) (d : Desc) (f : InFlight) : State × InFlight :=
  match (s.bank k).vectorHeld f with
  | none => (s, f)
  | some (vec, bad) => s.gemvRow k d f vec bad

/-- One unit of work of a descriptor that is not complete (R377, R396). -/
def State.ringUnit (s : State) (k : Nat) (f : InFlight) : State × InFlight :=
  let d := Desc.of f.desc
  if f.done then (s, f)
  else if d.elementwise then s.unitElementwise k d f
  else if d.slateCopy then s.unitSlateCopy k d f
  else if d.reduces then s.unitReduce k d f
  else if d.norm then s.unitNorm k d f
  else s.unitGemv k d f

/-- Several units of work of the descriptor at position i of the ring's flight list. -/
def State.ringWork (s : State) (k i : Nat) : Nat → State
  | 0 => s
  | n + 1 =>
    match (s.ring k).flight[i]? with
    | none => s
    | some f =>
      let r := s.ringUnit k f
      State.ringWork (r.1.setRing k { r.1.ring k with flight := setAt (r.1.ring k).flight i r.2 }) k i n

end Sys2Proof.Machine
end

