-- ==== Sys2Proof/Machine/Ring.lean ====
section
/-!
DEFINITION. Ring control: the registers of a ring, submitting, starting and retiring descriptors, SAVE, RESTORE
and ABORT (R362 to R371, R395 to R399).
-/

namespace Sys2Proof.Machine

/-- RG_HEAD, the low 32 bits of the retired count (R362). -/
def Ring.head32 (r : Ring) : BitVec 32 := r.head.setWidth 32

/-- RG_TAIL − RG_HEAD modulo 2^32. -/
def Ring.owed (r : Ring) : Nat := (r.tail - r.head32).toNat

def Ring.isEmpty (r : Ring) : Bool := r.tail == r.head32

/-- Code of STATE (R363). -/
def Ring.stateCode (r : Ring) : Nat :=
  match r.state with
  | .stopped => 0
  | .running => 1
  | .saved => 2
  | .fault => 3

/-- Puts the ring into FAULT (R368); the cause crosses from the bank's channel controller (R555). -/
def State.ringFault (s : State) (k : Nat) (err : BitVec 4) (seq : BitVec 32) : State :=
  (s.setRing k { s.ring k with state := .fault, err := err, errSeq := seq }).crossIrq (k / 16) .ringFault

def errRange : BitVec 4 := 3
def errBadDesc : BitVec 4 := 9
def errOverrun : BitVec 4 := 10

/-- First bank address of the descriptor array, and its bytes (R362, R364). -/
def Ring.arrayAt (r : Ring) : Nat := r.base.toNat * 16384
def Ring.slots (r : Ring) : Nat := 2 ^ r.logSz.toNat
def Ring.saveAt (r : Ring) : Nat := r.save.toNat * 1024

/-- The ranges that ENABLE checks (R364). -/
def State.ringRangesOk (s : State) (k : Nat) : Bool :=
  let r := s.ring k
  (s.ringRegion r.arrayAt (64 * r.slots)).isSome && (s.ringRegion r.saveAt 1024).isSome

/-- A write of 1 to ENABLE (R363, R364).  DESIGN CHOICE (log 47): it sets ERR to 0 where it restarts a ring that has faulted. -/
def State.ringEnable (s : State) (k : Nat) : State :=
  let r := s.ring k
  if !s.ringRangesOk k then (s.setRing k { r with enable := true }).ringFault k errRange r.head32
  else match r.state with
    | .running => s.setRing k { r with enable := true }
    | _ => s.setRing k { r with enable := true, state := .running, live := true, err := 0, failed := none, fetched := none }

/-- A write of 0 to ENABLE: the ring stops once nothing is in flight (R363). -/
def State.ringStop (s : State) (k : Nat) : State :=
  let r := s.ring k
  if r.state == .running && r.flight.isEmpty then s.setRing k { r with enable := false, state := .stopped, live := false }
  else s.setRing k { r with enable := false }

/-- A write to RG_TAIL (R365). -/
def State.ringTail (s : State) (k : Nat) (v : BitVec 32) : State :=
  let r := s.ring k
  if r.slots < (v - r.head32).toNat then s.ringFault k errOverrun r.head32
  else s.setRing k { r with tail := v }

/-- A write to RG_BASE, RG_SIZE or RG_SAVE, offsets 0x00, 0x04 and 0x1C (R362, R364).  LOG2 is kept within 4
to 8 (log 17). -/
def State.ringConfig (s : State) (k off : Nat) (v : BitVec 32) : State :=
  let r := s.ring k
  if r.state != .stopped then s.setRing k { r with cfgIgnored := true }
  else if off = 0x00 then s.setRing k { r with base := v.setWidth 11 }
  else if off = 0x04 then s.setRing k { r with logSz := BitVec.ofNat 4 (clampNat 4 8 (v.toNat % 16)) }
  else s.setRing k { r with save := v.setWidth 15 }

/-! ### Images (R395) -/

/-- The 384 bytes of an image; a descriptor that has completed and waits to retire is not VALID, and its cursor shows that it
has (log 47). -/
def imageBytes (f : Option InFlight) : List Byte :=
  match f with
  | none => List.replicate 384 0
  | some f =>
    let d := Desc.of f.desc
    let ib := d.ibase
    let scal : List Nat :=
      [d.sc0.toNat, d.sc1.toNat, d.sc2.toNat, d.tstep.toNat % 2 ^ 32, d.tstep.toNat / 2 ^ 32, ib % 2 ^ 32, ib / 2 ^ 32,
       if d.op = 0x0E then d.dropP else 0] ++ List.replicate 8 0 ++ (List.range 4).map (fun i => (f.run.getD i 0).toNat) ++
      List.replicate 44 0
    leBytes 4 f.q ++ leBytes 1 d.op ++ leBytes 1 (b2n (!f.done) + 2 * b2n f.pass) ++ [0, 0] ++ leBytes 8 f.outer ++ leBytes 8 f.inner ++
    List.replicate 104 0 ++ (scal.map (leBytes 4)).flatten

/-- Writes an image: the words of running values that come from poison are written poisoned (log 18). -/
def State.putImage (s : State) (place : Nat → Place) (f : Option InFlight) : State :=
  let bs := imageBytes f
  let bad := match f with
    | some f => f.rowBad
    | none => false
  (List.range 24).foldl (fun s i =>
    s.placeWrite (place i) (BitVec.ofNat 128 (leNat ((bs.drop (16 * i)).take 16))) (bad && i == 12)) s

/-- The words of the two images of a 1 KiB area. -/
def imagePlaces (place : Nat → Place) : List Place := (List.range 24).map place ++ (List.range 24).map (fun i => place (32 + i))

/-- The descriptor in flight in context 2 or 3 (R366). -/
def Ring.inContext (r : Ring) (c : Nat) : Option InFlight := r.flight.find? (fun f => f.q % 2 == c - 2)

/-- The images of both contexts at offsets 0 and 512 of a 1 KiB area (R398). -/
def State.putImages (s : State) (k : Nat) (place : Nat → Place) : State :=
  let r := s.ring k
  ((s.putImage place (r.inContext 2)).putImage (fun i => place (32 + i)) (r.inContext 3)).moveWords true (stackWords (imagePlaces place))

def State.saveAreaPlace (s : State) (k i : Nat) : Place := s.ringPlace k ((s.ring k).saveAt + 16 * i)

/-- Word i of the bank's save slot in the system area (R398). -/
def State.sysSlotPlace (s : State) (k i : Nat) : Place := s.rowPlace k 9215 i false

/-- The descriptor line of number q: whether it reads, and its 64 bytes (R365). -/
def State.descLine (s : State) (k q : Nat) : BitVec 512 × Bool :=
  let r := s.ring k
  let a := r.arrayAt + 64 * (q % r.slots)
  let vs := (List.range 4).map (fun i => s.peek (s.ringPlace k (a + 16 * i)))
  (BitVec.ofNat 512 (vs.foldr (fun v acc => v.1.toNat + 2 ^ 128 * acc) 0), vs.any (·.2))

/-- Descriptor q with its cursor at zero. -/
def InFlight.at_ (q : Nat) (desc : BitVec 512) : InFlight :=
  { q := q % 2 ^ 48, desc := desc, outer := 0, inner := 0, pass := false, run := [0, 0, 0, 0], done := false,
    poison := false, rowBad := false }

/-- The cursor stands at the end of the descriptor's work (R395). -/
def InFlight.ends (f : InFlight) : Bool :=
  let d := Desc.of f.desc
  decide (0 < d.count) && decide (d.count ≤ f.outer) && (!d.gemv || decide (d.len ≤ f.inner))

/-- Who reads descriptors, and reads and writes a save area: the bank's channel controller, for no agent (R187). -/
def saveWho : Who := { src := 0, agent := agentNone }

/-- Descriptor q is read from its slot by the channel controller, in one row access, with the outcomes counted in its channel (R176,
R186, R187, R365, R399). -/
def State.descAccount (s : State) (k q : Nat) : State :=
  let r := s.ring k
  let a := r.arrayAt + 64 * (q % r.slots)
  (List.range 4).foldl (fun s i => (s.readPlace saveWho { s.ringPlace k (a + 16 * i) with site := .chan (k / 16) }).2)
    (s.rowAccess k (a / 2048) [{ write := false, sector := a % 2048 / 32, burst := 1 }])

/-- The descriptor whose slot the check of an image reads: of one that is VALID, or that names an operation (R399). -/
def State.imageSlot (s : State) (k : Nat) (place : Nat → Place) : Option Nat :=
  let bs := ((List.range 24).map (fun i => leBytes 16 (s.peek (place i)).1.toNat)).flatten
  let r := s.ring k
  if field bs 5 1 % 2 = 1 ∨ field bs 4 1 ≠ 0 then
    some ((r.head.toNat + (field bs 0 4 + 2 ^ 32 - r.head32.toNat) % 2 ^ 32) % 2 ^ 48)
  else none

/-- A read image: none where it fails its checks, else the descriptor that it holds, if VALID, or if its cursor shows one that
has completed and waits to retire (R399; log 47).  An image whose word of running values is poisoned is loaded, and the row in
progress is poisoned from there (log 18). -/
def State.readImage (s : State) (k : Nat) (place : Nat → Place) : Option (Option InFlight) :=
  let vs := (List.range 24).map (fun i => s.peek (place i))
  let bs := (vs.map (fun v => leBytes 16 v.1.toNat)).flatten
  let r := s.ring k
  let seq := field bs 0 4
  let st := field bs 5 1
  let off := (seq + 2 ^ 32 - r.head32.toNat) % 2 ^ 32
  let q := (r.head.toNat + off) % 2 ^ 48
  let line := s.descLine k q
  let bad := (List.zip (List.range 24) vs).any (fun e => e.2.2 && e.1 != 12)
  let zero := field bs 6 2 == 0 && field bs 24 104 == 0 && decide (st < 4) && field bs 160 32 == 0 && field bs 208 176 == 0
  if bad || !zero then none
  else if st % 2 = 0 then
    let d := Desc.of line.1
    let f : InFlight := { InFlight.at_ q line.1 with outer := field bs 8 8, inner := field bs 16 8, done := true }
    some (if decide (off < r.owed) && d.op == field bs 4 1 && decide (d.op ≠ 0) && f.ends then some f else none)
  else if decide (off < r.owed) && (Desc.of line.1).op == field bs 4 1 then
    let f : InFlight := { InFlight.at_ q line.1 with
      outer := field bs 8 8, inner := field bs 16 8, pass := bit st 1,
      run := (List.range 4).map (fun i => BitVec.ofNat 32 (field bs (192 + 4 * i) 4)), rowBad := (vs.getD 12 (0, false)).2 }
    some (some { f with done := f.ends })
  else none

/-- What follows retired descriptors: how far a descriptor lies past RG_HEAD. -/
def Ring.past (r : Ring) (f : InFlight) : Nat := (f.q + 2 ^ 48 - r.head.toNat) % 2 ^ 48

/-- A descriptor of an image keeps the poison mark that the ring knows (R370). -/
def Ring.known (r : Ring) (x : InFlight) : InFlight := match r.flight.find? (fun f => f.q == x.q) with
  | some f => { x with poison := f.poison }
  | none => x

/-- The descriptors of images, and those that have completed and wait to retire, which no image holds (R367, R395; log 47). -/
def Ring.found (r : Ring) (imgs : List InFlight) : List InFlight :=
  let waits := r.flight.filter (fun f => f.done && decide (r.past f < r.owed) && imgs.all (fun x => x.q % 2 != f.q % 2))
  ((imgs.map r.known ++ waits).mergeSort (fun x y => decide (r.past x ≤ r.past y))).take 2

/-- Only the descriptor after number RG_HEAD is among them: that one has completed (R366, R367). -/
def Ring.firstDone (r : Ring) (imgs : List InFlight) : Bool := match r.found imgs with
  | [f] => decide (r.past f = 1)
  | _ => false

/-- The descriptors in flight once images have been loaded; `first` is the descriptor of number RG_HEAD. -/
def Ring.resume (r : Ring) (first : BitVec 512) (imgs : List InFlight) : List InFlight :=
  if r.firstDone imgs then r.known { InFlight.at_ r.head.toNat first with done := true } :: r.found imgs else r.found imgs

/-- Reads both images of an area, with the outcomes counted in the bank's channel (R176, R186). -/
def State.accountImages (s : State) (k : Nat) (place : Nat → Place) : State :=
  ((imagePlaces place).foldl (fun s p => (s.readPlace saveWho { p with site := .chan (k / 16) }).2) s).moveWords false
    (stackWords (imagePlaces place))

/-- A row latch whose bytes are needed no more. -/
def RowLatch.spent : RowLatch → RowLatch
  | .empty => .empty
  | .held n _ d => .held n .spent d

/-- What row latch 1 holds is loaded again before a bed uses it: a context resumes (R400). -/
def State.dropLatch (s : State) (k : Nat) : State :=
  let b := s.bank k
  s.setBank k { b with rowLat := (b.rowLat.1, b.rowLat.2.spent) }

/-- Reads both images of an area and the descriptors that they name, and the one of number RG_HEAD where it has completed. -/
def State.accountLoad (s : State) (k : Nat) (place : Nat → Place) : State :=
  let s := s.accountImages k place
  let qs := (s.imageSlot k place).toList ++ (s.imageSlot k (fun i => place (32 + i))).toList
  let s := qs.foldl (fun s q => s.descAccount k q) s
  match s.readImage k place, s.readImage k (fun i => place (32 + i)) with
  | some a, some b => if (s.ring k).firstDone (a.toList ++ b.toList) then s.descAccount k (s.ring k).head.toNat else s
  | _, _ => s

/-- Loads both images of an area into the contexts by CLOAD; a failing one faults the ring, which keeps `rest` (R399). -/
def State.loadImages (s : State) (k : Nat) (place : Nat → Place) (rest : List InFlight) : State :=
  let s := s.accountLoad k place
  match s.readImage k place, s.readImage k (fun i => place (32 + i)) with
  | some a, some b =>
    let s := ((s.sendLoad k 2).sendLoad k 3).dropLatch k
    s.setRing k { s.ring k with flight := (s.ring k).resume (s.descLine k (s.ring k).head.toNat).1 (a.toList ++ b.toList) }
  | _, _ => (s.setRing k { s.ring k with flight := rest }).ringFault k errBadDesc (s.ring k).head32

/-- Marks the contexts of descriptors in flight PARKED, and the others of the ring EMPTY. -/
def State.markContexts (s : State) (k : Nat) : State :=
  let b := s.bank k
  let mark (ctx : List CtxState) (c : Nat) : List CtxState :=
    match (s.ring k).inContext c with
    | some _ => if ctx.getD c .empty == .empty then setAt ctx c .parked else ctx
    | none => setAt ctx c .empty
  s.setBank k { b with ctx := mark (mark b.ctx 2) 3 }

/-- A write of 1 to SAVE: the contexts are parked; RING_SAVE_DONE writes the images (R398). -/
def State.ringSave (s : State) (k : Nat) : State := s.setRing k { s.ring k with saving := true }

/-- Clears the VALID bits of the save area (R369). -/
def State.clearSaveValid (s : State) (k : Nat) : State :=
  let r := s.ring k
  if (s.ringRegion r.saveAt 1024).isSome then
    [0, 32].foldl (fun (s : State) i =>
      let p := s.saveAreaPlace k i
      let (v, s) := (s.moveWords false [p.word]).readPlace saveWho { p with site := .chan (k / 16) }
      (s.placeWrite p (v.1 &&& ~~~ (BitVec.ofNat 128 (2 ^ 40))) v.2).moveWords true [p.word]) s
  else s

/-- CABORT to contexts 2 and 3: the unit drops what they hold, and the save area's VALID bits are cleared (R115, R369). -/
def State.abortNow (s : State) (k : Nat) : State :=
  let s := s.setRing k { s.ring k with flight := [], aborting := false }
  (((s.sendAbort k 2).sendAbort k 3).markContexts k).clearSaveValid k

/-- RESTORE at its boundary (R397, R399). -/
def State.restoreNow (s : State) (k : Nat) : State :=
  let r := s.ring k
  let s := s.setRing k { r with loading := false, fetched := none }
  if (s.ringRegion r.saveAt 1024).isSome then (s.loadImages k (s.saveAreaPlace k) r.flight).markContexts k else s.ringFault k errRange r.head32

/-- What waits for a course boundary of the bank is done there (R115, R397): an ABORT first (log 19). -/
def State.ringDue (s : State) (k : Nat) : State :=
  if !s.bankOpen k then s
  else
    let s := if (s.ring k).aborting then s.abortNow k else s
    if (s.ring k).loading then s.restoreNow k else s

/-- A write of 1 to RESTORE: accepted in STOPPED and SAVED (R399). -/
def State.ringRestore (s : State) (k : Nat) : State :=
  let r := s.ring k
  if r.state == .stopped || r.state == .saved then (s.setRing k { r with loading := true }).ringDue k else s

/-- A write of 1 to ABORT: the registers change at once, and a running bed of the ring goes on to its end (R369).  DESIGN CHOICE
(log 47): RG_CTRL.ENABLE keeps its value, so that it may read 1 in STOPPED. -/
def State.ringAbort (s : State) (k : Nat) : State :=
  let r := s.ring k
  (s.setRing k { r with head := r.head + BitVec.ofNat 48 r.owed, state := .stopped, live := false, err := 0, failed := none, forcedQ := none,
                        saving := false, loading := false, fetched := none, aborting := true }).ringDue k

/-- A write to RG_CTRL: ABORT, then RESTORE, then SAVE, then ENABLE (R363; log 19). -/
def State.ringCtrl (s : State) (k : Nat) (v : BitVec 32) : State :=
  let s := if v.getLsbD 3 then s.ringAbort k else s
  let s := if v.getLsbD 2 then s.ringRestore k else s
  let s := if v.getLsbD 1 then s.ringSave k else s
  if v.getLsbD 0 then s.ringEnable k else s.ringStop k

/-- A write to RG_STATUS: W1C bits 8 to 12 (R363). -/
def State.ringStatusW1c (s : State) (k : Nat) (v : BitVec 32) : State :=
  let r := s.ring k
  s.setRing k { r with poisoned := r.poisoned && !v.getLsbD 8, slateShort := r.slateShort && !v.getLsbD 9,
                       slateFull := r.slateFull && !v.getLsbD 10, orderForced := r.orderForced && !v.getLsbD 11,
                       cfgIgnored := r.cfgIgnored && !v.getLsbD 12 }

/-- A write to a ring-control register (R362). -/
def State.ringWrite (s : State) (k off : Nat) (v : BitVec 32) : State :=
  match off with
  | 0x00 => s.ringConfig k 0x00 v
  | 0x04 => s.ringConfig k 0x04 v
  | 0x08 => s.ringTail k v
  | 0x10 => s.ringCtrl k v
  | 0x14 => s.ringStatusW1c k v
  | 0x1C => s.ringConfig k 0x1C v
  | 0x20 => s.setRing k { s.ring k with forced := cntWrite (s.ring k).forced v }
  | 0x24 => s.setRing k { s.ring k with poisonCnt := cntWrite (s.ring k).poisonCnt v }
  | _ => s

/-- A read of a ring-control register (R362). -/
def Ring.read (r : Ring) (off : Nat) : BitVec 32 :=
  match off with
  | 0x00 => r.base.setWidth 32
  | 0x04 => r.logSz.setWidth 32
  | 0x08 => r.tail
  | 0x0C => r.head32
  | 0x10 => bbit 32 r.enable
  | 0x14 => BitVec.ofNat 32 (r.stateCode + 16 * r.err.toNat + 256 * b2n r.poisoned + 512 * b2n r.slateShort +
      1024 * b2n r.slateFull + 2048 * b2n r.orderForced + 4096 * b2n r.cfgIgnored)
  | 0x18 => r.errSeq
  | 0x1C => r.save.setWidth 32
  | 0x20 => r.forced
  | 0x24 => r.poisonCnt
  | 0x28 => (r.head >>> 32).setWidth 32
  | _ => 0

/-! ### Descriptors -/

/-- Reads descriptor q from its slot, once: its bytes, and whether it read UNCORRECTABLE or POISON (R365, R368). -/
def State.descFetch (s : State) (k q : Nat) : (BitVec 512 × Bool) × State :=
  let read : (BitVec 512 × Bool) × State := (s.descLine k q, s.descAccount k q)
  match (s.ring k).fetched with
  | some f => if f.1 = q then (f.2, s) else read
  | none => read

/-- A check of descriptor q has failed: the ring faults when the one ahead has retired (R368). -/
def State.descFail (s : State) (k q : Nat) (e : BitVec 4) : State :=
  let s := s.setRing k { s.ring k with fetched := none }
  if (s.ring k).flight.isEmpty then s.ringFault k e (BitVec.ofNat 32 q) else s.setRing k { s.ring k with failed := some e }

/-- Descriptor q starts: CDESC sends it to its context (R366, R397). -/
def State.descSend (s : State) (k q : Nat) (desc : BitVec 512) : State :=
  let s := s.sendDesc k (2 + q % 2)
  let r := s.ring k
  s.setRing k { r with fetched := none, forcedQ := if r.flight.isEmpty then none else r.forcedQ, flight := r.flight ++ [InFlight.at_ q desc] }

/-- The ring may take its next descriptor: it runs, one is submitted, a context is free, the bank is at a boundary, and no record
with a new seed is on its way (R256, R363, R365, R366, R397). -/
def State.descReady (s : State) (k : Nat) : Bool :=
  let r := s.ring k
  r.state == .running && r.enable && !r.saving && !r.loading && !r.aborting && r.failed.isNone && decide (r.flight.length < 2) &&
  decide (r.flight.length < r.owed) && s.bankOpen k && s.mbox.newSeed.isNone

/-- Starts the next descriptor of a ring, holds it back, or records why it faults (R365, R366, R368).  DESIGN CHOICE (log 47): a
descriptor with WAIT 1 that also conflicts with the one ahead waits because of WAIT, and is not counted in RG_FORCED_CNT, nor
does it set ORDER_FORCED. -/
def State.descStart (s : State) (k : Nat) : State :=
  if !s.descReady k then s
  else
    let q := (s.ring k).head.toNat + (s.ring k).flight.length
    let (line, s) := s.descFetch k q
    let r := s.ring k
    let d := Desc.of line.1
    let hold (r : Ring) : State := s.setRing k { r with fetched := some (q, line) }
    if line.2 then s.descFail k q errBadDesc
    else match s.descErr d with
      | some e => s.descFail k q e
      | none =>
        match r.flight.head? with
        | some f =>
          if d.wait then hold r
          else if descConflict (Desc.of f.desc) d then
            if r.forcedQ == some q then hold r
            else hold { r with forcedQ := some q, orderForced := true, forced := satAdd r.forced 1 }
          else s.descSend k q line.1
        | none => s.descSend k q line.1

/-- The descriptor can retire: its release crosses into CCLK, and waits while CCLK is stopped (R367, R555, R557). -/
def State.retirable (s : State) (f : InFlight) : Bool := f.done && ((Desc.of f.desc).relKind == 0 || s.runs 2)

/-- Retires the oldest descriptor in flight of ring k (R367). -/
def State.retireOne (s : State) (k : Nat) (f : InFlight) : State :=
  let r := s.ring k
  let d := Desc.of f.desc
  let head := r.head + 1
  let s := s.setRing k { r with head := head, flight := r.flight.drop 1, poisoned := r.poisoned || f.poison,
                                poisonCnt := if f.poison then satAdd r.poisonCnt 1 else r.poisonCnt }
  let l := d.rel % 2 ^ 13
  let s := if d.relKind = 1 then s.releaseNot0 l head.toNat d.scope (64 + k)
    else if d.relKind = 2 then s.releaseNot0 l (latchValue (s.latch l) + 1) d.scope (64 + k)
    else s
  if d.irqFlag then s.crossIrq (k / 16) .ringDone else s

/-- After retirements: a recorded failure faults the ring, and a ring that was told to stop stops, once nothing
is in flight (R363, R368). -/
def State.ringSettle (s : State) (k : Nat) : State :=
  let r := s.ring k
  if !r.flight.isEmpty then s
  else match r.failed with
    | some e => (s.setRing k { r with failed := none }).ringFault k e r.head32
    | none => if r.state == .running && !r.enable then s.setRing k { r with state := .stopped, live := false } else s

/-- A ring retires while it runs, and after a fault what was ahead of the fault; one that faults while it is stopped or saved has
nothing that runs (R363, R368). -/
def Ring.retires (r : Ring) : Bool := (r.state == .running || (r.state == .fault && r.live)) && !r.aborting

/-- Retires every completed descriptor at the head of the flight list, at most two (R367). -/
def State.descRetire (s : State) (k : Nat) : State :=
  if !(s.ring k).retires then s
  else
  let step (s : State) : State := match (s.ring k).flight with
    | f :: _ => if s.retirable f then s.retireOne k f else s
    | [] => s
  let s1 := step s
  ((if (s1.ring k).flight.length < (s.ring k).flight.length then step s1 else s1).ringSettle k).markContexts k

/-- Writes the images of a ring whose SAVE was written, by CSAVE at a course boundary, and enters SAVED (R397, R398). -/
def State.ringSaveDone (s : State) (k : Nat) : State :=
  let r := s.ring k
  if !r.saving || r.aborting || !s.bankOpen k then s
  else if (s.ringRegion r.saveAt 1024).isSome then
    let s := ((s.sendSave k 2).sendSave k 3).putImages k (s.saveAreaPlace k)
    s.setRing k { s.ring k with saving := false, state := .saved, live := false }
  else (s.setRing k { r with saving := false }).ringFault k errRange r.head32

/-- Banks whose ring is not at its reset value. -/
def State.ringBanks (s : State) : List Nat := s.rings.map (·.1)

/-- A ring's images go into the system area; an ABORT that waited for a bed boundary has reached it, so that it comes first and
leaves nothing VALID (R369, R398).  A bank behind a fuse hold takes no command, and a die that has tripped is out of reach (R107,
R130). -/
def State.saveRing (s : State) (k : Nat) : State :=
  if s.fuseHeld k || (s.chan (k / 16)).sref then s
  else
    let s := if (s.ring k).aborting then s.abortNow k else s
    ((s.sendSave k 2).sendSave k 3).putImages k (s.sysSlotPlace k)

/-- Rings whose ABORT waited out emergency self-refresh, once the stack has left it for the deadbolt: the save area's VALID bits
fall, and no image of theirs stays VALID in the system area (R369, R398, R456). -/
def State.saveAborted (s : State) : State := (s.ringBanks.filter (fun k => (s.ring k).aborting)).foldl (fun s k => s.saveRing k) s

/-- A channel with nothing in its banks, their rings or their save slots: every image is empty, and the slots hold zeros already. -/
def State.ringsBlank (s : State) (c : Nat) : Bool :=
  let here (k : Nat) : Bool := k / 16 == c
  s.bg == 0 && !(s.chan c).sref && s.rings.all (fun e => !here e.1) && s.banks.all (fun e => !here e.1) &&
  s.stack.cells.all (fun e => !here (e.1 / bankBytes) || e.1 % bankBytes / 2048 != 9215) &&
  s.stack.synd.all (fun e => !here (16 * e.1 / bankBytes) || 16 * e.1 % bankBytes / 2048 != 9215)

/-- The frames with which the images of an empty ring are written, or read, at a bank, oldest first (R101, R398, R399). -/
def blankFrames (save : Bool) (b : Nat) : List (BitVec 48) :=
  let row := cmdFrame 1 b 9215 :: ([0, 4, 8, 16, 20, 24].map (fun l => cmdFrame (if save then 4 else 3) b (l + 128)) ++ [cmdFrame 2 b 0])
  if save then cmdFrame 0x24 b 2 :: cmdFrame 0x24 b 3 :: row else row ++ [cmdFrame 0x25 b 2, cmdFrame 0x25 b 3]

/-- What saving, or loading, the images of a blank channel does: 16 row accesses and 32 images of 384 B (R398; log 66). -/
def State.blankImages (s : State) (c : Nat) (save : Bool) : State :=
  let ch := s.chan c
  s.setChan c { ch with counts := { ch.counts with acts := ch.counts.acts + 16, sectors := ch.counts.sectors + 768 },
                        hist := (((List.range 16).flatMap (blankFrames save)).reverse ++ ch.hist).take 16 }

/-- Something for every bank, channel by channel: for a blank channel as one. -/
def State.everyRing (s : State) (save : Bool) (one : State → Nat → State) : State :=
  (List.range 256).foldl (fun s c =>
    if s.ringsBlank c then s.blankImages c save else (List.range 16).foldl (fun s b => one s (16 * c + b)) s) s

/-- Saves the images of all 4,096 banks into the system area, before self-refresh and once every course has ended (R398). -/
def State.saveRings (s : State) : State := s.everyRing true (fun s k => s.saveRing k)

/-- A unit as self-refresh leaves it (R117). -/
def Bank.emptied (b : Bank) : Bank :=
  { b with ctx := [.empty, .empty, .empty, .empty], course := none, scalars := [], rowLat := (.empty, .empty) }

/-- Self-refresh empties every unit; Crety keeps what it knows of the descriptors in flight, for emergency self-refresh
(R117, R366, R370).  A channel behind a fuse hold is not in self-refresh yet (R130). -/
def State.emptyContexts (s : State) : State :=
  (s.banks.map (·.1)).foldl (fun s k => if (s.chan (k / 16)).fprogHold then s else s.setBank k (s.bank k).emptied) s

/-- Restores a ring's images from the system area; images that fail leave the contexts empty (R399). -/
def State.loadRing (s : State) (k : Nat) : State :=
  (s.loadImages k (s.sysSlotPlace k) ((s.ring k).flight.filter (·.done))).markContexts k

/-- Restores the images of all 4,096 banks from the system area (R399, R449), and does what waited for it.  A ring whose ABORT was
written meanwhile has nothing to restore (R369), and one behind a fuse hold has kept its contexts (R130). -/
def State.loadRings (s : State) : State :=
  s.everyRing false (fun s k =>
    if s.fuseHeld k then s else if (s.ring k).aborting then s.abortNow k else (s.loadRing k).ringDue k)

/-! ### Commands -/


/-- DESCRIPTOR_START (R366); none starts while Warden is halted (R547). -/
def execDescriptorStart (bank : Nat) (s : State) : Host.Outcome State Fault Refusal :=
  guard (decide (bank < 4096)) (if s.serving && !s.dbg.halted && !s.plumb.esr && s.runs 1 then (s.descStart bank).markContexts bank else s)

/-- DESCRIPTOR_RETIRE (R367); stack work stands while SCLK does (R557). -/
def execDescriptorRetire (bank : Nat) (s : State) : Host.Outcome State Fault Refusal :=
  guard (decide (bank < 4096)) (if s.serving && s.runs 1 then s.descRetire bank else s)

/-- RING_SAVE_DONE (R398). -/
def execRingSaveDone (bank : Nat) (s : State) : Host.Outcome State Fault Refusal :=
  guard (decide (bank < 4096)) (if s.serving && !s.plumb.esr && s.runs 1 then s.ringSaveDone bank else s)

end Sys2Proof.Machine
end

