-- ==== Sys2Proof/Machine/Flags.lean ====
section
/-!
DEFINITION. Status and flag words as they read: the global, Plumb, channel, ring-summary and error-log
registers (R265, R412, R457, R489, R523 to R539) and control-space words (R134 to R140).
-/

namespace Sys2Proof.Machine

/-! ### Status computations -/

/-- Die temperature: the highest sensor as last read, s16 in 1/16 °C (R215). -/
def Die.temp (d : Die) : Int := (d.sensors.map (·.toInt)).foldl max (-32768)

/-- The die is above 105 °C (R218). -/
def Die.noBeds (d : Die) : Bool := decide (105 * 16 < d.temp)

/-- The ceiling in force in W; none under a cap entry of 0 (R434). -/
def Plumb.ceil (p : Plumb) : Option Nat :=
  if p.capLvl = 0 then some p.wattsOn.toNat
  else
    let c := (p.capsOn.getD (p.capLvl.toNat - 1) 0).toNat
    if c = 0 then none else some (min p.wattsOn.toNat c)

/-- Some die's throttle limit is below 128 (R446). -/
def State.throttled (s : State) : Bool := s.dies.any (fun e => decide (e.2.throttle < 128))

/-- A DRAW_SEED runs on the mailbox: its sequence has begun, waits for a challenge draw, or has its record still to be written
(R262, R542). -/
def State.drawing (s : State) : Bool := match s.mbox.active with
  | some h => (s.hasp h).state == .running && (s.hasp h).opcode == 7
  | none => false

/-- Its sequence has not given a seed yet. -/
def State.sampling (s : State) : Bool := s.drawing && s.mbox.after.isNone

/-- The debug port's challenge draw holds the entropy source, and a DRAW_SEED waits (R542). -/
def State.debugDraws (s : State) : Bool := match s.dbg.busy with
  | .draw w => !w
  | _ => false

/-! ### 64-bit registers -/

/-- CY_VERSION (R524). -/
def State.version (s : State) : Nat :=
  s.ipRev.toNat + s.ctl.numRev % 16 * 2 ^ 8 + 2 * 2 ^ 12 + s.ctl.compat % 16 * 2 ^ 16 +
  bits (s.idBytes.getD 6 0).toNat 3 0 * 2 ^ 20 + bits (s.idBytes.getD 7 0).toNat 0 0 * 2 ^ 24 +
  s.start.run.major.toNat * 2 ^ 32 + s.start.run.minor.toNat * 2 ^ 40 + s.start.run.patch.toNat * 2 ^ 48

/-- CY_START_STATUS (R489). -/
def State.startStatus (s : State) : Nat :=
  let t := s.start
  t.phase % 16 + t.lastKind.toNat * 2 ^ 4 + b2n t.trained * 2 ^ 6 + b2n t.noLintel * 2 ^ 7 + t.cause.toNat * 2 ^ 8 +
  t.warmFails % 4 * 2 ^ 12 + t.coldFails % 4 * 2 ^ 14 + b2n t.fabricDown * 2 ^ 16 + b2n t.softLost * 2 ^ 17 +
  b2n t.fuseSuspect * 2 ^ 18 + b2n t.vddsLost * 2 ^ 19

/-- PL_STATUS (R457). -/
def State.plStatus (s : State) : Nat :=
  let p := s.plumb
  p.capLvl.toNat + p.ceil.getD 0 * 2 ^ 4 + p.allow % 2 ^ 12 * 2 ^ 12 + b2n p.hostOver * 2 ^ 24 + b2n s.throttled * 2 ^ 25 +
  b2n p.esr * 2 ^ 26

/-- PL_LEVEL: the bucket in nJ, saturating (R457). -/
def Plumb.levelWord (p : Plumb) : BitVec 32 :=
  let n := p.level / 1000
  BitVec.ofInt 32 (max (-(2 ^ 31)) (min (2 ^ 31 - 1) n))

/-- Word i of a Plumb record as its line shows it: INDEX, E0 to E3, PEAK, FLAGS (R532). -/
def PlRecord.word (r : PlRecord) (i : Nat) : BitVec 32 :=
  match i with
  | 0 => r.index
  | 1 => BitVec.ofNat 32 r.eS
  | 2 => BitVec.ofNat 32 r.eB
  | 3 => BitVec.ofNat 32 r.eC
  | 4 => BitVec.ofNat 32 r.eIO
  | 5 => BitVec.ofNat 32 r.peak
  | _ => r.flags.setWidth 32

/-- The 32 bytes of an error-log entry (R187). -/
def LogEntry.bytes (e : LogEntry) : List Byte :=
  [e.source, e.outcome] ++ leBytes 2 e.syndrome.toNat ++ leBytes 2 e.agent.toNat ++ [0, 0] ++ leBytes 8 e.where_.toNat ++
  leBytes 8 e.tick.toNat ++ List.replicate 8 0

/-! ### Global registers -/

/-- A PL_ register (R457, R532). -/
def State.readPlumb (s : State) (off : Nat) : BitVec 32 :=
  let p := s.plumb
  let cap (i : Nat) : Nat := if i = 0 then 0 else (p.caps.getD (i - 1) 0).toNat
  let two (l : List (BitVec 16)) (i : Nat) : BitVec 32 := BitVec.ofNat 32 ((l.getD i 0).toNat + 65536 * (l.getD (i + 1) 0).toNat)
  if off = 0x2000 then p.watts.setWidth 32
  else if off < 0x2014 then
    let n := (off - 0x2004) / 4
    BitVec.ofNat 32 (leNat ((List.range 4).map (fun j => BitVec.ofNat 8 (cap (4 * n + j)))))
  else if off = 0x2014 then BitVec.ofNat 32 (p.ramp.toNat + p.ksShare.toNat * 2 ^ 12 + b2n p.senseEn * 2 ^ 20)
  else if off = 0x2018 then BitVec.ofNat 32 s.plStatus
  else if off = 0x201C then p.levelWord
  else if off = 0x2020 then BitVec.ofNat 32 (p.throttleT.toNat + p.coolTicks.toNat * 2 ^ 16)
  else if off < 0x2034 then (p.senseLsb.getD ((off - 0x2024) / 4) 0).setWidth 32
  else if off = 0x2034 then two p.railMv 0
  else if off = 0x2038 then (p.railMv.getD 2 0).setWidth 32
  else if off = 0x203C then two p.vddcMv 0
  else if off = 0x2040 then two p.vddcMv 2
  else if off < 0x2054 then (p.kCorr.getD ((off - 0x2044) / 4) 0).setWidth 32
  else if off = 0x2054 then p.senseOver
  else if off = 0x2058 then p.hostOverCnt
  else if off = 0x205C then p.esrCnt
  else if off < 0x207C then p.w1s.word ((off - 0x2060) / 4)
  else if off < 0x2080 then 0
  else if off < 0x209C then p.w60.word ((off - 0x2080) / 4)
  else 0

/-- Bit map of rings 32 j to 32 j + 31 that meet a condition (R533). -/
def State.ringMap (s : State) (j : Nat) (p : Ring → Bool) : BitVec 32 :=
  BitVec.ofNat 32 ((List.range 32).foldl (fun a i => a + b2n (p (s.ring (32 * j + i))) * 2 ^ i) 0)

/-- The 32-bit register at a word offset of the global block; reserved offsets read zero (R522, R523). -/
def State.readGlobal (s : State) (off : Nat) : BitVec 32 :=
  let r := s.regs
  let n32 (x : Nat) : BitVec 32 := BitVec.ofNat 32 x
  let hi (x : Nat) : BitVec 32 := BitVec.ofNat 32 (x / 2 ^ 32)
  if off = 0x0000 then n32 s.version
  else if off = 0x0004 then hi s.version
  else if off = 0x0008 then n32 (b2n r.lock + 2 * b2n r.lockViol)
  else if off = 0x000C then n32 (s.clk.pt.toNat + 4 * b2n s.clk.idle + 8 * b2n s.clk.hold)
  else if off = 0x0010 then n32 s.clk.tick.toNat
  else if off = 0x0014 then hi s.clk.tick.toNat
  else if off = 0x0018 then n32 s.clk.phase
  else if off = 0x0020 then n32 s.ctl.epoch.toNat
  else if off = 0x0024 then hi s.ctl.epoch.toNat
  else if off = 0x0028 then r.irqStatus.setWidth 32
  else if off = 0x002C then r.irqEnable.setWidth 32
  else if off = 0x0030 then r.rmtTmo.setWidth 32
  else if off = 0x0034 then r.scrubInt.setWidth 32
  else if off = 0x0038 then r.ceThresh
  else if off = 0x003C then r.thermGain.setWidth 32
  else if off = 0x0040 then r.tierEarly
  else if off = 0x0044 then r.mortarCe
  else if off = 0x0048 then r.mortarUe
  else if off = 0x004C then r.portCe
  else if off = 0x0050 then r.portUe
  else if off = 0x0054 then r.fabCe
  else if off = 0x0058 then r.fabUe
  else if off = 0x005C then n32 (r.trngFails.toNat * 65536 + b2n r.katFail * 8 + b2n r.aptFail * 4 + b2n r.rctFail * 2 + b2n (s.drawing && !(s.sampling && s.debugDraws)))
  else if off = 0x0060 then n32 s.startStatus
  else if off = 0x0064 then n32 (b2n s.start.forceCold + 2 * b2n s.start.forceTrain + 65536 * s.start.fwWait.toNat)
  else if off = 0x0068 then n32 (4 * s.start.loadState.toNat)
  else if off = 0x0070 then n32 (s.start.fuseSvn.toNat + 256 * s.start.run.svn.toNat + 65536 * b2n s.start.stagedOk + 131072 * b2n (s.start.calibRead && s.start.calib.slot))
  else if off = 0x0074 then n32 ((r.stopped ||| bbit 5 (decide (s.now < s.clk.stopShown)) <<< 2).toNat + 256 * r.stoppedSeen.toNat + 65536 * r.cdcOver.toNat)
  else if off = 0x1000 then r.tmoTicks.setWidth 32
  else if off = 0x1004 then n32 s.heldCount
  else if off = 0x1008 then r.ltWiden
  else if off = 0x100C then r.ltTmo
  else if off = 0x1010 then r.ltFull
  else if off = 0x1014 then r.ltDenied
  else if off = 0x3000 then bbit 32 r.logCe
  else if off = 0x3004 then n32 (r.log.length + 128 * b2n r.overflow)
  else if off = 0x3008 then r.statePoison
  else if off = 0x300C then r.lateResp
  else if off = 0x3010 then r.stale
  else if off = 0x3014 then r.late
  else if off = 0x3018 then r.stray
  else if off = 0x301C then r.lintelFail
  else if off = 0x4000 then n32 (b2n (!s.dbg.sessionOn) + 2 * b2n s.dbg.halted + 4 * b2n s.dbg.sessionOn)
  else if off = 0x4004 then bbit 32 r.noUnlock
  else if off = 0x4008 then r.unlockCnt
  else if off = 0x400C then r.failCnt
  else if off = 0x4010 then n32 s.dbg.sessionTick.toNat
  else if off = 0x4014 then hi s.dbg.sessionTick.toNat
  else if 0x0078 ≤ off ∧ off < 0x008C then (Sparse.get 0 r.cdcCnt ((off - 0x0078) / 4)).setWidth 32
    else if 0x0100 ≤ off ∧ off < 0x0300 then Sparse.get 0 r.grpMask ((off - 0x0100) / 4)
    else if 0x2000 ≤ off ∧ off < 0x209C then s.readPlumb off
    else if 0x3800 ≤ off ∧ off < 0x4000 then
      match r.log[(off - 0x3800) / 32]? with
      | some e => BitVec.ofNat 32 (field e.bytes (off % 32) 4)
      | none => 0
    else if 0x5000 ≤ off ∧ off < 0x5200 then s.ringMap ((off - 0x5000) / 4) (fun g => g.state == .fault)
    else if 0x5200 ≤ off ∧ off < 0x5400 then s.ringMap ((off - 0x5200) / 4) (fun g => !g.isEmpty)
    else if 0x8000 ≤ off ∧ off < 0x8800 then Sparse.get 0 r.ward ((off - 0x8000) / 4)
    else 0

/-! ### Channel blocks -/

/-- A register of channel c's block (R534); PAR_RECOV is 0 between commands (log 26). -/
def State.readChan (s : State) (c off : Nat) : BitVec 32 :=
  let ch := s.chan c
  let d := s.die (c / 16)
  let owed (lo : Nat) : BitVec 32 :=
    BitVec.ofNat 32 ((List.range 8).foldl (fun a b => a + (s.bank (16 * c + lo + b)).owed % 16 * 16 ^ b) 0)
  if off = 0x000 then BitVec.ofNat 32 (c + c / 16 * 256)
  else if off = 0x004 then BitVec.ofNat 32 (d.tier % 4 + ch.allow % 16 * 4 + b2n ch.sref * 64 + b2n ch.fprogHold * 256 +
      b2n d.noBeds * 512)
  else if off = 0x008 then owed 0
  else if off = 0x00C then owed 8
  else if off = 0x020 then ch.ceCnt
  else if off = 0x024 then ch.ueCnt
  else if off = 0x028 then ch.poisonCnt
  else if off = 0x02C then ch.caparCnt
  else if off = 0x030 then ch.refFull
  else if off = 0x034 then ch.margin
  else if off = 0x038 then ch.err.setWidth 32
  else if 0x010 ≤ off ∧ off < 0x020 then
      BitVec.ofNat 32 ((List.range 4).foldl (fun a b => a + (s.bank (16 * c + (off - 0x010) + b)).ctxSeen.toNat * 256 ^ b) 0)
    else 0

/-- Channels that an alias selects: all for the broadcast, the mask of group alias g else (R138). -/
def State.broadcastChans (_ : State) : List Nat := List.range 256
def State.aliasChans (s : State) (g : Nat) : List Nat :=
  (List.range 256).filter (fun c => bit (Sparse.get 0 s.regs.grpMask (8 * g + c / 32)).toNat (c % 32))

/-- A read through an alias: the OR of the selected blocks (R140). -/
def State.readAlias (s : State) (cs : List Nat) (off : Nat) : BitVec 32 :=
  cs.foldl (fun a c => a ||| s.readChan c off) 0

/-- The channels that a group alias selects now (R139, R141). -/
def State.maskOf (s : State) (off : Nat) : List Nat :=
  match ctlTarget off with
  | .groupAlias g _ => s.aliasChans g
  | _ => []

/-- The register at a word offset of control space, with the channels that a group alias selected when the access was accepted
(R141); zero for a target that holds none. -/
def State.readRegFrom (s : State) (off : Nat) (chans : List Nat) : BitVec 32 :=
  match ctlTarget off with
  | .global o => s.readGlobal o
  | .chan c o => s.readChan c o
  | .broadcast o => s.readAlias s.broadcastChans o
  | .groupAlias _ o => s.readAlias chans o
  | .ring k o => (s.ring k).read o
  | _ => 0

/-- A read that is accepted and performed at once. -/
def State.readReg (s : State) (off : Nat) : BitVec 32 := s.readRegFrom off (s.maskOf off)

/-- The words of the register line at an offset, 32 registers (R44, R521). -/
def State.readRegLine (s : State) (off : Nat) (chans : List Nat) : List BondData :=
  (List.range 8).map (fun i => BitVec.ofNat 128 ((List.range 4).foldl (fun a j =>
    a + (s.readRegFrom (off / 128 * 128 + 16 * i + 4 * j) chans).toNat * 2 ^ (32 * j)) 0))

end Sys2Proof.Machine
end

