-- ==== Sys2Proof/Machine/Pull.lean ====
section
/-!
DEFINITION. How a PULL_REPLICA goes on: the reads that it sends, its status and response, and its end (R70 to R73, R357 to
R359).
-/

namespace Sys2Proof.Machine

/-- The pull of a hasp. -/
def State.pullOf (s : State) (h : Nat) : Option Pull := s.mbox.bg.findSome? (fun b => match b with
  | .pull p => if p.hasp = h then some p else none
  | _ => none)

/-- Changes the pull of a hasp, and its PROGRESS (R509). -/
def State.setPull (s : State) (p : Pull) : State :=
  let s : State := { s with mbox := { s.mbox with bg := s.mbox.bg.map (fun b => match b with
    | .pull q => if q.hasp = p.hasp then .pull p else b
    | _ => b) } }
  s.setHasp p.hasp { s.hasp p.hasp with progress := BitVec.ofNat 16 (min 65535 (p.arrived * 65536 / p.lines)) }

/-- Removes the background command that a test picks. -/
def State.dropBg (s : State) (pick : Background → Bool) : State :=
  { s with mbox := { s.mbox with bg := s.mbox.bg.filter (fun b => !pick b) } }

/-- Fabric offset of the line of two slots that holds the owner's version latch (R358). -/
def Pull.latchOff (p : Pull) : Nat := 0x3000000000 + p.latch / 2 * 128

/-- Fabric offset that a read of the pull names. -/
def Pull.offsetOf (p : Pull) : PullRead → Nat
  | .line l => p.off + 128 * l
  | _ => p.latchOff

/-- Sends an outbound read (R70, R71): the lowest free tag.  Its window runs from the present, in which its beat transfers. -/
def State.pullIssue (s : State) (p : Pull) (what : PullRead) : State :=
  let free := (List.range 512).find? (fun t => s.fab.outbound.all (fun o => o.tag != BitVec.ofNat 10 t))
  match free with
  | none => s
  | some t =>
    let tag := BitVec.ofNat 10 t
    let s := s.foPush { vc := false, type := 0, dst := p.node, tag := tag, off := BitVec.ofNat 38 (p.offsetOf what), stat := 0, data := 0, chk := 0 }
    { s with fab := { s.fab with outbound := s.fab.outbound ++
      [{ tag := tag, hasp := p.hasp, what := what, until_ := s.now + 200 * s.regs.rmtTmo.toNat }] } }

/-- Status of a pull that has ended (R359).  DESIGN CHOICE (log 57): one whose only poison came in an RD_RESP, with no read timed out
and none answered ERR_RESP, which the status meanings do not name, ends with REMOTE_ERROR. -/
def Pull.status (p : Pull) : MStatus :=
  match p.ended with
  | 0 => .okay
  | 1 => .versionWait
  | 2 => .torn
  | _ => if p.timedOut then .remoteTimeout else .remoteError

/-- The response of PULL_REPLICA (R509). -/
def Pull.response (p : Pull) : List Byte :=
  leBytes 4 p.bad ++ leBytes 4 (p.firstBad.getD 0xFFFFFFFF) ++ leBytes 8 p.seen.toNat

/-- Completes a pull: on success DONE_LATCH is released (R358, R359). -/
def State.pullEnd (s : State) (p : Pull) : State :=
  let s := s.dropBg (fun b => match b with
    | .pull q => q.hasp == p.hasp
    | _ => false)
  let s := if p.ended = 0 then s.releaseNot0 p.done (p.ver.toNat % 2 ^ 48) 1 agentWarden else s
  s.finish p.hasp p.status 0 p.response

/-- A line of the pull waits for its bank (R151, R359). -/
def State.pullQueued (s : State) (p : Pull) : Bool := s.banks.any (fun e => e.2.queue.any (fun a => match a with
  | .line false off _ _ => decide (p.dst ≤ off) && decide (off < p.dst + 128 * p.lines)
  | _ => false))

/-- What a pull does next: requests another line, requests the last latch line, or completes once its lines are written
(R408); none while it waits, for the port too (R571). -/
def State.pullNext (s : State) (p : Pull) : Option State :=
  if p.phase = 3 then (if s.pullQueued p then none else some (s.pullEnd p))
  else if !s.fabRuns then none
  else if p.phase = 0 ∧ s.fab.outbound.all (fun o => o.hasp != p.hasp) ∧ s.fab.outbound.length < 512 then
    some (s.pullIssue p .latchFirst)
  else if p.phase = 1 ∧ s.fab.outbound.length < 512 then
    if p.next < p.lines then
      some ((s.setPull { p with next := p.next + 1 }).pullIssue p (.line p.next))
    else if p.arrived = p.lines then some ((s.setPull { p with phase := 2 }).pullIssue p .latchLast)
    else none
  else none

/-- The pulls in progress. -/
def State.pulls (s : State) : List Pull := s.mbox.bg.filterMap (fun b => match b with
  | .pull p => some p
  | _ => none)

/-- Lets the pulls go on while Warden runs, and with it CCLK (R547, R557); `fuel` bounds the requests. -/
def State.pumpPulls (s : State) : Nat → State
  | 0 => s
  | n + 1 =>
    if s.dbg.halted || !s.serving || !s.runs 2 then s
    else match s.pulls.findSome? s.pullNext with
      | some s' => State.pumpPulls s' n
      | none => s

/-- Requests of one event: no more than the tags, the last latch reads and the completions. -/
def pumpFuel : Nat := 1024

end Sys2Proof.Machine
end

