-- ==== Sys2Proof/Machine/Registers.lean ====
section
/-!
DEFINITION. Register writes under their access codes, and the commands that write registers (R45, R138 to R141, R362,
R457, R489, R516 to R539).
-/

namespace Sys2Proof.Machine

/-! ### Debug sessions and the image load window -/

/-- Ends the debug session: every instruction closes, every breakpoint and watchpoint is disabled, and a halted
Warden resumes (R543).  DESIGN CHOICE (log 80): at an accepted sag it resumes then, as R543 has it; R547's table has it at the next
start. -/
def State.closeSession (s : State) : State :=
  { s with dbg := { s.dbg with sessionOn := false, scope := 0, sessionTick := 0, halted := false, haltReq := none,
                               bkpts := [], watches := [] } }

/-- Ends the debug session where Crety goes on: Warden runs again, and takes the requests that waited for it. -/
def State.endSession (s : State) : State := s.closeSession.sweepBad

/-- Phase 6 waits for an image from the host (R475). -/
def State.imageWaits (s : State) : Bool := s.start.mode == .starting && s.start.wait == .image

/-- REFCLK cycle at which the window of FW_WAIT ms ends (R14, R475).  DESIGN CHOICE (log 21): FW_WAIT as it stands when the
window is tested. -/
def State.loadEnds (s : State) : Nat := s.start.waitFrom + 100000 * s.start.fwWait.toNat

/-- The load window is open: the wait lasts, and its time is not over. -/
def State.loadOpen (s : State) : Bool := s.imageWaits && decide (s.now < s.loadEnds)

/-- START of CY_FW_LOAD_CTRL: an image load begins (R475; log 21). -/
def State.fwLoadBegin (s : State) : State :=
  if s.loadOpen then { s with start := { s.start with loadState := 1, load := .empty } } else s

/-- A word of CY_FW_LOAD_DATA, in ascending byte order (R475). -/
def State.fwLoadWord (s : State) (v : BitVec 32) : State :=
  if s.loadOpen && s.start.loadState == 1 then
    let l := s.start.load
    { s with start := { s.start with load :=
      { bytes := l.bytes ++ (toSparse (leBytes 4 v.toNat)).map (fun e => (l.len + e.1, e.2)), len := l.len + 4 } } }
  else s

/-- END of CY_FW_LOAD_CTRL: the image is complete and its authentication begins (R475). -/
def State.fwLoadStop (s : State) : State :=
  if s.loadOpen && s.start.loadState == 1 then { s with start := { s.start with loadState := 2 } } else s

/-! ### Global registers -/

/-- Writes an RWL field: ignored with LOCK_VIOL while LOCK is 1 (R516). -/
def State.writeLocked (s : State) (f : Regs → Regs) : State :=
  if s.regs.lock then { s with regs := { s.regs with lockViol := true } } else { s with regs := f s.regs }

def State.mapRegs (s : State) (f : Regs → Regs) : State := { s with regs := f s.regs }

def State.mapPlumb (s : State) (f : Plumb → Plumb) : State := { s with plumb := f s.plumb }

/-- WATTS as stored (R457). -/
def clampWatts (v : BitVec 8) : BitVec 8 := BitVec.ofNat 8 (clampNat 40 110 v.toNat)

/-- A cap entry as stored (R457). -/
def clampCap (v : BitVec 8) : BitVec 8 := if v = 0 then 0 else clampWatts v

def byteOf (v : BitVec 32) (j : Nat) : BitVec 8 := BitVec.ofNat 8 (v.toNat >>> (8 * j))
def lo16 (v : BitVec 32) : BitVec 16 := v.setWidth 16
def hi16 (v : BitVec 32) : BitVec 16 := BitVec.ofNat 16 (v.toNat / 65536)

/-- Writes PL_CAPn: bytes j are entries 4 n + j, entry 0 reserved (R457). -/
def Plumb.setCaps (p : Plumb) (n : Nat) (v : BitVec 32) : Plumb :=
  { p with caps := (List.range 4).foldl (fun c j => if 4 * n + j = 0 then c else setAt c (4 * n + j - 1) (clampCap (byteOf v j))) p.caps }

/-- A PL_ register (R457, R532). -/
def Plumb.write (p : Plumb) (off : Nat) (v : BitVec 32) : Plumb :=
  if off = 0x2000 then { p with watts := clampWatts (byteOf v 0) }
  else if 0x2004 ≤ off ∧ off < 0x2014 then p.setCaps ((off - 0x2004) / 4) v
  else if off = 0x2014 then { p with ramp := BitVec.ofNat 12 (clampNat 16 2048 (v.toNat % 4096)),
                                     ksShare := BitVec.ofNat 8 (v.toNat >>> 12), senseEn := v.getLsbD 20 }
  else if off = 0x2018 then { p with hostOver := p.hostOver && !v.getLsbD 24 }
  else if off = 0x2020 then { p with throttleT := BitVec.ofNat 8 (clampNat 85 104 (v.toNat % 256)),
                                     coolTicks := BitVec.ofNat 16 (max 5000 (hi16 v).toNat) }
  else if 0x2024 ≤ off ∧ off < 0x2034 then { p with senseLsb := setAt p.senseLsb ((off - 0x2024) / 4) (lo16 v) }
  else if off = 0x2034 then { p with railMv := setAt (setAt p.railMv 0 (lo16 v)) 1 (hi16 v) }
  else if off = 0x2038 then { p with railMv := setAt p.railMv 2 (lo16 v) }
  else if off = 0x203C then { p with vddcMv := setAt (setAt p.vddcMv 0 (lo16 v)) 1 (hi16 v) }
  else if off = 0x2040 then { p with vddcMv := setAt (setAt p.vddcMv 2 (lo16 v)) 3 (hi16 v) }
  else if off = 0x2054 then { p with senseOver := cntWrite p.senseOver v }
  else if off = 0x2058 then { p with hostOverCnt := cntWrite p.hostOverCnt v }
  else if off = 0x205C then { p with esrCnt := cntWrite p.esrCnt v }
  else p

/-- ER_STATUS.CLEAR (R188, R538). -/
def Regs.clearLog (r : Regs) : Regs := { r with log := [], overflow := false }

/-- CY_CTRL (R525). -/
def Regs.writeCtrl (r : Regs) (v : BitVec 32) : Regs :=
  { r with lock := r.lock || v.getLsbD 0, lockViol := r.lockViol && !v.getLsbD 1 }

/-- A write to the register at a word offset of the global block (R516, R522).  DESIGN CHOICE (log 43): FAIL_CNT of CY_TRNG_STATUS
saturates, and R262 gives it as RO; a write of zero, which clears a counter (R519), leaves it as it is. -/
def State.writeGlobal (s : State) (off : Nat) (v : BitVec 32) : State :=
  if off = 0x0008 then s.mapRegs (·.writeCtrl v)
  else if off = 0x0028 then s.mapRegs (fun r => { r with irqStatus := w1c r.irqStatus (v.setWidth 20) })
  else if off = 0x002C then s.mapRegs (fun r => { r with irqEnable := v.setWidth 20 })
  else if off = 0x0030 then s.mapRegs (fun r => { r with rmtTmo := BitVec.ofNat 16 (clampNat 50 25000 (v.toNat % 65536)) })
  else if off = 0x0034 then s.writeLocked (fun r => { r with scrubInt := lo16 v })
  else if off = 0x0038 then s.writeLocked (fun r => { r with ceThresh := v })
  else if off = 0x003C then s.writeLocked (fun r => { r with thermGain := v.setWidth 6 })
  else if off = 0x0040 then s.mapRegs (fun r => { r with tierEarly := cntWrite r.tierEarly v })
  else if off = 0x0044 then s.mapRegs (fun r => { r with mortarCe := cntWrite r.mortarCe v })
  else if off = 0x0048 then s.mapRegs (fun r => { r with mortarUe := cntWrite r.mortarUe v })
  else if off = 0x004C then s.mapRegs (fun r => { r with portCe := cntWrite r.portCe v })
  else if off = 0x0050 then s.mapRegs (fun r => { r with portUe := cntWrite r.portUe v })
  else if off = 0x0054 then s.mapRegs (fun r => { r with fabCe := cntWrite r.fabCe v })
  else if off = 0x0058 then s.mapRegs (fun r => { r with fabUe := cntWrite r.fabUe v })
  else if off = 0x005C then s.mapRegs (fun r => { r with katFail := r.katFail && !v.getLsbD 3, aptFail := r.aptFail && !v.getLsbD 2,
                                                         rctFail := r.rctFail && !v.getLsbD 1 })
  else if off = 0x0060 then { s with start := { s.start with softLost := s.start.softLost && !v.getLsbD 17,
                                                             fuseSuspect := s.start.fuseSuspect && !v.getLsbD 18 } }
  else if off = 0x0064 then { s with start := { s.start with forceCold := v.getLsbD 0, forceTrain := v.getLsbD 1, fwWait := hi16 v } }
  else if off = 0x0068 then
    let s := if v.getLsbD 0 then s.fwLoadBegin else s
    if v.getLsbD 1 then s.fwLoadStop else s
  else if off = 0x006C then s.fwLoadWord v
  else if off = 0x0074 then s.mapRegs (fun r => { r with stoppedSeen := w1c r.stoppedSeen (BitVec.ofNat 5 (v.toNat >>> 8)),
                                                         cdcOver := w1c r.cdcOver (BitVec.ofNat 5 (v.toNat >>> 16)) })
  else if 0x0078 ≤ off ∧ off < 0x008C then s.mapRegs (fun r => { r with cdcCnt := Sparse.upd 0 r.cdcCnt ((off - 0x0078) / 4) (fun n => if lo16 v = 0 then 0 else n) })
  else if 0x0100 ≤ off ∧ off < 0x0300 then s.mapRegs (fun r => { r with grpMask := Sparse.set 0 r.grpMask ((off - 0x0100) / 4) v })
  else if off = 0x1000 then s.mapRegs (fun r => { r with tmoTicks := BitVec.ofNat 16 (clampNat 1 25000 (v.toNat % 65536)) })
  else if off = 0x1008 then s.mapRegs (fun r => { r with ltWiden := cntWrite r.ltWiden v })
  else if off = 0x100C then s.mapRegs (fun r => { r with ltTmo := cntWrite r.ltTmo v })
  else if off = 0x1010 then s.mapRegs (fun r => { r with ltFull := cntWrite r.ltFull v })
  else if off = 0x1014 then s.mapRegs (fun r => { r with ltDenied := cntWrite r.ltDenied v })
  else if 0x2000 ≤ off ∧ off < 0x209C then s.mapPlumb (·.write off v)
  else if off = 0x3000 then s.mapRegs (fun r => { r with logCe := v.getLsbD 0 })
  else if off = 0x3004 then s.mapRegs (fun r => if v.getLsbD 8 then r.clearLog else r)
  else if off = 0x3008 then s.mapRegs (fun r => { r with statePoison := cntWrite r.statePoison v })
  else if off = 0x300C then s.mapRegs (fun r => { r with lateResp := cntWrite r.lateResp v })
  else if off = 0x3010 then s.mapRegs (fun r => { r with stale := cntWrite r.stale v })
  else if off = 0x3014 then s.mapRegs (fun r => { r with late := cntWrite r.late v })
  else if off = 0x3018 then s.mapRegs (fun r => { r with stray := cntWrite r.stray v })
  else if off = 0x301C then s.mapRegs (fun r => { r with lintelFail := cntWrite r.lintelFail v })
  else if off = 0x4004 then
    let s := s.writeLocked (fun r => { r with noUnlock := v.getLsbD 0 })
    if v.getLsbD 1 then s.endSession else s
  else if off = 0x4008 then s.mapRegs (fun r => { r with unlockCnt := cntWrite r.unlockCnt v })
  else if off = 0x400C then s.mapRegs (fun r => { r with failCnt := cntWrite r.failCnt v })
  else if 0x8000 ≤ off ∧ off < 0x8800 then s.mapRegs (fun r => { r with ward := Sparse.set 0 r.ward ((off - 0x8000) / 4) v })
  else s

/-- Offsets of the RW and RWL fields that the register image holds (R518). -/
def imageOffset (off : Nat) : Bool :=
  [0x002C, 0x0030, 0x0034, 0x0038, 0x003C, 0x1000, 0x3000].contains off ||
  (decide (0x0100 ≤ off) && decide (off < 0x0300)) || (decide (0x2000 ≤ off) && decide (off < 0x2054))

/-- The register is RWL: LOCK keeps its value (R516, R529). -/
def lockable (off : Nat) : Bool := [0x0034, 0x0038, 0x003C, 0x4004].contains off

/-- Notes a host write to a restored field that is accepted during a start (R518). -/
def State.noteWrite (s : State) (off : Nat) : State :=
  if s.start.mode == .starting && imageOffset off && !s.start.written.contains off && !(s.regs.lock && lockable off) then
    { s with start := { s.start with written := off :: s.start.written } }
  else s

/-! ### Channel blocks -/

/-- A register of a channel block (R534): counters and W1C bits; the rest is read only. -/
def Channel.write (c : Channel) (off : Nat) (v : BitVec 32) : Channel :=
  if off = 0x020 then { c with ceCnt := cntWrite c.ceCnt v }
  else if off = 0x024 then { c with ueCnt := cntWrite c.ueCnt v }
  else if off = 0x028 then { c with poisonCnt := cntWrite c.poisonCnt v }
  else if off = 0x02C then { c with caparCnt := cntWrite c.caparCnt v }
  else if off = 0x030 then { c with refFull := cntWrite c.refFull v }
  else if off = 0x038 then { c with err := w1c c.err (v.setWidth 3) }
  else c

def State.writeChan (s : State) (off : Nat) (v : BitVec 32) (c : Nat) : State := s.setChan c ((s.chan c).write off v)

/-- A write through an alias acts on every selected block (R138, R535). -/
def State.writeChans (s : State) (cs : List Nat) (off : Nat) (v : BitVec 32) : State :=
  cs.foldl (fun s c => s.writeChan off v c) s

/-- A write to the 32-bit register at an offset of control space; ignored where no register is. -/
def State.writeRegTo (s : State) (off : Nat) (v : BitVec 32) (chans : List Nat) : State :=
  match ctlTarget off with
  | .global o => (s.writeGlobal o v).noteWrite o
  | .chan c o => s.writeChan o v c
  | .broadcast o => s.writeChans s.broadcastChans o v
  | .groupAlias _ o => s.writeChans chans o v
  | .ring k o => s.ringWrite k o v
  | _ => s

/-- A write that is accepted and performed at once. -/
def State.writeReg (s : State) (off : Nat) (v : BitVec 32) : State := s.writeRegTo off v (s.maskOf off)

/-- Registers in a line, written where wholly enabled (R45). -/
def State.writeRegLine (s : State) (off : Nat) (d : LineData) (ben : BitVec 128) (chans : List Nat) : State :=
  (List.range 32).foldl (fun s i =>
    if bits ben.toNat (4 * i + 3) (4 * i) = 15 then
      s.writeRegTo (off / 128 * 128 + 4 * i) (BitVec.ofNat 32 (d.toNat >>> (32 * i))) chans
    else s) s

/-- Every register is wholly enabled or not enabled at all (R45). -/
def benWhole (ben : BitVec 128) : Bool :=
  (List.range 32).all (fun i => bits ben.toNat (4 * i + 3) (4 * i) == 0 || bits ben.toNat (4 * i + 3) (4 * i) == 15)

/-- Crety serves a target of control space in its present state (R56). -/
def State.serves (s : State) (t : CtlTarget) : Bool :=
  match t with
  | .global _ => s.start.mode != .reset
  | _ => s.serving

/-! ### Commands -/

/-- LOCK (R525). -/
def execLock (s : State) : Host.Outcome State Fault Refusal :=
  .next (if s.serves (.global 0x0008) && s.runs 2 then s.writeReg 0x0008 1 else s)

/-- ER_LOG_CLEAR (R188). -/
def execErLogClear (s : State) : Host.Outcome State Fault Refusal :=
  .next (if s.serves (.global 0x3004) && s.runs 2 then s.writeReg 0x3004 0x100 else s)

/-- CHANNEL_ALIAS_WRITE (R138 to R141, R535): an offset outside the aliases has no effect. -/
def execChannelAliasWrite (off : BitVec 27) (value : BitVec 32) (s : State) : Host.Outcome State Fault Refusal :=
  .next (match ctlTarget off.toNat with
    | .broadcast _ => if s.serving && s.runs 2 then s.writeReg (off.toNat / 4 * 4) value else s
    | .groupAlias _ _ => if s.serving && s.runs 2 then s.writeReg (off.toNat / 4 * 4) value else s
    | _ => s)

/-- RELOCK (R543). -/
def execRelock (s : State) : Host.Outcome State Fault Refusal :=
  .next (if s.serves (.global 0x4004) && s.runs 2 then s.endSession else s)

/-- FW_LOAD_START (R475). -/
def execFwLoadStart (s : State) : Host.Outcome State Fault Refusal := .next (if s.runs 2 then s.fwLoadBegin else s)

/-- FW_LOAD_DATA (R475). -/
def execFwLoadData (word : BitVec 32) (s : State) : Host.Outcome State Fault Refusal := .next (if s.runs 2 then s.fwLoadWord word else s)

/-- RING_TAIL_WRITE (R365). -/
def execRingTailWrite (bank : Nat) (value : BitVec 32) (s : State) : Host.Outcome State Fault Refusal :=
  guard (decide (bank < 4096)) (if s.serving && s.runs 2 then s.ringTail bank value else s)

/-- RING_CONFIG_WRITE of RG_BASE, RG_SIZE or RG_SAVE at its offset in the ring's block (R364). -/
def execRingConfigWrite (bank reg : Nat) (value : BitVec 32) (s : State) : Host.Outcome State Fault Refusal :=
  guard (decide (bank < 4096))
    (if s.serving && s.runs 2 && (reg == 0x00 || reg == 0x04 || reg == 0x1C) then s.ringConfig bank reg value else s)

/-- RING_ENABLE (R364). -/
def execRingEnable (bank : Nat) (s : State) : Host.Outcome State Fault Refusal :=
  guard (decide (bank < 4096)) (if s.serving && s.runs 2 then s.ringEnable bank else s)

/-- RING_STOP (R363). -/
def execRingStop (bank : Nat) (s : State) : Host.Outcome State Fault Refusal :=
  guard (decide (bank < 4096)) (if s.serving && s.runs 2 then s.ringStop bank else s)

/-- RING_SAVE (R398). -/
def execRingSave (bank : Nat) (s : State) : Host.Outcome State Fault Refusal :=
  guard (decide (bank < 4096)) (if s.serving && s.runs 2 then s.ringSave bank else s)

/-- RING_RESTORE (R399). -/
def execRingRestore (bank : Nat) (s : State) : Host.Outcome State Fault Refusal :=
  guard (decide (bank < 4096)) (if s.serving && s.runs 2 then s.ringRestore bank else s)

/-- RING_ABORT (R369). -/
def execRingAbort (bank : Nat) (s : State) : Host.Outcome State Fault Refusal :=
  guard (decide (bank < 4096)) (if s.serving && s.runs 2 then s.ringAbort bank else s)

end Sys2Proof.Machine
end

