-- ==== Sys2Proof/Machine/Serve.lean ====
section
/-!
DEFINITION. Serving requests: the checks of a Pintle request, its effect, waiting for a bank or for an earlier request,
and the queue of a bank (R44 to R56, R133 to R137, R149 to R151, R200 to R204, R408).
-/

namespace Sys2Proof.Machine

/-! ### Checks of data words (R54, R67) -/

/-- Checks the listed words of a line as they arrive: the delivered words, whether one is UNCORRECTABLE, whether one is
poisoned, and the state with the outcomes counted. -/
def State.rxWords (s : State) (site : Site) (w : Who) (where_ : Nat) (detect : Bool) (d : LineData) (c : LineChk) :
    List Nat → List (Nat × BondData × Bool) × Bool × Bool × State
  | [] => ([], false, false, s)
  | i :: r =>
    let x := lineWord d i
    let syn := bondSyndrome x (lineChk c i)
    let o := bondCheck detect x syn
    let v := o.value x
    let (vs, ue, po, s) := State.rxWords (s.account site w where_ o syn) site w where_ detect d c r
    ((i, v.1, v.2) :: vs, ue || o == .uncorrectable, po || o == .poison, s)

/-- Enabled bytes of word i. -/
def benWord (ben : BitVec 128) (i : Nat) : Nat := bits ben.toNat (16 * i + 15) (16 * i)

/-- Words with an enabled byte (R54). -/
def benWords (ben : BitVec 128) : List Nat := (List.range 8).filter (fun i => benWord ben i != 0)

/-! ### Checks of a Pintle request (R44, R45, R53, R56, R133 to R136, R150) -/

/-- The target of a control-space request. -/
def PintleReq.target (r : PintleReq) : CtlTarget := ctlTarget r.addr.toNat

/-- The offset lies in the map of its space, whatever the state (R133, R134). -/
def PintleReq.mapped (r : PintleReq) : Bool :=
  if r.ctl then r.target != .unmapped else decide (r.addr.toNat < stackSize)

/-- The area or the role of the region refuses a READ or a WRITE (R47, R136, R150). -/
def State.areaRefuses (s : State) (r : PintleReq) : Bool :=
  if r.ctl then
    match r.target with
    | .mortar _ rd wr => !(if r.op = 0 then rd else wr)
    | _ => false
  else match s.regionAt r.addr.toNat with
    | none => true
    | some g => !(g.role == 0 || (r.op == 0 && g.role == 2 && (s.cofferAt r.addr.toNat).isSome))

/-- The byte enables of a WRITE break a rule of its target (R44, R45). -/
def PintleReq.badEnables (r : PintleReq) : Bool :=
  match r.ctl, r.target with
  | true, .latch _ _ => r.ben == 0 || bits r.ben.toNat 7 0 != 0 || bits r.ben.toNat 71 64 != 0
  | true, .hasp _ => false
  | true, .mortar _ _ _ => false
  | true, _ => !benWhole r.ben
  | false, _ => false

/-- The request names the first byte of a latch slot (R44). -/
def PintleReq.onLatch (r : PintleReq) : Bool :=
  match r.ctl, r.target with
  | true, .latch _ o => o == 0
  | _, _ => false

/-- The status of a request that is refused before its data are checked.  DESIGN CHOICE (log 49): where several codes of
R53 apply, a reserved operation comes first, then an offset that no map holds, a target that is not served, an offset in no
region or that is refused, and last alignment, operation and enables. -/
def State.reqStatus (s : State) (r : PintleReq) : Option (BitVec 3) :=
  if 4 ≤ r.op.toNat then some ptBadOp
  else if !r.mapped then some ptAddrErr
  else if !(s.serving || (r.ctl && s.serves r.target)) then some ptNotReady
  else if !r.ctl && (s.regionAt r.addr.toNat).isNone then some ptAddrErr
  else if r.op.toNat < 2 then
    if s.areaRefuses r then some ptAddrErr
    else if r.addr.toNat % 128 ≠ 0 then some ptBadOp
    else if r.op = 1 ∧ r.badEnables then some ptBadOp
    else none
  else if r.onLatch then none
  else some ptBadOp

/-! ### Effects on storage -/

def PintleReq.who (r : PintleReq) : Who := { src := 0, agent := r.port }

/-- Words of a latch line: two slots, bytes [63:8] of each zero (R135). -/
def State.latchLine (s : State) (i : Nat) : List (BondData × Bool) :=
  [((s.latch i).setWidth 128, false), (0, false), (0, false), (0, false),
   ((s.latch (i + 1)).setWidth 128, false), (0, false), (0, false), (0, false)]

/-- Reads the line at a stack offset (R145, R156, R158); a line of an undefined Coffer version holds free words (R333). -/
def State.readStackLine (s : State) (w : Who) (a : Nat) : List (BondData × Bool) × State :=
  match s.regionAt a with
  | none => ([], s)
  | some g => if s.cofferUndef a then s.freshWords 8 else s.readPlaces w (s.linePlaces (g.loc a) g.detect)

/-- Reads the eight words of a hasp line. -/
def State.readHaspLine (s : State) (w : Who) (off : Nat) : List Nat → List (BondData × Bool) × State
  | [] => ([], s)
  | i :: r =>
    let (v, s) := s.haspWordRead w (off + 16 * i)
    let (vs, s) := State.readHaspLine s w off r
    (v :: vs, s)

/-- The line that a READ of control space returns. -/
def State.readCtlLine (s : State) (r : PintleReq) : List (BondData × Bool) × State :=
  match r.target with
  | .latch i _ => (s.latchLine i, s)
  | .hasp o => s.readHaspLine { r.who with src := 4 } o (List.range 8)
  | .mortar o _ _ => s.readPlaces { r.who with src := 4 } (mortarLine o)
  | _ => ((s.readRegLine r.addr.toNat r.chans).map (fun w => (w, false)), s)

/-- Writes the enabled bytes of checked words into storage. -/
def State.writeWords (s : State) (w : Who) (place : Nat → Place) (ben : BitVec 128) : List (Nat × BondData × Bool) → State
  | [] => s
  | (i, d, b) :: r => State.writeWords (s.mergePlace w (place i) d b (benWord ben i)) w place ben r

/-- Writes the enabled bytes of a hasp line. -/
def State.writeHaspWords (s : State) (w : Who) (off : Nat) (ben : BitVec 128) : List (Nat × BondData × Bool) → State
  | [] => s
  | (i, d, b) :: r => State.writeHaspWords (s.haspWordWrite w (off + 16 * i) d b (benWord ben i)) w off ben r

/-- The line whose words are checked: the delivered words put back together. -/
def lineOfChecked (vs : List (Nat × BondData × Bool)) : LineData :=
  lineOfWords ((List.range 8).map (fun i => match vs.find? (fun v => v.1 == i) with
    | some v => v.2.1
    | none => 0))

/-- Writes checked words to a control-space target other than a latch. -/
def State.writeCtlWords (s : State) (r : PintleReq) (vs : List (Nat × BondData × Bool)) : State :=
  match r.target with
  | .hasp o => s.writeHaspWords { r.who with src := 4 } o r.ben vs
  | .mortar o _ _ => s.writeWords { r.who with src := 4 } (fun i => mortarPlace (o + 16 * i)) r.ben vs
  | .latch _ _ => s
  | .unmapped => s
  | _ => s.writeRegLine r.addr.toNat (lineOfChecked vs) r.ben r.chans

/-- Completes a request to stack space: the read, or the write of words that were checked on arrival.  DESIGN CHOICE (log 60): a
request that waited keeps the bank and the role under which it was accepted, and is served under the KIND, the BOND and the POLICY that
its region has now; where DEFINE_REGION has deleted the region it is answered ADDR_ERR (R133). -/
def State.stackServe (s : State) (r : PintleReq) : State :=
  let a := r.addr.toNat
  match s.regionAt a with
  | none => s.refuse r ptAddrErr
  | some g =>
    if r.op = 0 then
      let (vs, s) := s.readStackLine r.who a
      s.answerLine r vs
    else
      let vs := (benWords r.ben).map (fun i =>
        let x := lineWord r.data i
        let v := (bondCheck g.detect x (bondSyndrome x (lineChk r.chk i))).value x
        (i, v.1, v.2))
      (s.writeWords r.who (fun i => (s.rowPlace (g.loc a).bank (g.loc a).row ((g.loc a).byte / 128 * 8 + i) g.detect)) r.ben vs).refuse r ptOkay

/-! ### Waiting for a bank (R200 to R204, R448, R470) -/

/-- A new access to the bank waits. -/
def State.bankWaits (s : State) (k : Nat) : Bool :=
  !s.bankOpen k || !(s.bank k).queue.isEmpty

def State.enqueueBank (s : State) (k : Nat) (a : BankAccess) : State :=
  s.setBank k { s.bank k with queue := (s.bank k).queue ++ [a] }

/-- The access waits for a course's end: to a DEFER region, or the Keystone engine's (R151, R199, R203). -/
def State.accessDefers (s : State) (a : BankAccess) : Bool :=
  let defer (off : Nat) : Bool := match s.regionAt off with
    | some g => g.defer
    | none => false
  match a with
  | .pintle r => defer r.addr.toNat
  | .fabricRead _ _ off _ => defer off.toNat
  | .debug _ _ => false
  | .line ks off _ _ => ks || defer off
  | .keystone _ _ _ _ _ => true
  | .take _ _ _ => false

/-! ### Debug accesses to Bond words (R548, R549) -/

/-- SPACE, RAW and OFFSET of the DB_ADDR that an access uses. -/
def Debug.space (d : Debug) : Nat := bits d.accessAddr.toNat 1 0
def Debug.raw (d : Debug) : Bool := bit d.accessAddr.toNat 2
def Debug.offset (d : Debug) : Nat := bits d.accessAddr.toNat 47 8

/-- The unit of access in bytes (R548). -/
def Debug.unit (d : Debug) : Nat := if d.space = 0 ∧ d.offset < 0x2000000 then 4 else 16

/-- The access ends, and its unit is added to OFFSET of DB_ADDR (R548; log 51: also where DB_ADDR was loaded in between). -/
def Debug.endAccess (d : Debug) : Debug :=
  let a := d.addr.toNat
  { d with access := none, addr := BitVec.ofNat 48 (a % 256 + (a / 256 + d.unit) % 2 ^ 40 * 256) }

/-- The DB_DATA word: DATA, CHECK, OUTCOME and WRITE. -/
def dbWord (d : BondData) (c : BitVec 16) (outcome : Nat) (write : Bool) : BitVec 152 :=
  BitVec.ofNat 152 (d.toNat + c.toNat * 2 ^ 128 + outcome * 2 ^ 144 + b2n write * 2 ^ 147)

/-- OUTCOME code of a check. -/
def BondOutcome.code : BondOutcome → Nat
  | .clean => 0
  | .corrected _ => 1
  | .poison => 2
  | .uncorrectable => 3

/-- The word of the stack, system area included, that DB_ADDR names.  DESIGN CHOICE (log 51): outside every region an offset lies
by the hash of R156, since the system area has no KIND and no map. -/
def State.dbStackPlace (s : State) : Place :=
  let off := s.dbg.offset
  match s.regionAt off with
  | some r => s.locPlace (r.loc off) r.detect
  | none => s.locPlace (quoin off) false

/-- Performs a debug access to a Bond word: as a port reads it or with fresh check bits, or RAW as stored (R549). -/
def State.dbBond (s : State) (p : Place) (u : BitVec 152) : State :=
  let raw := s.dbg.raw
  let d : BondData := u.setWidth 128
  let c : BitVec 16 := BitVec.ofNat 16 (bits u.toNat 143 128)
  let done (s : State) (r : BitVec 152) : State := { s with dbg := { s.dbg with result := r } }
  if bit u.toNat 147 then
    if raw then done (s.placeSet p d (bondSyndrome d c)) (dbWord d c 0 true)
    else done (s.placeWrite p d false) (dbWord d (bondEncode d) 0 true)
  else if raw then
    done s (dbWord (s.placeData p) (bondEncode (s.placeData p) ^^^ s.placeSyn p) (s.placeCheck p).code false)
  else
    let r := s.readPlace { src := if p.space = .stack ∨ p.space = .pages then 0 else 4, agent := agentDebug } p
    done r.2 (dbWord r.1.1 (chkFor r.1.1 r.1.2) (s.placeCheck p).code false)

/-- Key of a word in `dbWords`. -/
def Place.dbKey (p : Place) : Nat := 2 * p.word + b2n (p.space == .mortar)

/-- A debug access to a word whose contents are free (log 5): a read returns free values, or what a debug write left there; a
write may break any record of the system area, or alter anything in the area of Mortar, that stands there, of which Crety takes no
note (R23, R549, R567, R568). -/
def State.dbUnlaid (s : State) (p : Place) (u : BitVec 152) : State :=
  if bit u.toNat 147 then
    let s := (if s.dbg.space = 0 then s.loseMortar s.dbg.offset
      else if (s.regionAt s.dbg.offset).isNone then s.loseRecords else s).dbBond p u
    { s with dbWords := p.dbKey :: s.dbWords.filter (· != p.dbKey) }
  else if s.dbWords.contains p.dbKey then s.dbBond p u
  else
    let (w, s) := s.freshWord
    let (c, s) := s.freshWord
    { s with dbg := { s.dbg with result := dbWord w (if s.dbg.raw then c.setWidth 16 else bondEncode w) 0 false } }

/-- The debug port names a stack word of free contents: in an undefined slot or Coffer version (R333), or in the system area
outside the Lintel copies, the journal backing and the ring slots (R568; logs 5, 35). -/
def State.dbStackUnlaid (s : State) : Bool :=
  let off := s.dbg.offset
  match s.regionAt off with
  | some r => s.slotUndef (r.loc off) || s.cofferUndef off
  | none => decide (9208 * slabSize ≤ off) && decide (off < 9215 * slabSize) &&
      !(decide (9212 * slabSize ≤ off) && decide (off < 9212 * slabSize + 2 ^ 22)) &&
      !(s.lintelLine false ++ s.lintelLine true).any (fun p => p.word == s.dbStackPlace.word)

/-- Serves one access in bank k; what follows an access of a work item is its task (R203).  A fabric read whose region is gone is
answered as R68 has it. -/
def State.serveAccess (s : State) (k : Nat) (a : BankAccess) : State :=
  match a with
  | .pintle r => s.stackServe r
  | .fabricRead src tag off _ =>
    if (s.regionAt off.toNat).isNone then s.errResp src tag fbAddrErr
    else
      let (vs, s) := s.readStackLine { src := 0, agent := src.toNat } off.toNat
      s.rdResp src tag vs
  | .debug _ _ => match s.dbg.access with
    | some u => if s.dbStackUnlaid then s.dbUnlaid s.dbStackPlace u else s.dbBond s.dbStackPlace u
    | none => s
  | .line _ off words _ => match s.regionAt off with
    | some g => s.writePlaces (List.zip (s.linePlaces (g.loc off) g.detect) words)
    | none => s
  | .keystone _ _ _ _ _ => s
  | .take _ data _ => s.latchOut k data

/-! ### Row accesses of served requests (R45, R201, R206; log 66) -/

/-- Stack offset of a queued access. -/
def State.accessOff (s : State) : BankAccess → Nat
  | .pintle r => r.addr.toNat
  | .fabricRead _ _ off _ => off.toNat
  | .debug _ _ => s.dbg.offset
  | .line _ off _ _ => off
  | .keystone _ _ _ _ _ => 0
  | .take _ _ _ => 0

/-- Where a queued access lies: the row of a Keystone access is its bank's; outside every region the system area lies by the hash
(R144; log 51). -/
def State.accessLoc (s : State) (a : BankAccess) : Loc :=
  match a with
  | .keystone _ _ row sectors _ => { bank := 0, row := row, byte := 32 * sectors.headD 0 }
  | _ => match s.regionAt (s.accessOff a) with
    | some g => g.loc (s.accessOff a)
    | none => quoin (s.accessOff a)

/-- Column commands of a queued access: a line is one BL8, a debug word one BL2, and a write that leaves bytes of its burst
alone reads it first (R45, R100). -/
def State.accessColumns (s : State) (a : BankAccess) : List Column :=
  let sector := (s.accessLoc a).byte / 32
  let line (w : Bool) : Column := { write := w, sector := sector / 4 * 4, burst := 2 }
  match a with
  | .pintle r => if r.op = 0 then [line false] else if r.ben = BitVec.allOnes 128 then [line true] else [line false, line true]
  | .fabricRead _ _ _ _ => [line false]
  | .debug w _ =>
    let one (w : Bool) : Column := { write := w, sector := sector, burst := 0 }
    if w then [one false, one true] else [one false]
  | .line _ _ _ _ => [line true]
  | .keystone _ w _ sectors _ => lineColumns w sectors
  | .take _ _ _ => []

/-- Accesses of one row access, oldest first, with their row. -/
abbrev RowGroup := Nat × List BankAccess

/-- Adds an access to the group of its row, or to the last group only (`inOrder`), or starts a group.  Only host accesses join
(R201, R204); one of the Keystone engine or of a unit keeps its place in the order of arrival (R203). -/
def joinRow (inOrder : Bool) (row : Nat) (a : BankAccess) : List RowGroup → List RowGroup
  | [] => [(row, [a])]
  | g :: rest =>
    if g.1 = row ∧ a.host ∧ g.2.all (·.host) ∧ (rest.isEmpty ∨ ¬ inOrder) then (g.1, g.2 ++ [a]) :: rest
    else g :: joinRow inOrder row a rest

/-- Row accesses that serve a list: each row of host accesses once, in the order of its oldest access (R201, R204), or in arrival
order with neighbours joined (R202). -/
def State.rowGroups (s : State) (inOrder : Bool) (q : List BankAccess) : List RowGroup :=
  q.foldl (fun gs a => joinRow inOrder (s.accessLoc a).row a gs) []

/-- A row access of the host counts as host traffic of the tick too (R436). -/
def State.countHost (s : State) (k : Nat) (cs : List Column) : State :=
  let ch := s.chan (k / 16)
  s.setChan (k / 16) { ch with counts := { ch.counts with
    hostActs := ch.counts.hostActs + 1, hostSectors := ch.counts.hostSectors + (cs.map (fun c => 2 ^ c.burst)).sum } }

/-- One row access with everything that it serves; results in a row latch need none. -/
def State.serveRow (s : State) (k : Nat) (g : RowGroup) : State :=
  let cs := g.2.flatMap s.accessColumns
  let s := if !cs.isEmpty && g.2.all (·.host) then s.countHost k cs else s
  g.2.foldl (fun s a => s.serveAccess k a) (if cs.isEmpty then s else s.rowAccess k g.1 cs)

/-- Takes an access to its bank: served as it arrives, or queued (R200 to R203). -/
def State.bankAccess (s : State) (k : Nat) (a : BankAccess) : State :=
  if s.bankWaits k then s.enqueueBank k a else s.serveRow k ((s.accessLoc a).row, [a])

/-! ### Taking effect -/

/-- Answers a request that R54 refuses. -/
def State.dataError (s : State) (r : PintleReq) : State := s.refuse r ptDataErr

/-- A WRITE that its address allows: its words are checked, then it is written or waits for its bank.  DESIGN CHOICE (log 68):
a poisoned word on the reserved bytes of a latch slot, which drop it, answers OKAY (R135, R176). -/
def State.pintleWrite (s : State) (r : PintleReq) : State :=
  let w : Who := { src := 5, agent := r.port }
  let a := r.addr.toNat
  if r.ctl then
    let (vs, ue, po, s) := s.rxWords .port w a false r.data r.chk (benWords r.ben)
    if ue || (po && r.target.isReg) then s.dataError r
    else (s.writeCtlWords r vs).refuse r ptOkay
  else match s.regionAt a with
    | none => s.refuse r ptAddrErr
    | some g =>
      let (_, ue, _, s) := s.rxWords .port w a g.detect r.data r.chk (benWords r.ben)
      if ue then s.dataError r
      else if r.ben = 0 then s.refuse r ptOkay
      else s.bankAccess (g.loc a).bank (.pintle r)

/-- A READ that its address allows. -/
def State.pintleRead (s : State) (r : PintleReq) : State :=
  let a := r.addr.toNat
  if r.ctl then
    let (vs, s) := s.readCtlLine r
    s.answerLine r vs
  else match s.regionAt a with
    | none => s.refuse r ptAddrErr
    | some g => s.bankAccess (g.loc a).bank (.pintle r)

/-- FADD64 or CAS64 on a latch word (R54, R406 to R412). -/
def State.pintleAtomic (s : State) (r : PintleReq) (i : Nat) : State :=
  let (vs, ue, po, s) := s.rxWords .port { src := 5, agent := r.port } r.addr.toNat false r.data r.chk [0]
  let ops := lineWord (lineOfChecked vs) 0
  let isCas := r.op == 3
  if ue || po then s.dataError r
  else if atomicRefused isCas i ops then s.refuse r ptBadOp
  else if !isCas && opAcq ops then s.acquire (.pintle r.port r.tag) i (opScope ops) (opHigh ops) r.at_
  else
    let old := s.latch i
    (s.atomic isCas i ops r.port).answer r.port r.tag ptOkay old

/-- Performs a request whose turn has come. -/
def State.pintlePerform (s : State) (r : PintleReq) : State :=
  match s.reqStatus r with
  | some st => s.refuse r st
  | none =>
    if r.op = 0 then s.pintleRead r
    else if r.op = 1 then s.pintleWrite r
    else match r.target with
      | .latch i _ => s.pintleAtomic r i
      | _ => s.refuse r ptBadOp

/-! ### Order within a port (R49, R408) -/

/-- Line of a request, one number for each line of either space. -/
def PintleReq.lineNo (r : PintleReq) : Nat := 2 * (r.addr.toNat / 128) + b2n r.ctl

/-- Word 0 of the request as Crety uses it: a correctable error is corrected (R54). -/
def PintleReq.operand (r : PintleReq) : BondData :=
  let x := lineWord r.data 0
  ((bondCheck false x (bondSyndrome x (lineChk r.chk 0))).value x).1

/-- The request is a release: it waits for the port's earlier writes (R408). -/
def PintleReq.isRelease (r : PintleReq) : Bool := r.op == 3 || (r.op == 2 && !opAcq r.operand)

/-- Requests of a port that wait in a bank. -/
def State.portQueued (s : State) (port : Nat) : List PintleReq :=
  (s.banks.map (fun e => e.2.queue.filterMap (fun a => match a with
    | .pintle r => if r.port = port then some r else none
    | _ => none))).flatten

/-- Latches of the acquires that a port holds. -/
def State.portAcquires (s : State) (port : Nat) : List Nat :=
  s.acq.filterMap (fun h => match h.who with
    | .pintle p _ => if p = port then some h.latch else none
    | _ => none)

/-- Line number of latch i. -/
def latchLineNo (i : Nat) : Nat := 2 * ((0x400000 + 64 * i) / 128) + 1

/-- An earlier request of the port stands in the way (R49, R408), or CCLK has stopped (R557). -/
def State.blockedBy (s : State) (r : PintleReq) (ahead : List PintleReq) : Bool :=
  let q := s.portQueued r.port ++ ahead
  (r.ctl && !s.runs 2) ||
  q.any (fun x => x.lineNo == r.lineNo) ||
  (s.portAcquires r.port).any (fun i => latchLineNo i == r.lineNo) ||
  (r.isRelease && q.any (fun x => x.op == 1))

/-- The first waiting request that nothing blocks, with its position. -/
def State.firstFree (s : State) : List PintleReq → List PintleReq → Nat → Option (Nat × PintleReq)
  | _, [], _ => none
  | ahead, r :: rest, i => if s.blockedBy r ahead then State.firstFree s (ahead ++ [r]) rest (i + 1) else some (i, r)

/-- Performs the port's waiting requests that have become free, in order. -/
def State.drainPort (s : State) (port : Nat) : Nat → State
  | 0 => s
  | n + 1 =>
    match s.firstFree [] (s.port port).behind 0 with
    | none => s
    | some (i, r) =>
      State.drainPort ((s.setPort port { s.port port with behind := removeAt (s.port port).behind i }).pintlePerform r) port n

/-- Lets every port go on. -/
def State.drainPorts (s : State) : State :=
  (List.range 32).foldl (fun s p => s.drainPort p (s.port p).behind.length) s

/-- Takes a request into its turn: performs it or lets it wait behind an earlier one, also where it will be refused
(R49). -/
def State.pintleIssue (s : State) (r : PintleReq) : State :=
  if s.blockedBy r (s.port r.port).behind then
    s.setPort r.port { s.port r.port with behind := (s.port r.port).behind ++ [r] }
  else s.pintlePerform r

/-! ### Serving a bank's queue -/

/-- Serves the picked accesses of a bank's queue; the others stay. -/
def State.serveOnce (s : State) (k : Nat) (inOrder : Bool) (pick : BankAccess → Bool) : State :=
  let q := (s.bank k).queue
  let stay := q.filter (fun a => !pick a)
  let s := s.setBank k { s.bank k with queue := stay, waited := (s.bank k).waited.filter (fun n => stay.any (fun a => a.seq == n)) }
  let s := ((s.rowGroups inOrder (q.filter pick)).foldl (fun s g => s.serveRow k g) s).drainPorts
  if q.any (fun a => match a with | .line _ _ _ _ => true | _ => false) then s.pumpPulls pumpFuel else s

/-- Serves again while the ports hand on requests that may join (R201). -/
def State.serveMore (s : State) (k : Nat) (inOrder : Bool) (pick : BankAccess → Bool) : Nat → State
  | 0 => s
  | n + 1 => if (s.bank k).queue.any pick then State.serveMore (s.serveOnce k inOrder pick) k inOrder pick n else s

/-- Requests of all ports that wait behind earlier ones. -/
def State.behindCount (s : State) : Nat := (s.ports.map (fun e => e.2.behind.length)).sum

/-- Serves the picked accesses of a bank, and those that follow from them, unless the bank is held. -/
def State.serveQueue (s : State) (k : Nat) (inOrder : Bool) (pick : BankAccess → Bool) : State :=
  if s.bankHeld k then s else s.serveMore k inOrder pick (s.behindCount + 1)

/-- Serves whatever the bank can serve now, where no course stands in the way (R204). -/
def State.serveIdle (s : State) (k : Nat) : State :=
  if (s.bank k).course.isSome then s else s.serveQueue k false (fun _ => true)

/-- Serves the idle banks of a channel. -/
def State.serveChan (s : State) (c : Nat) : State :=
  (List.range 16).foldl (fun s b => s.serveIdle (16 * c + b)) s

/-- Banks whose queue is not empty. -/
def State.waitingBanks (s : State) : List Nat := (s.banks.filter (fun e => !e.2.queue.isEmpty)).map (·.1)

/-- Serves every idle bank that has something queued. -/
def State.serveAllIdle (s : State) : State := s.waitingBanks.foldl (fun s k => s.serveIdle k) s

end Sys2Proof.Machine
end

