-- ==== Sys2Proof/Machine/Acquire.lean ====
section
/-!
DEFINITION. Held acquires: the answer after a drain, and the end of a window (R410, R411).
-/

namespace Sys2Proof.Machine

/-- Answers the held acquire at a position once its drain set has completed (R410 steps 3 and 4). -/
def State.acquireDone (s : State) (i : Nat) : State :=
  match s.acq[i]? with
  | some h =>
    match h.matched with
    | some m => if s.drained m then (({ s with acq := removeAt s.acq i } : State).acqOkay h.who m.word).drainPorts else s
    | none => s
  | none => s

/-- Ends the held acquire at a position whose window is over without a match (R411). -/
def State.acquireTimeout (s : State) (i : Nat) : State :=
  match s.acq[i]? with
  | some h =>
    if h.matched.isNone ∧ h.until_ ≤ s.now then
      let s : State := { s with acq := removeAt s.acq i, regs := { s.regs with ltTmo := satAdd s.regs.ltTmo 1 } }
      (s.acqOkay h.who (s.latch h.latch)).drainPorts
    else s
  | none => s

/-! ### Commands -/

/-- ACQUIRE_DONE for the held acquire at a position of the hold list (R410). -/
def execAcquireDone (index : Nat) (s : State) : Host.Outcome State Fault Refusal :=
  .next (if s.runs 2 then s.acquireDone index else s)

/-- ACQUIRE_TIMEOUT for the held acquire at a position of the hold list (R411). -/
def execAcquireTimeout (index : Nat) (s : State) : Host.Outcome State Fault Refusal :=
  .next (if s.runs 2 then s.acquireTimeout index else s)

end Sys2Proof.Machine
end

