-- ==== Sys2Proof/Machine/Lintel.lean ====
section
/-!
DEFINITION. The Lintel record: its bytes, its two copies, the writes that serve an event, and the selection of a
copy (R344 to R348).
-/

namespace Sys2Proof.Machine

/-- SERIAL of identity page 0 (R123). -/
def State.serial (s : State) : Nat := field s.idBytes 0x18 8

/-- The verdict of a held step with a number, and its set (R330). -/
def State.verdictFor (s : State) (t : Nat) : Option (Verdict × Bool) :=
  let of (b : Bool) : Option (Verdict × Bool) :=
    let x := s.set b
    if x.held ∧ x.step.toNat = t then x.verdict.map (fun v => (v, b)) else none
  match of false with
  | some v => some v
  | none => of true

/-- KIND as a Lintel record codes it (R344). -/
def verdictCode (v : Option (Verdict × Bool)) : Nat :=
  match v with
  | none => 0
  | some (v, _) => if v.masked then 2 else 1

/-- KIND, EXP and SET of a verdict (R344). -/
def verdictHead (v : Option (Verdict × Bool)) : List Byte :=
  match v with
  | none => [0, 0, 0]
  | some (x, b) => [BitVec.ofNat 8 (verdictCode v), x.exp, BitVec.ofNat 8 (b2n b)]

def verdictClip (v : Option (Verdict × Bool)) : List Byte :=
  match v with
  | none => [0, 0, 0, 0]
  | some (x, _) => leBytes 4 x.clip.toNat

/-- The 128 bytes of a record (R344). -/
def State.lintelBytes (s : State) (epoch : Nat) : List Byte :=
  let v0 := s.verdictFor epoch
  let v1 := s.verdictFor (epoch + 1)
  let c := s.ctl
  let bs := leBytes 4 0x4C544E4C ++ [2, 0, BitVec.ofNat 8 c.compat, BitVec.ofNat 8 c.numRev] ++ leBytes 8 c.seq.toNat ++
    leBytes 8 epoch ++ leBytes 8 c.seed.toNat ++ [c.seedSrc] ++ verdictHead v0 ++ verdictClip v0 ++ verdictHead v1 ++ [0] ++
    verdictClip v1 ++ leBytes 8 s.serial ++ leBytes 4 c.cfgSeq.toNat ++ [0, 0, 0, 0] ++ leBytes 8 c.commitTick.toNat ++
    List.replicate 52 0
  bs ++ leBytes 4 (crc32 bs).toNat

/-- Writes a line's bytes with fresh check bits. -/
def State.putLine (s : State) (ps : List Place) (bs : List Byte) : State :=
  s.writePlaces ((List.zip (List.range ps.length) ps).map (fun e =>
    (e.2, BitVec.ofNat 128 (leNat ((bs.drop (16 * e.1)).take 16)), false)))

/-- Column command of a copy's line, one BL8. -/
def lintelColumn (write : Bool) : Column := { write := write, sector := 0, burst := 2 }

/-- Writes one copy and reads it back; a copy that is not CLEAN is written again, up to three times, and then
counted (R347). -/
def State.lintelPutBytes (s : State) (copy : Bool) (bs : List Byte) : Nat → State
  | 0 => ({ s with regs := { s.regs with lintelFail := satAdd s.regs.lintelFail 1 } } : State).irq .lintelFail
  | n + 1 =>
    let s1 := (s.rowAccess (lintelBank copy) 9208 [lintelColumn true]).putLine (s.lintelLine copy) bs
    let s1 := s1.rowAccess (lintelBank copy) 9208 [lintelColumn false]
    if (s1.lintelLine copy).all (fun p => s1.placeCheck p == .clean) then s1 else State.lintelPutBytes s1 copy bs n

/-- Writes one copy now: only an owed REFpb at FULL level comes before it (R347). -/
def State.lintelIssue (s : State) (copy : Bool) (bs : List Byte) : State := (s.fullRefresh (lintelBank copy)).lintelPutBytes copy bs 4

/-- The bank of a copy takes the line: it is at a bed boundary, as `bank` tells, or has no course, and nothing holds it but an
owed REFpb at FULL level (R198, R212, R347).  A start, which runs no courses, never waits. -/
def State.lintelOpen (s : State) (bank : Option Nat) (copy : Bool) : Bool :=
  let k := lintelBank copy
  let b := s.bank k
  !s.serving || ((b.course.isNone || bank == some k) && !b.hold && s.runs 1 && !(s.chan (k / 16)).sref && (decide (b.owed < 8) || s.mayRefresh k))

/-- Writes the lines that wait and whose banks take them, in order. -/
def State.lintelDrain (s : State) (bank : Option Nat) : Nat → State
  | 0 => s
  | n + 1 => match s.ctl.lintel with
    | [] => s
    | l :: rest =>
      if s.lintelOpen bank l.copy then
        State.lintelDrain (({ s with ctl := { s.ctl with lintel := rest } } : State).lintelIssue l.copy l.bytes) bank n
      else s

/-- The lines that wait go on, and the command that waits for the last of them ends (R347). -/
def State.lintelAt (s : State) (bank : Option Nat) : State :=
  if s.ctl.lintel.isEmpty then s else (s.lintelDrain bank s.ctl.lintel.length).endAfter

/-- No command reaches the bank of a copy: its die is in self-refresh, a fuse is programmed there, or SCLK stands still (R107, R130,
R557). -/
def State.lintelBlocked (s : State) (copy : Bool) : Bool :=
  (s.chan (lintelBank copy / 16)).sref || s.fuseHeld (lintelBank copy) || !s.runs 1

/-- Writes the lines that wait, in order, up to one whose bank takes no command. -/
def State.lintelRun (s : State) : Nat → State
  | 0 => s
  | n + 1 => match s.ctl.lintel with
    | [] => s
    | l :: rest =>
      if s.lintelBlocked l.copy then s
      else State.lintelRun (({ s with ctl := { s.ctl with lintel := rest } } : State).lintelIssue l.copy l.bytes) n

/-- Writes the lines that wait, once all beds have ended (R351, R447). -/
def State.lintelForce (s : State) : State := if s.ctl.lintel.isEmpty then s else (s.lintelRun s.ctl.lintel.length).endAfter

/-- Writes one copy of the record in force for an epoch, at the next bed boundary of its bank and after every line before it
(R347). -/
def State.lintelPut (s : State) (copy : Bool) (epoch : Nat) : State :=
  let bs := s.lintelBytes epoch
  if s.ctl.lintel.isEmpty && s.lintelOpen none copy then s.lintelIssue copy bs
  else ({ s with ctl := { s.ctl with lintel := s.ctl.lintel ++ [{ copy := copy, bytes := bs, seq := s.seq }] } } : State).bump

/-- A record write has not ended: Warden serialises the events that need one (R346). -/
def State.recordBusy (s : State) : Bool := s.ctl.writing.isSome || !s.ctl.lintel.isEmpty

/-- A new SEQ (R346). -/
def State.lintelSeq (s : State) : State := { s with ctl := { s.ctl with seq := s.ctl.seq + 1 } }

/-- Writes a new record in both copies (R346, R347). -/
def State.lintelWrite (s : State) : State :=
  let s := s.lintelSeq
  (s.lintelPut false s.ctl.epoch.toNat).lintelPut true s.ctl.epoch.toNat

/-- Completes the write that an event has in flight (R347, R351): copy 1 of the record whose copy 0 stands. -/
def State.lintelCopy1 (s : State) : State :=
  match s.ctl.writing with
  | some (.commit b) => s.lintelPut true ((s.set b).step.toNat + 1)
  | some (.verdict _ _) => s.lintelPut true s.ctl.epoch.toNat
  | none => s

/-- A new configuration image with the record that carries its number (R341, R346). -/
def State.configChanged (s : State) : State :=
  ({ s.wroteRecord with ctl := { s.ctl with cfgSeq := s.ctl.cfgSeq + 1 }, start := { s.start with cfgLost0 := false, cfgLost1 := false } } : State).lintelWrite

/-! ### Reading a copy (R348) -/

/-- A verdict read back (R344). -/
def readVerdict (bs : List Byte) (kindAt clipAt : Nat) : Option (Verdict × Bool) :=
  let k := field bs kindAt 1
  if k = 0 then none
  else some ({ masked := k == 2, clip := BitVec.ofNat 32 (field bs clipAt 4), exp := BitVec.ofNat 8 (field bs (kindAt + 1) 1) },
             field bs (kindAt + 2) 1 == 1)

/-- A copy, where it is valid (R348). -/
def State.lintelRead (s : State) (copy : Bool) : Option LintelRecord :=
  let vs := (s.lintelLine copy).map s.peek
  let bs := (vs.map (fun v => leBytes 16 v.1.toNat)).flatten
  if vs.all (fun v => !v.2) ∧ field bs 0 4 = 0x4C544E4C ∧ field bs 4 1 = 2 ∧ crc32 (bs.take 124) = BitVec.ofNat 32 (field bs 124 4) ∧
      field bs 48 8 = s.serial then
    some { compat := field bs 6 1, numRev := field bs 7 1, seq := field bs 8 8, epoch := field bs 16 8,
           seed := BitVec.ofNat 64 (field bs 24 8), seedSrc := BitVec.ofNat 8 (field bs 32 1),
           v0 := readVerdict bs 33 36, v1 := readVerdict bs 40 44, cfgSeq := BitVec.ofNat 32 (field bs 56 4),
           commitTick := BitVec.ofNat 64 (field bs 64 8), bytes := bs }
  else none

/-- Reads both copies for recovery, with their outcomes counted, and selects (R348). -/
def State.lintelSelect (s : State) : Option (LintelRecord × Bool) :=
  match s.lintelRead false, s.lintelRead true with
  | some a, some b => if a.seq < b.seq then some (b, true) else some (a, false)
  | some a, none => some (a, false)
  | none, some b => some (b, true)
  | none, none => none

/-- Counts the outcomes of reading both copies (R176). -/
def State.lintelAccount (s : State) : State :=
  let s := (s.rowAccess (lintelBank false) 9208 [lintelColumn false]).rowAccess (lintelBank true) 9208 [lintelColumn false]
  (s.readPlaces { src := 0, agent := agentWarden } (s.lintelLine false ++ s.lintelLine true)).2

/-- Puts right the copy that differs from the selected record (R349). -/
def State.lintelRepair (s : State) (r : LintelRecord) (copy : Bool) : State :=
  match s.lintelRead (!copy) with
  | some o => if o.seq = r.seq then s else s.lintelIssue (!copy) r.bytes
  | none => s.lintelIssue (!copy) r.bytes

end Sys2Proof.Machine
end

