-- ==== Sys2Proof/Machine/Info.lean ====
section
/-!
DEFINITION. The queries GET_INFO, GET_STEP_REPORT and GET_PLUMB (R323, R353, R360, R508, R510, R511, R513).
-/

namespace Sys2Proof.Machine

/-! ### Step reports -/

/-- Code of STATE (R508). -/
def StepState.code : StepState → Nat
  | .opened => 0 | .sealing => 1 | .isSealed => 2 | .updating => 3 | .updated => 4 | .committing => 5
  | .committed => 6 | .abandoned => 7

/-- Code of RESULT (R508). -/
def SealResult.code : SealResult → Nat
  | .none => 0 | .isSealed => 1 | .incomplete => 2 | .invalid => 3 | .nonfinite => 4 | .overrange => 5

/-- Per-contributor code of R286; a held seal is not yet compared. -/
def SealState.code : SealState → Nat
  | .notSealed => 0 | .held => 0 | .good => 1 | .bad => 2

/-- The verdict of a set that counts as recorded: not while its Lintel write is in flight (R330). -/
def State.recorded (s : State) (b : Bool) : Option Verdict :=
  match s.ctl.writing with
  | some (.verdict _ b') => if b' = b then none else (s.set b).verdict
  | _ => (s.set b).verdict

/-- V_KIND (R508). -/
def State.vKind (s : State) (b : Bool) : Nat :=
  if (s.set b).state = .abandoned then 3
  else match s.recorded b with
    | some v => if v.masked then 2 else 1
    | none => 0

def emptyReport : GroupReport :=
  { defined := false, eLsb := 0, ssq := 0, marked := 0, under := 0, present := 0, nfState := 0, poison := 0, low := 0 }

/-- Contributors with an accepted seal, and those whose seal matched. -/
def StepSet.sealedCount (x : StepSet) : Nat := (x.contribs.filter (fun e => e.2.state != .notSealed)).length
def StepSet.goodCount (x : StepSet) : Nat := (x.contribs.filter (fun e => e.2.state == .good)).length

/-- Byte j of the contributor states: four contributors (R508). -/
def StepSet.cstateByte (x : StepSet) (j : Nat) : Byte :=
  let code (c : Nat) : Nat := match x.contribs.find? (fun e => e.1 == c) with
    | some e => e.2.state.code
    | none => 3
  BitVec.ofNat 8 (code (4 * j) + 4 * code (4 * j + 1) + 16 * code (4 * j + 2) + 64 * code (4 * j + 3))

/-- Page 0 of a report (R508).  DESIGN CHOICE (log 52): before the seal scan, when no element is known to be marked, FIRST_MARKED's group
is 0xFFFF, not the zero of a field that the step has not reached. -/
def State.reportPage0 (s : State) (b : Bool) : List Byte :=
  let x := s.set b
  let v := s.recorded b
  leBytes 8 x.step.toNat ++ ([BitVec.ofNat 8 x.state.code, BitVec.ofNat 8 x.result.code, BitVec.ofNat 8 (b2n b), x.lossExp] : List Byte) ++
  leBytes 2 x.key.toNat ++ ([BitVec.ofNat 8 x.cause, BitVec.ofNat 8 (s.vKind b)] : List Byte) ++ leBytes 8 x.closeTick.toNat ++
  leBytes 2 x.expected ++ leBytes 2 x.sealedCount ++ leBytes 2 x.goodCount ++
  ([BitVec.ofNat 8 x.lost, BitVec.ofNat 8 (b2n x.recovered)] : List Byte) ++ leBytes 4 x.stray.toNat ++
  leBytes 4 (match v with | some w => w.clip.toNat | none => 0) ++
  ([match v with | some w => w.exp | none => 0, BitVec.ofNat 8 (min x.runs 255)] : List Byte) ++ List.replicate 6 (0 : Byte) ++
  leBytes 8 x.arrival.toNat ++ leBytes 8 x.scan.toNat ++ leBytes 8 x.nonfin.toNat ++ leBytes 8 x.overr.toNat ++
  leBytes 4 x.poisonAcc.toNat ++
  leBytes 2 (match x.firstMarked with | some m => m.1 | none => 0xFFFF) ++ ([0, 0] : List Byte) ++
  leBytes 4 (match x.firstMarked with | some m => m.2 | none => 0) ++ List.replicate 4 (0 : Byte) ++
  leBytes 8 x.commitTick.toNat ++ List.replicate 88 (0 : Byte) ++ (List.range 1024).map x.cstateByte

/-- A group record (R508): COFFER_LOW of a held step is the value now (R360). -/
def State.reportGroup (s : State) (b : Bool) (g : Nat) : List Byte :=
  let x := s.set b
  let r := Sparse.get emptyReport x.groups g
  if !r.defined then leBytes 2 g ++ List.replicate 62 0
  else
    let low := if x.held then (match s.group g with | some y => y.low | none => r.low) else r.low
    leBytes 2 g ++ ([1, 0] : List Byte) ++ leBytes 2 (BitVec.ofInt 16 r.eLsb).toNat ++ ([0, 0] : List Byte) ++ leBytes 24 r.ssq.toNat ++ leBytes 4 r.marked.toNat ++
    leBytes 4 r.under.toNat ++ leBytes 4 r.present.toNat ++ leBytes 4 r.nfState.toNat ++ leBytes 4 r.poison.toNat ++
    List.replicate 4 0 ++ leBytes 8 low.toNat

/-- The set whose report of a step is kept (R323).  DESIGN CHOICE (log 52): where both keep one of the same step number, the
set that holds the step, else the one opened later.  A step whose OPEN_STEP has not ended is not shown (R499). -/
def State.reportSet (s : State) (t : Nat) : Option Bool :=
  let has (b : Bool) : Bool := (s.set b).kept && ((s.set b).clear || !(s.set b).held) && decide ((s.set b).step.toNat = t)
  let live (b : Bool) : Bool := has b && (s.set b).held
  if live false then some false else if live true then some true
  else if has false && has true then some (decide ((s.set false).opened < (s.set true).opened))
  else if has false then some false else if has true then some true else none

/-- GET_STEP_REPORT after the checks of R497 (R508). -/
def State.getStepReport (s : State) (h : Nat) : State :=
  let x := s.hasp h
  let page := x.pay 8 2
  if 128 < page then s.finish h .badField (fieldAt 8) []
  else match s.asSeen.reportSet (x.pay 0 8) with
    | none => s.finish h .badStep 0 []
    | some b =>
      if page = 0 then s.finish h .okay 0 (s.asSeen.reportPage0 b)
      else s.finish h .okay 0 ((List.range 16).map (fun i => s.asSeen.reportGroup b (16 * (page - 1) + i))).flatten

/-! ### GET_INFO -/

/-- The held steps, lower number first. -/
def State.heldSteps (s : State) : List Bool :=
  let a := s.ctl.setA
  let b := s.ctl.setB
  if a.held && b.held then (if a.step.toNat ≤ b.step.toNat then [false, true] else [true, false])
  else if a.held then [false] else if b.held then [true] else []

/-- HELDn_STEP, HELDn_STATE and HELDn_SET (R513); a step whose OPEN_STEP has not ended is not shown (R499). -/
def State.heldBytes (s : State) (n : Nat) : List Byte :=
  match (s.heldSteps.filter (fun b => (s.set b).clear))[n]? with
  | some b => leBytes 8 (s.set b).step.toNat ++ ([BitVec.ofNat 8 (s.set b).state.code, BitVec.ofNat 8 (b2n b)] : List Byte)
  | none => List.replicate 8 (0 : Byte) ++ ([0xFF, 0] : List Byte)

/-- Some group is marked IMPORT_INCOMPLETE (R488). -/
def State.importIncomplete (s : State) : Bool := s.groupList.any (fun e => e.2.marked)

/-- Highest numerics revision supported (R482, R513). -/
def State.numMax (s : State) : Nat := if s.ipRev = 0x20 then 2 else 3

/-- The 256 bytes of GET_INFO (R513, R514): a serial command partly done is not shown (R499). -/
def State.infoBytes (s : State) : List Byte :=
  let r := s.start.run
  let c := s.mbox.before.getD s.shownNow
  let coef : List Byte := if c.compat = 3 then List.replicate 16 0
    else ((List.range 4).map (fun i => leBytes 2 (Config.vddcStatic i).toNat)).flatten ++
      ((List.range 4).map (fun i => leBytes 2 (Config.vddcDyn i).toNat)).flatten
  ([s.ipRev, BitVec.ofNat 8 c.numRev, BitVec.ofNat 8 s.numMax, 2, BitVec.ofNat 8 c.compat, r.cmin, r.cmax,
   s.idBytes.getD 7 0, r.major, r.minor] : List Byte) ++ leBytes 2 r.patch.toNat ++ ([r.svn, s.start.fuseSvn, s.idBytes.getD 11 0, c.seedSrc] : List Byte) ++
  leBytes 8 c.seed.toNat ++ leBytes 8 c.epoch.toNat ++ s.asSeen.heldBytes 0 ++ List.replicate 6 0 ++ s.asSeen.heldBytes 1 ++ List.replicate 6 0 ++
  leBytes 8 s.serial ++ leBytes 2 (field s.idBytes 0x14 2) ++ leBytes 2 (field s.idBytes 0x16 2) ++
  leBytes 2 c.groups ++ ([BitVec.ofNat 8 c.regions,
    BitVec.ofNat 8 (b2n s.start.noLintel + 2 * b2n s.start.repairIncomplete + 4 * b2n s.start.fuseSuspect +
      8 * b2n c.marked + 16 * b2n s.start.fabricDown)] : List Byte) ++
  leBytes 4 s.start.softRows.toNat ++ leBytes 4 c.cfgSeq.toNat ++ List.replicate 40 0 ++ coef ++ List.replicate 112 0

/-! ### GET_PLUMB -/

/-- A 48 B Plumb record (R511). -/
def PlRecord.bytes (r : PlRecord) : List Byte :=
  leBytes 4 r.index.toNat ++ ([r.flags.setWidth 8, 0, 0, 0] : List Byte) ++ leBytes 4 r.eS ++ leBytes 4 r.eB ++ leBytes 4 r.eC ++
  leBytes 4 r.eIO ++ leBytes 4 r.peak ++ ((List.range 4).map (fun i => leBytes 4 (r.sensed.getD i 0))).flatten ++ ([0, 0, 0, 0] : List Byte)

/-- The records of a page, newest first (R510). -/
def Plumb.page (p : Plumb) (n : Nat) : List PlRecord :=
  let l := if n = 2 then p.hist60 else p.hist1s
  (List.range (if n = 2 then 16 else 32)).map (fun i => l.getD (if n = 1 then 32 + i else i) .none)

/-- GET_PLUMB after the checks of R497.  DESIGN CHOICE (log 78): a PAGE above 2 is answered BAD_FIELD. -/
def State.getPlumb (s : State) (h : Nat) : State :=
  let n := (s.hasp h).pay 0 1
  if 2 < n then s.finish h .badField (fieldAt 0) []
  else s.finish h .okay 0 ((s.plumb.page n).map PlRecord.bytes).flatten

/-! ### Commands -/

/-- GET_INFO (R513). -/
def execGetInfo (hasp : Nat) (s : State) : Host.Outcome State Fault Refusal :=
  guard (decide (hasp < 16)) (s.runCommand hasp 0x01 (fun s => s.finish hasp .okay 0 s.infoBytes))

/-- GET_STEP_REPORT (R508). -/
def execGetStepReport (hasp : Nat) (s : State) : Host.Outcome State Fault Refusal :=
  guard (decide (hasp < 16)) (s.runCommand hasp 0x09 (fun s => s.getStepReport hasp))

/-- GET_PLUMB (R510). -/
def execGetPlumb (hasp : Nat) (s : State) : Host.Outcome State Fault Refusal :=
  guard (decide (hasp < 16)) (s.runCommand hasp 0x0F (fun s => s.getPlumb hasp))

end Sys2Proof.Machine
end

