-- ==== Sys2Proof/Machine/Sha.lean ====
section
/-!
DEFINITION. SHA-384 (FIPS 180-4), which Crety uses for conditioning and for authentication (R259, R474, R542,
R543).
-/

namespace Sys2Proof.Machine

/-! ### Constants, from what FIPS 180-4 says they are -/

/-- The largest r with r ^ k ≤ n, of `bit` bits at most, found from its highest bit down. -/
def rootBits (k n : Nat) : Nat → Nat → Nat
  | 0, r => r
  | b + 1, r => rootBits k n b (if (r + 2 ^ b) ^ k ≤ n then r + 2 ^ b else r)

/-- The first 64 bits of the fractional part of the k-th root of p, for p below 2 ^ 9. -/
def rootWord (k p : Nat) : BitVec 64 := BitVec.ofNat 64 (rootBits k (p * 2 ^ (64 * k)) 72 0)

/-- A number from 2 to 409 that no smaller one from 2 on divides. -/
def smallPrime (n : Nat) : Bool := decide (2 ≤ n) && (List.range 19).all (fun d => decide (d + 2 ≥ n) || n % (d + 2) != 0)

/-- The first 80 primes. -/
def firstPrimes : List Nat := (List.range 410).filter smallPrime

/-- Round constants: cube roots of the first 80 primes. -/
def shaConst : List (BitVec 64) := firstPrimes.map (rootWord 3)

/-- The hash value that SHA-384 begins with: square roots of the ninth to the sixteenth prime. -/
def shaStart : List (BitVec 64) := ((firstPrimes.drop 8).take 8).map (rootWord 2)

/-! ### Bytes -/

/-- Big-endian number of a list of bytes, as FIPS 180-4 reads a message. -/
def beNat (bs : List Byte) : Nat := bs.foldl (fun a b => 256 * a + b.toNat) 0

/-- Big-endian bytes of a number. -/
def beBytes (n x : Nat) : List Byte := (leBytes n x).reverse

/-- The message with its padding, a whole number of 128-byte blocks. -/
def shaPadded (msg : List Byte) : List Byte :=
  let body := msg ++ [128]
  body ++ List.replicate (roundUp 128 (body.length + 16) - (body.length + 16)) 0 ++ beBytes 16 (8 * msg.length)

/-! ### Compression -/

/-- XOR of a word turned right by each of some amounts. -/
def turned (x : BitVec 64) (ns : List Nat) : BitVec 64 := ns.foldl (fun a n => a ^^^ x.rotateRight n) 0

/-- The eight working words, from `a` on, and the sixteen schedule words that come next. -/
structure ShaRun where
  vars  : List (BitVec 64)
  sched : List (BitVec 64)
  deriving DecidableEq, Repr

/-- One round: takes the next schedule word, and forms the one sixteen places on. -/
def ShaRun.round (x : ShaRun) (k : BitVec 64) : ShaRun :=
  let v (i : Nat) : BitVec 64 := x.vars.getD i 0
  let w (i : Nat) : BitVec 64 := x.sched.getD i 0
  let pick := v 6 ^^^ (v 4 &&& (v 5 ^^^ v 6))
  let most := (v 0 &&& (v 1 ||| v 2)) ||| (v 1 &&& v 2)
  let low := v 7 + turned (v 4) [14, 18, 41] + pick + k + w 0
  let next := w 0 + (turned (w 1) [1, 8] ^^^ (w 1 >>> 7)) + w 9 + (turned (w 14) [19, 61] ^^^ (w 14 >>> 6))
  { vars := (low + turned (v 0) [28, 34, 39] + most) :: (x.vars.take 3 ++ (v 3 + low) :: (x.vars.drop 4).take 3),
    sched := x.sched.drop 1 ++ [next] }

/-- The hash value after one block. -/
def shaAbsorb (ks h : List (BitVec 64)) (blk : List Byte) : List (BitVec 64) :=
  let words := (List.range 16).map (fun i => BitVec.ofNat 64 (beNat ((blk.drop (8 * i)).take 8)))
  List.zipWith (· + ·) h (ks.foldl ShaRun.round { vars := h, sched := words }).vars

/-- SHA-384: the 48 bytes of the digest in FIPS order. -/
def sha384 (msg : List Byte) : List Byte :=
  let p := shaPadded msg
  let h := (List.range (p.length / 128)).foldl (fun h i => shaAbsorb shaConst h ((p.drop (128 * i)).take 128)) shaStart
  (h.take 6).flatMap (fun w => beBytes 8 w.toNat)

/-- The digest as a bit vector, its first byte in bits [7:0] (R10). -/
def sha384Word (msg : List Byte) : BitVec 384 := BitVec.ofNat 384 (leNat (sha384 msg))

end Sys2Proof.Machine
end

