-- ==== Sys2Proof/Machine/ConfigCmd.lean ====
section
/-!
DEFINITION. Configuration commands: SET_COMPAT, DEFINE_REGION, DEFINE_GROUP, LOAD_SCHEDULE, SET_SEED, DRAW_SEED
and SET_BUDGET (R145 to R155, R255 to R262, R291 to R299, R435, R481, R505).
-/

namespace Sys2Proof.Machine

/-- Crety holds some step (R28). -/
def State.holdsStep (s : State) : Bool := s.ctl.setA.held || s.ctl.setB.held

/-- Some ring is not empty (R148, R256). -/
def State.ringBusy (s : State) : Bool := s.rings.any (fun e => !e.2.isEmpty)

/-- A CHECKPOINT_EXPORT runs (R500). -/
def State.exporting (s : State) : Bool := s.mbox.bg.any (fun b => match b with
  | .export_ _ _ _ _ _ _ => true
  | _ => false)

/-! ### SET_COMPAT -/

/-- A group needs revision N3 (R295). -/
def Group.needsN3 (g : Group) : Bool := decide (6 ≤ g.wFmt) || (g.rule == 1 && g.firstMoment)

/-- SET_COMPAT after the checks of R497 (R481): its record names the level and the revision, which are in force once it is written
(R514, R524). -/
def State.setCompat (s : State) (h : Nat) : State :=
  let lvl := (s.hasp h).pay 0 1
  let rev := (s.hasp h).pay 1 1
  if lvl ≠ 3 ∧ lvl ≠ 4 then s.finish h .badField (fieldAt 0) []
  else if rev ≠ 2 ∧ rev ≠ 3 then s.finish h .badField (fieldAt 1) []
  else if s.holdsStep then s.finish h .stepBusy 0 []
  else if lvl < s.start.run.cmin.toNat ∨ s.start.run.cmax.toNat < lvl then s.finish h .compatUnsupported 0 []
  else if rev = 3 ∧ (lvl = 3 ∨ s.numMax < 3) then s.finish h .badField (fieldAt 1) []
  else if rev = 2 ∧ s.groupList.any (fun e => e.2.needsN3) then s.finish h .numericsInUse 0 []
  else
    let t := (s.applyCompat h).lintelWrite
    (if t.ctl.lintel.isEmpty then t else { t with ctl := { t.ctl with compat := s.ctl.compat, numRev := s.ctl.numRev } }).finish h .okay 0 []

/-! ### DEFINE_REGION -/

/-- A running background command works on stack slabs of a region (R500). -/
def Background.touches (b : Background) (r : Region) : Bool :=
  let hit (first last : Nat) : Bool := decide (first < r.first + r.slabs) && decide (r.first ≤ last)
  match b with
  | .pull p => hit (p.dst / slabSize) ((p.dst + 128 * p.lines - 1) / slabSize)
  | .scrub _ first slabs _ _ _ _ _ _ _ _ => decide (0 < slabs) && hit first (first + slabs - 1)
  | .export_ _ dst bytes _ _ _ => decide (0 < bytes) && hit (dst / slabSize) ((dst + bytes - 1) / slabSize)
  | .repair _ _ _ _ _ _ _ => false

/-- The field that R146 refuses, by its payload offset. -/
def State.regionBad (s : State) (x : Hasp) : Option Nat :=
  let n := x.pay 0 1
  let first := x.pay 8 2
  let slabs := x.pay 10 2
  let kind := x.pay 12 1
  let pol := x.pay 13 1
  let role := x.pay 14 1
  let bond := x.pay 15 1
  if 63 < n then some 0
  else if slabs ≠ 0 ∧ slabLimit < first + slabs then some 10
  else if 1 < kind then some 12
  else if 1 < pol then some 13
  else if 2 < role then some 14
  else if 1 < bond then some 15
  else if role ≠ 0 ∧ bond = 1 then some 15
  else if slabs = 0 ∧ (s.region n).isNone then some 0
  else if slabs = 0 ∧ first ≠ 0 then some 8
  else if slabs = 0 ∧ kind ≠ 0 then some 12
  else if slabs = 0 ∧ pol ≠ 0 then some 13
  else if slabs = 0 ∧ role ≠ 0 then some 14
  else if slabs = 0 ∧ bond ≠ 0 then some 15
  else none

/-- The region of a request (R145). -/
def Hasp.regionOf (x : Hasp) : Option Region :=
  if x.pay 10 2 = 0 then none
  else some { first := x.pay 8 2, slabs := x.pay 10 2, placed := x.pay 12 1 == 1, defer := x.pay 13 1 == 1,
              role := x.pay 14 1, detect := x.pay 15 1 == 1 }

/-- The extent shares a slab with another region (R147). -/
def State.regionOverlaps (s : State) (n : Nat) (r : Region) : Bool :=
  s.regionList.any (fun e => e.1 != n && decide (r.first < e.2.first + e.2.slabs) && decide (e.2.first < r.first + r.slabs))

/-- DEFINE_REGION after the checks of R497, in the order of R148. -/
def State.defineRegion (s : State) (h : Nat) : State :=
  let x := s.hasp h
  let n := x.pay 0 1
  match s.regionBad x with
  | some o => s.finish h .badField (fieldAt o) []
  | none =>
    let old := s.region n
    if s.holdsStep then s.finish h .stepBusy 0 []
    else if s.exporting then s.finish h .engineBusy 0 []
    else if (match old with | some r => s.mbox.bg.any (·.touches r) | none => false) then s.finish h .regionBusy 0 []
    else if (old.isSome && s.groupList.any (fun e => e.2.stReg == n || e.2.cfReg == n)) || s.ringBusy then
      s.finish h .regionBusy 0 []
    else if (match x.regionOf with | some r => s.regionOverlaps n r | none => false) then s.finish h .regionOverlap 0 []
    else ((s.setRegion n x.regionOf).configChanged).finish h .okay 0 []

/-! ### DEFINE_GROUP -/

/-- A group from the 64 bytes of an entry (R291), with nothing assigned yet. -/
def Group.ofBytes (b : List Byte) : Group :=
  { rule := field b 0 1, flags := BitVec.ofNat 8 (field b 1 1), mFmt := field b 2 1, vFmt := field b 3 1, wFmt := field b 4 1,
    rnd := BitVec.ofNat 8 (field b 5 1), k := field b 6 1, stReg := field b 7 1, cfReg := field b 8 1,
    eLsb := sInt 16 (field b 10 2), n := field b 16 4, rows := field b 20 4, cols := field b 24 4,
    beta1 := BitVec.ofNat 32 (field b 28 4), beta2 := BitVec.ofNat 32 (field b 32 4), eps := BitVec.ofNat 32 (field b 36 4),
    lambda := BitVec.ofNat 32 (field b 40 4), clipD := BitVec.ofNat 32 (field b 44 4), start := 0, base := 0, slab := 0,
    slabs := 0, coffer := 0, knots := 1, low := 0, wRnd := 0, wSeed := 0, colA := [], colB := [], qA := (0, false), qB := (0, false), done := [], pass1 := false,
    rStage := [], cStage := [], meanR := (0, false), marked := false, undef := false, cofUndef := false }

/-- The 64 bytes of group n's entry (R291). -/
def Group.entry (g : Group) (n : Nat) : List Byte :=
  ([BitVec.ofNat 8 g.rule, g.flags, BitVec.ofNat 8 g.mFmt, BitVec.ofNat 8 g.vFmt, BitVec.ofNat 8 g.wFmt, g.rnd,
    BitVec.ofNat 8 g.k, BitVec.ofNat 8 g.stReg, BitVec.ofNat 8 g.cfReg, 0] : List Byte) ++
  leBytes 2 (BitVec.ofInt 16 g.eLsb).toNat ++ leBytes 2 n ++ ([0, 0] : List Byte) ++ leBytes 4 g.n ++ leBytes 4 g.rows ++
  leBytes 4 g.cols ++ leBytes 4 g.beta1.toNat ++ leBytes 4 g.beta2.toNat ++ leBytes 4 g.eps.toNat ++ leBytes 4 g.lambda.toNat ++
  leBytes 4 g.clipD.toNat ++ List.replicate 16 (0 : Byte)

/-- A value in [0, 1). -/
def f32Unit (x : F32) : Bool := f32IsFin x && f32Le 0 x && f32Lt x f32One
/-- Finite and not negative. -/
def f32NonNeg (x : F32) : Bool := f32IsFin x && f32Le 0 x

/-- The first field that the rule does not use and that is not zero (R292). -/
def Group.unusedBad (g : Group) : Option Nat :=
  let fl := g.flags.toNat
  if (g.rule ≠ 2 ∧ bits fl 5 4 ≠ 0) ∨ (g.rule ≠ 1 ∧ bit fl 6) then some 1
  else if g.rule ≠ 0 ∧ g.vFmt ≠ 0 then some 3
  else if g.rule = 1 ∧ !g.firstMoment ∧ g.beta1 ≠ 0 then some 28
  else if g.rule = 2 ∧ g.beta2 ≠ 0 then some 32
  else if g.rule = 2 ∧ g.eps ≠ 0 then some 36
  else if g.rule ≠ 1 ∧ g.clipD ≠ 0 then some 44
  else none

/-- The field that R292 refuses, by its payload offset, for a request that is no delete; n is GROUP (log 23). -/
def State.groupBad (s : State) (g : Group) (n : Nat) : Option Nat :=
  let role (i r : Nat) : Bool := match s.region i with
    | some x => x.role == r
    | none => false
  let n2 := s.ctl.numRev == 2
  let q8 := g.mFmt == 2 || g.vFmt == 2
  if 2 < g.rule then some 0
  else match g.unusedBad with
    | some o => some o
    | none =>
      if 2 < g.mFmt then some 2
      else if 2 < g.vFmt then some 3
      else if 8 < g.wFmt then some 4
      else if g.k = 0 ∨ 4 < g.k then some 6
      else if 2047 < n then some 12
      else if 63 < g.stReg then some 7
      else if 63 < g.cfReg then some 8
      else if g.eLsb < -160 ∨ 64 < g.eLsb then some 10
      else if g.rows = 0 ∧ g.cols ≠ 0 then some 20
      else if g.rows ≠ 0 ∧ g.cols = 0 then some 24
      else if g.rows ≠ 0 ∧ g.rows * g.cols ≠ g.n then some 16
      else if !f32Unit g.beta1 then some 28
      else if !f32Unit g.beta2 then some 32
      else if g.rule ≠ 2 ∧ !(f32IsFin g.eps && f32Lt 0 g.eps) then some 36
      else if !f32NonNeg g.lambda then some 40
      else if !f32NonNeg g.clipD ∨ (g.rule = 1 ∧ !f32Lt 0 g.clipD) then some 44
      else if g.rule = 1 ∧ (g.cols = 0 ∨ 262144 < g.cols) then some 24
      else if g.rule = 1 ∧ g.sparse then some 1
      else if g.rule = 1 ∧ g.mFmt ≠ 0 then some 2
      else if g.sparse ∧ !g.lean then some 1
      else if g.sparse ∧ g.k ≠ 1 then some 6
      else if g.catchUp ∧ !g.sparse then some 1
      else if n2 ∧ 6 ≤ g.wFmt then some 4
      else if n2 ∧ g.firstMoment then some 1
      else if g.corbel ∧ g.cols % 64 ≠ 0 ∧ q8 then some 24
      else if g.corbel ∧ g.cols % 32 ≠ 0 ∧ g.mx then some 24
      else if !role g.stReg 1 ∨ (g.corbel ∧ !s.gPlaced g) then some 7
      else if !role g.cfReg 2 then some 8
      else none

/-- The response of DEFINE_GROUP (R505). -/
def Group.response (g : Group) : List Byte :=
  leBytes 4 g.base ++ leBytes 2 g.slab ++ leBytes 2 g.slabs ++ leBytes 8 g.coffer ++ leBytes 8 g.cofferSize ++ leBytes 8 g.start.toNat

/-- A retune may change nothing but the fields that R293 lists. -/
def Group.retunes (g o : Group) : Bool :=
  g.rule == o.rule && g.flags &&& 0xF3 == o.flags &&& 0xF3 && g.mFmt == o.mFmt && g.vFmt == o.vFmt && g.wFmt == o.wFmt &&
  g.k == o.k && g.stReg == o.stReg && g.cfReg == o.cfReg && g.n == o.n && g.rows == o.rows && g.cols == o.cols

/-- Writes the RLAST of every row of a sparse group (R294, R315). -/
def State.initRlast (s : State) (g : Group) : State :=
  if !g.sparse then s
  else
    let pl := s.gPlaced g
    let m := (List.range g.pRows).foldl (fun m u =>
      s.addBytes (fun i => { g.arrLoc pl .rlast 0 u with byte := (g.arrLoc pl .rlast 0 u).byte + i }) m 0 false false
        (leBytes 4 ((g.start.toNat + 2 ^ 64 - 1) % 2 ^ 32))) []
    (s.flush { src := 0, agent := agentWarden } true false (fun _ => false) m).1

/-- Mortar bytes of a group's schedule table, from the window's start (R136). -/
def schedAt (n : Nat) : Nat := 0x1000000 + 0x400 * n

/-- Writes a whole schedule table (R294, R298). -/
def State.putSchedule (s : State) (n : Nat) (bs : List Byte) : State :=
  { s with mortar := (s.mortar.zero (schedAt n) 1024).writeFresh (schedAt n) bs }

/-- Room for a new group: the group as it is created, with the region of its Coffer (R153, R154, R266, R294, R567, R568). -/
def State.groupRoom (s : State) (g : Group) : Option (Group × Region) :=
  match s.region g.stReg, s.region g.cfReg with
  | some sr, some cr =>
    match s.fitSlabs g sr, s.fitCoffer g cr, s.fitBase g with
    | some slab, some cof, some base =>
      if 0x3000000 < s.mortarPoolUsed + g.mortarPool ∨ 26 * 2 ^ 20 < s.sysPoolUsed + g.sysPool then none
      else some ({ g with start := s.ctl.epoch, low := s.ctl.epoch, wRnd := g.rnd, wSeed := s.ctl.seed, base := base, slab := slab,
                          slabs := g.needSlabs sr.placed, coffer := cof }, cr)
    | _, _, _ => none
  | _, _ => none

/-- Lines of a group's Coffer area. -/
def Group.cofferLines (g : Group) : Nat := g.k * g.cofferSize / 128

/-- What zeroing a new group's areas reaches in the banks that do not take it now: its slabs' rows, and the Coffer's lines
(R198, R294). -/
def State.zeroPlan (s : State) (g : Group) (cr : Region) : List Reach :=
  ((s.banks.map (·.1)).filter (fun k => !s.bankFree k)).flatMap (fun k =>
    (List.range g.slabs).map (fun i => Reach.row true k ((s.bank k).physRow (g.slab + i)) ((List.range 16).map (4 * ·))) ++
    rowPlan [(true, wordUnion (((List.range g.cofferLines).map (fun i => cr.loc (g.coffer + 128 * i))).filter (fun l => l.bank == k) |>.map
      (fun l => [s.stackWordNo l.bank l.row (l.byte / 16)])))])

/-- Creates a group: zeroed state, table and Coffer, and its entry (R294). -/
def State.createNow (s : State) (h n : Nat) (g : Group) (cr : Region) : State :=
  let s := (s.zeroSlabs g.slab g.slabs).setGroup n (some g)
  let s := (s.initRlast g).putSchedule n []
  ((s.zeroLines cr g.coffer g.cofferLines).configChanged).finish h .okay 0 g.response

/-- A new group, once every bank takes the zeros (R198, R294). -/
def State.createGroup (s : State) (h n : Nat) (g : Group) : State :=
  match s.groupRoom g with
  | none => s.finish h .noSpace 0 []
  | some (g, cr) =>
    let plan := s.zeroPlan g cr
    if plan.isEmpty then s.createNow h n g cr else (s.ksAccess plan 0 (.create h)).1.holdSerial h

/-- The last of the banks has taken them (R294). -/
def State.createEnd (s : State) (h : Nat) : State :=
  let b := (s.hasp h).payload 0 64
  match s.groupRoom (Group.ofBytes b) with
  | some (g, cr) => s.createNow h (field b 12 2) g cr
  | none => s

/-- The non-zero field of lowest offset of a delete, GROUP and N apart (R294). -/
def deleteBad (b : List Byte) : Option Nat :=
  let fields : List (Nat × Nat) := [(0, 1), (1, 1), (2, 1), (3, 1), (4, 1), (5, 1), (6, 1), (7, 1), (8, 1), (10, 2), (20, 4),
    (24, 4), (28, 4), (32, 4), (36, 4), (40, 4), (44, 4)]
  fields.findSome? (fun f => if field b f.1 f.2 = 0 then none else some f.1)

/-- DEFINE_GROUP after the checks of R497 (R292 to R294, R500).  DESIGN CHOICE (log 79): a delete that succeeds has an empty payload,
since R505 gives one for a definition and a retune only. -/
def State.defineGroup (s : State) (h : Nat) : State :=
  let b := (s.hasp h).payload 0 64
  let n := field b 12 2
  let g := Group.ofBytes b
  if g.n = 0 then
    if 2047 < n ∨ (s.group n).isNone then s.finish h .badField (fieldAt 12) []
    else match deleteBad b with
      | some o => s.finish h .badField (fieldAt o) []
      | none =>
        if s.holdsStep then s.finish h .stepBusy 0 []
        else if s.exporting then s.finish h .engineBusy 0 []
        else ((s.setGroup n none).configChanged).finish h .okay 0 []
  else match s.groupBad g n with
    | some o => s.finish h .badField (fieldAt o) []
    | none =>
      if s.holdsStep then s.finish h .stepBusy 0 []
      else if s.exporting then s.finish h .engineBusy 0 []
      else match s.group n with
        | some o =>
          if g.retunes o then
            let o' : Group := { o with beta1 := g.beta1, beta2 := g.beta2, eps := g.eps, lambda := g.lambda, clipD := g.clipD,
                                       eLsb := g.eLsb, rnd := g.rnd, flags := g.flags }
            ((s.setGroup n (some o')).configChanged).finish h .okay 0 o'.response
          else s.finish h .groupExists 0 []
        | none => s.createGroup h n g

/-! ### LOAD_SCHEDULE -/

/-- The field that R299 refuses, by its payload offset. -/
def State.scheduleBad (s : State) (x : Hasp) : Option Nat :=
  let n := x.pay 0 2
  let k := x.pay 2 1
  let ep (j : Nat) : Nat := x.pay (16 + 16 * j) 8
  let lr (j : Nat) : F32 := BitVec.ofNat 32 (x.pay (24 + 16 * j) 4)
  if 2047 < n ∨ (s.group n).isNone then some 0
  else if k = 0 ∨ 64 < k then some 2
  else match (List.range (k - 1)).find? (fun j => decide (ep (j + 1) ≤ ep j)) with
    | some j => some (16 + 16 * (j + 1))
    | none => ((List.range k).find? (fun j => !f32NonNeg (lr j))).map (fun j => 24 + 16 * j)

/-- The knots as stored: an LR of −0.0 becomes +0.0 (R299). -/
def Hasp.knotBytes (x : Hasp) : List Byte :=
  ((List.range (x.pay 2 1)).map (fun j =>
    let lr := x.pay (24 + 16 * j) 4
    x.payload (16 + 16 * j) 8 ++ leBytes 4 (if lr = 0x80000000 then 0 else lr) ++ ([0, 0, 0, 0] : List Byte))).flatten

/-- LOAD_SCHEDULE after the checks of R497 (R299). -/
def State.loadSchedule (s : State) (h : Nat) : State :=
  let x := s.hasp h
  match s.scheduleBad x, s.group (x.pay 0 2) with
  | some o, _ => s.finish h .badField (fieldAt o) []
  | none, none => s
  | none, some g =>
    (((s.putSchedule (x.pay 0 2) x.knotBytes).setGroup (x.pay 0 2) (some { g with knots := x.pay 2 1 })).configChanged).finish h .okay 0 []

/-! ### Seeds -/

/-- What refuses SET_SEED and DRAW_SEED (R256). -/
def State.seedBusy (s : State) : Option MStatus :=
  if s.holdsStep then some .stepBusy else if s.ringBusy then some .ringBusy else none

/-- A new seed with its record (R255, R257, R346): it is in force once the record is written, so that nothing draws with a seed that an
interruption could take back (R256, R262). -/
def State.putSeed (s : State) (seed : BitVec 64) (src : BitVec 8) : State :=
  let t := ({ s with ctl := { s.ctl with seed := seed, seedSrc := src } } : State).lintelWrite
  if t.ctl.lintel.isEmpty then t
  else { t with ctl := { t.ctl with seed := s.ctl.seed, seedSrc := s.ctl.seedSrc }, mbox := { t.mbox with newSeed := some (seed, src) } }

/-- SET_SEED after the checks of R497 (R255, R257). -/
def State.setSeed (s : State) (h : Nat) : State :=
  match s.seedBusy with
  | some st => s.finish h st 0 []
  | none => (s.putSeed (BitVec.ofNat 64 ((s.hasp h).pay 0 8)) 1).finish h .okay 0 []

/-- A failed health test sets its bit and the interrupt cause (R261). -/
def State.trngFail (s : State) (f : Health) : State :=
  ({ s with regs := { s.regs with rctFail := s.regs.rctFail || f.rct, aptFail := s.regs.aptFail || f.apt } } : State).irq .trngFail

/-- The end of a DRAW_SEED's raw bits (R259 to R261).  A ring that has taken descriptors since the draw began refuses the seed, so
that no descriptor sees it change (R256). -/
def State.drawEnd (s : State) (h : Nat) (bits : List Bool) : State :=
  let e := entropySequence bits
  let s : State := match s.dbg.busy with
    | .draw _ => { s with dbg := { s.dbg with busy := .draw false } }
    | _ => s
  if e.1.rct || e.1.apt then
    let s := s.trngFail e.1
    ({ s with regs := { s.regs with trngFails := satAdd s.regs.trngFails 1 } } : State).finish h .entropyFail 0 []
  else if s.ringBusy then s.finish h .ringBusy 0 []
  else
    let d := (sha384 e.2).take 8
    (s.putSeed (BitVec.ofNat 64 (leNat d)) 2).finish h .okay 0 d

/-! ### Commands -/

/-- SET_COMPAT (R481). -/
def execSetCompat (hasp : Nat) (s : State) : Host.Outcome State Fault Refusal :=
  guard (decide (hasp < 16)) (s.runCommand hasp 0x02 (fun s => s.setCompat hasp))

/-- DEFINE_REGION (R145 to R149). -/
def execDefineRegion (hasp : Nat) (s : State) : Host.Outcome State Fault Refusal :=
  guard (decide (hasp < 16)) (s.runCommand hasp 0x03 (fun s => s.defineRegion hasp))

/-- DEFINE_GROUP (R291 to R294). -/
def execDefineGroup (hasp : Nat) (s : State) : Host.Outcome State Fault Refusal :=
  guard (decide (hasp < 16)) (s.runCommand hasp 0x04 (fun s => s.defineGroup hasp))

/-- LOAD_SCHEDULE (R299); it waits for a Lintel record write in flight (R346). -/
def execLoadSchedule (hasp : Nat) (s : State) : Host.Outcome State Fault Refusal :=
  guard (decide (hasp < 16)) (if s.ctl.writing.isSome then s else s.runCommand hasp 0x05 (fun s => s.loadSchedule hasp))

/-- SET_SEED (R255 to R257). -/
def execSetSeed (hasp : Nat) (s : State) : Host.Outcome State Fault Refusal :=
  guard (decide (hasp < 16)) (s.runCommand hasp 0x06 (fun s => s.setSeed hasp))

/-- DRAW_SEED begins its sequence (R259). -/
def execDrawSeed (hasp : Nat) (s : State) : Host.Outcome State Fault Refusal :=
  guard (decide (hasp < 16)) (s.runCommand hasp 0x07 (fun s => match s.seedBusy with
    | some st => s.finish hasp st 0 []
    | none => s.holdSerial hasp))

/-- ENTROPY_DRAW_DONE (R259); in emergency self-refresh the draw waits, since its record needs the stack (R448). -/
def execEntropyDrawDone (bits : List Bool) (s : State) : Host.Outcome State Fault Refusal :=
  .next (match s.mbox.active with
    | some h => if s.sampling && s.serving && s.runs 2 && !s.plumb.esr && !s.dbg.halted && !s.debugDraws then s.drawEnd h bits else s
    | none => s)

/-- SET_BUDGET (R435, R505). -/
def execSetBudget (hasp : Nat) (s : State) : Host.Outcome State Fault Refusal :=
  guard (decide (hasp < 16)) (s.runCommand hasp 0x0E (fun s =>
    let x := s.hasp hasp
    (s.mapPlumb (fun p => { p with
      watts := clampWatts (BitVec.ofNat 8 (x.pay 0 1)),
      caps := (List.range 15).map (fun i => clampCap (BitVec.ofNat 8 (x.pay (i + 1) 1))) })).finish hasp .okay 0 []))

end Sys2Proof.Machine
end

