-- ==== Sys2Proof/Machine/Intake.lean ====
section
/-!
DEFINITION. Gradient intake: opening a step, contribution lines, their addition, seals, closing, the seal scan and the
per-step scalars (R266 to R289, R300 to R302, R324, R340).
-/

namespace Sys2Proof.Machine

/-! ### Ward table (R62, R163, R166) -/

/-- A node is a member; the bit of FB_NODE_ID has no effect. -/
def State.member (s : State) (n : BitVec 14) : Bool :=
  n != s.nodeId && bit (Sparse.get 0 s.regs.ward (n.toNat / 32)).toNat (n.toNat % 32)

/-! ### Per-step scalars (R300 to R302) -/

/-- pow_rne over the 64 bits of an exponent (R302). -/
def f32Pow (b : F32) (e : Nat) : F32 :=
  (List.range 64).foldl (fun r i =>
    let r := f32Mul r r
    if bit e (63 - i) then f32Mul r b else r) f32One

/-- A knot of a group's table as stored: EPOCH and LR (R298).  DESIGN CHOICE (log 74): one whose word reads POISON or UNCORRECTABLE
gives the data that is delivered, and nothing that is formed from it is poisoned; R179 and R301 say neither. -/
def State.knot (s : State) (n j : Nat) : Nat × F32 :=
  let v := s.peek (mortarPlace (schedAt n + 16 * j))
  (v.1.toNat % 2 ^ 64, BitVec.ofNat 32 (v.1.toNat >>> 64))

/-- The learning rate of group n at epoch t (R300). -/
def State.lrAt (s : State) (n : Nat) (g : Group) (t : Nat) : F32 :=
  let kn := s.knot n
  let last := g.knots - 1
  if t ≤ (kn 0).1 then (kn 0).2
  else if (kn last).1 ≤ t then (kn last).2
  else
    let j := ((List.range g.knots).filter (fun j => decide ((kn j).1 ≤ t))).foldl max 0
    let a := f32OfInt ((t : Int) - (kn j).1)
    let b := f32OfInt (((kn (j + 1)).1 : Int) - (kn j).1)
    f32Fma (f32Div a b) (f32Sub (kn (j + 1)).2 (kn j).2) (kn j).2

/-- The scalars of group n for step t (R302), with the hyperparameters in force at the seal result (R301). -/
def State.scalarsOf (s : State) (n : Nat) (g : Group) (t : BitVec 64) : Scalars :=
  let k := t.toNat + 1 - g.start.toNat
  { lr := s.lrAt n g t.toNat, omb1 := f32Sub f32One g.beta1, omb2 := f32Sub f32One g.beta2,
    bc1 := f32Sub f32One (f32Pow g.beta1 k), bc2 := f32Sub f32One (f32Pow g.beta2 k),
    b1 := g.beta1, b2 := g.beta2, eps := g.eps, lam := g.lambda, clipD := g.clipD,
    rnd := g.rnd, eLsb := g.eLsb, catchUp := g.catchUp }

/-! ### The contributor table (R271, R272) -/

/-- Words of the 8 KiB table. -/
def ctabPlaces (ctab : Nat) : List Place := (List.range 512).map (fun i => mortarPlace (ctab - 0x2000000 + 16 * i))

/-- The 4,096 entries of the delivered words. -/
def ctabEntries (vs : List (BondData × Bool)) : List Nat :=
  (vs.map (fun v => (List.range 8).map (fun j => (v.1.toNat >>> (16 * j)) % 65536))).flatten

/-- The expected contributors with their nodes. -/
def ctabExpected (es : List Nat) : List (Nat × BitVec 14) :=
  (List.zip (List.range es.length) es).filterMap (fun e => if bit e.2 15 then some (e.1, BitVec.ofNat 14 e.2) else none)

/-- The field at which R272 refuses a table. -/
def State.ctabBad (s : State) (vs : List (BondData × Bool)) (expected : Nat) : Option Nat :=
  let es := ctabEntries vs
  let ex := ctabExpected es
  if es.headD 0 ≠ 0 ∨ es.any (fun e => bit e 14) then some 16
  else if ex.length ≠ expected ∨ expected = 0 ∨ 4095 < expected then some 20
  else if !(ex.map (·.2)).Nodup then some 16
  else if ex.any (fun e => !s.member e.2) then some 16
  else if vs.any (·.2) then some 16
  else none

/-! ### OPEN_STEP (R28, R270 to R273, R324, R507) -/

/-- The step as it opens. -/
def State.openedStep (s : State) (x : Hasp) (ex : List (Nat × BitVec 14)) : StepSet :=
  { StepSet.init with
    kept := true, held := true, opened := s.seq, step := BitVec.ofNat 64 (x.pay 0 8), state := .opened,
    key := BitVec.ofNat 10 (x.pay 22 2), lossExp := BitVec.ofNat 8 (x.pay 25 1), deadline := BitVec.ofNat 64 (x.pay 8 8),
    expected := x.pay 20 2,
    contribs := ex.map (fun e => (e.1, { node := e.2, sum := 0, lines := 0, state := .notSealed })),
    groups := s.groupList.map (fun e => (e.1, { emptyReport with defined := true, eLsb := e.2.eLsb, low := e.2.low })) }

/-- The field of OPEN_STEP that R272 refuses before the table is read. -/
def State.openBad (s : State) (x : Hasp) : Option Nat :=
  let ctab := x.pay 16 4
  let dl := x.pay 8 8
  let now := s.clk.tick.toNat
  if (s.set (bit (x.pay 24 1) 0)).held then some 24
  else if dl ≤ now ∨ now + 30000000 < dl then some 8
  else if ctab < 0x2000000 ∨ 0x2FFE000 < ctab ∨ ctab % 128 ≠ 0 then some 16
  else none

/-- A step is in OPEN or SEALING (R28). -/
def StepSet.inIntake (x : StepSet) : Bool := x.held && (x.state == .opened || x.state == .sealing)

/-- OPEN_STEP after the checks of R497. -/
def State.openStep (s : State) (h : Nat) : State :=
  let x := s.hasp h
  if s.importIncomplete then s.finish h .importIncomplete 0 []
  else if s.ctl.setA.inIntake || s.ctl.setB.inIntake || (s.ctl.setA.held && s.ctl.setB.held) then s.finish h .stepBusy 0 []
  else match s.openBad x with
    | some o => s.finish h .badField (fieldAt o) []
    | none =>
      let (vs, s) := s.readPlaces { src := 4, agent := agentWarden } (ctabPlaces (x.pay 16 4))
      match s.ctabBad vs (x.pay 20 2) with
      | some o => s.finish h .badField (fieldAt o) []
      | none =>
        if x.pay 0 8 ≠ s.ctl.epoch.toNat + s.heldSteps.length then s.finish h .badStep 0 []
        else
          let b := bit (x.pay 24 1) 0
          (((s.setSet b (s.openedStep x (ctabExpected (ctabEntries vs)))).newWork false).bump).holdSerial h

/-! ### Clearing a set (R273) -/

/-- Every Bond word of an array of a group, by location. -/
def Group.arrWords (g : Group) (pl : Bool) (a : Arr) (slot : Nat) : List Loc :=
  let off := g.arrOff pl a slot
  let n := ceilDiv (g.arrBytes pl a) 16
  if pl then ((List.range 4096).map (fun k => (List.range n).map (fun i => g.byteLoc pl k (off + 16 * i)))).flatten
  else (List.range n).map (fun i => g.byteLoc pl 0 (off + 16 * i))

/-- The word at a place belongs to an array of the group. -/
def Group.inArr (g : Group) (pl : Bool) (a : Arr) (slot : Nat) (l : Loc) : Bool :=
  match g.stretchOff pl l with
  | some o => decide (g.arrOff pl a slot ≤ o) && decide (o < g.arrOff pl a slot + 16 * ceilDiv (g.arrBytes pl a) 16)
  | none => false

/-- The word at a number of the stack store belongs to the accumulators or the bitmaps of a set. -/
def State.inSet (s : State) (b : Bool) (w : Nat) : Bool :=
  match s.wordLoc w with
  | some l => s.groupList.any (fun e =>
    e.2.inArr (s.gPlaced e.2) .acc (b2n b) l || e.2.inArr (s.gPlaced e.2) .nf (b2n b) l)
  | none => false

/-- Writes zero into every accumulator and every bitmap bit of a set; where unlisted words read as zero, every listed word
of them leaves the list. -/
def State.clearIntake (s : State) (b : Bool) : State :=
  if s.bg = 0 then
    { s with stack := { cells := s.stack.cells.filter (fun e => !s.inSet b (e.1 / 16)),
                        synd := s.stack.synd.filter (fun e => !s.inSet b e.1) } }
  else s.groupList.foldl (fun s e =>
    let pl := s.gPlaced e.2
    (e.2.arrWords pl .acc (b2n b) ++ e.2.arrWords pl .nf (b2n b)).foldl (fun s l => s.placeWrite (s.locPlace l false) 0 false) s) s

/-! ### Contribution lines (R267 to R280) -/

/-- A set accepts lines with this key now (R274 check 4). -/
def State.acceptsKey (s : State) (key : BitVec 10) (b : Bool) : Bool :=
  let x := s.set b
  x.held && x.state == .opened && x.clear && !x.closed && x.key == key && decide (s.now < 200 * x.deadline.toNat)

/-- The set that accepts lines with a key. -/
def State.acceptingSet (s : State) (key : BitVec 10) : Option Bool :=
  if s.acceptsKey key false then some false else if s.acceptsKey key true then some true else none

/-- A set with the key has closed (R274). -/
def State.lateKey (s : State) (key : BitVec 10) : Bool :=
  let late (x : StepSet) : Bool := x.kept && x.key == key && (x.closed || (x.held && decide (200 * x.deadline.toNat ≤ s.now)))
  late s.ctl.setA || late s.ctl.setB

/-- Counts a line or seal that check 4 refuses, as the fabric port tells it (R555). -/
def State.countStale (s : State) (key : BitVec 10) : State :=
  s.cross sourceFab (fun s =>
    if s.lateKey key then { s with regs := { s.regs with late := satAdd s.regs.late 1 } }
    else { s with regs := { s.regs with stale := satAdd s.regs.stale 1 } })

/-- Counts a stray of a step (R274). -/
def State.countStray (s : State) (b : Bool) : State :=
  let x := s.set b
  let s := s.setSet b { x with stray := satAdd x.stray 1 }
  s.cross sourceFab (fun s => { s with regs := { s.regs with stray := satAdd s.regs.stray 1 } })

/-- The window of an aperture offset: 0 Ashlar-64, 1 BF16, 2 FP16, 3 MXFP8, with the line number (R267). -/
def intakeWindow (off : Nat) : Option (Nat × Nat) :=
  if off < 0x2000000000 then none
  else if off < 0x2800000000 then some (0, (off - 0x2000000000) / 128)
  else if off < 0x2A00000000 then some (1, (off - 0x2800000000) / 128)
  else if off < 0x2C00000000 then some (2, (off - 0x2A00000000) / 128)
  else if off < 0x2E00000000 then some (3, (off - 0x2C00000000) / 128)
  else none

/-- Elements of a line of a window. -/
def windowElems (w : Nat) : Nat := if w = 0 then 16 else if w = 3 then 96 else 64

/-- Element k of a line, converted with a group's window exponent (R241, R242, R245, R268). -/
def lineElem (w : Nat) (d : LineData) (eLsb : Int) (k : Nat) : AshlarOut :=
  let at_ (off n : Nat) : Nat := (d.toNat >>> (8 * off)) % 2 ^ (8 * n)
  match w with
  | 0 => ashlarPartial (BitVec.ofNat 64 (at_ (8 * k) 8))
  | 1 => ashlarConvert (fmtBf16.decode (at_ (2 * k) 2)) eLsb
  | 2 => ashlarConvert (fmtF16.decode (at_ (2 * k) 2)) eLsb
  | _ => ashlarConvert (mxDecode fmtE5M2 (at_ (96 + k / 32) 1) (at_ k 1)) eLsb

/-- The group and element of an intake index (R266). -/
def State.atIndex (s : State) (e : Nat) : Option (Nat × Group × Nat) :=
  (s.groupList.find? (fun x => decide (x.2.base ≤ e) && decide (e < x.2.base + x.2.n))).map (fun x => (x.1, x.2, e - x.2.base))

/-- One converted element of a line. -/
structure LineElem where
  group : Nat
  elem  : Nat
  index : Nat
  loc   : Loc
  row   : Nat
  sparse : Bool
  out   : AshlarOut
  deriving DecidableEq, Repr

/-- The elements of a line at group indices, in order. -/
def State.lineElems (s : State) (b : Bool) (w line : Nat) (d : LineData) : List LineElem :=
  let n := windowElems w
  (List.range n).filterMap (fun k =>
    (s.atIndex (line * n + k)).map (fun x =>
      { group := x.1, elem := x.2.2, index := line * n + k, loc := x.2.1.arrLoc (s.gPlaced x.2.1) .acc (b2n b) x.2.2,
        row := x.2.2 / x.2.1.width, sparse := x.2.1.sparse, out := lineElem w d x.2.1.eLsb k }))

def LineElem.addend (e : LineElem) : Addend :=
  { group := e.group, elem := e.elem, value := if e.out.kind = .value then e.out.v else 0, mark := e.out.kind != .value }

/-- The bank that holds the mark of an addend. -/
def State.markBank (s : State) (b : Bool) (a : Addend) : Option Nat :=
  (s.group a.group).map (fun g => (g.arrLoc (s.gPlaced g) .nf (b2n b) a.elem).bank)

/-- The addends of a piece whose marks its bank holds. -/
def State.marksHere (s : State) (b : Bool) (p : Piece) : List Addend := p.adds.filter (fun a => a.mark && s.markBank b a == some p.bank)

/-- A piece and, where the marks of its accumulator line stand in another bank, one of its mark mask for that bank (R20, R275; log 14). -/
def State.withMarks (s : State) (b : Bool) (p : Piece) : List Piece :=
  match p.adds.filter (fun a => a.mark && s.markBank b a != some p.bank) with
  | [] => [p]
  | a :: r => [p, { bank := (s.markBank b a).getD p.bank, adds := a :: r, marksOnly := true, fed := false }]

/-- Pieces: runs of elements in one accumulator line (R275). -/
def pieces : List LineElem → List Piece
  | [] => []
  | e :: r =>
    match r, pieces r with
    | e' :: _, p :: ps =>
      if e'.loc.bank = e.loc.bank ∧ e'.loc.row = e.loc.row ∧ e'.loc.byte / 128 = e.loc.byte / 128 then
        { p with adds := e.addend :: p.adds } :: ps
      else { bank := e.loc.bank, adds := [e.addend], marksOnly := false, fed := false } :: p :: ps
    | _, ps => { bank := e.loc.bank, adds := [e.addend], marksOnly := false, fed := false } :: ps

/-- Adds a row to an ascending list without repeats. -/
def insertRow (r : Nat) : List Nat → List Nat
  | [] => [r]
  | a :: l => if r < a then r :: a :: l else if r = a then a :: l else a :: insertRow r l

/-- The terms of a line in a contributor's arrival sum (R279, R280). -/
def lineSum (es : List LineElem) : BitVec 64 :=
  es.foldl (fun c e => if e.out.kind = .value then c + e.out.v * BitVec.ofNat 64 (2 * e.index + 1) else c) 0

/-- Accounts an accepted line in its set (R275): ledger, counts and row presence. -/
def StepSet.takeLine (x : StepSet) (c : Nat) (es : List LineElem) : StepSet :=
  let cnt (k : AshlarKind) : Nat := (es.filter (fun e => e.out.kind == k)).length
  let under := (es.filter (fun e => e.out.under)).length
  let g := (es.map (·.group)).headD 0
  let rep := Sparse.get emptyReport x.groups g
  { x with
    contribs := x.contribs.map (fun e => if e.1 = c then (e.1, { e.2 with sum := e.2.sum + lineSum es, lines := e.2.lines + 1 }) else e),
    nonfin := x.nonfin + BitVec.ofNat 64 (cnt .nonfinite), overr := x.overr + BitVec.ofNat 64 (cnt .overrange),
    groups := Sparse.put g { rep with under := satAdd rep.under under } x.groups,
    present := (es.filter (·.sparse)).foldl (fun m e => Sparse.upd [] m e.group (insertRow e.row)) x.present }

/-- The expected contributor that a node sends for. -/
def StepSet.sender (x : StepSet) (src : BitVec 14) : Option (Nat × Contributor) := x.contribs.find? (fun e => e.2.node == src)

/-- A WR_LINE that passed checks 1 to 3 of R274: checks 4 to 7, then the line is taken. -/
def State.takeLine (s : State) (src : BitVec 14) (tag : BitVec 10) (w line : Nat) (d : LineData) : State :=
  match s.acceptingSet tag with
  | none => (s.countStale tag).errResp src tag fbNotReady
  | some b =>
    match (s.set b).sender src with
    | none => (s.countStray b).errResp src tag fbAddrErr
    | some (c, x) =>
      let es := s.lineElems b w line d
      if x.state != .notSealed || es.isEmpty then (s.countStray b).errResp src tag fbAddrErr
      else
        let s := s.forgetDb.setSet b ((s.set b).takeLine c es)
        { s with ctl := { s.ctl with staged := s.ctl.staged ++ [{ src := src, setB := b, seq := s.seq, pieces := (pieces es).flatMap (s.withMarks b) }] } }

/-! ### Addition in the banks (R275 step 6, R276) -/

/-- Adds a piece into its accumulators and marks its elements, as the bank's unit does, in its own bank alone; poisoned words stay
poisoned (R20, R179). -/
def State.addPiece (s : State) (b : Bool) (p : Piece) : State :=
  match p.adds with
  | [] => s
  | a0 :: _ =>
    match s.group a0.group with
    | none => s
    | some g =>
      let pl := s.gPlaced g
      let who : Who := { src := 1, agent := 64 + p.bank }
      let accLoc (i : Nat) : Loc := g.arrLoc pl .acc (b2n b) i
      let nfLoc (i : Nat) : Loc := g.arrLoc pl .nf (b2n b) i
      let marked := s.marksHere b p
      let sums := if p.marksOnly then [] else p.adds
      let words := marked.foldl (fun m a => s.addWord m (nfLoc a.elem)) (sums.foldl (fun m a => s.addWord m (accLoc a.elem)) [])
      let put (m : Sparse WordWrite) (l : Loc) (bs : List Byte) (bad : Bool) : Sparse WordWrite :=
        s.addBytes (fun i => { l with byte := l.byte + i }) m 0 bad true bs
      let m := sums.foldl (fun m a =>
        let v := s.peekNat (accLoc a.elem) 8
        put m (accLoc a.elem) (leBytes 8 ((v.1 + a.value.toNat) % 2 ^ 64)) v.2) []
      let bits_ := marked.foldl (fun (acc : List (Loc × Nat)) a =>
        let l := nfLoc a.elem
        let bt := 2 ^ g.nfBit pl a.elem
        if acc.any (fun e => e.1 == l) then acc.map (fun e => if e.1 = l then (l, e.2 ||| bt) else e) else acc ++ [(l, bt)]) []
      let m := bits_.foldl (fun m e =>
        let v := s.peekNat e.1 1
        put m e.1 [BitVec.ofNat 8 (v.1 ||| e.2)] v.2) m
      let s := words.foldl (fun s e => (s.readPlace who { e.2 with site := .unit p.bank }).2) s
      (s.flush who true true (fun w => words.any (fun e => e.1 == w)) m).1

/-- Takes the oldest staged piece of a bank out of the staging buffer. -/
def takePiece (k : Nat) : List StagedLine → Option (StagedLine × Piece × List StagedLine)
  | [] => none
  | l :: r =>
    match l.pieces.findIdx? (fun p => p.bank == k) with
    | some i =>
      let rest := removeAt l.pieces i
      some (l, l.pieces.getD i { bank := k, adds := [], marksOnly := false, fed := false }, if rest.isEmpty then r else { l with pieces := rest } :: r)
    | none => match takePiece k r with
      | some (x, p, r') => some (x, p, l :: r')
      | none => none

/-- What a channel controller stages in a row latch for a piece: 16 addends of 8 B, and the 16-bit mark mask (R275; log 62). -/
def State.pieceBytes (s : State) (b : Bool) (p : Piece) : List Byte :=
  let slot (a : Addend) : Nat := match s.group a.group with
    | some g => (g.arrLoc (s.gPlaced g) .acc (b2n b) a.elem).byte % 128 / 8
    | none => 0
  let at_ (as : List Addend) (i : Nat) : Option Addend := as.find? (fun a => slot a == i)
  (List.range 16).flatMap (fun i => leBytes 8 (match at_ (if p.marksOnly then [] else p.adds) i with
    | some a => a.value.toNat
    | none => 0)) ++
  leBytes 2 (((List.range 16).filter (fun i => (at_ (s.marksHere b p) i).isSome)).foldl (fun m i => m + 2 ^ i) 0)

/-- The staged pieces of a bank, oldest first, with their sets. -/
def State.piecesOf (s : State) (k : Nat) : List (Bool × Piece) :=
  s.ctl.staged.flatMap (fun l => (l.pieces.filter (fun p => p.bank == k)).map (fun p => (l.setB, p)))

/-- Marks the oldest n staged pieces of a bank as standing in the row latch. -/
def feedPieces (k : Nat) : Nat → List Piece → Nat × List Piece
  | n, [] => (n, [])
  | n, p :: r =>
    let take := p.bank == k && decide (0 < n)
    let x := feedPieces k (if take then n - 1 else n) r
    (x.1, (if take then { p with fed := true } else p) :: x.2)

def feedLines (k : Nat) : Nat → List StagedLine → List StagedLine
  | _, [] => []
  | n, l :: r => { l with pieces := (feedPieces k n l.pieces).2 } :: feedLines k (feedPieces k n l.pieces).1 r

/-- Pieces that a row latch holds: 2 KiB of 130 B each (log 62). -/
def latchPieces : Nat := 15

/-- Stages the oldest pieces of a bank in row latch 0 of its unit (R275 step 5; log 62). -/
def State.stagePieces (s : State) (k : Nat) : State :=
  let ps := (s.piecesOf k).take latchPieces
  let s1 := s.putLatch k false .staged (ps.flatMap (fun p => s.pieceBytes p.1 p.2))
  { s1 with ctl := { s1.ctl with staged := feedLines k latchPieces s.ctl.staged } }

/-- ACCUM_CONTRIB at a bank: the oldest piece that stands in the unit's row latch; one that does not waits for the next bed boundary
(R20, R275). -/
def State.accumContrib (s : State) (k : Nat) : State :=
  match takePiece k s.ctl.staged with
  | none => s
  | some (l, p, rest) => if p.fed then ({ s with ctl := { s.ctl with staged := rest } } : State).addPiece l.setB p else s

/-! ### Seals and closing (R281 to R284) -/

/-- A seal line meets the conditions of R282. -/
def StepSet.sealOk (x : StepSet) (src : BitVec 14) (tag : BitVec 10) (bs : List Byte) : Bool :=
  let c := field bs 4 2
  field bs 0 4 == 0x4C414553 && field bs 6 2 == tag.toNat && field bs 8 8 == x.step.toNat &&
  (match x.contribs.find? (fun e => e.1 == c) with
   | some e => e.2.node == src && e.2.state == .notSealed
   | none => false) &&
  (firstNonzero bs 28 100).isNone

def StepSet.setState (x : StepSet) (c : Nat) (st : SealState) : StepSet :=
  { x with contribs := x.contribs.map (fun e => if e.1 = c then (e.1, { e.2 with state := st }) else e) }

/-- A SEAL_WR that passed checks 1 to 3 of R274. -/
def State.takeSeal (s : State) (src : BitVec 14) (tag : BitVec 10) (d : LineData) : State :=
  match s.acceptingSet tag with
  | none => (s.countStale tag).errResp src tag fbNotReady
  | some b =>
    let bs := lineBytes d
    let x := s.set b
    if !x.sealOk src tag bs then (s.countStray b).errResp src tag fbBadOp
    else
      let c := field bs 4 2
      let h : HeldSeal := { contrib := c, src := src, tag := tag, checksum := BitVec.ofNat 64 (field bs 16 8),
                            lines := BitVec.ofNat 32 (field bs 24 4), stamp := s.now, seq := s.seq }
      s.setSet b { x.setState c .held with seals := x.seals ++ [h] }

/-- Every earlier line of the seal's node has been added (R66). -/
def State.linesAdded (s : State) (src : BitVec 14) (seq : Nat) : Bool :=
  s.ctl.staged.all (fun l => l.src != src || decide (seq ≤ l.seq))

/-- Closes a set, by ALL_SEALED (cause 1) in the present tick, or by DEADLINE (cause 2) in that tick (R284). -/
def State.closeSet (s : State) (b : Bool) (cause : Nat) : State :=
  let x := s.set b
  s.setSet b { x with closed := true, cause := cause, closeTick := if cause = 2 then x.deadline else s.clk.tick, state := .sealing }

/-- The sets for which REFCLK cycle 200 × DEADLINE has come close (R284). -/
def State.deadlineClose (s : State) : State :=
  let due (b : Bool) : Bool :=
    (s.set b).held && (s.set b).state == .opened && decide (200 * (s.set b).deadline.toNat ≤ s.now)
  let s := if due false then s.closeSet false 2 else s
  if due true then s.closeSet true 2 else s

/-- Releases a held seal: compares it and answers (R282), then closes the set when it was the last (R284). -/
def State.releaseSeal (s : State) (b : Bool) (h : HeldSeal) : State :=
  let x := s.set b
  let good := match x.contribs.find? (fun e => e.1 == h.contrib) with
    | some e => e.2.sum == h.checksum && e.2.lines == h.lines
    | none => false
  let x := { x.setState h.contrib (if good then .good else .bad) with seals := x.seals.filter (fun y => y != h) }
  let s := (s.setSet b x).sealAck h.src h.tag
  if x.state = .opened ∧ x.contribs.all (fun e => e.2.state == .good || e.2.state == .bad) then s.closeSet b 1 else s

/-- SEAL_RELEASE of a contributor; a deadline that has come closes its set first (R284). -/
def State.sealRelease (s : State) (c : Nat) : State :=
  let s := s.deadlineClose
  let go (b : Bool) : Option HeldSeal := (s.set b).seals.find? (fun h => h.contrib == c && s.linesAdded h.src h.seq)
  match go false, go true with
  | some h, _ => s.releaseSeal false h
  | none, some h => s.releaseSeal true h
  | none, none => s

/-! ### The seal scan (R285, R286) -/

/-- What the scan forms over one group. -/
structure ScanSum where
  total : BitVec 64
  ssq   : Nat
  marked : Nat
  first : Option Nat
  deriving DecidableEq, Repr

/-- The words that a scan of a group reads. -/
def State.scanWords (s : State) (b : Bool) (g : Group) : Sparse Place :=
  let pl := s.gPlaced g
  (List.range g.n).foldl (fun m i => s.addWord (s.addWord m (g.arrLoc pl .acc (b2n b) i)) (g.arrLoc pl .nf (b2n b) i)) []

/-- SCAN terms, SSQ, MARKED and the first marked element of a group (R285). -/
def State.scanGroup (s : State) (b : Bool) (g : Group) : ScanSum :=
  let pl := s.gPlaced g
  (List.range g.n).foldl (fun (x : ScanSum) i =>
    let a := BitVec.ofNat 64 (s.peekNat (g.arrLoc pl .acc (b2n b) i) 8).1
    let mk := bit (s.peekNat (g.arrLoc pl .nf (b2n b) i) 1).1 (g.nfBit pl i)
    let total := x.total + a * BitVec.ofNat 64 (2 * (g.base + i) + 1)
    if mk then { x with total := total, marked := x.marked + 1, first := match x.first with | some f => some f | none => some i }
    else { x with total := total, ssq := x.ssq + a.toInt.natAbs ^ 2 })
    { total := 0, ssq := 0, marked := 0, first := none }

/-- Reads the scan's words as the units do, counting each outcome, and answers how many were poisoned. -/
def State.scanAccount (s : State) (ps : Sparse Place) : Nat × State :=
  ps.foldl (fun (x : Nat × State) e =>
    let k := e.2.word / (bankBytes / 16)
    let r := x.2.readPlace { src := 1, agent := 64 + k } { e.2 with site := .unit k }
    (x.1 + b2n r.1.2, r.2)) (0, s)

/-- The seal result (R286). -/
def StepSet.resultOf (x : StepSet) : SealResult :=
  if x.cause = 2 ∧ x.contribs.any (fun e => e.2.state == .notSealed) then .incomplete
  else if x.contribs.any (fun e => e.2.state == .bad) || x.stray != 0 || x.scan != x.arrival || x.poisonAcc != 0 then .invalid
  else if x.nonfin ≠ 0 then .nonfinite
  else if x.overr ≠ 0 then .overrange
  else .isSealed

/-- Scans one group into a set. -/
def State.scanInto (s : State) (b : Bool) (n : Nat) (g : Group) : State :=
  let r := s.scanGroup b g
  let (bad, s) := s.scanAccount (s.scanWords b g)
  let x := s.set b
  let rep := Sparse.get emptyReport x.groups n
  let older (m : Nat × Nat) : Bool := match s.group m.1 with
    | some o => decide (o.base + m.2 < g.base + r.first.getD 0)
    | none => false
  let first := match r.first, x.firstMarked with
    | none, m => m
    | some i, none => some (n, i)
    | some i, some m => if older m then some m else some (n, i)
  s.setSet b { x with
    scan := x.scan + r.total, poisonAcc := satAdd x.poisonAcc bad, firstMarked := first,
    groups := Sparse.put n { rep with ssq := BitVec.ofNat 192 r.ssq, marked := BitVec.ofNat 32 r.marked,
                                      present := BitVec.ofNat 32 (Sparse.get [] x.present n).length } x.groups }

/-- Counts the reads of the knots that the scalars use (R176). -/
def State.readKnots (s : State) : State :=
  s.groupList.foldl (fun s e => (s.readPlaces { src := 4, agent := agentWarden }
    ((List.range e.2.knots).map (fun j => mortarPlace (schedAt e.1 + 16 * j)))).2) s

/-- The counts that the scan's units have kept reach their channels (R186). -/
def State.scanReports (s : State) : State :=
  (s.banks.filter (fun e => e.2.cstat != (0, 0, 0))).foldl (fun s e => s.unitReport e.1) s

/-- A set whose scan has run in every bank, and whose partials are not on their way already. -/
def State.scanReady (s : State) (b : Bool) : Bool := s.scanRuns b && s.swept && !s.tasked (.scanEnd b)

/-- The bytes of the bitmaps of HASHED groups that lie in a bank. -/
def State.markBytes (s : State) (b : Bool) (k : Nat) : List Byte :=
  s.hashedGroups.flatMap (fun e => (List.range (ceilDiv e.2.n 8)).filterMap (fun j =>
    let l := e.2.arrLoc false .nf (b2n b) (8 * j)
    if l.bank = k then some (BitVec.ofNat 8 (s.peekNat l 1).1) else none))

/-- The bitmaps of HASHED groups leave their banks by way of row latch 0, for the units of the banks that hold the accumulators (R20,
R285; log 14). -/
def State.masksPlan (s : State) (b : Bool) : List Reach :=
  (List.range 4096).flatMap (fun k =>
    let bs := s.markBytes b k
    if bs.isEmpty then [] else [Reach.take k bs])

/-- They are in Mortar, and the scan begins. -/
def State.masksLeft (s : State) (b : Bool) : State := s.setSet b { s.set b with masked := true }

/-- A scan waits for mark masks, and the channel controllers can move them. -/
def State.masksDue (s : State) (b : Bool) : Bool :=
  s.scanning b && !s.scanRuns b && !s.tasked (.masksOut b) && s.serving && !s.plumb.esr && s.runs 1

/-- Mark masks that a scan waits for go. -/
def State.masksGo (s : State) (b : Bool) : State :=
  if s.masksDue b then
    let x := s.ksAccess (s.masksPlan b) 0 (.masksOut b)
    if x.2 then x.1 else x.1.masksLeft b
  else s

/-- The marks of the accumulators of HASHED groups that lie in a bank, in ascending order, 8 to a byte, as its unit needs them for a scan
(R20, R285; log 14). -/
def State.scanMarks (s : State) (b : Bool) (k : Nat) : List Byte :=
  let ms := s.hashedGroups.flatMap (fun e => (List.range e.2.n).filterMap (fun i =>
    if (e.2.arrLoc false .acc (b2n b) i).bank = k then
      some (bit (s.peekNat (e.2.arrLoc false .nf (b2n b) i) 1).1 (e.2.nfBit false i)) else none))
  (List.range (ceilDiv ms.length 8)).map (fun j =>
    BitVec.ofNat 8 (((ms.drop (8 * j)).take 8).foldr (fun m a => b2n m + 2 * a) 0))

/-- The set that the beds scan. -/
def State.scanSet (s : State) : Option Bool := [false, true].find? (fun b => s.scanRuns b)

/-- Chunks of 2 KiB of those marks, the chunk of a line of a bank's share, and the line after its last (log 14). -/
def State.markChunks (s : State) (b : Bool) (k : Nat) : Nat := ceilDiv (s.scanMarks b k).length 2048
def State.markChunkAt (s : State) (b : Bool) (k line : Nat) : Nat := line * s.markChunks b k / s.sweepShare k
def State.markChunkEnd (s : State) (b : Bool) (k line : Nat) : Nat :=
  ceilDiv ((s.markChunkAt b k line + 1) * s.sweepShare k) (s.markChunks b k)

/-- The use of row latch 1 that the scan of a bank needs at the line that it has come to, where it needs marks from other banks. -/
def State.maskUse (s : State) (k : Nat) : Option (Bool × LatchUse) :=
  match s.scanSet with
  | none => none
  | some b => if s.markChunks b k = 0 then none else some (b, .masks (s.set b).step (s.markChunkAt b k (s.bank k).passed.1))

/-- The marks that the scan of a bank needs next, in row latch 1 unless they stand there (R20, R285; log 14). -/
def State.feedMasks (s : State) (k : Nat) : State :=
  match s.maskUse k with
  | some (b, use) =>
    if ((s.bank k).latch true).use = use then s
    else s.putLatch k true use (((s.scanMarks b k).drop (2048 * s.markChunkAt b k (s.bank k).passed.1)).take 2048)
  | none => s

/-- What a bank's unit has formed of a group in a scan: its parts of SCAN_TOTAL, SSQ and MARKED, and its first marked element
(R285; log 62). -/
structure ScanPart where
  total  : BitVec 64
  ssq    : Nat
  marked : Nat
  first  : Option Nat
  deriving DecidableEq, Repr

def ScanPart.none : ScanPart := { total := 0, ssq := 0, marked := 0, first := .none }

def ScanPart.bytes (p : ScanPart) : List Byte :=
  leBytes 8 p.total.toNat ++ leBytes 24 p.ssq ++ leBytes 4 p.marked ++ leBytes 4 (p.first.getD 0xFFFFFFFF)

/-- The parts of a group, by the bank of its accumulators; the marks of a HASHED group are those that the bank's row latch 1 was given
(R20; log 14). -/
def State.scanParts (s : State) (b : Bool) (g : Group) : Sparse ScanPart :=
  let pl := s.gPlaced g
  (List.range g.n).foldl (fun (m : Sparse ScanPart) i =>
    let l := g.arrLoc pl .acc (b2n b) i
    let a := BitVec.ofNat 64 (s.peekNat l 8).1
    let mk := bit (s.peekNat (g.arrLoc pl .nf (b2n b) i) 1).1 (g.nfBit pl i)
    Sparse.upd ScanPart.none m l.bank (fun p =>
      let p := { p with total := p.total + a * BitVec.ofNat 64 (2 * (g.base + i) + 1) }
      if mk then { p with marked := p.marked + 1, first := match p.first with | some f => some f | none => some i }
      else { p with ssq := p.ssq + a.toInt.natAbs ^ 2 })) []

/-- The parts leave the units by way of row latch 0 and CXRD (R20, R285). -/
def State.scanPlan (s : State) (b : Bool) : List Reach :=
  s.groupList.flatMap (fun e =>
    let parts := s.scanParts b e.2
    (s.banksOf e.2).map (fun k => Reach.take k (Sparse.get ScanPart.none parts k).bytes))

/-- The parts of the scan are in: the values of R285, the result (R286), the scalars (R301), the seal record (R340) and SEALED. -/
def State.sealScan (s : State) (b : Bool) : State :=
  let x := s.set b
  let s := s.setSet b { x with arrival := x.contribs.foldl (fun a e => a + e.2.sum) 0, scan := 0, poisonAcc := 0, firstMarked := none }
  let s := s.groupList.foldl (fun s e => s.scanInto b e.1 e.2) s
  let s := (s.readKnots).scanReports.wroteRecord
  let x := s.set b
  (s.setSet b { x with result := x.resultOf, state := .isSealed, rec0 := true, rec1 := true,
                       scalars := s.groupList.map (fun e => (e.1, s.scalarsOf e.1 e.2 x.step)) }).irq .stepEvent

/-- SEAL_SCAN_DONE: the parts of the units' results are taken, at once or as their banks allow (R20, R111, R285). -/
def State.scanDone (s : State) (b : Bool) : State :=
  let x := s.ksAccess (s.scanPlan b) 0 (.scanEnd b)
  if x.2 then x.1 else x.1.sealScan b

/-! ### Leaving the hold -/

/-- Answers the seals that a set still holds NOT_READY (R66) and drops its staged lines. -/
def State.dropIntake (s : State) (b : Bool) : State :=
  let x := s.set b
  let s := x.seals.foldl (fun s h => s.errResp h.src h.tag fbNotReady) s
  let s := s.setSet b { x with seals := [], contribs := x.contribs.map (fun e =>
    if e.2.state = .held then (e.1, { e.2 with state := .notSealed }) else e) }
  { s with ctl := { s.ctl with staged := s.ctl.staged.filter (fun l => l.setB != b) } }

/-! ### Commands -/

/-- OPEN_STEP (R270 to R273, R324, R507). -/
def execOpenStep (hasp : Nat) (s : State) : Host.Outcome State Fault Refusal :=
  guard (decide (hasp < 16)) (s.runCommand hasp 0x08 (fun s => s.openStep hasp))

/-- SET_CLEAR_DONE: the clear of R273 has ended, once the beds of every bank have passed its share, and OPEN_STEP completes;
from then on what the beds pass is the scan's. -/
def execSetClearDone (s : State) : Host.Outcome State Fault Refusal :=
  .next (match s.mbox.active with
    | some h =>
      if s.wardenRuns && (s.hasp h).opcode == 8 && s.swept then
        let b := bit ((s.hasp h).pay 24 1) 0
        let s := s.clearIntake b
        ((s.setSet b { s.set b with clear := true }).newWork false).finish h .okay 0 []
      else s
    | none => s)

/-- ACCUM_CONTRIB (R275): the bank's unit adds in a context-0 course, so nothing drains without one (R278). -/
def execAccumContrib (bank : Nat) (s : State) : Host.Outcome State Fault Refusal :=
  guard (decide (bank < 4096)) (
    if s.serving && s.runs 1 && (match (s.bank bank).course with
      | some c => c.ctx == 0
      | none => false) then s.accumContrib bank else s)

/-- SEAL_RELEASE (R66, R282). -/
def execSealRelease (contrib : Nat) (s : State) : Host.Outcome State Fault Refusal :=
  .next (if s.serving then s.sealRelease contrib else s)

/-- DEADLINE_CLOSE (R284). -/
def execDeadlineClose (s : State) : Host.Outcome State Fault Refusal :=
  .next (if s.serving then s.deadlineClose else s)

/-- SEAL_SCAN_DONE (R285, R286, R340). -/
def execSealScanDone (s : State) : Host.Outcome State Fault Refusal :=
  .next (if !s.wardenRuns then s
    else if s.scanReady false then s.scanDone false
    else if s.scanReady true then s.scanDone true
    else s)

end Sys2Proof.Machine
end

