-- ==== Sys2Proof/Machine/Update.lean ====
section
/-!
DEFINITION. Updates: the rules of a group, its short weights, the undo journal of a LEAN group, and the runs of a step up
to UPDATED (R27, R29, R237 to R240, R303 to R319, R325, R333 to R340, R569).
-/

namespace Sys2Proof.Machine

/-! ### What an update works with -/

/-- A group under update: its number and entry, placement, intake set, scalars, step, seed, clip factor and loss-scale
exponent, the rows that are present and the clip of R311. -/
structure UCtx where
  n    : Nat
  g    : Group
  pl   : Bool
  b    : Bool
  sc   : Scalars
  t    : BitVec 64
  seed : BitVec 64
  clip : F32
  exp  : BitVec 8
  rows : List Nat
  /-- k_clip of the step, and whether it comes from a poisoned word (R179, R311). -/
  kClip : F32 × Bool
  deriving DecidableEq, Repr

def emptyScalars : Scalars :=
  { lr := 0, omb1 := 0, omb2 := 0, bc1 := 0, bc2 := 0, b1 := 0, b2 := 0, eps := 0, lam := 0, clipD := 0,
    rnd := 0, eLsb := 0, catchUp := false }

/-- maximumNumber of IEEE 754 against 1.0 (R311). -/
def f32MaxOne (x : F32) : F32 := if f32IsNan x then f32One else if f32Lt f32One x then x else f32One

/-- k_clip of a FACTORED group for step t: Q of the read slot when the update runs, CLIP_D as the seal result found it
(R297, R301, R311). -/
def Group.kClip (g : Group) (t : BitVec 64) (clipD : F32) : F32 × Bool :=
  let q := if t.toNat % 2 = 0 then g.qA else g.qB
  (f32MaxOne (f32Div (f32Sqrt (f32Div q.1 (f32OfInt g.n))) clipD), q.2)

/-- The context of group n in set b's step under a clip factor and an exponent. -/
def State.uctx (s : State) (b : Bool) (n : Nat) (g : Group) (clip : F32) (exp : BitVec 8) : UCtx :=
  let x := s.set b
  let sc := Sparse.get emptyScalars x.scalars n
  { n := n, g := g, pl := s.gPlaced g, b := b, sc := sc, t := x.step, seed := s.ctl.seed,
    clip := clip, exp := exp, rows := Sparse.get [] x.present n,
    kClip := if g.rule = 1 then g.kClip x.step sc.clipD else (f32One, false) }

def UCtx.rd (c : UCtx) : Nat := c.g.rdSlot c.t
def UCtx.wr (c : UCtx) : Nat := c.g.wrSlot c.t

/-- Placement row of an element. -/
def UCtx.rowOf (c : UCtx) (i : Nat) : Nat := i / c.g.width

/-- The update touches an element (R308, R314). -/
def UCtx.touches (c : UCtx) (i : Nat) : Bool := !c.g.sparse || c.rows.contains (c.rowOf i)

def UCtx.loc (c : UCtx) (a : Arr) (slot i : Nat) : Loc := c.g.arrLoc c.pl a slot i

/-- The gradient of an element, and whether a word it comes from is poisoned (R247, R303). -/
def State.gradOf (s : State) (c : UCtx) (i : Nat) : F32 × Bool :=
  let a := s.peekNat (c.loc .acc (b2n c.b) i) 8
  let m := s.peekNat (c.loc .nf (b2n c.b) i) 1
  let g0 := accF32 (BitVec.ofNat 64 a.1) c.sc.eLsb c.exp.toInt
  (if bit m.1 (c.g.nfBit c.pl i) then 0 else f32Mul g0 c.clip, a.2 || m.2)

/-- A stored moment decoded to FP32 (R228, R304). -/
def State.momentOf (s : State) (c : UCtx) (first : Bool) (i : Nat) : F32 × Bool :=
  let a := if first then Arr.m else Arr.v
  let fmt := if first then c.g.mFmt else c.g.vFmt
  let v := s.peekNat (c.loc a c.rd i) (momBytes fmt)
  if fmt = 0 then (f32Of (fmtBf16.decode v.1), v.2)
  else if fmt = 1 then (BitVec.ofNat 32 v.1, v.2)
  else
    let sc := s.peekNat (c.loc (if first then .mScale else .vScale) c.rd (i / 64)) 4
    (q8Decode first (BitVec.ofNat 8 v.1) (BitVec.ofNat 32 sc.1), v.2 || sc.2)

/-- The stored master pair of an element. -/
def State.pairOf (s : State) (c : UCtx) (slot i : Nat) : (F32 × BitVec 16) × Bool :=
  let h := s.peekNat (c.loc .head slot i) 4
  let t := s.peekNat (c.loc .tail slot i) 2
  ((BitVec.ofNat 32 h.1, BitVec.ofNat 16 t.1), h.2 || t.2)

/-- RCNT of a row. -/
def State.rcntOf (s : State) (c : UCtx) (u : Nat) : Nat × Bool := s.peekNat (c.loc .rcnt 0 u) 4

/-- RLAST of a row. -/
def State.rlastOf (s : State) (c : UCtx) (u : Nat) : Nat × Bool := s.peekNat (c.loc .rlast 0 u) 4

/-! ### The rules -/

/-- What the update of one element yields: the new pair, the new moments in FP32, and what a poisoned input reaches
(R179). -/
structure UElem where
  i    : Nat
  h    : F32
  tl   : BitVec 16
  m    : F32
  v    : F32
  badH : Bool
  badM : Bool
  badV : Bool
  deriving DecidableEq, Repr

/-- The pair after catch-up decay (R315). -/
def State.decayed (s : State) (c : UCtx) (i : Nat) (p : (F32 × BitVec 16) × Bool) : (F32 × BitVec 16) × Bool :=
  if c.sc.catchUp ∧ c.g.sparse then
    let l := s.rlastOf c (c.rowOf i)
    let k := (c.t.toNat % 2 ^ 32 + 2 ^ 32 - l.1 + 2 ^ 32 - 1) % 2 ^ 32
    if k = 0 then (p.1, p.2 || l.2)
    else
      let f := f32Pow (f32Sub f32One (f32Mul c.sc.lr c.sc.lam)) k
      let dc := f32Mul (f32Sub f32One f) p.1.1
      (pairAdd p.1.1 p.1.2 (f32Neg dc), p.2 || l.2)
  else p

/-- bc1 and bc2 of an element: of its row in a sparse group (R302, R308). -/
def State.biasOf (s : State) (c : UCtx) (i : Nat) : (F32 × F32) × Bool :=
  if c.g.sparse then
    let r := s.rcntOf c (c.rowOf i)
    ((f32Sub f32One (f32Pow c.sc.b1 (r.1 + 1)), f32Sub f32One (f32Pow c.sc.b2 (r.1 + 1))), r.2)
  else ((c.sc.bc1, c.sc.bc2), false)

/-- The step quantity d = lr × (λ h + r) taken off the pair (R305). -/
def UCtx.descend (c : UCtx) (p : F32 × BitVec 16) (r : F32) : F32 × BitVec 16 :=
  pairAdd p.1 p.2 (f32Neg (f32Mul c.sc.lr (f32Fma c.sc.lam p.1 r)))

/-- ADAMW (R306). -/
def State.adamw (s : State) (c : UCtx) (i : Nat) : UElem :=
  let g := s.gradOf c i
  let p := s.decayed c i (s.pairOf c c.rd i)
  let m0 := s.momentOf c true i
  let v0 := s.momentOf c false i
  let bc := s.biasOf c i
  let m1 := f32Fma c.sc.b1 m0.1 (f32Mul c.sc.omb1 g.1)
  let v1 := f32Fma c.sc.b2 v0.1 (f32Mul c.sc.omb2 (f32Mul g.1 g.1))
  let den := f32Add (f32Sqrt (f32Div v1 bc.1.2)) c.sc.eps
  let q := c.descend p.1 (f32Div (f32Div m1 bc.1.1) den)
  { i := i, h := q.1, tl := q.2, m := m1, v := v1, badH := g.2 || p.2 || m0.2 || v0.2 || bc.2, badM := g.2 || m0.2, badV := g.2 || v0.2 }

/-- MOMENTUM (R313). -/
def State.momentum (s : State) (c : UCtx) (i : Nat) : UElem :=
  let g := s.gradOf c i
  let p := s.decayed c i (s.pairOf c c.rd i)
  let m0 := s.momentOf c true i
  let m1 := f32Fma c.sc.b1 m0.1 g.1
  let st := if c.g.nesterov then f32Fma c.sc.b1 m1 g.1 else m1
  let q := c.descend p.1 st
  { i := i, h := q.1, tl := q.2, m := m1, v := 0, badH := g.2 || p.2 || m0.2, badM := g.2 || m0.2, badV := false }

/-- uu of a FACTORED group, the unclipped update (R310). -/
def State.factoredUu (s : State) (c : UCtx) (i : Nat) : F32 × Bool :=
  let g := s.gradOf c i
  let r := Sparse.get (0, false) c.g.rStage (i / c.g.cols)
  let k := Sparse.get (0, false) c.g.cStage (i % c.g.cols)
  let vh := f32Div (f32Mul r.1 k.1) c.g.meanR.1
  (f32Div g.1 (f32Sqrt vh), g.2 || r.2 || k.2 || c.g.meanR.2)

/-- FACTORED, pass 2 (R310). -/
def State.factored (s : State) (c : UCtx) (i : Nat) : UElem :=
  let u := s.factoredUu c i
  let uc := f32Div u.1 c.kClip.1
  let bad := u.2 || c.kClip.2
  let p := s.pairOf c c.rd i
  let m0 := if c.g.firstMoment then s.momentOf c true i else (0, false)
  let m1 := f32Fma c.sc.b1 m0.1 (f32Mul c.sc.omb1 uc)
  let q := c.descend p.1 (if c.g.firstMoment then m1 else uc)
  { i := i, h := q.1, tl := q.2, m := m1, v := 0, badH := bad || p.2 || m0.2, badM := bad || m0.2, badV := false }

/-- The update of an element under its group's rule. -/
def State.updElem (s : State) (c : UCtx) (i : Nat) : UElem :=
  if c.g.rule = 0 then s.adamw c i else if c.g.rule = 1 then s.factored c i else s.momentum c i

/-! ### Storing results -/

/-- Adds bytes at a location of a group's arrays. -/
def State.putAt (s : State) (m : Sparse WordWrite) (l : Loc) (bad : Bool) (bs : List Byte) : Sparse WordWrite :=
  s.addBytes (fun o => { l with byte := l.byte + o }) m 0 bad true bs

/-- The Tumbler block of an element in a stream (R237). -/
def UCtx.draw (c : UCtx) (stream : BitVec 64) (t : BitVec 64) (i : Nat) : TBlock := tumbler c.seed stream t (groupIndex c.n i)

/-- The MOMENT word of a moment. -/
def UCtx.momWord (c : UCtx) (first : Bool) (i : Nat) : BitVec 32 :=
  let t := c.draw streamMoment c.t i
  if first then t.w0 else t.w1

/-- Blocks of a size that hold an updated element, ascending. -/
def blocksOf (size : Nat) (es : List UElem) : List Nat := (es.map (fun e => e.i / size)).foldl (fun l k => insertRow k l) []

/-- Indices of a block inside the group. -/
def UCtx.blockElems (c : UCtx) (size k : Nat) : List Nat := (List.range (min size (c.g.n - size * k))).map (fun j => size * k + j)

/-- Writes a moment of the updated elements (R304, R228, R569). -/
def State.putMoment (s : State) (c : UCtx) (first : Bool) (es : List UElem) (m : Sparse WordWrite) : Sparse WordWrite :=
  let a := if first then Arr.m else Arr.v
  let fmt := if first then c.g.mFmt else c.g.vFmt
  let mode := momentMode c.sc.rnd
  let y (e : UElem) : F32 := if first then e.m else e.v
  let bad (e : UElem) : Bool := if first then e.badM else e.badV
  if fmt = 2 then
    (blocksOf 64 es).foldl (fun m k =>
      let vals := (c.blockElems 64 k).map (fun i => match es.find? (fun e => e.i == i) with
        | some e => (i, y e, bad e)
        | none => let o := s.momentOf c first i; (i, o.1, o.2))
      let q := q8Encode first mode (vals.map (fun v => (v.2.1, c.momWord first v.1)))
      let b := vals.any (·.2.2)
      let m := (List.zip vals q.1).foldl (fun m v => s.putAt m (c.loc a c.wr v.1.1) b [v.2]) m
      s.putAt m (c.loc (if first then .mScale else .vScale) c.wr k) b (leBytes 4 q.2.toNat)) m
  else
    es.foldl (fun m e => s.putAt m (c.loc a c.wr e.i) (bad e)
      (if fmt = 0 then leBytes 2 (fmtBf16.narrow mode (c.momWord first e.i) (f32Num (y e))) else leBytes 4 (y e).toNat)) m

/-- Location of a byte of a Coffer version (R318). -/
def State.cofferLoc (s : State) (g : Group) (v off : Nat) : Loc :=
  match s.region g.cfReg with
  | some r => r.loc (g.versionOff v + off)
  | none => quoin (g.versionOff v + off)

/-- Short weights from pairs, with step value t, each with its offset in the version and its poison: the elements listed and,
in an MX format, every element of a block that holds one of them (R224 to R227, R240, R318, R569). -/
def State.weightPieces (s : State) (c : UCtx) (t : BitVec 64) (slot : Nat) (es : List UElem) : List (Nat × Bool × List Byte) :=
  let f := c.g.fmt
  let mode := weightMode c.sc.rnd
  if c.g.mx then
    (blocksOf 32 es).flatMap (fun k =>
      let vals := (c.blockElems 32 k).map (fun i => match es.find? (fun e => e.i == i) with
        | some e => (i, pairNum e.h e.tl, e.badH)
        | none => let p := s.pairOf c slot i; (i, pairNum p.1.1 p.1.2, p.2))
      let q := mxEncode f mode (vals.map (fun x => (x.2.1, (c.draw streamWeight t x.1).w0)))
      let b := vals.any (·.2.2)
      let word := q.2.foldr (fun code acc => code + 2 ^ f.width * acc) 0
      [(4 * f.width * k, b, leBytes (4 * f.width) word), (c.g.cofferElemBytes + k, b, [BitVec.ofNat 8 q.1])])
  else
    es.map (fun e =>
      (e.i * (f.width / 8), e.badH, leBytes (f.width / 8) (f.narrow mode (c.draw streamWeight t e.i).w0 (pairNum e.h e.tl))))

/-- Writes short weights of version v into its Coffer slot. -/
def State.putWeights (s : State) (c : UCtx) (v : Nat) (ps : List (Nat × Bool × List Byte)) : Sparse WordWrite :=
  ps.foldl (fun m p => s.addBytes (fun o => s.cofferLoc c.g v (p.1 + o)) m 0 p.2.1 true p.2.2) []

/-- Writes the pairs and moments of the updated elements. -/
def State.putState (s : State) (c : UCtx) (es : List UElem) : Sparse WordWrite :=
  let m := es.foldl (fun m e => s.putAt m (c.loc .head c.wr e.i) e.badH (leBytes 4 e.h.toNat)) []
  let m := es.foldl (fun m e => s.putAt m (c.loc .tail c.wr e.i) e.badH (leBytes 2 e.tl.toNat)) m
  let m := if c.g.hasM then s.putMoment c true es m else m
  if c.g.hasV then s.putMoment c false es m else m

/-- Writes RCNT and RLAST of rows that are complete (R308, R315; log 25). -/
def State.putRows (s : State) (c : UCtx) (rows : List Nat) (m : Sparse WordWrite) : Sparse WordWrite :=
  rows.foldl (fun m u =>
    let m := if c.g.rule = 0 then
        let r := s.rcntOf c u
        s.putAt m (c.loc .rcnt 0 u) r.2 (leBytes 4 (min (r.1 + 1) 0xFFFFFFFF))
      else m
    s.putAt m (c.loc .rlast 0 u) false (leBytes 4 (c.t.toNat % 2 ^ 32))) m

/-- Who updates: the Corbel unit of the bank, or a Keystone leaf (R187; log 11). -/
def State.updWho (s : State) (c : UCtx) (bank : Nat) : Who :=
  if c.g.corbel then { src := 1, agent := 64 + bank } else { src := 7, agent := 32 + (Config.leaf s.free).toNat }

/-- Counts the outcomes of input words, each for the unit or the leaf that reads it (R176, R187). -/
def State.accountUpd (s : State) (c : UCtx) (ps : Sparse Place) : State :=
  ps.foldl (fun s e => (s.readPlace (s.updWho c (match e.2.site with
    | .unit k => k
    | _ => 0)) e.2).2) s

/-- What the units of banks have counted reaches their channels (R186). -/
def State.unitReports (s : State) (c : UCtx) (ks : List Nat) : State :=
  if c.g.corbel then ks.foldl (fun s k => s.unitReport k) s else s

/-- Adds an input word, with the counters that its check goes to. -/
def State.addInput (s : State) (c : UCtx) (m : Sparse Place) (l : Loc) : Sparse Place :=
  let p := s.locPlace l false
  Sparse.put p.word (if c.g.corbel then { p with site := .unit l.bank } else p) m

/-- Blocks of a size that hold one of some elements, ascending. -/
def blocksIn (size : Nat) (is : List Nat) : List Nat := is.foldl (fun l i => insertRow (i / size) l) []

/-- Elements of those blocks. -/
def UCtx.blockMates (c : UCtx) (size : Nat) (is : List Nat) : List Nat := (blocksIn size is).flatMap (c.blockElems size)

/-- The words that are read besides, for the elements of a Q8 or MX block that the update leaves alone (R569). -/
def State.mateWords (s : State) (c : UCtx) (is : List Nat) (m : Sparse Place) : Sparse Place :=
  let m := if c.g.hasM && c.g.mFmt == 2 then (c.blockMates 64 is).foldl (fun m i => s.addInput c m (c.loc .m c.rd i)) m else m
  let m := if c.g.hasV && c.g.vFmt == 2 then (c.blockMates 64 is).foldl (fun m i => s.addInput c m (c.loc .v c.rd i)) m else m
  if c.g.mx then ((c.blockMates 32 is).filter (fun i => !is.contains i)).foldl (fun m i =>
    s.addInput c (s.addInput c m (c.loc .head c.wr i)) (c.loc .tail c.wr i)) m else m

/-- Input words of elements. -/
def State.updWords (s : State) (c : UCtx) (is : List Nat) : Sparse Place :=
  let add := s.addInput c
  s.mateWords c is (is.foldl (fun m i =>
    let m := add (add (add (add m (c.loc .acc (b2n c.b) i)) (c.loc .nf (b2n c.b) i)) (c.loc .head c.rd i)) (c.loc .tail c.rd i)
    let m := if c.g.hasM then add m (c.loc .m c.rd i) else m
    let m := if c.g.hasM && c.g.mFmt == 2 then add m (c.loc .mScale c.rd (i / 64)) else m
    let m := if c.g.hasV then add m (c.loc .v c.rd i) else m
    let m := if c.g.hasV && c.g.vFmt == 2 then add m (c.loc .vScale c.rd (i / 64)) else m
    let m := if c.g.sparse then add m (c.loc .rlast 0 (c.rowOf i)) else m
    if c.g.sparse && c.g.rule == 0 then add m (c.loc .rcnt 0 (c.rowOf i)) else m) [])

/-- Counts results in the step report: NONFINITE_STATE and STATE_POISON (R316, R343). -/
def State.countRun (s : State) (c : UCtx) (nonfin poison : Nat) : State :=
  let x := s.set c.b
  let r := Sparse.get emptyReport x.groups c.n
  s.setSet c.b { x with groups := Sparse.put c.n { r with nfState := satAdd r.nfState nonfin, poison := satAdd r.poison poison } x.groups }

/-- The short weights that an update of elements writes, as a Corbel unit leaves them in row latch 0 (R317). -/
def State.weightBytes (s : State) (c : UCtx) (is : List Nat) : List Byte :=
  (s.weightPieces c c.t c.wr ((is.filter c.touches).map (fun i => s.updElem c i))).flatMap (·.2.2)

/-- Updates elements of a group: reads, unless its words have been read and counted before (`seen`), rules, state writes and short
weights of version t + 1; the listed rows are then complete, and so are the listed RSTAT words (R303 to R318). -/
def State.updElems (s : State) (c : UCtx) (bank : Nat) (seen : Bool) (is rows rstat : List Nat) : State :=
  let es := (is.filter c.touches).map (fun i => s.updElem c i)
  let words := s.updWords c (es.map (·.i))
  let m := s.putRows c rows (s.putState c es)
  let m := rstat.foldl (fun m u =>
    let r := Sparse.get (0, false) c.g.rStage u
    s.putAt m (c.loc .rstat c.wr u) r.2 (leBytes 4 r.1.toNat)) m
  let ps := s.weightPieces c c.t c.wr es
  let w := s.putWeights c (c.t.toNat + 1) ps
  let who := s.updWho c bank
  let s1 := if seen then s else s.accountUpd c words
  let s2 := { s1 with free := s1.free + 1 }
  let r := s2.flush who true c.g.corbel (fun w => seen || words.any (fun e => e.1 == w)) m
  let r2 := r.1.flush who false false (fun _ => false) w
  (r2.1.countRun c (es.filter (fun e => !f32IsFin e.h)).length r.2).unitReports c [bank]

/-! ### FACTORED statistics (R309 to R311) -/

/-- Banks that hold rows, and the rows of bank k. -/
def Group.rowBanks (g : Group) : List Nat := List.range (min 4096 g.rows)
def Group.bankRows (g : Group) (k : Nat) : List Nat := (List.range (ceilDiv (g.rows - k) 4096)).map (fun j => k + 4096 * j)

/-- The reduction over rows of values indexed by row number (R235). -/
def Group.rowTotal (g : Group) (v : Nat → F32) : F32 := totalOf (g.rowBanks.map (fun k => bankPartial ((g.bankRows k).map v)))

/-- s_ij (R309). -/
def State.factoredSq (s : State) (c : UCtx) (i j : Nat) : F32 × Bool :=
  let g := s.gradOf c (i * c.g.cols + j)
  (f32Fma g.1 g.1 c.sc.eps, g.2)

/-- R_i as committed. -/
def State.rstatOf (s : State) (c : UCtx) (u : Nat) : F32 × Bool :=
  let v := s.peekNat (c.loc .rstat c.rd u) 4
  (BitVec.ofNat 32 v.1, v.2)

/-- C_j as committed (R341). -/
def UCtx.colOf (c : UCtx) (j : Nat) : F32 × Bool := Sparse.get (0, false) (if c.t.toNat % 2 = 0 then c.g.colA else c.g.colB) j

/-- R_i' (R309). -/
def State.newRow (s : State) (c : UCtx) (i : Nat) : F32 × Bool :=
  let ss := (List.range c.g.cols).map (fun j => s.factoredSq c i j)
  let r := s.rstatOf c i
  let rho := bankPartial (ss.map (·.1))
  (f32Fma c.sc.b2 r.1 (f32Mul c.sc.omb2 (f32Div rho (f32OfInt c.g.cols))), r.2 || ss.any (·.2))

/-- C_j' (R309). -/
def State.newCol (s : State) (c : UCtx) (j : Nat) : F32 × Bool :=
  let parts := c.g.rowBanks.map (fun k => (c.g.bankRows k).map (fun i => s.factoredSq c i j))
  let kap := totalOf (parts.map (fun p => bankPartial (p.map (·.1))))
  let o := c.colOf j
  (f32Fma c.sc.b2 o.1 (f32Mul c.sc.omb2 (f32Div kap (f32OfInt c.g.rows))), o.2 || parts.any (fun p => p.any (·.2)))

/-- Values 0 to n − 1 as a map without default entries. -/
def tabulate (n : Nat) (f : Nat → F32 × Bool) : Sparse (F32 × Bool) :=
  ((List.range n).map (fun i => (i, f i))).filter (fun e => e.2 != (0, false))

/-- The column partials of a bank, which it sends into Mortar through row latch 0, 512 columns at a time (R309, R312). -/
def State.colPartials (s : State) (c : UCtx) (k : Nat) : List Byte :=
  (List.range c.g.cols).flatMap (fun j => leBytes 4 (bankPartial ((c.g.bankRows k).map (fun i => (s.factoredSq c i j).1))).toNat)

/-- A bank's part of meanR: its R_i' in ascending row order (R309). -/
def State.rowPartial (s : State) (c : UCtx) (k : Nat) : List Byte :=
  leBytes 4 (bankPartial ((c.g.bankRows k).map (fun u => (s.newRow c u).1))).toNat

/-- Elements of its list that a bank of a SAFE Corbel group has updated once its beds have passed lines of the group: whole blocks of
32, the rest with the last line (R225, R317; log 28). -/
def UCtx.doneAt (c : UCtx) (n line : Nat) : Nat := if 16 * c.g.slabs ≤ line then n else n * line / (16 * c.g.slabs) / 32 * 32

/-- What leaves the units in pass 1 through row latch 0 (R20, R312). -/
def State.pass1Plan (s : State) (c : UCtx) : List Reach := c.g.rowBanks.map (fun k => .take k (s.colPartials c k ++ s.rowPartial c k))

/-- Pass 1: R_i', C_j' and meanR. A SAFE group writes R_i' into the write slot of RSTAT; both kinds write C_j' into the
statistics area of epoch t + 1 (R309, R338, R341). -/
def State.pass1 (s : State) (c : UCtx) : State :=
  let r := tabulate c.g.rows (s.newRow c)
  let k := tabulate c.g.cols (s.newCol c)
  let rv (u : Nat) : F32 × Bool := Sparse.get (0, false) r u
  let mean := (f32Div (c.g.rowTotal (fun u => (rv u).1)) (f32OfInt c.g.rows), r.any (·.2.2))
  let g := { c.g with rStage := r, cStage := k, meanR := mean, pass1 := c.g.lean }
  let g : Group := if c.t.toNat % 2 = 0 then { g with colB := k } else { g with colA := k }
  let add (m : Sparse Place) (l : Loc) : Sparse Place :=
    Sparse.put (s.locPlace l false).word { s.locPlace l false with site := .unit l.bank } m
  let words := (List.range c.g.n).foldl (fun m i => add (add m (c.loc .acc (b2n c.b) i)) (c.loc .nf (b2n c.b) i)) []
  let words := (List.range c.g.rows).foldl (fun m u => add m (c.loc .rstat c.rd u)) words
  let s1 := s.accountUpd c words
  let s2 := if c.g.lean then s1
    else c.g.rowBanks.foldl (fun s1 k =>
      let m := (c.g.bankRows k).foldl (fun m u => s.putAt m (c.loc .rstat c.wr u) (rv u).2 (leBytes 4 (rv u).1.toNat)) []
      let x := s1.flush (s.updWho c k) true true (fun w => words.any (fun e => e.1 == w)) m
      x.1.countRun c 0 x.2) s1
  (s2.wroteRecord.setGroup c.n (some g)).unitReports c c.g.rowBanks

/-- A bank's part of Q: the row sums of its rows (R310). -/
def State.qPartial (s : State) (c : UCtx) (k : Nat) : List Byte :=
  let uu (u j : Nat) : F32 := (s.factoredUu c (u * c.g.cols + j)).1
  leBytes 4 (bankPartial ((c.g.bankRows k).map (fun u => bankPartial ((List.range c.g.cols).map (fun j => f32Mul (uu u j) (uu u j)))))).toNat

/-- Q of pass 2: the sum of uu² over rows of row sums (R310), stored in the statistics area of epoch t + 1. -/
def State.storeQ (s : State) (c : UCtx) : State :=
  let uu (u j : Nat) : F32 × Bool := s.factoredUu c (u * c.g.cols + j)
  let q := (c.g.rowTotal (fun u => bankPartial ((List.range c.g.cols).map (fun j => f32Mul (uu u j).1 (uu u j).1))),
    (List.range c.g.rows).any (fun u => (List.range c.g.cols).any (fun j => (uu u j).2)))
  match s.group c.n with
  | some g => s.wroteRecord.setGroup c.n (some (if c.t.toNat % 2 = 0 then { g with qB := q } else { g with qA := q }))
  | none => s

/-! ### SAFE groups -/

/-- Banks and elements of a group's whole update: one list for each Corbel bank, or one list for the Keystone engine. -/
def UCtx.shares (c : UCtx) : List (Nat × List Nat) :=
  if c.g.corbel then
    (List.range (min 4096 c.g.pRows)).map (fun k =>
      (k, ((List.range (ceilDiv (c.g.pRows - k) 4096)).map (fun j =>
        (List.range (c.g.rowLen (k + 4096 * j))).map (fun i => (k + 4096 * j) * c.g.width + i))).flatten))
  else [(0, List.range c.g.n)]

/-- Runs a SAFE group whole into the uncommitted slot (R297, R333). -/
def State.runSafe (s : State) (b : Bool) (r : Run) (n : Nat) (g : Group) : State :=
  let c := s.uctx b n g r.clip r.exp
  let s := c.shares.foldl (fun s e => s.updElems c e.1 false e.2 [] []) s
  let s := if g.rule = 1 then s.storeQ c else s
  match s.group n with
  | some g' => s.setGroup n (some { g' with undef := false, cofUndef := false })
  | none => s

/-! ### LEAN units and the journal (R335 to R339) -/

/-- Bytes of the arrays that a unit's update writes, each from a line on (R336). -/
def UCtx.unitArrays (c : UCtx) (unit : Nat) : List (Arr × List Nat) :=
  let es := (c.g.unitElems unit).filter c.touches
  let blocks := es.foldl (fun l i => insertRow (i / 64) l) []
  let rows := es.foldl (fun l i => insertRow (c.rowOf i) l) []
  let lastOf := c.g.rule == 1 && decide (ceilDiv (c.g.rowLen (unit / 512)) 512 = unit % 512 + 1)
  let q (first : Bool) : Bool := (if first then c.g.mFmt else c.g.vFmt) == 2
  let whole (first : Bool) : List Nat := if q first then (blocks.map (c.blockElems 64)).flatten else es
  [(Arr.head, es), (Arr.tail, es)] ++
  (if c.g.hasM then [(Arr.m, whole true)] ++ (if q true then [(Arr.mScale, blocks)] else []) else []) ++
  (if c.g.hasV then [(Arr.v, whole false)] ++ (if q false then [(Arr.vScale, blocks)] else []) else []) ++
  (if lastOf then [(Arr.rstat, [unit / 512])] else []) ++
  (if c.g.sparse && c.g.rule == 0 then [(Arr.rcnt, rows)] else []) ++
  (if c.g.sparse then [(Arr.rlast, rows)] else [])

/-- Word numbers of elements of arrays in a slot. -/
def State.arrayWords (s : State) (c : UCtx) (slot : Nat) (arrs : List (Arr × List Nat)) : List Nat :=
  (arrs.foldl (fun m a => a.2.foldl (fun m i => s.addWord m (c.loc a.1 slot i)) m) []).map (·.1)

/-- Word numbers of the state words that a unit's update writes. -/
def State.unitWords (s : State) (c : UCtx) (unit : Nat) : List Nat := s.arrayWords c 0 (c.unitArrays unit)

/-- Elements of a unit that its update touches. -/
def UCtx.unitTouched (c : UCtx) (unit : Nat) : List Nat := (c.g.unitElems unit).filter c.touches

/-- The words that are read as a unit starts: its old words by the bank's unit, and by a leaf its inputs too (R20, R336, R337). -/
def State.startWords (s : State) (c : UCtx) (unit : Nat) : Sparse Place :=
  (c.unitArrays unit).foldl (fun m a => a.2.foldl (fun m i => s.addInput c m (c.loc a.1 0 i)) m)
    (if c.g.corbel then [] else s.updWords c (c.unitTouched unit))

/-- Word numbers of the Coffer words that the short weights of elements stand in (R318). -/
def State.cofferWords (s : State) (c : UCtx) (v : Nat) (is : List Nat) : List Nat :=
  let word (off : Nat) : Nat := (s.locPlace (s.cofferLoc c.g v off) false).word
  let w := c.g.fmt.width
  wordUnion [if c.g.mx then (blocksIn 32 is).flatMap (fun k => [word (4 * w * k), word (4 * w * k + 4 * w - 1), word (c.g.cofferElemBytes + k)])
    else is.map (fun i => word (i * (w / 8)))]

/-- Length of a unit's journal entry with its header (R336). -/
def UCtx.entryBytes (c : UCtx) (unit : Nat) : Nat :=
  (c.unitArrays unit).foldl (fun t a => t + roundUp 128 (a.2.length * c.g.elemBytes a.1)) 0

/-- Bytes of the Mortar journal area and of its backing (R136, R568). -/
def journalSize : Nat := 4 * 2 ^ 20

/-- Where a new entry of a length stands: the lowest place that is free (R339; log 35). -/
def StepCtl.journalFit (c : StepCtl) (bytes : Nat) : Option Nat :=
  firstFit 0 journalSize (64 + bytes) (c.journal.map (fun e => (e.at_, 64 + e.bytes))) id

/-- The word at an offset of the journal area in Mortar, and of its backing in the system area (log 35). -/
def journalPlace (off : Nat) : Place := mortarPlace (0x1300000 + off)
def State.backingPlace (s : State) (off : Nat) : Place := s.locPlace (quoin (9212 * slabSize + off)) false

/-- The payload of a unit's entry by location: for each array its elements' places and length, then the pad to a line
(R336). -/
def UCtx.payload (c : UCtx) (unit : Nat) : List (Option Loc × Nat) :=
  ((c.unitArrays unit).map (fun a =>
    let n := c.g.elemBytes a.1
    let pad := roundUp 128 (a.2.length * n) - a.2.length * n
    a.2.map (fun i => (some (c.loc a.1 0 i), n)) ++ (if pad = 0 then [] else [(none, pad)]))).flatten

/-- The 64 B header of an entry (R336). -/
def UCtx.header (c : UCtx) (unit : Nat) : List Byte :=
  leBytes 2 c.n ++ leBytes 1 (b2n c.g.corbel) ++ [0] ++ leBytes 4 unit ++ leBytes 8 c.t.toNat ++ leBytes 4 (c.entryBytes unit) ++
  List.replicate 44 0

/-- The bytes of an entry with the poison of the words they come from (R179, R336). -/
def State.entryImage (s : State) (c : UCtx) (unit : Nat) : List (Byte × Bool) :=
  (c.header unit).map (fun b => (b, false)) ++
  ((c.payload unit).map (fun e => match e.1 with
    | some l => let v := s.peekNat l e.2; (leBytes e.2 v.1).map (fun b => (b, v.2))
    | none => List.replicate e.2 (0, false))).flatten

/-- Bytes as Bond words; a word with a poisoned byte is poisoned. -/
def imageWords (bs : List (Byte × Bool)) : List (BondData × Bool) :=
  (List.range (ceilDiv bs.length 16)).map (fun i =>
    let w := (bs.drop (16 * i)).take 16
    (BitVec.ofNat 128 (leNat (w.map (·.1))), w.any (·.2)))

/-- Words of the backing that an entry takes. -/
def State.backingWords (s : State) (at_ bytes : Nat) : List Nat :=
  wordUnion [(List.range (ceilDiv (64 + bytes) 16)).map (fun i => (s.backingPlace (at_ + 16 * i)).word)]

/-- The journal entry of a unit at a place: its words in Mortar and in the backing, and its line in the journal (R336,
R337). -/
def State.journalPut (s : State) (c : UCtx) (unit at_ : Nat) : State :=
  let ws := imageWords (s.entryImage c unit)
  let put (place : Nat → Place) : List (Place × BondData × Bool) :=
    (List.zip (List.range ws.length) ws).map (fun e => (place (at_ + 16 * e.1), e.2))
  let s := (s.writePlaces (put journalPlace)).writePlaces (put s.backingPlace)
  { s with ctl := { s.ctl with journal := s.ctl.journal ++
    [{ group := c.n, unit := unit, step := c.t, bytes := c.entryBytes unit, at_ := at_ }] } }

/-- Writes the payload of an entry, read from the backing, back over the unit's state words (R349, R356). -/
def State.undo (s : State) (c : UCtx) (e : JEntry) : State :=
  let s := (s.moveWords false (s.backingWords e.at_ e.bytes)).moveWords true (s.unitWords c e.unit)
  let (vs, s) := s.readPlaces { src := 0, agent := agentWarden } ((List.range ((64 + e.bytes) / 16)).map (fun i => s.backingPlace (e.at_ + 16 * i)))
  let bs := (vs.map (fun v => (leBytes 16 v.1.toNat).map (fun b => (b, v.2)))).flatten.drop 64
  let m := (c.payload e.unit).foldl (fun (a : Sparse WordWrite × List (Byte × Bool)) p =>
    let here := a.2.take p.2
    (match p.1 with
     | some l => s.putAt a.1 l (here.any (·.2)) (here.map (·.1))
     | none => a.1, a.2.drop p.2)) ([], bs)
  (s.flush { src := 0, agent := agentWarden } true false (fun _ => false) m.1).1

/-- The step that runs after a recorded verdict, with its set. -/
def State.leanRun (s : State) : Option (Bool × Run) :=
  let go (b : Bool) : Option (Bool × Run) :=
    if (s.set b).held ∧ (s.set b).state = .updating then
      match (s.set b).run with
      | some r => if r.spec then none else some (b, r)
      | none => none
    else none
  match go false with
  | some x => some x
  | none => go true

/-- A unit number that the group has. -/
def Group.hasUnit (g : Group) (unit : Nat) : Bool :=
  if g.corbel then decide (unit / 512 < g.pRows) && decide (unit % 512 < ceilDiv (g.rowLen (unit / 512)) 512) else decide (unit < g.units)

/-- The unit has an entry in the journal. -/
def State.inJournal (s : State) (n unit : Nat) : Bool := s.ctl.journal.any (fun e => e.group == n && e.unit == unit)

/-- The engine of a unit works: a Corbel unit within a course of context 1, the Keystone leaves with sectors left (R194,
R437). -/
def State.unitReaches (s : State) (c : UCtx) (unit : Nat) : Bool :=
  if c.g.corbel then (match (s.bank (unit / 512 % 4096)).course with
    | some x => x.ctx == 1
    | none => false)
  else s.ksLeft

/-- What Crety moves as a unit starts: a leaf reads the unit's inputs and old words, and the entry goes to its backing (R203,
R337). -/
def State.startAccess (s : State) (c : UCtx) (unit at_ : Nat) : List (Bool × List Nat) :=
  [(false, if c.g.corbel then [] else (s.startWords c unit).map (·.1)),
   (true, s.backingWords at_ (c.entryBytes unit))]

/-- What Crety moves as a unit ends: a leaf's results, and the short weights, which go to the Coffer through the channel
controllers (R203, R317). -/
def State.doneAccess (s : State) (c : UCtx) (unit : Nat) : List (Bool × List Nat) :=
  [(true, wordUnion [if c.g.corbel then [] else s.unitWords c unit, s.cofferWords c (c.t.toNat + 1) (c.unitTouched unit)])]

/-- Sectors of an access that count against the Keystone allowance (R437). -/
def UCtx.sectors (c : UCtx) (acc : List (Bool × List Nat)) : Nat := if c.g.corbel then 0 else (acc.map (fun a => ksSectorsOf a.2)).sum

/-- The bank of a bank stone (R335). -/
def unitBank (unit : Nat) : Nat := unit / 512 % 4096

/-- What a unit reads as it starts is counted (R176, R186, R187). -/
def State.accountStart (s : State) (c : UCtx) (unit : Nat) : State :=
  let t := (s.accountUpd c (s.startWords c unit)).unitReports c [unitBank unit]
  { t with free := t.free + 1 }

/-- The old words of a unit have been read, and its journal entry is written, where there is still room for it (R337, R339). -/
def State.unitStarted (s : State) (n unit : Nat) : State :=
  match s.leanRun, s.group n with
  | some (b, r), some g =>
    let c := s.uctx b n g r.clip r.exp
    if s.inJournal n unit then s
    else match s.ctl.journalFit (c.entryBytes unit) with
      | some a => (s.accountStart c unit).journalPut c unit a
      | none => s
  | _, _ => s

/-- The entry goes to its backing: at once, or once the banks and the allowance let it (R203, R337, R437). -/
def State.unitBack (s : State) (n unit : Nat) : State :=
  match s.leanRun, s.group n with
  | some (b, r), some g =>
    let c := s.uctx b n g r.clip r.exp
    match s.ctl.journalFit (c.entryBytes unit) with
    | some a =>
      let acc := s.startAccess c unit a
      let x := s.ksAccess (rowPlan acc) (c.sectors acc) (.unitStart n unit)
      if x.2 then x.1 else x.1.unitStarted n unit
    | none => s
  | _, _ => s

/-- LEAN_UNIT_START: the journal entry is written, where there is room for it (R337, R339); an access that must wait for a bank
waits in its queue, and the entry with it (R203).  The old words of a bank stone leave its bank through row latch 0 (R20; log 62). -/
def State.leanStart (s : State) (n unit : Nat) : State :=
  match s.leanRun, s.group n with
  | some (b, r), some g =>
    let c := s.uctx b n g r.clip r.exp
    if g.lean && g.hasUnit unit && !g.done.contains unit && !s.inJournal n unit && (g.rule != 1 || r.pass2.contains n) &&
        s.unitReaches c unit && !s.tasked (.unitRead n unit) && !s.tasked (.unitStart n unit) &&
        (s.ctl.journalFit (c.entryBytes unit)).isSome then
      if g.corbel then
        let x := s.ksAccess [.take (unitBank unit) ((s.entryImage c unit).map (·.1))] 0 (.unitRead n unit)
        if x.2 then x.1 else x.1.unitBack n unit
      else s.unitBack n unit
    else s
  | _, _ => s

/-- Rows all of whose units are done once this one is (log 25). -/
def UCtx.rowsClosed (c : UCtx) (unit : Nat) : List Nat :=
  if !c.g.sparse then []
  else
    let done (u : Nat) : Bool := u == unit || c.g.done.contains u
    let rows := ((c.g.unitElems unit).filter c.touches).foldl (fun l i => insertRow (c.rowOf i) l) []
    rows.filter (fun u =>
      let first := u * c.g.width
      let last := first + c.g.rowLen u - 1
      if c.g.corbel then (List.range (ceilDiv (c.g.rowLen u) 512)).all (fun j => done (u * 512 + j))
      else (List.range (last / 4096 - first / 4096 + 1)).all (fun j => done (first / 4096 + j)))

/-- The unit's state is written, its bit is set and its entry is freed (R337, R338). -/
def State.unitFinished (s : State) (n unit : Nat) : State :=
  match s.leanRun, s.group n with
  | some (b, r), some g =>
    let c := s.uctx b n g r.clip r.exp
    if s.inJournal n unit then
      let last := g.rule == 1 && decide (ceilDiv (g.rowLen (unit / 512)) 512 = unit % 512 + 1)
      let s := s.updElems c (unitBank unit) (!g.corbel) (g.unitElems unit) (c.rowsClosed unit) (if last then [unit / 512] else [])
      let s : State := { s with ctl := { s.ctl with journal := s.ctl.journal.filter (fun e => !(e.group == n && e.unit == unit)) } }
      s.wroteRecord.setGroup n (some { g with done := insertRow unit g.done })
    else s
  | _, _ => s

/-- The unit's last words go to the stack: at once, or once the banks and the allowance let them (R203, R317, R437). -/
def State.unitWrite (s : State) (n unit : Nat) : State :=
  match s.leanRun, s.group n with
  | some (b, r), some g =>
    let c := s.uctx b n g r.clip r.exp
    let acc := s.doneAccess c unit
    let x := s.ksMove (rowPlan acc) (c.sectors acc) (if g.corbel then 0 else (c.unitTouched unit).length) (.unitDone n unit)
    if x.2 then x.1 else x.1.unitFinished n unit
  | _, _ => s

/-- LEAN_UNIT_DONE: the unit's results are written, its bit is set and its entry is freed (R337, R338); a write that must wait for
a bank waits in its queue, and the rest with it (R203).  The short weights of a bank stone leave its unit through row latch 0 and
CXRD before they go to the Coffer (R317). -/
def State.leanDone (s : State) (n unit : Nat) : State :=
  match s.leanRun, s.group n with
  | some (b, r), some g =>
    let c := s.uctx b n g r.clip r.exp
    if s.inJournal n unit && s.unitReaches c unit && !s.tasked (.unitOut n unit) && !s.tasked (.unitDone n unit) then
      if g.corbel then
        let x := s.ksAccess [.take (unitBank unit) (s.weightBytes c (g.unitElems unit))] 0 (.unitOut n unit)
        if x.2 then x.1 else x.1.unitWrite n unit
      else s.unitWrite n unit
    else s
  | _, _ => s

/-! ### Runs (R325, R333, R340) -/

/-- Zeroes the counts of the groups that a run starts (R333). -/
def State.zeroCounts (s : State) (b : Bool) (pick : Group → Bool) : State :=
  s.groupList.foldl (fun s e =>
    if pick e.2 then
      let x := s.set b
      let r := Sparse.get emptyReport x.groups e.1
      s.setSet b { x with groups := Sparse.put e.1 { r with nfState := 0, poison := 0 } x.groups }
    else s) s

/-- A stopped run leaves the uncommitted slots of the SAFE groups, and their Coffer slots of version t + 1, undefined (R333);
what it still had waiting is given up. -/
def State.spoilSafe (s : State) : State :=
  s.groupList.foldl (fun s e => if e.2.lean then s else s.setGroup e.1 (some { e.2 with undef := true, cofUndef := true }))
    (s.dropTasks KsTask.ofRun)

/-- The run of a set's step stops: what it still had waiting is given up, and the results of its SAFE groups are undefined unless
they were written whole before (R333, R414). -/
def State.spoilRun (s : State) (b : Bool) : State :=
  if (s.set b).run.any (·.safeDone) then s.dropTasks KsTask.ofRun else s.spoilSafe

/-- COFFER_LOW once the update of step t writes version t + 1: the version whose slot it takes is lost.  With K = 1 an
ABANDON derives that version again, so only a commit moves it (R320, R360). -/
def Group.lowDuring (g : Group) (t : BitVec 64) : BitVec 64 :=
  if g.k = 1 then g.low else BitVec.ofNat 64 (max g.low.toNat (t.toNat + 2 - g.k))

/-- Groups whose update of step t begins lose a Coffer version; where COFFER_LOW changes, so does the configuration image
(R320, R341, R346). -/
def State.loseVersions (s : State) (t : BitVec 64) (pick : Group → Bool) : State :=
  let hit := s.groupList.filter (fun e => pick e.2 && e.2.lowDuring t != e.2.low)
  if hit.isEmpty then s
  else (hit.foldl (fun s e => s.setGroup e.1 (some { e.2 with low := e.2.lowDuring t })) s).configChanged

/-- Word numbers that the whole update of a SAFE group writes: state words of a Keystone group, and the Coffer (R297, R317). -/
def State.safeWrites (s : State) (c : UCtx) : List Nat :=
  wordUnion [if c.g.corbel then [] else s.arrayWords c c.wr (c.g.unitList.flatMap c.unitArrays),
    s.cofferWords c (c.t.toNat + 1) ((List.range c.g.n).filter c.touches)]

/-- Elements of a group that its update touches. -/
def UCtx.touched (c : UCtx) : List Nat := (List.range c.g.n).filter c.touches

/-- The SAFE groups of the Keystone engine in a run, with what their update works with. -/
def State.safeLeaves (s : State) (b : Bool) (r : Run) : List UCtx :=
  (s.groupList.filter (fun e => !e.2.lean && !e.2.corbel)).map (fun e => s.uctx b e.1 e.2 r.clip r.exp)

/-- The words that the leaves read for them. -/
def State.runReads (s : State) (b : Bool) (r : Run) : List Nat :=
  wordUnion ((s.safeLeaves b r).map (fun c => (s.updWords c c.touched).map (·.1)))

/-- What the leaves move for them: inputs, then results (R203, R437; log 52). -/
def State.runPlan (s : State) (b : Bool) (r : Run) : List Reach :=
  rowPlan [(false, s.runReads b r), (true, wordUnion ((s.safeLeaves b r).map s.safeWrites))]

/-- The seal record with the RUNS of one more run, written in both copies (R340). -/
def StepSet.oneMoreRun (x : StepSet) : StepSet := { x with runs := x.runs + 1, rec0 := true, rec1 := true }

/-- Opens a run: RUNS goes up in the seal record, then the step is UPDATING (R340). -/
def State.openRun (s : State) (b : Bool) (spec : Bool) (clip : F32) (exp : BitVec 8) : State :=
  let pick (g : Group) : Bool := !spec || !g.lean
  let s := (((s.zeroCounts b pick).loseVersions (s.set b).step pick).newWork true).wroteRecord
  let x := (s.set b).oneMoreRun
  s.setSet b { x with state := .updating,
                      run := some { spec := spec, clip := clip, exp := exp, safeDone := false, pass2 := [] } }

/-- The leaves begin with the SAFE groups of a run, as the allowances of the ticks and the banks let them (R203, R437). -/
def State.startRows (s : State) (b : Bool) : State :=
  match (s.set b).run with
  | some r =>
    let plan := s.runPlan b r
    (s.ksMove plan (planCost plan) (((s.safeLeaves b r).map (fun c => c.touched.length)).sum) (.runRows b)).1
  | none => s

/-- Starts a run, and in it the leaves. -/
def State.startRun (s : State) (b : Bool) (spec : Bool) (clip : F32) (exp : BitVec 8) : State := (s.openRun b spec clip exp).startRows b

/-- Some group is SAFE. -/
def State.anySafe (s : State) : Bool := s.groupList.any (fun e => !e.2.lean)

/-- The update of a set's step may begin: it is the step of the epoch, SEALED, and latch 0 holds it (R29, R325). -/
def State.mayUpdate (s : State) (b : Bool) : Bool :=
  let x := s.set b
  x.held && x.state == .isSealed && x.step == s.ctl.epoch && decide (x.step.toNat % 2 ^ 48 ≤ latchValue (s.latch 0))

/-- UPDATE_START: every group after a verdict, the SAFE groups before it when the result is SEALED (R27, R325); it waits for a
record write in flight, since Warden serialises them (R346). -/
def State.updateStart (s : State) (b : Bool) : State :=
  if !s.mayUpdate b || s.recordBusy then s
  else match (s.set b).verdict with
    | some v => s.startRun b false v.clip v.exp
    | none => if (s.set b).result = .isSealed ∧ s.anySafe then s.startRun b true f32One (s.set b).lossExp else s

/-- The groups of a run. -/
def State.runGroups (s : State) (r : Run) : List (Nat × Group) := s.groupList.filter (fun e => !r.spec || !e.2.lean)

/-- The partials of pass 1 are in: R_i', C_j' and meanR are formed, and the group is in its pass 2 (R309, R312). -/
def State.pass2Begin (s : State) (b : Bool) (n : Nat) : State :=
  match (s.set b).run, s.group n with
  | some r, some g =>
    let s := if g.lean && g.pass1 then s else s.pass1 (s.uctx b n g r.clip r.exp)
    s.setSet b { s.set b with run := some { r with pass2 := r.pass2 ++ [n] } }
  | _, _ => s

/-- FACTORED_PASS2_START of a group, once every bank has passed the first passes of the run, whose beds form C_j' and meanR (R309,
R312, R338; log 28). -/
def State.pass2Start (s : State) (b : Bool) (n : Nat) : State :=
  let x := s.set b
  match x.run, s.group n with
  | some r, some g =>
    if x.held ∧ x.state = .updating ∧ g.rule = 1 ∧ (!r.spec ∨ !g.lean) ∧ !r.pass2.contains n ∧ s.runPassed r (s.firstShare r) ∧
        !s.tasked (.pass2 b n) then
      let x := s.ksAccess (if g.lean && g.pass1 then [] else s.pass1Plan (s.uctx b n g r.clip r.exp)) 0 (.pass2 b n)
      if x.2 then x.1 else x.1.pass2Begin b n
    else s
  | _, _ => s

/-- Everything that a run takes has finished, the SAFE arithmetic apart: every bank has passed its lines, the rows of its SAFE groups
have been moved, every group is in its last pass, and every unit is done. -/
def State.runReady (s : State) (b : Bool) (r : Run) : Bool :=
  !s.tasked (.runRows b) && s.runPassed r (s.runShare r) &&
  (s.runGroups r).all (fun e =>
    let c := s.uctx b e.1 e.2 r.clip r.exp
    (e.2.rule != 1 || r.pass2.contains e.1 || (!e.2.lean && r.safeDone)) &&
    (!e.2.lean || e.2.unitList.all (fun u => e.2.done.contains u || (e.2.unitElems u).all (fun i => !c.touches i))))

/-- Runs the arithmetic of the SAFE groups, where this run has not, and the Q of LEAN FACTORED groups. -/
def State.finishRun (s : State) (b : Bool) (r : Run) : State :=
  let s := if r.safeDone then s
    else (s.groupList.filter (fun e => !e.2.lean)).foldl (fun s e => match s.group e.1 with
      | some g => s.runSafe b r e.1 g
      | none => s) s
  if r.spec then s
  else (s.groupList.filter (fun e => e.2.lean && e.2.rule == 1)).foldl (fun s e => match s.group e.1 with
    | some g => s.storeQ (s.uctx b e.1 g r.clip r.exp)
    | none => s) s

/-! ### The commit begins (R342) -/

/-- COFFER_LOW of a group once step t has committed (R320): the slot of version t + 1 − K is written over, and no version
that was lost or never written comes back. -/
def Group.lowAfter (g : Group) (t : BitVec 64) : BitVec 64 := BitVec.ofNat 64 (max g.low.toNat (t.toNat + 2 - g.k))

/-- COMMITTING: the commit record is formed and written to copy 0 (R342 steps 1 to 3).  Where the commit moves a COFFER_LOW,
a new configuration image is written in both copies, and the record carries its number (R341). -/
def State.beginCommit (s : State) (b : Bool) : State :=
  let t := (s.set b).step
  let s := s.setSet b { s.set b with state := .committing }
  let moves := s.groupList.any (fun e => e.2.lowAfter t != e.2.low)
  let s : State := if moves then { s.wroteRecord with start := { s.start with cfgLost0 := false, cfgLost1 := false } } else s
  let c := s.lintelSeq.ctl
  let s : State := { s.lintelSeq with ctl := { c with commitTick := s.clk.tick, writing := some (.commit b),
                                                      cfgSeq := if moves then c.cfgSeq + 1 else c.cfgSeq } }
  s.lintelPut false (s.ctl.epoch.toNat + 1)

/-- The results of a run are written: UPDATED, and COMMITTING where a verdict is recorded (R325, R342). -/
def State.updateEnd (s : State) (b : Bool) : State :=
  let x := s.set b
  match x.run with
  | some r =>
    if x.held ∧ x.state = .updating then
      let s := s.finishRun b r
      let s := s.setSet b { s.set b with state := .updated, run := some { r with safeDone := true } }
      if r.spec then s else s.beginCommit b
    else s
  | none => s

/-- The words that a run writes for its SAFE groups, where it has not written them before. -/
def State.runWrites (s : State) (b : Bool) (r : Run) : List Nat :=
  if r.safeDone then [] else wordUnion ((s.groupList.filter (fun e => !e.2.lean)).map (fun e => s.safeWrites (s.uctx b e.1 e.2 r.clip r.exp)))

/-- What leaves the units at the end of a run through row latch 0: the parts of Q of FACTORED groups (R20, R310). -/
def State.runTakes (s : State) (b : Bool) (r : Run) : List Reach :=
  (s.runGroups r).flatMap (fun e =>
    let c := s.uctx b e.1 e.2 r.clip r.exp
    if e.2.rule = 1 ∧ (e.2.lean ∨ !r.safeDone) then c.g.rowBanks.map (fun k => .take k (s.qPartial c k)) else [])

/-- UPDATE_DONE of a set's run; what must wait for a bank waits in its queue, and the end of the run with it (R203). -/
def State.updateDone (s : State) (b : Bool) : State :=
  let x := s.set b
  match x.run with
  | some r =>
    if x.held ∧ x.state = .updating ∧ s.runReady b r ∧ !s.recordBusy ∧ !s.tasked (.updateOut b) then
      let x := s.ksAccess (s.runTakes b r) 0 (.updateOut b)
      if x.2 then x.1 else x.1.updateEnd b
    else s
  | none => s

/-- The work of a group's update goes on: the stack answers, and so does the part that runs the group (R448, R557). -/
def State.groupRuns (s : State) (n : Nat) : Bool :=
  s.serving && !s.plumb.esr && s.runs 1 && (match s.group n with
    | some g => g.corbel || s.leavesRun
    | none => true)

/-! ### Commands -/

/-- UPDATE_START (R27, R29, R325, R484). -/
def execUpdateStart (s : State) : Host.Outcome State Fault Refusal :=
  .next (if s.wardenRuns && !s.exporting then (s.updateStart false).updateStart true else s)

/-- FACTORED_PASS2_START (R309, R312, R338). -/
def execFactoredPass2Start (group : Nat) (s : State) : Host.Outcome State Fault Refusal :=
  .next (if s.groupRuns group then (s.pass2Start false group).pass2Start true group else s)

/-- LEAN_UNIT_START (R337, R339). -/
def execLeanUnitStart (group unit : Nat) (s : State) : Host.Outcome State Fault Refusal :=
  .next (if s.groupRuns group then s.leanStart group unit else s)

/-- LEAN_UNIT_DONE (R337, R338). -/
def execLeanUnitDone (group unit : Nat) (s : State) : Host.Outcome State Fault Refusal :=
  .next (if s.groupRuns group then s.leanDone group unit else s)

/-- UPDATE_DONE (R325, R342). -/
def execUpdateDone (s : State) : Host.Outcome State Fault Refusal :=
  .next (if s.wardenRuns && s.groupList.all (fun e => s.groupRuns e.1) then (s.updateDone false).updateDone true else s)

end Sys2Proof.Machine
end

