-- ==== Sys2Proof/Machine/Commit.lean ====
section
/-!
DEFINITION. Verdicts, ABANDON, the commit, and recovery (R30, R33, R320, R325, R327 to R332, R342, R343, R349 to R353).
-/

namespace Sys2Proof.Machine

/-! ### The commit (R342, R343) -/

/-- What step 5 of a commit does to the groups: COFFER_LOW moves on, done maps and PASS1_DONE are cleared, and the short
weights of the epoch are those of the step's RND and of the seed in force. -/
def State.installGroups (s : State) (b : Bool) : State :=
  s.groupList.foldl (fun s e => s.setGroup e.1 (some { e.2 with
    low := e.2.lowAfter (s.set b).step, wRnd := (Sparse.get emptyScalars (s.set b).scalars e.1).rnd, wSeed := s.ctl.seed,
    done := [], pass1 := false })) s

/-- Keeps COFFER_LOW of every group with the report of a step that leaves the hold (R360). -/
def State.freezeLow (s : State) (b : Bool) : State :=
  let x := s.set b
  s.setSet b { x with groups := x.groups.map (fun e => (e.1, match s.group e.1 with
    | some g => { e.2 with low := g.low }
    | none => e.2)) }

/-- Some element or word of the committed run is not finite or is poisoned (R343). -/
def StepSet.stateFault (x : StepSet) : Bool := x.groups.any (fun e => e.2.nfState != 0 || e.2.poison != 0)

/-- Steps 5 and 6 of the commit (R342): the step is COMMITTED, the epoch moves on and latch 0 is released. -/
def State.commitFinish (s : State) (b : Bool) : State :=
  let t := (s.set b).step
  let s := s.wroteRecord.installGroups b
  let s := s.freezeLow b
  let s := s.setSet b { s.set b with state := .committed, held := false, commitTick := s.clk.tick, run := none }
  let s : State := { s with ctl := { s.ctl with epoch := t + 1, writing := none, journal := [] } }
  let s := s.irq .stepEvent
  let s := if (s.set b).stateFault then s.irq .stateFault else s
  s.release 0 ((t.toNat + 1) % 2 ^ 48) 2 agentWarden

/-! ### Verdicts (R327 to R330) -/

/-- The LEAN run after a verdict with the assumed values: a run of its own, which RUNS counts (R301, R325, R340).  The lines that
beds have passed for SAFE groups count on where those still run. -/
def State.leanAfter (s : State) (b : Bool) (r : Run) : State :=
  let s := ((s.zeroCounts b (·.lean)).loseVersions (s.set b).step (·.lean)).wroteRecord
  let s := if r.safeDone then s.newWork true else s
  let x := (s.set b).oneMoreRun
  s.setSet b { x with state := .updating, run := some { r with spec := false } }

/-- Starts the run that a recorded verdict calls for, or the commit (R325). -/
def State.afterVerdict (s : State) (b : Bool) (v : Verdict) : State :=
  let x := s.set b
  match x.run with
  | none => s
  | some r =>
    let same := r.clip == v.clip && r.exp == v.exp
    let lean := s.groupList.any (fun e => e.2.lean)
    if x.state = .updating then
      if !same then (s.spoilRun b).startRun b false v.clip v.exp
      else if lean then s.leanAfter b r
      else s.setSet b { x with run := some { r with spec := false } }
    else if x.state = .updated then
      if !same then s.startRun b false v.clip v.exp
      else if lean then s.leanAfter b { r with safeDone := true }
      else s.beginCommit b
    else s

/-- Both copies of the record in flight are written: the commit goes on with its step 5 (R342), or the verdict is recorded and
VERDICT completes (R330). -/
def State.recordFinish (s : State) : State :=
  let s := s.dropRecordEnd
  match s.ctl.writing with
  | some (.commit b) => s.commitFinish b
  | some (.verdict h b) =>
    let s := ({ s with ctl := { s.ctl with writing := none } } : State).finish h .okay 0 []
    match (s.set b).verdict with
    | some v => s.afterVerdict b v
    | none => s
  | none => s

/-- Copy 1 of the record in flight is written, now or at the next bed boundary of its bank, and what the record serves follows
(R347). -/
def State.recordDone (s : State) : State :=
  if s.ctl.writing.isNone || s.tasked .recordEnd then s
  else
    let t := s.lintelCopy1
    if t.ctl.lintel.isEmpty then t.recordFinish else t.addTask .recordEnd

/-- Record writes in flight end, with what they serve, once every bed has ended: a verdict's may be followed by the one of a commit
(R342, R347, R447 step 2).  What cannot be written waits (R107, R130). -/
def State.endWrites (s : State) : Nat → State
  | 0 => s
  | n + 1 =>
    let t := s.recordDone.lintelForce
    if t.tasked .recordEnd && t.ctl.lintel.isEmpty then State.endWrites t.recordFinish n
    else if t.ctl.writing.isSome && !t.tasked .recordEnd then State.endWrites t n else t

/-- The most record writes that can follow one another: a verdict's, and a commit's. -/
def writeFuel : Nat := 3

/-- The intake set of the held step with a number. -/
def State.heldSet (s : State) (t : Nat) : Option Bool :=
  if s.ctl.setA.held ∧ s.ctl.setA.step.toNat = t then some false
  else if s.ctl.setB.held ∧ s.ctl.setB.step.toNat = t then some true else none

/-- The context in which the version of the epoch is derived again: with the RND and the seed that it was derived with (R240,
R320). -/
def State.deriveCtx (s : State) (n : Nat) (g : Group) : UCtx :=
  { s.uctx false n g f32One 0 with sc := { emptyScalars with rnd := g.wRnd }, seed := g.wSeed }

/-- Slot of the committed pairs of version v. -/
def Group.pairSlot (g : Group) (v : BitVec 64) : Nat := if g.lean then 0 else v.toNat % 2

/-- The words of all pairs in a slot. -/
def State.pairWords (s : State) (c : UCtx) (slot : Nat) : Sparse Place :=
  (List.range c.g.n).foldl (fun m i => s.addWord (s.addWord m (c.loc .head slot i)) (c.loc .tail slot i)) []

/-- The leaf of the Keystone engine that derives weights again (R187, R320; log 11). -/
def State.deriveWho (s : State) : Who := { src := 7, agent := 32 + (Config.leaf s.free).toNat }

/-- What a derivation of version v moves: the pairs, and the Coffer slot. -/
def State.deriveAccess (s : State) (n : Nat) (g : Group) (v : BitVec 64) : List (Bool × List Nat) :=
  let c := s.deriveCtx n g
  [(false, (s.pairWords c (g.pairSlot v)).map (·.1)), (true, s.cofferWords c v.toNat (List.range g.n))]

/-- Short weights of version v of a group again from the pairs of a slot, with step value v − 1, so that its bits come out again
(R320, R240); the outcomes of the words that are read are counted (R176).  An uncommitted slot stays as it is (R332, R333). -/
def State.deriveWeights (s : State) (n : Nat) (g : Group) (v : BitVec 64) : State :=
  let c := s.deriveCtx n g
  let slot := g.pairSlot v
  let es := (List.range g.n).map (fun i =>
    let p := s.pairOf c slot i
    { i := i, h := p.1.1, tl := p.1.2, m := 0, v := 0, badH := p.2, badM := false, badV := false : UElem })
  let s1 := s.accountWords s.deriveWho (s.pairWords c slot)
  ((s1.flush s.deriveWho false false (fun _ => false) (s.putWeights c v.toNat (s.weightPieces c (v - 1) slot es))).1).setGroup n
    (some { g with cofUndef := false })

/-! ### ABANDON (R30, R320, R331, R332) -/

/-- The groups whose version t a step's run has written over: SAFE, with K = 1 (R320). -/
def State.takenGroups (s : State) (b : Bool) : List Nat :=
  if (s.set b).run.isNone then [] else (s.groupList.filter (fun e => !e.2.lean && e.2.k == 1)).map (·.1)

/-- What deriving the versions of groups again moves. -/
def State.deriveAll (s : State) (ns : List Nat) : List (Bool × List Nat) :=
  ns.flatMap (fun n => match s.group n with
    | some g => s.deriveAccess n g s.ctl.epoch
    | none => [])

/-- Version t of groups comes back; with K ≥ 2 COFFER_LOW names what is held since the run began (R320). -/
def State.restoreCoffer (s : State) (ns : List Nat) : State :=
  ns.foldl (fun s n => match s.group n with
    | some g => s.deriveWeights n g s.ctl.epoch
    | none => s) s

/-- Steps 1 and 2 for the step of a set: it is ABANDONED, what its seals wait for is answered, and its run stops (R30, R66, R332).
Its seal record stands until step 5. -/
def State.abandonSet (s : State) (b : Bool) : State :=
  let s := if (s.set b).state = .updating then s.spoilRun b else s
  let s := (s.dropIntake b).freezeLow b
  (s.setSet b { s.set b with state := .abandoned, held := false, verdict := none, run := none }).irq .stepEvent

/-- Step 5 for the step of a set: its seal record is marked invalid in both copies, and its intake set is cleared (R332). -/
def State.abandonLast (s : State) (b : Bool) : State :=
  let s := s.wroteRecord.clearIntake b
  s.setSet b { s.set b with rec0 := false, rec1 := false }

/-- Step 5 of an ABANDON, and its end (R332). -/
def State.abandonEnd (s : State) (h : Nat) (b later : Bool) : State :=
  let s := s.abandonLast b
  (if later then s.abandonLast (!b) else s).finish h .okay 0 []

/-- Steps 3 and 4 of an ABANDON: the versions that the run had taken come back, and a record with V1 empty is written; where its
lines must wait, so does what follows (R320, R332, R346). -/
def State.abandonRest (s : State) (h : Nat) (b : Bool) (ns : List Nat) (later clears : Bool) : State :=
  let s := s.restoreCoffer ns
  let s := if clears then s.lintelWrite else s
  if s.ctl.lintel.isEmpty then s.abandonEnd h b later else (s.addTask (.abandoned h b later)).holdSerial h

/-- An accepted ABANDON of the step of set b; where a version must be derived again and a bank or the allowance does not let it, the
command waits (R203, R320, R332, R437). -/
def State.abandonCmd (s : State) (h : Nat) (b : Bool) : State :=
  let other := s.set (!b)
  let later := other.held && other.step == (s.set b).step + 1
  let clears := later && other.verdict.isSome
  let ns := s.takenGroups b
  let s := s.abandonSet b
  let s := if later then s.abandonSet (!b) else s
  let acc := s.deriveAll ns
  let x := s.ksAccess (rowPlan acc) ((acc.map (fun a => ksSectorsOf a.2)).sum) (.derive h b ns later clears)
  if x.2 then x.1.holdSerial h else x.1.abandonRest h b ns later clears

/-- Every group with a marked element has MASK_OK (R328). -/
def State.maskable (s : State) (b : Bool) : Bool :=
  s.groupList.all (fun e => (Sparse.get emptyReport (s.set b).groups e.1).marked == 0 || e.2.maskOk)

/-- Answer of R328 to a verdict on a held step without a recorded verdict, for KIND 0 and 1. -/
def State.verdictStatus (s : State) (b : Bool) (kind : Nat) : Option MStatus :=
  let x := s.set b
  if x.state = .opened ∨ x.state = .sealing then some .notSealed
  else match x.result with
    | .isSealed => none
    | .nonfinite => if kind = 1 ∧ s.maskable b then none else some .verdictRefused
    | .overrange => if kind = 1 ∧ s.maskable b then none else some .verdictRefused
    | _ => some .verdictRefused

/-- A given verdict, where a COMMIT_MASKED of a SEALED result counts as COMMIT (R328, R329). -/
def StepSet.given (x : StepSet) (kind : Nat) (clip : F32) (exp : BitVec 8) : Verdict :=
  { masked := kind == 1 && x.result != .isSealed, clip := clip, exp := exp }

/-- VERDICT after the checks of R497 (R327 to R330, R332). -/
def State.verdictCmd (s : State) (h : Nat) : State :=
  let x := s.hasp h
  let t := x.pay 0 8
  let kind := x.pay 8 1 % 4
  let clip : F32 := BitVec.ofNat 32 (x.pay 12 4)
  let exp := BitVec.ofNat 8 (x.pay 9 1)
  if kind = 3 then s.finish h .badField (fieldAt 8) []
  else if kind ≠ 2 ∧ !(f32IsFin clip && f32Lt 0 clip) then s.finish h .badField (fieldAt 12) []
  else match s.heldSet t with
    | none =>
      match s.reportSet t with
      | none => s.finish h .badStep 0 []
      | some b =>
        let y := s.set b
        let equal := if y.state = .committed then decide (kind ≠ 2) && y.verdict == some (y.given kind clip exp) else kind == 2
        if equal then s.finish h .okay 0 [] else s.finish h .badStep 0 []
    | some b =>
      let y := s.set b
      match y.verdict with
      | some v => if kind ≠ 2 ∧ v = y.given kind clip exp then s.finish h .okay 0 [] else s.finish h .verdictDone 0 []
      | none =>
        if kind = 2 then s.abandonCmd h b
        else match s.verdictStatus b kind with
          | some st => s.finish h st 0 []
          | none =>
            let s := s.setSet b { y with verdict := some (y.given kind clip exp) }
            let s := s.lintelSeq
            let s := s.lintelPut false s.ctl.epoch.toNat
            ({ s with ctl := { s.ctl with writing := some (.verdict h b) } } : State).holdSerial h

/-! ### Interruptions and recovery (R349 to R353) -/

/-- Completes the Lintel record writes in flight (R351), once every bed has ended: lines that wait, a verdict's record, or a
commit. -/
def State.completeWrites (s : State) : State :=
  let s := (if s.ctl.writing.isNone || s.tasked .recordEnd then s else s.lintelCopy1).lintelForce
  match s.ctl.writing with
  | some (.commit b) => if s.ctl.lintel.isEmpty then s.dropRecordEnd.commitFinish b else s
  | some (.verdict _ _) => { s.dropRecordEnd with ctl := { s.dropRecordEnd.ctl with writing := none } }
  | none => s

/-- What an interruption does to the intake and the runs (R66, R351): held seals are answered, a run that has not written its SAFE
groups leaves their slots undefined, and the Keystone engine stops. -/
def State.stopSteps (s : State) : State :=
  let stop (s : State) (b : Bool) : State := if (s.set b).held && (s.set b).state == .updating then s.spoilRun b else s
  let s := (stop (stop s false) true).dropItems
  (s.dropIntake false).dropIntake true

/-- The entry of a lost step (R353). -/
def StepSet.lostEntry (x : StepSet) (cause : Nat) : StepSet :=
  { StepSet.init with kept := true, opened := x.opened, step := x.step, state := .abandoned, lost := cause }

/-- An ABANDON of the step had begun and had not marked its seal record invalid (R332). -/
def StepSet.halfAbandoned (x : StepSet) : Bool := !x.held && x.kept && x.state == .abandoned && (x.rec0 || x.rec1)

/-- A set as recovery leaves it: held in SEALED with its report, also where an ABANDON had not ended; lost; or not holding a step
(R332, R349, R352, R353). -/
def StepSet.recover (x : StepSet) (epoch cause : Nat) (v : Option Verdict) : StepSet :=
  if !x.held && !x.halfAbandoned then x
  else if x.step.toNat < epoch then { x with held := false, state := .committed }
  else if (x.rec0 || x.rec1) && x.state != .opened && x.state != .sealing then
    { x with held := true, state := .isSealed, verdict := v, run := none, recovered := true, commitTick := 0,
             groups := x.groups.map (fun e => (e.1, { e.2 with nfState := 0, poison := 0 })) }
  else x.lostEntry cause

/-- Recovery has put the step of a set into SEALED or ABANDONED (R325). -/
def StepSet.recoverEvent (x : StepSet) (epoch : Nat) : Bool := (x.held || x.halfAbandoned) && decide (epoch ≤ x.step.toNat)

/-- The journal entries of a step whose done bits are clear are written back (R349). -/
def State.undoJournal (s : State) : State :=
  s.ctl.journal.foldl (fun s e => match s.group e.group, s.heldSet e.step.toNat with
    | some g, some b => if g.done.contains e.unit then s else s.undo (s.uctx b e.group g f32One 0) e
    | _, _ => s) s

/-- The verdict that a record holds for the step of a set (R349). -/
def LintelRecord.verdictOf (r : LintelRecord) (x : StepSet) (b : Bool) : Option Verdict :=
  let pick (v : Option (Verdict × Bool)) : Option Verdict := v.bind (fun p => if p.2 = b then some p.1 else none)
  if x.step.toNat = r.epoch then pick r.v0 else if x.step.toNat = r.epoch + 1 then pick r.v1 else none

/-- The journal entries of a step are written back, and its update runs whole: every LEAN unit whose done bit is clear, the SAFE
groups, and the commit (R342, R349). -/
def State.runWhole (s : State) (b : Bool) (v : Verdict) : State :=
  let s := s.openRun b false v.clip v.exp
  let s := (s.groupList.filter (fun e => e.2.rule == 1)).foldl (fun s e => s.pass2Begin b e.1) s
  let s := (s.groupList.filter (fun e => e.2.lean)).foldl (fun s e =>
    (e.2.unitList.filter (fun u => !e.2.done.contains u)).foldl (fun s u =>
      match s.group e.1 with
      | some g =>
        let c := s.uctx b e.1 g v.clip v.exp
        ((s.unitStarted e.1 u).moveAccess (s.doneAccess c u)).unitFinished e.1 u
      | none => s) s) s
  let s := match (s.set b).run with
    | some r => s.moveAccess [(false, s.runReads b r), (true, s.runWrites b r)]
    | none => s
  (s.updateEnd b).recordDone

/-- How recovery ends: the block goes on, or its attempt has failed with cause RECOVERY (R349, R467). -/
structure Recovered where
  state : State
  ok    : Bool
  deriving DecidableEq, Repr

/-- Recovery (R349).  The update of a step with a recorded verdict is started again by UPDATE_START, but for one whose successor's
verdict names a step that is not held: that update runs and commits before RECOVERY_LOST is found.  It fails where no copy is
valid, or where a recorded verdict names a step that is not held; what it has done until then stands. -/
def State.recover (s : State) (cause : Nat) : Recovered :=
  let s := s.lintelAccount
  match s.lintelSelect with
  | none => { state := s, ok := false }
  | some (r, copy) =>
    let s := s.lintelRepair r copy
    let s : State := { s with ctl := { s.ctl with
      seed := r.seed, seedSrc := r.seedSrc, compat := r.compat, numRev := r.numRev, seq := BitVec.ofNat 64 r.seq,
      cfgSeq := r.cfgSeq, commitTick := r.commitTick, epoch := BitVec.ofNat 64 r.epoch, writing := none, lintel := [], debt := 0,
      debtAll := 0 } }
    let s := s.setLatch 0 (latchWord (r.epoch % 2 ^ 48) 2 agentWarden)
    let event := s.ctl.setA.recoverEvent r.epoch || s.ctl.setB.recoverEvent r.epoch
    let s := if event then s.irq .stepEvent else s
    let s := s.setSet false (s.ctl.setA.recover r.epoch cause (r.verdictOf s.ctl.setA false))
    let s := s.setSet true (s.ctl.setB.recover r.epoch cause (r.verdictOf s.ctl.setB true))
    let has (t : Nat) : Bool := (s.heldSet t).any (fun b => (s.set b).verdict.isSome)
    if r.v0.isSome && !has r.epoch then { state := s, ok := false }
    else
      let s := s.undoJournal
      let s : State := { s with ctl := { s.ctl with journal := [], staged := [] } }
      if r.v0.isSome && r.v1.isSome && !has (r.epoch + 1) then
        { state := match s.heldSet r.epoch with
            | some b => (match (s.set b).verdict with
              | some v => s.runWhole b v
              | none => s)
            | none => s
          ok := false }
      else if r.v0.isNone then
        let ns := (s.groupList.filter (fun e => !e.2.lean && e.2.k == 1)).map (·.1)
        { state := (s.moveAccess (s.deriveAll ns)).restoreCoffer ns, ok := true }
      else { state := s, ok := true }

/-! ### Commands -/

/-- COMMIT_DONE (R342, R343): the record's copy 1, and the commit with it. -/
def execCommitDone (s : State) : Host.Outcome State Fault Refusal :=
  .next (match s.ctl.writing with
    | some (.commit _) => if s.wardenRuns then s.recordDone else s
    | _ => s)

/-- VERDICT_RECORDED (R325, R330): the record's copy 1, and the verdict with it. -/
def execVerdictRecorded (s : State) : Host.Outcome State Fault Refusal :=
  .next (match s.ctl.writing with
    | some (.verdict _ _) => if s.wardenRuns then s.recordDone else s
    | _ => s)

/-- VERDICT (R327 to R332); it waits for a Lintel record write in flight (R346). -/
def execVerdict (hasp : Nat) (s : State) : Host.Outcome State Fault Refusal :=
  guard (decide (hasp < 16)) (if s.recordBusy then s else s.runCommand hasp 0x0A (fun s => s.verdictCmd hasp))

end Sys2Proof.Machine
end

