-- ==== Sys2Proof/Machine/Checkpoint.lean ====
section
/-!
DEFINITION. Checkpoint images: their layout, CHECKPOINT_EXPORT and CHECKPOINT_IMPORT (R484 to R488, R500, R504, R509); and
what the Keystone engine does once its waiting accesses have been served (R203).
-/

namespace Sys2Proof.Machine

/-! ### The layout of an image (R485) -/

/-- A stretch of one array in an image: the array, its first element, how many, and the bytes that they take with what fills
them up. -/
structure ImgPiece where
  arr   : Arr
  first : Nat
  count : Nat
  size  : Nat
  deriving DecidableEq, Repr

/-- Elements of an array, filled up to whole lines. -/
def wholePiece (a : Arr) (first count bytes : Nat) : ImgPiece :=
  { arr := a, first := first, count := count, size := roundUp 128 (bytes * count) }

/-- A moment's stretches of stone k: the elements, and for Q8 at once the stone's 64 scales, padded together (R485; log 46). -/
def momentPieces (a sc : Arr) (fmt k ne : Nat) : List ImgPiece :=
  if fmt = 2 then [{ arr := a, first := 4096 * k, count := ne, size := ne },
    { arr := sc, first := 64 * k, count := ceilDiv ne 64, size := roundUp 128 (ne + 256) - ne }]
  else [wholePiece a (4096 * k) ne (momBytes fmt)]

/-- The stretches of stone k. -/
def Group.stonePieces (g : Group) (k : Nat) : List ImgPiece :=
  let ne := min 4096 (g.n - 4096 * k)
  [wholePiece .head (4096 * k) ne 4, wholePiece .tail (4096 * k) ne 2] ++
  (if g.hasM then momentPieces .m .mScale g.mFmt k ne else []) ++ (if g.hasV then momentPieces .v .vScale g.vFmt k ne else [])

/-- The row arrays. -/
def Group.rowPieces (g : Group) : List ImgPiece :=
  (if g.rule = 1 then [wholePiece .rstat 0 g.rows 4] else []) ++
  (if g.sparse && g.rule == 0 then [wholePiece .rcnt 0 g.pRows 4] else []) ++
  (if g.sparse then [wholePiece .rlast 0 g.pRows 4] else [])

/-- All stretches of a section in order. -/
def Group.pieces (g : Group) : List ImgPiece :=
  ((List.range (ceilDiv g.n 4096)).map g.stonePieces).flatten ++ g.rowPieces

/-- Bytes of the column statistics in the image. -/
def Group.colBytes (g : Group) : Nat := if g.rule = 1 then roundUp 128 (4 * g.cols) else 0

/-- Where the column statistics begin in a section. -/
def Group.colAt (g : Group) : Nat := 1152 + g.pieces.foldl (fun t p => t + p.size) 0

/-- Bytes of a section. -/
def Group.sectionBytes (g : Group) : Nat := g.colAt + g.colBytes + 128

/-- Elements of a list of stretches from a section offset on: each element's offset, array and index. -/
def Group.items (g : Group) : Nat → List ImgPiece → List (Nat × Arr × Nat)
  | _, [] => []
  | off, p :: r =>
    (List.range p.count).map (fun i => (off + g.elemBytes p.arr * i, p.arr, p.first + i)) ++ Group.items g (off + p.size) r

/-- Bytes of the whole image of a group table. -/
def imageSize (gs : List (Nat × Group)) : Nat := 128 + gs.foldl (fun t e => t + e.2.sectionBytes) 0

/-! ### Building an image -/

/-- A byte and whether it comes from a poisoned word. -/
abbrev MByte := Byte × Bool

def sound (bs : List Byte) : List MByte := bs.map (fun b => (b, false))

/-- Fills up to a length. -/
def padTo (n : Nat) (bs : List MByte) : List MByte := bs ++ List.replicate (n - bs.length) (0, false)

/-- Fills up to whole lines. -/
def padLine (bs : List MByte) : List MByte := padTo (roundUp 128 bs.length) bs

/-- The bytes of words as delivered, each with its word's poison. -/
def valueBytes (vs : List (BondData × Bool)) : List MByte := vs.flatMap (fun v => (leBytes 16 v.1.toNat).map (fun b => (b, v.2)))

/-- The bytes of a stretch as they stand in a slot. -/
def State.pieceRead (s : State) (g : Group) (pl : Bool) (slot : Nat) (p : ImgPiece) : List MByte :=
  padTo p.size ((List.range p.count).map (fun i =>
    let v := s.peekNat (g.arrLoc pl p.arr slot (p.first + i)) (g.elemBytes p.arr)
    (leBytes (g.elemBytes p.arr) v.1).map (fun b => (b, v.2)))).flatten

/-- The column statistics of the committed area (R341, R485). -/
def Group.colRead (g : Group) (epoch : BitVec 64) : List MByte :=
  if g.rule = 1 then
    padLine ((List.range g.cols).map (fun j =>
      let v := Sparse.get (0, false) (if epoch.toNat % 2 = 0 then g.colA else g.colB) j
      (leBytes 4 v.1.toNat).map (fun b => (b, v.2)))).flatten
  else []

/-- A section: header, schedule table, stones, row arrays, column statistics, trailer (R485). -/
def State.imageSection (s : State) (n : Nat) (g : Group) (sched : List MByte) (epoch : BitVec 64) : List MByte :=
  let pl := s.gPlaced g
  let hdr := g.entry n ++ leBytes 8 g.start.toNat ++ leBytes 8 g.sectionBytes ++ [BitVec.ofNat 8 g.knots] ++
    List.replicate 47 (0 : Byte)
  let body := sound hdr ++ sched ++ (g.pieces.map (s.pieceRead g pl (g.rdSlot epoch))).flatten ++ g.colRead epoch
  body ++ sound (leBytes 4 (crc32 (body.map (·.1))).toNat ++ List.replicate 124 (0 : Byte))

/-- The header line (R485). -/
def State.imageHeader (s : State) (groups total : Nat) (epoch : BitVec 64) : List Byte :=
  let bs := leBytes 4 0x4B435043 ++ ([2, BitVec.ofNat 8 s.ctl.numRev] : List Byte) ++ leBytes 2 groups ++ leBytes 8 epoch.toNat ++
    leBytes 8 total ++ List.replicate 100 (0 : Byte)
  bs ++ leBytes 4 (crc32 bs).toNat

/-- Reads the 1 KiB schedule tables of groups from Mortar, under CORRECT and with the outcomes counted (R175, R176, R298): word i
of group n at key 64 n + i. -/
def State.schedules (s : State) (gs : List (Nat × Group)) : Sparse (BondData × Bool) × State :=
  gs.foldl (fun x e =>
    let r := x.2.readPlaces { src := 4, agent := agentWarden } ((List.range 64).map (fun i => mortarPlace (schedAt e.1 + 16 * i)))
    ((List.zip (List.range 64) r.1).foldl (fun m v => Sparse.set (0, false) m (64 * e.1 + v.1) v.2) x.1, r.2)) ([], s)

/-- The bytes of a group's table among words that were read. -/
def schedBytes (sched : Sparse (BondData × Bool)) (n : Nat) : List MByte :=
  valueBytes ((List.range 64).map (fun i => Sparse.get (0, false) sched (64 * n + i)))

/-- The whole image; `sched` holds the words of the schedule tables. -/
def State.image (s : State) (gs : List (Nat × Group)) (sched : Sparse (BondData × Bool)) (epoch : BitVec 64) : List MByte :=
  sound (s.imageHeader gs.length (imageSize gs) epoch) ++
  (gs.map (fun e => s.imageSection e.1 e.2 (schedBytes sched e.1) epoch)).flatten

/-! ### Stack ranges -/

/-- Places of the words of a range, in order. -/
def State.rangePlaces (s : State) (r : Region) (a n : Nat) : List Place :=
  ((List.range (n / 128)).map (fun i => s.linePlaces (r.loc (a + 128 * i)) r.detect)).flatten

/-- Writes bytes from stack offset a on; a word with a byte from a poisoned word is poisoned (R179). -/
def State.writeRange (s : State) (r : Region) (a : Nat) (bs : List MByte) : State :=
  let ps := s.rangePlaces r a bs.length
  s.writePlaces ((List.zip (List.range ps.length) ps).map (fun e =>
    let w := (bs.drop (16 * e.1)).take 16
    (e.2, BitVec.ofNat 128 (leNat (w.map (·.1))), w.any (·.2))))

/-- The bytes of a range as delivered, with nothing counted. -/
def State.readRange (s : State) (r : Region) (a n : Nat) : List MByte := valueBytes ((s.rangePlaces r a n).map s.peek)

/-- The Keystone leaf that moves an image (R570; log 11). -/
def State.imageWho (s : State) : Who := { src := 7, agent := 32 + (Config.leaf s.free).toNat }

/-- Elements that an image holds, the first section beginning at an image offset: the line of each, its group, array and index. -/
def imageItems : Nat → List (Nat × Group) → List (Nat × Group × Arr × Nat)
  | _, [] => []
  | off, e :: r =>
    (e.2.items (off + 1152) e.2.pieces).map (fun x => (x.1 / 128, e.2, x.2)) ++ imageItems (off + e.2.sectionBytes) r

/-- The words that an export reads for image lines [first, last): each word once, for the first line that it goes into (R570). -/
def State.exportWords (s : State) (gs : List (Nat × Group)) (epoch : BitVec 64) (first last : Nat) : Sparse Place :=
  let place (x : Nat × Group × Arr × Nat) : Place :=
    s.locPlace (x.2.1.arrLoc (s.gPlaced x.2.1) x.2.2.1 (x.2.1.rdSlot epoch) x.2.2.2) false
  let put (pick : Nat → Bool) : Sparse Place :=
    ((imageItems 128 gs).filter (fun x => pick x.1)).foldl (fun m x => Sparse.put (place x).word (place x) m) []
  let before := put (fun l => decide (l < first))
  (put (fun l => decide (first ≤ l) && decide (l < last))).filter (fun e => !before.any (fun b => b.1 == e.1))

/-! ### CHECKPOINT_EXPORT (R484) -/

/-- Some step is UPDATING, UPDATED or COMMITTING (R504). -/
def State.stepsRun (s : State) : Bool :=
  let run (x : StepSet) : Bool := x.held && (x.state == .updating || x.state == .updated || x.state == .committing)
  run s.ctl.setA || run s.ctl.setB

/-- What breaks a range of R509, by the payload offset of the field. -/
def State.rangeBad (s : State) (a n : Nat) : Option Nat :=
  if a % 128 ≠ 0 then some 0 else if n % 128 ≠ 0 then some 8 else if (s.dataRange a n).isNone then some 8 else none

/-- TOTAL_BYTES and EPOCH (R509). -/
def exportResponse (total : Nat) (epoch : BitVec 64) : List Byte := leBytes 8 total ++ leBytes 8 epoch.toNat

/-- A line of bytes for a stack offset, whose access waits for its bank as the engine's do (R203, R484, R570). -/
def State.putImageLine (s : State) (r : Region) (off : Nat) (bs : List MByte) : State :=
  (s.bankAccess (r.loc off).bank (.line true off (imageWords bs) s.seq)).bump

/-- An export in progress: its hasp and destination, with what CHECKPOINT_EXPORT kept. -/
structure ExportJob where
  hasp   : Nat
  dst    : Nat
  region : Region
  groups : List (Nat × Group)
  sched  : Sparse (BondData × Bool)
  epoch  : BitVec 64
  deriving DecidableEq, Repr

/-- The export in progress. -/
def State.export? (s : State) : Option ExportJob :=
  s.mbox.bg.findSome? (fun b => match b with
    | .export_ h dst n gs sched epoch =>
      (s.dataRange dst n).map (fun r => { hasp := h, dst := dst, region := r, groups := gs, sched := sched, epoch := epoch })
    | _ => none)

/-- The words of the first line of an export's destination. -/
def State.firstLine (s : State) (x : ExportJob) : List Nat := wordUnion [(s.rangePlaces x.region x.dst 128).map (·.word)]

/-- The first line of the export in progress is written zero (R484). -/
def State.zeroLine (s : State) : State :=
  match s.export? with
  | some x => s.writeRange x.region x.dst (List.replicate 128 (0, false))
  | none => s

/-- The export in progress writes its first line zero: an access of the engine within its allowance, which waits for its bank and for
later ticks as the others do (R203, R437, R484, R570). -/
def State.exportZero (s : State) : State :=
  match s.export? with
  | some x =>
    let plan := rowPlan [(true, s.firstLine x)]
    let y := s.ksAccess plan (planCost plan) .zeroLine
    if y.2 then y.1 else y.1.zeroLine
  | none => s

/-- CHECKPOINT_EXPORT after the checks of R497: it keeps the tables as they stand, and zeroes the first line (R484, R500); every byte
of the image is then to be read and written once (R570). -/
def State.exportStart (s : State) (h : Nat) : State :=
  let x := s.hasp h
  let dst := x.pay 0 8
  let n := x.pay 8 8
  let total := imageSize s.groupList
  if s.stepsRun then s.finish h .stepBusy 0 []
  else if s.exporting then s.finish h .engineBusy 0 []
  else match s.rangeBad dst n, s.dataRange dst n with
    | some o, _ => s.finish h .badField (fieldAt o) []
    | none, none => s
    | none, some _ =>
      if s.importIncomplete then s.finish h .importIncomplete 0 []
      else if n < total then s.finish h .noSpace 0 (exportResponse total s.ctl.epoch)
      else
        let x := s.schedules s.groupList
        let s := x.2.owe (total / 16)
        ({ s with mbox := { s.mbox with bg := s.mbox.bg ++ [.export_ h dst n (s.groupList) x.1 s.ctl.epoch] } } : State).exportZero

/-- A line of an image from one stack offset on and below another still waits for its bank. -/
def State.lineWaits (s : State) (first last : Nat) : Bool := s.banks.any (fun e => e.2.queue.any (fun a => match a with
  | .line true off _ _ => decide (first ≤ off) && decide (off < last)
  | _ => false))

/-- The zero line of the export in progress still waits: no other line goes out before it (R484). -/
def State.zeroWaits (s : State) : Bool := s.tasked .zeroLine

/-- The sources of image lines [first, last) have been read, and the lines go out (R484, R570). -/
def State.linesOut (s : State) (first last : Nat) : State :=
  match s.export? with
  | some x =>
    let s := s.accountWords s.imageWho (s.exportWords x.groups x.epoch first last)
    let img := s.image x.groups x.sched x.epoch
    (List.range (last - first)).foldl (fun s i =>
      s.putImageLine x.region (x.dst + 128 * (first + i)) ((img.drop (128 * (first + i))).take 128)) s
  | none => s

/-- The leaves read the sources of image lines [first, last) (R203, R570). -/
def State.exportMove (s : State) (first last : Nat) : State :=
  if last ≤ first then s
  else match s.export? with
    | some x =>
      let x := s.ksAccess (rowPlan [(false, (s.exportWords x.groups x.epoch first last).map (·.1))]) 0 (.exportLines first last)
      if x.2 then x.1 else x.1.linesOut first last
    | none => s

/-- Image lines that sectors have moved, 4 sectors read and 4 written for each; the header's are the last (R484, R570). -/
def State.linesMoved (s : State) (x : ExportJob) (debt : Nat) : Nat :=
  min (imageSize x.groups / 128) (1 + (s.ctl.debtAll - debt) / 8)

/-- The header line is written, and the export completes (R484). -/
def State.exportFinish (s : State) : State :=
  match s.export? with
  | some x =>
    let s := s.dropBg (fun b => match b with
      | .export_ _ _ _ _ _ _ => true
      | _ => false)
    (s.writeRange x.region x.dst ((s.image x.groups x.sched x.epoch).take 128)).finish x.hasp .okay 0
      (exportResponse (imageSize x.groups) x.epoch)
  | none => s

/-- Lines of the image, or their sources, have not all been served. -/
def State.exportWaits (s : State) (x : ExportJob) : Bool :=
  s.lineWaits x.dst (x.dst + imageSize x.groups) || s.ctl.items.any (fun i => match i.task with
    | .exportLines _ _ => true
    | _ => false)

/-- EXPORT_DONE: every other line is written, the header line follows, and the export completes; it waits where that line must wait
for its bank (R203, R484). -/
def State.exportDone (s : State) : State :=
  match s.export? with
  | some x =>
    if s.zeroWaits || s.exportWaits x || s.tasked .exportEnd then s
    else
      let y := s.ksAccess (rowPlan [(true, s.firstLine x)]) 0 .exportEnd
      if y.2 then y.1 else y.1.exportFinish
  | none => s

/-! ### CHECKPOINT_IMPORT (R486) -/

/-- Bytes [lo, lo + n) of an image as a number. -/
def imgNum (bs : List Byte) (lo n : Nat) : Nat := field bs lo n

/-- A well-formed section at an offset, and its length (R486 check 4). -/
def sectionLen (bs : List Byte) (off total : Nat) : Option Nat :=
  let b := bs.drop off
  let g := Group.ofBytes (b.take 64)
  let len := imgNum b 72 8
  let knots := imgNum b 80 1
  if total < off + 1280 ∨ total < off + len ∨ len ≠ g.sectionBytes then none
  else if knots < 1 ∨ 64 < knots then none
  else if (firstNonzero b 9 1).isSome ∨ (firstNonzero b 14 2).isSome ∨ g.flags.getLsbD 7 ∨ 3 < g.rnd.toNat ∨
      (firstNonzero b 48 16).isSome ∨ (firstNonzero b 81 47).isSome ∨
      (List.range 64).any (fun j => (firstNonzero b (128 + 16 * j + 12) 4).isSome) ∨ (firstNonzero b (len - 124) 124).isSome then none
  else if crc32 (b.take (len - 128)) = BitVec.ofNat 32 (imgNum b (len - 128) 4) then some len
  else none

/-- The offsets of `n` sections that fill the image exactly. -/
def sectionsOf (bs : List Byte) (total : Nat) : Nat → Nat → Option (List Nat)
  | 0, off => if off = total then some [] else none
  | n + 1, off => match sectionLen bs off total with
    | none => none
    | some len => (sectionsOf bs total n (off + len)).map (fun r => off :: r)

/-- The header line is well formed (R486 check 4). -/
def headerOk (bs : List Byte) : Bool :=
  imgNum bs 0 4 == 0x4B435043 && crc32 (bs.take 124) == BitVec.ofNat 32 (imgNum bs 124 4) && (firstNonzero bs 24 100).isNone

/-- A whole, well-formed image of at most n bytes at a stack offset: its bytes and the offsets of its sections. A range in
which a word of the image does not check holds none. -/
def State.imageAt (s : State) (r : Region) (a n : Nat) : Option (List Byte × List Nat) :=
  if n < 128 then none
  else
    let hdr := s.readRange r a 128
    let total := imgNum (hdr.map (·.1)) 16 8
    if hdr.any (·.2) ∨ !headerOk (hdr.map (·.1)) ∨ n < total ∨ total % 128 ≠ 0 then none
    else
      let img := s.readRange r a total
      if img.any (·.2) then none
      else
        let bs := img.map (·.1)
        (sectionsOf bs total (imgNum bs 6 2) 128).map (fun secs => (bs, secs))

/-- The group number that a section names. -/
def sectionGroup (bs : List Byte) (off : Nat) : Nat := imgNum bs (off + 12) 2

/-- The structure of a group as R486 compares it: RULE, N, ROWS, COLS, M_FMT, V_FMT, SPARSE and FIRST_MOMENT. -/
def Group.sameShape (g o : Group) : Bool :=
  g.rule == o.rule && g.n == o.n && g.rows == o.rows && g.cols == o.cols && g.mFmt == o.mFmt && g.vFmt == o.vFmt &&
  g.sparse == o.sparse && g.firstMoment == o.firstMoment

/-- Check 5 of R486. -/
def State.imageFits (s : State) (bs : List Byte) (secs : List Nat) : Bool :=
  imgNum bs 4 1 == 2 && secs.map (sectionGroup bs) == s.groupList.map (·.1) &&
  (List.zip secs s.groupList).all (fun e => (Group.ofBytes ((bs.drop e.1).take 64)).sameShape e.2.2)

/-- What an import writes to the stack: the state of every group in the slot of an epoch, and its Coffer version (R487). -/
def State.importWrites (s : State) (epoch : BitVec 64) : List Nat :=
  wordUnion (s.groupList.map (fun e =>
    let c := s.deriveCtx e.1 e.2
    wordUnion [((e.2.items 1152 e.2.pieces).foldl (fun m x => s.addWord m (c.loc x.2.1 (e.2.rdSlot epoch) x.2.2)) []).map (·.1),
      s.cofferWords c epoch.toNat (List.range e.2.n)]))

/-- The bytes of a source range that an import reads: the header, and as much as it names (R486). -/
def State.imageSpan (s : State) (r : Region) (src n : Nat) : Nat :=
  min n (max 128 (imgNum ((s.readRange r src (min n 128)).map (·.1)) 16 8))

/-- Checks 4 and 5 of R486, once the range has been read: an accepted import marks every group (R488), and the rows of the groups'
state and of their Coffer versions are moved as the allowances of the ticks and the banks let them (R203, R437, R570). -/
def State.importRead (s : State) (h : Nat) : State :=
  let x := s.hasp h
  let src := x.pay 0 8
  let n := x.pay 8 8
  match s.dataRange src n with
  | none => s.finish h .imageCrc 0 []
  | some r =>
    let s1 := (s.readPlaces { src := 0, agent := agentWarden } (s.rangePlaces r src (s.imageSpan r src n))).2
    match s.imageAt r src n with
    | none => s1.finish h .imageCrc 0 []
    | some (bs, secs) =>
      if s.imageFits bs secs then
        let s2 := (s1.groupList.foldl (fun s e => s.setGroup e.1 (some { e.2 with marked := true })) s1).configChanged
        let plan := rowPlan [(true, s1.importWrites (BitVec.ofNat 64 (imgNum bs 8 8)))]
        (s2.ksAccess plan (planCost plan) (.importRows h)).1.holdSerial h
      else s1.finish h .imageMismatch 0 []

/-- CHECKPOINT_IMPORT after the checks of R497: checks 1 to 3 of R486, and the reading of the range, within the sector allowance and
as its banks allow (R203, R437, R570). -/
def State.importStart (s : State) (h : Nat) : State :=
  let x := s.hasp h
  let src := x.pay 0 8
  let n := x.pay 8 8
  if s.holdsStep then s.finish h .stepBusy 0 []
  else if s.exporting then s.finish h .engineBusy 0 []
  else match s.rangeBad src n, s.dataRange src n with
    | some o, _ => s.finish h .badField (fieldAt o) []
    | none, none => s
    | none, some r =>
      let k := s.imageSpan r src n
      let plan := rowPlan [(false, wordUnion [(s.rangePlaces r src k).map (·.word)])]
      let x := s.ksAccess plan (planCost plan) (.importRead h)
      if x.2 then x.1.holdSerial h else x.1.importRead h

/-- Writes one group's state from its section, with its schedule, S_G and the weights of version `epoch` (R487, R240). -/
def State.importGroup (s : State) (bs : List Byte) (off n : Nat) (g : Group) (epoch : BitVec 64) : State :=
  let b := bs.drop off
  let pl := s.gPlaced g
  let cols := ((List.range g.cols).map (fun j => (j, (BitVec.ofNat 32 (imgNum b (g.colAt + 4 * j) 4), false)))).filter
    (fun e : Nat × (F32 × Bool) => e.2 != (0, false))
  let even := epoch.toNat % 2 == 0
  let g : Group := { g with start := BitVec.ofNat 64 (imgNum b 64 8), knots := imgNum b 80 1, low := epoch, wRnd := g.rnd, wSeed := s.ctl.seed,
                            qA := (0, false), qB := (0, false), undef := g.undef && epoch.toNat % 2 == s.ctl.epoch.toNat % 2,
                            colA := if g.rule == 1 && even then cols else g.colA,
                            colB := if g.rule == 1 && !even then cols else g.colB,
                            done := [], pass1 := false, marked := false }
  let m := (g.items 1152 g.pieces).foldl (fun m x =>
    s.putAt m (g.arrLoc pl x.2.1 (g.rdSlot epoch) x.2.2) false ((b.drop x.1).take (g.elemBytes x.2.1))) []
  let s := (s.flush s.imageWho true false (fun _ => false) m).1
  let s := (s.setGroup n (some g)).putSchedule n ((b.drop 128).take 1024)
  s.deriveWeights n g epoch

/-- An accepted import (R487). -/
def State.importAll (s : State) (h : Nat) (bs : List Byte) (secs : List Nat) : State :=
  let epoch := BitVec.ofNat 64 (imgNum bs 8 8)
  let s := (List.zip secs s.groupList).foldl (fun s e => s.importGroup bs e.1 e.2.1 e.2.2 epoch) s
  let s := ({ s with ctl := { s.ctl with epoch := epoch } } : State).configChanged
  (s.release 0 (epoch.toNat % 2 ^ 48) 2 agentWarden).finish h .okay 0 (leBytes 8 epoch.toNat)

/-- The import in progress: its hasp, and the image where its range still holds one. -/
def State.import? (s : State) : Option (Nat × Option (List Byte × List Nat)) :=
  match s.mbox.active with
  | none => none
  | some h =>
    let x := s.hasp h
    if x.opcode = 0x0C ∧ s.mbox.after.isNone then
      (s.dataRange (x.pay 0 8) (x.pay 8 8)).map (fun r => (h, s.imageAt r (x.pay 0 8) (x.pay 8 8)))
    else none

/-- The import in progress ends; where the range holds no whole image any more, as check 4 has it (log 39). -/
def State.importFinish (s : State) : State :=
  match s.import? with
  | some (h, some (bs, secs)) => s.importAll h bs secs
  | some (h, none) => s.finish h .imageCrc 0 []
  | none => s

/-- IMPORT_DONE: once the rows have been read and moved, the import ends (R203, R437). -/
def State.importDone (s : State) : State :=
  match s.import? with
  | some (h, _) => if s.recordBusy || s.tasked (.importRead h) || s.tasked (.importRows h) then s else s.importFinish
  | none => s

/-- A checkpoint transfer goes on: Warden and the leaves run (R89, R547, R557). -/
def State.imageRuns (s : State) : Bool := s.wardenRuns && s.leavesRun

/-- The leaves have moved what they had to, within the sector allowances of the ticks (R437, R570). -/
def State.imageMoved (s : State) : Bool := s.imageRuns && decide (s.ctl.debt = 0)

/-! ### Work items of the Keystone engine (R203) -/

/-- What follows the accesses of a work item. -/
def State.runTask (s : State) : KsTask → State
  | .unitRead g u => s.unitBack g u
  | .unitStart g u => s.unitStarted g u
  | .unitOut g u => s.unitWrite g u
  | .unitDone g u => s.unitFinished g u
  | .pass2 b g => s.pass2Begin b g
  | .updateOut b => s.updateEnd b
  | .runRows _ => s
  | .masksOut b => s.masksLeft b
  | .scanEnd b => s.sealScan b
  | .zeroLine => s.zeroLine
  | .exportLines first last => s.linesOut first last
  | .exportEnd => s.exportFinish
  | .importRead h => s.importRead h
  | .importRows _ => s
  | .create h => s.createEnd h
  | .recordEnd => s.recordFinish
  | .derive h b ns later clears => s.abandonRest h b ns later clears
  | .abandoned h b later => s.abandonEnd h b later

/-- The parts of Crety that an item needs go on: the leaves and Warden for what they do (R89, R448, R547, R557). -/
def State.taskRuns (s : State) : KsTask → Bool
  | .unitRead g _ => s.groupRuns g
  | .unitStart g _ => s.groupRuns g
  | .unitOut g _ => s.groupRuns g
  | .unitDone g _ => s.groupRuns g
  | .pass2 _ g => s.groupRuns g
  | .updateOut _ => s.wardenRuns && s.groupList.all (fun e => s.groupRuns e.1)
  | .runRows _ => s.serving && !s.plumb.esr && s.runs 1
  | .masksOut _ => s.serving && !s.plumb.esr && s.runs 1
  | .scanEnd _ => s.wardenRuns
  | .zeroLine => s.imageRuns
  | .exportLines _ _ => s.imageRuns
  | .exportEnd => s.imageRuns
  | .importRead _ => s.imageRuns
  | .importRows _ => s.imageRuns
  | .create _ => s.wardenRuns
  | .recordEnd => s.wardenRuns
  | .derive _ _ _ _ _ => s.imageRuns
  | .abandoned _ _ _ => s.wardenRuns

/-- No record write stands before what follows an item: the lines of its own record are written, or, where a record of its own will
follow, no other is in flight (R346). -/
def State.taskFree (s : State) : KsTask → Bool
  | .recordEnd => s.ctl.lintel.isEmpty
  | .abandoned _ _ _ => s.ctl.lintel.isEmpty
  | .updateOut _ => !s.recordBusy
  | .importRead _ => !s.recordBusy
  | .create _ => !s.recordBusy
  | .derive _ _ _ _ _ => !s.recordBusy
  | .unitRead _ _ => true
  | .unitStart _ _ => true
  | .unitOut _ _ => true
  | .unitDone _ _ => true
  | .pass2 _ _ => true
  | .runRows _ => true
  | .masksOut _ => true
  | .zeroLine => true
  | .importRows _ => true
  | .scanEnd _ => true
  | .exportLines _ _ => true
  | .exportEnd => true

/-- Changes the items of the engine. -/
def State.mapItems (s : State) (f : List KsItem → List KsItem) : State := { s with ctl := { s.ctl with items := f s.ctl.items } }

/-- An item makes those accesses that are paid for, if it has not yet (R203, R437). -/
def State.itemIssue (s : State) (i : KsItem) : State :=
  let x := splitPlan i.owed i.plan
  if !x.1.isEmpty ∧ s.taskRuns i.task then
    (s.mapItems (fun l => l.map (fun j => if j.id = i.id then { j with plan := x.2 } else j))).issue i.id x.1
  else s

/-- All accesses of an item have been served, and what follows them can run. -/
def State.itemReady (s : State) (i : KsItem) : Bool :=
  decide (i.owed = 0) && !s.itemWaits i.id && s.taskRuns i.task && s.taskFree i.task

/-- Runs every work item that is ready, oldest first. -/
def State.runItems (s : State) : State :=
  s.ctl.items.foldl (fun s i =>
    if s.ctl.items.any (fun j => j.id == i.id) then
      let s := s.itemIssue i
      if s.itemReady i then (s.mapItems (fun l => l.filter (fun j => j.id != i.id))).runTask i.task else s
    else s) s

/-! ### The sector allowance of a tick (R437, R547, R570) -/

/-- Waiting items are given whole lines of what is left of an allowance, oldest first: the sectors left then, the parameters that are
updated with them, and the items. -/
def payItems (pay : KsItem → Bool) : Nat → List KsItem → Nat × Nat × List KsItem
  | n, [] => (n, 0, [])
  | n, i :: r =>
    let k := if pay i then min n i.owed / 4 * 4 else 0
    let m := if i.owed = 0 then 0 else i.params * k / i.owed
    let x := payItems pay (n - k) r
    (x.1, m + x.2.1, { i with owed := i.owed - k, params := i.params - m } :: x.2.2)

/-- The export that the debt stands for goes on: it pauses while Warden is halted, and its lines wait for the zero line (R484,
R547). -/
def State.debtRuns (s : State) : Bool := s.imageRuns && !s.zeroWaits

/-- PROGRESS of a running export follows the sectors that have been moved (R509). -/
def State.showExport (s : State) : State :=
  match s.export? with
  | some x =>
    if s.ctl.debtAll = 0 then s
    else s.setHasp x.hasp { s.hasp x.hasp with
      progress := BitVec.ofNat 16 (min 65535 ((s.ctl.debtAll - s.ctl.debt) * 65536 / s.ctl.debtAll)) }
  | none => s

/-- The engine has moved sectors of its debt: of an export, the lines that they carry go out. -/
def State.payMoves (s : State) (n : Nat) : State :=
  let d := s.ctl.debt
  let t : State := { s with ctl := { s.ctl with debt := d - n } }
  match t.export? with
  | some x => (t.exportMove (t.linesMoved x d) (t.linesMoved x (d - n))).showExport
  | none => t

/-- The tick that ends has given what was left of its sector allowance to the work that waits for it and could go on, which moves in
that tick: items first, then the lines of an export, 4 sectors read and 4 written for each (R437, R570; log 61). -/
def State.payDebt (s : State) : State :=
  if !s.leavesRun || !s.runs 1 || s.plumb.esr then s
  else
    let x := payItems (fun i => s.taskRuns i.task) s.ksRest s.ctl.items
    let s := ((s.ksSpend (s.ksRest - x.1)).countParams x.2.1).mapItems (fun _ => x.2.2)
    let s := s.ctl.items.foldl (fun s i => s.itemIssue i) s
    let n := min s.ctl.debt (x.1 / 8 * 8)
    if n = 0 || !s.debtRuns then s else (s.ksSpend n).payMoves n

/-! ### Commands -/

/-- CHECKPOINT_EXPORT (R484, R509). -/
def execCheckpointExport (hasp : Nat) (s : State) : Host.Outcome State Fault Refusal :=
  guard (decide (hasp < 16)) (s.runCommand hasp 0x0B (fun s => s.exportStart hasp))

/-- EXPORT_DONE (R484, R485). -/
def execExportDone (s : State) : Host.Outcome State Fault Refusal := .next (if s.imageMoved then s.exportDone else s)

/-- CHECKPOINT_IMPORT (R486, R488). -/
def execCheckpointImport (hasp : Nat) (s : State) : Host.Outcome State Fault Refusal :=
  guard (decide (hasp < 16)) (s.runCommand hasp 0x0C (fun s => s.importStart hasp))

/-- IMPORT_DONE (R487). -/
def execImportDone (s : State) : Host.Outcome State Fault Refusal := .next (if s.imageRuns then s.importDone else s)

end Sys2Proof.Machine
end

