-- ==== Sys2Proof/Machine/Bank.lean ====
section
/-!
DEFINITION. What a channel controller does to its banks: refresh, courses and beds, the patrols, refresh tiers, stack
alerts and emergency self-refresh (R101 to R117, R181 to R184, R191 to R218, R447 to R450).
-/

namespace Sys2Proof.Machine

/-! ### Refresh (R97, R199, R200, R204, R209 to R214) -/

/-- The refresh that comes first at a boundary and in the open phase: PRESSING and FULL (R199, R204, R210, R212; log 27). -/
def State.pressing (s : State) (k : Nat) : State :=
  if decide (4 ≤ (s.bank k).owed) && s.mayRefresh k then s.refpb k else s

/-- What comes first at a boundary of a bank: a record line that waits for it, behind an owed REFpb at FULL level; else the
pressing refresh (R199, R204, R347). -/
def State.bankFirst (s : State) (k : Nat) : State :=
  let t := s.lintelAt (some k)
  if (t.bank k).owed < (s.bank k).owed then t else t.pressing k

/-- Record lines and work items that waited for banks go on, and so do the mark masks of a scan. -/
def State.goOn (s : State) : State := (((s.lintelAt none).masksGo false).masksGo true).runItems

/-- Item 4 of R204: a bank with refresh owed and nothing queued. -/
def State.idleRefresh (s : State) (k : Nat) : State :=
  if (s.bank k).queue.isEmpty && s.mayRefresh k then s.refpb k else s

/-- Accrual per tick of a refresh tier (R210). -/
def tierStep (tier : Nat) : Nat := if tier = 0 then 4608 else if tier = 1 then 9216 else 18432

/-- What an accrual adds to the owed count: O stays at most 8, and a rise to 8 is a FULL event (R209, R212). -/
def accrue (acc owed step : Nat) : Nat × Nat :=
  let t := acc + step
  (t % 16000, min 8 (owed + t / 16000))

/-- A FULL event is counted (R212). -/
def State.countFull (s : State) (k : Nat) : State :=
  s.cross (k / 16) (fun s => s.setChan (k / 16) { s.chan (k / 16) with refFull := satAdd (s.chan (k / 16)).refFull 1 })

/-- What follows an accrual in a bank with no course.  FULL is refreshed at once, and the queue is served again (R212).  In
the open phase, and where a stopped REFCLK leaves no course window, R204 goes on. -/
def State.afterAccrual (s : State) (k : Nat) : State :=
  if (s.bank k).course.isSome then s
  else if 8 ≤ (s.bank k).owed then (s.pressing k).serveIdle k
  else if s.clk.openPhase || !s.runs 4 then (s.pressing k).idleRefresh k
  else s

/-- One accrual of a bank.  With REFCLK stopped it accrues at tier 2 once in each tick of the controller's own, in which
R211 counts (R558). -/
def State.accrual (s : State) (k : Nat) : State :=
  let b := s.bank k
  let tier := if s.runs 4 then (s.die (k / 256)).tier else 2
  let r := accrue b.acc.toNat b.owed (tierStep tier)
  let s := s.setBank k { b with acc := BitVec.ofNat 16 r.1, owed := r.2, refs := if s.runs 4 then b.refs else 0 }
  (if b.owed < 8 ∧ r.2 = 8 then s.countFull k else s).afterAccrual k

/-! ### Work of a context (R194, R273, R438) -/

/-- A ring's contexts may run (R363, R368, R369, R398). -/
def Ring.works (r : Ring) : Bool := r.retires && !r.saving && !r.loading

/-- A context has work pending in a bank (R194): the lines of its share that its beds have not passed, staged pieces, or a
ring descriptor. -/
def State.ctxWork (s : State) (k ctx : Nat) : Bool :=
  if ctx = 0 then
    s.ctl.staged.any (fun l => l.pieces.any (fun p => p.bank == k)) ||
    (s.sweeping && decide ((s.bank k).passed.1 < s.sweepShare k))
  else if ctx = 1 then
    match s.updRun with
    | some (_, r) => decide ((s.bank k).passed.2 < s.runShare r k)
    | none => false
  else match (s.ring k).inContext ctx with
    | some f => !f.done && (s.ring k).works
    | none => false

/-- Some context of the bank has work pending (R438). -/
def State.bankWork (s : State) (k : Nat) : Bool := [0, 1, 2, 3].any (s.ctxWork k)

/-- The order in which contexts are chosen (R194). -/
def State.ctxOrder (s : State) : List Nat := if s.clk.tick.toNat % 2 = 0 then [0, 1, 2, 3] else [0, 1, 3, 2]

/-! ### Courses and beds (R110 to R112, R193 to R197, R218, R312) -/

/-- Courses in progress on a channel: its active units (R118). -/
def State.active (s : State) (c : Nat) : Nat := ((List.range 16).filter (fun b => (s.bank (16 * c + b)).course.isSome)).length

/-- A bed that begins in cycle g keeps R196: no 64 SCLK cycles hold more than 4 of the channel's beds. -/
def slotFree (begun : List Nat) (g : Nat) : Bool :=
  (g :: begun).all (fun b => !(decide (b ≤ g) && decide (g < b + 64)) ||
    decide ((begun.filter (fun x => decide (b ≤ x) && decide (x < b + 64))).length < 4))

/-- The first even cycle from g on that R196 allows. -/
def nextSlot (begun : List Nat) : Nat → Nat → Nat
  | 0, g => g
  | fuel + 1, g => if slotFree begun g then g else nextSlot begun fuel (g + 2)

/-- The even cycle in which the bank's next bed can be granted, from a start slot on (R193, R196). -/
def State.grantAt (s : State) (k slot : Nat) : Nat :=
  nextSlot (s.chan (k / 16)).begun 900 (roundUp 2 (max slot (max (s.bank k).busyTo s.sclk)))

/-- Bed length for a grant in cycle g; none below 8 BCLK cycles (R193). -/
def bedLen (g : Nat) : Option Nat :=
  let n := min 64 ((1800 - g - 2) / 2)
  if n < 8 then none else some n

/-- The bank's controller may grant beds: the course window runs, and nothing has ended courses for now (R193, R212, R218,
R447, R557, R558). -/
def State.mayGrant (s : State) (k : Nat) : Bool :=
  s.serving && !s.plumb.esr && !s.clk.openPhase && !(s.bank k).barred && !(s.bank k).hold && !(s.die (k / 256)).noBeds &&
  !(s.chan (k / 16)).sref && s.runs 1 && s.runs 4

/-- The scalar file as an image holds it (R395). -/
def imageScalars (f : Option InFlight) : Sparse (BitVec 32) :=
  let bs := (imageBytes f).drop 128
  ((List.range 64).map (fun i => (i, BitVec.ofNat 32 (field bs (4 * i) 4)))).filter (fun e => e.2 != 0)

/-- The scalar file while a context's course runs: a ring context's follows R395; that of contexts 0 and 1 holds what CSCW
wrote (R312). -/
def State.fileOf (s : State) (k ctx : Nat) : Sparse (BitVec 32) :=
  if ctx < 2 then (s.bank k).scalars else imageScalars ((s.ring k).inContext ctx)

/-- The stack takes the command of a course: CSTART (op 0x21) with none in progress, CCONT in the context of the one in
progress (R112). -/
def Bank.takes (b : Bank) (ctx op : Nat) : Bool :=
  match b.course with
  | none => op == 0x21
  | some c => op == 0x22 && c.ctx == ctx

/-- Grants a bed of n cycles in cycle g of a context by CSTART or CCONT; the stack ignores one that R112 does not allow, and
sets FAULT. -/
def State.grant (s : State) (k ctx op g n : Nat) : State :=
  let c := k / 16
  let b := s.bank k
  let d := s.die (k / 256)
  let s := s.sent c op k (ctx + 4 * n)
  if !b.takes ctx op then s.setBank k { b with ctx := setAt b.ctx ctx .fault }
  else
    let s := s.setBank k { b with course := some { ctx := ctx, len := n }, ctx := setAt b.ctx ctx .paused, busyTo := g + 2 + 2 * n,
                                  scalars := s.fileOf k ctx }
    (s.setDie (k / 256) { d with act := d.act + n }).setChan c { s.chan c with begun := g :: (s.chan c).begun }

/-- Where context 1 of a bank stands in the run: the context of the group, whether it is in pass 2, and the lines passed of it
(log 28). -/
def State.passAt (s : State) (k : Nat) : Option (UCtx × Bool × Nat) :=
  match s.updRun with
  | none => none
  | some (b, r) =>
    let p := (s.bank k).passed.2
    let first := s.firstShare r k
    let l := if p < first then s.firstPass r k else s.secondPass r k
    (groupAtLine l (if p < first then p else p - first)).map (fun e => (s.uctx b e.1 e.2.1 r.clip r.exp, decide (first ≤ p), e.2.2))

/-- The scalars that a pass of a group works with: those of pass 2 as R312 lists them; for pass 1 b2, omb2 and eps, for MOMENTUM lr,
b1 and λ; then, in each, what R303 forms the gradient with: the clip, and the exponent of an accumulator's least bit less the loss-scale
exponent (R20, R247, R303, R309, R313; log 66). -/
def UCtx.passScalars (c : UCtx) (second : Bool) : List F32 :=
  (if c.g.rule = 1 then
    if second then [c.sc.lr, c.sc.omb1, c.sc.b1, c.sc.lam, c.g.meanR.1, c.kClip.1] else [c.sc.b2, c.sc.omb2, c.sc.eps]
  else [c.sc.lr, c.sc.b1, c.sc.lam]) ++ [c.clip, BitVec.ofInt 32 (c.sc.eLsb - c.exp.toInt)]

/-- Chunks of 512 values of C_j', the chunk that pass 2 is in at a line of the group, and the line after its last: chunk by chunk
over the group's lines (R312; log 28). -/
def UCtx.chunks (c : UCtx) : Nat := ceilDiv c.g.cols 512
def UCtx.chunkAt (c : UCtx) (line : Nat) : Nat := line * c.chunks / (16 * c.g.slabs)
def UCtx.chunkEnd (c : UCtx) (line : Nat) : Nat := ceilDiv ((c.chunkAt line + 1) * (16 * c.g.slabs)) c.chunks

/-- The bytes of a chunk. -/
def UCtx.colChunk (c : UCtx) (chunk : Nat) : List Byte :=
  let j0 := 512 * chunk
  (List.range (min 512 (c.g.cols - j0))).flatMap (fun i => leBytes 4 (Sparse.get ((0 : F32), false) c.g.cStage (j0 + i)).1.toNat)

/-- Lines that a bed of context 1 can still pass before its unit needs other scalars or another chunk: to the end of the group's pass,
in pass 2 of a FACTORED group to the end of the chunk (R312). -/
def State.passRoom (s : State) (k : Nat) : Nat :=
  match s.passAt k with
  | some (c, second, line) => (if second && c.g.rule == 1 then min (16 * c.g.slabs) (c.chunkEnd line) else 16 * c.g.slabs) - line
  | none => 0

/-- CSCW of one scalar (R312; entries, log 66). -/
def State.putScalar (s : State) (k i : Nat) (v : BitVec 32) : State :=
  let s := s.sendScalar k i v
  s.setBank k { s.bank k with scalars := Sparse.set 0 (s.bank k).scalars i v }

/-- Scalars into the entries from 0 on: all before a course, and within one those that change. -/
def State.putScalars (s : State) (k : Nat) (start : Bool) (vs : List F32) : State :=
  (List.zip (List.range vs.length) vs).foldl (fun s e =>
    if start || Sparse.get 0 (s.bank k).scalars e.1 != e.2 then s.putScalar k e.1 e.2 else s) s

/-- The staged pieces of intake that stand in row latch 0, before a course of context 0 and, within one, where some piece of the bank
does not stand there (R275). -/
def State.feedIntake (s : State) (k : Nat) (start : Bool) : State :=
  let ps := s.piecesOf k
  if ps.isEmpty then s
  else if start || ps.any (fun p => !p.2.fed) || ((s.bank k).latch false).use != .staged then s.stagePieces k else s

/-- The chunk of column statistics that the bed will work with, where row latch 1 does not hold it: each crosses once per pass
(R312, R450). -/
def State.feedColumns (s : State) (k : Nat) (c : UCtx) (line : Nat) : State :=
  let use := LatchUse.columns c.n c.t (s.set c.b).runs (c.chunkAt line)
  if ((s.bank k).latch true).use = use then s else s.putLatch k true use (c.colChunk (c.chunkAt line))

/-- The vector chunk or the slate values that the descriptor is at, where row latch 1 does not hold them (R388, R391, R400). -/
def State.feedRing (s : State) (k : Nat) (f : InFlight) : State :=
  let d := Desc.of f.desc
  if d.gemv then (if ((s.bank k).vectorHeld f).isSome then s else s.gemvLoad k d f)
  else if d.slateFed then (if ((s.bank k).slateHeld d f.q f.outer).isSome then s else s.slateLoad k d f)
  else s

/-- What the controller loads into the unit before a course of a context and, within one, at each bed boundary: staged addends and mark
masks, the marks that a scan needs from other banks, the scalars and the column statistics of the pass that the bed will be in, the
vector chunk of GEMV_THIN, and the slate values of the row in progress (R20, R275, R285, R312, R388, R391, R400).  DESIGN CHOICE
(log 62): the rules say "a row latch"; addends take row latch 0, and marks of a scan, column statistics, vectors and slate values row
latch 1. -/
def State.feed (s : State) (k ctx : Nat) (start : Bool) : State :=
  if ctx = 0 then (s.feedIntake k start).feedMasks k
  else if ctx = 1 then
    match s.passAt k with
    | some (c, second, line) =>
      let s := s.putScalars k start (c.passScalars second)
      if second && c.g.rule == 1 then s.feedColumns k c line else s
    | none => s
  else match (s.ring k).inContext ctx with
    | some f => s.feedRing k f
    | none => s

/-- Starts the course of the next context with work, if the channel's allowance has room, no earlier than its start slot
(R194, R196, R197). -/
def State.startCourse (s : State) (k slot : Nat) : State :=
  if s.mayGrant k && s.bankOpen k && decide (s.active (k / 16) < (s.chan (k / 16)).allow) then
    match s.ctxOrder.find? (fun c => s.ctxWork k c) with
    | none => s
    | some c =>
      let s1 := s.feed k c true
      match bedLen (s1.grantAt k slot) with
      | some n => s1.grant k c 0x21 (s1.grantAt k slot) n
      | none => s
  else s

/-- CEND: the context is PARKED with its position, and CSTAT follows (R186, R195). -/
def State.endCourse (s : State) (k : Nat) : State :=
  let b := s.bank k
  match b.course with
  | none => s
  | some c =>
    let s := s.setBank k { b with course := none, ctx := setAt b.ctx c.ctx .parked, scalars := s.fileOf k c.ctx }
    (s.sent (k / 16) 0x23 k c.ctx).cstat k

/-- Lines of the clear or the scan that a bed of context 0 can still pass: in a scan that needs marks from other banks, those of the
chunk that stands in row latch 1 (R20; log 14). -/
def State.sweepRoom (s : State) (k : Nat) : Nat :=
  let p := (s.bank k).passed.1
  if !s.sweeping then 0
  else match s.maskUse k with
    | some (b, use) => if ((s.bank k).latch true).use = use then min (s.sweepShare k) (s.markChunkEnd b k p) - p else 0
    | none => s.sweepShare k - p

/-- The short weights that a bed has made of a SAFE group, from one line of its last pass to another, leave through row latch 0 and go to
the Coffer as banks allow (R203, R317). -/
def State.weightsOut (s : State) (k : Nat) (c : UCtx) (line last : Nat) : State :=
  match c.shares.find? (fun e => e.1 == k) with
  | some e =>
    let is := ((e.2.take (c.doneAt e.2.length last)).drop (c.doneAt e.2.length line)).filter c.touches
    if is.isEmpty then s
    else ((s.latchOut k (s.weightBytes c is)).ksAccess (rowPlan [(true, s.cofferWords c (c.t.toNat + 1) is)]) 0 (.runRows c.b)).1
  | none => s

/-- A bed of context 1 passes lines of the run (log 28); in the last pass of a SAFE group its short weights follow. -/
def State.updBed (s : State) (k work : Nat) : State :=
  let n := min work (s.passRoom k)
  let t := s.setBank k { s.bank k with passed := ((s.bank k).passed.1, (s.bank k).passed.2 + n) }
  match s.passAt k with
  | some (c, second, line) => if !c.g.lean && second == (c.g.rule == 1) then t.weightsOut k c line (line + n) else t
  | none => t

/-- A bed's end: its work stands.  A ring context does `work` units of its descriptor, contexts 0 and 1 pass `work` lines of their
share, up to where the bed's work ends (log 28). -/
def State.bedWork (s : State) (k ctx work : Nat) : State :=
  if ctx = 0 then s.setBank k { s.bank k with passed := ((s.bank k).passed.1 + min work (s.sweepRoom k), (s.bank k).passed.2) }
  else if ctx = 1 then s.updBed k work
  else match (s.ring k).flight.findIdx? (fun f => f.q % 2 == ctx - 2) with
    | some i => s.ringWork k i work
    | none => s

/-- The bed that runs in a bank goes on to its granted length, and its course ends there; the work that it does is free, since no
BED_END tells it (R195; log 28). -/
def State.lastBed (s : State) (k : Nat) : State :=
  match (s.bank k).course with
  | none => s
  | some c => (({ s with free := s.free + 1 } : State).bedWork k c.ctx (Config.bedUnits s.free)).endCourse k

/-- Every course ends at its next bed boundary (R195, R447, R451). -/
def State.endCourses (s : State) : State := (s.banks.map (·.1)).foldl (fun s k => s.lastBed k) s

/-! ### The patrol (R181 to R184) -/

def patrolWho : Who := { src := 2, agent := agentNone }

/-- Checks one word: counted and logged as by a read, and written back where it was CORRECTED under CORRECT (R183). -/
def State.patrolWord (s : State) (p : Place) : State :=
  let o := s.placeCheck p
  let s := s.account p.site patrolWho p.where_ o (s.placeSyn p)
  match o with
  | .corrected d => s.placeWrite p d false
  | _ => s

/-- The words of line number 16 × row + line of a bank, under the policy of its region. -/
def State.patrolPlaces (s : State) (k n : Nat) : List Place :=
  let row := n / 16
  let det := Region.policy (s.regionAtSlab row)
  (List.range 8).map (fun i => s.rowPlace k row (n % 16 * 8 + i) det)

/-- One line of a bank. -/
def State.patrolLine (s : State) (k n : Nat) : State := (s.patrolPlaces k n).foldl (fun s p => s.patrolWord p) s

/-- A word of the line is written back. -/
def State.patrolWrites (s : State) (k n : Nat) : Bool :=
  (s.patrolPlaces k n).any (fun p => match s.placeCheck p with
    | .corrected _ => true
    | _ => false)

/-- ACT, RD, optional WR and PRE of a patrol access: 54 SCLK cycles, 92 with write-back (R182, R206). -/
def State.patrolRow (s : State) (k n : Nat) : State :=
  let wr := s.patrolWrites k n
  let col (w : Bool) : Column := { write := w, sector := 4 * (n % 16), burst := 2 }
  (s.sendRow k (n / 16) (col false :: (if wr then [col true] else []))).occupy k (if wr then 92 else 54)

/-- Lines of a bank. -/
def bankLines : Nat := 147456

/-- The patrol's access, or its turn skipped (R182). -/
def State.patrolAccess (s : State) (k : Nat) : State :=
  let b := s.bank k
  let s := s.setBank k { b with patrolDue := false }
  if s.bankHeld k || decide (4 ≤ b.owed) || decide (95 * 16 < (s.die (k / 256)).temp) then s
  else
    let n := b.patrol % bankLines
    let s := s.setBank k { s.bank k with patrol := (b.patrol + 1) % bankLines }
    (s.patrolRow k n).patrolLine k n

/-- The patrol's turn in a bank: at once where no bed runs, else at the next boundary (R182, R199). -/
def State.patrolTurn (s : State) (k : Nat) : State :=
  if s.regs.scrubOn = 0 then s
  else if (s.bank k).course.isSome then s.setBank k { s.bank k with patrolDue := true }
  else s.patrolAccess k

/-- A patrol access that is due at a boundary, unless a host access is queued (R199). -/
def State.patrolAt (s : State) (k : Nat) : State :=
  if (s.bank k).patrolDue && (s.bank k).queue.all (fun a => !a.host) then s.patrolAccess k else s

/-- A patrol access that is due in the open phase (R204). -/
def State.patrolOpen (s : State) (k : Nat) : State := if (s.bank k).patrolDue then s.patrolAccess k else s

/-- Lines of Mortar. -/
def mortarLines : Nat := 786432

/-- A debug access to a Mortar line has started and is not performed yet. -/
def Debug.mortarPending (d : Debug) (n : Nat) : Bool :=
  d.access.isSome && bits d.result.toNat 146 144 == 5 && d.space == 0 && d.offset / 128 == 0x2000000 / 128 + n

/-- A request to a Mortar line waits behind an earlier one or for CCLK, or a debug access to it waits (R184). -/
def State.mortarPending (s : State) (n : Nat) : Bool :=
  s.ports.any (fun e => e.2.behind.any (fun r => r.ctl && r.addr.toNat / 128 == 0x2000000 / 128 + n)) || s.dbg.mortarPending n

/-- The next Mortar line: rewritten only where no other access to it is pending (R184). -/
def State.mortarTurn (s : State) : State :=
  let n := s.regs.mortarPatrol % mortarLines
  let s := { s with regs := { s.regs with mortarPatrol := (n + 1) % mortarLines } }
  (mortarLine (128 * n)).foldl (fun s p =>
    if s.mortarPending n then s.account p.site patrolWho p.where_ (s.placeCheck p) (s.placeSyn p) else s.patrolWord p) s

/-! ### Boundaries (R195, R199 to R204, R212) -/

/-- The course is over the channel's allowance, in descending bank order (R197). -/
def State.overAllow (s : State) (k : Nat) : Bool :=
  let c := k / 16
  let above := ((List.range 16).filter (fun b => decide (k % 16 < b) && (s.bank (16 * c + b)).course.isSome)).length
  decide (above + (s.chan c).allow < s.active c)

/-- After a course: every queued access is served in arrival order, contexts are moved, then the next may start (R202, R397).
DESIGN CHOICE (log 59): within the window no other bank gets a course; R194 does not say. -/
def State.afterCourse (s : State) (k : Nat) : State := ((s.serveQueue k true (fun _ => true)).ringDue k).startCourse k 0

/-- A bed boundary within a course (R199, R212). -/
def State.boundary (s : State) (k ctx : Nat) : State :=
  let full := decide (8 ≤ (s.bank k).owed)
  let s := (s.bankFirst k).patrolAt k
  let stop := full || !s.ctxWork k ctx || s.overAllow k || !s.mayGrant k
  match stop, bedLen (s.grantAt k 0) with
  | false, some _ =>
    let s := (s.serveQueue k false (fun a => !s.accessDefers a)).feed k ctx false
    match bedLen (s.grantAt k 0) with
    | some n => s.grant k ctx 0x22 (s.grantAt k 0) n
    | none => (s.endCourse k).afterCourse k
  | _, _ =>
    let s := s.endCourse k
    let s := if full then s.setBank k { s.bank k with barred := true } else s
    s.afterCourse k

/-- BED_END of a bank: its bed's work stands, time has reached the bed's end, and the boundary follows. -/
def State.bedEnd (s : State) (k work : Nat) : State :=
  match (s.bank k).course with
  | none => s
  | some c => ((s.touch ((s.bank k).busyTo * 200 / 2250)).bedWork k c.ctx work).boundary k c.ctx

/-- The open phase at one bank: its course ends, a bed that still runs with its work, then the order of R204, with the contexts moved
after the accesses (R192, R195, R397). -/
def State.openBank (s : State) (k : Nat) : State :=
  let s := (s.lastBed k).bankFirst k
  let s := (s.patrolOpen k).serveQueue k false (fun _ => true)
  (s.ringDue k).idleRefresh k

/-- Banks that have a course, something queued, refresh owed, a patrol turn or a context to move. -/
def State.busyBanks (s : State) : List Nat :=
  (s.banks.filter (fun e => e.2.course.isSome || !e.2.queue.isEmpty || e.2.owed != 0 || e.2.patrolDue || (s.ring e.1).loading ||
    (s.ring e.1).aborting)).map (·.1) ++
  (s.rings.filter (fun e => (e.2.loading || e.2.aborting) && (s.bank e.1) == .init)).map (·.1)

/-- COURSE_WINDOW_END (R192, R193, R195): cycle 1,800 is REFCLK cycle 160. -/
def State.windowEnd (s : State) : State :=
  let s := if s.runs 4 then s.touch 160 else s
  let s : State := { s with clk := { s.clk with openPhase := true } }
  (s.busyBanks.filter (fun k => s.chanLive (k / 16))).foldl (fun s k => s.openBank k) s

/-- RESERVED_REFRESH_SLOT of a bank (R204): cycle 2,058 is REFCLK cycle 182. -/
def State.reservedSlot (s : State) (k : Nat) : State :=
  let s := s.touch 182
  if s.clk.openPhase && decide ((s.bank k).refs = 0) && s.mayRefresh k then s.refpb k else s

/-- A bank with no course at a tick edge: the boundary of R199 at the window's start, which every class of access may use. -/
def State.edgeBank (s : State) (k : Nat) : State := ((s.bankFirst k).patrolAt k).serveIdle k

/-- Starts the courses of a tick; the courses of a channel take start slots, so that a channel begins at most 4 beds, and a die
64, in any 32 BCLK cycles (R120, R193, R196).  DESIGN CHOICE (log 59): the lowest bank numbers of a channel come first. -/
def State.startCourses (s : State) : State :=
  ((List.range 256).filter (fun c => decide (0 < (s.chan c).allow))).foldl (fun s c =>
    (List.range 16).foldl (fun s b => s.startCourse (16 * c + b) (16 * s.active c)) s) s

/-! ### Emergency self-refresh (R447 to R450) -/

/-- Every owed REFpb of a bank, past the limit of R211 (R447 step 4, R451); none behind a fuse hold (R130). -/
def State.payRefresh (s : State) (k : Nat) : State :=
  let n := (s.bank k).owed
  if s.fuseHeld k then s
  else (List.replicate n ()).foldl (fun s _ => s.sent (k / 16) 5 k 0) (s.setBank k ((s.bank k).refreshed n))

/-- A record line for the channel waits behind a fuse hold (R130, R345, R347). -/
def State.recordHeld (s : State) (c : Nat) : Bool :=
  (c == lintelBank false / 16 || c == lintelBank true / 16) && (match s.ctl.lintel with
    | l :: _ => s.fuseHeld (lintelBank l.copy)
    | [] => false)

/-- SRE on a channel: its units are empty from then on (R117).  A channel that is in self-refresh already takes no command, and one
behind a fuse hold, or with a record line that waits behind one, enters when the hold ends (R107, R130, R447). -/
def State.srefChan (s : State) (c : Nat) : State :=
  if (s.chan c).sref || (s.chan c).fprogHold || s.recordHeld c then s
  else
  let s := (List.range 16).foldl (fun s b => s.payRefresh (16 * c + b)) s
  (s.setChan c { s.chan c with sref := true }).sent c 6 0 0

/-- Puts every channel into self-refresh: every owed REFpb is issued first (R447 step 4, R451). -/
def State.enterSref (s : State) : State := (List.range 256).foldl (fun s c => s.srefChan c) s

/-- SRX on every channel: owed counts and accumulators start again at 0 (R213); a channel outside self-refresh ignores it (R460). -/
def State.leaveSref (s : State) : State :=
  let s := (s.banks.map (·.1)).foldl (fun s k =>
    if (s.chan (k / 16)).sref then s.setBank k { s.bank k with owed := 0, acc := 0 } else s) s
  (List.range 256).foldl (fun s c => (s.setChan c { s.chan c with sref := false }).sent c 7 0 0) s

/-- A context of a bank is to be saved (R450). -/
def CtxState.toSave : CtxState → Bool
  | .parked => true
  | .paused => true
  | _ => false

/-- Mortar offset of the context save buffer: 2 images of 384 B for each bank (R450, R567). -/
def saveBufferOff (k ctx : Nat) : Nat := 0x2900000 + (2 * k + ctx) * 384

/-- The 384 bytes of context 0 or 1 in the form of R395: its cursor, and the scalar file of context 1 (R114, R450; log 62). -/
def Bank.image (b : Bank) (ctx : Nat) : List Byte :=
  List.replicate 5 0 ++ [1, 0, 0] ++ leBytes 8 (if ctx = 0 then b.passed.1 else b.passed.2) ++ List.replicate 112 0 ++
  ((List.range 64).map (fun i => leBytes 4 (if ctx = 0 then 0 else (Sparse.get 0 b.scalars i).toNat))).flatten

/-- CSAVE of a parked context into the save buffer (R450). -/
def State.saveContext (s : State) (k ctx : Nat) : State :=
  let bs := (s.bank k).image ctx
  (List.range 24).foldl (fun s i =>
    s.placeWrite (mortarPlace (saveBufferOff k ctx + 16 * i)) (BitVec.ofNat 128 (leNat ((bs.drop (16 * i)).take 16))) false) (s.sendSave k ctx)

/-- CLOAD of a saved image: the context is PARKED at its position (R450). -/
def State.loadContext (s : State) (k ctx : Nat) : State :=
  let (vs, s) := s.readPlaces { src := 4, agent := agentNone } ((List.range 24).map (fun i => mortarPlace (saveBufferOff k ctx + 16 * i)))
  let bs := (vs.map (fun v => leBytes 16 v.1.toNat)).flatten
  let s := s.sendLoad k ctx
  let b := s.bank k
  s.setBank k { b with
    ctx := setAt b.ctx ctx .parked,
    passed := if ctx = 0 then (field bs 8 8, b.passed.2) else (b.passed.1, field bs 8 8),
    scalars := if ctx = 0 then b.scalars
      else ((List.range 64).map (fun i => (i, BitVec.ofNat 32 (field bs (128 + 4 * i) 4)))).filter (fun e => e.2 != 0) }

/-- Saves the parked contexts 0 and 1 of a bank (R450). -/
def State.saveBank (s : State) (k : Nat) : State :=
  let b := s.bank k
  let on := ((b.ctx.getD 0 .empty).toSave, (b.ctx.getD 1 .empty).toSave)
  let s := if on.1 then s.saveContext k 0 else s
  let s := if on.2 then s.saveContext k 1 else s
  s.setBank k { s.bank k with saved := on }

/-- Saves those of every bank; one behind a fuse hold follows when the hold ends (R130). -/
def State.saveContexts (s : State) : State := (s.banks.map (·.1)).foldl (fun s k => if s.fuseHeld k then s else s.saveBank k) s

/-- What units have in row latch 0 for Crety leaves them, once no course runs there (R20, R447). -/
def State.serveTakes (s : State) (k : Nat) : State :=
  s.serveQueue k false (fun a => match a with
    | .take _ _ _ => true
    | _ => false)

/-- A fuse hold has ended in emergency self-refresh: what waited behind it follows, the bank's contexts are saved, and the channels enter
(R130, R347, R447). -/
def State.lateSref (s : State) (c k : Nat) : State :=
  let s := ((s.serveTakes k).lintelForce).endWrites writeFuel
  ([c, lintelBank false / 16, lintelBank true / 16].foldl (fun s c => s.srefChan c) ((s.saveRing k).saveBank k)).emptyContexts

/-- CLOAD of every saved image (R450). -/
def State.loadContexts (s : State) : State :=
  (s.banks.map (·.1)).foldl (fun s k =>
    let on := (s.bank k).saved
    let s := if on.1 then s.loadContext k 0 else s
    let s := if on.2 then s.loadContext k 1 else s
    s.setBank k { s.bank k with saved := (false, false) }) s

/-- Enters emergency self-refresh, for what channel controller c has seen (R447, R448, R555). -/
def State.enterEsr (s : State) (c : Nat) : State :=
  let s := s.endCourses
  let s := s.waitingBanks.foldl (fun s k => s.serveTakes k) s
  let s := (s.lintelForce.endWrites writeFuel).saveRings
  let s := (s.saveContexts.enterSref).emptyContexts
  let s := s.mapPlumb (fun p => { p with esr := true, esrUntil := s.clk.tick + p.coolTicks.setWidth 64, esrCnt := satAdd p.esrCnt 1,
                                         tickFlags := p.tickFlags ||| 16 })
  s.crossIrq c .thermEsr

/-- A sensor reads above 110 °C (R447). -/
def tooHot (l : List (BitVec 16)) : Bool := l.any (fun t => decide (110 * 16 < t.toInt))

/-- TSR on every die: its 4 sensors (R108). -/
def State.readSensors (s : State) (temps : List (BitVec 16)) : State :=
  (List.range 16).foldl (fun s d =>
    (s.setDie d { s.die d with sensors := (List.range 4).map (fun i => temps.getD (4 * d + i) 0) }).sent (16 * d) 9 0 0) s

/-- ESR_EXIT: SRX, TSR on every die, and either another entry or the way back (R449, R450). -/
def State.esrExit (s : State) (temps : List (BitVec 16)) : State :=
  if s.clk.tick.toNat < s.plumb.esrUntil.toNat then s
  else
    let s := s.leaveSref.readSensors temps
    if tooHot temps then
      let s := s.enterSref.mapPlumb (fun p => { p with esrUntil := s.clk.tick + p.coolTicks.setWidth 64, esrCnt := satAdd p.esrCnt 1 })
      s.crossIrq 0 .thermEsr
    else
      let s := s.mapPlumb (fun p => { p with esr := false })
      let s := (List.range 16).foldl (fun s d => s.setDie d { s.die d with trip := false }) s
      (((s.loadRings.loadContexts).serveAllIdle).goOn).pumpPulls pumpFuel

/-- The stack of a die enters self-refresh on its own, without a frame: its units are empty (R107, R117). -/
def State.dieTrips (s : State) (d : Nat) : State :=
  (List.range 16).foldl (fun s i =>
    let c := 16 * d + i
    let s := (List.range 16).foldl (fun s b => if s.bank (16 * c + b) = .init then s
      else s.setBank (16 * c + b) (s.bank (16 * c + b)).emptied) s
    s.setChan c { s.chan c with sref := true }) (s.setDie d { s.die d with trip := true })

/-- THERM_TRIP on a channel's die (R107, R447): the die has entered self-refresh on its own, and where Crety serves, the rest of
the stack follows. -/
def State.thermTrip (s : State) (c : Nat) : State :=
  let s := (s.cross c (fun s => s.setChan c { s.chan c with err := (s.chan c).err ||| 2 })).dieTrips (c / 16)
  if s.serving && !s.plumb.esr then s.enterEsr c else s

/-! ### Tiers (R210, R215 to R217) -/

/-- Upper bound of a tier in °C. -/
def tierBound (tier : Nat) : Int := if tier = 0 then 85 else if tier = 1 then 95 else 105

/-- T_pred × 16 × 2,250,000, exactly: T is in 1/16 °C, and U is the granted cycles ÷ 562,500 (R217). -/
def State.predicted (s : State) (d : Die) : Int := d.temp * 2250000 + (s.regs.thermGain.toNat : Int) * ((d.actHist.foldl (· + ·) 0 : Nat) : Int)

/-- The lowest tier whose bound is exceeded by none of the values, each × 16 × 2,250,000 (R215). -/
def tierOf (vs : List Int) : Nat :=
  let ok (t : Nat) : Bool := vs.all (fun v => decide (v ≤ tierBound t * 36000000))
  if ok 0 then 0 else if ok 1 then 1 else 2

/-- TIER_READ of a die (R108, R215 to R217, R447). -/
def State.tierRead (s : State) (di : Nat) (ts : List (BitVec 16)) : State :=
  let d := { s.die di with sensors := ts }
  let pred := s.predicted d
  let t := d.temp * 2250000
  let want := tierOf [t, pred]
  let margin := (tierBound (d.tier - 1) - 3) * 36000000
  let cool := decide (0 < d.tier) && decide (t ≤ margin) && decide (pred ≤ margin)
  let early := decide (d.tier < want) && decide (tierOf [t] ≤ d.tier)
  let s := s.setDie di { d with nextTier := max d.nextTier want, read := true,
                                below := if cool then (if d.read then d.below else d.below + 1) else 0 }
  let s := if early then s.cross (16 * di) (fun s => { s with regs := { s.regs with tierEarly := satAdd s.regs.tierEarly 1 } }) else s
  let s := s.sent (16 * di) 9 0 0
  if tooHot ts && s.serving && !s.plumb.esr then s.enterEsr (16 * di) else s

/-- TIER_LOWER of a die: the lower tier takes effect at the next tick edge (R216). -/
def State.tierLower (s : State) (di : Nat) : State :=
  let d := s.die di
  if 500 ≤ d.below ∧ 0 < d.tier ∧ d.nextTier = d.tier then s.setDie di { d with nextTier := d.tier - 1, below := 0 } else s

/-! ### Parity alerts (R105, R106) -/

/-- ALERT_PULSE: PARCLR, then the frames that the stack ignored again, in their order.  A REFPB among them is executed
once, now, so no owed count changes (R211). -/
def State.alertPulse (s : State) (c ignored : Nat) : State :=
  let again := ((s.frames c).take ignored).reverse
  let s := s.cross c (fun s => s.setChan c { s.chan c with caparCnt := satAdd (s.chan c).caparCnt 1 })
  let s := s.cross c (fun s => s.setChan c { s.chan c with err := (s.chan c).err ||| 1 })
  let s := s.sent c 0x0B 0 0
  s.setChan c { s.chan c with hist := (again.reverse ++ (s.chan c).hist).take 16 }

/-! ### Commands -/

/-- REFRESH_ACCRUAL at REFCLK cycle 12 × b of the tick (R209). -/
def execRefreshAccrual (bank : Nat) (s : State) : Host.Outcome State Fault Refusal :=
  guard (decide (bank < 4096)) (
    if s.chanLive (bank / 16) then (((if s.runs 4 then s.touch (12 * (bank % 16)) else s).accrual bank).goOn) else s)

/-- BED_END (R110, R195, R199). -/
def execBedEnd (bank work : Nat) (s : State) : Host.Outcome State Fault Refusal :=
  guard (decide (bank < 4096)) (if s.serving && s.runs 1 then (s.bedEnd bank work).goOn else s)

/-- COURSE_WINDOW_END (R193); a start that waits has its open phases too (R192, R209). -/
def execCourseWindowEnd (s : State) : Host.Outcome State Fault Refusal :=
  .next (if (s.serving || s.start.mode == .starting) && s.runs 1 && s.runs 4 then s.windowEnd.goOn else s)

/-- RESERVED_REFRESH_SLOT (R204). -/
def execReservedRefreshSlot (bank : Nat) (s : State) : Host.Outcome State Fault Refusal :=
  guard (decide (bank < 4096)) (
    if s.chanLive (bank / 16) && s.runs 4 then s.reservedSlot bank else s)

/-- TIER_READ (R215), in the waits of a start too, once the die's channels are in normal mode (R209). -/
def execTierRead (die : Nat) (t0 t1 t2 t3 : BitVec 16) (s : State) : Host.Outcome State Fault Refusal :=
  guard (decide (die < 16)) (
    if (s.serving || (s.start.mode == .starting && (s.chan (16 * die)).trained)) && !s.plumb.esr && s.runs 1 then
      s.tierRead die [t0, t1, t2, t3] else s)

/-- TIER_LOWER (R216). -/
def execTierLower (die : Nat) (s : State) : Host.Outcome State Fault Refusal :=
  guard (decide (die < 16)) (if s.serving || s.start.mode == .starting then s.tierLower die else s)

/-- ESR_EXIT (R449). -/
def execEsrExit (temps : List (BitVec 16)) (s : State) : Host.Outcome State Fault Refusal :=
  .next (if s.serving && s.plumb.esr && s.runs 1 then s.esrExit temps else s)

/-- THERM_TRIP: the die has tripped; Crety finds it in 16 SCLK cycles, and with SCLK stopped once that runs again (R107, R557). -/
def execThermTrip (chan : Nat) (s : State) : Host.Outcome State Fault Refusal :=
  guard (decide (chan < 256)) (if s.start.mode = .reset then s else if s.runs 1 then s.thermTrip chan else s.dieTrips (chan / 16))

/-- ALERT_PULSE; the stack takes no frame, and Crety sends none, while SCLK is stopped (R105, R106, R557). -/
def execAlertPulse (chan ignored : Nat) (s : State) : Host.Outcome State Fault Refusal :=
  guard (decide (chan < 256)) (if s.start.mode = .reset ∨ !s.runs 1 then s else s.alertPulse chan ignored)

/-- PATROL_TURN (R181). -/
def execPatrolTurn (bank : Nat) (s : State) : Host.Outcome State Fault Refusal :=
  guard (decide (bank < 4096)) (if s.serving then s.patrolTurn bank else s)

/-- MORTAR_PATROL: REFCLK paces it, and Mortar lies in CCLK (R184, R557). -/
def execMortarPatrol (s : State) : Host.Outcome State Fault Refusal :=
  .next (if s.serving && s.runs 4 && s.runs 2 then s.mortarTurn else s)

end Sys2Proof.Machine
end

