-- ==== Sys2Proof/Machine/ControlPort.lean ====
section
/-!
DEFINITION. The control port: reads with the capture register, and writes of one word (R46, R74 to R77, R136, R178, R516,
R521).
-/

namespace Sys2Proof.Machine

/-- The control port takes requests: CY_RST_N is high, CCLK runs (R557) and no deadbolt runs (R83). -/
def State.ctOpen (s : State) : Bool :=
  s.runs 2 && s.start.mode != .reset && s.start.mode != .deadbolt && !(s.start.mode == .failed && s.start.sagInFail && !s.clk.dbolt)

/-- The access that the control port makes (R187). -/
def ctWho : Who := { src := 4, agent := agentCt }

/-- A refused access (R56, R76, R136). -/
def State.ctRefused (s : State) (t : CtlTarget) (write : Bool) : Bool :=
  !s.serves t ||
  (match t with
   | .unmapped => true
   | .mortar _ rd wr => if write then !wr else !rd
   | .latch _ o => write && decide (o < 8)
   | _ => false)

/-- Low halves of the 64-bit registers (R524, R527, R539). -/
def isLowHalf (off : Nat) : Bool := off == 0x0000 || off == 0x0010 || off == 0x0020 || off == 0x4010

/-- Word j of a 16 B word. -/
def word32 (d : BondData) (off : Nat) : BitVec 32 := BitVec.ofNat 32 (d.toNat >>> (8 * (off % 16)))

/-- Loads the capture register.  DESIGN CHOICE (log 58): a capture replaces the whole one before it, its phase and its unread
high half with it. -/
def State.capture (s : State) (low : Nat) (v : BitVec 64) (phase : Option Nat) : State :=
  { s with ct := { s.ct with capture := some { low := low, value := some v, phase := phase } } }

/-- The high half whose low half is at `low`, from the capture where there is one; the capture serves one read (R77). -/
def State.ctHigh (s : State) (low : Nat) (now : BitVec 32) : BitVec 32 × State :=
  match s.ct.capture with
  | some c => match c.value with
    | some v =>
      if c.low = low then (BitVec.ofNat 32 (v.toNat / 2 ^ 32), { s with ct := { s.ct with capture := some { c with value := none } } })
      else (now, s)
    | none => (now, s)
  | none => (now, s)

/-- CY_TICK_PHASE, from the capture of CY_TICK_LO where there is one (R521). -/
def State.ctPhase (s : State) (now : BitVec 32) : BitVec 32 × State :=
  match s.ct.capture with
  | some c => match c.phase with
    | some p => (BitVec.ofNat 32 p, { s with ct := { s.ct with capture := some { c with phase := none } } })
    | none => (now, s)
  | none => (now, s)

/-- The word that a read of a served target returns. -/
def State.ctWord (s : State) (off : Nat) : BitVec 32 × State :=
  match ctlTarget off with
  | .latch i o =>
    if o = 0 then ((s.latch i).setWidth 32, s.capture off (s.latch i) none)
    else if o = 4 then s.ctHigh (off - 4) (BitVec.ofNat 32 ((s.latch i).toNat / 2 ^ 32))
    else (0, s)
  | .hasp o =>
    let (v, s) := s.haspWordRead ctWho (o / 16 * 16)
    (word32 v.1 o, s)
  | .mortar o _ _ =>
    let (v, s) := s.readPlace ctWho (mortarPlace o)
    (word32 v.1 o, s)
  | .global o =>
    if isLowHalf o then
      let v := BitVec.ofNat 64 ((s.readGlobal o).toNat + 2 ^ 32 * (s.readGlobal (o + 4)).toNat)
      (s.readGlobal o, s.capture off v (if o = 0x0010 then some s.clk.phase else none))
    else if 4 ≤ o ∧ isLowHalf (o - 4) then s.ctHigh (off - 4) (s.readGlobal o)
    else if o = 0x0018 then s.ctPhase (s.readGlobal o)
    else (s.readGlobal o, s)
  | _ => (s.readReg off, s)

/-- A control-port read of the word at an offset (R75 to R77). -/
def State.ctRead (s : State) (off : Nat) : State :=
  let off := off / 4 * 4
  if s.ctRefused (ctlTarget off) false then { s with ct := { s.ct with last := some { rdata := 0, err := true } } }
  else
    let (v, s) := s.ctWord off
    { s with ct := { s.ct with last := some { rdata := v, err := false } } }

/-- A control-port write of one word: a register under its access code, or a merge into its hasp or Mortar word (R76,
R178, R516). -/
def State.ctWrite (s : State) (off : Nat) (v : BitVec 32) : State :=
  let off := off / 4 * 4
  let t := ctlTarget off
  let d : BondData := BitVec.ofNat 128 (v.toNat <<< (8 * (off % 16)))
  let ben := 15 * 2 ^ (off % 16)
  if s.ctRefused t true then { s with ct := { s.ct with last := some { rdata := 0, err := true } } }
  else
    let s := match t with
      | .hasp o => s.haspWordWrite ctWho (o / 16 * 16) d false ben
      | .mortar o _ _ => s.mergePlace ctWho (mortarPlace o) d false ben
      | .latch _ _ => s
      | _ => s.writeReg off v
    { s with ct := { s.ct with last := some { rdata := 0, err := false } } }

/-! ### Commands -/

/-- CAPTURE_READ: a control-port read (R46, R77, R521). -/
def execCaptureRead (off : BitVec 27) (s : State) : Host.Outcome State Fault Refusal :=
  .next (if s.ctOpen then s.ctRead off.toNat else s)

/-- REGISTER_WRITE (R75, R76, R516). -/
def execRegisterWrite (off : BitVec 27) (value : BitVec 32) (s : State) : Host.Outcome State Fault Refusal :=
  .next (if s.ctOpen then s.ctWrite off.toNat value else s)

/-- CONTROL_PORT_WRITE (R75, R76, R178). -/
def execControlPortWrite (off : BitVec 27) (value : BitVec 32) (s : State) : Host.Outcome State Fault Refusal :=
  .next (if s.ctOpen then s.ctWrite off.toNat value else s)

end Sys2Proof.Machine
end

