-- ==== Sys2Proof/Machine/Ecdsa.lean ====
section
/-!
DEFINITION. ECDSA signature verification over P-384 (FIPS 186-5), used by R474 and R543.
-/

namespace Sys2Proof.Machine

/-- The prime field of P-384. -/
def p384P : Nat := 2 ^ 384 - 2 ^ 128 - 2 ^ 96 + 2 ^ 32 - 1

/-- The order of the base point. -/
def p384N : Nat :=
  0xffffffffffffffffffffffffffffffffffffffffffffffffc7634d81f4372ddf581a0db248b0a77aecec196accc52973

/-- Coefficient b of the curve. -/
def p384B : Nat :=
  0xb3312fa7e23ee7e4988e056be3f82d19181d9c6efe8141120314088f5013875ac656398d8a2ed19d2a85c8edd3ec2aef

/-- The base point. -/
def p384G : Nat × Nat :=
  (0xaa87ca22be8b05378eb1c71ef320ad746e1d3b628ba79b9859f741e082542a385502f25dbf55296c3a545e3872760ab7,
   0x3617de4a96262c6f5d9e98bf9292dc29f8f41dbd289a147ce9da3113b5f0b8c00a60b1ce1d7e819d7a431d7c90ea0e5f)

/-- x^e mod m over the low `fuel` bits of e. -/
def powMod (m : Nat) : Nat → Nat → Nat → Nat
  | 0, _, _ => 1
  | fuel + 1, x, e =>
    let r := powMod m fuel (x * x % m) (e / 2)
    if e % 2 = 1 then r * x % m else r

/-- Inverse modulo a prime. -/
def invMod (m x : Nat) : Nat := powMod m 384 (x % m) (m - 2)

/-- a − b modulo p. -/
def subP (a b : Nat) : Nat := (a + p384P - b % p384P) % p384P

/-- The sum of two points; none is the point at infinity. -/
def ecAdd (a b : Option (Nat × Nat)) : Option (Nat × Nat) :=
  match a, b with
  | none, q => q
  | p, none => p
  | some (x1, y1), some (x2, y2) =>
    if x1 = x2 ∧ (y1 + y2) % p384P = 0 then none
    else
      let l := if x1 = x2 then subP (3 * x1 * x1) 3 * invMod p384P (2 * y1) % p384P
               else subP y2 y1 * invMod p384P (subP x2 x1) % p384P
      let x3 := subP (subP (l * l) x1) x2
      some (x3, subP (l * subP x1 x3) y1)

/-- k × P over the low `fuel` bits of k. -/
def ecMul : Nat → Nat → Option (Nat × Nat) → Option (Nat × Nat)
  | 0, _, _ => none
  | fuel + 1, k, p =>
    let r := ecMul fuel (k / 2) (ecAdd p p)
    if k % 2 = 1 then ecAdd r p else r

/-- Public key validity: on the curve, coordinates reduced. -/
def p384Valid (x y : Nat) : Bool :=
  decide (x < p384P) && decide (y < p384P) &&
    y * y % p384P == subP (x * x * x + p384B) (3 * x)

/-- Verifies a signature over a message digest e. -/
def ecdsaVerify (qx qy r s e : Nat) : Bool :=
  if p384Valid qx qy && decide (0 < r) && decide (r < p384N) && decide (0 < s) && decide (s < p384N) then
    let w := invMod p384N s
    match ecAdd (ecMul 384 (e * w % p384N) (some p384G)) (ecMul 384 (r * w % p384N) (some (qx, qy))) with
    | some (x, _) => x % p384N == r
    | none => false
  else false

/-- Verifies a signature of a message.  Key coordinates and signature halves are 48 B little-endian numbers
(R10; log 13); the digest is read as FIPS 186-5 reads it. -/
def ecdsaVerifyMsg (key sig msg : List Byte) : Bool :=
  ecdsaVerify (leNat (key.take 48)) (leNat ((key.drop 48).take 48)) (leNat (sig.take 48))
    (leNat ((sig.drop 48).take 48)) (beNat (sha384 msg))

end Sys2Proof.Machine
end

