-- ==== Sys2Proof/Machine/Fabric.lean ====
section
/-!
DEFINITION. The fabric port: inbound requests and their checks, held releases, and PULL_REPLICA with its outbound
reads (R57 to R73, R162 to R166, R274, R357 to R359, R416, R571).
-/

namespace Sys2Proof.Machine

/-! ### Inbound requests -/

/-- Crety accepts request beats: FI_READY[0] (R60, R278, R571), with FCLK running (R557). -/
def State.fabOpen (s : State) : Bool :=
  s.fab.up && s.runs 3 && s.start.mode != .reset && s.start.mode != .deadbolt &&
    !(s.start.mode == .failed && s.start.sagInFail && !s.clk.dbolt) && decide (s.ctl.staged.length < 16384)

/-- Takes an inbound request of some beats: membership before anything else (R62), then `body`; the acceptance number moves on. -/
def State.fabricTake (s : State) (beats : Nat) (src : BitVec 14) (tag : BitVec 10) (body : State → State) : State :=
  let t := s.countFab beats
  if !s.fabOpen then s
  else if !s.member src then t.errResp src tag fbNotWard
  else if !s.serving then t.errResp src tag fbNotReady
  else (body t).bump

/-- The offset is in stack space (R63). -/
def inStack (off : Nat) : Bool := decide (off < stackSize)
/-- The offset is in the intake aperture (R267). -/
def inAperture (off : Nat) : Bool := decide (0x2000000000 ≤ off) && decide (off < 0x3000000000)
/-- The offset is in the latch window (R63). -/
def inLatchWindow (off : Nat) : Bool := decide (0x3000000000 ≤ off) && decide (off < 0x3000080000)

/-- The seal line of the aperture (R267). -/
def sealLine : Nat := 0x2E00000000

/-- Performs a release of a peer and answers it with the old word (R64, R407). -/
def State.fabPerform (s : State) (a : FabAtomic) : State :=
  let old := s.latch a.latch
  (s.atomic a.isCas a.latch a.data 49).atomResp a.src a.tag old

/-- An access of the fabric to latches, once it has crossed into CCLK: a read of a line, an acquire whose window runs from its
acceptance, or a release, which is held while earlier lines or releases of its node are not done (R63, R410, R416). -/
def State.fabCclk (s : State) (w : FabWait) : State :=
  match w.want with
  | .read slot => s.rdResp w.src w.tag (s.latchLine slot)
  | .acquire i scope target at_ => s.acquire (.peer w.src w.tag) i scope target at_
  | .release isCas i data =>
    let a : FabAtomic := { src := w.src, tag := w.tag, isCas := isCas, latch := i, data := data, seq := w.seq }
    if s.linesAdded w.src w.seq && s.fab.held.all (fun h => h.src != w.src) then s.fabPerform a
    else { s with fab := { s.fab with held := s.fab.held ++ [a] } }

/-- An access to latches that is accepted now; it waits in the crossing while CCLK is stopped (R555, R557). -/
def State.fabLatch (s : State) (src : BitVec 14) (tag : BitVec 10) (want : FabWant) : State :=
  let w : FabWait := { src := src, tag := tag, seq := s.seq, want := want }
  if s.runs 2 then s.fabCclk w else { s with fab := { s.fab with crossing := s.fab.crossing ++ [w] } }

/-- CCLK runs again: what waited in the crossing goes on in its order (R559). -/
def State.fabResume (s : State) : State :=
  s.fab.crossing.foldl (fun s w => s.fabCclk w) { s with fab := { s.fab with crossing := [] } }

/-- RD_REQ (R63): Coffer lines and lines of two latch slots. -/
def State.fabRead (s : State) (src : BitVec 14) (tag : BitVec 10) (off : BitVec 38) : State :=
  let a := off.toNat
  if inLatchWindow a then
    if a % 128 ≠ 0 then s.errResp src tag fbBadOp
    else s.fabLatch src tag (.read ((a - 0x3000000000) / 64))
  else match s.regionAt a with
    | some g =>
      if inStack a ∧ g.role = 2 ∧ (s.cofferAt a).isSome then
        if a % 128 ≠ 0 then s.errResp src tag fbBadOp
        else s.bankAccess (g.loc a).bank (.fabricRead src tag off s.seq)
      else s.errResp src tag fbAddrErr
    | none => s.errResp src tag fbAddrErr

/-- Checks the eight words of an inbound line (R67): the delivered words, whether the line is refused, and the state. -/
def State.fabLine (s : State) (src : BitVec 14) (off : Nat) (d : LineData) (c : LineChk) : LineData × Bool × State :=
  let (vs, ue, po, s) := s.rxWords .fab { src := 6, agent := src.toNat } off false d c (List.range 8)
  (lineOfChecked vs, ue || po, s)

/-- WR_LINE: checks 2 and 3 of R274, then the line is taken. -/
def State.fabWrite (s : State) (src : BitVec 14) (tag : BitVec 10) (off : Nat) (d : LineData) (c : LineChk) : State :=
  if inLatchWindow off then s.errResp src tag fbBadOp
  else match intakeWindow off with
    | none => s.errResp src tag fbAddrErr
    | some (w, line) =>
      if off % 128 ≠ 0 then s.errResp src tag fbBadOp
      else
        let (x, bad, s) := s.fabLine src off d c
        if bad then s.errResp src tag fbDataErr else s.takeLine src tag w line x

/-- SEAL_WR: checks 2 and 3 of R274 (R282), then the seal is taken. -/
def State.fabSeal (s : State) (src : BitVec 14) (tag : BitVec 10) (off : Nat) (d : LineData) (c : LineChk) : State :=
  if inLatchWindow off then s.errResp src tag fbBadOp
  else if off < sealLine ∨ sealLine + 128 ≤ off then s.errResp src tag fbAddrErr
  else if off ≠ sealLine then s.errResp src tag fbBadOp
  else
    let (x, bad, s) := s.fabLine src off d c
    if bad then s.errResp src tag fbDataErr else s.takeSeal src tag x

/-- FADD and CAS (R63, R67, R406, R409, R410, R416). -/
def State.fabAtomic (s : State) (isCas : Bool) (src : BitVec 14) (tag : BitVec 10) (off : Nat) (data : BitVec 512) (chk : BitVec 64) : State :=
  if inStack off || inAperture off then s.errResp src tag fbBadOp
  else if !inLatchWindow off then s.errResp src tag fbAddrErr
  else if off % 64 ≠ 0 then s.errResp src tag fbBadOp
  else
    let (vs, ue, po, s) := s.rxWords .fab { src := 6, agent := src.toNat } off false (data.setWidth 1024) (chk.setWidth 128) [0]
    let ops := lineWord (lineOfChecked vs) 0
    let i := (off - 0x3000000000) / 64
    if ue || po then s.errResp src tag fbDataErr
    else if atomicRefused isCas i ops then s.errResp src tag fbBadOp
    else if !isCas && opAcq ops then s.fabLatch src tag (.acquire i (opScope ops) (opHigh ops) s.now)
    else s.fabLatch src tag (.release isCas i ops)

/-- HELD_RELEASE of a node: its oldest held release, once every earlier line of the node is added (R416). -/
def State.heldRelease (s : State) (src : BitVec 14) : State :=
  match s.fab.held.findIdx? (fun a => a.src == src) with
  | none => s
  | some i =>
    match s.fab.held[i]? with
    | some a =>
      if s.linesAdded src a.seq then ({ s with fab := { s.fab with held := removeAt s.fab.held i } } : State).fabPerform a
      else s
    | none => s

/-- A response that answers no request of Crety's is counted (R73, R555). -/
def State.countLate (s : State) : State :=
  s.cross sourceFab (fun s => { s with regs := { s.regs with lateResp := satAdd s.regs.lateResp 1 } })

/-- A beat of a reserved type, or of a type on the wrong virtual channel (R59, R61, R62); a response that answers no
request of Crety's is counted (R73).  DESIGN CHOICE (log 57): so is an ATOM_RESP or SEAL_ACK, which Crety asks for in no request,
with the tag of an outstanding read; that read stays outstanding. -/
def State.fabReserved (s : State) (src : BitVec 14) (vc : Bool) (type : BitVec 4) (tag : BitVec 10) : State :=
  let t := type.toNat
  if !(if vc then s.fabRuns else s.fabOpen) then s
  else if (!vc && decide (t < 5)) || (vc && (t == 8 || t == 11)) then s
  else
    let m := s.countFab (fabBeats type)
    if vc && (t == 9 || t == 10) then m.countLate
    else if !s.member src then m.errResp src tag fbNotWard
    else m.errResp src tag fbBadOp

/-! ### PULL_REPLICA (R357 to R359) -/

/-- The words of a line that was lost (R72). -/
def lostPullWord : BondData := 0x7FC05A5A7FC05A5A7FC05A5A7FC05A5A

def lostPullLine : List (BondData × Bool) := List.replicate 8 (lostPullWord, true)

/-- Takes a line of a pull to its bank at the destination, where it waits as any access does (R151, R358, R359). -/
def State.pullWrite (s : State) (p : Pull) (l : Nat) (vs : List (BondData × Bool)) : State :=
  let off := p.dst + 128 * l
  match s.regionAt off with
  | none => s
  | some g => (s.bankAccess (g.loc off).bank (.line false off vs s.seq)).bump

/-- The latch value of a latch read, or none where the word is poisoned. -/
def Pull.latchSeen (p : Pull) (vs : List (BondData × Bool)) : Option (BitVec 48) :=
  let w := vs.getD (4 * (p.latch % 2)) (0, true)
  if w.2 then none else some (w.1.setWidth 48)

/-- Uses a returned or lost read of a pull (R358, R72). -/
def State.pullArrive (s : State) (p : Pull) (what : PullRead) (vs : List (BondData × Bool)) (timedOut : Bool) : State :=
  let v := p.ver.toNat % 2 ^ 48
  let p := { p with timedOut := p.timedOut || timedOut }
  match what with
  | .line l =>
    let bad := vs.any (·.2)
    (s.setPull { p with
      arrived := p.arrived + 1, bad := p.bad + b2n bad,
      firstBad := if bad then some (match p.firstBad with | some f => min f l | none => l) else p.firstBad }).pullWrite p l vs
  | .latchFirst =>
    match p.latchSeen vs with
    | none => s.setPull { p with phase := 3, ended := 3 }
    | some x =>
      let p := { p with seen := x }
      if x.toNat < v then s.setPull { p with phase := 3, ended := 1 }
      else if v + p.k - 1 ≤ x.toNat then s.setPull { p with phase := 3, ended := 2 }
      else s.setPull { p with phase := 1 }
  | .latchLast =>
    match p.latchSeen vs with
    | none => s.setPull { p with phase := 3, ended := 3 }
    | some x =>
      let p := { p with seen := x, phase := 3 }
      if p.bad ≠ 0 then s.setPull { p with ended := 3 }
      else if v + p.k - 1 ≤ x.toNat then s.setPull { p with ended := 2 }
      else s.setPull { p with ended := 0 }

/-- Takes an outstanding read off the list and gives its result to its pull. -/
def State.outboundDone (s : State) (o : OutRead) (vs : List (BondData × Bool)) (timedOut : Bool) : State :=
  let s : State := { s with fab := { s.fab with outbound := s.fab.outbound.filter (fun x => x.tag != o.tag) } }
  match s.pullOf o.hasp with
  | none => s
  | some p => s.pullArrive p o.what vs timedOut

/-- A response to an outbound read, while its window is open; any other is counted (R73). -/
def State.fabResponse (s : State) (tag : BitVec 10) (use : State → OutRead → State) : State :=
  match s.fab.outbound.find? (fun o => o.tag == tag && decide (s.now < o.until_)) with
  | none => s.countLate
  | some o => (use s o).pumpPulls pumpFuel

/-- Ends every outstanding outbound read as under R72: at an accepted sag (R83). -/
def State.loseOutbound (s : State) : State :=
  s.fab.outbound.foldl (fun s o => (s.crossIrq sourceFab .remoteTimeout).outboundDone o lostPullLine true) s

/-- The first field that breaks its range (R357). -/
def State.pullBad (s : State) (x : Hasp) : Option Nat :=
  let node := x.pay 0 2
  let lines := x.pay 32 4
  if 2 ^ 14 ≤ node ∨ !s.member (BitVec.ofNat 14 node) then some 0
  else if x.pay 8 8 % 128 ≠ 0 ∨ stackSize ≤ x.pay 8 8 then some 8
  else if lines = 0 ∨ 2 ^ 28 < lines then some 32
  else if 2 ^ 13 ≤ x.pay 2 2 then some 2
  else if x.pay 6 1 < 2 ∨ 4 < x.pay 6 1 then some 6
  else if x.pay 24 8 % 128 ≠ 0 then some 24
  else if (s.dataRange (x.pay 24 8) (128 * lines)).isNone then some 32
  else if 2 ^ 13 ≤ x.pay 4 2 then some 4
  else none

/-- PULL_REPLICA after the checks of R497: its first latch read goes out (R358). -/
def State.pullStart (s : State) (h : Nat) : State :=
  let x := s.hasp h
  match s.pullBad x with
  | some o => s.finish h .badField (fieldAt o) []
  | none =>
    let p : Pull := { hasp := h, node := BitVec.ofNat 14 (x.pay 0 2), off := x.pay 8 8, lines := x.pay 32 4, latch := x.pay 2 2,
                      ver := BitVec.ofNat 64 (x.pay 16 8), k := x.pay 6 1, dst := x.pay 24 8, done := x.pay 4 2, phase := 0,
                      next := 0, arrived := 0, bad := 0, firstBad := none, seen := 0, timedOut := false, ended := 0 }
    ({ s with mbox := { s.mbox with bg := s.mbox.bg ++ [.pull p] } } : State).pumpPulls pumpFuel

/-! ### Commands -/

/-- RD_REQ (R63, R65). -/
def execRdReq (src : BitVec 14) (tag : BitVec 10) (off : BitVec 38) (s : State) : Host.Outcome State Fault Refusal :=
  .next (s.fabricTake 1 src tag (fun s => s.fabRead src tag off))

/-- WR_LINE (R65, R274). -/
def execWrLine (src : BitVec 14) (tag : BitVec 10) (off : BitVec 38) (data : LineData) (chk : LineChk) (at_ : Nat) (s : State) :
    Host.Outcome State Fault Refusal :=
  .next ((s.touch at_).fabricTake 2 src tag (fun s => s.fabWrite src tag off.toNat data chk))

/-- SEAL_WR (R65, R66, R282). -/
def execSealWr (src : BitVec 14) (tag : BitVec 10) (off : BitVec 38) (data : LineData) (chk : LineChk) (at_ : Nat) (s : State) :
    Host.Outcome State Fault Refusal :=
  .next ((s.touch at_).fabricTake 2 src tag (fun s => s.fabSeal src tag off.toNat data chk))

/-- FADD as a release (R63, R406, R416); an operand word with ACQ set is an acquire in every way. -/
def execFadd (src : BitVec 14) (tag : BitVec 10) (off : BitVec 38) (data : BitVec 512) (chk : BitVec 64) (s : State) :
    Host.Outcome State Fault Refusal :=
  .next (s.fabricTake 1 src tag (fun s => s.fabAtomic false src tag off.toNat data chk))

/-- CAS (R63, R406, R416). -/
def execCas (src : BitVec 14) (tag : BitVec 10) (off : BitVec 38) (data : BitVec 512) (chk : BitVec 64) (s : State) :
    Host.Outcome State Fault Refusal :=
  .next (s.fabricTake 1 src tag (fun s => s.fabAtomic true src tag off.toNat data chk))

/-- HELD_RELEASE (R416). -/
def execHeldRelease (src : BitVec 14) (s : State) : Host.Outcome State Fault Refusal :=
  .next (if s.serving && s.runs 2 then s.heldRelease src else s)

/-- FADD with ACQ, whose acceptance cycle starts its window (R410, R411). -/
def execFaddAcquire (src : BitVec 14) (tag : BitVec 10) (off : BitVec 38) (data : BitVec 512) (chk : BitVec 64) (at_ : Nat) (s : State) :
    Host.Outcome State Fault Refusal :=
  .next ((s.touch at_).fabricTake 1 src tag (fun s => s.fabAtomic false src tag off.toNat data chk))

/-- FABRIC_RESERVED_TYPE (R59, R61). -/
def execFabricReservedType (src : BitVec 14) (vc : Bool) (type : BitVec 4) (tag : BitVec 10) (_off : BitVec 38) (s : State) :
    Host.Outcome State Fault Refusal :=
  .next (s.fabReserved src vc type tag)

/-- A response line is checked as it arrives, under its owner's ID and the offset of the request (R67, R187), then used. -/
def State.pullLineIn (s : State) (o : OutRead) (data : LineData) (chk : LineChk) : State :=
  let who : Who := { src := 6, agent := ((s.pullOf o.hasp).map (·.node.toNat)).getD agentNone }
  let at_ := ((s.pullOf o.hasp).map (fun p => p.offsetOf o.what)).getD 0
  let (vs, _, _, s) := s.rxWords .fab who at_ false data chk (List.range 8)
  s.outboundDone o (vs.map (fun v => (v.2.1, v.2.2))) false

/-- RD_RESP (R70 to R73, R358). -/
def execRdResp (tag : BitVec 10) (data : LineData) (chk : LineChk) (at_ : Nat) (s : State) : Host.Outcome State Fault Refusal :=
  .next (if s.fabRuns then ((s.touch at_).countFab 2).fabResponse tag (fun s o => s.pullLineIn o data chk) else s)

/-- ERR_RESP to an outbound read: the line is lost, whatever the status (R72). -/
def execErrResp (tag : BitVec 10) (_stat : BitVec 3) (at_ : Nat) (s : State) : Host.Outcome State Fault Refusal :=
  .next (if s.fabRuns then
    ((s.touch at_).countFab 1).fabResponse tag (fun s o => (s.crossIrq sourceFab .remoteError).outboundDone o lostPullLine false)
  else s)

/-- REMOTE_TIMEOUT: the window of an outbound read has ended (R71, R72). -/
def execRemoteTimeout (tag : BitVec 10) (s : State) : Host.Outcome State Fault Refusal :=
  .next (match s.fab.outbound.find? (fun o => o.tag == tag && decide (o.until_ ≤ s.now)) with
    | some o => ((s.crossIrq sourceFab .remoteTimeout).outboundDone o lostPullLine true).pumpPulls pumpFuel
    | none => s)

/-- PULL_REPLICA (R357, R358). -/
def execPullReplica (hasp : Nat) (at_ : Nat) (s : State) : Host.Outcome State Fault Refusal :=
  guard (decide (hasp < 16)) ((s.touch at_).runCommand hasp 0x0D (fun s => s.pullStart hasp))

end Sys2Proof.Machine
end

