-- ==== Sys2Proof/Machine/Repair.lean ====
section
/-!
DEFINITION. Row repair and the extra scrub pass: REPAIR_SOFT, REPAIR_FUSE, DB_REPAIR and START_SCRUB (R126 to R130, R185,
R470, R471, R500, R510, R550).
-/

namespace Sys2Proof.Machine

/-! ### Spares (R126 to R128, R469) -/

/-- The spare is FREE and was not found unusable. -/
def Bank.goodFree (b : Bank) (spare : Nat) : Bool :=
  b.soft.all (fun e => e.2.2 != spare) && b.fused.all (fun e => e.2 != spare) && !b.bad.contains spare

/-- The lowest good FREE spare. -/
def Bank.freeSpare (b : Bank) : Option Nat := (List.range 32).find? b.goodFree

/-- The spare that a soft entry gives a row. -/
def Bank.softSpare (b : Bank) (row : Nat) : Option Nat := (b.soft.find? (fun e => e.2.1 == row)).map (·.2.2)

/-- The number of the soft entry of a row. -/
def Bank.softEntry (b : Bank) (row : Nat) : Option Nat := (b.soft.find? (fun e => e.2.1 == row)).map (·.1)

/-- SRMAP with enable 0: the row's entry is freed (R127). -/
def Bank.unmapSoft (b : Bank) (row : Nat) : Bank := { b with soft := b.soft.filter (fun e => e.2.1 != row) }

/-- The lowest free soft entry of four. -/
def Bank.freeEntry (b : Bank) : Nat := ((List.range 4).find? (fun i => b.soft.all (fun e => e.1 != i))).getD 0

/-- SRMAP with enable 1 in the lowest free entry (R127; log 32: a row that has an entry gives it up first). -/
def Bank.mapSoft (b : Bank) (row spare : Nat) : Bank :=
  let b := b.unmapSoft row
  { b with soft := Sparse.put b.freeEntry (row, spare) b.soft }

/-- The frames of a soft mapping, and the mapping: SRMAP with enable 0 of the entry that the row had, then SRMAP with
enable 1 (R102, R127). -/
def State.softMap (s : State) (bank row spare : Nat) : State :=
  let b := s.bank bank
  let s := match b.softEntry row with
    | some e => s.sent (bank / 16) 0x0C bank (row + (b.softSpare row).getD 0 * 2 ^ 14 + e * 2 ^ 19)
    | none => s
  let e := (b.unmapSoft row).freeEntry
  (s.setBank bank (b.mapSoft row spare)).sent (bank / 16) 0x0C bank (row + spare * 2 ^ 14 + e * 2 ^ 19 + 2 ^ 21)

/-- The stack's part of an FPROG of kind 0: the spare is FUSED, and its soft entry freed (R128). -/
def Bank.fuse (b : Bank) (row spare : Nat) : Bank :=
  { b.unmapSoft row with fused := b.fused ++ [(row, spare)] }

/-- Both copies of the calibration record are written, with the soft entries and unusable spares of the stack (R462). -/
def State.noteCalib (s : State) : State :=
  { s.wroteRecord with start := { s.start with calib := { s.start.calib with
      copy0 := true, copy1 := true, serial := BitVec.ofNat 64 s.serial,
      soft := (s.banks.map (fun e => e.2.soft.map (fun x => (e.1, x.2.1, x.2.2)))).flatten,
      bad := (s.banks.map (fun e => e.2.bad.map (fun x => (e.1, x)))).flatten } } }

/-- Word wi of a spare's physical row (R102). -/
def sparePlace (bank spare wi : Nat) : Place :=
  { space := .stack, word := bank * (bankBytes / 16) + (9216 + spare) * 128 + wi, site := .chan (bank / 16), detect := false,
    where_ := stackWhere bank (9216 + spare) wi }

/-- The 16 lines of a row, read or written. -/
def rowColumns (write : Bool) : List Column := (List.range 16).map (fun i => { write := write, sector := 4 * i, burst := 2 })

/-- A logical row lies in a STATE region. -/
def State.inState (s : State) (row : Nat) : Bool := match s.regionAtSlab row with
  | some r => r.role == 1
  | none => false

/-- Copies a row into a spare through a direct ACT of the spare; what reads poisoned or UNCORRECTABLE is written poisoned,
and counted and logged where the row lies in a STATE region (R102, R179, R187, R470 step 3). -/
def State.copyRow (s : State) (bank row spare : Nat) : State :=
  let det := Region.policy (s.regionAtSlab row)
  let inState := s.inState row
  let w : Who := { src := 0, agent := agentWarden }
  let s := s.sendRow bank row (rowColumns false)
  let s := (((rowColumns true).foldl (fun s c => s.sendColumn bank c) (s.sent (bank / 16) 1 bank (9216 + spare))).sendPre bank).occupy bank
    (rowCycles (rowColumns false) + rowCycles (rowColumns true))
  (List.range 128).foldl (fun s wi =>
    let p := s.rowPlace bank row wi det
    let (v, s) := s.readPlace w p
    let s := s.placeWrite (sparePlace bank spare wi) v.1 v.2
    if v.2 && inState then s.statePoison p.site w p.where_ else s) s

/-- Reads a row back under a policy, with its outcomes counted (R175, R471 step 4, R472). -/
def State.readRow (s : State) (bank row : Nat) (det : Bool) : State :=
  (List.range 128).foldl (fun s wi => (s.readPlace { src := 0, agent := agentWarden } (s.rowPlace bank row wi det)).2)
    (s.rowAccess bank row (rowColumns false))

/-! ### Repairs (R470, R471, R550) -/

/-- The repair in progress. -/
def State.repairing (s : State) : Option Background := s.mbox.bg.find? (fun b => match b with
  | .repair _ _ _ _ _ _ _ => true
  | _ => false)

def Background.isRepair : Background → Bool
  | .repair _ _ _ _ _ _ _ => true
  | _ => false

/-- REPAIR_RES of a status (R544). -/
def repairCode (st : MStatus) : BitVec 4 :=
  match st with
  | .okay => 2
  | .repairNoSpare => 3
  | .repairCond => 4
  | .repairFault => 5
  | _ => 6

/-- Ends a repair: the response of its command, or REPAIR_RES. -/
def State.repairEnd (s : State) (hasp : Option Nat) (st : MStatus) (payload : List Byte) : State :=
  let s := s.dropBg Background.isRepair
  match hasp with
  | some h => s.finish h st 0 payload
  | none => { s with dbg := { s.dbg with repairRes := repairCode st } }

/-- Releases a bank: where no course runs, the refresh that has become pressing comes first, then what waits (R130, R198, R210). -/
def State.releaseBank (s : State) (k : Nat) : State :=
  let s := s.setBank k { s.bank k with hold := false }
  ((if (s.bank k).course.isNone then s.pressing k else s).serveIdle k).goOn

/-- The repairs of Warden's own commands pause while Warden is halted (R547); those of the debug port run on (R550).  Both need SCLK
for the stack and CCLK for their answer (R557). -/
def State.repairRuns (s : State) (hasp : Option Nat) : Bool :=
  s.runs 1 && s.runs 2 && (match hasp with
  | some _ => s.serving && !s.dbg.halted && !s.plumb.esr
  | none => (s.serving && !s.plumb.esr) || s.start.mode == .failed)

/-- tFUSE ends whether or not the stack is in emergency self-refresh (R130, R447). -/
def State.fprogRuns (s : State) (hasp : Option Nat) : Bool := ({ s with plumb := { s.plumb with esr := false } } : State).repairRuns hasp

/-- Begins a soft repair: the bank is held from its next bed boundary (R470). -/
def State.softBegin (s : State) (hasp : Option Nat) (bank row : Nat) : State :=
  let b := s.bank bank
  match b.freeSpare with
  | some sp =>
    if 4 ≤ b.soft.length then s.repairEnd hasp .repairNoSpare []
    else
      let s := s.setBank bank { b with hold := true }
      { s with mbox := { s.mbox with bg := s.mbox.bg ++ [.repair hasp false bank row sp 0 false] } }
  | none => s.repairEnd hasp .repairNoSpare []

/-- REPAIR_SOFT_DONE: copy, SRMAP, release, calibration record, completion (R470); no row is opened while the bank owes 8
REFpb (R212). -/
def State.softDone (s : State) : State :=
  match s.repairing with
  | some (.repair hasp false bank row sp _ _) =>
    if !s.repairRuns hasp || (s.bank bank).course.isSome || decide (8 ≤ (s.bank bank).owed) then s
    else
      let s := (s.copyRow bank row sp).softMap bank row sp
      (s.noteCalib.repairEnd hasp .okay (BitVec.ofNat 8 sp :: List.replicate 7 0)).releaseBank bank
  | _ => s

/-- Begins a fuse repair of a row; it waits up to 1 s for the conditions of R130 (R471). -/
def State.fuseBegin (s : State) (hasp : Option Nat) (bank row : Nat) : State :=
  let b := s.bank bank
  match (match b.softSpare row with
    | some sp => some sp
    | none => b.freeSpare) with
  | none => s.repairEnd hasp .repairNoSpare []
  | some sp => { s with mbox := { s.mbox with bg := s.mbox.bg ++ [.repair hasp true bank row sp (s.now + 100000000) false] } }

/-- The conditions of R130: every sensor of the die at 85 °C or below, and VDD_S within 3 % (log 33). -/
def State.fuseCond (s : State) (bank : Nat) : Bool :=
  s.clk.vddsNear && (s.die (bank / 256)).sensors.all (fun t => decide (t.toInt ≤ 85 * 16))

/-- Issues a waiting FPROG once its conditions hold, before its 1 s has ended: the bank is held, and a row that is not SOFT
is copied first (R14, R471). -/
def State.fuseIssue (s : State) : State :=
  match s.repairing with
  | some (.repair hasp true bank row sp t false) =>
    if !s.repairRuns hasp || !s.fuseCond bank || decide (t ≤ s.now) then s
    else if (s.bank bank).course.isSome || decide (8 ≤ (s.bank bank).owed) then s.setBank bank { s.bank bank with hold := true }
    else
      let s := if (s.bank bank).softSpare row = some sp then s else s.copyRow bank row sp
      let s := s.setBank bank { s.bank bank with hold := true }
      let s : State := { s.wroteRecord with start := { s.start with calib := { s.start.calib with pending := some (bank, row, sp) } } }
      let s := (s.setChan (bank / 16) { s.chan (bank / 16) with fprogHold := true }).sent (bank / 16) 0x0D bank (row * 4 + sp * 2 ^ 16)
      { s with mbox := { s.mbox with bg := s.mbox.bg.map (fun b => if b.isRepair then .repair hasp true bank row sp t true else b) } }
  | _ => s

/-- IDR of the line of a row repair page that shows a bank's spares (R102, R126). -/
def State.readRepairPage (s : State) (bank : Nat) : State := s.idrLine (1 + bank / 128) (bank % 128 / 32)

/-- A channel that a fuse hold kept out of emergency self-refresh enters it now (R130, R447). -/
def State.lateEntry (s : State) (bank : Nat) : State := if s.plumb.esr then s.lateSref (bank / 16) bank else s

/-- Steps 4 and 5 of R471 once tFUSE has ended: the row is read back, FPROG_PENDING is cleared in the calibration record, and the command
completes, OKAY where the spare is FUSED.  In emergency self-refresh, which holds every access, that waits.  An owed REFpb at FULL
level comes before the row is opened (R212, R447). -/
def State.fuseFinish (s : State) : State :=
  match s.repairing with
  | some (.repair hasp true bank row sp _ true) =>
    if (s.chan (bank / 16)).fprogHold || !s.repairRuns hasp then s
    else if (s.bank bank).fused.contains (row, sp) then
      let s := (s.fullRefresh bank).readRow bank row (Region.policy (s.regionAtSlab row))
      let s : State := { s with start := { s.start with calib := { s.start.calib with pending := none } } }
      (s.noteCalib.repairEnd hasp .okay (BitVec.ofNat 8 sp :: List.replicate 7 0)).releaseBank bank
    else
      let s : State := { s.wroteRecord with start := { s.start with calib := { s.start.calib with pending := none } } }
      (s.repairEnd hasp .repairFault []).releaseBank bank
  | _ => s

/-- FPROG_DONE: tFUSE has ended, and the repair page shows the spare FUSED, or the stack has refused (R128, R471). -/
def State.fprogDone (s : State) (refused : Bool) : State :=
  match s.repairing with
  | some (.repair hasp true bank row sp _ true) =>
    if !s.fprogRuns hasp || !(s.chan (bank / 16)).fprogHold then s
    else
      let s := (s.setChan (bank / 16) { s.chan (bank / 16) with fprogHold := false }).readRepairPage bank
      let s := if refused then (s.setBank bank { s.bank bank with ctx := setAt (s.bank bank).ctx 0 .fault }).cstat bank
        else s.setBank bank ((s.bank bank).fuse row sp)
      (s.lateEntry bank).fuseFinish
  | _ => s

/-- REPAIR_COND_TIMEOUT: the conditions were not met within 1 s (R471). -/
def State.fuseTimeout (s : State) : State :=
  match s.repairing with
  | some (.repair hasp true bank _ _ t false) =>
    if !s.repairRuns hasp || decide (s.now < t) then s else (s.repairEnd hasp .repairCond []).releaseBank bank
  | _ => s

/-- REPAIR_SOFT after the checks of R497. -/
def State.repairSoft (s : State) (h : Nat) : State :=
  let x := s.hasp h
  if 4096 ≤ x.pay 0 2 then s.finish h .badField (fieldAt 0) []
  else if 9208 ≤ x.pay 2 2 then s.finish h .badField (fieldAt 2) []
  else if s.repairing.isSome then s.finish h .engineBusy 0 []
  else s.softBegin (some h) (x.pay 0 2) (x.pay 2 2)

/-- REPAIR_FUSE after the checks of R497.  DESIGN CHOICE (log 78): a KIND above 1, and a BANK, ROW, CHANNEL or LANE outside the part, is
answered BAD_FIELD, before ENGINE_BUSY; R471 and R510 give no status for them. -/
def State.repairFuse (s : State) (h : Nat) : State :=
  let x := s.hasp h
  let kind := x.pay 0 1
  let unit := x.pay 2 2
  let what := x.pay 4 2
  if 1 < kind then s.finish h .badField (fieldAt 0) []
  else if (kind = 0 ∧ 4096 ≤ unit) ∨ (kind = 1 ∧ 256 ≤ unit) then s.finish h .badField (fieldAt 2) []
  else if (kind = 0 ∧ 9216 ≤ what) ∨ (kind = 1 ∧ 169 ≤ what) then s.finish h .badField (fieldAt 4) []
  else if s.repairing.isSome then s.finish h .engineBusy 0 []
  else if kind = 1 then
    let s : State := { s with start := { s.start with calib := { s.start.calib with tsv := s.start.calib.tsv ++ [(unit, what)] } } }
    s.wroteRecord.finish h .okay 0 [0, 1, 0, 0, 0, 0, 0, 0]
  else (s.fuseBegin (some h) unit what).fuseIssue

/-! ### START_SCRUB (R185, R510) -/

/-- The response of a scrub pass. -/
def scrubBytes (ce ue poison visited : Nat) : List Byte :=
  leBytes 4 (min ce (2 ^ 32 - 1)) ++ leBytes 4 (min ue (2 ^ 32 - 1)) ++ leBytes 4 (min poison (2 ^ 32 - 1)) ++ ([0, 0, 0, 0] : List Byte) ++
  leBytes 8 visited

/-- START_SCRUB after the checks of R497.  DESIGN CHOICE (log 34): one with SLABS = 0 completes OKAY at once with zero counts. -/
def State.scrubStart (s : State) (h : Nat) : State :=
  let x := s.hasp h
  let first := x.pay 0 2
  let slabs := x.pay 2 2
  let interval := x.pay 4 2
  let t := s.clk.tick.toNat
  if slabLimit < first + slabs then s.finish h .badField (fieldAt 2) []
  else if interval = 0 then s.finish h .badField (fieldAt 4) []
  else if s.mbox.bg.any (fun b => match b with | .scrub _ _ _ _ _ _ _ _ _ _ _ => true | _ => false) then s.finish h .engineBusy 0 []
  else if slabs = 0 then s.finish h .okay 0 (scrubBytes 0 0 0 0)
  else { s with mbox := { s.mbox with bg := s.mbox.bg ++ [.scrub h first slabs interval 0 0 0 0 0 (t + interval) (t + 500)] } }

/-- Lines of a scrub range. -/
def scrubLines (slabs : Nat) : Nat := slabs * 65536

/-- CORRECTED, UNCORRECTABLE and POISON outcomes of a line (R185). -/
def State.lineOutcomes (s : State) (ps : List Place) : Nat × Nat × Nat :=
  ps.foldl (fun n p => match s.placeCheck p with
    | .clean => n
    | .corrected _ => (n.1 + 1, n.2)
    | .uncorrectable => (n.1, n.2.1 + 1, n.2.2)
    | .poison => (n.1, n.2.1, n.2.2 + 1)) (0, 0, 0)

/-- The line of a pass: bank, then line and row, ascending by row (log 34). -/
def scrubAt (first n : Nat) : Nat × Nat := (n % 4096, 16 * first + n / 4096)

/-- SCRUB_TURN: the pass visits its next line as the patrol would, and ends after the last (R182, R183, R185).  DESIGN CHOICE
(log 34): INTERVAL lies between two lines of the whole pass, not of each bank. -/
def State.scrubTurn (s : State) : State :=
  match s.mbox.bg.find? (fun b => match b with | .scrub _ _ _ _ _ _ _ _ _ _ _ => true | _ => false) with
  | some (.scrub h first slabs interval n ce ue po visited due rep) =>
    let at_ := scrubAt first n
    let k := at_.1
    if s.clk.tick.toNat < due || s.bankHeld k || (s.bank k).course.isSome || decide (4 ≤ (s.bank k).owed) ||
       decide (95 * 16 < (s.die (k / 256)).temp) then s
    else
      let det := Region.policy (s.regionAtSlab (at_.2 / 16))
      let o := s.lineOutcomes ((List.range 8).map (fun i => s.rowPlace k (at_.2 / 16) (at_.2 % 16 * 8 + i) det))
      let s := (s.patrolRow k at_.2).patrolLine k at_.2
      let ce := ce + o.1
      let ue := ue + o.2.1
      let po := po + o.2.2
      let isScrub (b : Background) : Bool := match b with | .scrub _ _ _ _ _ _ _ _ _ _ _ => true | _ => false
      if n + 1 = scrubLines slabs then (s.dropBg isScrub).finish h .okay 0 (scrubBytes ce ue po (visited + 1))
      else
        let nb : Background := .scrub h first slabs interval (n + 1) ce ue po (visited + 1) (s.clk.tick.toNat + interval) rep
        let s := s.setHasp h { s.hasp h with progress := BitVec.ofNat 16 ((visited + 1) * 65536 / scrubLines slabs) }
        { s with mbox := { s.mbox with bg := s.mbox.bg.map (fun b => if isScrub b then nb else b) } }
  | _ => s

/-- SCRUB_PROGRESS: the counts go to the response payload every 500 ticks (R510). -/
def State.scrubReport (s : State) : State :=
  match s.mbox.bg.find? (fun b => match b with | .scrub _ _ _ _ _ _ _ _ _ _ _ => true | _ => false) with
  | some (.scrub h first slabs interval n ce ue po visited due rep) =>
    if s.clk.tick.toNat < rep then s
    else
      let nb : Background := .scrub h first slabs interval n ce ue po visited due (rep + 500)
      let s := s.haspPut h 0x840 (scrubBytes ce ue po visited)
      { s with mbox := { s.mbox with bg := s.mbox.bg.map (fun b => match b with | .scrub _ _ _ _ _ _ _ _ _ _ _ => nb | _ => b) } }
  | _ => s

/-! ### Commands -/

/-- START_SCRUB (R185). -/
def execStartScrub (hasp : Nat) (s : State) : Host.Outcome State Fault Refusal :=
  guard (decide (hasp < 16)) (s.runCommand hasp 0x10 (fun s => s.scrubStart hasp))

/-- SCRUB_TURN (R185). -/
def execScrubTurn (s : State) : Host.Outcome State Fault Refusal := .next (if s.wardenRuns then s.scrubTurn else s)

/-- SCRUB_PROGRESS (R510). -/
def execScrubProgress (s : State) : Host.Outcome State Fault Refusal := .next (if s.wardenRuns then s.scrubReport else s)

/-- REPAIR_SOFT (R470). -/
def execRepairSoft (hasp : Nat) (s : State) : Host.Outcome State Fault Refusal :=
  guard (decide (hasp < 16)) (s.runCommand hasp 0x11 (fun s => s.repairSoft hasp))

/-- REPAIR_SOFT_DONE (R470). -/
def execRepairSoftDone (s : State) : Host.Outcome State Fault Refusal := .next s.softDone

/-- REPAIR_FUSE (R471). -/
def execRepairFuse (hasp : Nat) (s : State) : Host.Outcome State Fault Refusal :=
  guard (decide (hasp < 16)) (s.runCommand hasp 0x12 (fun s => s.repairFuse hasp))

/-- REPAIR_COND_TIMEOUT (R471). -/
def execRepairCondTimeout (s : State) : Host.Outcome State Fault Refusal := .next s.fuseTimeout

/-- FPROG_DONE (R471). -/
def execFprogDone (refused : Bool) (s : State) : Host.Outcome State Fault Refusal := .next (s.fprogDone refused)

end Sys2Proof.Machine
end

