-- ==== Sys2Proof/Machine/Debug.lean ====
section
/-!
DEFINITION. The debug port: challenges, sessions, run control, debug accesses and repairs (R91 to R93, R539 to R550).
-/

namespace Sys2Proof.Machine

/-! ### The TAP (R91 to R93, R541; log 67) -/

/-- Bits of the data register that an instruction selects; every unlisted value selects BYPASS (R92, R541). -/
def drBits (ir : BitVec 8) : Nat :=
  match ir.toNat with
  | 0x01 => 32
  | 0x10 => 264
  | 0x11 => 1568
  | 0x12 => 32
  | 0x20 => 4
  | 0x21 => 40
  | 0x22 => 48
  | 0x30 => 48
  | 0x31 => 152
  | 0x32 => 40
  | _ => 1

/-- An Update-DR of an instruction with the bits that were shifted in. -/
def State.selects (s : State) (ir : BitVec 8) (v : Nat) : State :=
  { s with dbg := { s.dbg with ir := ir, tap := .updateDr, dr := BitVec.ofNat 1568 (v % 2 ^ drBits ir) } }

/-- TDO_OE is 1 only in Shift-DR and Shift-IR (R91). -/
def Debug.tdoOe (d : Debug) : Bool := d.tap == .shiftDr || d.tap == .shiftIr

/-- TDO carries the lowest bit of the data register, or of the instruction register (R541). -/
def Debug.tdo (d : Debug) : Bool := if d.tap = .shiftIr then d.ir.getLsbD 0 else d.dr.getLsbD 0

/-- The open session grants scope bit i: 0 READ, 1 WRITE, 2 RUN, 3 REPAIR (R541, R543). -/
def State.granted (s : State) (i : Nat) : Bool := s.dbg.sessionOn && s.dbg.scope.getLsbD i

/-- An Update-DR has its effect: CY_RST_N is high, the scope is granted, and FAILED with NO_UNLOCK has not shut debug access
(R539). -/
def State.debugOpen (s : State) (scope : Nat) : Bool := s.start.mode != .reset && s.granted scope && !s.dbg.refused

/-- IDCODE (R93). -/
def State.idcode (s : State) : Nat := (if s.ipRev = 0x20 then 0 else 1) * 2 ^ 28 + 0x0C72 * 2 ^ 12 + s.jtagMfr.toNat * 2 + 1

/-- DB_TSTAT (R544). -/
def State.tstat (s : State) : Nat :=
  let d := s.dbg
  b2n (!d.sessionOn) + b2n d.sessionOn * 2 + b2n d.halted * 2 ^ 2 + b2n (d.busy != .idle) * 2 ^ 3 + b2n d.chalReady * 2 ^ 4 +
  b2n d.lockout.isSome * 2 ^ 5 + d.unlockRes.toNat * 2 ^ 6 + (if d.sessionOn then d.scope.toNat else 0) * 2 ^ 8 +
  d.haltCause.toNat * 2 ^ 12 + d.hitIndex.toNat * 2 ^ 16 + d.repairRes.toNat * 2 ^ 20

/-- The DB_DATA word of an access that has not ended (R548). -/
def dbPending (u : BitVec 152) : BitVec 152 := dbWord 0 0 5 (bit u.toNat 147)

/-- What Capture-DR of DB_DATA loads: PENDING before the access ends (R548). -/
def Debug.shown (d : Debug) : BitVec 152 := match d.access with
  | some u => dbPending u
  | none => d.result

/-- What Capture-DR loads into the selected register (R541). -/
def State.captureDr (s : State) : Nat :=
  match s.dbg.ir.toNat with
  | 0x01 => s.idcode
  | 0x10 => b2n s.dbg.chalReady + s.dbg.challenge.toNat * 2 ^ 8
  | 0x12 => s.tstat
  | 0x30 => s.dbg.addr.toNat
  | 0x31 => s.dbg.shown.toNat
  | _ => 0

/-! ### Challenges (R542) -/

/-- A challenge is requested. -/
def State.challengeRequest (s : State) : State :=
  if s.dbg.busy = .idle then { s with dbg := { s.dbg with chalReady := false, busy := .draw s.sampling } } else s

/-- A health test has failed in a challenge draw: its bit is set and one failure counted (R542). -/
def State.challengeFail (s : State) (f : Health) : State :=
  s.mapRegs (fun r => { r with rctFail := r.rctFail || f.rct, aptFail := r.aptFail || f.apt, failCnt := satAdd r.failCnt 1 })

/-- The draw ends: the challenge is digest bits [255:0], or a failure is counted.  It never happens in a start, where Crety does not
read the entropy source; a draw that was requested then waits for its end (R257). -/
def State.challengeDrawn (s : State) (bits : List Bool) : State :=
  match s.dbg.busy with
  | .draw w =>
    if (w && s.sampling) || s.start.mode == .starting then s
    else
      let e := entropySequence bits
      let s : State := { s with dbg := { s.dbg with busy := .idle } }
      if e.1.rct || e.1.apt then
        s.challengeFail e.1
      else { s with dbg := { s.dbg with chalReady := true, challenge := BitVec.ofNat 256 (leNat ((sha384 e.2).take 32)), chalAt := s.now } }
  | _ => s

/-- REFCLK cycles of a challenge's life, 10 s, and of a lockout, 1 s (R542, R543). -/
def challengeLife : Nat := 1000000000
def lockoutLife : Nat := 100000000

def State.challengeExpire (s : State) : State :=
  if s.dbg.chalReady && decide (s.dbg.chalAt + challengeLife ≤ s.now) then { s with dbg := { s.dbg with chalReady := false } } else s

/-! ### Sessions (R543) -/

/-- A lockout runs: its window is half-open (R14, R543). -/
def State.lockedOut (s : State) : Bool := match s.dbg.lockout with
  | some t => decide (s.now < t)
  | none => false

/-- A response is refused without a verification (log 48); a challenge's life is half-open too (R14, R542). -/
def State.responseRefused (s : State) (r : BitVec 1568) : Bool :=
  !s.dbg.chalReady || decide (s.dbg.chalAt + challengeLife ≤ s.now) || s.regs.noUnlock || s.dbg.refused || s.lockedOut || decide (bits r.toNat 31 4 ≠ 0)

def State.refuseResponse (s : State) : State :=
  { s with dbg := { s.dbg with unlockRes := 3 }, regs := { s.regs with failCnt := satAdd s.regs.failCnt 1 } }

/-- DB_RESPONSE: a verification starts, or the response is refused. -/
def State.response (s : State) (r : BitVec 1568) : State :=
  if s.dbg.busy ≠ .idle then s
  else if s.responseRefused r then s.refuseResponse
  else { s with dbg := { s.dbg with busy := .verify r } }

/-- Bytes of Q and of the signature in a response, and the message that was signed. -/
def responseKey (r : BitVec 1568) : List Byte := leBytes 96 (bits r.toNat 799 32)
def responseSig (r : BitVec 1568) : List Byte := leBytes 96 (bits r.toNat 1567 800)
def State.unlockMessage (s : State) (r : BitVec 1568) : List Byte :=
  leBytes 32 s.dbg.challenge.toNat ++ leBytes 4 s.idcode ++ leBytes 8 s.start.readSerial.toNat ++ leBytes 4 (bits r.toNat 31 0)

/-- The key is the fused one and the signature verifies. -/
def State.unlockOk (s : State) (r : BitVec 1568) : Bool :=
  sha384Word (responseKey r) == Config.dbKeyHash && ecdsaVerifyMsg (responseKey r) (responseSig r) (s.unlockMessage r)

/-- The verification ends and has consumed the challenge. -/
def State.verified (s : State) : State :=
  match (if s.start.mode = .reset then .idle else s.dbg.busy) with
  | .verify r =>
    let refused := s.responseRefused r
    let ok := s.unlockOk r
    let s : State := { s with dbg := { s.dbg with busy := .idle, chalReady := false } }
    if refused then s.refuseResponse
    else if ok then
      ({ s with dbg := { s.dbg with unlockRes := 1, sessionOn := true, scope := BitVec.ofNat 4 (bits r.toNat 3 0), sessionTick := s.clk.tick },
                regs := { s.regs with unlockCnt := satAdd s.regs.unlockCnt 1 } } : State).irq .debug
    else { s with dbg := { s.dbg with unlockRes := 2, lockout := some (s.now + lockoutLife) },
                  regs := { s.regs with failCnt := satAdd s.regs.failCnt 1 } }
  | _ => s

def State.lockoutEnd (s : State) : State :=
  match s.dbg.lockout with
  | some t => if t ≤ s.now then { s with dbg := { s.dbg with lockout := none } } else s
  | none => s

/-- TRST_N: the TAP is in Test-Logic-Reset, the session ends and DB_TSTAT takes its reset values (R91, R92, R543, R544). -/
def State.trst (s : State) : State :=
  let s := s.endSession
  { s with dbg := { s.dbg with tap := .testLogicReset, ir := 0x01, busy := .idle, chalReady := false, lockout := none, unlockRes := 0, haltCause := 0, hitIndex := 0,
                               repairRes := 0 } }

/-! ### Run control (R545 to R547) -/

/-- Warden halts, at once where no record write is in flight, else at the next such boundary (R545). -/
def State.haltAt (s : State) (cause : BitVec 4) : State :=
  if !s.recordBusy then { s with dbg := { s.dbg with halted := true, haltCause := cause, haltReq := none } }
  else { s with dbg := { s.dbg with haltReq := some cause } }

/-- Warden runs on, and so does what waited for it. -/
def State.resumeWarden (s : State) : State :=
  if s.dbg.halted then (({ s with dbg := { s.dbg with halted := false } } : State).sweepBad).pumpPulls pumpFuel else s

/-- An instruction of Warden is executed while it is halted; what it does is not the manual's (R24, R546; log 9). -/
def State.stepWarden (s : State) : State :=
  if s.dbg.halted then { s with dbg := { s.dbg with haltCause := 2, pc := Config.wardenPc s.free }, free := s.free + 1 } else s

/-- DB_RUN: bit 0 HALT, which waits for its boundary, bit 1 RESUME, bit 2 STEP; an update with more than one bit set, or with the
reserved bit 3 alone, has no effect (R545, R546). -/
def State.dbRun (s : State) (v : BitVec 4) : State :=
  match v.toNat with
  | 1 => if s.dbg.halted then s else { s with dbg := { s.dbg with haltReq := some 1 } }
  | 2 => s.resumeWarden
  | 4 => s.stepWarden
  | _ => s

/-- DB_BKPT. -/
def State.setBkpt (s : State) (v : Nat) : State :=
  if bits v 7 4 ≠ 0 then s
  else { s with dbg := { s.dbg with bkpts := Sparse.set none s.dbg.bkpts (bits v 2 0) (if bit v 3 then some (BitVec.ofNat 32 (bits v 39 8)) else none) } }

/-- DB_WATCH.  DESIGN CHOICE (log 80): a KIND of 0, and an OFFSET that is not aligned to 2^LOG2LEN, is stored as given; R547 names only
reserved fields and LOG2LEN as what makes an update have no effect. -/
def State.setWatch (s : State) (v : Nat) : State :=
  if bits v 7 5 ≠ 0 ∨ bits v 15 12 ≠ 0 ∨ bits v 11 8 < 2 ∨ 12 < bits v 11 8 then s
  else { s with dbg := { s.dbg with watches := Sparse.set none s.dbg.watches (bits v 1 0) (if bit v 2 then some (BitVec.ofNat 48 v) else none) } }

/-- A breakpoint or watchpoint that is enabled is hit. -/
def State.hit (s : State) (enabled : Bool) (cause : BitVec 4) (index : Nat) : State :=
  if enabled && !s.dbg.halted then ({ s with dbg := { s.dbg with hitIndex := BitVec.ofNat 3 index } } : State).haltAt cause else s

/-! ### Debug accesses (R548, R549) -/

/-- Registers at whose offset a write is not ignored by every field. -/
def globalWritable (o : Nat) : Bool :=
  [0x0008, 0x005C, 0x0060, 0x0064, 0x0068, 0x006C, 0x0074, 0x1000, 0x2018, 0x2020, 0x2054, 0x2058, 0x205C, 0x3000, 0x3004].contains o ||
  (decide (0x0028 ≤ o) && decide (o < 0x005C)) || (decide (0x0078 ≤ o) && decide (o < 0x008C)) ||
  (decide (0x0100 ≤ o) && decide (o < 0x0300)) || (decide (0x1008 ≤ o) && decide (o < 0x1018)) ||
  (decide (0x2000 ≤ o) && decide (o < 0x2018)) || (decide (0x2024 ≤ o) && decide (o < 0x2044)) ||
  (decide (0x3008 ≤ o) && decide (o < 0x3020)) || (decide (0x4004 ≤ o) && decide (o < 0x4010)) ||
  (decide (0x8000 ≤ o) && decide (o < 0x8800))

/-- Registers with an RWL field. -/
def rwlOffset (o : Nat) : Bool := [0x0034, 0x0038, 0x003C, 0x4004].contains o

def chanWritable (o : Nat) : Bool := (decide (0x020 ≤ o) && decide (o < 0x034)) || o == 0x038

def ringWritable (o : Nat) : Bool := [0x00, 0x04, 0x08, 0x10, 0x14, 0x1C, 0x20, 0x24].contains o

/-- A debug write to a word of control space below Mortar is DENIED.  DESIGN CHOICE (log 51): so is one to the reserved bytes [63:8] of a
latch slot: R549 denies writes to latch words, and R135 says of these bytes that writes are ignored. -/
def State.dbDenied (s : State) (t : CtlTarget) : Bool :=
  match t with
  | .global o => !globalWritable o || (rwlOffset o && s.regs.lock)
  | .chan _ o => !chanWritable o
  | .broadcast o => !chanWritable o
  | .groupAlias _ o => !chanWritable o
  | .ring _ o => !ringWritable o
  | .hasp o => decide (0xFC8 ≤ o % 4096)
  | .latch _ _ => true
  | .mortar _ _ _ => false
  | .unmapped => true

def dbgWho : Who := { src := 4, agent := agentDebug }

def State.dbSetResult (s : State) (r : BitVec 152) : State := { s with dbg := { s.dbg with result := r } }

/-- A debug write of a 32-bit word of a hasp: merged with fresh check bits, or with RAW into the word as stored, with CHECK as given;
the control words act as for a host (R492, R549; log 51). -/
def State.dbHaspWrite (s : State) (o : Nat) (u : BitVec 152) : State :=
  let v : BitVec 32 := u.setWidth 32
  let c : BitVec 16 := BitVec.ofNat 16 (bits u.toNat 143 128)
  let d := BitVec.ofNat 128 (v.toNat <<< (8 * (o % 16)))
  let ben := 15 * 2 ^ (o % 16)
  let p := haspPlace o
  if 0xFC0 ≤ o % 4096 then (s.haspControl (o / 4096) d ben).dbSetResult (dbWord (v.setWidth 128) 0 0 true)
  else if s.dbg.raw then
    let m := mergeBytes (s.placeData p) d ben
    (s.placeSet p m (bondSyndrome m c)).dbSetResult (dbWord (v.setWidth 128) c 0 true)
  else (s.mergePlace dbgWho p d false ben).dbSetResult (dbWord (v.setWidth 128) 0 0 true)

/-- A debug read of a 32-bit word of a hasp: as a port reads it, or with RAW the stored data and the check bits of its Bond word,
with nothing counted (R549). -/
def State.dbHaspRead (s : State) (o : Nat) : State :=
  let p := haspPlace o
  if 0xFC0 ≤ o % 4096 then s.dbSetResult (dbWord ((word32 (s.haspWordRead dbgWho (o / 16 * 16)).1.1 o).setWidth 128) 0 0 false)
  else
    let code := (s.placeCheck p).code
    if s.dbg.raw then
      s.dbSetResult (dbWord ((word32 (s.placeData p) o).setWidth 128) (bondEncode (s.placeData p) ^^^ s.placeSyn p) code false)
    else
      let r := s.readPlace dbgWho p
      r.2.dbSetResult (dbWord ((word32 r.1.1 o).setWidth 128) 0 code false)

/-- A debug access to a 32-bit word of control space below Mortar. -/
def State.dbControl (s : State) (off : Nat) (u : BitVec 152) : State :=
  let off := off / 4 * 4
  let t := ctlTarget off
  let v : BitVec 32 := u.setWidth 32
  if bit u.toNat 147 then
    if s.dbDenied t then s.dbSetResult (dbWord 0 0 4 true)
    else
      match t with
      | .hasp o => s.dbHaspWrite o u
      | _ => (s.writeRegTo off v s.dbg.accessChans).dbSetResult (dbWord (v.setWidth 128) 0 0 true)
  else match t with
    | .latch i o =>
      let w := if o = 0 then (s.latch i).toNat % 2 ^ 32 else if o = 4 then (s.latch i).toNat / 2 ^ 32 else 0
      s.dbSetResult (dbWord (BitVec.ofNat 128 w) 0 0 false)
    | .hasp o => s.dbHaspRead o
    | _ => s.dbSetResult (dbWord ((s.readRegFrom off s.dbg.accessChans).setWidth 128) 0 0 false)

/-- Space 2 is served: by a stack that Crety serves, and in FAILED in boot mode on a channel outside self-refresh. -/
def State.pagesServed (s : State) : Bool :=
  (s.serving && !s.plumb.esr) || (s.start.mode == .failed && (List.range 256).any (fun c => !(s.chan c).sref))

/-- A debug read of identity and repair pages: IDR of the line, and its word (R106, R122, R548). -/
def State.dbPages (s : State) (off : Nat) (u : BitVec 152) : State :=
  if bit u.toNat 147 then s.dbSetResult (dbWord 0 0 4 true)
  else if !s.pagesServed then s.dbSetResult (dbWord 0 0 6 false)
  else (s.idrLine (off / 512) (off % 512 / 128)).dbBond (pagePlace (off / 16)) u

/-- The stack serves a debug access. -/
def State.stackServed (s : State) : Bool := s.serving && !s.plumb.esr

/-- Offsets of Mortar whose contents no rule lays out: the latch backing, the staging buffer, and the reduction area from its
working space on (R136, R567). -/
def mortarUnlaid (off : Nat) : Bool :=
  (decide (0x3200000 ≤ off) && decide (off < 0x3300000)) || (decide (0x4700000 ≤ off) && decide (off < 0x4900000)) || decide (0x4C00000 ≤ off)

/-- An access to a word of Mortar; what stands in an area that no rule lays out is free (log 5). -/
def State.dbMortar (s : State) (u : BitVec 152) : State :=
  if mortarUnlaid s.dbg.offset then s.dbUnlaid (mortarPlace (s.dbg.offset - 0x2000000)) u
  else s.dbBond (mortarPlace (s.dbg.offset - 0x2000000)) u

/-- Offsets that a space has; the access is DENIED elsewhere (log 51). -/
def inSpace (space off : Nat) : Bool :=
  (space == 0 && decide (off < 0x8000000)) || (space == 1 && decide (off < 9216 * slabSize)) || (space == 2 && decide (off < 34 * 512))

/-- An access outside the stack's queues. -/
def State.dbPerform (s : State) (u : BitVec 152) : State :=
  let off := s.dbg.offset
  let write := bit u.toNat 147
  if !inSpace s.dbg.space off then s.dbSetResult (dbWord 0 0 4 write)
  else if s.dbg.space = 0 then
    if off < 0x2000000 then s.dbControl off u else s.dbMortar u
  else if s.dbg.space = 1 then s.dbSetResult (dbWord 0 0 6 write)
  else s.dbPages off u

/-- DB_DATA: one access at DB_ADDR starts, once those before it have ended (log 51); a write needs WRITE scope.  A stack access goes
to its bank, and waits there as one to an INTERLEAVE region does (R549); an alias is resolved as the access is accepted (R141). -/
def State.dbStart (s : State) (u : BitVec 152) : State :=
  if s.dbg.access.isSome then { s with dbg := { s.dbg with accessNext := s.dbg.accessNext ++ [u] } }
  else
    let write := bit u.toNat 147
    let s : State := { s with dbg := { s.dbg with access := some u, result := dbPending u, accessAddr := s.dbg.addr } }
    let s : State := { s with dbg := { s.dbg with accessChans := s.maskOf s.dbg.offset } }
    if write && !s.granted 1 then s.dbSetResult (dbWord 0 0 4 true)
    else if s.dbg.space == 1 && inSpace 1 s.dbg.offset && s.stackServed then
      let a : BankAccess := .debug write s.seq
      (s.bankAccess (s.accessLoc a).bank a).bump
    else s

/-- OUTCOME of a DB_DATA word. -/
def dbOutcome (r : BitVec 152) : Nat := bits r.toNat 146 144

/-- The access waits in a bank's queue. -/
def State.dbQueued (s : State) : Bool := s.banks.any (fun e => e.2.queue.any (fun a => match a with
  | .debug _ _ => true
  | _ => false))

/-- The next DB_DATA update that waited starts its access. -/
def State.dbNext (s : State) : State :=
  match s.dbg.accessNext with
  | [] => s
  | u :: rest => ({ s with dbg := { s.dbg with accessNext := rest } } : State).dbStart u

/-- DB_ACCESS_DONE: the access is performed, unless its bank has served it already, and OFFSET advances; none is while CY_RST_N is low
or CCLK stands still, nor one of the stack's pages without SCLK (R557). -/
def State.dbDone (s : State) : State :=
  match s.dbg.access with
  | none => s
  | some u =>
    if s.dbQueued || s.start.mode == .reset || !s.runs 2 || (s.dbg.space == 2 && !s.runs 1) then s
    else
      let s := if dbOutcome s.dbg.result = 5 then s.dbPerform u else s
      ({ s with dbg := s.dbg.endAccess } : State).dbNext

/-! ### DB_REPAIR (R550) -/

/-- Starts a repair of the debug port. -/
def State.dbRepair (s : State) (v : Nat) : State :=
  let act := bits v 1 0
  let bank := bits v 13 2
  let row := bits v 27 14
  let able := s.serving || s.start.mode == .failed
  if s.dbg.repairRes = 1 ∨ s.repairing.isSome ∨ act = 0 ∨ !able then s
  else if act = 3 ∨ (if act = 1 then 9208 else 9216) ≤ row then { s with dbg := { s.dbg with repairRes := 6 } }
  else
    let s : State := { s with dbg := { s.dbg with repairRes := 1 } }
    if act = 1 then s.softBegin none bank row else (s.fuseBegin none bank row).fuseIssue

/-- DB_ADDR with its reserved bits [7:3] zero (R11, R548). -/
def addrFields (v : BitVec 48) : BitVec 48 := v &&& 0xFFFFFFFFFF07

/-- What an Update-DR of an instruction does in CCLK (R539 to R550). -/
def State.tapUpdate (s : State) (ir v : Nat) : State :=
  match ir with
  | 0x10 => if bit v 0 && s.start.mode != .reset then s.challengeRequest else s
  | 0x11 => if s.start.mode != .reset then s.response (BitVec.ofNat 1568 v) else s
  | 0x20 => if s.debugOpen 2 then s.dbRun (BitVec.ofNat 4 v) else s
  | 0x21 => if s.debugOpen 2 then s.setBkpt v else s
  | 0x22 => if s.debugOpen 2 then s.setWatch v else s
  | 0x30 => if s.debugOpen 0 then { s with dbg := { s.dbg with addr := addrFields (BitVec.ofNat 48 v) } } else s
  | 0x31 => if s.debugOpen 0 then s.dbStart (BitVec.ofNat 152 v) else s
  | 0x32 => if s.debugOpen 3 then s.dbRepair v else s
  | _ => s

/-- An Update-DR: the TAP has shifted it in, and it crosses into CCLK, where it waits while that stands still (R541, R555, R557; log
55). -/
def State.tapCross (s : State) (ir : BitVec 8) (v : Nat) : State :=
  let t := s.selects ir v
  if t.runs 2 then t.tapUpdate ir.toNat v else { t with waits := t.waits ++ [.update ir v] }

/-! ### Commands -/

/-- TRST_N. -/
def execTrstN (s : State) : Host.Outcome State Fault Refusal := .next s.trst

/-- DB_CHALLENGE: bit 0 of the update. -/
def execDbChallenge (request : Bool) (s : State) : Host.Outcome State Fault Refusal := .next (s.tapCross 0x10 (b2n request))

/-- CHAL_READY. -/
def execChalReady (bits : List Bool) (s : State) : Host.Outcome State Fault Refusal := .next (s.challengeDrawn bits)

/-- CHALLENGE_EXPIRY. -/
def execChallengeExpiry (s : State) : Host.Outcome State Fault Refusal := .next s.challengeExpire

/-- DB_RESPONSE. -/
def execDbResponse (response : BitVec 1568) (s : State) : Host.Outcome State Fault Refusal := .next (s.tapCross 0x11 response.toNat)

/-- UNLOCK_VERIFY_DONE. -/
def execUnlockVerifyDone (s : State) : Host.Outcome State Fault Refusal := .next s.verified

/-- LOCKOUT_END. -/
def execLockoutEnd (s : State) : Host.Outcome State Fault Refusal := .next s.lockoutEnd

/-- HALT: DB_RUN 1. -/
def execHalt (s : State) : Host.Outcome State Fault Refusal := .next (s.tapCross 0x20 1)

/-- WARDEN_HALTED: Warden reaches a boundary with no record write in flight. -/
def execWardenHalted (s : State) : Host.Outcome State Fault Refusal :=
  .next (match s.dbg.haltReq with
    | some c => if s.recordBusy then s else s.haltAt c
    | none => s)

/-- RESUME: DB_RUN 2. -/
def execResume (s : State) : Host.Outcome State Fault Refusal := .next (s.tapCross 0x20 2)

/-- STEP: DB_RUN 4. -/
def execStep (s : State) : Host.Outcome State Fault Refusal := .next (s.tapCross 0x20 4)

/-- DB_BKPT. -/
def execDbBkpt (value : BitVec 40) (s : State) : Host.Outcome State Fault Refusal := .next (s.tapCross 0x21 value.toNat)

/-- DB_WATCH. -/
def execDbWatch (value : BitVec 48) (s : State) : Host.Outcome State Fault Refusal := .next (s.tapCross 0x22 value.toNat)

/-- BREAKPOINT_HIT. -/
def execBreakpointHit (index : Nat) (s : State) : Host.Outcome State Fault Refusal :=
  guard (decide (index < 8)) (s.hit (Sparse.get none s.dbg.bkpts index).isSome 3 index)

/-- WATCHPOINT_HIT. -/
def execWatchpointHit (index : Nat) (s : State) : Host.Outcome State Fault Refusal :=
  guard (decide (index < 4)) (s.hit (Sparse.get none s.dbg.watches index).isSome 4 index)

/-- DB_ADDR (R541, R548). -/
def execDbAddr (value : BitVec 48) (s : State) : Host.Outcome State Fault Refusal := .next (s.tapCross 0x30 value.toNat)

/-- DB_DATA. -/
def execDbData (value : BitVec 152) (s : State) : Host.Outcome State Fault Refusal := .next (s.tapCross 0x31 value.toNat)

/-- DB_ACCESS_DONE. -/
def execDbAccessDone (s : State) : Host.Outcome State Fault Refusal := .next s.dbDone

/-- DB_REPAIR. -/
def execDbRepair (value : BitVec 40) (s : State) : Host.Outcome State Fault Refusal := .next (s.tapCross 0x32 value.toNat)

end Sys2Proof.Machine
end

