-- ==== Sys2Proof/Machine/Pintle.lean ====
section
/-!
DEFINITION. The Pintle ports: taking a down flit, credits, duplicates of outstanding tags and up flits (R41 to R52,
R83, R89).
-/

namespace Sys2Proof.Machine

/-- Crety withholds down-link credits: a duplicate is held, 256 tags are outstanding, a sag was accepted, or ACLK_HOLD
is up (R48, R51, R83, R89). -/
def State.withholds (s : State) (p : PintlePort) : Bool :=
  !p.dups.isEmpty || decide (256 ≤ p.busy.length) || s.start.mode == .deadbolt || s.start.mode == .dark ||
  (s.start.mode == .failed && s.start.sagInFail) || s.clk.hold

/-- Returns the credits of freed request entries (R42). -/
def State.settle (s : State) (port : Nat) : State :=
  let p := s.port port
  if s.withholds p then s else s.setPort port { p with dnCred := 32 }

def State.settleAll (s : State) : State := (List.range 32).foldl (fun s n => s.settle n) s

/-- The links run: CY_RST_N is high and ACLK runs and is not idle (R89, R557).  DESIGN CHOICE (log 49): R89 keeps pending responses queued
"throughout" and does not say from when; here from the rise of ACLK_IDLE on, so that between the rise of ACLK_HOLD and it responses
still leave and up-link credits still move. -/
def State.linksRun (s : State) : Bool := s.start.mode != .reset && !s.clk.idle && s.runs 0

/-- Takes a down flit (R42, R43, R48): a flit without a credit cannot be sent and has no effect. -/
def State.pintleTake (s : State) (r : PintleReq) : State :=
  let p := s.port r.port
  if !s.linksRun || p.dnCred == 0 then s
  else
    let r := { r with seq := s.seq, at_ := s.now, chans := if r.ctl then s.maskOf r.addr.toNat else [] }
    let s := s.bump.countPt
    let p := { p with dnCred := p.dnCred - 1 }
    if p.busy.contains r.tag then (s.setPort r.port { p with dups := p.dups ++ [r] }).settle r.port
    else ((s.setPort r.port { p with busy := p.busy ++ [r.tag] }).pintleIssue r).settle r.port

/-- The answer to a held duplicate (R48). -/
def dupFlit (r : PintleReq) : UpFlit :=
  { kind := r.op == 0, tag := r.tag, stat := ptBadOp, data := 0, chk := 0, dup := true }

/-- Sends the oldest response of a port on a credit (R42, R51); the tag is free from then on, and held duplicates of it
are answered (R48). -/
def State.pintleSend (s : State) (port : Nat) : State :=
  let p := s.port port
  match p.upQ with
  | [] => s
  | f :: rest =>
    if !s.linksRun || p.upCred == 0 then s
    else
      let p := { p with upQ := rest, sent := some f, upCred := p.upCred - 1 }
      let p := if f.dup then p
        else { p with busy := p.busy.filter (· != f.tag), dups := p.dups.filter (fun r => r.tag != f.tag),
                      upQ := p.upQ ++ (p.dups.filter (fun r => r.tag == f.tag)).map dupFlit }
      (s.countPt.setPort port p).settle port

/-- A request with no data. -/
def bareReq (port : Nat) (op : BitVec 3) (ctl : Bool) (addr : BitVec 37) (tag : BitVec 8) : PintleReq :=
  { port := port, op := op, ctl := ctl, addr := addr, tag := tag, data := 0, chk := 0, ben := 0, at_ := 0, chans := [], seq := 0 }

/-! ### Commands -/

/-- READ (R44). -/
def execRead (port : Nat) (ctl : Bool) (addr : BitVec 37) (tag : BitVec 8) (s : State) : Host.Outcome State Fault Refusal :=
  guard (decide (port < 32)) (s.pintleTake (bareReq port 0 ctl addr tag))

/-- WRITE (R44, R45). -/
def execWrite (port : Nat) (ctl : Bool) (addr : BitVec 37) (tag : BitVec 8) (data : LineData) (chk : LineChk) (ben : BitVec 128)
    (s : State) : Host.Outcome State Fault Refusal :=
  guard (decide (port < 32)) (s.pintleTake { bareReq port 1 ctl addr tag with data := data, chk := chk, ben := ben })

/-- FADD64 (R44, R406). -/
def execFadd64 (port : Nat) (ctl : Bool) (addr : BitVec 37) (tag : BitVec 8) (data : LineData) (chk : LineChk) (s : State) :
    Host.Outcome State Fault Refusal :=
  guard (decide (port < 32)) (s.pintleTake { bareReq port 2 ctl addr tag with data := data, chk := chk })

/-- FADD64 with ACQ, whose acceptance cycle starts its window (R410, R411). -/
def execFadd64Acquire (port : Nat) (ctl : Bool) (addr : BitVec 37) (tag : BitVec 8) (data : LineData) (chk : LineChk) (at_ : Nat)
    (s : State) : Host.Outcome State Fault Refusal :=
  guard (decide (port < 32)) ((s.touch at_).pintleTake { bareReq port 2 ctl addr tag with data := data, chk := chk })

/-- CAS64 (R44, R406). -/
def execCas64 (port : Nat) (ctl : Bool) (addr : BitVec 37) (tag : BitVec 8) (data : LineData) (chk : LineChk) (s : State) :
    Host.Outcome State Fault Refusal :=
  guard (decide (port < 32)) (s.pintleTake { bareReq port 3 ctl addr tag with data := data, chk := chk })

/-- A reserved operation, 4 to 7 (R44). -/
def execPintleReservedOp (port : Nat) (op : BitVec 3) (ctl : Bool) (addr : BitVec 37) (tag : BitVec 8) (s : State) :
    Host.Outcome State Fault Refusal :=
  guard (decide (port < 32)) (if op.getLsbD 2 then s.pintleTake (bareReq port op ctl addr tag) else s)

/-- PINTLE_RESPONSE (R42, R48, R49). -/
def execPintleResponse (port : Nat) (s : State) : Host.Outcome State Fault Refusal :=
  guard (decide (port < 32)) (s.pintleSend port)

/-- UP_LINK_CREDIT: the host returns one credit; Crety never holds more than 32 (R42). -/
def execUpLinkCredit (port : Nat) (s : State) : Host.Outcome State Fault Refusal :=
  guard (decide (port < 32))
    (if s.linksRun then s.setPort port { s.port port with upCred := min 32 ((s.port port).upCred + 1) } else s)

end Sys2Proof.Machine
end

