-- ==== Sys2Proof/Machine/Plumb.lean ====
section
/-!
DEFINITION. Plumb: the energy of a tick, the bucket, the plan of the next tick, throttling, windows, the budget interface,
and the tick edge itself (R13, R81, R197, R211, R215, R429 to R446).
-/

namespace Sys2Proof.Machine

/-! ### Exact fractions -/

/-- A non-negative fraction: numerator and denominator. -/
abbrev Frac := Nat × Nat

def Frac.plus (a b : Frac) : Frac := (a.1 * b.2 + b.1 * a.2, a.2 * b.2)

/-- The fraction rounded toward zero. -/
def Frac.trunc (a : Frac) : Nat := a.1 / a.2

/-! ### The model (R430, R431) -/

/-- Coefficient c[k] of identity page 0 (R430). -/
def State.coef (s : State) (k : Nat) : Nat := field s.idBytes (0x50 + 2 * k) 2

/-- e_unit_cycle in 1/6,400 pJ. -/
def State.unitCycle (s : State) : Nat := 64 * s.coef 5 + 64 * s.coef 1 + 10 * s.coef 0

/-- Standby energy of a tick in pJ, for a number of dies outside self-refresh. -/
def State.standby (s : State) (up : Nat) : Nat := 2000 * s.coef 6 * up

/-- The counts of every channel controller in the present tick (R429); none cross from SCLK while it is stopped (R557). -/
def State.chanCounts (s : State) : ChanCounts :=
  if !s.runs 1 then .zero
  else (List.range 256).foldl (fun a c =>
    let n := (s.chan c).counts
    { acts := a.acts + n.acts, sectors := a.sectors + n.sectors, refs := a.refs + n.refs,
      hostActs := a.hostActs + n.hostActs, hostSectors := a.hostSectors + n.hostSectors }) .zero

/-- n_act, n_ext and n_ref of the present tick: what the frames moved, and what was moved without one (R429; log 72). -/
def State.moved (s : State) (n : TickCounts) : ChanCounts :=
  let m := s.chanCounts
  if s.runs 1 then { m with acts := m.acts + n.nAct, sectors := m.sectors + n.nExt } else m

/-- u of the present tick: the active cycles of all Corbel units, from the beds granted (R118, R429). -/
def State.unitCycles (s : State) : Nat := if s.runs 1 then ((List.range 16).map (fun d => (s.die d).act)).sum else 0

/-- E_S, E_B and E_IO of a tick in 1/6,400 pJ, and E_C in 1/10 pJ × 640, all as numerators over 6,400 (R430, R431), in the
order of the sense rails: VDD_S, VDD_B, VDD_C, VDD_IO.  A line of the controller model is 4 sectors of n_ext (log 72). -/
def State.modelEnergy (s : State) (n : TickCounts) : List Nat :=
  let m := s.moved n
  let u := s.unitCycles
  let up := s.plumb.dUp
  let stby := s.standby up
  let eS := 640 * s.coef 0 * m.acts + 64 * s.coef 2 * m.sectors + 640 * s.coef 4 * m.refs +
    u * (64 * s.coef 1 + 10 * s.coef 0) + 4480 * stby + 6400 * (2000 * s.coef 7 * (16 - up))
  let eB := u * 64 * s.coef 5 + 1280 * stby
  let eIO := m.sectors * 64 * s.coef 3 + 640 * stby
  let dyn (i : Nat) : Nat := 640 * (Config.vddcDyn i).toNat
  let eC := 6400 * 2000 * (Config.vddcStatic s.clk.pt.toNat).toNat + dyn 0 * m.sectors / 4 + dyn 1 * s.plumb.ksParams +
    dyn 2 * s.plumb.ptBeats + dyn 3 * s.plumb.fbBeats
  [eS, eB, eC, eIO]

/-- Charged energy in pJ: the model times k_r while SENSE_EN is 1, rounded toward zero (R432, R436). -/
def Plumb.charge (p : Plumb) (rail model : Nat) : Nat :=
  model * (if p.senseEn then (p.kCorr.getD rail 0x4000).toNat else 0x4000) / (6400 * 16384)

/-- The FP32 value of a fraction, rounded once. -/
def f32Frac (num den : Nat) : F32 :=
  if num = 0 ∨ den = 0 then 0
  else
    let r := stickyDiv num den 0
    f32OfMag false r.1 r.2

/-- Rail voltage in mV for conversion: VDD_S, VDD_B and VDD_IO from PL_RAIL_MV, VDD_C as sampled (R432, R445). -/
def Plumb.railVolts (p : Plumb) (rail : Nat) (sampled : BitVec 16) : Nat :=
  if rail = 0 then (p.railMv.getD 0 0).toNat else if rail = 1 then (p.railMv.getD 1 0).toNat
  else if rail = 2 then sampled.toNat else (p.railMv.getD 2 0).toNat

/-- The next k_r of a rail (R432): meas and E_r_model are each rounded once to FP32, and the result to a multiple of 2^-14
(log 30). -/
def Plumb.nextK (p : Plumb) (rail model : Nat) : BitVec 16 :=
  let k := p.kCorr.getD rail 0x4000
  match p.samples.getD rail none with
  | none => k
  | some (d, mv) =>
    if !p.senseEn || decide (model < 6400 * 1000000) then k
    else
      let meas := f32Frac (d.toNat * (p.senseLsb.getD rail 0).toNat * p.railVolts rail mv * 2) 1000
      let k0 := f32Const k.toNat (-14)
      let k1 := f32Add k0 (f32Div (f32Sub (f32Div meas (f32Frac model 6400)) k0) (f32OfInt 64))
      let k2 := if f32Lt k1 (f32Const 1 (-1)) then f32Const 1 (-1) else if f32Lt (f32OfInt 2) k1 then f32OfInt 2 else k1
      BitVec.ofInt 16 (roundInt .rne 0 ((f32Val k2).scale 14))

/-! ### The bucket (R434, R436) -/

/-- r: pJ per tick at the ceiling. -/
def ceilEnergy (w : Nat) : Nat := w * 2000000

/-- e_u in pJ.  DESIGN CHOICE (log 30): where every coefficient that goes into it is zero, 1 pJ, since R437 divides by it. -/
def State.unitEnergy (s : State) : Nat := max 1 (1125 * s.unitCycle / 6400)

/-- E_over in pJ. -/
def State.overEnergy (s : State) : Nat := (57600 * (s.coef 2 + s.coef 3) + 144000 * s.coef 0 + 8192 * s.coef 4) / 10

/-- fill in pJ. -/
def State.fillEnergy (s : State) (r : Nat) : Int := ((492 * r : Int) - (s.overEnergy : Int)).tdiv 500

/-- The external energy per sector, in 1/200 pJ.  DESIGN CHOICE (log 30): R437 gives no formula for it; it is counted with a quarter of an
ACT, as E_over counts a line (R436).  Where every coefficient that goes into it is zero, it is 1/200 pJ, since R437 divides by it. -/
def State.sectorEnergy (s : State) : Nat := max 1 (2 * s.coef 2 + 2 * s.coef 3 + 5 * s.coef 0)

/-- Patrol lines per tick: the patrol's and those of running scrub passes (R181, R185, R436). -/
def State.patrolRate (s : State) : Frac :=
  let base : Frac := if s.regs.scrubOn = 0 then (0, 1) else (4096, s.regs.scrubOn.toNat)
  s.mbox.bg.foldl (fun a b => match b with
    | .scrub _ _ _ interval _ _ _ _ _ _ _ => a.plus (1, max 1 interval)
    | _ => a) base

/-- Dies outside self-refresh now. -/
def State.diesUp (s : State) : Nat := ((List.range 16).filter (fun d => !(s.chan (16 * d)).sref)).length

/-- E_fix of the next tick in pJ (R436). -/
def State.fixEnergy (s : State) : Nat :=
  let up := s.diesUp
  let still : Frac := (s.standby up + 2000 * s.coef 7 * (16 - up), 1)
  let refresh : Frac := ((List.range 16).foldl (fun a d => a + 256 * tierStep (s.die d).tier * s.coef 4) 0, 160000)
  let rate := s.patrolRate
  let patrol : Frac := (rate.1 * (640 * s.coef 0 + 256 * (s.coef 2 + s.coef 3)), rate.2 * 6400)
  ((still.plus refresh).plus patrol).trunc

/-- Host external energy of the present tick in pJ (R436). -/
def State.hostEnergy (s : State) : Nat :=
  let m := s.chanCounts
  (m.hostSectors * (s.coef 2 + s.coef 3) + 10 * s.coef 0 * m.hostActs) / 100

/-! ### The plan (R437 to R441) -/

/-- Some context may have work. -/
def State.anyWork (s : State) : Bool :=
  !s.ctl.staged.isEmpty || s.sweeping || !(s.setsIn .updating).isEmpty || s.rings.any (fun e => !e.2.flight.isEmpty)

/-- Banks of a channel with work, at most 8 (R438). -/
def State.chanWork (s : State) (c : Nat) : Nat := min 8 ((List.range 16).filter (fun b => s.bankWork (16 * c + b))).length

/-- Units that the Corbel side can use. -/
def State.unitDemand (s : State) : Nat := if s.anyWork then (List.range 256).foldl (fun a c => a + s.chanWork c) 0 else 0

/-- The Keystone engine has work: an update of its groups, a checkpoint transfer, or an item that waits for its sectors (R437, R570). -/
def State.ksWork (s : State) : Bool :=
  s.ctl.items.any (fun i => decide (0 < i.owed)) ||
  (!(s.setsIn .updating).isEmpty && s.groupList.any (fun e => !e.2.corbel)) || s.exporting ||
  (match s.mbox.active with
   | some h => (s.hasp h).opcode == 0x0C
   | none => false)

/-- Sectors per tick that the engine can move at an ACLK point (R445; log 31). -/
def ksSectors (pt : Nat) : Nat := if pt = 0 then 576000 else if pt = 1 then 460800 else if pt = 2 then 384000 else 307200

/-- The unit and sector allowances of a spare energy, before the ramp (R437). -/
def State.share (s : State) (spare : Nat) : Nat × Nat :=
  let den := s.sectorEnergy
  let eu := s.unitEnergy
  let units (ks : Nat) : Nat := (200 * spare - ks * den) / (200 * eu)
  if !s.ksWork then (min 2048 (units 0), 0)
  else
    let dem := ksSectors s.clk.pt.toNat
    let co := s.unitDemand
    let ks0 := min dem (if co = 0 then 200 * spare / den else 200 * spare * s.plumb.ksShare.toNat / (256 * den))
    let extra := if co < units ks0 then min (dem - ks0) ((units ks0 - co) * eu * 200 / den) else 0
    (min 2048 (units (ks0 + extra)), ks0 + extra)

/-- Allowances formed from a fill energy (R436, R437, R441); none without a ceiling (R434). -/
def State.plan (s : State) (fill : Nat → Int) : Nat × Nat :=
  match s.plumb.ceil with
  | none => (0, 0)
  | some w =>
    let spare := min s.plumb.level (fill (ceilEnergy w)) - (s.fixEnergy : Int) - (s.plumb.hostLast : Int)
    s.share spare.toNat

/-- Divides the unit allowance among the channels, from channel (tick mod 256) upward (R438). -/
def State.divideFrom (s : State) : List Nat → Nat → Sparse Nat → State
  | [], _, _ => s
  | c :: rest, left, used =>
    let d := c / 16
    let room := min 128 (s.die d).throttle - Sparse.get 0 used d
    let n := min (s.chanWork c) (min room left)
    State.divideFrom (s.setChan c { s.chan c with allow := n }) rest (left - n) (Sparse.set 0 used d (Sparse.get 0 used d + n))

/-- R438 for the allowance in force. -/
def State.divide (s : State) : State :=
  if s.anyWork then s.divideFrom ((List.range 256).map (fun i => (s.clk.tick.toNat + i) % 256)) s.plumb.allow []
  else (s.chans.map (·.1)).foldl (fun s c => s.setChan c { s.chan c with allow := 0 }) s

/-- Puts allowances into force. -/
def State.grantUnits (s : State) (units ks : Nat) : State :=
  (s.mapPlumb (fun p => { p with allow := units, ksAllow := ks })).divide

/-- The plan at a tick edge with the ramp of R439. -/
def State.planTick (s : State) : State :=
  let n := s.plan s.fillEnergy
  let p := s.plumb
  s.grantUnits (min n.1 (p.allow + p.ramp.toNat)) (min n.2 (p.ksAllow + p.ramp.toNat * s.unitEnergy * 200 / s.sectorEnergy))

/-! ### Throttling (R446) -/

/-- The throttle limit for a die temperature in 1/16 °C. -/
def throttleLimit (tt : Nat) (t : Int) : Nat :=
  if t ≤ 16 * (tt : Int) then 128
  else if 1680 < t then 0
  else (128 * (1680 - t) / (1680 - 16 * (tt : Int))).toNat

/-- Sets the limits of every die; THERM_THROTTLE is set when one first falls below 128. -/
def State.throttleDies (s : State) : State :=
  (List.range 16).foldl (fun s d =>
    let x := s.die d
    let n := throttleLimit s.plumb.throttleT.toNat x.temp
    let s1 := s.setDie d { x with throttle := n }
    if x.throttle = 128 ∧ n < 128 then s1.irq .thermThrottle else s1) s

/-! ### Windows (R442 to R444) -/

/-- Adds the tick that has ended to a window's sums. -/
def PlSum.addTick (w : PlSum) (e : List Nat) (peak : Nat) (sensed : List Bool) (flags : BitVec 5) : PlSum :=
  { eS := w.eS + e.getD 0 0, eB := w.eB + e.getD 1 0, eC := w.eC + e.getD 2 0, eIO := w.eIO + e.getD 3 0, peak := max w.peak peak,
    sensed := (List.range 4).map (fun i => w.sensed.getD i 0 + b2n (sensed.getD i false)), flags := w.flags ||| flags,
    ticks := w.ticks + 1 }

/-- The record of a window that has ended: energies in `unit` pJ, the peak in µJ, PARTIAL where a tick was not counted. -/
def PlSum.record (w : PlSum) (index len unit : Nat) : PlRecord :=
  { index := BitVec.ofNat 32 index, eS := w.eS / unit, eB := w.eB / unit, eC := w.eC / unit, eIO := w.eIO / unit,
    peak := w.peak / 1000000, sensed := w.sensed, flags := w.flags ||| (if w.ticks = len then 0 else 1) }

/-- Ticks of a 1 s and of a 60 s window. -/
def secondTicks : Nat := 500000
def minuteTicks : Nat := 30000000

/-- The count of R189 starts again with each 60 s window, whatever Crety does. -/
def State.closeCeWindow (s : State) (t : Nat) : State :=
  if t % minuteTicks = 0 then s.mapRegs (fun r => { r with ceWindow := 0, ceFired := false }) else s

/-- Ends the windows that end at tick edge `t` (R442). -/
def State.closeWindows (s : State) (t : Nat) : State :=
  let s := if t % secondTicks = 0 then
      s.mapPlumb (fun p => { p with due1s := some (p.sum1s.record (t / secondTicks - 1) secondTicks 1000000), sum1s := .zero })
    else s
  if t % minuteTicks = 0 then
    s.mapPlumb (fun p => { p with due60 := some (p.sum60.record (t / minuteTicks - 1) minuteTicks 1000000000), sum60 := .zero })
  else s

/-- PLUMB_WINDOW_END: the record of a window that has ended goes to its registers and to the history (R443). -/
def State.writeWindow (s : State) (sixty : Bool) : State :=
  let p := s.plumb
  match (if sixty then p.due60 else p.due1s) with
  | none => s
  | some r =>
    if sixty then s.mapPlumb (fun p => { p with w60 := r, hist60 := (r :: p.hist60).take 16, due60 := none })
    else s.mapPlumb (fun p => { p with w1s := r, hist1s := (r :: p.hist1s).take 64, due1s := none })

/-! ### The tick edge (R13, R211, R215, R217, R429 to R446) -/

/-- Charges the tick that has ended by its counts, corrects the factors and adds the tick to the windows. -/
def State.chargeTick (s : State) (n : TickCounts) : State :=
  let p := s.plumb
  let model := s.modelEnergy n
  let e := (List.range 4).map (fun i => p.charge i (model.getD i 0))
  let stack := e.getD 0 0 + e.getD 1 0 + e.getD 3 0
  let hist := (stack :: p.last500).take 500
  let peak := if hist.length = 500 then hist.foldl (· + ·) 0 else 0
  let sensed := p.samples.map (·.isSome)
  let host := s.hostEnergy
  s.mapPlumb (fun p => { p with
    level := if p.ceil.isSome then p.level - (stack : Int) else p.level,
    kCorr := (List.range 4).map (fun i => p.nextK i (model.getD i 0)),
    samples := [none, none, none, none], last500 := hist, hostLast := host,
    sum1s := p.sum1s.addTick e peak sensed p.tickFlags, sum60 := p.sum60.addTick e peak sensed p.tickFlags, tickFlags := 0 })

/-- A new budget takes effect, and the bucket is filled to its capacity at most (R435, R436; log 29). -/
def State.fillBucket (s : State) : State :=
  let p := { s.plumb with wattsOn := s.plumb.watts, capsOn := s.plumb.caps }
  match p.ceil with
  | none => { s with plumb := p }
  | some w =>
    let r := ceilEnergy w
    { s with plumb := { p with level := min (p.level + s.fillEnergy r) (8 * r : Nat) } }

/-- HOST_OVER at a tick edge (R436, R440).  DESIGN CHOICE (log 76): it belongs to the tick that begins, in whose window its record flag
falls; R440 does not say. -/
def State.hostOver (s : State) : State :=
  if s.plumb.ceil.isSome ∧ s.plumb.level < (s.fixEnergy : Int) + (s.plumb.hostLast : Int) then
    (s.mapPlumb (fun p => { p with hostOver := true, hostOverCnt := satAdd p.hostOverCnt 1, tickFlags := p.tickFlags ||| 2 })).irq .pwrOver
  else s

/-- FLAGS of the tick that begins: CAPPED, THROTTLED, ESR (R442). -/
def State.tickFlags (s : State) : State :=
  s.mapPlumb (fun p => { p with tickFlags := p.tickFlags ||| BitVec.ofNat 5 (4 * b2n (p.capLvl != 0) + 8 * b2n s.throttled + 16 * b2n p.esr),
                                dUp := s.diesUp })

/-- The dies at every tick edge: the next tier takes effect, a tick in which no TSR was read breaks the 500 of R216, and the
tick's granted cycles join the 500 before (R215 to R217). -/
def State.edgeDies (s : State) : State :=
  (List.range 16).foldl (fun s i =>
    let d := s.die i
    s.setDie i { d with tier := d.nextTier, below := if d.nextTier = d.tier && d.read then d.below else 0, read := false, act := 0,
                        actHist := (d.act :: d.actHist).take 500 }) s

/-- What is counted for Plumb starts again: channel counts, sectors and parameters of the Keystone engine, flits and beats (R429, R431,
R437). -/
def State.zeroUse (s : State) : State :=
  ((s.chans.map (·.1)).foldl (fun s c => s.setChan c { s.chan c with counts := .zero }) s).mapPlumb (fun p =>
    { p with ksUsed := 0, ksParams := 0, ptBeats := 0, fbBeats := 0 })

/-- The counts of the tick start again: REFpb, beds, and those for Plumb (R196, R211, R212, R429, R431, R437). -/
def State.edgeCounts (s : State) : State :=
  let s := (s.banks.map (·.1)).foldl (fun s k => s.setBank k { s.bank k with refs := 0, barred := false, busyTo := 0 }) s
  ((s.chans.map (·.1)).foldl (fun s c => s.setChan c { s.chan c with begun := [] }) s).zeroUse

/-- CY_SCRUB_CTRL applies from the tick edge (R529). -/
def State.edgeScrub (s : State) : State := s.mapRegs (fun r => { r with scrubOn := r.scrubInt })

/-- The boundary of R199 at the start of the window in every bank that has something to do. -/
def State.edgeBanks (s : State) : State :=
  (s.busyBanks.filter (fun k => s.chanLive (k / 16) && (s.bank k).course.isNone)).foldl (fun s k => s.edgeBank k) s

/-- Moves CY_TICK on to the next edge (R13, R192, R527). -/
def State.nextTick (s : State) : State := { s with clk := { s.clk with tick := s.clk.tick + 1, phase := 0, openPhase := false } }

/-- TICK_EDGE: the tick that ends gives what is left of its sector allowance, and is charged; a fuse that waits for its conditions is
tried again, in FAILED too (R471, R550), and what waited for a bank, for the allowance or for Warden goes on (R203, R347, R437, R547). -/
def State.tickEdge (s : State) (n : TickCounts) : State :=
  if s.start.mode = .reset ∨ !s.runs 4 then s
  else
    let s := s.payDebt
    let s := if s.serving then s.chargeTick n else s
    let s := ((s.nextTick.edgeDies).edgeCounts).edgeScrub
    let s := s.closeCeWindow s.clk.tick.toNat
    if !s.serving then s.fuseIssue.fuseFinish.edgeBanks.goOn
    else
      let s := s.closeWindows s.clk.tick.toNat
      let s := (s.throttleDies.fillBucket).hostOver
      let s := (s.tickFlags.planTick).edgeBanks
      (s.fuseIssue.fuseFinish.goOn.startCourses).pumpPulls pumpFuel

/-! ### The budget interface (R79, R81, R441) -/

/-- A new PWR_CAP_LVL level (R441); a deadbolt sequence ignores it (R456).  DESIGN CHOICE (log 77): a change that is ignored is dropped,
and the level accepted before stands at the next start. -/
def State.capLevel (s : State) (level : BitVec 4) : State :=
  if s.start.mode = .reset ∨ s.start.mode = .deadbolt ∨ s.start.mode = .dark then s
  else
    let s := s.mapPlumb (fun p => { p with capLvl := level })
    if !s.serving then s
    else
      let s := s.mapPlumb (fun p => { p with
        level := (match p.ceil with
          | some w => min p.level ((8 * ceilEnergy w : Nat) : Int)
          | none => p.level),
        tickFlags := p.tickFlags ||| (if level = 0 then 0 else 4) })
      let n := s.plan (fun r => (r : Int))
      if n.1 < s.plumb.allow ∨ n.2 < s.plumb.ksAllow then s.grantUnits (min n.1 s.plumb.allow) (min n.2 s.plumb.ksAllow) else s

/-- A sense sample of a rail (R81, R445). -/
def State.sense (s : State) (rail : Nat) (data : BitVec 16) : State :=
  s.mapPlumb (fun p =>
    let again := (p.samples.getD rail none).isSome
    { p with samples := setAt p.samples rail (some (data, p.vddcMv.getD s.clk.pt.toNat 0)),
             senseOver := if again then satAdd p.senseOver 1 else p.senseOver })

/-! ### Commands -/

/-- TICK_EDGE (R13). -/
def execTickEdge (counts : TickCounts) (s : State) : Host.Outcome State Fault Refusal := .next (s.tickEdge counts)

/-- PWR_CAP_LVL_CHANGE (R441); the pins wait for REFCLK where that stands still, since its synchroniser takes them (R79, R555, R557). -/
def execPwrCapLvlChange (level : BitVec 4) (at_ : Nat) (s : State) : Host.Outcome State Fault Refusal :=
  .next (if s.runs 4 then (s.touch at_).capLevel level else s.mapPlumb (fun p => { p with capPin := some level }))

/-- A level that waited for REFCLK is accepted (R79, R559). -/
def State.capArrives (s : State) : State :=
  match s.plumb.capPin with
  | some l => (s.mapPlumb (fun p => { p with capPin := none })).capLevel l
  | none => s

/-- SENSE_SAMPLE (R81, R432).  DESIGN CHOICE (log 71): while Crety does not serve, in a start too, a sample is dropped and is no
overrun. -/
def execSenseSample (rail : BitVec 2) (data : BitVec 16) (at_ : Nat) (s : State) : Host.Outcome State Fault Refusal :=
  .next (if s.serving then (s.touch at_).sense rail.toNat data else s)

/-- PLUMB_WINDOW_END (R443). -/
def execPlumbWindowEnd (sixty : Bool) (s : State) : Host.Outcome State Fault Refusal :=
  .next (if s.serving then s.writeWindow sixty else s)

end Sys2Proof.Machine
end

