-- ==== Sys2Proof/Machine/Clocks.lean ====
section
/-!
DEFINITION. The DVFS handshake of ACLK, and clocks that stop and run again (R89, R526, R537, R557 to R559).
-/

namespace Sys2Proof.Machine

/-! ### The DVFS handshake (R89, R526) -/

/-- ACLK_HOLD rises. -/
def State.holdRise (s : State) : State := if s.start.mode = .reset then s else { s with clk := { s.clk with hold := true } }

/-- The leaves have stopped, and ACLK_IDLE rises. -/
def State.aclkIdle (s : State) : State := if s.clk.hold then { s with clk := { s.clk with idle := true } } else s

/-- ACLK_HOLD falls: ACLK_PT is sampled, ACLK_IDLE falls, credits return and the leaves go on. -/
def State.holdFall (s : State) (pt : BitVec 2) : State :=
  if !s.clk.hold then s
  else ({ s with clk := { s.clk with hold := false, idle := false, pt := if s.clk.idle then pt else s.clk.pt } } : State).settleAll.goOn

/-! ### Stopped clocks -/

/-- The clock that watches domain d: CCLK watches REFCLK, and REFCLK every other clock (R537). -/
def watcher (d : Nat) : Nat := if d = 4 then 2 else 4

/-- STOPPED bit d may rise: its watcher runs, ACLK is not idle under DVFS, and FCLK is not one that the checks so far found not to have
run (R89, R537; log 53). -/
def State.mayStop (s : State) (d : Nat) : Bool :=
  s.start.mode != .reset && s.runs d && s.runs (watcher d) && !(d == 0 && s.clk.idle) && !(d == 3 && s.clk.fclkRan == some false)

/-- No unit may run and the Plumb windows are partial while REFCLK is stopped (R557, R559). -/
def State.stopRef (s : State) : State :=
  let s := (s.chans.map (·.1)).foldl (fun s c => s.setChan c { s.chan c with allow := 0 }) s
  s.mapPlumb (fun p => { p with allow := 0, ksAllow := 0, tickFlags := p.tickFlags ||| 1 })

/-- STOPPED bit d rises (R537, R557). -/
def State.stopClock (s : State) (d : Nat) : State :=
  let b := BitVec.ofNat 5 (2 ^ d)
  let s := s.mapRegs (fun r => { r with stopped := r.stopped ||| b, stoppedSeen := r.stoppedSeen ||| b })
  (if d = 4 then s.stopRef else s).irq .clockStopped

/-- CLOCK_STOPPED.  Before the first check of FCLK, whether it has run for 1,024 cycles is free (R537; log 53). -/
def State.clockStopped (s : State) (d : Nat) : State :=
  if !s.mayStop d then s
  else if d = 3 ∧ s.clk.fclkRan = none then
    let t : State := { s with free := s.free + 1 }
    if Config.fclkRan s.free then ({ t with clk := { t.clk with fclkRan := some true } } : State).stopClock 3 else t
  else s.stopClock d

/-- A bank owes 8 REFpb, a FULL event where it owed fewer, and is refreshed (R212, R559). -/
def State.oweFull (s : State) (k : Nat) : State :=
  let b := s.bank k
  let s := s.setBank k { b with owed := 8 }
  (if b.owed < 8 then s.countFull k else s).afterAccrual k

/-- After a stop of SCLK every bank owes 8 REFpb (R559). -/
def State.oweAll (s : State) : State := (List.range 4096).foldl (fun s k => s.oweFull k) s

/-- A die that has tripped while SCLK stood still is found now (R107, R447). -/
def State.findTrips (s : State) : State :=
  if s.plumb.esr then s
  else ((List.range 16).filter (fun d => (s.die d).trip)).foldl (fun s d => s.thermTrip (16 * d)) s

/-- What has waited for CCLK arrives (R555; log 55). -/
def State.arrive (s : State) (w : CclkWait) : State :=
  match w with
  | .update ir v => s.tapUpdate ir.toNat v
  | .ring h => if s.serving then s.doorbell h else s

/-- All of it, in its order. -/
def State.arriveAll (s : State) : State := s.waits.foldl (fun s w => s.arrive w) { s with waits := [] }

/-- CLOCK_RESTART: the bit falls once the watching clock has run for 16 cycles, and the paused work resumes (R559).  With CCLK, the
events, accesses, debug updates and doorbells that wait in crossings arrive (R555), and its bit can be read in the 16 REFCLK cycles
before it falls (R537); with REFCLK, a level of PWR_CAP_LVL. -/
def State.clockRestart (s : State) (d : Nat) : State :=
  if s.runs d || !s.runs (watcher d) then s
  else
    let s := s.mapRegs (fun r => { r with stopped := r.stopped &&& ~~~ BitVec.ofNat 5 (2 ^ d) })
    if d = 1 then s.oweAll.serveAllIdle.goOn.findTrips
    else if d = 2 then
      (({ s with crossing := [], clk := { s.clk with stopShown := s.now + 16 } } : State).fabResume.drainPorts.arriveAll.goOn).sweepBad.pumpPulls pumpFuel
    else if d = 3 then s.foFlush.pumpPulls pumpFuel
    else if d = 4 then s.capArrives
    else s

/-! ### Commands -/

/-- ACLK_HOLD_RISE. -/
def execAclkHoldRise (s : State) : Host.Outcome State Fault Refusal := .next s.holdRise

/-- ACLK_IDLE. -/
def execAclkIdle (s : State) : Host.Outcome State Fault Refusal := .next s.aclkIdle

/-- ACLK_HOLD_FALL. -/
def execAclkHoldFall (pt : BitVec 2) (s : State) : Host.Outcome State Fault Refusal := .next (s.holdFall pt)

/-- CLOCK_STOPPED of a domain. -/
def execClockStopped (domain : Nat) (s : State) : Host.Outcome State Fault Refusal := guard (decide (domain < 5)) (s.clockStopped domain)

/-- CLOCK_RESTART of a domain. -/
def execClockRestart (domain : Nat) (s : State) : Host.Outcome State Fault Refusal := guard (decide (domain < 5)) (s.clockRestart domain)

end Sys2Proof.Machine
end

