-- ==== Sys2Proof/Machine/Firmware.lean ====
section
/-!
DEFINITION. Warden firmware images: their header, their authentication, staging and the anti-rollback fuses (R473 to R476,
R479, R510, R512).
-/

namespace Sys2Proof.Machine

/-! ### The header (R473) -/

/-- Bytes [lo, lo + n) of a slot as a number. -/
def FwSlot.num (f : FwSlot) (lo n : Nat) : Nat := leNat (bytesOf f.bytes lo n)

/-- Length of the body that the header declares. -/
def FwSlot.bodyLen (f : FwSlot) : Nat := f.num 16 4

/-- What an image is when it runs. -/
def FwSlot.run (f : FwSlot) : FwRun :=
  { major := BitVec.ofNat 8 (f.num 5 1), minor := BitVec.ofNat 8 (f.num 6 1), patch := BitVec.ofNat 16 (f.num 8 2),
    svn := BitVec.ofNat 8 (f.num 10 1), cmin := BitVec.ofNat 8 (f.num 12 1), cmax := BitVec.ofNat 8 (f.num 13 1) }

/-- Bit of IP_MASK for an IP revision. -/
def ipBit (ipRev : BitVec 8) : Nat := if ipRev = 0x20 then 0 else 1

/-- MAGIC, FORMAT, the reserved fields, LENGTH and IP_MASK (R473, R474). -/
def FwSlot.formOk (f : FwSlot) (ipRev : BitVec 8) : Bool :=
  f.num 0 4 == 0x44575257 && f.num 4 1 == 1 && f.num 7 1 == 0 && f.num 14 2 == 0 && f.num 20 12 == 0 && f.num 272 240 == 0 &&
  f.bodyLen % 128 == 0 && decide (f.bodyLen ≤ 2 ^ 20 - 512) && f.len == 512 + f.bodyLen && bit (f.num 11 1) (ipBit ipRev)

/-- The key hash, the body hash and the signature (R474). -/
def FwSlot.sealOk (f : FwSlot) : Bool :=
  sha384Word (bytesOf f.bytes 32 96) == Config.fwKeyHash &&
  sha384 (bytesOf f.bytes 512 f.bodyLen) == bytesOf f.bytes 128 48 &&
  ecdsaVerifyMsg (bytesOf f.bytes 32 96) (bytesOf f.bytes 176 96) (bytesOf f.bytes 0 176)

/-- What refuses an image, if anything (R474). -/
def State.imageBad (s : State) (f : FwSlot) : Option MStatus :=
  if !(f.formOk s.ipRev && f.sealOk) then some .fwAuth
  else if f.num 10 1 < s.start.fuseSvn.toNat then some .fwRollback
  else none

/-! ### Slots (R475, R476) -/

def State.slotOf (s : State) (b : Bool) : FwSlot := if b then s.start.slot1 else s.start.slot0
def State.setSlot (s : State) (b : Bool) (f : FwSlot) : State :=
  let s := s.wroteRecord
  if b then { s with start := { s.start with slot1 := f } } else { s with start := { s.start with slot0 := f } }

/-- The slot that is not active. -/
def State.otherSlot (s : State) : Bool := !s.start.calib.slot

/-- Adds bytes at the end of a slot. -/
def FwSlot.append (f : FwSlot) (bs : List Byte) : FwSlot :=
  { bytes := f.bytes ++ (toSparse bs).map (fun e => (f.len + e.1, e.2)), len := f.len + bs.length }

/-! ### FW_STAGE (R476, R512) -/

/-- The field that refuses a chunk (R510, R512), by its payload offset; `f` is what the slot holds before the chunk. -/
def FwSlot.chunkBad (f : FwSlot) (off len : Nat) (last : Bool) (bs : List Byte) : Option Nat :=
  let g := (if off = 0 then FwSlot.empty else f).append bs
  let whole := 512 + g.bodyLen
  if len % 128 ≠ 0 ∨ len = 0 ∨ 1920 < len then some 4
  else if off ≠ 0 ∧ off ≠ f.len then some 0
  else if off ≠ 0 ∧ whole < g.len then some 4
  else if last ∧ g.len ≠ whole then some 6
  else none

/-- FW_STAGE after the checks of R497: a refused chunk changes nothing, and a partial image is kept (R512). -/
def State.fwStage (s : State) (h : Nat) : State :=
  let x := s.hasp h
  let off := x.pay 0 4
  let len := x.pay 4 2
  let last := bit (x.pay 6 1) 0
  let bs := x.payload 64 len
  let b := s.otherSlot
  match (s.slotOf b).chunkBad off len last bs with
  | some o => s.finish h .badField (fieldAt o) []
  | none =>
    let f := (if off = 0 then FwSlot.empty else s.slotOf b).append bs
    let s := s.setSlot b f
    let s : State := if off = 0 then { s with start := { s.start with stagedOk := false } } else s
    if !last then s.finish h .okay 0 []
    else match s.imageBad f with
      | some st => s.finish h st 0 []
      | none => ({ s with start := { s.start with stagedOk := true } } : State).finish h .okay 0 []

/-! ### FW_ACTIVATE with LOCK (R479, R510) -/

/-- The response of FW_ACTIVATE (R510). -/
def State.activateBytes (s : State) : List Byte :=
  let r := s.start.run
  ([r.major, r.minor] : List Byte) ++ leBytes 2 r.patch.toNat ++ ([s.start.fuseSvn, 0, 0, 0] : List Byte)

/-- Blows anti-rollback fuses, one at a time, up to the SVN of the running image; `burnt` is how many were blown before VDD_C left its
range, and those stay blown (R479; log 42). -/
def State.fwLock (s : State) (h burnt : Nat) : State :=
  let need := s.start.run.svn.toNat - s.start.fuseSvn.toNat
  let s : State := { s with start := { s.start with fuseSvn := s.start.fuseSvn + BitVec.ofNat 8 (min burnt need) } }
  if need ≤ burnt then s.finish h .okay 0 s.activateBytes else s.finish h .repairCond 0 []

/-! ### Commands -/

/-- FW_STAGE (R476, R512). -/
def execFwStage (hasp : Nat) (s : State) : Host.Outcome State Fault Refusal :=
  guard (decide (hasp < 16)) (s.runCommand hasp 0x13 (fun s => s.fwStage hasp))

end Sys2Proof.Machine
end

