-- ==== Sys2Proof/Machine/Quiesce.lean ====
section
/-!
DEFINITION. Bringing Crety to rest: an accepted sag and its deadbolt sequence, SHUTDOWN, the assertion of CY_RST_N, and
the supply events (R82 to R87, R351, R398, R451 to R456, R466, R468, R501, R502, R518, R564, R571).
-/

namespace Sys2Proof.Machine

/-! ### Requests that wait (R83) -/

/-- Every debug access that has not ended ends NOT_READY, and its unit is added to OFFSET (R548, R549). -/
def Debug.refuse (d : Debug) (u : BitVec 152) : Debug :=
  d.accessNext.foldl (fun d v => ({ d with accessAddr := d.addr, result := dbWord 0 0 6 (bit v.toNat 147) } : Debug).endAccess)
    ({ d with result := dbWord 0 0 6 (bit u.toNat 147), accessNext := [] } : Debug).endAccess

/-- Answers NOT_READY an access that waits for its bank; a line of a PULL_REPLICA (R359) and an access of the Keystone engine or a
unit are dropped. -/
def State.refuseAccess (s : State) (a : BankAccess) : State :=
  match a with
  | .pintle r => s.refuse r ptNotReady
  | .fabricRead src tag _ _ => s.errResp src tag fbNotReady
  | .debug _ _ => match s.dbg.access with
    | some u => { s with dbg := s.dbg.refuse u }
    | none => s
  | .line _ _ _ _ => s
  | .keystone _ _ _ _ _ => s
  | .take _ _ _ => s

/-- Nothing waits for a bank any more. -/
def State.dropQueues (s : State) : State :=
  s.waitingBanks.foldl (fun s k => s.setBank k { s.bank k with queue := [], waited := [] }) s

/-- Answers NOT_READY every request that was accepted and has not started: those that wait for a bank, behind another
request, or as held releases. -/
def State.refuseWaiting (s : State) : State :=
  let queued := (s.banks.map (fun e => e.2.queue)).flatten
  let s := s.dropQueues
  let s := queued.foldl (fun s a => s.refuseAccess a) s
  let s := (List.range 32).foldl (fun s p =>
    let b := (s.port p).behind
    b.foldl (fun s r => s.refuse r ptNotReady) (s.setPort p { s.port p with behind := [] })) s
  let h := s.fab.held
  let w := s.fab.crossing
  let s := h.foldl (fun s a => s.errResp a.src a.tag fbNotReady) { s with fab := { s.fab with held := [], crossing := [] } }
  w.foldl (fun s a => s.errResp a.src a.tag fbNotReady) s

/-! ### Work in progress -/

/-- Ends every course, and the hold of a repair that is given up (R195, R359, R550). -/
def State.endBankWork (s : State) : State :=
  (s.banks.map (·.1)).foldl (fun s k => s.setBank k { s.bank k with hold := false }) s.endCourses

/-- An FPROG that has been issued runs to its end; FPROG_PENDING stays for the next start (R456, R472). -/
def State.endFprog (s : State) : State :=
  match s.repairing with
  | some (.repair _ true bank row sp _ true) =>
    if (s.chan (bank / 16)).fprogHold then
      (s.setBank bank ((s.bank bank).fuse row sp)).setChan (bank / 16) { s.chan (bank / 16) with fprogHold := false }
    else s
  | _ => s

/-- The hasp of a background command. -/
def Background.hasp : Background → Option Nat
  | .pull p => some p.hasp
  | .scrub h _ _ _ _ _ _ _ _ _ _ => some h
  | .export_ h _ _ _ _ _ => some h
  | .repair h _ _ _ _ _ _ => h

/-- A DRAW_SEED whose record still waits does not complete: the seed is the one held before it (R262).  DEDUCED (log 45): where copy 0
holds the new seed already, a further record with the old one follows in both copies (R351); else nothing of the command is written. -/
def State.undraw (s : State) : State :=
  match s.drawing, s.mbox.after, s.mbox.newSeed with
  | true, some _, some v =>
    let bs := ({ s with ctl := { s.ctl with seed := v.1, seedSrc := v.2 } } : State).lintelBytes s.ctl.epoch.toNat
    let mine := s.ctl.lintel.filter (fun l => l.bytes == bs)
    let t : State := { s with
      ctl := { s.ctl with lintel := s.ctl.lintel.filter (fun l => l.bytes != bs) },
      mbox := { s.mbox with after := none, newSeed := none } }
    if mine.length = 2 then { t with ctl := { t.ctl with seq := t.ctl.seq - 1 } } else t.lintelWrite
  | _, _, _ => s

/-- The lines of an export that have not gone out stay unwritten (R484). -/
def State.stopExport (s : State) : State :=
  if s.exporting then s.dropTasks (fun t => match t with
    | .zeroLine => true
    | .exportLines _ _ => true
    | .exportEnd => true
    | _ => false)
  else s

/-- Drops every background command without a response; a repair of the debug port ends too (R359, R550), and no DRAW_SEED
goes on (R262). -/
def State.dropBackground (s : State) : State :=
  let s := s.endFprog.undraw.stopExport
  let s : State := if s.repairing.isSome && s.dbg.repairRes == 1 then { s with dbg := { s.dbg with repairRes := 0 } } else s
  { s with mbox := { s.mbox with bg := [], active := if s.drawing then none else s.mbox.active,
                                 before := if s.drawing then none else s.mbox.before },
           fab := { s.fab with outbound := [] } }

/-- Ends every background command with ABORTED; requests that wait behind the command that ends them are not answered meanwhile
(R501). -/
def State.abortBackground (s : State) : State :=
  let hs := s.mbox.bg.filterMap Background.hasp
  hs.foldl (fun s h => s.answerHasp h MStatus.aborted.code 0 []) s.dropBackground

/-! ### Self-refresh and the spill -/

/-- Every channel that reached normal mode goes into self-refresh, its owed REFpb issued first, and its units are empty
(R117, R451, R468). -/
def State.srefTrained (s : State) : State :=
  ((List.range 256).filter (fun c => (s.chan c).trained && !(s.chan c).sref)).foldl (fun s c => s.srefChan c) s.emptyContexts

/-- Saves every ring's contexts; emergency self-refresh has saved them already, but for an ABORT written since (R369, R398, R456). -/
def State.saveRingsOnce (s : State) (esr : Bool) : State := if esr then s.saveAborted else s.saveRings

/-- The Mortar spill with the register image, and both copies of the spill record (R452, R502, R518). -/
def State.writeSpill (s : State) (cause : Nat) : State :=
  { s.wroteRecord with start := { s.start with spill :=
    { copy0 := true, copy1 := true, cause := cause, tick := s.clk.tick, scratch := s.mortar.window 0 0x1000000, latches := s.latches,
      image := some (s.regs, s.plumb), rings := s.rings } } }

/-- CY_UP falls and the block leaves its mode. -/
def State.leave (s : State) (m : Mode) : State :=
  { s with start := { s.start with mode := m }, clk := { s.clk with up := false } }

/-- Phases 2 to 5 of the deadbolt sequence: beds end, writes complete, steps stop, ring contexts and Mortar are saved
(R351, R451); in emergency self-refresh the stack is brought out of it first (R456). -/
def State.deadbolt (s : State) (cause : Nat) : State :=
  let t := if s.plumb.esr then s.endBankWork.leaveSref else s.endBankWork
  let t := (t.completeWrites.stopSteps).saveRingsOnce s.plumb.esr
  (t.writeSpill cause).emptyContexts.mapPlumb (fun p => { p with esr := false })

/-! ### An accepted sag (R82, R83, R456, R466, R468) -/

/-- What the ports do from the cycle of acceptance: nothing new starts, and what waits is answered NOT_READY, an acquire
before the requests that wait behind it (R49, R83, R412). -/
def State.sagPorts (s : State) : State := (s.dropAcquires.refuseWaiting).loseOutbound

/-- The lines that the sag has lost are delivered poisoned where their bank can be reached once its bed has ended (R72, R83). -/
def State.deliverLost (s : State) : State := (s.endBankWork.serveAllIdle).dropQueues

/-- VDD_S may leave the 3 % of R130 (R456). -/
def State.vddsFar (s : State) : State := { s with clk := { s.clk with vddsNear := false } }

/-- SAG_ACCEPT: a second sag, and one after SHUTDOWN, has no effect (R84, R456, R502). -/
def State.sagAccept (s : State) : State :=
  match s.start.mode with
  | .serving =>
    let s := s.vddsFar.sagPorts
    let s := ((s.dropBackground.deliverLost).deadbolt 1).leave .deadbolt
    ({ s with start := { s.start with sagInStart := false } } : State).closeSession
  | .starting =>
    ({ s.vddsFar with start := { s.start with sagInStart := true, phase := 0, activate := none } } : State).leave .deadbolt |>.closeSession
  | .failed => ({ s.vddsFar with start := { s.start with sagInFail := true } } : State).closeSession
  | _ => s

/-- DBOLT_DONE: the stack is in self-refresh (R84, R451, R468, R502, R571). -/
def State.dboltDone (s : State) : State :=
  let up (s : State) : State := { s with clk := { s.clk with dbolt := true } }
  match s.start.mode with
  | .deadbolt => up (s.srefTrained.leave .dark)
  | .shut => if s.clk.dbolt then s else up s.srefTrained
  | .failed => if s.start.sagInFail then up s else s
  | _ => s

/-! ### SHUTDOWN (R502) -/

/-- SHUTDOWN after the checks of R497, up to its step 4; DBOLT_DONE is its step 5. -/
def State.shutdown (s : State) (h : Nat) : State :=
  let s := (s.abortBackground.endBankWork.lintelForce).endWrites writeFuel
  let s := (s.serveAllIdle.dropAcquires).refuseWaiting
  let s := s.deadbolt 2
  (s.finish h .okay 0 []).leave .shut

/-! ### CY_RST_N low (R87, R127, R468, R527, R563) -/

/-- Channel controllers, units and dies as STK_RST_N leaves them: self-refresh, fuses and internal lane spares stay (R127,
R129, R460). -/
def State.resetStack (s : State) : State :=
  { s with
    banks := s.banks.filterMap (fun e =>
      let b : Bank := { Bank.init with fused := e.2.fused, bad := e.2.bad, rowCtr := e.2.rowCtr }
      if b = Bank.init then none else some (e.1, b)),
    chans := s.chans.filterMap (fun e =>
      let c : Channel := { Channel.init with sref := e.2.sref, tsvUsed := e.2.tsvUsed }
      if c = Channel.init then none else some (e.1, c)),
    dies := [] }

/-- CY_RST_N is asserted: every outstanding request is abandoned, nothing is answered, and the ports are reset. -/
def State.assertReset (s : State) : State :=
  if s.start.mode = .reset then s
  else
    let s := (s.endFprog).closeSession
    let quiet (x : StepSet) : StepSet := { x with seals := [] }
    let s : State := { s with
      ports := [], ct := { capture := none, last := none }, acq := [],
      fab := { s.fab with up := false, ready := [], held := [], outbound := [], crossing := [] },
      ctl := { s.ctl with writing := none, lintel := [], items := [], debt := 0, debtAll := 0, staged := [], setA := quiet s.ctl.setA,
                          setB := quiet s.ctl.setB },
      mbox := { s.mbox with queue := [], active := none, bg := [], after := none, before := none, sets := [], newSeed := none },
      dbg := { s.dbg with access := none, accessNext := [], busy := .idle, haltReq := none },
      plumb := { s.plumb with capPin := none },
      regs := { s.regs with irqStatus := 0, irqEnable := 0 }, crossing := [], waits := [],
      clk := Clock.init }
    s.resetStack.leave .reset

/-! ### Supply (R455, R564) -/

/-- VDD_S falls below 1.00 V: the stack's contents are undefined, the system area's records among them, its soft entries are lost
(R127), and the loss flag is set while VDD_C holds. -/
def State.vddSLoss (s : State) : State :=
  let s := s.vddsFar.loseRecords.forgetDb
  let s := (s.banks.map (·.1)).foldl (fun s k => s.setBank k { s.bank k with soft := [] }) s
  { s with stack := .empty, bg := s.free + 1, free := s.free + 1,
           start := { s.start with vddsFlag := s.start.vddsFlag || !s.start.vddcOff } }

/-- VDD_C falls below 0.45 V: RWS fields, retained calibration and the loss flag are lost, and nothing watches VDD_S until the next
start (R455, R564). -/
def State.vddCRemoval (s : State) : State :=
  { s with start := { s.start with vddsFlag := false, vddcOff := true, retained := none, forceCold := false, forceTrain := false, fwWait := 0x1388 } }

/-! ### Commands -/

/-- SAG_ACCEPT, in REFCLK or, while REFCLK is stopped, in CCLK (R82, R558). -/
def execSagAccept (at_ : Nat) (s : State) : Host.Outcome State Fault Refusal :=
  .next (if s.runs 4 || s.runs 2 then (s.touch at_).sagAccept else s)

/-- DBOLT_DONE. -/
def execDboltDone (s : State) : Host.Outcome State Fault Refusal := .next s.dboltDone

/-- SHUTDOWN (R502, R510). -/
def execShutdown (hasp : Nat) (s : State) : Host.Outcome State Fault Refusal :=
  guard (decide (hasp < 16)) (s.runCommand hasp 0x15 (fun s => s.shutdown hasp))

/-- CY_RST_N_ASSERT. -/
def execCyRstNAssert (s : State) : Host.Outcome State Fault Refusal := .next s.assertReset

/-- VDD_S_LOSS. -/
def execVddSLoss (s : State) : Host.Outcome State Fault Refusal := .next s.vddSLoss

/-- VDD_C_REMOVAL. -/
def execVddCRemoval (s : State) : Host.Outcome State Fault Refusal := .next s.vddCRemoval

end Sys2Proof.Machine
end

