-- ==== Sys2Proof/Machine/Start.lean ====
section
/-!
DEFINITION. Start sequences: their phases, attempts and causes, the restart after FW_ACTIVATE, and the coming up of the
ports (R56, R88, R122 to R130, R263, R386, R399, R444, R459 to R481, R489, R501, R517, R518, R527, R571).
-/

namespace Sys2Proof.Machine

/-! ### Identity page 0 (R123, R124) -/

/-- Fields of page 0 with the least and the greatest value allowed. -/
def idFields : List (Nat × Nat × Nat × Nat) :=
  [(0x000, 4, 0x324C4243, 0x324C4243), (0x004, 2, 2, 2), (0x006, 1, 2, 2), (0x007, 1, 0, 1), (0x008, 1, 16, 16),
   (0x009, 1, 16, 16), (0x00A, 1, 16, 16), (0x00C, 2, 9216, 9216), (0x00E, 2, 32, 32), (0x010, 2, 2048, 2048),
   (0x012, 2, 256, 256), (0x014, 2, 1, 65535), (0x018, 8, 1, 2 ^ 64 - 1), (0x020, 2, 0, 1600), (0x022, 2, 0, 1600),
   (0x024, 2, 0, 3200), (0x026, 2, 0, 4800), (0x028, 2, 0, 12000), (0x02A, 2, 0, 267), (0x02C, 2, 0, 1600)] ++
  [(0x02E, 2, 0, 800), (0x030, 2, 0, 20000), (0x032, 1, 16, 16), (0x033, 1, 12, 12), (0x034, 4, 0, 0),
   (0x038, 4, 32064, 2 ^ 32 - 1), (0x03C, 4, 16064, 2 ^ 32 - 1), (0x040, 4, 8064, 2 ^ 32 - 1), (0x044, 1, 4, 4),
   (0x045, 1, 115, 115), (0x046, 2, 0, 0), (0x048, 2, 128, 65535), (0x04A, 2, 64, 65535), (0x04C, 2, 4, 4), (0x04E, 1, 4, 4),
   (0x04F, 1, 0, 0)]

/-- Page 0 meets every required value and its CRC. -/
def idPageOk (p : List Byte) : Bool :=
  idFields.all (fun f => decide (f.2.2.1 ≤ field p f.1 f.2.1) && decide (field p f.1 f.2.1 ≤ f.2.2.2)) &&
  field p 0x00B 1 == (if field p 0x007 1 = 0 then 16 else 8) && (firstNonzero p 0x060 412).isNone &&
  crc32 (p.take 0x1FC) == BitVec.ofNat 32 (field p 0x1FC 4)

/-- IDR of the four lines of a page: row repair pages 1 to 32 cover 8 channels each, the others are read through channel 0
(R102, R122, R126; log 51). -/
def State.idrPage (s : State) (p : Nat) : State :=
  (List.range 4).foldl (fun s l => s.idrLine p l) s

/-- Phase 3: every page is read; the outcomes of words that do not check are counted (R122, R124, R126, R129). -/
def State.readPages (s : State) : State :=
  let s := (List.range 34).foldl (fun s p => s.idrPage p) s
  if s.idSyn.isEmpty then s else (s.readPlaces { src := 0, agent := agentWarden } ((List.range (34 * 32)).map pagePlace)).2

/-- Page 0 is accepted: no word is UNCORRECTABLE, and its fields are as required (R124). -/
def State.idOk (s : State) : Bool :=
  (s.idSyn.isEmpty || (List.range 32).all (fun w => s.placeCheck (pagePlace w) != .uncorrectable)) && idPageOk s.idBytes

/-! ### Attempts (R467) -/

/-- How a stretch of an attempt ends: it goes on, it fails with a cause, or it waits for an event. -/
inductive Attempt where
  | go (s : State)
  | fail (s : State) (cause : Nat)
  | hold (s : State)
  deriving DecidableEq, Repr

/-- What an attempt measures where the command gives nothing (log 37). -/
def noEnv : StartEnv :=
  { clocksOk := false, aclkPt := 0, railsOk := false, temps := [], loopbackOk := false, trainOk := false, margins := [],
    ifSpares := [], bistFails := [], fprogCond := false, laneTestOk := false, tumblerOk := false }

/-- The attempt is cold: so counted, and so run (R467). -/
def State.isCold (s : State) : Bool := s.start.kind == .cold

/-- The attempt begins at phase 1: every one but a first warm start without reset, for an attempt that follows a failed restart does so
too (R463, R467, R478). -/
def State.wholeStart (s : State) : Bool := s.start.kind != .warmNoReset

def State.inPhase (s : State) (p : Nat) : State := { s with start := { s.start with phase := p } }

/-- The kind that an attempt from phase 1 begins as: cold where FORCE_COLD is 1 (R467). -/
def State.beginKind (s : State) : StartKind := if s.start.forceCold then .cold else .undecided

/-- STK_RST_N for 1 µs: soft entries and lane assignments are lost; self-refresh stays (R127, R460, R467). -/
def State.stkRst (s : State) : State :=
  let s := (s.banks.map (·.1)).foldl (fun s k => s.setBank k { s.bank k with soft := [] }) s
  (s.chans.map (·.1)).foldl (fun s c => s.setChan c { s.chan c with trained := false, ifSpares := [] }) s

/-- FAILED has been entered: with NO_UNLOCK 1, debug access is refused from then on (R539). -/
def State.shutDebug (s : State) : State :=
  if s.regs.noUnlock then let s := s.closeSession; { s with dbg := { s.dbg with refused := true } } else s

/-- An attempt is cold: it clears the mark of the spill record, before anything can interrupt it (R459, R466).  DESIGN CHOICE (log 38):
the mark is clear from this decision on, and the record itself is written in phase 5, once the stack has left self-refresh. -/
def State.clearMark (s : State) : State :=
  { s with start := { s.start with heldSpill := s.start.heldSpill || s.start.spill.valid,
                                   spill := { s.start.spill with copy0 := false, copy1 := false } } }

/-- An attempt begins as the kind given. -/
def State.asKind (s : State) (k : StartKind) : State :=
  if k = .cold then ({ s with start := { s.start with kind := .cold } } : State).clearMark
  else { s with start := { s.start with kind := k } }

/-- A failed attempt: its cause and count, and the next attempt or FAILED (R467, R468).  A restart's next attempt keeps the kind, and is
cold where FORCE_COLD is 1. -/
def State.failAttempt (s : State) (cause : Nat) : State :=
  let t := s.start
  let cold := s.isCold
  let t := { t with cause := BitVec.ofNat 4 cause, warmFails := min 3 (t.warmFails + b2n !cold), coldFails := min 3 (t.coldFails + b2n cold),
                    seqWarm := t.seqWarm + b2n !cold, seqCold := t.seqCold + b2n cold }
  let s : State := { s with start := t }
  if 3 ≤ t.seqCold then ((s.srefTrained.inPhase 0).leave .failed).shutDebug
  else if cold || decide (2 ≤ t.seqWarm) || (t.kind == .restart && t.forceCold) then
    (((({ s with start := { t with activate := none } } : State).asKind .cold).stkRst).clearMailbox)
  else if t.kind = .restart then s
  else s.asKind s.beginKind

/-! ### Phases 1 to 5 -/

/-- Every sensor at 105 °C or below (R465). -/
def State.coolEnough (s : State) : Bool :=
  (List.range 16).all (fun d => (s.die d).sensors.all (fun t => decide (t.toInt ≤ 105 * 16)))

/-- The highest sensor of a die. -/
def Die.hottest (d : Die) : BitVec 16 := d.sensors.foldl (fun a t => if a.toInt < t.toInt then t else a) (BitVec.ofInt 16 (-32768))

/-- The calibration record is valid and of this stack (R459). -/
def State.calibOk (s : State) : Bool := s.start.calib.valid && s.start.calib.serial.toNat == s.serial

/-- Stored calibration may be used (R459, R463). -/
def State.storedOk (s : State) (e : StartEnv) : Bool :=
  !s.start.forceTrain && !s.isCold && !(s.wholeStart && s.start.forceCold) && e.loopbackOk &&
  (match s.start.retained with
   | none => false
   | some r => r.serial.toNat == s.serial && (List.range 16).all (fun d =>
      let now := (s.die d).hottest.toInt
      let was := (r.temps.getD d 0).toInt
      decide (was - 160 ≤ now) && decide (now ≤ was + 160)))

/-- Every lane's eye is at least 0.30 UI: 77 in the unit of EYE, on the narrowest of each channel (R465, R534). -/
def eyesOk (e : StartEnv) : Bool := (List.range 256).all (fun c => decide (77 ≤ (Sparse.get 0 e.margins c).toNat % 256))

/-- Interface spares of a channel in a list of assignments (R129). -/
def sparesOf (l : List (Nat × Nat × Nat)) (c : Nat) : List (Nat × Nat) := (l.filter (fun x => x.1 == c)).map (·.2)

/-- CH_LANE_MARGIN: EYE and EYE_LANE as measured, IF_SPARES and INT_SPARES in use (R534). -/
def Channel.marginWord (ifs tsv eye : Nat) : BitVec 32 :=
  BitVec.ofNat 32 (eye % 65536 + ifs % 16 * 2 ^ 16 + ((List.range 4).filter (bit tsv)).length * 2 ^ 20)

/-- TRN of a mode on a channel (R102). -/
def State.trn (s : State) (c arg : Nat) : State := s.sent c 0x0A 0 arg

/-- CH_LANE_MARGIN of a channel after a training or a loopback, whether it passed or not (R465, R534). -/
def State.noteMargin (s : State) (e : StartEnv) (c : Nat) (ifs : List (Nat × Nat)) : State :=
  let ch := s.chan c
  s.setChan c { ch with margin := Channel.marginWord ifs.length ch.tsvUsed.toNat (Sparse.get 0 e.margins c).toNat }

/-- TRN mode 4 with a set of assignments, both loopbacks, then TRN mode 0: the channels are in normal mode (R102, R129,
R463). -/
def State.applyLanes (s : State) (e : StartEnv) (l : List (Nat × Nat × Nat)) : State :=
  (List.range 256).foldl (fun s c =>
    let sp := sparesOf l c
    let s := ((sp.foldl (fun s x => s.trn c (4 + x.1 * 2 ^ 4 + x.2 * 2 ^ 6)) s).trn c 1).trn c 2
    let s := s.trn c 0
    (s.setChan c { s.chan c with trained := true, ifSpares := sp }).noteMargin e c sp) s

/-- Pending TSV lane fuses are issued before a training: each takes the lowest internal spare (R129, R471). -/
def State.issueTsv (s : State) (e : StartEnv) : State :=
  if !e.fprogCond then s
  else
    let s := s.start.calib.tsv.foldl (fun s x =>
      let u := (s.chan x.1).tsvUsed
      match (List.range 4).find? (fun i => !u.getLsbD i) with
      | some i => (s.setChan x.1 { s.chan x.1 with tsvUsed := u ||| BitVec.ofNat 4 (2 ^ i) }).sent x.1 0x0D 0 (1 + x.2 * 2 ^ 2 + i * 2 ^ 10)
      | none => s) s
    { s with start := { s.start with calib := { s.start.calib with tsv := [] } } }

/-- Both copies of the calibration record are written (R462). -/
def State.putCalib (s : State) (f : Calib → Calib) : State :=
  { s.wroteRecord with start := { s.start with calib := { f s.start.calib with copy0 := true, copy1 := true } } }

/-- Full training (R463, R465): the state, and whether every lane passed.  Fuses that it issued stay blown.  A training that passes
writes the calibration record and the retained registers, with delays that the manual does not give (R462; log 70). -/
def State.train (s : State) (e : StartEnv) : State × Bool :=
  let s := s.issueTsv e
  if !e.trainOk || !eyesOk e || (List.range 256).any (fun c => decide (4 < (sparesOf e.ifSpares c).length)) then
    ((List.range 256).foldl (fun s c => s.noteMargin e c (sparesOf e.ifSpares c)) s, false)
  else
    let s := s.applyLanes e e.ifSpares
    let serial := BitVec.ofNat 64 s.serial
    let temps := (List.range 16).map (fun d => (s.die d).hottest)
    let n := s.free
    let s := s.putCalib (fun c => { c with serial := serial, ifs := e.ifSpares, temps := temps, delays := n })
    ({ s with free := n + 1,
              start := { s.start with trained := true,
                                      retained := some { serial := serial, temps := temps, ifs := e.ifSpares, delays := n } } }, true)

/-- Phase 4: the state, whether stored calibration was used, and whether every lane passed. -/
def State.lanes (s : State) (e : StartEnv) : State × Bool × Bool :=
  if s.storedOk e then (s.applyLanes e ((s.start.retained.map (·.ifs)).getD []), true, eyesOk e)
  else
    let r := s.train e
    (r.1, false, r.2)

/-- The conditions of R459 for a warm start; `calOk` tells of the calibration record as it stood before this start's training. -/
def State.warmOk (s : State) (calOk : Bool) : Bool :=
  !s.start.forceCold && s.start.found.isSome && calOk && !s.start.cfgBad && s.start.spill.valid && !s.start.vddsFlag

/-- Rewrites a spare whose soft entry was lost: every word poisoned, counted and logged (R461). -/
def State.lostRow (s : State) (bank row spare : Nat) : State :=
  let w : Who := { src := 0, agent := agentWarden }
  let inState := s.inState row
  let s := s.softMap bank row spare
  let s := (List.range 128).foldl (fun s wi =>
    let p := s.rowPlace bank row wi false
    let (d, s) := s.freshWord
    let s := s.placeWrite p d true
    if inState then s.statePoison p.site w p.where_ else s.pushLog 0 2 poisonMask agentWarden p.where_) s
  { s with start := { s.start with softRows := satAdd s.start.softRows 1, softLost := true } }

/-- Applies again the soft entries of the calibration record that the stack has lost; one whose spare an FPROG has fused is not lost
(R128, R461). -/
def State.reapplySoft (s : State) : State :=
  (s.start.calib.soft.filter (fun x =>
    (s.bank x.1).softSpare x.2.1 != some x.2.2 && !(s.bank x.1).fused.contains (x.2.1, x.2.2))).foldl (fun s x => s.lostRow x.1 x.2.1 x.2.2) s

/-- FPROG_PENDING as phase 5 finds it (R472). -/
def State.checkPending (s : State) : State :=
  match s.start.calib.pending with
  | none => s
  | some (bank, row, spare) =>
    let clear (s : State) : State := s.putCalib (fun c => { c with pending := none })
    if (s.bank bank).fused.contains (row, spare) then
      let good := (List.range 128).all (fun wi => match s.placeCheck (s.rowPlace bank row wi false) with
        | .clean => true
        | .corrected _ => true
        | _ => false)
      let s := (clear (s.readRow bank row false)).putCalib (fun c => { c with soft := c.soft.filter (fun x => (x.1, x.2.1) != (bank, row)) })
      if good then s else { s with start := { s.start with fuseSuspect := true } }
    else clear { s with start := { s.start with repairIncomplete := true } }

/-- The records are read: both Lintel copies, and the calibration record, of which nothing is known where no copy was valid (R463,
R464). -/
def State.readRecords (s : State) (calOk : Bool) : State :=
  let s := s.freeFrames.lintelAccount
  let c := s.start.calib
  { s with start := { s.start with
      found := s.lintelSelect.map (·.1), calibRead := true,
      calib := if calOk then c else { c with soft := [], bad := [], pending := none, tsv := [], slot := false } } }

/-- Phase 5, and the choice of R459: SRX, the records are read, and a start after a reset becomes warm or cold.  A cold
start writes the spill record's cleared mark here, and trains after stored calibration (R459, R466).  `calOk`: a copy of the calibration record was valid and of this stack. -/
def State.phase5 (s : State) (e : StartEnv) (stored calOk : Bool) : Attempt :=
  let s := (s.inPhase 5).leaveSref
  let s := if s.wholeStart then s.readRecords calOk else s
  let undecided := s.start.kind == .undecided
  let warm := undecided && s.warmOk calOk
  let s := (if warm then s.reapplySoft else s).checkPending
  let s : State := { s with start := { s.start with
    kind := if undecided then (if warm then .warmReset else .cold) else s.start.kind,
    vddsLost := s.start.vddsFlag && (undecided || s.isCold) && !warm } }
  let s : State := if s.isCold then
      let s := s.wroteRecord.clearMark
      { s with start := { s.start with heldSpill := false } }
    else s
  if undecided && !warm && stored then
    let r := (s.inPhase 4).train e
    if r.2 then .go r.1 else .fail r.1 5
  else .go s

/-! ### Phases 6 to 11 -/

/-- Warden runs an image (R473, R489). -/
def State.runImage (s : State) (f : FwSlot) : State := { s.freeFrames with start := { s.start with run := f.run } }

/-- A cold start finds the stack's contents as the last deadbolt sequence or SHUTDOWN left them, so that its firmware slots can be read
in phase 6 (R475; log 38). -/
def State.contentsKept (s : State) (calOk : Bool) : Bool := (s.start.spill.valid || s.start.heldSpill) && !s.start.vddsFlag && calOk

/-- Soft maps the failing rows of one bank, and fuses those of the system area (R469): the bank, and whether every row was repaired;
else cause REPAIR, with what was done before standing. -/
def bistRows (cond : Bool) (b : Bank) : List Nat → Bank × Bool
  | [] => (b, true)
  | r :: rest =>
    match b.freeSpare with
    | none => (b, false)
    | some sp =>
      if r < 9208 then if 4 ≤ b.soft.length then (b, false) else bistRows cond (b.mapSoft r sp) rest
      else if cond then bistRows cond (b.fuse r sp) rest else (b, false)

/-- The SRMAP and FPROG frames of phase 7 in a bank that held `was` (R102, R469). -/
def State.bistFrames (s : State) (k : Nat) (was : Bank) : State :=
  let b := s.bank k
  let s := b.soft.foldl (fun s e => s.sent (k / 16) 0x0C k (e.2.1 + e.2.2 * 2 ^ 14 + e.1 * 2 ^ 19 + 2 ^ 21)) s
  (b.fused.drop was.fused.length).foldl (fun s e => s.sent (k / 16) 0x0D k (e.1 * 2 ^ 2 + e.2 * 2 ^ 16)) s

/-- The march patterns leave nothing that stood in the stack: its words are undefined, and so are its records (R464, R469). -/
def State.marchStack (s : State) : State :=
  { s.forgetDb with
    stack := .empty, bg := s.free + 1, free := s.free + 1,
    start := { s.start with
      spill := { s.start.spill with copy0 := false, copy1 := false }, slot0 := .empty, slot1 := .empty, stagedOk := false, cfgLost0 := true,
      cfgLost1 := true, calib := { s.start.calib with copy0 := false, copy1 := false } } }

/-- Phase 7 in the banks listed, up to a failure (R469; log 66). -/
def State.bist (s : State) (e : StartEnv) : List Nat → State × Bool
  | [] => (s, true)
  | k :: ks =>
    let fails := (e.bistFails.filter (fun x => x.1 == k)).map (·.2)
    let b := { s.bank k with soft := [], bad := (fails.filter (fun r => decide (9216 ≤ r))).map (· - 9216) }
    let r := bistRows e.fprogCond b (fails.filter (fun r => decide (r < 9216)))
    let s := (s.setBank k r.1).bistFrames k b
    if r.2 then State.bist s e ks else (s, false)

/-- Phase 8 and the end state of a cold start (R163, R464): the record that was found keeps SEED, SEED_SRC, COMPAT_LVL and
NUM_REV; the image becomes the active slot (R475).  The new records are written as the start ends (R346). -/
def State.coldState (s : State) (img : FwSlot) : State :=
  let r := s.start.found
  let c := match r with
    | some r => { StepCtl.init with seed := r.seed, seedSrc := r.seedSrc, compat := r.compat, numRev := r.numRev,
                                    seq := BitVec.ofNat 64 r.seq, cfgSeq := r.cfgSeq }
    | none => StepCtl.init
  let s : State := { s with
    stack := .empty, bg := 0, mortar := .empty, latches := [], rings := [], slates := [], regions := [], groups := [], ctl := c,
    regs := { s.regs with ward := [], trngFails := 0 },
    dbWords := [],
    start := { s.start with noLintel := r.isNone, softRows := 0, cfgLost0 := false, cfgLost1 := false,
                            calib := { s.start.calib with pending := none } } }
  ((s.setSlot s.start.calib.slot img).noteCalib).freeFrames

/-- A field of the register image, unless the host wrote its register during the start (R518). -/
def keep {α : Type} (written : List Nat) (off : Nat) (now image : α) : α := if written.contains off then now else image

/-- Restores the register image (R518). -/
def State.restoreImage (s : State) : State :=
  match s.start.spill.image with
  | none => s
  | some (r, p) =>
    let k {α : Type} (off : Nat) (now image : α) : α := keep s.start.written off now image
    let r0 := s.regs
    let p0 := s.plumb
    let each (n off : Nat) (now image : Nat → BitVec 16) : List (BitVec 16) := (List.range n).map (fun i => k (off + 4 * i) (now i) (image i))
    { s with
      regs := { r0 with
        irqEnable := k 0x002C r0.irqEnable r.irqEnable, rmtTmo := k 0x0030 r0.rmtTmo r.rmtTmo,
        scrubInt := k 0x0034 r0.scrubInt r.scrubInt, ceThresh := k 0x0038 r0.ceThresh r.ceThresh,
        thermGain := k 0x003C r0.thermGain r.thermGain, tmoTicks := k 0x1000 r0.tmoTicks r.tmoTicks,
        logCe := k 0x3000 r0.logCe r.logCe,
        grpMask := (List.range 128).foldl (fun m j => Sparse.set 0 m j (k (0x0100 + 4 * j) (Sparse.get 0 r0.grpMask j) (Sparse.get 0 r.grpMask j)))
          r0.grpMask },
      plumb := { p0 with
        watts := k 0x2000 p0.watts p.watts,
        caps := (List.range 15).map (fun i => k (0x2004 + 4 * ((i + 1) / 4)) (p0.caps.getD i 0) (p.caps.getD i 0)),
        ramp := k 0x2014 p0.ramp p.ramp, ksShare := k 0x2014 p0.ksShare p.ksShare, senseEn := k 0x2014 p0.senseEn p.senseEn,
        throttleT := k 0x2020 p0.throttleT p.throttleT, coolTicks := k 0x2020 p0.coolTicks p.coolTicks,
        senseLsb := each 4 0x2024 (p0.senseLsb.getD · 0) (p.senseLsb.getD · 0),
        railMv := [k 0x2034 (p0.railMv.getD 0 0) (p.railMv.getD 0 0), k 0x2034 (p0.railMv.getD 1 0) (p.railMv.getD 1 0),
                   k 0x2038 (p0.railMv.getD 2 0) (p.railMv.getD 2 0)],
        vddcMv := [k 0x203C (p0.vddcMv.getD 0 0) (p.vddcMv.getD 0 0), k 0x203C (p0.vddcMv.getD 1 0) (p.vddcMv.getD 1 0),
                   k 0x2040 (p0.vddcMv.getD 2 0) (p.vddcMv.getD 2 0), k 0x2040 (p0.vddcMv.getD 3 0) (p.vddcMv.getD 3 0)] } }

/-- A ring as a start finds it: its contexts stand in its images alone (R399); Crety keeps what it knows of the descriptors in flight
(R366, R370).  DESIGN CHOICE (log 47): R399 restores the control registers and leaves the ring STOPPED, and does not say what
RG_CTRL.ENABLE then reads; it reads 0, so that host software starts the ring by writing 1. -/
def Ring.atStart (r : Ring) : Ring :=
  { r with enable := false, state := .stopped, live := false, saving := false, loading := false, aborting := false, failed := none,
           fetched := none }

/-- Every ring is STOPPED with its contexts restored (R399). -/
def State.stopRings (s : State) : State :=
  (s.ringBanks.foldl (fun s k => s.setRing k (s.ring k).atStart) s).loadRings

/-- Phase 9 (R137, R399, R405, R463, R518). -/
def State.phase9 (s : State) : State :=
  let sp := s.start.spill
  let s : State := if s.start.kind = .restart then s
    else { s.freeFrames with mortar := s.mortar.restore 0 0x1000000 sp.scratch, latches := sp.latches, rings := sp.rings }
  let s := if s.start.afterReset then s.restoreImage else s
  let bad := (s.start.calib.bad).foldl (fun s x => s.setBank x.1 { s.bank x.1 with bad := ((s.bank x.1).bad.filter (· != x.2)) ++ [x.2] }) s
  bad.stopRings

/-- The cause of the interruption that a recovery follows (R353). -/
def State.lostCause (s : State) : Nat := if s.start.kind = .restart then 3 else s.start.spill.cause

/-- Phases 7 to 11 with the image that phase 6 accepted. -/
def State.phases7 (s : State) (e : StartEnv) (img : FwSlot) : Attempt :=
  let s := s.runImage img
  let test (s : State) : Attempt :=
    let s := s.inPhase 11
    if !e.tumblerOk then .fail { s with regs := { s.regs with katFail := true } } 10
    else if s.isCold && !e.laneTestOk then .fail s 9
    else .go s
  if s.isCold then
    let r := (s.inPhase 7).marchStack.bist e (List.range 4096)
    if r.2 then test ((r.1.inPhase 8).coldState img) else .fail r.1.freeFrames 8
  else if s.start.cfgBad then .fail (s.inPhase 9) 11
  else
    let s := (s.inPhase 9).phase9
    let r := (s.inPhase 10).recover s.lostCause
    if r.ok then test r.state else .fail r.state 12

/-- Phase 6: the active slot where the contents were kept and it authenticates, else a wait for the host, whose time runs from now
(R475). -/
def State.phase6 (s : State) (e : StartEnv) (kept : Bool) : Attempt :=
  let s := s.inPhase 6
  let f := s.slotOf s.start.calib.slot
  if (!s.isCold || kept) && (s.imageBad f).isNone then s.phases7 e f
  else .hold { s with start := { s.start with wait := .image, waitFrom := s.now, loadState := 0, load := .empty } }

/-- Phases 3 to 6; STK_RST_N is high from the start of phase 3 on (R563). -/
def State.phases3 (s : State) (e : StartEnv) : Attempt :=
  let s : State := if s.wholeStart then
      let s := ({ s.inPhase 3 with clk := { s.clk with stkRstN := true } } : State).readPages
      { s with start := { s.start with readSerial := BitVec.ofNat 64 s.serial } }
    else s
  if s.wholeStart && !s.idOk then .fail s 4
  else
    let calOk := s.calibOk
    let kept := s.contentsKept calOk
    let l := (s.inPhase 4).lanes e
    if !l.2.2 then .fail l.1 5
    else match l.1.phase5 e l.2.1 calOk with
      | .go s => s.phase6 e kept
      | .fail s c => .fail s c
      | .hold s => .hold s

/-- Phases 1 and 2 (R465), and on. -/
def State.phases1 (s : State) (e : StartEnv) : Attempt :=
  let s := if s.wholeStart then s.inPhase 1 else s
  if s.wholeStart && !e.clocksOk then .fail s 1
  else
    let s : State := if s.wholeStart then { s with clk := { s.clk with pt := e.aclkPt } } else s
    let s := s.inPhase 2
    let s : State := { s with clk := { s.clk with vddsNear := e.railsOk } }
    if !e.railsOk then .fail s 2
    else
      let s := s.readSensors e.temps
      if s.coolEnough then s.phases3 e else .hold { s with start := { s.start with wait := .thermal, waitFrom := s.now } }

/-! ### Sequences -/

/-- An attempt that reached phase 12 waits for the ports; one that waits, waits; one that failed is followed by attempts
with the measurements given, at most `fuel` of them (R467). -/
def State.attempts (r : Attempt) (envs : List StartEnv) : Nat → State
  | 0 => match r with
    | .go s => { s with start := { s.start with wait := .ports, phase := 12 } }
    | .hold s => s
    | .fail s c => s.failAttempt c
  | n + 1 => match r with
    | .go s => { s with start := { s.start with wait := .ports, phase := 12 } }
    | .hold s => s
    | .fail s c =>
      let s := s.failAttempt c
      if s.start.mode = .failed then s
      else State.attempts (s.phases1 (envs.headD noEnv)) envs.tail n

/-- A start sequence has at most two warm and three cold attempts (R467). -/
def maxAttempts : Nat := 5

/-- Offset of the slates in Mortar, and their bytes (R386, R567). -/
def slateBase : Nat := 0x1700000
def slateBytes : Nat := 0x1000000

/-- The slates are cleared, and the context save buffer no longer holds an image (R386, R450). -/
def State.dropScratch (s : State) : State :=
  let s := (s.banks.map (·.1)).foldl (fun s k => s.setBank k { s.bank k with saved := (false, false) }) s
  { s with slates := [], mortar := s.mortar.zero slateBase slateBytes }

/-- What every start does as it begins (R84, R386, R412, R489, R501, R543). -/
def State.beginStart (s : State) (kind : StartKind) : State :=
  let s := ((s.dropAcquires).closeSession).dropScratch
  let s : State := { s with
    clk := { s.clk with dbolt := false, up := false },
    dbg := { s.dbg with chalReady := false },
    start := { s.start with mode := .starting, wait := .ports, phase := 0, trained := false, vddsLost := false,
                            seqWarm := 0, seqCold := 0, waitFrom := 0, repairIncomplete := false, activate := none, vddcOff := false } }
  ((if kind = .restart then s else s.clearMailbox).asKind kind).settleAll

/-- CY_RST_N rises (R87, R459, R468, R489, R517, R527, R533, R544): fields take their Reset column; the TAP does not (R91).  DESIGN
CHOICE (log 43): CY_TRNG_STATUS.FAIL_CNT, whose meaning counts from the last cold start (R262), is cleared at every rise. -/
def State.riseReset (s : State) : State :=
  let t := s.start
  { s with
    regs := { Regs.init with ward := s.regs.ward }, plumb := .init, clk := .init, rings := [],
    dbg := { Debug.init with tap := s.dbg.tap, dr := s.dbg.dr, ir := s.dbg.ir, pc := s.dbg.pc },
    start := { Start.init with
      forceCold := t.forceCold, forceTrain := t.forceTrain, fwWait := t.fwWait, fuseSvn := t.fuseSvn, slot0 := t.slot0, slot1 := t.slot1,
      cfgLost0 := t.cfgLost0, cfgLost1 := t.cfgLost1, calib := t.calib, retained := t.retained, spill := t.spill,
      heldSpill := t.heldSpill, vddsFlag := t.vddsFlag, vddcOff := t.vddcOff, softRows := t.softRows,
      readSerial := t.readSerial, afterReset := true } }

/-- CY_RST_N_DEASSERT. -/
def State.deassertReset (s : State) (envs : List StartEnv) : State :=
  if s.start.mode ≠ .reset then s
  else
    let s := s.riseReset
    let s := s.beginStart s.beginKind
    State.attempts (s.phases1 (envs.headD noEnv)) envs.tail maxAttempts

/-- SAG_CLEAR_START: the warm start without reset, or from phase 1 where the sag met a start (R85, R466). -/
def State.sagClear (s : State) (envs : List StartEnv) : State :=
  if s.start.mode ≠ .dark then s
  else
    let s := s.beginStart (if s.start.sagInStart then s.beginKind else .warmNoReset)
    State.attempts (s.phases1 (envs.headD noEnv)) envs.tail maxAttempts

/-- REFCLK cycles of 10 s. -/
def thermalLife : Nat := 1000000000

/-- START_THERMAL_WAIT: the sensors are read again after 1 ms; THERMAL from 10 s on, which lie outside the wait (R14, R465). -/
def State.thermalWait (s : State) (temps : List (BitVec 16)) (envs : List StartEnv) : State :=
  if s.start.mode ≠ .starting ∨ s.start.wait ≠ .thermal then s
  else
    let s := s.readSensors temps
    let on : State := { s with start := { s.start with wait := .ports } }
    if s.start.waitFrom + thermalLife ≤ s.now then State.attempts (.fail on 3) envs maxAttempts
    else if s.coolEnough then State.attempts (on.phases3 (envs.headD noEnv)) envs.tail maxAttempts
    else s

/-- FW_LOAD_END: END within FW_WAIT ends the load, and the image is authenticated (R14, R474, R475). -/
def State.fwLoadEnd (s : State) (envs : List StartEnv) : State :=
  let s := s.fwLoadStop
  if !s.imageWaits || s.start.loadState != 2 then s
  else
    let img := s.start.load
    match s.imageBad img with
    | some _ =>
      State.attempts (.fail { s with start := { s.start with loadState := 3, wait := .ports } } 7) envs.tail maxAttempts
    | none =>
      State.attempts (({ s with start := { s.start with loadState := 0, wait := .ports } } : State).phases7 (envs.headD noEnv) img)
        envs.tail maxAttempts

/-- FW_WAIT_EXPIRY: FW_WAIT is over and END has not arrived (R14, R475). -/
def State.fwWaitExpiry (s : State) (envs : List StartEnv) : State :=
  if !s.imageWaits || decide (s.now < s.loadEnds) || s.start.loadState == 2 then s
  else State.attempts (.fail { s with start := { s.start with loadState := 0, wait := .ports } } 6) envs maxAttempts

/-! ### Phase 12 -/

/-- The sums of the first window after a start: its record is PARTIAL (R444). -/
def PlSum.first : PlSum := { PlSum.zero with flags := 1 }

/-- What the start itself used counts in no record (R444). -/
def State.startUse (s : State) : State :=
  ((s.dies.map (·.1)).foldl (fun s d => s.setDie d { s.die d with act := 0 }) s).zeroUse

/-- Plumb as it counts from the end of a start (R436, R444). -/
def State.plumbStart (s : State) : State :=
  (s.startUse.mapPlumb (fun p =>
    let p := { p with wattsOn := p.watts, capsOn := p.caps, allow := 0, ksAllow := 0, ksUsed := 0, esr := false, tickFlags := 0,
                      hostLast := 0, samples := [none, none, none, none], w1s := .none, w60 := .none, hist1s := [], hist60 := [],
                      sum1s := .first, sum60 := .first, due1s := none, due60 := none, last500 := [] }
    { p with level := match p.ceil with
        | some w => ((8 * ceilEnergy w : Nat) : Int)
        | none => p.level })).tickFlags

/-- Ends the FW_ACTIVATE that a restart serves, and aborts the commands that the restart met (R477, R478, R501). -/
def State.endActivate (s : State) : State :=
  match s.start.activate with
  | none => s
  | some h =>
    let others := (List.range 16).filter (fun j => j != h && ((s.hasp j).state == .pending || (s.hasp j).state == .running))
    let s := others.foldl (fun s j => s.answerHasp j MStatus.aborted.code 0 []) s
    let s : State := { s with start := { s.start with activate := none } }
    if s.start.seqWarm = 0 then
      (({ s with start := { s.start with stagedOk := false } } : State).putCalib (fun c => { c with slot := s.otherSlot })).finish h .okay 0
        s.activateBytes
    else s.finish h .fwReverted 0 []

/-- KIND of CY_START_STATUS (R489). -/
def StartKind.code : StartKind → BitVec 2
  | .undecided => 0
  | .cold => 1
  | .warmReset => 2
  | .warmNoReset => 2
  | .restart => 3

/-- START_COMPLETE: phase 12 (R88, R90, R459, R463, R489, R571).  A cold start writes its new configuration image and Lintel
record (R346, R464); a start that finds the mark of the spill record still set writes it clear (R459).  `fclk` tells what phase 12 finds: whether FCLK lies in its range, or that it has not run for 1,024 cycles since
CY_RST_N rose, so that no stop of it is detected until it has (R537; log 53). -/
def State.startComplete (s : State) (fclk : Option Bool) : State :=
  if s.start.mode ≠ .starting ∨ s.start.wait ≠ .ports ∨ s.start.phase ≠ 12 then s
  else
    let s := if s.start.kind = .cold then s.configChanged else s
    let s := if s.start.spill.valid then s.wroteRecord else s
    let t := s.start
    let up := s.fab.up || fclk == some true
    let s : State := { s with
      clk := { s.clk with up := true, fclkRan := some (fclk.isSome || s.clk.fclkRan == some true) },
      dbWords := [],
      fab := { s.fab with up := up },
      start := { t with mode := .serving, phase := 0, lastKind := t.kind.code, fabricDown := !up,
                        forceCold := t.forceCold && t.kind != .cold, spill := { t.spill with copy0 := false, copy1 := false }, heldSpill := false,
                        vddsFlag := false,
                        afterReset := false, written := [], sagInStart := false } }
    ((s.plumbStart.endActivate).irq .startDone).foFlush

/-- FCLK_RECHECK (R465, R537, R571). -/
def State.fclkRecheck (s : State) (fclk : Option Bool) : State :=
  if !s.start.fabricDown || s.start.mode == .reset then s
  else
    let s : State := { s with clk := { s.clk with fclkRan := some (fclk.isSome || s.clk.fclkRan == some true) } }
    if fclk = some true then
      (({ s with fab := { s.fab with up := true }, start := { s.start with fabricDown := false } } : State).foFlush).pumpPulls pumpFuel
    else s

/-! ### FW_ACTIVATE (R477 to R479, R501) -/

/-- Steps 2 to 6 of R477, up to phase 12; where one fails, the attempts of R467 follow from phase 1 with the image that was active before,
and the list tells what they measure, after what the restart itself does (R478). -/
def State.restart (s : State) (h : Nat) (startOk restoreOk : Bool) (envs : List StartEnv) : State :=
  let staged := s.slotOf s.otherSlot
  let s := (s.abortBackground.endBankWork).serveAllIdle.dropAcquires.refuseWaiting
  let s := ((s.lintelForce.endWrites writeFuel).stopSteps).saveRings
  let s := (s.enterSref.emptyContexts).beginStart .restart
  let s : State := { s with start := { s.start with activate := some h } }
  let bad (s : State) (c : Nat) : State := State.attempts (.fail s c) envs.tail maxAttempts
  if !startOk then bad { s with free := s.free + 1 } (Config.imageCause s.free).toNat
  else
    let s := (s.runImage staged).leaveSref
    if !restoreOk || s.start.cfgBad then bad s 11
    else
      let r := s.stopRings.recover 3
      let s := r.state
      if !r.ok then bad s 12
      else if !(envs.headD noEnv).tumblerOk then bad { s with regs := { s.regs with katFail := true } } 10
      else { s with start := { s.start with wait := .ports, phase := 12 } }

/-- FW_ACTIVATE after the checks of R497 (R477, R479, R510). -/
def State.fwActivate (s : State) (h burnt : Nat) (startOk restoreOk : Bool) (envs : List StartEnv) : State :=
  let flags := (s.hasp h).pay 0 1
  let staged := s.slotOf s.otherSlot
  if bit flags 1 then s.fwLock h burnt
  else if !s.start.stagedOk then s.finish h .fwNoneStaged 0 []
  else if s.ctl.compat < staged.run.cmin.toNat ∨ staged.run.cmax.toNat < s.ctl.compat then s.finish h .compatUnsupported 0 []
  else if (s.ctl.setA.inIntake || s.ctl.setB.inIntake) && !bit flags 0 then s.finish h .stepBusy 0 []
  else if (s.imageBad staged).isSome then s.finish h .fwAuth 0 []
  else s.restart h startOk restoreOk envs

/-! ### Commands -/

/-- CY_RST_N_DEASSERT; the list gives what each attempt measures, the first attempt first. -/
def execCyRstNDeassert (envs : List StartEnv) (s : State) : Host.Outcome State Fault Refusal := .next (s.deassertReset envs)

/-- SAG_CLEAR_START; as CY_RST_N_DEASSERT. -/
def execSagClearStart (envs : List StartEnv) (s : State) : Host.Outcome State Fault Refusal := .next (s.sagClear envs)

/-- START_THERMAL_WAIT; the list goes on with the attempt that waits, or with the next one after a failure. -/
def execStartThermalWait (temps : List (BitVec 16)) (envs : List StartEnv) (s : State) : Host.Outcome State Fault Refusal :=
  .next (s.thermalWait temps envs)

/-- FW_LOAD_END; the first of the list belongs to the attempt that waited for the image. -/
def execFwLoadEnd (envs : List StartEnv) (s : State) : Host.Outcome State Fault Refusal :=
  .next (if s.runs 2 then s.fwLoadEnd envs else s)

/-- FW_WAIT_EXPIRY; the list gives what the attempts after the failed one measure. -/
def execFwWaitExpiry (envs : List StartEnv) (s : State) : Host.Outcome State Fault Refusal := .next (s.fwWaitExpiry envs)

/-- START_COMPLETE. -/
def execStartComplete (fclkOk : Option Bool) (s : State) : Host.Outcome State Fault Refusal := .next (s.startComplete fclkOk)

/-- FCLK_RECHECK. -/
def execFclkRecheck (fclkOk : Option Bool) (s : State) : Host.Outcome State Fault Refusal := .next (s.fclkRecheck fclkOk)

/-- FW_ACTIVATE: anti-rollback fuses blown before VDD_C left its range; the running of the image and the restoring of the stack; the
first of the list measures the restart, the others the attempts after a failure. -/
def execFwActivate (hasp burnt : Nat) (startOk restoreOk : Bool) (envs : List StartEnv) (s : State) :
    Host.Outcome State Fault Refusal :=
  guard (decide (hasp < 16)) (s.runCommand hasp 0x14 (fun s => s.fwActivate hasp burnt startOk restoreOk envs))

end Sys2Proof.Machine
end

