-- ==== Sys2Proof/Machine/Dispatch.lean ====
section
/-!
DEFINITION. Dispatch of a command to its meaning: one arm for each constructor of Instr.
-/

namespace Sys2Proof.Machine

def exec (i : Instr) (s : State) : Host.Outcome State Fault Refusal :=
  match i with
  | .read port ctl addr tag => Sys2Proof.Machine.execRead port ctl addr tag s
  | .write port ctl addr tag data chk ben => Sys2Proof.Machine.execWrite port ctl addr tag data chk ben s
  | .fadd64 port ctl addr tag data chk => Sys2Proof.Machine.execFadd64 port ctl addr tag data chk s
  | .fadd64Acquire port ctl addr tag data chk at_ => Sys2Proof.Machine.execFadd64Acquire port ctl addr tag data chk at_ s
  | .cas64 port ctl addr tag data chk => Sys2Proof.Machine.execCas64 port ctl addr tag data chk s
  | .pintleReservedOp port op ctl addr tag => Sys2Proof.Machine.execPintleReservedOp port op ctl addr tag s
  | .pintleResponse port => Sys2Proof.Machine.execPintleResponse port s
  | .upLinkCredit port => Sys2Proof.Machine.execUpLinkCredit port s
  | .rdReq src tag off => Sys2Proof.Machine.execRdReq src tag off s
  | .wrLine src tag off data chk at_ => Sys2Proof.Machine.execWrLine src tag off data chk at_ s
  | .sealWr src tag off data chk at_ => Sys2Proof.Machine.execSealWr src tag off data chk at_ s
  | .sealRelease contrib => Sys2Proof.Machine.execSealRelease contrib s
  | .fadd src tag off data chk => Sys2Proof.Machine.execFadd src tag off data chk s
  | .cas src tag off data chk => Sys2Proof.Machine.execCas src tag off data chk s
  | .heldRelease src => Sys2Proof.Machine.execHeldRelease src s
  | .faddAcquire src tag off data chk at_ => Sys2Proof.Machine.execFaddAcquire src tag off data chk at_ s
  | .fabricReservedType src vc type tag off => Sys2Proof.Machine.execFabricReservedType src vc type tag off s
  | .rdResp tag data chk at_ => Sys2Proof.Machine.execRdResp tag data chk at_ s
  | .errResp tag stat at_ => Sys2Proof.Machine.execErrResp tag stat at_ s
  | .remoteTimeout tag => Sys2Proof.Machine.execRemoteTimeout tag s
  | .acquireDone index => Sys2Proof.Machine.execAcquireDone index s
  | .acquireTimeout index => Sys2Proof.Machine.execAcquireTimeout index s
  | .captureRead off => Sys2Proof.Machine.execCaptureRead off s
  | .pwrCapLvlChange level at_ => Sys2Proof.Machine.execPwrCapLvlChange level at_ s
  | .senseSample rail data at_ => Sys2Proof.Machine.execSenseSample rail data at_ s
  | .sagAccept at_ => Sys2Proof.Machine.execSagAccept at_ s
  | .dboltDone => Sys2Proof.Machine.execDboltDone s
  | .sagClearStart envs => Sys2Proof.Machine.execSagClearStart envs s
  | .cyRstNAssert => Sys2Proof.Machine.execCyRstNAssert s
  | .cyRstNDeassert envs => Sys2Proof.Machine.execCyRstNDeassert envs s
  | .startThermalWait temps envs => Sys2Proof.Machine.execStartThermalWait temps envs s
  | .fwWaitExpiry envs => Sys2Proof.Machine.execFwWaitExpiry envs s
  | .startComplete fclkOk => Sys2Proof.Machine.execStartComplete fclkOk s
  | .fclkRecheck fclkOk => Sys2Proof.Machine.execFclkRecheck fclkOk s
  | .aclkHoldRise => Sys2Proof.Machine.execAclkHoldRise s
  | .aclkIdle => Sys2Proof.Machine.execAclkIdle s
  | .aclkHoldFall pt => Sys2Proof.Machine.execAclkHoldFall pt s
  | .trstN => Sys2Proof.Machine.execTrstN s
  | .clockStopped domain => Sys2Proof.Machine.execClockStopped domain s
  | .clockRestart domain => Sys2Proof.Machine.execClockRestart domain s
  | .alertPulse chan ignored => Sys2Proof.Machine.execAlertPulse chan ignored s
  | .thermTrip chan => Sys2Proof.Machine.execThermTrip chan s
  | .tickEdge counts => Sys2Proof.Machine.execTickEdge counts s
  | .refreshAccrual bank => Sys2Proof.Machine.execRefreshAccrual bank s
  | .bedEnd bank work => Sys2Proof.Machine.execBedEnd bank work s
  | .courseWindowEnd => Sys2Proof.Machine.execCourseWindowEnd s
  | .reservedRefreshSlot bank => Sys2Proof.Machine.execReservedRefreshSlot bank s
  | .tierRead die t0 t1 t2 t3 => Sys2Proof.Machine.execTierRead die t0 t1 t2 t3 s
  | .tierLower die => Sys2Proof.Machine.execTierLower die s
  | .esrExit temps => Sys2Proof.Machine.execEsrExit temps s
  | .patrolTurn bank => Sys2Proof.Machine.execPatrolTurn bank s
  | .mortarPatrol => Sys2Proof.Machine.execMortarPatrol s
  | .plumbWindowEnd sixty => Sys2Proof.Machine.execPlumbWindowEnd sixty s
  | .accumContrib bank => Sys2Proof.Machine.execAccumContrib bank s
  | .setClearDone => Sys2Proof.Machine.execSetClearDone s
  | .deadlineClose => Sys2Proof.Machine.execDeadlineClose s
  | .sealScanDone => Sys2Proof.Machine.execSealScanDone s
  | .updateStart => Sys2Proof.Machine.execUpdateStart s
  | .factoredPass2Start group => Sys2Proof.Machine.execFactoredPass2Start group s
  | .leanUnitStart group unit => Sys2Proof.Machine.execLeanUnitStart group unit s
  | .leanUnitDone group unit => Sys2Proof.Machine.execLeanUnitDone group unit s
  | .updateDone => Sys2Proof.Machine.execUpdateDone s
  | .commitDone => Sys2Proof.Machine.execCommitDone s
  | .verdictRecorded => Sys2Proof.Machine.execVerdictRecorded s
  | .haspDoorbell hasp at_ => Sys2Proof.Machine.execHaspDoorbell hasp at_ s
  | .getInfo hasp => Sys2Proof.Machine.execGetInfo hasp s
  | .setCompat hasp => Sys2Proof.Machine.execSetCompat hasp s
  | .defineRegion hasp => Sys2Proof.Machine.execDefineRegion hasp s
  | .defineGroup hasp => Sys2Proof.Machine.execDefineGroup hasp s
  | .loadSchedule hasp => Sys2Proof.Machine.execLoadSchedule hasp s
  | .setSeed hasp => Sys2Proof.Machine.execSetSeed hasp s
  | .drawSeed hasp => Sys2Proof.Machine.execDrawSeed hasp s
  | .entropyDrawDone bits => Sys2Proof.Machine.execEntropyDrawDone bits s
  | .openStep hasp => Sys2Proof.Machine.execOpenStep hasp s
  | .getStepReport hasp => Sys2Proof.Machine.execGetStepReport hasp s
  | .verdict hasp => Sys2Proof.Machine.execVerdict hasp s
  | .checkpointExport hasp => Sys2Proof.Machine.execCheckpointExport hasp s
  | .exportDone => Sys2Proof.Machine.execExportDone s
  | .checkpointImport hasp => Sys2Proof.Machine.execCheckpointImport hasp s
  | .pullReplica hasp at_ => Sys2Proof.Machine.execPullReplica hasp at_ s
  | .setBudget hasp => Sys2Proof.Machine.execSetBudget hasp s
  | .getPlumb hasp => Sys2Proof.Machine.execGetPlumb hasp s
  | .startScrub hasp => Sys2Proof.Machine.execStartScrub hasp s
  | .scrubTurn => Sys2Proof.Machine.execScrubTurn s
  | .scrubProgress => Sys2Proof.Machine.execScrubProgress s
  | .repairSoft hasp => Sys2Proof.Machine.execRepairSoft hasp s
  | .repairSoftDone => Sys2Proof.Machine.execRepairSoftDone s
  | .repairFuse hasp => Sys2Proof.Machine.execRepairFuse hasp s
  | .repairCondTimeout => Sys2Proof.Machine.execRepairCondTimeout s
  | .fprogDone refused => Sys2Proof.Machine.execFprogDone refused s
  | .fwStage hasp => Sys2Proof.Machine.execFwStage hasp s
  | .fwActivate hasp burnt startOk restoreOk envs => Sys2Proof.Machine.execFwActivate hasp burnt startOk restoreOk envs s
  | .shutdown hasp => Sys2Proof.Machine.execShutdown hasp s
  | .fwLoadStart => Sys2Proof.Machine.execFwLoadStart s
  | .fwLoadData word => Sys2Proof.Machine.execFwLoadData word s
  | .fwLoadEnd envs => Sys2Proof.Machine.execFwLoadEnd envs s
  | .ringTailWrite bank value => Sys2Proof.Machine.execRingTailWrite bank value s
  | .ringConfigWrite bank reg value => Sys2Proof.Machine.execRingConfigWrite bank reg value s
  | .ringEnable bank => Sys2Proof.Machine.execRingEnable bank s
  | .ringStop bank => Sys2Proof.Machine.execRingStop bank s
  | .ringSave bank => Sys2Proof.Machine.execRingSave bank s
  | .ringSaveDone bank => Sys2Proof.Machine.execRingSaveDone bank s
  | .ringRestore bank => Sys2Proof.Machine.execRingRestore bank s
  | .ringAbort bank => Sys2Proof.Machine.execRingAbort bank s
  | .descriptorStart bank => Sys2Proof.Machine.execDescriptorStart bank s
  | .descriptorRetire bank => Sys2Proof.Machine.execDescriptorRetire bank s
  | .lock => Sys2Proof.Machine.execLock s
  | .erLogClear => Sys2Proof.Machine.execErLogClear s
  | .channelAliasWrite off value => Sys2Proof.Machine.execChannelAliasWrite off value s
  | .registerWrite off value => Sys2Proof.Machine.execRegisterWrite off value s
  | .dbChallenge request => Sys2Proof.Machine.execDbChallenge request s
  | .chalReady bits => Sys2Proof.Machine.execChalReady bits s
  | .challengeExpiry => Sys2Proof.Machine.execChallengeExpiry s
  | .dbResponse response => Sys2Proof.Machine.execDbResponse response s
  | .unlockVerifyDone => Sys2Proof.Machine.execUnlockVerifyDone s
  | .lockoutEnd => Sys2Proof.Machine.execLockoutEnd s
  | .relock => Sys2Proof.Machine.execRelock s
  | .halt => Sys2Proof.Machine.execHalt s
  | .wardenHalted => Sys2Proof.Machine.execWardenHalted s
  | .resume => Sys2Proof.Machine.execResume s
  | .step => Sys2Proof.Machine.execStep s
  | .dbBkpt value => Sys2Proof.Machine.execDbBkpt value s
  | .dbWatch value => Sys2Proof.Machine.execDbWatch value s
  | .breakpointHit index => Sys2Proof.Machine.execBreakpointHit index s
  | .watchpointHit index => Sys2Proof.Machine.execWatchpointHit index s
  | .dbAddr value => Sys2Proof.Machine.execDbAddr value s
  | .dbData value => Sys2Proof.Machine.execDbData value s
  | .dbAccessDone => Sys2Proof.Machine.execDbAccessDone s
  | .dbRepair value => Sys2Proof.Machine.execDbRepair value s
  | .controlPortWrite off value => Sys2Proof.Machine.execControlPortWrite off value s
  | .importDone => Sys2Proof.Machine.execImportDone s
  | .vddSLoss => Sys2Proof.Machine.execVddSLoss s
  | .vddCRemoval => Sys2Proof.Machine.execVddCRemoval s

end Sys2Proof.Machine
end

