-- ==== Sys2Proof/WellFormed.lean ====
section
/-!
DEFINITION. Well-formed commands: those that name units which Crety has (R19, R40, R537, R547). Every other operand is in range by its
type, or is one whose bad values the command itself answers.
-/

namespace Sys2Proof

/-- A Pintle port (R19, R41). -/
def portOk (port : Nat) : Bool := decide (port < 32)

/-- A hasp (R40, R490). -/
def haspOk (hasp : Nat) : Bool := decide (hasp < 16)

/-- A bank index (R19, R155). -/
def bankOk (bank : Nat) : Bool := decide (bank < 4096)

/-- The command names units that Crety has. -/
def Instr.wf : Instr → Bool
  | .read port _ _ _ => portOk port
  | .write port _ _ _ _ _ _ => portOk port
  | .fadd64 port _ _ _ _ _ => portOk port
  | .fadd64Acquire port _ _ _ _ _ _ => portOk port
  | .cas64 port _ _ _ _ _ => portOk port
  | .pintleReservedOp port op _ _ _ => portOk port && op.getLsbD 2
  | .pintleResponse port => portOk port
  | .upLinkCredit port => portOk port
  | .rdReq _ _ _ => true
  | .wrLine _ _ _ _ _ _ => true
  | .sealWr _ _ _ _ _ _ => true
  | .sealRelease _ => true
  | .fadd _ _ _ _ _ => true
  | .cas _ _ _ _ _ => true
  | .heldRelease _ => true
  | .faddAcquire _ _ _ _ _ _ => true
  | .fabricReservedType _ _ _ _ _ => true
  | .rdResp _ _ _ _ => true
  | .errResp _ _ _ => true
  | .remoteTimeout _ => true
  | .acquireDone _ => true
  | .acquireTimeout _ => true
  | .captureRead _ => true
  | .pwrCapLvlChange _ _ => true
  | .senseSample _ _ _ => true
  | .sagAccept _ => true
  | .dboltDone => true
  | .sagClearStart _ => true
  | .cyRstNAssert => true
  | .cyRstNDeassert _ => true
  | .startThermalWait _ _ => true
  | .fwWaitExpiry _ => true
  | .startComplete _ => true
  | .fclkRecheck _ => true
  | .aclkHoldRise => true
  | .aclkIdle => true
  | .aclkHoldFall _ => true
  | .trstN => true
  | .clockStopped domain => decide (domain < 5)
  | .clockRestart domain => decide (domain < 5)
  | .alertPulse chan _ => decide (chan < 256)
  | .thermTrip chan => decide (chan < 256)
  | .tickEdge _ => true
  | .refreshAccrual bank => bankOk bank
  | .bedEnd bank _ => bankOk bank
  | .courseWindowEnd => true
  | .reservedRefreshSlot bank => bankOk bank
  | .tierRead die _ _ _ _ => decide (die < 16)
  | .tierLower die => decide (die < 16)
  | .esrExit _ => true
  | .patrolTurn bank => bankOk bank
  | .mortarPatrol => true
  | .plumbWindowEnd _ => true
  | .accumContrib bank => bankOk bank
  | .setClearDone => true
  | .deadlineClose => true
  | .sealScanDone => true
  | .updateStart => true
  | .factoredPass2Start _ => true
  | .leanUnitStart _ _ => true
  | .leanUnitDone _ _ => true
  | .updateDone => true
  | .commitDone => true
  | .verdictRecorded => true
  | .haspDoorbell hasp _ => haspOk hasp
  | .getInfo hasp => haspOk hasp
  | .setCompat hasp => haspOk hasp
  | .defineRegion hasp => haspOk hasp
  | .defineGroup hasp => haspOk hasp
  | .loadSchedule hasp => haspOk hasp
  | .setSeed hasp => haspOk hasp
  | .drawSeed hasp => haspOk hasp
  | .entropyDrawDone _ => true
  | .openStep hasp => haspOk hasp
  | .getStepReport hasp => haspOk hasp
  | .verdict hasp => haspOk hasp
  | .checkpointExport hasp => haspOk hasp
  | .exportDone => true
  | .checkpointImport hasp => haspOk hasp
  | .pullReplica hasp _ => haspOk hasp
  | .setBudget hasp => haspOk hasp
  | .getPlumb hasp => haspOk hasp
  | .startScrub hasp => haspOk hasp
  | .scrubTurn => true
  | .scrubProgress => true
  | .repairSoft hasp => haspOk hasp
  | .repairSoftDone => true
  | .repairFuse hasp => haspOk hasp
  | .repairCondTimeout => true
  | .fprogDone _ => true
  | .fwStage hasp => haspOk hasp
  | .fwActivate hasp burnt _ _ _ => haspOk hasp && decide (burnt ≤ 64)
  | .shutdown hasp => haspOk hasp
  | .fwLoadStart => true
  | .fwLoadData _ => true
  | .fwLoadEnd _ => true
  | .ringTailWrite bank _ => bankOk bank
  | .ringConfigWrite bank reg _ => bankOk bank && (reg == 0x00 || reg == 0x04 || reg == 0x1C)
  | .ringEnable bank => bankOk bank
  | .ringStop bank => bankOk bank
  | .ringSave bank => bankOk bank
  | .ringSaveDone bank => bankOk bank
  | .ringRestore bank => bankOk bank
  | .ringAbort bank => bankOk bank
  | .descriptorStart bank => bankOk bank
  | .descriptorRetire bank => bankOk bank
  | .lock => true
  | .erLogClear => true
  | .channelAliasWrite _ _ => true
  | .registerWrite _ _ => true
  | .dbChallenge _ => true
  | .chalReady _ => true
  | .challengeExpiry => true
  | .dbResponse _ => true
  | .unlockVerifyDone => true
  | .lockoutEnd => true
  | .relock => true
  | .halt => true
  | .wardenHalted => true
  | .resume => true
  | .step => true
  | .dbBkpt _ => true
  | .dbWatch _ => true
  | .breakpointHit index => decide (index < 8)
  | .watchpointHit index => decide (index < 4)
  | .dbAddr _ => true
  | .dbData _ => true
  | .dbAccessDone => true
  | .dbRepair _ => true
  | .controlPortWrite _ _ => true
  | .importDone => true
  | .vddSLoss => true
  | .vddCRemoval => true

end Sys2Proof
end

