-- ==== Sys2Proof/Safety.lean ====
section
/-!
DEFINITION. What a claim about Crety is stated in: safe commands, the canonical form of memory, the bounds of the queues
and counters, one read of a Bond word, and what stands in a response.
-/

namespace Sys2Proof.Machine

/-! ### Safe commands -/

/-- The command has its effect: the block goes on. -/
def Goes (c : Instr) (s : State) : Prop := ∃ t, exec c s = .next t

/-! ### Memory -/

/-- The stack, Mortar and the hasps, and the maps of groups and regions, are in canonical form. -/
def State.memWf (s : State) : Bool :=
  s.stack.wf && s.mortar.wf && s.hasps.wf && Sparse.wf none s.groups && Sparse.wf none s.regions

/-- Data and syndrome of word w of a store, as they stand. -/
def State.word (s : State) (sp : Space) (w : Nat) : BondData × BitVec 16 :=
  match sp with
  | .stack => (s.stkData w, s.stkSyn w)
  | .mortar => (s.mortar.data w, s.mortar.syn w)
  | .hasp => (s.hasps.data w, s.hasps.syn w)
  | .pages => (s.pageWord w, Sparse.get 0 s.idSyn w)

/-- Every word of the three stores reads in t as it does in s; the identity pages, which no access writes, are none of
them. -/
def SameMemory (s t : State) : Prop := ∀ sp w, sp ≠ .pages → t.word sp w = s.word sp w

/-- Every word of the three stores but those listed reads in t as it does in s. -/
def SameMemoryBut (ws : List (Space × Nat)) (s t : State) : Prop :=
  ∀ sp w, sp ≠ .pages → (sp, w) ∉ ws → t.word sp w = s.word sp w

/-- The word at a place holds data with valid check bits. -/
def State.holds (s : State) (p : Place) (d : BondData) : Prop := s.placeData p = d ∧ s.placeSyn p = 0

/-- The words of a range of a hasp's storage: n bytes from offset o. -/
def haspWords (h o n : Nat) : List (Space × Nat) := (List.range (ceilDiv n 16)).map (fun i => (.hasp, (haspAt h o) / 16 + i))

/-! ### Bounds (R188, R209, R366, R412, R527) -/

/-- No ring of a map has more than two descriptors in flight (R366). -/
def ringsBounded (m : Sparse Ring) : Prop := ∀ k, (Sparse.get Ring.init m k).flight.length ≤ 2

/-- CY_TICK_PHASE is below 200, the error log holds at most 64 entries, at most 1,024 acquires are held, a bank owes at most
8 REFpb, and a ring has at most two descriptors in flight, in the state and in the spill. -/
def State.bounded (s : State) : Prop :=
  s.clk.phase < 200 ∧ s.regs.log.length ≤ 64 ∧ s.heldCount ≤ 1024 ∧ (∀ k, (s.bank k).owed ≤ 8) ∧
  ringsBounded s.rings ∧ ringsBounded s.start.spill.rings

/-! ### Requests -/

/-- A port takes a request with a free tag and a credit, at once and in its turn (R42, R48, R49). -/
def State.portReady (s : State) (port : Nat) (tag : BitVec 8) : Prop :=
  port < 32 ∧ s.linksRun = true ∧ 0 < (s.port port).dnCred ∧ tag ∉ (s.port port).busy ∧ (s.port port).behind = [] ∧
  s.portQueued port = [] ∧ s.portAcquires port = []

/-- The state once a request has been accepted: a credit is used, its tag is outstanding, its flit is counted, the acceptance number moves
on. -/
def State.accepted (s : State) (r : PintleReq) : State :=
  s.bump.countPt.setPort r.port { s.port r.port with dnCred := (s.port r.port).dnCred - 1, busy := (s.port r.port).busy ++ [r.tag] }

/-- The request with what its acceptance adds: its number, its REFCLK cycle, and the channels that a group alias selects
(R141, R411). -/
def State.numbered (s : State) (r : PintleReq) : PintleReq :=
  { r with seq := s.seq, at_ := s.now, chans := if r.ctl then s.maskOf r.addr.toNat else [] }

/-- A response without a line (R41, R44). -/
def plainFlit (r : PintleReq) (stat : BitVec 3) : UpFlit :=
  { kind := r.op == 0, tag := r.tag, stat := stat, data := 0, chk := 0, dup := false }

/-- A response of KIND 0 with the old latch word (R41, R44). -/
def wordFlit (r : PintleReq) (w : BitVec 64) : UpFlit :=
  { kind := false, tag := r.tag, stat := ptOkay, data := lineOfWords [w.setWidth 128], chk := chkOfWords [bondEncode (w.setWidth 128)],
    dup := false }

/-- A response of KIND 1 with a line as delivered (R55). -/
def lineFlit (r : PintleReq) (vs : List (BondData × Bool)) : UpFlit :=
  { kind := true, tag := r.tag, stat := if vs.any (·.2) then ptDataErr else ptOkay, data := (lineOfValues vs).1,
    chk := (lineOfValues vs).2, dup := false }

/-- The word at a place after its enabled bytes were written with clean data (R45, R178). -/
def State.merged (s t : State) (p : Place) (d : BondData) (ben : Nat) : Prop :=
  t.placeData p = (if ben = 2 ^ 16 - 1 then d else mergeBytes (s.peek p).1 d ben) ∧
  t.placeSyn p = (if ben ≠ 2 ^ 16 - 1 ∧ (s.peek p).2 = true then poisonMask else 0)

/-- The response stands at the end of the port's up queue, and every other port is as it was (R49, R51). -/
def Answered (s t : State) (port : Nat) (f : UpFlit) : Prop :=
  (t.port port).upQ = (s.port port).upQ ++ [f] ∧ ∀ q, q ≠ port → t.port q = s.port q

/-- The data words of a line read CLEAN as they arrive (R172). -/
def cleanLine (d : LineData) (c : LineChk) (is : List Nat) : Prop := ∀ i ∈ is, bondSyndrome (lineWord d i) (lineChk c i) = 0

/-- A member's request that the fabric port takes now (R62, R571). -/
def State.fabReady (s : State) (src : BitVec 14) : Prop := s.fabOpen = true ∧ s.member src = true ∧ s.serving = true

/-! ### Responses of the mailbox (R494, R496) -/

/-- Status word of the response header. -/
def State.respStatus (s : State) (h : Nat) : Nat := bits (s.hasps.data (haspAt h 0x800 / 16)).toNat 31 16

/-- Payload length of the response header. -/
def State.respLen (s : State) (h : Nat) : Nat := bits (s.hasps.data (haspAt h 0x800 / 16)).toNat 63 32

/-- DETAIL of the response header. -/
def State.respDetail (s : State) (h : Nat) : Nat := bits (s.hasps.data (haspAt h 0x810 / 16)).toNat 63 0

/-- A command has completed with a status: STATE is DONE, the header says so, and the hasp is neither queued nor active. -/
def State.done (s : State) (h : Nat) (st : MStatus) : Prop :=
  (s.hasp h).state = .done ∧ s.respStatus h = st.code ∧ h ∉ s.mbox.queue ∧ s.mbox.active ≠ some h

/-- The response payload's first bytes are those given. -/
def State.respBytes (s : State) (h : Nat) (bs : List Byte) : Prop := s.hasps.bytes (haspAt h 0x840) bs.length = bs

/-- It is the command's turn, and nothing of R497 refuses it. -/
def State.turn (s : State) (h op : Nat) : Prop := h < 16 ∧ s.ready h op = true ∧ (s.begin_ h).preChecks h = none

/-- A new Lintel record can be written now: no line and no event waits, and the banks of both copies take a line (R346, R347). -/
def State.recordReady (s : State) : Prop :=
  s.ctl.writing = none ∧ s.ctl.lintel = [] ∧ s.lintelOpen none false = true ∧ s.lintelOpen none true = true

/-- Part of what a plan holds waits in the queues of its banks or for sectors, and a work item with the task that follows is kept: no
stored word changes (R203, R437). -/
def Waits (s t : State) (task : KsTask) : Prop :=
  (∃ id owed plan params, t.ctl.items = s.ctl.items ++ [{ id := id, task := task, owed := owed, plan := plan, params := params }]) ∧
  SameMemory s t

/-! ### What units of work and updates store (R304, R317, R377, R384, R389, R391) -/

/-- The bytes of one element of an element-wise operation (R377, R380 to R382). -/
def State.elemBytes (s : State) (k : Nat) (d : Desc) (e : Nat) : List Byte :=
  let x := fun (on : Bool) (base fmt : Nat) => if on then (s.ringElem k base fmt e).1 else 0
  if d.op = 1 then leBytes (ringSize d.fmtO) (s.ringCode k (d.a + e * ringSize d.fmtA) (ringSize d.fmtA)).1
  else if d.op = 0x0E && !d.kept s.ctl.seed e then leBytes (ringSize d.fmtO) 0
  else d.outBytes s.ctl.seed e (d.elemValue s.ctl.seed e (x d.usesA d.a d.fmtA) (x d.usesB d.b d.fmtB) (x (d.op == 7) d.c d.fmtC))

/-- Some input of an element of an element-wise operation is poisoned. -/
def State.elemBad (s : State) (k : Nat) (d : Desc) (e : Nat) : Bool :=
  (d.usesA && (s.ringElem k d.a d.fmtA e).2) || (d.usesB && (s.ringElem k d.b d.fmtB e).2) || (d.op == 7 && (s.ringElem k d.c d.fmtC e).2)

/-- The running statistics of a reduction after the chunk at its cursor (R384, R385). -/
def State.chunkRun (s : State) (k : Nat) (f : InFlight) : F32 × F32 × F32 :=
  let d := Desc.of f.desc
  statChunk (d.statKind f.pass) (f.inner == 0) f.runOf ((s.rowChunk k d f).map (·.1))

/-- The chunk at the cursor ends a row of a reduction, which then delivers its values (R384, R385). -/
def InFlight.endsRow (f : InFlight) : Bool :=
  let d := Desc.of f.desc
  d.reduces && decide (d.len ≤ f.inner + 16) && (d.op != 0x0D || f.pass)

/-- FP32 dot product of a GEMV_THIN chunk: row r of A, as BF16, against the vector in the latch (R390, R391). -/
def State.gemvAcc (s : State) (k : Nat) (f : InFlight) (vec : List Byte) (b : Nat) : F32 :=
  let d := Desc.of f.desc
  let n := d.chunkAt f.inner
  let a0 := d.a + 2 * (f.outer * d.len + f.inner)
  let av := (List.range n).map (fun j => BitVec.ofNat 16 (s.ringCode k (a0 + 2 * j) 2).1)
  let xv : List (BitVec 16) := (List.range n).map (fun j => BitVec.ofNat 16 (field vec (2 * (n * b + j)) 2))
  let acc0 : F32 := if f.inner = 0 then 0 else (s.ringElem k d.c 0 (b * d.count + f.outer)).1
  (List.range (n / 4)).foldl (fun acc i => bf16Dot4 acc ((av.drop (4 * i)).take 4) ((xv.drop (4 * i)).take 4)) acc0

/-- The row of NORM_APPLY at the cursor is in its second pass, with what that needs in row latch 1 (R388, R389). -/
def State.normApplies (s : State) (k : Nat) (f : InFlight) : Bool :=
  let d := Desc.of f.desc
  f.pass && (!d.inValid || ((s.bank k).slateHeld d f.q f.outer).isSome)

/-- What one unit of work of a descriptor stores in its bank: addresses, each with its bytes. -/
def State.unitStores (s : State) (k : Nat) (f : InFlight) : List (Nat × List Byte) :=
  let d := Desc.of f.desc
  let sz := ringSize d.fmtO
  if d.elementwise then
    let n := min 128 (d.count - f.outer)
    let kept := fun (e : Nat) => decide (e < d.count) && d.kept s.ctl.seed e
    (List.range n).map (fun i => (d.out + (f.outer + i) * sz, s.elemBytes k d (f.outer + i))) ++
    (if d.op = 0x0E && d.func == 1 then
      (List.range (ceilDiv n 8)).map (fun i => (d.c + (f.outer + 8 * i) / 8,
        [BitVec.ofNat 8 (((List.range 8).map (fun j => if kept (f.outer + 8 * i + j) then 2 ^ j else 0)).sum)]))
    else [])
  else if d.slateCopy then
    match (s.bank k).slateHeld d f.q f.outer with
    | some (bs, short, _) =>
      let v := if short then (0, 0) else latchTotals bs
      [(d.out + 8 * f.outer, leBytes 4 v.1.toNat ++ leBytes 4 v.2.toNat)]
    | none => []
  else if d.reduces then
    let v := d.redValues (s.chunkRun k f)
    if f.endsRow && !d.outValid then
      [(d.out + d.redBytes * f.outer, leBytes 4 v.1.toNat ++ (if d.redBytes = 8 then leBytes 4 v.2.toNat else []))]
    else []
  else if d.norm then
    if s.normApplies k f then
      (List.range (min 16 (d.len - f.inner))).map (fun i =>
        let j := f.inner + i
        let e := f.outer * d.len + j
        let x := fun (on : Bool) (base fmt : Nat) => if on then (s.ringElem k base fmt j).1 else 0
        (d.out + e * sz, d.outBytes s.ctl.seed e
          (d.normElem f.run (s.ringElem k d.a d.fmtA e).1 (x d.usesB d.b d.fmtB) (x d.usesC d.c d.fmtC))))
    else []
  else
    match (s.bank k).vectorHeld f with
    | some (vec, _) => (List.range d.batch).flatMap (fun b =>
        let e := b * d.count + f.outer
        let acc := s.gemvAcc k f vec b
        (d.c + 4 * e, leBytes 4 acc.toNat) ::
          (if d.len ≤ f.inner + d.chunk then [(d.out + e * sz, d.outBytes s.ctl.seed e (f32Mul d.sc0 acc))] else []))
    | none => []

/-- The bytes at a location of the stack read as these. -/
def State.reads (s : State) (l : Loc) (bs : List Byte) : Prop :=
  ∀ o, o < bs.length → (s.peekNat { l with byte := l.byte + o } 1).1 = (bs.getD o 0).toNat

/-- n bytes from a location on. -/
def Loc.span (l : Loc) (n : Nat) : List Loc := (List.range n).map (fun o => { l with byte := l.byte + o })

/-- No two bytes of a list share a place in the stack. -/
def State.apart (s : State) (ls : List Loc) : Prop := (ls.map (fun l => 16 * (s.locPlace l false).word + l.byte % 16)).Nodup

/-- The words in which bytes stand. -/
def State.wordsOf (s : State) (ls : List Loc) : List (Space × Nat) := ls.map (fun l => (.stack, (s.locPlace l false).word))

/-- The bytes of elements of a group's arrays, in the slot that the step writes. -/
def UCtx.arrayLocs (c : UCtx) (arrs : List (Arr × List Nat)) : List Loc :=
  arrs.flatMap (fun a => a.2.flatMap (fun i => (c.loc a.1 c.wr i).span (c.g.elemBytes a.1)))

/-- The arrays that an update of elements writes: pairs and moments, those of a Q8 block with its scale (R304, R569). -/
def UCtx.updArrays (c : UCtx) (is : List Nat) : List (Arr × List Nat) :=
  let es := is.filter c.touches
  let blocks := blocksIn 64 es
  let mom := fun (a scale : Arr) (fmt : Nat) => if fmt = 2 then [(a, blocks.flatMap (c.blockElems 64)), (scale, blocks)] else [(a, es)]
  [(.head, es), (.tail, es)] ++ (if c.g.hasM then mom .m .mScale c.g.mFmt else []) ++ (if c.g.hasV then mom .v .vScale c.g.vFmt else [])

/-- The results of an update of elements, from the state as it stands (R306, R310, R313). -/
def State.updated (s : State) (c : UCtx) (is : List Nat) : List UElem := (is.filter c.touches).map (s.updElem c)

/-- Their short weights of version t + 1, by offset in the version (R317, R318). -/
def State.newWeights (s : State) (c : UCtx) (is : List Nat) : List (Nat × Bool × List Byte) := s.weightPieces c c.t c.wr (s.updated c is)

/-- The bytes that an update of elements writes: those of its arrays, and its short weights. -/
def State.updLocs (s : State) (c : UCtx) (arrs : List (Arr × List Nat)) (is : List Nat) : List Loc :=
  c.arrayLocs arrs ++ (s.newWeights c is).flatMap (fun p => (List.range p.2.2.length).map (fun o => s.cofferLoc c.g (c.t.toNat + 1) (p.1 + o)))

/-- In t stand the results of an update of elements from s: head and tail, moments that are no Q8 codes, and short weights; what
comes from poison is poisoned (R179, R304 to R318). -/
def State.storesUpdate (s t : State) (c : UCtx) (is : List Nat) : Prop :=
  let mom := fun (first : Bool) (fmt : Nat) (e : UElem) (y : F32) =>
    if fmt = 0 then leBytes 2 (fmtBf16.narrow (momentMode c.sc.rnd) (c.momWord first e.i) (f32Num y)) else leBytes 4 y.toNat
  (∀ e ∈ s.updated c is,
    t.reads (c.loc .head c.wr e.i) (leBytes 4 e.h.toNat) ∧ t.reads (c.loc .tail c.wr e.i) (leBytes 2 e.tl.toNat) ∧
    (c.g.hasM = true → c.g.mFmt ≠ 2 → t.reads (c.loc .m c.wr e.i) (mom true c.g.mFmt e e.m)) ∧
    (c.g.hasV = true → c.g.vFmt ≠ 2 → t.reads (c.loc .v c.wr e.i) (mom false c.g.vFmt e e.v)) ∧
    (e.badH = true → (t.peekNat (c.loc .head c.wr e.i) 1).2 = true)) ∧
  (∀ p ∈ s.newWeights c is, ∀ o, o < p.2.2.length →
    (t.peekNat (s.cofferLoc c.g (c.t.toNat + 1) (p.1 + o)) 1).1 = (p.2.2.getD o 0).toNat)

/-- No waiting request fails check 1 or 2 of R497. -/
def State.noneBad (s : State) : Prop := ∀ j, s.badStatus j = none

/-- The storage of hasp j is not that of hasp h, and no waiting request there fails check 1 or 2 of R497, which the end of a command
may answer (R499). -/
def State.haspQuiet (s : State) (h j : Nat) : Prop := j ≠ h ∧ s.badStatus j = none

/-- Every word outside hasp h's storage reads in t as it does in s, but for responses to requests that fail check 1 or 2 (R497, R499). -/
def SameMemoryButHasp (h : Nat) (s t : State) : Prop :=
  ∀ sp w, sp ≠ .pages → (sp = .hasp → s.haspQuiet h (w / 256)) → t.word sp w = s.word sp w

/-- The same, and outside the two Lintel records (R345). -/
def SameMemoryButRecord (h : Nat) (s t : State) : Prop :=
  ∀ sp w, sp ≠ .pages → (sp = .hasp → s.haspQuiet h (w / 256)) → (sp = .stack → ∀ c, ∀ p ∈ s.lintelLine c, p.word ≠ w) → t.word sp w = s.word sp w

/-- The mailbox rows that one hasp's request runs, with their opcodes (R503). -/
def mailboxRows (h : Nat) : List (Instr × Nat) :=
  [(.getInfo h, 0x01), (.setCompat h, 0x02), (.defineRegion h, 0x03), (.defineGroup h, 0x04), (.loadSchedule h, 0x05), (.setSeed h, 0x06),
   (.drawSeed h, 0x07), (.openStep h, 0x08), (.getStepReport h, 0x09), (.verdict h, 0x0A), (.checkpointExport h, 0x0B),
   (.checkpointImport h, 0x0C), (.setBudget h, 0x0E), (.getPlumb h, 0x0F), (.startScrub h, 0x10), (.repairSoft h, 0x11),
   (.repairFuse h, 0x12), (.fwStage h, 0x13), (.shutdown h, 0x15)]

end Sys2Proof.Machine

namespace Sys2Proof

/-- A command is safe: it has its effect in every state. -/
def Instr.Safe (c : Instr) : Prop := ∀ s, Machine.Goes c s

end Sys2Proof
end

