-- ==== Sys2Proof/Certificates/Slice0/Obligations.lean ====
section
/-!
DEFINITION. The statements for the provers, family by family in the order of the opcode table.
-/

open Sys2Proof Sys2Proof.Machine

/-! ### The queue, safety and the whole machine -/

/-- A step runs the command at the front of the queue on the state whose queue is the rest (the model's own, log 1). -/
def Obligations.StepRunsFrontCommand : Prop :=
  ∀ (c : Instr) (rest : List Instr) (s : State),
    step { s with pending := c :: rest } = exec c { s with pending := rest }

/-- With no command waiting the block idles (DESIGN CHOICE, log 1), and no word of the opcode table spells a command. The effect of
a command is on everything but the queue: what waits, waits in its order. -/
def Obligations.WaitingCommandsWaitInOrder : Prop :=
  (∀ s : State, s.pending = [] → step s = .next s) ∧
  (∀ (s : State) (nbits w : Nat), decodeTableWord nbits w = none ∧ s.withFetchWord nbits w = s) ∧
  (∀ (c : Instr) (s t : State), exec c s = .next t → t.pending = s.pending)

/-- Every command that names units which Crety has (R19, R40) answers a next state in every state, and no command is refused. -/
def Obligations.WellFormedCommandsAreSafe : Prop :=
  (∀ c : Instr, c.wf = true → c.Safe) ∧
  (∀ (c : Instr) (s : State), exec c s = .fault .noSuchUnit ∨ Goes c s)

/-- Every step keeps the canonical form of the stack, of Mortar and of the hasps, so that equal memories are equal data. -/
def Obligations.EveryStepKeepsCanonicalMemory : Prop := ∀ s t : State, s.memWf = true → step s = .next t → t.memWf = true

/-- Every step keeps the bounds of R188 (error log), R209 (owed REFpb), R366 (descriptors in flight), R412 (held acquires) and R527
(CY_TICK_PHASE), in every state that meets them. -/
def Obligations.EveryStepKeepsTheBounds : Prop := ∀ s t : State, s.bounded → step s = .next t → t.bounded

/-- LOCK is cleared only by CY_RST_N (R525), and the anti-rollback fuses never go down (R479). -/
def Obligations.LockAndFusesNeverFallBack : Prop :=
  ∀ s t : State, step s = .next t →
    s.start.fuseSvn ≤ t.start.fuseSvn ∧
    (s.regs.lock = true → (∀ envs rest, s.pending ≠ .cyRstNDeassert envs :: rest) → t.regs.lock = true)

/-- A debug session opens only where a verification ends (R543): no other command opens one or widens its scope, and that one
only with a key whose hash is the fused one and a signature that verifies, while NO_UNLOCK is 0, FAILED does not refuse it
(R539) and no lockout runs. -/
def Obligations.OnlyAVerifiedResponseOpensASession : Prop :=
  ∀ s t : State, step s = .next t → t.dbg.sessionOn = true →
    (s.dbg.sessionOn = true ∧ t.dbg.scope = s.dbg.scope) ∨
    (∃ rest r, s.pending = .unlockVerifyDone :: rest ∧ s.dbg.busy = .verify r ∧ s.unlockOk r = true ∧ s.dbg.chalReady = true ∧
      s.regs.noUnlock = false ∧ s.dbg.refused = false ∧ s.lockedOut = false ∧ t.dbg.scope = BitVec.ofNat 4 (bits r.toNat 3 0))

/-- The state after power-up with CY_RST_N low: the registers named here read the values of their Reset columns (R457, R523 to R539,
R544), CY_UP and DBOLT_DONE are low (R489), every link's receiver holds 32 credits (R42), every hasp is IDLE (R492), every ring is
STOPPED, and nothing is queued, defined or unlocked. Reset has the canonical form and the bounds that every step keeps. -/
def Obligations.ResetHasTheResetColumnsAndInvariants : Prop :=
  (let s := State.reset
  s.pending = [] ∧ s.clk.tick = 0 ∧ s.clk.phase = 0 ∧ s.clk.up = false ∧ s.clk.dbolt = false ∧
  s.readGlobal 0x0008 = 0 ∧ s.readGlobal 0x0028 = 0 ∧ s.readGlobal 0x002C = 0 ∧ s.readGlobal 0x0030 = 0x03E8 ∧
  s.readGlobal 0x0034 = 0x0040 ∧ s.readGlobal 0x0038 = 0x00010000 ∧ s.readGlobal 0x003C = 4 ∧ s.readGlobal 0x0060 = 0 ∧
  s.readGlobal 0x0064 = 0x13880000 ∧ s.readGlobal 0x1000 = 0x01F4 ∧ s.readGlobal 0x2000 = 0x4B ∧ s.readGlobal 0x2014 = 0x00180100 ∧
  s.readGlobal 0x2020 = 0xC3500064 ∧ s.readGlobal 0x2060 = 0xFFFFFFFF ∧ s.readGlobal 0x3004 = 0 ∧ s.readGlobal 0x4004 = 0 ∧
  (∀ p, (s.port p).dnCred = 32 ∧ (s.port p).upCred = 32 ∧ (s.port p).busy = []) ∧
  (∀ h, (s.hasp h).state = .idle) ∧ (∀ k, (s.ring k).state = .stopped ∧ (s.ring k).head = 0) ∧
  s.dbg.sessionOn = false ∧ s.dbg.ir = 0x01 ∧ (∀ i, s.latch i = 0) ∧ (∀ g, s.group g = none) ∧ (∀ r, s.region r = none)) ∧
  (State.reset.memWf = true ∧ State.reset.bounded)

/-! ### Pintle ports -/

/-- READ on a port that takes it in its turn (R44, R49, R55): a refused READ is answered KIND 1 with its status and zeros and
changes nothing else; a READ of control space, or of a stack line whose bank is free, is answered with the line as delivered; a READ
whose bank is not free waits in the bank's queue; and one of control space waits while CCLK is stopped (R557). -/
def Obligations.PintleReadsAnswerTheirLine : Prop :=
  ∀ (s : State) (port : Nat) (ctl : Bool) (addr : BitVec 37) (tag : BitVec 8), s.portReady port tag →
    let r := s.numbered (bareReq port 0 ctl addr tag)
    (∀ st, s.reqStatus r = some st → (ctl = true → s.runs 2 = true) →
      ∃ t, exec (.read port ctl addr tag) s = .next t ∧ Answered s t port (plainFlit r st) ∧
        t = { s.countPt with ports := t.ports, seq := s.seq + 1 }) ∧
    (s.reqStatus r = none → ctl = true → s.runs 2 = true →
      ∃ t, exec (.read port ctl addr tag) s = .next t ∧ Answered s t port (lineFlit r (s.readCtlLine r).1) ∧
        SameMemory s t ∧ t.latches = s.latches) ∧
    (∀ g, s.reqStatus r = none → ctl = false → s.regionAt addr.toNat = some g → s.bankWaits (g.loc addr.toNat).bank = false →
      ∃ t, exec (.read port ctl addr tag) s = .next t ∧ Answered s t port (lineFlit r (s.readStackLine r.who addr.toNat).1) ∧
        SameMemory s t ∧ t.latches = s.latches) ∧
    (∀ g, s.reqStatus r = none → ctl = false → s.regionAt addr.toNat = some g → s.bankWaits (g.loc addr.toNat).bank = true →
      ∃ t, exec (.read port ctl addr tag) s = .next t ∧ (t.port port).upQ = (s.port port).upQ ∧ SameMemory s t ∧
        (t.bank (g.loc addr.toNat).bank).queue = (s.bank (g.loc addr.toNat).bank).queue ++ [.pintle r]) ∧
    (ctl = true → s.runs 2 = false →
      ∃ t, exec (.read port ctl addr tag) s = .next t ∧ (t.port port).upQ = (s.port port).upQ ∧ (t.port port).behind = [r] ∧
        t = { s.countPt with ports := t.ports, seq := s.seq + 1 })

/-- A READ of a latch line returns the words of its two slots, and zero in every reserved byte [63:8] of each; a WRITE of clean
words to reserved bytes only is answered OKAY and changes nothing. On the control port a read of a reserved word returns zero
without an error, and a write of it leaves everything but that answer as it was (R135). -/
def Obligations.LatchLineHoldsTwoWords : Prop :=
  (∀ (s : State) (port : Nat) (tag : BitVec 8) (i : Nat), s.portReady port tag → s.serving = true → s.runs 2 = true → i < 8192 →
    i % 2 = 0 →
    ∃ t f, exec (.read port true (BitVec.ofNat 37 (0x400000 + 64 * i)) tag) s = .next t ∧ Answered s t port f ∧
      f.kind = true ∧ f.tag = tag ∧ f.stat = 0 ∧ lineWord f.data 0 = (s.latch i).setWidth 128 ∧
      lineWord f.data 4 = (s.latch (i + 1)).setWidth 128 ∧ (∀ j, j < 8 → j ≠ 0 → j ≠ 4 → lineWord f.data j = 0) ∧
      t = { s.countPt with ports := t.ports, seq := s.seq + 1 }) ∧
  (∀ (s : State) (port : Nat) (tag : BitVec 8) (data : LineData) (chk : LineChk) (ben : BitVec 128) (i : Nat), s.portReady port tag →
    s.serving = true → s.runs 2 = true → i < 8192 → i % 2 = 0 → cleanLine data chk (benWords ben) → ben ≠ 0 →
    bits ben.toNat 7 0 = 0 → bits ben.toNat 71 64 = 0 →
    ∃ t, exec (.write port true (BitVec.ofNat 37 (0x400000 + 64 * i)) tag data chk ben) s = .next t ∧
      Answered s t port { kind := false, tag := tag, stat := 0, data := 0, chk := 0, dup := false } ∧
      t = { s.countPt with ports := t.ports, seq := s.seq + 1 }) ∧
  (∀ (s : State) (off : BitVec 27) (value : BitVec 32) (i o : Nat), s.ctOpen = true → s.serving = true →
    ctlTarget (off.toNat / 4 * 4) = .latch i o → 8 ≤ o →
    ∀ c ∈ [Instr.captureRead off, .registerWrite off value, .controlPortWrite off value],
      exec c s = .next { s with ct := { s.ct with last := some { rdata := 0, err := false } } })

/-- WRITE on a port that takes it in its turn (R44, R45, R54, R178): a refused WRITE changes nothing but its answer; a WRITE of
clean words to a free bank or to host scratch stores its enabled bytes and nothing else; one with no byte enabled stores nothing;
one whose bank is not free waits; registers and hasps are written under their own rules. -/
def Obligations.PintleWritesStoreTheirBytes : Prop :=
  ∀ (s : State) (port : Nat) (ctl : Bool) (addr : BitVec 37) (tag : BitVec 8) (data : LineData) (chk : LineChk) (ben : BitVec 128),
    s.portReady port tag →
    let r := s.numbered { bareReq port 1 ctl addr tag with data := data, chk := chk, ben := ben }
    let c := Instr.write port ctl addr tag data chk ben
    (∀ st, s.reqStatus r = some st → (ctl = true → s.runs 2 = true) →
      ∃ t, exec c s = .next t ∧ Answered s t port (plainFlit r st) ∧ t = { s.countPt with ports := t.ports, seq := s.seq + 1 }) ∧
    (s.reqStatus r = none → cleanLine data chk (benWords ben) →
      (∀ g, ctl = false → s.regionAt addr.toNat = some g → ben ≠ 0 → s.bankWaits (g.loc addr.toNat).bank = false →
        let p := fun i => s.rowPlace (g.loc addr.toNat).bank (g.loc addr.toNat).row ((g.loc addr.toNat).byte / 128 * 8 + i) g.detect
        ∃ t, exec c s = .next t ∧ Answered s t port (plainFlit r ptOkay) ∧
          (∀ i ∈ benWords ben, s.merged t (p i) (lineWord data i) (benWord ben i)) ∧
          SameMemoryBut ((benWords ben).map (fun i => (.stack, (p i).word))) s t ∧ t.latches = s.latches) ∧
      (∀ g, ctl = false → s.regionAt addr.toNat = some g → ben ≠ 0 → s.bankWaits (g.loc addr.toNat).bank = true →
        ∃ t, exec c s = .next t ∧ (t.port port).upQ = (s.port port).upQ ∧ SameMemory s t ∧
          (t.bank (g.loc addr.toNat).bank).queue = (s.bank (g.loc addr.toNat).bank).queue ++ [.pintle r]) ∧
      (∀ g, ctl = false → s.regionAt addr.toNat = some g → ben = 0 →
        ∃ t, exec c s = .next t ∧ Answered s t port (plainFlit r ptOkay) ∧ t = { s.countPt with ports := t.ports, seq := s.seq + 1 }) ∧
      (ctl = true → s.runs 2 = true →
        (∀ i o, r.target = .latch i o →
          ∃ t, exec c s = .next t ∧ Answered s t port (plainFlit r ptOkay) ∧ t = { s.countPt with ports := t.ports, seq := s.seq + 1 }) ∧
        (∀ o rd wr, r.target = .mortar o rd wr →
          ∃ t, exec c s = .next t ∧ Answered s t port (plainFlit r ptOkay) ∧
            (∀ i ∈ benWords ben, s.merged t (mortarPlace (o + 16 * i)) (lineWord data i) (benWord ben i)) ∧
            SameMemoryBut ((benWords ben).map (fun i => (.mortar, (mortarPlace (o + 16 * i)).word))) s t ∧ t.latches = s.latches) ∧
        (r.target.isReg = true →
          ∃ d, (∀ i ∈ benWords ben, lineWord d i = lineWord data i) ∧
            exec c s = .next ((((s.accepted r).writeRegLine addr.toNat d ben r.chans).refuse r ptOkay).settle port)) ∧
        (∀ o, r.target = .hasp o →
          exec c s = .next ((((s.accepted r).writeHaspWords { r.who with src := 4 } o ben
            ((benWords ben).map (fun i => (i, lineWord data i, false)))).refuse r ptOkay).settle port))))

/-- FADD64 without ACQ, and CAS64, on a latch word (R54, R404, R406, R407, R409): the old word is returned; an FADD64 adds ADD to
VALUE modulo 2^48 and a CAS64 whose CMP equals VALUE stores SWAP, with the scope and the port recorded; every other latch and all of
memory stay; a refused one changes nothing but its answer. -/
def Obligations.PintleAtomicsReleaseALatch : Prop :=
  ∀ (s : State) (port : Nat) (ctl : Bool) (addr : BitVec 37) (tag : BitVec 8) (data : LineData) (chk : LineChk) (isCas : Bool),
    s.portReady port tag →
    let r := s.numbered { bareReq port (if isCas then 3 else 2) ctl addr tag with data := data, chk := chk }
    let c := if isCas then Instr.cas64 port ctl addr tag data chk else Instr.fadd64 port ctl addr tag data chk
    let ops := lineWord data 0
    (∀ st, s.reqStatus r = some st → (ctl = true → s.runs 2 = true) →
      ∃ t, exec c s = .next t ∧ Answered s t port (plainFlit r st) ∧ t = { s.countPt with ports := t.ports, seq := s.seq + 1 }) ∧
    (∀ i, s.reqStatus r = none → r.target = .latch i 0 → s.runs 2 = true → cleanLine data chk [0] →
      (atomicRefused isCas i ops = true →
        ∃ t, exec c s = .next t ∧ Answered s t port (plainFlit r ptBadOp) ∧ t = { s.countPt with ports := t.ports, seq := s.seq + 1 }) ∧
      (atomicRefused isCas i ops = false → (isCas = true ∨ opAcq ops = false) →
        ∃ t, exec c s = .next t ∧ Answered s t port (wordFlit r (s.latch i)) ∧
          t.latch i = (if isCas then (if latchValue (s.latch i) = opLow ops then latchWord (opHigh ops) (opScope ops) port else s.latch i)
            else latchWord ((latchValue (s.latch i) + opLow ops) % 2 ^ 48) (opScope ops) port) ∧
          (∀ j, j ≠ i → t.latch j = s.latch j) ∧
          t = { s.countPt with ports := t.ports, seq := s.seq + 1, latches := t.latches, acq := t.acq,
                               regs := { s.regs with ltWiden := t.regs.ltWiden } }))

/-- FADD64 with ACQ (R410 to R412), an acquire that its address and operands allow: with VALUE at or above TARGET it is answered
once its drain set has completed and held until then; below TARGET it is held while fewer than 1,024 are held, else it is answered
with the word and counted; no latch changes. Its window runs from the cycle in which it was accepted (R411). -/
def Obligations.PintleAcquiresHoldOrAnswer : Prop :=
  ∀ (s : State) (port : Nat) (addr : BitVec 37) (tag : BitVec 8) (data : LineData) (chk : LineChk) (at_ i : Nat),
    s.portReady port tag → s.runs 2 = true → s.regs.tmoTicks ≠ 0 → cleanLine data chk [0] →
    let r := (s.touch at_).numbered { bareReq port 2 true addr tag with data := data, chk := chk }
    let u := (s.touch at_).accepted r
    let ops := lineWord data 0
    let m := matchOf (opScope ops) (s.latch i) (s.seq + 1)
    let h : Option Matched → HeldAcquire := fun m =>
      { who := .pintle port tag, latch := i, scope := opScope ops, target := opHigh ops,
        until_ := u.now + 200 * s.regs.tmoTicks.toNat, matched := m }
    s.reqStatus r = none → r.target = .latch i 0 → atomicRefused false i ops = false → opAcq ops = true →
    ∃ t, exec (.fadd64Acquire port true addr tag data chk at_) s = .next t ∧ t.latches = s.latches ∧ SameMemory s t ∧
      (opHigh ops ≤ latchValue (s.latch i) → u.drained m = true → Answered s t port (wordFlit r (s.latch i)) ∧ t.acq = s.acq) ∧
      (opHigh ops ≤ latchValue (s.latch i) → u.drained m = false → t.acq = s.acq ++ [h (some m)] ∧ (t.port port).upQ = (s.port port).upQ) ∧
      (latchValue (s.latch i) < opHigh ops → s.heldCount < 1024 → t.acq = s.acq ++ [h none] ∧ (t.port port).upQ = (s.port port).upQ) ∧
      (latchValue (s.latch i) < opHigh ops → 1024 ≤ s.heldCount → Answered s t port (wordFlit r (s.latch i)) ∧ t.acq = s.acq ∧
        t.regs.ltFull = satAdd s.regs.ltFull 1)

/-- Operations 4 to 7 are answered BAD_OP with a KIND 0 flit of zeros and change nothing else (R44, R53). That BAD_OP comes
before ADDR_ERR, for an offset that no map holds, and before NOT_READY, for a target that is not served, is the model's choice
(DESIGN CHOICE, log 49). -/
def Obligations.PintleReservedOpsAreBad : Prop :=
  ∀ (s : State) (port : Nat) (op : BitVec 3) (ctl : Bool) (addr : BitVec 37) (tag : BitVec 8), s.portReady port tag → 4 ≤ op.toNat →
    (ctl = true → s.runs 2 = true) →
    ∃ t, exec (.pintleReservedOp port op ctl addr tag) s = .next t ∧
      Answered s t port { kind := false, tag := tag, stat := 3, data := 0, chk := 0, dup := false } ∧
      t = { s.countPt with ports := t.ports, seq := s.seq + 1 }

/-- PINTLE_RESPONSE sends the oldest response on a credit and frees its tag; held duplicates of the tag are answered next (R42, R48,
R51). UP_LINK_CREDIT returns one credit, and Crety never holds more than 32 (R42). -/
def Obligations.UpLinkSendsOnCredits : Prop :=
  (∀ (s : State) (port : Nat) (f : UpFlit) (rest : List UpFlit), port < 32 → s.linksRun = true → 0 < (s.port port).upCred →
    (s.port port).upQ = f :: rest →
    ∃ t, exec (.pintleResponse port) s = .next t ∧ (t.port port).sent = some f ∧ (t.port port).upCred = (s.port port).upCred - 1 ∧
      (f.dup = true → (t.port port).upQ = rest ∧ (t.port port).busy = (s.port port).busy) ∧
      (f.dup = false → f.tag ∉ (t.port port).busy ∧ (∀ x ∈ (t.port port).dups, x.tag ≠ f.tag) ∧
        (t.port port).upQ = rest ++ ((s.port port).dups.filter (fun r => r.tag == f.tag)).map dupFlit) ∧
      (∀ q, q ≠ port → t.port q = s.port q) ∧ t = { s.countPt with ports := t.ports }) ∧
  (∀ (s : State) (port : Nat), port < 32 → s.linksRun = true →
    ∃ t, exec (.upLinkCredit port) s = .next t ∧ (t.port port).upCred = min 32 ((s.port port).upCred + 1) ∧
      (t.port port).upQ = (s.port port).upQ ∧ (∀ q, q ≠ port → t.port q = s.port q) ∧ t = { s with ports := t.ports })

/-! ### Fabric port -/

/-- A request of a node that is no member is answered NOT_WARD before any other check, and has no other effect (R62): a beat of
a reserved type too. A beat of a reserved type from a member is answered BAD_OP (R61), also where Crety does not serve: that
BAD_OP comes before NOT_READY is the model's own (DEDUCED, log 49). An ATOM_RESP or SEAL_ACK, which answers no request of
Crety's, is counted in LATE_RESP (R73), also with the tag of an outstanding read, which is the model's choice (DESIGN CHOICE, log 57);
with CCLK stopped its event waits in the crossing (R555). But for the beats, which count for R431, nothing else changes. -/
def Obligations.OutsidersAndReservedTypesAreRefused : Prop :=
  (∀ (s : State) (src : BitVec 14) (tag : BitVec 10) (off : BitVec 38) (line : LineData) (lchk : LineChk) (data : BitVec 512)
    (chk : BitVec 64) (at_ : Nat), s.fabOpen = true → s.member src = false →
    (∀ c ∈ [Instr.rdReq src tag off, .fadd src tag off data chk, .cas src tag off data chk],
      exec c s = .next ((s.countFab 1).errResp src tag 3)) ∧
    (∀ c ∈ [Instr.wrLine src tag off line lchk at_, .sealWr src tag off line lchk at_],
      exec c s = .next (((s.touch at_).countFab 2).errResp src tag 3)) ∧
    exec (.faddAcquire src tag off data chk at_) s = .next (((s.touch at_).countFab 1).errResp src tag 3)) ∧
  (∀ (s : State) (src : BitVec 14) (type : BitVec 4) (tag : BitVec 10) (off : BitVec 38),
    let m := s.countFab (fabBeats type)
    (s.fabOpen = true → s.member src = true → 5 ≤ type.toNat →
      exec (.fabricReservedType src false type tag off) s = .next (m.errResp src tag 2)) ∧
    (s.fabOpen = true → s.member src = false → 5 ≤ type.toNat →
      exec (.fabricReservedType src false type tag off) s = .next (m.errResp src tag 3)) ∧
    (s.fabRuns = true → (type = 9 ∨ type = 10) →
      exec (.fabricReservedType src true type tag off) s = .next m.countLate ∧
      (s.runs 2 = true → m.countLate = { m with regs := { s.regs with lateResp := satAdd s.regs.lateResp 1 } }) ∧
      (s.runs 2 = false → Sparse.get 0 s.crossing sourceFab < 16 →
        m.countLate = { m with crossing := Sparse.set 0 s.crossing sourceFab (Sparse.get 0 s.crossing sourceFab + 1),
                               regs := { s.regs with lateResp := satAdd s.regs.lateResp 1 } })))

/-- RD_REQ of two latch slots is answered with their words while CCLK runs (R63), and waits in the crossing while it is stopped
(R555, R557); one of a readable Coffer line in a free bank with the line as delivered, and with the bank not free it waits, and an offset within a line is BAD_OP; every other stack offset, of another role, of no region or of no line of the Coffer that holds a parameter, is answered ADDR_ERR. -/
def Obligations.FabricReadsLatchesAndTheCoffer : Prop :=
  ∀ (s : State) (src : BitVec 14) (tag : BitVec 10) (off : BitVec 38), s.fabReady src →
    (∀ i, i < 8192 → i % 2 = 0 → off.toNat = 0x3000000000 + 64 * i →
      (s.runs 2 = true → exec (.rdReq src tag off) s = .next (((s.countFab 1).rdResp src tag (s.latchLine i)).bump)) ∧
      (s.runs 2 = false → exec (.rdReq src tag off) s = .next (({ s.countFab 1 with fab := { s.fab with crossing := s.fab.crossing ++
        [{ src := src, tag := tag, seq := s.seq, want := .read i }] } } : State).bump))) ∧
    (∀ g, inStack off.toNat = true → s.regionAt off.toNat = some g → g.role = 2 → (s.cofferAt off.toNat).isSome = true →
      off.toNat % 128 = 0 →
      (s.bankWaits (g.loc off.toNat).bank = false →
        ∃ t o, exec (.rdReq src tag off) s = .next t ∧ t.fab.fo = s.fab.fo ++ [o] ∧ o.vc = true ∧ o.type = 0x8 ∧ o.dst = src ∧
          o.tag = tag ∧ o.data = (lineOfValues (s.readStackLine { src := 0, agent := src.toNat } off.toNat).1).1 ∧
          SameMemory s t ∧ t.latches = s.latches ∧ t.ports = s.ports ∧ t.seq = s.seq + 1) ∧
      (s.bankWaits (g.loc off.toNat).bank = true →
        ∃ t, exec (.rdReq src tag off) s = .next t ∧ t.fab = s.fab ∧ SameMemory s t ∧
          (t.bank (g.loc off.toNat).bank).queue = (s.bank (g.loc off.toNat).bank).queue ++ [.fabricRead src tag off s.seq])) ∧
    (∀ g, inStack off.toNat = true → s.regionAt off.toNat = some g → g.role = 2 → (s.cofferAt off.toNat).isSome = true →
      off.toNat % 128 ≠ 0 → exec (.rdReq src tag off) s = .next (((s.countFab 1).errResp src tag 2).bump)) ∧
    (inStack off.toNat = true → (∀ g, s.regionAt off.toNat = some g → g.role = 2 → s.cofferAt off.toNat = none) →
      exec (.rdReq src tag off) s = .next (((s.countFab 1).errResp src tag 1).bump))

/-- WR_LINE of an expected contributor that passes the checks of R274: its terms go to the contributor's sum, its line is
counted and staged, and no response is sent; nothing is stored yet (R275, R279, R280). A line that check 4 of R274 refuses is
answered NOT_READY and counted LATE or STALE; one of a node that the step does not expect is answered ADDR_ERR and counted in
the step and in STRAY; the counts cross into CCLK (R555). Which closed sets LATE counts for is DEDUCED (log 52). -/
def Obligations.ContributionLinesAreTakenOrRefused : Prop :=
  (∀ (s : State) (src : BitVec 14) (tag : BitVec 10) (off : BitVec 38) (data : LineData) (chk : LineChk) (at_ w line c : Nat)
    (b : Bool) (x : Contributor), s.fabReady src → cleanLine data chk (List.range 8) → intakeWindow off.toNat = some (w, line) →
    off.toNat % 128 = 0 → (s.touch at_).acceptingSet tag = some b → (s.set b).sender src = some (c, x) → x.state = .notSealed →
    s.lineElems b w line data ≠ [] →
    ∃ t, exec (.wrLine src tag off data chk at_) s = .next t ∧ t.fab = s.fab ∧ SameMemory s t ∧
      (∀ y, (c, y) ∈ (s.set b).contribs → (c, { y with sum := y.sum + lineSum (s.lineElems b w line data), lines := y.lines + 1 }) ∈ (t.set b).contribs) ∧
      (∀ e ∈ (s.set b).contribs, e.1 ≠ c → e ∈ (t.set b).contribs) ∧
      t.ctl.staged = s.ctl.staged ++ [{ src := src, setB := b, seq := s.seq, pieces := (pieces (s.lineElems b w line data)).flatMap (s.withMarks b) }] ∧
      t.set (!b) = s.set (!b) ∧ t.regs = s.regs) ∧
  (∀ (s : State) (src : BitVec 14) (tag : BitVec 10) (off : BitVec 38) (data : LineData) (chk : LineChk) (at_ w line : Nat),
    s.fabReady src → cleanLine data chk (List.range 8) → intakeWindow off.toNat = some (w, line) → off.toNat % 128 = 0 →
    ((s.touch at_).acceptingSet tag = none →
      ∃ t, exec (.wrLine src tag off data chk at_) s = .next t ∧ t.fab.fo = (s.errResp src tag 5).fab.fo ∧ SameMemory s t ∧
        t.ctl = s.ctl ∧ t.regs = ((s.touch at_).countStale tag).regs ∧
        (s.runs 2 = true → t.regs = (if (s.touch at_).lateKey tag then { s.regs with late := satAdd s.regs.late 1 }
          else { s.regs with stale := satAdd s.regs.stale 1 }))) ∧
    (∀ b, (s.touch at_).acceptingSet tag = some b → (s.set b).sender src = none →
      ∃ t, exec (.wrLine src tag off data chk at_) s = .next t ∧ t.fab.fo = (s.errResp src tag 1).fab.fo ∧ SameMemory s t ∧
        (t.set b).stray = satAdd (s.set b).stray 1 ∧
        (s.runs 2 = true → t.regs = { s.regs with stray := satAdd s.regs.stray 1 })))

/-- SEAL_WR whose fields meet R282 is held: the contributor's seal waits for its lines and no response is sent yet (R66).
SEAL_RELEASE, of a seal in either set (R66, R282, R284): once every earlier line of its node has been added, the seal is
answered SEAL_ACK, its contributor is GOOD when sum and lines agree and BAD otherwise, and the step closes with cause ALL_SEALED
when it was the last; a deadline that has come closes its step before (R284). -/
def Obligations.SealsWaitForTheirLinesAndClose : Prop :=
  (∀ (s : State) (src : BitVec 14) (tag : BitVec 10) (off : BitVec 38) (data : LineData) (chk : LineChk) (at_ : Nat) (b : Bool),
    s.fabReady src → cleanLine data chk (List.range 8) → off.toNat = sealLine → (s.touch at_).acceptingSet tag = some b →
    (s.set b).sealOk src tag (lineBytes data) = true →
    ∃ t, exec (.sealWr src tag off data chk at_) s = .next t ∧ t.fab = s.fab ∧ SameMemory s t ∧ t.regs = s.regs ∧
      (t.set b).seals = (s.set b).seals ++
        [{ contrib := field (lineBytes data) 4 2, src := src, tag := tag, checksum := BitVec.ofNat 64 (field (lineBytes data) 16 8),
           lines := BitVec.ofNat 32 (field (lineBytes data) 24 4), stamp := (s.touch at_).now, seq := s.seq }] ∧
      (∀ e ∈ (t.set b).contribs, e.1 = field (lineBytes data) 4 2 → e.2.state = .held) ∧
      t.set (!b) = s.set (!b) ∧ t.ctl.staged = s.ctl.staged) ∧
  (∀ (s : State) (c : Nat), s.serving = true → exec (.sealRelease c) s = exec (.sealRelease c) s.deadlineClose) ∧
  (∀ (s : State) (c : Nat) (b : Bool) (h : HeldSeal) (x : Contributor), s.serving = true →
    (∀ b, (s.set b).held = true → (s.set b).state = .opened → s.now < 200 * (s.set b).deadline.toNat) →
    (s.set b).seals.find? (fun y => y.contrib == c && s.linesAdded y.src y.seq) = some h →
    (b = true → s.ctl.setA.seals.find? (fun y => y.contrib == c && s.linesAdded y.src y.seq) = none) →
    (s.set b).contribs.find? (fun e => e.1 == c) = some (c, x) →
    ∃ t, exec (.sealRelease c) s = .next t ∧ t.fab.fo = (s.sealAck h.src h.tag).fab.fo ∧ SameMemory s t ∧ t.set (!b) = s.set (!b) ∧
      h ∉ (t.set b).seals ∧
      (∀ e ∈ (t.set b).contribs, e.1 = c → e.2.state = if x.sum = h.checksum ∧ x.lines = h.lines then .good else .bad) ∧
      ((s.set b).state = .opened → (∀ e ∈ (t.set b).contribs, e.2.state = .good ∨ e.2.state = .bad) →
        (t.set b).closed = true ∧ (t.set b).cause = 1 ∧ (t.set b).state = .sealing ∧ (t.set b).closeTick = s.clk.tick) ∧
      ((∃ e ∈ (t.set b).contribs, e.2.state ≠ .good ∧ e.2.state ≠ .bad) → (t.set b).closed = (s.set b).closed))

/-- FADD without ACQ and CAS on a latch (R64, R67, R406, R407, R416): performed at once where every earlier line of the node has
been added and none of its releases is held, with the old word in ATOM_RESP and agent 49 recorded; else held in order; while CCLK is
stopped it waits in the crossing (R555, R557). HELD_RELEASE performs the node's oldest held release once every earlier line of the
node has been added (R416). -/
def Obligations.FabricAtomicsReleaseInOrder : Prop :=
  (∀ (s : State) (src : BitVec 14) (tag : BitVec 10) (off : BitVec 38) (data : BitVec 512) (chk : BitVec 64) (i : Nat) (isCas : Bool),
    s.fabReady src → i < 8192 → off.toNat = 0x3000000000 + 64 * i → cleanLine (data.setWidth 1024) (chk.setWidth 128) [0] →
    let ops := lineWord (data.setWidth 1024) 0
    let c := if isCas then Instr.cas src tag off data chk else Instr.fadd src tag off data chk
    atomicRefused isCas i ops = false → (isCas = true ∨ opAcq ops = false) →
    (s.runs 2 = true → (s.linesAdded src s.seq && s.fab.held.all (fun h => h.src != src)) = true →
      ∃ t, exec c s = .next t ∧ t.fab.fo = (s.atomResp src tag (s.latch i)).fab.fo ∧
        t.latch i = (if isCas then (if latchValue (s.latch i) = opLow ops then latchWord (opHigh ops) (opScope ops) 49 else s.latch i)
          else latchWord ((latchValue (s.latch i) + opLow ops) % 2 ^ 48) (opScope ops) 49) ∧
        (∀ j, j ≠ i → t.latch j = s.latch j) ∧ SameMemory s t ∧ t.fab.held = s.fab.held) ∧
    (s.runs 2 = true → (s.linesAdded src s.seq && s.fab.held.all (fun h => h.src != src)) = false →
      exec c s = .next (({ s.countFab 1 with fab := { s.fab with held := s.fab.held ++
        [{ src := src, tag := tag, isCas := isCas, latch := i, data := ops, seq := s.seq }] } } : State).bump)) ∧
    (s.runs 2 = false →
      exec c s = .next (({ s.countFab 1 with fab := { s.fab with crossing := s.fab.crossing ++
        [{ src := src, tag := tag, seq := s.seq, want := .release isCas i ops }] } } : State).bump))) ∧
  (∀ (s : State) (a : FabAtomic) (pre post : List FabAtomic), s.serving = true → s.runs 2 = true → s.fab.held = pre ++ a :: post →
    (∀ x ∈ pre, x.src ≠ a.src) → s.linesAdded a.src a.seq = true →
    ∃ t, exec (.heldRelease a.src) s = .next t ∧ t.fab.held = pre ++ post ∧
      t.fab.fo = (s.atomResp a.src a.tag (s.latch a.latch)).fab.fo ∧
      t.latch a.latch = (match atomicRelease a.isCas a.data (s.latch a.latch) with
        | some v => latchWord v (opScope a.data) 49
        | none => s.latch a.latch) ∧
      (∀ j, j ≠ a.latch → t.latch j = s.latch j) ∧ SameMemory s t ∧ t.ports = s.ports)

/-- FADD with ACQ on the fabric (R410 to R412): as FADD64 with ACQ, answered by ATOM_RESP; while CCLK is stopped it waits in the
crossing, its window running from the cycle in which it was accepted (R411, R555, R557). -/
def Obligations.FabricAcquiresHoldOrAnswer : Prop :=
  ∀ (s : State) (src : BitVec 14) (tag : BitVec 10) (off : BitVec 38) (data : BitVec 512) (chk : BitVec 64) (at_ i : Nat),
    s.fabReady src → s.regs.tmoTicks ≠ 0 → i < 8192 → off.toNat = 0x3000000000 + 64 * i → cleanLine (data.setWidth 1024) (chk.setWidth 128) [0] →
    let u := s.touch at_
    let ops := lineWord (data.setWidth 1024) 0
    let m := matchOf (opScope ops) (s.latch i) s.seq
    let h : Option Matched → HeldAcquire := fun m =>
      { who := .peer src tag, latch := i, scope := opScope ops, target := opHigh ops,
        until_ := u.now + 200 * s.regs.tmoTicks.toNat, matched := m }
    atomicRefused false i ops = false → opAcq ops = true →
    (s.runs 2 = false →
      exec (.faddAcquire src tag off data chk at_) s = .next (({ u.countFab 1 with fab := { s.fab with crossing := s.fab.crossing ++
        [{ src := src, tag := tag, seq := s.seq, want := .acquire i (opScope ops) (opHigh ops) u.now }] } } : State).bump)) ∧
    (s.runs 2 = true →
    ∃ t, exec (.faddAcquire src tag off data chk at_) s = .next t ∧ t.latches = s.latches ∧ SameMemory s t ∧ t.ports = s.ports ∧
      (opHigh ops ≤ latchValue (s.latch i) → u.drained m = true →
        t.fab.fo = (s.atomResp src tag (s.latch i)).fab.fo ∧ t.acq = s.acq) ∧
      (opHigh ops ≤ latchValue (s.latch i) → u.drained m = false → t.acq = s.acq ++ [h (some m)] ∧ t.fab = s.fab) ∧
      (latchValue (s.latch i) < opHigh ops → s.heldCount < 1024 → t.acq = s.acq ++ [h none] ∧ t.fab = s.fab) ∧
      (latchValue (s.latch i) < opHigh ops → 1024 ≤ s.heldCount →
        t.fab.fo = (s.atomResp src tag (s.latch i)).fab.fo ∧ t.acq = s.acq ∧ t.regs.ltFull = satAdd s.regs.ltFull 1))

/-- Responses to outbound reads (R70 to R73, R151, R358), with FCLK running and the port up (R557, R571). A line that arrives in
its window is stored at its place of the destination as delivered; a line that ERR_RESP or REMOTE_TIMEOUT loses is stored
poisoned, and its cause crosses into CCLK and is set; where the bank is not free the line waits in the bank's queue; then the
pulls go on. A response outside every window is counted and has no other effect but its beats (R431), and without a clock no beat
transfers. What the
pull's own counters hold, and that a line is taken to its bank in the cycle in which it arrives, are the model's own (DEDUCED,
log 57). -/
def Obligations.PulledLinesAreStored : Prop :=
  ∀ (s : State) (tag : BitVec 10) (data : LineData) (chk : LineChk) (stat : BitVec 3) (at_ l : Nat) (o : OutRead) (p : Pull)
    (g : Region),
    (s.fabRuns = false → exec (.rdResp tag data chk at_) s = .next s ∧ exec (.errResp tag stat at_) s = .next s) ∧
    (s.fabRuns = true → (s.touch at_).fab.outbound.find? (fun x => x.tag == tag && decide ((s.touch at_).now < x.until_)) = none →
      let m := fun (beats : Nat) => (s.touch at_).countFab beats
      exec (.rdResp tag data chk at_) s = .next (m 2).countLate ∧ exec (.errResp tag stat at_) s = .next (m 1).countLate ∧
      (s.runs 2 = true → ∀ n, (m n).countLate = { m n with regs := { s.regs with lateResp := satAdd s.regs.lateResp 1 } })) ∧
    (o.what = .line l → s.pullOf o.hasp = some p → p.hasp = o.hasp → s.regionAt (p.dst + 128 * l) = some g →
      let k := (g.loc (p.dst + 128 * l)).bank
      let ps := s.linePlaces (g.loc (p.dst + 128 * l)) g.detect
      let taken := fun (u : State) (vs : List (BondData × Bool)) (bad : Nat) (late : Bool) =>
        (∃ q, u.pullOf o.hasp = some q ∧ q.arrived = p.arrived + 1 ∧ q.bad = p.bad + bad ∧ q.timedOut = (p.timedOut || late)) ∧
        (∀ x ∈ u.fab.outbound, x.tag ≠ o.tag) ∧
        (s.bankWaits k = false →
          (∀ e ∈ List.zip ps vs, u.placeData e.1 = e.2.1 ∧ u.placeSyn e.1 = if e.2.2 = true then poisonMask else 0) ∧
          SameMemoryBut (ps.map (fun q => (q.space, q.word))) s u) ∧
        (s.bankWaits k = true →
          (u.bank k).queue = (s.bank k).queue ++ [.line false (p.dst + 128 * l) vs s.seq] ∧ SameMemory s u)
      (s.fabRuns = true → (s.touch at_).fab.outbound.find? (fun x => x.tag == tag && decide ((s.touch at_).now < x.until_)) = some o →
        (cleanLine data chk (List.range 8) →
          ∃ u : State, exec (.rdResp tag data chk at_) s = .next (u.pumpPulls pumpFuel) ∧
            taken u ((List.range 8).map (fun i => (lineWord data i, false))) 0 false) ∧
        ∃ u : State, exec (.errResp tag stat at_) s = .next (u.pumpPulls pumpFuel) ∧ taken u lostPullLine 1 false ∧
          u.regs = (s.crossIrq sourceFab .remoteError).regs) ∧
      (s.fab.outbound.find? (fun x => x.tag == tag && decide (x.until_ ≤ s.now)) = some o →
        ∃ u : State, exec (.remoteTimeout tag) s = .next (u.pumpPulls pumpFuel) ∧ taken u lostPullLine 1 true ∧
          u.regs = (s.crossIrq sourceFab .remoteTimeout).regs))

/-! ### Latches and the control port -/

/-- ACQUIRE_DONE answers a matched acquire with its word once its drain set has completed (R410); ACQUIRE_TIMEOUT answers one whose
window ended without a match with the latch's word and counts it (R411). It leaves the hold; then the ports go on. -/
def Obligations.HeldAcquiresAreAnswered : Prop :=
  ∀ (s : State) (i : Nat) (h : HeldAcquire), s.runs 2 = true → s.acq[i]? = some h →
    (∀ m, h.matched = some m → s.drained m = true →
      exec (.acquireDone i) s = .next (({ s with acq := s.acq.eraseIdx i } : State).acqOkay h.who m.word).drainPorts) ∧
    (∀ m, h.matched = some m → s.drained m = false → exec (.acquireDone i) s = .next s) ∧
    (h.matched = none → h.until_ ≤ s.now →
      exec (.acquireTimeout i) s = .next
        (({ s with acq := s.acq.eraseIdx i, regs := { s.regs with ltTmo := satAdd s.regs.ltTmo 1 } } : State).acqOkay h.who
          (s.latch h.latch)).drainPorts)

/-- A control-port read of a low half captures the whole value, so that the next read of the high half returns the half that was
captured (R46, R77, R521), and CY_TICK_PHASE the phase of that cycle, also after the high half was read; an unmapped word is
answered with CT_ERR and zero (R76). The low half of a latch word captures the word as it stood (R77), whatever happens to the latch
before its high half is read. The 64-bit registers are CY_VERSION, the tick, CY_EPOCH and DB_SESSION_TICK (R523, R527, R539); the PL_
registers and the words of ER_LOG are 32-bit words (R187, R532, R538), and a read of one captures nothing. That each captured part serves one read and outlives the reading of the other is the
model's own (DEDUCED, log 58). -/
def Obligations.ControlPortCapturesLowHalves : Prop :=
  ∀ s : State, s.ctOpen = true →
    (∀ off ∈ [0x0000, 0x0010, 0x0020, 0x4010],
      ∃ t, exec (.captureRead (BitVec.ofNat 27 off)) s = .next t ∧ t.ct.last = some { rdata := s.readGlobal off, err := false } ∧
        t = { s with ct := t.ct } ∧
        ∀ u : State, u.ct = t.ct → u.ctOpen = true →
          ∃ v, exec (.captureRead (BitVec.ofNat 27 (off + 4))) u = .next v ∧
            v.ct.last = some { rdata := s.readGlobal (off + 4), err := false } ∧ v = { u with ct := v.ct }) ∧
    (∃ t, exec (.captureRead 0x10) s = .next t ∧
      ∀ u : State, u.ct = t.ct → u.ctOpen = true →
        ∃ v, exec (.captureRead 0x14) u = .next v ∧
          ∀ w : State, w.ct = v.ct → w.ctOpen = true →
            ∃ z, exec (.captureRead 0x18) w = .next z ∧ z.ct.last = some { rdata := BitVec.ofNat 32 s.clk.phase, err := false }) ∧
    (∀ i, i < 8192 → s.serving = true →
      ∃ t, exec (.captureRead (BitVec.ofNat 27 (0x400000 + 64 * i))) s = .next t ∧
        t.ct.last = some { rdata := (s.latch i).setWidth 32, err := false } ∧ t = { s with ct := t.ct } ∧
        ∀ u : State, u.ct = t.ct → u.ctOpen = true → u.serving = true →
          ∃ v, exec (.captureRead (BitVec.ofNat 27 (0x400000 + 64 * i + 4))) u = .next v ∧
            v.ct.last = some { rdata := (s.latch i).extractLsb' 32 32, err := false } ∧ v = { u with ct := v.ct } ∧
            ∀ w : State, w.ct = v.ct → w.ctOpen = true → w.serving = true →
              ∃ z, exec (.captureRead (BitVec.ofNat 27 (0x400000 + 64 * i + 4))) w = .next z ∧
                z.ct.last = some { rdata := (w.latch i).extractLsb' 32 32, err := false }) ∧
    (∀ off, off % 4 = 0 → (0x2000 ≤ off ∧ off < 0x20A0 ∨ 0x3800 ≤ off ∧ off < 0x4000) →
      exec (.captureRead (BitVec.ofNat 27 off)) s =
        .next { s with ct := { s.ct with last := some { rdata := s.readGlobal off, err := false } } }) ∧
    (∀ off : BitVec 27, ctlTarget (off.toNat / 4 * 4) = .unmapped →
      exec (.captureRead off) s = .next { s with ct := { s.ct with last := some { rdata := 0, err := true } } })

/-! ### Budget interface and supply -/

/-- PWR_CAP_LVL_CHANGE while Crety serves (R441): the level is in force, the bucket is clamped to the new capacity, and the
allowances go down at once or stay; in a deadbolt sequence it is ignored (R456), and while REFCLK is stopped it waits at the pins
(R79, R557). SENSE_SAMPLE keeps the rail's sample with the VDD_C
value of its moment, and counts an overrun (R81, R445). -/
def Obligations.BudgetInterfaceTakesEffectAtOnce : Prop :=
  (∀ (s : State) (level : BitVec 4) (at_ : Nat), s.serving = true → s.runs 4 = true →
    ∃ t, exec (.pwrCapLvlChange level at_) s = .next t ∧ t.plumb.capLvl = level ∧
      (∀ w, ({ s.plumb with capLvl := level } : Plumb).ceil = some w → t.plumb.level = min s.plumb.level ((8 * ceilEnergy w : Nat) : Int)) ∧
      t.plumb.allow ≤ s.plumb.allow ∧ t.plumb.ksAllow ≤ s.plumb.ksAllow ∧
      t.plumb = { s.plumb with capLvl := level, level := t.plumb.level, tickFlags := t.plumb.tickFlags, allow := t.plumb.allow,
                               ksAllow := t.plumb.ksAllow } ∧
      t = { s with clk := (s.touch at_).clk, plumb := t.plumb, chans := t.chans }) ∧
  (∀ (s : State) (level : BitVec 4) (at_ : Nat), (s.start.mode = .deadbolt ∨ s.start.mode = .dark) → s.runs 4 = true →
    exec (.pwrCapLvlChange level at_) s = .next (s.touch at_)) ∧
  (∀ (s : State) (level : BitVec 4) (at_ : Nat), s.runs 4 = false →
    exec (.pwrCapLvlChange level at_) s = .next { s with plumb := { s.plumb with capPin := some level } }) ∧
  (∀ (s : State) (rail : BitVec 2) (data : BitVec 16) (at_ : Nat), s.serving = true → s.plumb.samples.length = 4 →
    ∃ t, exec (.senseSample rail data at_) s = .next t ∧
      t.plumb.samples.getD rail.toNat none = some (data, s.plumb.vddcMv.getD s.clk.pt.toNat 0) ∧
      (∀ r, r ≠ rail.toNat → t.plumb.samples.getD r none = s.plumb.samples.getD r none) ∧
      t.plumb.senseOver = (if (s.plumb.samples.getD rail.toNat none).isSome then satAdd s.plumb.senseOver 1 else s.plumb.senseOver) ∧
      t = { s with clk := (s.touch at_).clk, plumb := { s.plumb with samples := t.plumb.samples, senseOver := t.plumb.senseOver } })

/-- SAG_ACCEPT while Crety serves (R83, R351, R359, R412, R451, R452, R543): nothing stays held or queued, courses and
background commands end, the intake is dropped, the debug session ends, and a valid spill record of cause SAG stands; record
writes complete where SCLK runs and the banks of the record take commands. A second sag has no effect (R84), nor has one after SHUTDOWN (R502). That all of this happens in the one
command is the model's own (DEDUCED, log 41). -/
def Obligations.SagBringsCretyToRest : Prop :=
  (∀ (s : State) (at_ : Nat), s.serving = true → (s.runs 4 || s.runs 2) = true →
    ∃ t, exec (.sagAccept at_) s = .next t ∧ t.start.mode = .deadbolt ∧ t.clk.up = false ∧ t.acq = [] ∧ t.fab.held = [] ∧
      t.fab.outbound = [] ∧ (∀ p, p < 32 → (t.port p).behind = []) ∧ (∀ k, (t.bank k).queue = [] ∧ (t.bank k).course = none) ∧
      t.fab.crossing = [] ∧ t.mbox.bg = [] ∧ t.ctl.items = [] ∧ t.ctl.staged = [] ∧ t.ctl.setA.seals = [] ∧ t.ctl.setB.seals = [] ∧
      t.dbg.sessionOn = false ∧ t.start.spill.valid = true ∧ t.start.spill.cause = 1 ∧ t.start.spill.tick = s.clk.tick ∧
      (s.runs 1 = true → (∀ copy, s.endFprog.fuseHeld (lintelBank copy) = false ∧ (s.plumb.esr = false → (s.chan (lintelBank copy / 16)).sref = false)) →
        t.ctl.writing = none ∧ t.ctl.lintel = [])) ∧
  (∀ (s : State) (at_ : Nat), (s.start.mode = .deadbolt ∨ s.start.mode = .dark ∨ s.start.mode = .shut) →
    (s.runs 4 || s.runs 2) = true → exec (.sagAccept at_) s = .next (s.touch at_))

/-- DBOLT_DONE (R84, R117, R451, R468, R502): every channel that reached normal mode is in self-refresh with no REFpb owed and
every unit empty, but for one whose fuse is still being programmed (R130), the stored words stay, and DBOLT_DONE is 1; in FAILED
only DBOLT_DONE rises; elsewhere it has no effect. VDD_S_LOSS (R127, R455, R564): every word of the stack is a free value (log
8), the soft entries are lost, and the loss flag is set while VDD_C holds; Mortar and the latches stay. VDD_C_REMOVAL: the RWS
fields, the retained calibration and the loss flag are lost. -/
def Obligations.SupplyEventsFollowTheRails : Prop :=
  (∀ s : State, (s.start.mode = .deadbolt ∨ s.start.mode = .shut ∧ s.clk.dbolt = false) →
    ∃ t, exec .dboltDone s = .next t ∧ t.start.mode = (if s.start.mode = .deadbolt then .dark else .shut) ∧ t.clk.dbolt = true ∧
      SameMemory s t ∧ t.latches = s.latches ∧ t.regs = s.regs ∧ t.ctl = s.ctl ∧
      (∀ c, c < 256 → (t.chan c).trained = (s.chan c).trained ∧
        ((s.chan c).trained = true → (s.chan c).fprogHold = false → (t.chan c).sref = true) ∧
        (((s.chan c).trained = false ∨ (s.chan c).fprogHold = true) → (t.chan c).sref = (s.chan c).sref)) ∧
      (∀ k, k < 4096 → (s.chan (k / 16)).trained = true → (s.chan (k / 16)).sref = false → (s.chan (k / 16)).fprogHold = false →
        (t.bank k).owed = 0) ∧
      (∀ k, (s.chan (k / 16)).fprogHold = false →
        (t.bank k).course = none ∧ (t.bank k).scalars = [] ∧ ∀ c, (t.bank k).ctx.getD c .empty = .empty)) ∧
  (∀ s : State, s.start.mode = .failed → s.start.sagInFail = true →
    exec .dboltDone s = .next { s with clk := { s.clk with dbolt := true } }) ∧
  (∀ s : State, (s.start.mode = .serving ∨ s.start.mode = .starting ∨ s.start.mode = .reset ∨ s.start.mode = .dark) →
    exec .dboltDone s = .next s) ∧
  (∀ s : State,
    ∃ t, exec .vddSLoss s = .next t ∧ t.start.vddsFlag = (s.start.vddsFlag || !s.start.vddcOff) ∧
      t.clk = { s.clk with vddsNear := false } ∧ s.free < t.bg ∧
      (∀ w, t.word .stack w = (Config.lostWord t.bg w, Config.lostSyn t.bg w)) ∧ t.mortar = s.mortar ∧
      t.hasps = s.hasps ∧ t.latches = s.latches ∧ (∀ k, t.bank k = { s.bank k with soft := [] }) ∧ t.chans = s.chans ∧ t.regs = s.regs ∧
      t.mbox = s.mbox ∧ t.start.mode = s.start.mode) ∧
  (∀ s : State,
    exec .vddCRemoval s =
      .next { s with start := { s.start with vddsFlag := false, vddcOff := true, retained := none, forceCold := false,
                                             forceTrain := false, fwWait := 5000 } })

/-! ### Reset and start -/

/-- SAG_CLEAR_START begins a start (R84, R85, R386, R412, R465, R543): DBOLT_DONE falls, no slate holds a cell, no acquire and no
session stay, the ports are not yet up, and with a sensor above 105 °C it waits in phase 2. CY_RST_N_DEASSERT does the same with
time at zero and the Reset columns (R464, R525, R527, R533), and keeps the RWS fields, the fuses and the TAP's own state (R91);
STK_RST_N stays low up to phase 3 (R563). CY_RST_N_ASSERT (R87, R90, R127,
R543): ports, the hasps' queue, acquires, interrupts and time are reset and no request is answered; the contents of the stack and of
Mortar stay, soft entries are lost and fused spares are not. -/
def Obligations.ResetAbandonsAndStartsBeginAfresh : Prop :=
  (∀ (s : State) (envs : List StartEnv), s.start.mode = .dark →
    ∃ t, exec (.sagClearStart envs) s = .next t ∧ t.clk.dbolt = false ∧ t.clk.up = false ∧ t.slates = [] ∧ t.acq = [] ∧
      t.dbg.sessionOn = false ∧ t.clk.tick = s.clk.tick ∧ (t.start.mode = .starting ∨ t.start.mode = .failed) ∧
      (∀ e rest, envs = e :: rest → e.railsOk = true → s.start.sagInStart = false → (s.readSensors e.temps).coolEnough = false →
        t.start.mode = .starting ∧ t.start.kind = .warmNoReset ∧ t.start.phase = 2 ∧ t.start.wait = .thermal ∧ t.start.waitFrom = s.now)) ∧
  (∀ (s : State) (envs : List StartEnv), s.start.mode ≠ .dark → exec (.sagClearStart envs) s = .next s) ∧
  (∀ (s : State) (envs : List StartEnv), s.start.mode = .reset →
    ∃ t, exec (.cyRstNDeassert envs) s = .next t ∧ t.clk.tick = 0 ∧ t.clk.phase = 0 ∧ t.clk.up = false ∧ t.clk.dbolt = false ∧
      t.slates = [] ∧ t.acq = [] ∧ t.dbg.tap = s.dbg.tap ∧ t.dbg.ir = s.dbg.ir ∧ t.dbg.dr = s.dbg.dr ∧ t.regs.lock = false ∧ t.regs.noUnlock = false ∧ t.dbg.sessionOn = false ∧
      t.start.forceCold = s.start.forceCold ∧ t.start.forceTrain = s.start.forceTrain ∧ t.start.fwWait = s.start.fwWait ∧
      t.start.fuseSvn = s.start.fuseSvn ∧ (t.start.mode = .starting ∨ t.start.mode = .failed) ∧
      (∀ e rest, envs = e :: rest → e.clocksOk = true → e.railsOk = true → (s.readSensors e.temps).coolEnough = false →
        t.start.mode = .starting ∧ t.start.phase = 2 ∧ t.start.wait = .thermal ∧ t.start.waitFrom = 0 ∧ t.clk.pt = e.aclkPt ∧
        t.clk.stkRstN = false ∧ t.rings = [])) ∧
  (∀ (s : State) (envs : List StartEnv), s.start.mode ≠ .reset → exec (.cyRstNDeassert envs) s = .next s) ∧
  (∀ s : State, s.start.mode ≠ .reset →
    ∃ t, exec .cyRstNAssert s = .next t ∧ t.start.mode = .reset ∧ t.clk = Clock.init ∧ t.ports = [] ∧ t.acq = [] ∧ t.fab.up = false ∧
      t.fab.fo = s.fab.fo ∧ t.fab.ready = [] ∧ t.fab.held = [] ∧ t.fab.crossing = [] ∧ t.fab.outbound = [] ∧ t.dbg.access = none ∧ t.dbg.busy = .idle ∧
      t.dbg.tap = s.dbg.tap ∧ t.ctl.lintel = [] ∧ t.mbox.queue = [] ∧ t.mbox.active = none ∧ t.mbox.bg = [] ∧
      t.dbg.sessionOn = false ∧ t.regs.irqStatus = 0 ∧ t.regs.irqEnable = 0 ∧ t.ctl.staged = [] ∧ t.stack = s.stack ∧ t.bg = s.bg ∧
      t.mortar = s.mortar ∧ t.hasps = s.hasps ∧ t.latches = s.latches ∧
      (∀ k, (t.bank k).soft = [] ∧ (t.bank k).owed = 0 ∧ (t.bank k).course = none ∧ ∀ x ∈ (s.bank k).fused, x ∈ (t.bank k).fused)) ∧
  (∀ s : State, s.start.mode = .reset → exec .cyRstNAssert s = .next s)

/-- Waits of a start (R14, R465, R467, R468, R475): with a sensor still above 105 °C the start waits on, and with none in the 10
s goes on; when the wait has lasted 10 s, or END has not come within FW_WAIT, the attempt fails with cause 3 or 6, and a third
cold failure is FAILED with every trained channel in self-refresh. The load window (R475), while phase 6 waits for an image and
CCLK runs: FW_LOAD_START empties the load, FW_LOAD_DATA appends four bytes, FW_LOAD_END ends it; an image that R474 refuses
fails the attempt with cause 7, and the third cold one in FAILED. Elsewhere they have no effect (log 21). -/
def Obligations.StartWaitsEndInTheirCauses : Prop :=
  (∀ (s : State) (temps : List (BitVec 16)) (envs : List StartEnv), s.start.mode = .starting → s.start.wait = .thermal →
    ((s.readSensors temps).coolEnough = false → s.now < s.start.waitFrom + thermalLife →
      exec (.startThermalWait temps envs) s = .next (s.readSensors temps)) ∧
    (s.start.waitFrom + thermalLife ≤ s.now → s.start.kind = .cold → s.start.seqCold = 2 →
      ∃ t, exec (.startThermalWait temps envs) s = .next t ∧ t.start.mode = .failed ∧ t.start.cause = 3 ∧ t.start.phase = 0 ∧
        t.clk.up = false ∧ (∀ c, c < 256 → (s.chan c).trained = true → (s.chan c).fprogHold = false → (t.chan c).sref = true)) ∧
    ((s.readSensors temps).coolEnough = true → s.now < s.start.waitFrom + thermalLife →
      exec (.startThermalWait temps envs) s = .next (State.attempts
        (({ s.readSensors temps with start := { s.start with wait := .ports } } : State).phases3 (envs.headD noEnv)) envs.tail
        maxAttempts))) ∧
  (∀ (s : State) (envs : List StartEnv), s.imageWaits = true → s.loadEnds ≤ s.now → s.start.loadState ≠ 2 → s.start.kind = .cold →
    s.start.seqCold = 2 →
    ∃ t, exec (.fwWaitExpiry envs) s = .next t ∧ t.start.mode = .failed ∧ t.start.cause = 6 ∧ t.start.phase = 0 ∧ t.clk.up = false ∧
      (∀ c, c < 256 → (s.chan c).trained = true → (s.chan c).fprogHold = false → (t.chan c).sref = true)) ∧
  (∀ (s : State) (envs : List StartEnv), s.imageWaits = true → s.loadEnds ≤ s.now → s.start.loadState ≠ 2 →
    exec (.fwWaitExpiry envs) s = .next (State.attempts (.fail
      { s with start := { s.start with loadState := 0, wait := .ports } } 6) envs maxAttempts)) ∧
  (∀ (s : State) (envs : List StartEnv), s.now < s.loadEnds → exec (.fwWaitExpiry envs) s = .next s) ∧
  (∀ s : State, s.loadOpen = true → s.runs 2 = true →
    exec .fwLoadStart s = .next { s with start := { s.start with loadState := 1, load := .empty } } ∧
    (∀ word, s.start.loadState = 1 →
      ∃ t, exec (.fwLoadData word) s = .next t ∧ t.start.load.len = s.start.load.len + 4 ∧
        ((∀ e ∈ s.start.load.bytes, e.1 < s.start.load.len) →
          bytesOf t.start.load.bytes s.start.load.len 4 = leBytes 4 word.toNat ∧
          bytesOf t.start.load.bytes 0 s.start.load.len = bytesOf s.start.load.bytes 0 s.start.load.len) ∧
        t = { s with start := { s.start with load := t.start.load } }) ∧
    (∀ word, s.start.loadState ≠ 1 → exec (.fwLoadData word) s = .next s) ∧
    (∀ envs, s.start.loadState = 1 → (s.imageBad s.start.load).isSome = true → s.start.kind = .cold → s.start.seqCold = 2 →
      ∃ t, exec (.fwLoadEnd envs) s = .next t ∧ t.start.mode = .failed ∧ t.start.cause = 7 ∧ t.start.loadState = 3 ∧ t.clk.up = false) ∧
    (∀ envs, s.start.loadState = 1 → s.imageBad s.start.load = none →
      exec (.fwLoadEnd envs) s = .next (State.attempts (({ s with start := { s.start with loadState := 0, wait := .ports } } : State).phases7
        (envs.headD noEnv) s.start.load) envs.tail maxAttempts))) ∧
  (∀ s : State, (s.loadOpen = false ∨ s.runs 2 = false) → exec .fwLoadStart s = .next s ∧ (∀ word, exec (.fwLoadData word) s = .next s) ∧
    ((s.start.loadState ≠ 2 ∨ s.runs 2 = false) → ∀ envs, exec (.fwLoadEnd envs) s = .next s))

/-- START_COMPLETE (R88, R90, R436, R452, R489, R528): Crety serves, CY_UP is 1, PHASE is 0 with KIND of the start, the spill
record and the loss flag are cleared, the bucket is full, nothing that the start used is counted (R444) and START_DONE is set;
without a clock on FCLK the fabric port is down.
A cold start writes its record now (R346), and no other word changes. That a cold start writes its record as it ends is the
model's own (DEDUCED, log 43). -/
def Obligations.StartCompleteBringsThePortsUp : Prop :=
  ∀ (s : State) (fclkOk : Option Bool), s.start.mode = .starting → s.start.wait = .ports → s.start.phase = 12 →
    ∃ t, exec (.startComplete fclkOk) s = .next t ∧ t.serving = true ∧ t.clk.up = true ∧ t.start.phase = 0 ∧
      t.start.lastKind = s.start.kind.code ∧ t.start.spill.copy0 = false ∧ t.start.spill.copy1 = false ∧ t.start.vddsFlag = false ∧
      t.fab.up = (s.fab.up || fclkOk == some true) ∧ t.start.fabricDown = !(s.fab.up || fclkOk == some true) ∧ t.regs.irqStatus.getLsbD 0 = true ∧
      t.plumb.allow = 0 ∧ t.plumb.esr = false ∧ t.plumb.ksUsed = 0 ∧ (∀ c, (t.chan c).counts = .zero) ∧ (∀ d, (t.die d).act = 0) ∧
      (∀ w, t.plumb.ceil = some w → t.plumb.level = ((8 * ceilEnergy w : Nat) : Int)) ∧
      (s.start.activate = none → t.mbox = s.mbox ∧ t.latches = s.latches ∧
        (s.start.kind ≠ .cold → SameMemory s t ∧ t.ctl = s.ctl) ∧
        (s.start.kind = .cold → s.ctl.lintel = [] → t.ctl = { s.ctl with cfgSeq := s.ctl.cfgSeq + 1, seq := s.ctl.seq + 1 } ∧
          SameMemoryBut ((s.lintelLine false ++ s.lintelLine true).map (fun p => (p.space, p.word))) s t))

/-- FCLK_RECHECK brings the fabric port up once FCLK is found (R465, R571), and the DVFS handshake stops and restarts the ACLK
leaves (R89, R526): ACLK_PT is sampled while they stand, and credits that were withheld return. CLOCK_STOPPED and CLOCK_RESTART
(R528, R537, R555, R557, R559): a stopped clock shows in STOPPED and in the sticky bit and raises CLOCK_STOPPED; while REFCLK is
stopped no unit is allowed; the bit falls when the clock and the clock that watches it run again, and what the clock held goes
on: beats that waited for FCLK transfer, every bank owes 8 REFpb after a stop of SCLK, and what waited for CCLK or REFCLK arrives.
What counts as an FCLK that has run, and that before the first check a free value tells it, are the model's choice (DESIGN CHOICE,
log 53); that STOPPED[2] still shows for 16 REFCLK cycles is DEDUCED (log 53). -/
def Obligations.ClocksAreFollowed : Prop :=
  (∀ s : State, s.start.fabricDown = true → s.start.mode ≠ .reset →
    exec (.fclkRecheck (some true)) s = .next
      (({ s with clk := { s.clk with fclkRan := some true }, fab := { s.fab with up := true },
                 start := { s.start with fabricDown := false } } : State).foFlush.pumpPulls pumpFuel) ∧
    exec (.fclkRecheck (some false)) s = .next { s with clk := { s.clk with fclkRan := some true } } ∧
    exec (.fclkRecheck none) s = .next { s with clk := { s.clk with fclkRan := some (s.clk.fclkRan == some true) } }) ∧
  (∀ s : State, s.clk.fclkRan = some false → exec (.clockStopped 3) s = .next s) ∧
  (∀ s : State, s.mayStop 3 = true → s.clk.fclkRan = none →
    (Config.fclkRan s.free = false → exec (.clockStopped 3) s = .next { s with free := s.free + 1 }) ∧
    (Config.fclkRan s.free = true → ∃ t, exec (.clockStopped 3) s = .next t ∧ t.runs 3 = false ∧ t.clk.fclkRan = some true)) ∧
  (∀ s : State, s.start.mode ≠ .reset → exec .aclkHoldRise s = .next { s with clk := { s.clk with hold := true } }) ∧
  (∀ s : State, s.clk.hold = true → exec .aclkIdle s = .next { s with clk := { s.clk with idle := true } }) ∧
  (∀ s : State, s.clk.hold = false → exec .aclkIdle s = .next s) ∧
  (∀ (s : State) (pt : BitVec 2), s.clk.hold = true →
    ∃ t : State, exec (.aclkHoldFall pt) s = .next t.goOn ∧ t.clk = { s.clk with hold := false, idle := false, pt := if s.clk.idle then pt else s.clk.pt } ∧
      t = { s with clk := t.clk, ports := t.ports } ∧
      (∀ p, p < 32 → s.start.mode ≠ .deadbolt → s.start.mode ≠ .dark → s.start.mode ≠ .failed → (s.port p).dups = [] → (s.port p).busy.length < 256 →
        t.port p = { s.port p with dnCred := 32 })) ∧
  (∀ (s : State) (d : Nat), d < 5 → s.mayStop d = true → (d = 3 → s.clk.fclkRan ≠ none) →
    ∃ t, exec (.clockStopped d) s = .next t ∧ t.runs d = false ∧ t.regs.stoppedSeen.getLsbD d = true ∧ t.regs.irqStatus.getLsbD 15 = true ∧
      (∀ e, e < 5 → e ≠ d → t.runs e = s.runs e) ∧ SameMemory s t ∧ (d ≠ 4 → t.plumb = s.plumb) ∧
      (d = 4 → t.plumb.allow = 0 ∧ t.plumb.ksAllow = 0)) ∧
  (∀ (s : State) (d : Nat), d < 5 → s.mayStop d = false → exec (.clockStopped d) s = .next s) ∧
  (∀ (s : State) (d : Nat), d < 5 → (s.runs d = true ∨ s.runs (watcher d) = false) → exec (.clockRestart d) s = .next s) ∧
  (∀ (s : State) (d : Nat), d < 5 → s.runs d = false → s.runs (watcher d) = true →
    let u : State := { s with regs := { s.regs with stopped := s.regs.stopped &&& ~~~ BitVec.ofNat 5 (2 ^ d) } }
    u.runs d = true ∧ (∀ e, e < 5 → e ≠ d → u.runs e = s.runs e) ∧
    exec (.clockRestart d) s = .next (
      if d = 1 then u.oweAll.serveAllIdle.goOn.findTrips
      else if d = 2 then
        ({ u with crossing := [], clk := { u.clk with stopShown := u.now + 16 } } : State).fabResume.drainPorts.arriveAll.goOn.sweepBad.pumpPulls
          pumpFuel
      else if d = 3 then u.foFlush.pumpPulls pumpFuel
      else if d = 4 then u.capArrives
      else u)) ∧
  (∀ (s : State) (l : BitVec 4), s.plumb.capPin = some l →
    s.capArrives = ({ s with plumb := { s.plumb with capPin := none } } : State).capLevel l) ∧
  (∀ s : State, ∀ k, k < 4096 → (s.bank k).owed < 8 → s.runs 2 = true →
    ∃ u : State, s.oweFull k = u.afterAccrual k ∧ (u.bank k).owed = 8 ∧ (u.chan (k / 16)).refFull = satAdd (s.chan (k / 16)).refFull 1)

/-! ### Stack interface -/

/-- ALERT_PULSE counts in CAPAR_CNT, sets ALERT_SEEN and sends PARCLR and then the ignored frames again in their order (R105,
R106, R534), however many of the 16 frames kept it ignored; where a record of no stated layout has gone out since, the frames kept
are free ones (log 66). While CCLK is stopped and the 16 events of the crossing wait, the
counts are dropped and OVERRUN is set (R555, R556). While SCLK is stopped no frame moves and nothing happens (R557). That the reissue lies within the command is the model's own (DEDUCED, log
26). -/
def Obligations.AlertsAreCountedAndReissued : Prop :=
  (∀ (s : State) (chan ignored : Nat), chan < 256 → s.start.mode ≠ .reset → s.runs 1 = true → s.runs 2 = true →
    ∃ t, exec (.alertPulse chan ignored) s = .next t ∧ (t.chan chan).caparCnt = satAdd (s.chan chan).caparCnt 1 ∧
      (t.chan chan).err = (s.chan chan).err ||| 1 ∧
      (t.chan chan).hist =
        ((s.frames chan).take ignored ++ BitVec.ofNat 48 (0x0B * 2 ^ 42) :: (s.chan chan).hist).take 16 ∧
      (∀ c, c ≠ chan → t.chan c = s.chan c) ∧ t = { s with chans := t.chans }) ∧
  (∀ (s : State) (chan ignored : Nat), chan < 256 → s.runs 1 = false → exec (.alertPulse chan ignored) s = .next s) ∧
  (∀ (s : State) (chan ignored : Nat), chan < 256 → s.start.mode ≠ .reset → s.runs 1 = true → s.runs 2 = false → 16 ≤ Sparse.get 0 s.crossing chan →
    ∃ t, exec (.alertPulse chan ignored) s = .next t ∧ (t.chan chan).caparCnt = (s.chan chan).caparCnt ∧
      (t.chan chan).err = (s.chan chan).err ∧ t.regs.cdcOver.getLsbD 2 = true ∧
      Sparse.get 0 t.regs.cdcCnt 2 = satAdd (satAdd (Sparse.get 0 s.regs.cdcCnt 2) 1) 1 ∧ (∀ c, c ≠ chan → t.chan c = s.chan c) ∧
      SameMemory s t)

/-- THERM_TRIP sets its bit in CH_ERR and its die's flag (R107). While Crety serves it enters emergency self-refresh: every
channel, but for one that programs a fuse (R130) or that a Lintel line may still reach behind such a fuse (R347), is in
self-refresh for COOL_TICKS at least, counted and with THERM_ESR set
(R447, R449); elsewhere the channels of the die enter self-refresh on their own, with every unit empty (R117), and so they do while
SCLK is stopped, when Crety finds it at the restart (R557). ESR_EXIT after
COOL_TICKS (R449): with every sensor at 110 °C or below the stack leaves self-refresh and serves again; with a hotter one it
goes back for another COOL_TICKS, counted and with THERM_ESR set. -/
def Obligations.SelfRefreshHoldsUntilCool : Prop :=
  let enters := fun (s : State) (c : Nat) =>
    (s.chan c).fprogHold = false ∧ (c % 128 = 0 → (s.chan 0).fprogHold = false ∧ (s.chan 128).fprogHold = false)
  (∀ (s : State) (chan : Nat), chan < 256 → s.start.mode ≠ .reset → s.runs 1 = false →
    ∃ t, exec (.thermTrip chan) s = .next t ∧ t = { s with chans := t.chans, dies := t.dies, banks := t.banks } ∧
      (t.die (chan / 16)).trip = true ∧ (∀ c, c / 16 = chan / 16 → t.chan c = { s.chan c with sref := true }) ∧
      (∀ c, c / 16 ≠ chan / 16 → t.chan c = s.chan c)) ∧
  (∀ (s : State) (chan : Nat), chan < 256 → s.start.mode ≠ .reset → s.runs 1 = true → s.runs 2 = true →
    ∃ t, exec (.thermTrip chan) s = .next t ∧ (t.chan chan).err.getLsbD 1 = true ∧ (t.die (chan / 16)).trip = true ∧
      (s.serving = true → s.plumb.esr = false →
        t.plumb.esr = true ∧
        (∀ c, c < 256 → (enters s c ∨ c / 16 = chan / 16) → (t.chan c).sref = true) ∧
        t.plumb.esrCnt = satAdd s.plumb.esrCnt 1 ∧
        t.plumb.esrUntil = s.clk.tick + s.plumb.coolTicks.setWidth 64 ∧ t.regs.irqStatus.getLsbD 12 = true) ∧
      ((s.serving = false ∨ s.plumb.esr = true) → t = { s with chans := t.chans, dies := t.dies, banks := t.banks } ∧
        (∀ c, c / 16 = chan / 16 → (t.chan c).sref = true) ∧ (∀ c, c / 16 ≠ chan / 16 → t.chan c = s.chan c) ∧
        (∀ d, d ≠ chan / 16 → t.die d = s.die d) ∧
        (∀ k, k / 256 = chan / 16 → (t.bank k).course = none ∧ ∀ c, (t.bank k).ctx.getD c .empty = .empty) ∧
        (∀ k, k / 256 ≠ chan / 16 → t.bank k = s.bank k))) ∧
  (∀ (s : State) (temps : List (BitVec 16)), s.serving = true → s.plumb.esr = true → s.runs 1 = true →
    (s.plumb.esrUntil.toNat ≤ s.clk.tick.toNat → tooHot temps = false →
      ∃ t : State, exec (.esrExit temps) s = .next (t.serveAllIdle.goOn.pumpPulls pumpFuel) ∧ t.plumb.esr = false ∧
        (∀ c, c < 256 → (t.chan c).sref = false) ∧
        (∀ d, d < 16 → (t.die d).trip = false ∧ (t.die d).sensors = (List.range 4).map (fun i => temps.getD (4 * d + i) 0))) ∧
    (s.plumb.esrUntil.toNat ≤ s.clk.tick.toNat → tooHot temps = true →
      ∃ t, exec (.esrExit temps) s = .next t ∧ t.plumb.esr = true ∧
        (∀ c, c < 256 → enters s c → (t.chan c).sref = true) ∧
        t.plumb.esrUntil = s.clk.tick + s.plumb.coolTicks.setWidth 64 ∧ t.plumb.esrCnt = satAdd s.plumb.esrCnt 1 ∧
        t.regs.irqStatus.getLsbD 12 = true) ∧
    (s.clk.tick.toNat < s.plumb.esrUntil.toNat → exec (.esrExit temps) s = .next s))

/-! ### Ticks, refresh, beds and patrols -/

/-- TICK_EDGE (R13, R211, R215, R216, R527, R529): CY_TICK goes up by one and CY_TICK_PHASE starts again, and CY_SCRUB_CTRL
applies; while Crety serves, every die takes the tier that was decided for it, every bank may have two REFpb again, new budgets
are in force, and no step moves by it. The tick that ends has first given what was left of its sector allowance (R437): where no other
work waits for it, a running export moves the lines of those sectors, 4 read and 4 written for each (R484), and PROGRESS follows. The
stack energy charged in the tick leaves the bucket (R436): with a ceiling, a tick edge takes VDD_S, VDD_B and VDD_IO energy from the
level, adds fill at the ceiling in force from the edge, and keeps the level at 8 r or below. That this is at the tick's end, and in
whole lines, is the model's choice (DESIGN CHOICE, log 61). -/
def Obligations.TickEdgeStartsTheNextTick : Prop :=
  (∀ (s : State) (n : TickCounts), s.start.mode ≠ .reset → s.runs 4 = true → s.serving = false →
    ∃ u : State, exec (.tickEdge n) s = .next u.fuseIssue.fuseFinish.edgeBanks.goOn ∧
      let p := s.payDebt
      u.clk = { p.clk with tick := s.clk.tick + 1, phase := 0, openPhase := false } ∧
      (∀ d, d < 16 → (u.die d).tier = (p.die d).nextTier) ∧
      (∀ k, (u.bank k).refs = 0 ∧ (u.bank k).owed = (p.bank k).owed ∧ (u.bank k).queue = (p.bank k).queue) ∧ SameMemory p u ∧
      u.ctl = p.ctl ∧ u.start = p.start ∧ u.regs.scrubOn = s.regs.scrubInt) ∧
  (∀ (s : State) (n : TickCounts), s.start.mode = .reset → exec (.tickEdge n) s = .next s) ∧
  (∀ (s : State) (n : TickCounts), s.serving = true → s.runs 4 = true →
    ∃ u : State, exec (.tickEdge n) s = .next ((u.edgeBanks.fuseIssue.fuseFinish.goOn.startCourses).pumpPulls pumpFuel) ∧
      let p := s.payDebt
      u.clk = { p.clk with tick := s.clk.tick + 1, phase := 0, openPhase := false } ∧
      (∀ d, d < 16 → (u.die d).tier = (p.die d).nextTier) ∧ u.plumb.wattsOn = s.plumb.watts ∧ u.plumb.capsOn = s.plumb.caps ∧
      u.plumb.hostLast = p.hostEnergy ∧ u.plumb.samples = [none, none, none, none] ∧ u.regs.scrubOn = s.regs.scrubInt ∧
      (∀ k, (u.bank k).refs = 0 ∧ (u.bank k).owed = (p.bank k).owed) ∧ SameMemory p u ∧ u.ctl = p.ctl) ∧
  (∀ s : State, s.ctl.items = [] →
    let n := min s.ctl.debt (s.ksRest / 8 * 8)
    ((n = 0 ∨ s.debtRuns = false ∨ s.runs 1 = false ∨ s.plumb.esr = true) → s.payDebt = s) ∧
    (∀ x, n ≠ 0 → s.debtRuns = true → s.runs 1 = true → s.plumb.esr = false → s.export? = some x →
      let t : State := { s with ctl := { s.ctl with debt := s.ctl.debt - n }, plumb := { s.plumb with ksUsed := s.plumb.ksUsed + n } }
      s.payDebt = (t.exportMove (s.linesMoved x s.ctl.debt) (s.linesMoved x (s.ctl.debt - n))).showExport)) ∧
  (∀ (s : State) (n : TickCounts), s.runs 4 = false → exec (.tickEdge n) s = .next s) ∧
  (∀ (s : State) (n : TickCounts) (w0 w : Nat), s.serving = true → s.runs 4 = true → s.plumb.ceil = some w0 →
    ({ s.plumb with wattsOn := s.plumb.watts, capsOn := s.plumb.caps } : Plumb).ceil = some w →
    let e := fun r => s.payDebt.plumb.charge r ((s.payDebt.modelEnergy n).getD r 0)
    ∃ u : State, exec (.tickEdge n) s = .next ((u.edgeBanks.fuseIssue.fuseFinish.goOn.startCourses).pumpPulls pumpFuel) ∧
      u.plumb.level = min (s.plumb.level - ((e 0 + e 1 + e 3 : Nat) : Int) + s.fillEnergy (ceilEnergy w)) ((8 * ceilEnergy w : Nat) : Int))

/-- REFRESH_ACCRUAL of a channel in normal mode (R209, R210, R212, R558): the accumulator takes the tier's step, or tier 2's while
REFCLK is stopped; each 16,000 owes one REFpb, up to 8. A rise to 8 is counted in REF_FULL_CNT. With a course in progress nothing
else happens before its next boundary; then record lines and Keystone work that waited go on (R203, R347). -/
def Obligations.RefreshIsOwedByTheTier : Prop :=
  ∀ (s : State) (k : Nat), k < 4096 → s.chanLive (k / 16) = true → s.runs 2 = true →
    let step := tierStep (if s.runs 4 then (s.die (k / 256)).tier else 2)
    let sum := (s.bank k).acc.toNat + step
    let owed := min 8 ((s.bank k).owed + sum / 16000)
    ∃ u : State, exec (.refreshAccrual k) s = .next (u.afterAccrual k).goOn ∧ (u.bank k).owed = owed ∧ (u.bank k).acc.toNat = sum % 16000 ∧
      (u.bank k).queue = (s.bank k).queue ∧ (∀ j, j ≠ k → u.bank j = s.bank j) ∧
      ((s.bank k).owed < 8 → owed = 8 →
        (u.chan (k / 16)).refFull = satAdd (s.chan (k / 16)).refFull 1 ∧ u = { s with clk := u.clk, banks := u.banks, chans := u.chans }) ∧
      ((8 ≤ (s.bank k).owed ∨ owed < 8) → u = { s with clk := u.clk, banks := u.banks }) ∧
      ((s.bank k).course.isSome = true → u.afterAccrual k = u) ∧
      ((s.bank k).course = none → owed < 8 → s.clk.openPhase = false → s.runs 4 = true → u.afterAccrual k = u)

/-- BED_END (R112, R116, R195, R199): the bed's work stands; where the course's context has no more work and no refresh presses, the
course ends with its context PARKED and CSTAT read, and the bank goes on; where work remains, nothing waits and a bed fits, the course
goes on with a CCONT. A unit of work of a descriptor (R377, R380, R384, R388, R389, R391) stores its outputs in its bank, poisoned where
its inputs are (R370), moves its cursor, and changes no other word; a row of a reduction with OUT_VALID goes to a slate cell (R387).
COURSE_WINDOW_END (R192, R193, R195): the open phase begins and no bank outside self-refresh runs a course. RESERVED_REFRESH_SLOT
(R204) gives a bank that owes refresh and has had none in the tick its REFpb. How much work a bed does, that a finished context is
PARKED, and which bank gets the next course are the model's own (logs 28, 59). -/
def Obligations.BedsEndOrGoOnTillTheOpenPhase : Prop :=
  (∀ (s : State) (k work : Nat) (c : Course), k < 4096 → s.serving = true → s.runs 1 = true → (s.bank k).course = some c → c.ctx < 4 →
    (s.bank k).owed < 4 → (s.bank k).patrolDue = false → s.ctl.lintel = [] →
    let u := (s.touch ((s.bank k).busyTo * 200 / 2250)).bedWork k c.ctx work
    (u.latches = s.latches ∧ (c.ctx < 2 → SameMemory s u) ∧ (c.ctx ≠ 1 → u.ctl = s.ctl) ∧ (c.ctx = 0 → (u.bank k).queue = (s.bank k).queue)) ∧
    (u.ctxWork k c.ctx = false →
      ∃ v : State, exec (.bedEnd k work) s = .next (v.afterCourse k).goOn ∧ (v.bank k).course = none ∧
        (v.bank k).ctx = setAt (u.bank k).ctx c.ctx .parked ∧ (v.bank k).cstat = (0, 0, 0) ∧ (v.bank k).queue = (u.bank k).queue ∧
        SameMemory u v ∧ v.latches = s.latches ∧ v.ctl = u.ctl) ∧
    (∀ n, u.ctxWork k c.ctx = true → u.overAllow k = false → u.mayGrant k = true → (u.bank k).queue = [] →
      (bedLen (u.grantAt k 0)).isSome = true → bedLen ((u.feed k c.ctx false).grantAt k 0) = some n →
      ∃ t : State, exec (.bedEnd k work) s = .next t.goOn ∧ (t.bank k).course = some { ctx := c.ctx, len := n } ∧
        (t.bank k).ctx = setAt (u.bank k).ctx c.ctx .paused ∧ SameMemory u t ∧ t.latches = s.latches ∧
        t.ctl = { u.ctl with staged := t.ctl.staged } ∧ t.ctl.staged.map (fun l => (l.src, l.setB, l.seq, l.pieces.map (fun p => (p.bank, p.adds)))) =
          u.ctl.staged.map (fun l => (l.src, l.setB, l.seq, l.pieces.map (fun p => (p.bank, p.adds)))))) ∧
  (∀ (s : State) (k ctx i : Nat) (f : InFlight), k < 4096 → 2 ≤ ctx → (s.ring k).flight.findIdx? (fun f => f.q % 2 == ctx - 2) = some i →
    (s.ring k).flight[i]? = some f → f.done = false →
    let d := Desc.of f.desc
    let u := s.bedWork k ctx 1
    let ws := s.unitStores k f
    let bytes := ws.flatMap (fun e => (List.range e.2.length).map (e.1 + ·))
    let n := min 128 (d.count - f.outer)
    (bytes.map (fun a => 16 * (s.ringPlace k a).word + a % 16)).Nodup →
    (∀ e ∈ ws, ∀ o, o < e.2.length → (u.ringCode k (e.1 + o) 1).1 = (e.2.getD o 0).toNat) ∧
    (∀ w, (∀ a ∈ bytes, (s.ringPlace k a).word ≠ w) → u.word .stack w = s.word .stack w) ∧ u.hasps = s.hasps ∧
    ((f.endsRow && d.outValid) = false → u.mortar = s.mortar) ∧ u.latches = s.latches ∧ (∀ j, j ≠ k → u.ring j = s.ring j) ∧
    (d.elementwise = true → (ringFmt d.fmtO).isSome = true →
      (∀ e, f.outer ≤ e → e < f.outer + n → s.elemBad k d e = true → (u.ringCode k (d.out + e * ringSize d.fmtO) 1).2 = true) ∧
      ∃ f', (u.ring k).flight[i]? = some f' ∧ f'.q = f.q ∧ f'.desc = f.desc ∧ f'.outer = f.outer + n ∧
        f'.done = decide (d.count ≤ f.outer + n)) ∧
    ((f.endsRow && d.outValid && !d.elementwise && !d.slateCopy) = true →
      let v := d.redValues (s.chunkRun k f)
      (∀ j, s.slateSlot d.slateOut (d.srow + f.outer) k d.gen = some j →
        ∃ bad, u.slateCell d.slateOut (d.srow + f.outer) j = some { v0 := v.1, v1 := v.2, bank := k, gen := d.gen, bad := bad }) ∧
      (s.slateSlot d.slateOut (d.srow + f.outer) k d.gen = none → (u.ring k).slateFull = true))) ∧
  (∀ (s : State) (k work : Nat), k < 4096 → (s.bank k).course = none → exec (.bedEnd k work) s = .next s) ∧
  (∀ s : State, s.serving = true → s.runs 1 = true → s.runs 4 = true →
    ∃ t : State, exec .courseWindowEnd s = .next t.goOn ∧ t.clk.openPhase = true ∧ t.clk.phase = max s.clk.phase 160 ∧
      (∀ k, (s.chan (k / 16)).sref = false → (t.bank k).course = none) ∧ t.clk.tick = s.clk.tick) ∧
  (∀ (s : State) (k : Nat), k < 4096 → s.serving = true → s.runs 1 = true → s.runs 4 = true → (s.chan (k / 16)).sref = false →
    s.clk.openPhase = true → 1 ≤ (s.bank k).owed → (s.bank k).refs = 0 → (s.bank k).queue = [] → (s.bank k).hold = false →
    ∃ t, exec (.reservedRefreshSlot k) s = .next t ∧ (t.bank k).owed = (s.bank k).owed - 1 ∧ (t.bank k).refs = 1 ∧
      (∀ j, j ≠ k → t.bank j = s.bank j) ∧ t = { s with clk := t.clk, banks := t.banks, chans := t.chans })

/-- TIER_READ below 110 °C (R108, R215, R216): the sensors are kept, a higher tier is decided at once and never a lower one, and the
count of cool ticks goes up or starts again. TIER_LOWER (R216) lowers the next tier by one after 500 cool ticks. -/
def Obligations.TiersRiseAtOnceAndFallSlowly : Prop :=
  (∀ (s : State) (d : Nat) (t0 t1 t2 t3 : BitVec 16), d < 16 → s.serving = true → s.plumb.esr = false → s.runs 1 = true →
    s.runs 2 = true → tooHot [t0, t1, t2, t3] = false →
    let x := { s.die d with sensors := [t0, t1, t2, t3] }
    ∃ t, exec (.tierRead d t0 t1 t2 t3) s = .next t ∧ (t.die d).sensors = [t0, t1, t2, t3] ∧ (t.die d).tier = (s.die d).tier ∧
      (t.die d).nextTier = max (s.die d).nextTier (tierOf [x.temp * 2250000, s.predicted x]) ∧
      ((s.die d).read = false → (t.die d).below = (s.die d).below + 1 ∨ (t.die d).below = 0) ∧ (t.die d).read = true ∧
      ((s.die d).tier = 0 → (t.die d).below = 0) ∧ (∀ e, e ≠ d → t.die e = s.die e) ∧
      t = { s with dies := t.dies, chans := t.chans, regs := { s.regs with tierEarly := t.regs.tierEarly } }) ∧
  (∀ (s : State) (d : Nat), d < 16 → s.serving = true → 500 ≤ (s.die d).below → 0 < (s.die d).tier → (s.die d).nextTier = (s.die d).tier →
    ∃ t, exec (.tierLower d) s = .next t ∧ (t.die d).nextTier = (s.die d).tier - 1 ∧ (t.die d).tier = (s.die d).tier ∧
      (t.die d).below = 0 ∧ (∀ e, e ≠ d → t.die e = s.die e) ∧ t = { s with dies := t.dies }) ∧
  (∀ (s : State) (d : Nat), d < 16 → (s.die d).below < 500 → exec (.tierLower d) s = .next s)

/-- The patrols (R181 to R184): the turn of a bank whose bed runs waits for the boundary, a turn in a bank that cannot be
reached, that owes four REFpb or that is above 95 °C is skipped, and INTERVAL 0 in force stops the patrol (R529); else the next
line is visited, where a word that is CORRECTED is written back right and no other word of the store changes. MORTAR_PATROL does
so for the next Mortar line, which it only reads while a request to the line waits; with CCLK stopped it does nothing (R557). -/
def Obligations.PatrolsWriteBackWhatTheyCorrect : Prop :=
  (∀ (s : State) (k : Nat), k < 4096 → s.serving = true → s.regs.scrubOn ≠ 0 →
    ((s.bank k).course.isSome = true → exec (.patrolTurn k) s = .next (s.setBank k { s.bank k with patrolDue := true })) ∧
    ((s.bank k).course = none → (s.bankHeld k = true ∨ 4 ≤ (s.bank k).owed ∨ 95 * 16 < (s.die (k / 256)).temp) →
      exec (.patrolTurn k) s = .next (s.setBank k { s.bank k with patrolDue := false })) ∧
    ((s.bank k).course = none → s.bankHeld k = false → (s.bank k).owed < 4 → (s.die (k / 256)).temp ≤ 95 * 16 →
      let ps := s.patrolPlaces k ((s.bank k).patrol % bankLines)
      ∃ t, exec (.patrolTurn k) s = .next t ∧ (t.bank k).patrol = ((s.bank k).patrol + 1) % bankLines ∧
        (∀ p ∈ ps, (∀ d, s.placeCheck p = .corrected d → t.holds p d) ∧
          ((∀ d, s.placeCheck p ≠ .corrected d) → t.placeData p = s.placeData p ∧ t.placeSyn p = s.placeSyn p)) ∧
        SameMemoryBut (ps.map (fun p => (p.space, p.word))) s t ∧ t.latches = s.latches ∧ t.ctl = s.ctl)) ∧
  (∀ (s : State) (k : Nat), k < 4096 → s.regs.scrubOn = 0 → exec (.patrolTurn k) s = .next s) ∧
  (∀ s : State, s.serving = true → s.runs 2 = false → exec .mortarPatrol s = .next s) ∧
  (∀ s : State, s.serving = true → s.runs 4 = true → s.runs 2 = true →
    let n := s.regs.mortarPatrol % mortarLines
    ∃ t, exec .mortarPatrol s = .next t ∧ t.regs.mortarPatrol = (n + 1) % mortarLines ∧ t.ports = s.ports ∧ t.banks = s.banks ∧
      (s.mortarPending n = true → SameMemory s t) ∧
      (s.mortarPending n = false →
        (∀ p ∈ mortarLine (128 * n), (∀ d, s.placeCheck p = .corrected d → t.holds p d) ∧
          ((∀ d, s.placeCheck p ≠ .corrected d) → t.placeData p = s.placeData p ∧ t.placeSyn p = s.placeSyn p)) ∧
        SameMemoryBut ((mortarLine (128 * n)).map (fun p => (p.space, p.word))) s t))

/-! ### Intake, update and commit -/

/-- ACCUM_CONTRIB in a context-0 course (R179, R275, R276, R278): the bank's oldest staged piece, which stands in its unit's row
latch, leaves the staging buffer; one that does not stand there yet is not added; the
accumulator of every element of the piece takes the element's value modulo 2^64, a marked element (whose value is zero) sets its
bit in the bitmap, in the bank that holds its byte (R20; a piece of marks only, for a bitmap in another bank, adds no value; log 14), and a word that is delivered poisoned is stored poisoned; every word of the stack outside the piece's
accumulators and bitmaps stays; without such a course nothing is added. SET_CLEAR_DONE ends the clear of OPEN_STEP (R273), once
every bank's beds have passed their share: the set is clear, every word of its accumulators and bitmaps holds zero with valid
check bits, and the command completes OKAY. -/
def Obligations.ContributionsAreAddedInAClearSet : Prop :=
  (∀ (s : State) (k : Nat) (l : StagedLine) (p : Piece) (rest : List StagedLine) (a0 : Addend) (r : List Addend) (g : Group) (n : Nat),
    k < 4096 → s.serving = true → s.runs 1 = true → (s.bank k).course = some { ctx := 0, len := n } →
    takePiece k s.ctl.staged = some (l, p, rest) → p.fed = true → p.adds = a0 :: r → s.group a0.group = some g →
    let acc := fun (a : Addend) => g.arrLoc (s.gPlaced g) .acc (b2n l.setB) a.elem
    let nf := fun (a : Addend) => g.arrLoc (s.gPlaced g) .nf (b2n l.setB) a.elem
    let word := fun (x : Loc) => s.stackWordNo x.bank x.row (x.byte / 16)
    let sums := if p.marksOnly then [] else p.adds
    let marks := s.marksHere l.setB p
    (∀ a ∈ sums, (acc a).byte % 8 = 0) → (sums.map (fun a => 2 * word (acc a) + (acc a).byte % 16 / 8)).Nodup →
    (∀ a ∈ sums, ∀ a' ∈ marks, word (nf a') ≠ word (acc a)) →
    ∃ t, exec (.accumContrib k) s = .next t ∧ t.ctl.staged = rest ∧
      (∀ a ∈ sums, t.peekNat (acc a) 8 = (((s.peekNat (acc a) 8).1 + a.value.toNat) % 2 ^ 64, (s.peekNat (acc a) 8).2)) ∧
      (∀ a ∈ marks,
        bit (t.peekNat (nf a) 1).1 (g.nfBit (s.gPlaced g) a.elem) = true ∧ (t.peekNat (nf a) 1).2 = (s.peekNat (nf a) 1).2) ∧
      SameMemoryBut (sums.map (fun a => (.stack, word (acc a))) ++ marks.map (fun a => (.stack, word (nf a)))) s t) ∧
  (∀ (s : State) (k : Nat), k < 4096 → (∀ c, (s.bank k).course = some c → c.ctx ≠ 0) → exec (.accumContrib k) s = .next s) ∧
  (∀ (s : State) (k : Nat) (l : StagedLine) (p : Piece) (rest : List StagedLine), k < 4096 →
    takePiece k s.ctl.staged = some (l, p, rest) → p.fed = false → exec (.accumContrib k) s = .next s) ∧
  (∀ (s : State) (h : Nat), s.mbox.active = some h → h < 16 → s.wardenRuns = true → (s.hasp h).opcode = 8 → s.swept = true →
    s.ctl.lintel = [] →
    let b := bit ((s.hasp h).pay 24 1) 0
    ∃ t, exec .setClearDone s = .next t ∧ (t.set b).clear = true ∧ t.done h .okay ∧ t.set (!b) = s.set (!b) ∧
      (s.bg = 0 →
        (∀ w, s.inSet b w = true → t.stkData w = 0 ∧ t.stkSyn w = 0) ∧
        (∀ w, s.inSet b w = false → t.stkData w = s.stkData w ∧ t.stkSyn w = s.stkSyn w)) ∧
      (s.bg ≠ 0 →
        let ls := s.groupList.flatMap (fun e =>
          e.2.arrWords (s.gPlaced e.2) .acc (b2n b) ++ e.2.arrWords (s.gPlaced e.2) .nf (b2n b))
        (∀ l ∈ ls, t.holds (s.locPlace l false) 0) ∧
        (∀ w, (∀ l ∈ ls, (s.locPlace l false).word ≠ w) → t.stkData w = s.stkData w ∧ t.stkSyn w = s.stkSyn w))) ∧
  (∀ (s : State) (h : Nat), s.mbox.active = some h → (s.hasp h).opcode = 8 → s.swept = false → exec .setClearDone s = .next s)

/-- DEADLINE_CLOSE (R284): a step still open at REFCLK cycle 200 × DEADLINE closes in that tick with cause DEADLINE and is
SEALING; another stays. SEAL_SCAN_DONE of either set (R285, R286, R340), once the parts that the units have formed are in, which may
wait for their banks (R111): the arrival sum is the sum of the contributors' sums,
the result follows R286 in its order, the seal record is durable and STEP_EVENT is set; the other set and all of memory stay. -/
def Obligations.StepsCloseAndAreScanned : Prop :=
  (∀ s : State, s.serving = true →
    ∃ t, exec .deadlineClose s = .next t ∧ t = { s with ctl := { s.ctl with setA := t.ctl.setA, setB := t.ctl.setB } } ∧
      ∀ b, t.set b = if (s.set b).held = true ∧ (s.set b).state = .opened ∧ 200 * (s.set b).deadline.toNat ≤ s.now
        then { s.set b with closed := true, cause := 2, closeTick := (s.set b).deadline, state := .sealing } else s.set b) ∧
  (∀ (s : State) (b : Bool), s.wardenRuns = true → s.scanReady b = true → (b = true → s.scanReady false = false) →
    (s.goes (s.scanPlan b) 0 = false →
      ∃ t, exec .sealScanDone s = .next t ∧ Waits s t (.scanEnd b) ∧ t.set b = s.set b ∧ t.set (!b) = s.set (!b) ∧ t.latches = s.latches) ∧
    (s.goes (s.scanPlan b) 0 = true →
    ∃ t, exec .sealScanDone s = .next t ∧ (t.set b).state = .isSealed ∧ (t.set b).rec0 = true ∧ (t.set b).rec1 = true ∧
      (t.set b).arrival = (s.set b).contribs.foldl (fun a e => a + e.2.sum) 0 ∧
      (t.set b).result = (
        if (s.set b).cause = 2 ∧ (∃ e ∈ (s.set b).contribs, e.2.state = .notSealed) then .incomplete
        else if (∃ e ∈ (s.set b).contribs, e.2.state = .bad) ∨ (s.set b).stray ≠ 0 ∨ (t.set b).scan ≠ (t.set b).arrival ∨
          (t.set b).poisonAcc ≠ 0 then .invalid
        else if (s.set b).nonfin ≠ 0 then .nonfinite
        else if (s.set b).overr ≠ 0 then .overrange
        else .isSealed) ∧
      t.regs.irqStatus.getLsbD 2 = true ∧ t.set (!b) = s.set (!b) ∧ SameMemory s t ∧ t.latches = s.latches))

/-- UPDATE_START (R27, R29, R320, R325, R340): the sealed step of the epoch, whose latch 0 has reached it, is UPDATING once its
verdict is recorded, with the verdict's clip and exponent, and RUNS goes up by one; without a verdict only SAFE groups may
start, on a SEALED result. That COFFER_LOW of the groups that start moves on as the update starts, with a new Lintel record, is
the model's own (DEDUCED, log 52). FACTORED_PASS2_START (R309, R312, R338): a FACTORED group that the run may take enters its
second pass once, when every bank's beds have passed the run's first passes (log 28) and the partials have left the units, which
may wait for their banks (R20, R111); done again it changes nothing. Either set may hold the step. -/
def Obligations.UpdatesStartInTheirTurn : Prop :=
  (∀ (s : State) (b : Bool), s.wardenRuns = true → s.exporting = false → s.mayUpdate b = true → s.recordBusy = false →
    s.mayUpdate (!b) = false →
    let started := fun (t : State) (spec : Bool) (clip : F32) (exp : BitVec 8) =>
      (t.set b).state = .updating ∧ (t.set b).runs = (s.set b).runs + 1 ∧
      (t.set b).run = some { spec := spec, clip := clip, exp := exp, safeDone := false, pass2 := [] } ∧ t.set (!b) = s.set (!b) ∧
      t.ctl.epoch = s.ctl.epoch ∧ t.ctl.journal = s.ctl.journal ∧ t.latches = s.latches ∧
      SameMemoryBut ((s.lintelLine false ++ s.lintelLine true).map (fun p => (p.space, p.word))) s t ∧
      (s.memWf = true → ∀ i g, s.group i = some g →
        t.group i = some { g with low := if spec && g.lean then g.low else g.lowDuring (s.set b).step })
    (∀ v, (s.set b).verdict = some v → ∃ t, exec .updateStart s = .next t ∧ started t false v.clip v.exp) ∧
    ((s.set b).verdict = none → (s.set b).result = .isSealed → s.anySafe = true →
      ∃ t, exec .updateStart s = .next t ∧ started t true f32One (s.set b).lossExp) ∧
    ((s.set b).verdict = none → ((s.set b).result ≠ .isSealed ∨ s.anySafe = false) → exec .updateStart s = .next s)) ∧
  (∀ (s : State) (b : Bool) (n : Nat) (g : Group) (r : Run), s.groupRuns n = true → (s.set b).held = true →
    (s.set b).state = .updating → (s.set b).run = some r → s.group n = some g → g.rule = 1 → (r.spec = false ∨ g.lean = false) →
    (s.set (!b)).run = none →
    let plan := if g.lean && g.pass1 then [] else s.pass1Plan (s.uctx b n g r.clip r.exp)
    (n ∉ r.pass2 → s.runPassed r (s.firstShare r) = true → s.tasked (.pass2 b n) = false → s.goes plan 0 = true →
      ∃ t r', exec (.factoredPass2Start n) s = .next t ∧ (t.set b).run = some r' ∧ n ∈ r'.pass2 ∧ r'.spec = r.spec ∧ r'.clip = r.clip ∧
        (t.set b).state = .updating ∧ (g.lean = true → SameMemory s t)) ∧
    (n ∉ r.pass2 → s.runPassed r (s.firstShare r) = true → s.tasked (.pass2 b n) = false → s.goes plan 0 = false →
      ∃ t, exec (.factoredPass2Start n) s = .next t ∧ Waits s t (.pass2 b n) ∧ t.set b = s.set b) ∧
    ((n ∈ r.pass2 ∨ s.runPassed r (s.firstShare r) = false ∨ s.tasked (.pass2 b n) = true) → exec (.factoredPass2Start n) s = .next s))

/-- LEAN_UNIT_START (R194, R198, R203, R336, R337, R339): where the unit's engine works and the journal has room, the header and the
unit's old bytes stand in a new entry of the journal, in Mortar and in the backing, poisoned where they are (R179), and no other word
changes; where a bank cannot be reached, or the tick's sector allowance is spent (R437), the access waits and nothing is stored yet;
what follows it then does the same. LEAN_UNIT_DONE (R304 to R318, R337, R338): once the entry stands, the unit's pairs, moments and
short weights stand as its update rule gives them, no word but theirs changes, the unit's bit is set in the done map and its entry is
freed, or its writes wait in the same way. What a bank stone gives leaves its unit first (R20, R317), so that it always waits for the
end of its bank's course. Where an entry stands in the journal area is the model's own (DEDUCED, log 35). -/
def Obligations.LeanUnitsAreJournaled : Prop :=
  ∀ (s : State) (n unit : Nat) (b : Bool) (r : Run) (g : Group), s.groupRuns n = true → s.leanRun = some (b, r) →
    s.group n = some g →
    let c := s.uctx b n g r.clip r.exp
    let may := g.lean && g.hasUnit unit && !g.done.contains unit && !s.inJournal n unit && (g.rule != 1 || r.pass2.contains n) &&
      s.unitReaches c unit && !s.tasked (.unitRead n unit) && !s.tasked (.unitStart n unit)
    let old : List Reach := if g.corbel then [.take (unitBank unit) ((s.entryImage c unit).map (·.1))] else []
    let new : List Reach := if g.corbel then [.take (unitBank unit) (s.weightBytes c (g.unitElems unit))] else []
    let moves := fun (acc : List (Bool × List Nat)) => s.goes (rowPlan acc) (c.sectors acc)
    let ends := s.inJournal n unit && s.unitReaches c unit && !s.tasked (.unitOut n unit) && !s.tasked (.unitDone n unit)
    let words := imageWords (s.entryImage c unit)
    let stands := fun (t : State) (a : Nat) =>
      let es := List.zip ((List.range words.length).map (fun i => a + 16 * i)) words
      let at_ := fun (p : Place) (w : BondData × Bool) => t.placeData p = w.1 ∧ t.placeSyn p = if w.2 = true then poisonMask else 0
      t.ctl = { s.ctl with journal := s.ctl.journal ++
        [{ group := n, unit := unit, step := c.t, bytes := c.entryBytes unit, at_ := a }] } ∧
      t.group n = some g ∧ t.latches = s.latches ∧ (∀ e ∈ es, at_ (journalPlace e.1) e.2) ∧
      ((es.map (fun e => (s.backingPlace e.1).word)).Nodup → ∀ e ∈ es, at_ (s.backingPlace e.1) e.2) ∧
      SameMemoryBut (es.map (fun e => (.mortar, (journalPlace e.1).word)) ++ es.map (fun e => (.stack, (s.backingPlace e.1).word))) s t
    let ls := s.updLocs c (c.unitArrays unit) (g.unitElems unit)
    let finishes := fun (t : State) =>
      (∃ g', t.group n = some g' ∧ unit ∈ g'.done ∧ ∀ u ∈ g.done, u ∈ g'.done) ∧ t.inJournal n unit = false ∧
      (∀ e ∈ s.ctl.journal, (e.group ≠ n ∨ e.unit ≠ unit) → e ∈ t.ctl.journal) ∧ t.latches = s.latches ∧
      SameMemoryBut (s.wordsOf ls) s t ∧ (s.apart ls → s.storesUpdate t c (g.unitElems unit))
    (∀ a, may = true → s.ctl.journalFit (c.entryBytes unit) = some a → s.goes old 0 = true → moves (s.startAccess c unit a) = true →
      ∃ t, exec (.leanUnitStart n unit) s = .next t ∧ stands t a) ∧
    (∀ a, may = true → s.ctl.journalFit (c.entryBytes unit) = some a → (s.goes old 0 = false ∨ moves (s.startAccess c unit a) = false) →
      ∃ t, exec (.leanUnitStart n unit) s = .next t ∧ Waits s t (if s.goes old 0 then .unitStart n unit else .unitRead n unit) ∧
        t.ctl.journal = s.ctl.journal ∧ t.group n = some g) ∧
    (∀ a, s.inJournal n unit = false → s.ctl.journalFit (c.entryBytes unit) = some a → stands (s.runTask (.unitStart n unit)) a) ∧
    (may = false → exec (.leanUnitStart n unit) s = .next s) ∧
    (s.ctl.journalFit (c.entryBytes unit) = none → exec (.leanUnitStart n unit) s = .next s) ∧
    (ends = true → (s.goes new 0 = false ∨ moves (s.doneAccess c unit) = false) →
      ∃ t, exec (.leanUnitDone n unit) s = .next t ∧ Waits s t (if s.goes new 0 then .unitDone n unit else .unitOut n unit) ∧
        t.ctl.journal = s.ctl.journal ∧ t.group n = some g) ∧
    (g.lean = true → ends = true → s.goes new 0 = true → moves (s.doneAccess c unit) = true →
      ∃ t, exec (.leanUnitDone n unit) s = .next t ∧ finishes t) ∧
    (g.lean = true → s.inJournal n unit = true → finishes (s.runTask (.unitDone n unit))) ∧
    (ends = false → exec (.leanUnitDone n unit) s = .next s)

/-- UPDATE_DONE of either set (R325, R342): a run before the verdict leaves the step UPDATED; a run after it begins the commit,
whose record is being written; what leaves the units first and must wait for a bank waits in its queue (R203). The results of the SAFE
groups, unless this run has written them before, stand in their write slots and in Coffer version t + 1 (R297, R317), and no other word
changes but the record's copy 0. The update rules (R305 to R315): ADAMW, FACTORED and MOMENTUM give the pair and the moments of an element.
COMMIT_DONE writes the record's copy 1 (R344), or lets it wait for a bed boundary of its bank (R347); once it is written (R320, R342,
R360, R405): the step is COMMITTED and leaves the hold, the epoch is the step's number plus one, latch 0 is released with it by agent 48
in scope 2, no journal entry stays, every group's done map is empty, and STEP_EVENT is set. That the SAFE results are written as the run
ends, that COMMIT_TICK is the tick of UPDATE_DONE, and that COFFER_LOW is a maximum, are the model's own (DESIGN CHOICE and
DEDUCED, log 52). -/
def Obligations.FinishedUpdatesCommitAndMoveTheEpoch : Prop :=
  (∀ (s : State) (b : Bool) (r : Run), s.wardenRuns = true → (s.set b).held = true → (s.set b).state = .updating → (s.set b).run = some r →
    s.runReady b r = true → s.recordBusy = false → (s.set (!b)).run = none →
    (∀ e ∈ s.groupList, s.groupRuns e.1 = true) → s.tasked (.updateOut b) = false → s.memWf = true →
    let out := s.runTakes b r
    let safe := if r.safeDone then [] else s.groupList.filter (fun e => !e.2.lean)
    let ctx := fun (e : Nat × Group) => s.uctx b e.1 e.2 r.clip r.exp
    let elems := fun (e : Nat × Group) => (ctx e).shares.flatMap (·.2)
    let locs := fun (e : Nat × Group) => s.updLocs (ctx e) ((ctx e).updArrays (elems e)) (elems e)
    let written := fun (t : State) => ∀ e, safe = [e] → s.apart (locs e) →
      (∀ p ∈ s.lintelLine false, (.stack, p.word) ∉ s.wordsOf (locs e)) →
      (e.2.corbel = true → e.2.mx = false ∧ ∀ w ∈ s.updWords (ctx e) (elems e), (.stack, w.1) ∉ s.wordsOf (locs e)) →
      s.storesUpdate t (ctx e) (elems e)
    (r.spec = true → s.goes out 0 = true →
      ∃ t, exec .updateDone s = .next t ∧ (t.set b).state = .updated ∧ t.ctl.writing = none ∧ t.ctl.epoch = s.ctl.epoch ∧
        SameMemoryBut (safe.flatMap (fun e => s.wordsOf (locs e))) s t ∧ written t) ∧
    (r.spec = false → s.goes out 0 = true →
      ∃ t, exec .updateDone s = .next t ∧ (t.set b).state = .committing ∧ t.ctl.writing = some (.commit b) ∧ t.ctl.epoch = s.ctl.epoch ∧
        t.ctl.seq = s.ctl.seq + 1 ∧ t.ctl.commitTick = s.clk.tick ∧
        SameMemoryBut (safe.flatMap (fun e => s.wordsOf (locs e)) ++ (s.lintelLine false).map (fun p => (.stack, p.word))) s t ∧ written t) ∧
    (s.goes out 0 = false →
      ∃ t, exec .updateDone s = .next t ∧ Waits s t (.updateOut b) ∧ t.set b = s.set b ∧ t.set (!b) = s.set (!b) ∧
        t.ctl.epoch = s.ctl.epoch)) ∧
  (∀ (s : State) (c : UCtx) (i : Nat),
    let e := s.updElem c i
    let g := (s.gradOf c i).1
    let p := (s.pairOf c c.rd i).1
    let q := (s.decayed c i (s.pairOf c c.rd i)).1
    let m0 := (s.momentOf c true i).1
    let v0 := (s.momentOf c false i).1
    let bc := (s.biasOf c i).1
    let down := fun (p : F32 × BitVec 16) (step : F32) => pairAdd p.1 p.2 (f32Neg (f32Mul c.sc.lr (f32Fma c.sc.lam p.1 step)))
    (c.g.rule = 0 → e.m = f32Fma c.sc.b1 m0 (f32Mul c.sc.omb1 g) ∧ e.v = f32Fma c.sc.b2 v0 (f32Mul c.sc.omb2 (f32Mul g g)) ∧
      (e.h, e.tl) = down q (f32Div (f32Div e.m bc.1) (f32Add (f32Sqrt (f32Div e.v bc.2)) c.sc.eps))) ∧
    (c.g.rule = 1 →
      let row := (Sparse.get (0, false) c.g.rStage (i / c.g.cols)).1
      let col := (Sparse.get (0, false) c.g.cStage (i % c.g.cols)).1
      let uc := f32Div (f32Div g (f32Sqrt (f32Div (f32Mul row col) c.g.meanR.1))) c.kClip.1
      (c.g.firstMoment = true → e.m = f32Fma c.sc.b1 m0 (f32Mul c.sc.omb1 uc) ∧ (e.h, e.tl) = down p e.m) ∧
      (c.g.firstMoment = false → (e.h, e.tl) = down p uc)) ∧
    (c.g.rule ≠ 0 → c.g.rule ≠ 1 → e.m = f32Fma c.sc.b1 m0 g ∧
      (e.h, e.tl) = down q (if c.g.nesterov then f32Fma c.sc.b1 e.m g else e.m))) ∧
  (∀ (s : State) (b : Bool), s.wardenRuns = true → s.ctl.writing = some (.commit b) →
    (s.tasked .recordEnd = true → exec .commitDone s = .next s) ∧
    (s.tasked .recordEnd = false → (s.ctl.lintel ≠ [] ∨ s.lintelOpen none true = false) →
      ∃ t, exec .commitDone s = .next t ∧ t.set b = s.set b ∧ t.ctl.epoch = s.ctl.epoch ∧ SameMemory s t ∧ t.latches = s.latches ∧
        t.ctl.lintel = s.ctl.lintel ++ [{ copy := true, bytes := s.lintelBytes ((s.set b).step.toNat + 1), seq := s.seq }] ∧
        t.tasked .recordEnd = true)) ∧
  (∀ (s : State) (b : Bool), s.wardenRuns = true → s.ctl.writing = some (.commit b) → s.tasked .recordEnd = false → s.ctl.lintel = [] →
    s.lintelOpen none true = true → s.memWf = true →
    let n := (s.set b).step
    ∃ t, exec .commitDone s = .next t ∧ (t.set b).state = .committed ∧ (t.set b).held = false ∧ (t.set b).commitTick = s.clk.tick ∧
      t.ctl.epoch = n + 1 ∧ t.ctl.writing = none ∧ t.ctl.journal = [] ∧ t.latch 0 = latchWord ((n.toNat + 1) % 2 ^ 48) 2 48 ∧
      (∀ i, i ≠ 0 → t.latch i = s.latch i) ∧ t.regs.irqStatus.getLsbD 2 = true ∧ t.set (!b) = s.set (!b) ∧
      (∀ i g, s.group i = some g → ∃ g', t.group i = some g' ∧ g'.done = [] ∧ g'.pass1 = false ∧
        g'.low = BitVec.ofNat 64 (max g.low.toNat (n.toNat + 2 - g.k))) ∧
      (∀ e ∈ List.zip (List.range 8) (s.lintelLine true),
        t.holds e.2 (BitVec.ofNat 128 (leNat (((s.lintelBytes (n.toNat + 1)).drop (16 * e.1)).take 16)))) ∧
      (∀ w, (∀ p ∈ s.lintelLine true, p.word ≠ w) → t.word .stack w = s.word .stack w) ∧ t.mortar = s.mortar ∧ t.hasps = s.hasps)

/-! ### Mailbox -/

/-- HASP_DOORBELL (R492, R493, R495, R497, R499): on a hasp whose request is PENDING or RUNNING only OVERRUN rises; else the
request is copied as it stands and PENDING, a query apart from the order of acceptance; an unknown opcode waits for its turn and
completes BAD_OPCODE (DEDUCED, log 22); with CCLK stopped a doorbell waits for it (R555, R557; DEDUCED, log 55). Each mailbox row, PULL_REPLICA and FW_ACTIVATE among them, waits for its
turn (R499, R547), and a request that fails checks 3 to 5 of R497 completes with that status, its DETAIL kept from level 4 on
(R514), and no other effect. -/
def Obligations.MailboxRequestsAreChecked : Prop :=
  (∀ (s : State) (h at_ : Nat), h < 16 → s.serving = true → s.runs 2 = false →
    exec (.haspDoorbell h at_) s = .next { s.touch at_ with waits := s.waits ++ [.ring h] }) ∧
  (∀ (s : State) (h at_ : Nat), h < 16 → s.serving = true → s.runs 2 = true →
    let u := s.touch at_
    (((s.hasp h).state = .pending ∨ (s.hasp h).state = .running) →
      exec (.haspDoorbell h at_) s = .next (u.setHasp h { s.hasp h with overrun := true })) ∧
    ((s.hasp h).state ≠ .pending → (s.hasp h).state ≠ .running → (∀ i, i < 128 → s.hasps.syn (256 * h + i) = 0) →
      let op := leNat (s.hasps.bytes (haspAt h 0) 2)
      (op ≠ 0 → op ≤ 0x15 →
        ∃ t, exec (.haspDoorbell h at_) s = .next t ∧ (t.hasp h).state = .pending ∧ (t.hasp h).opcode = op ∧ (t.hasp h).reqOk = true) ∧
      (op ≠ 0 → op ≤ 0x15 → s.noneBad →
        ∃ t, exec (.haspDoorbell h at_) s = .next t ∧ (t.hasp h).state = .pending ∧ (t.hasp h).stamp = u.now ∧ (t.hasp h).opcode = op ∧
          (t.hasp h).reqOk = true ∧ (∀ lo n, lo + n ≤ 1984 → (t.hasp h).payload lo n = s.hasps.bytes (haspAt h (0x40 + lo)) n) ∧
          (isQuery op = true → t.mbox.queue = s.mbox.queue) ∧
          (isQuery op = false → h ∈ t.mbox.queue ∧ ∀ j ∈ s.mbox.queue, j ∈ t.mbox.queue) ∧
          (∀ j, j ≠ h → t.hasp j = s.hasp j) ∧ SameMemory s t ∧ t = { s with clk := u.clk, mbox := t.mbox }) ∧
      ((op = 0 ∨ 0x15 < op) → s.noneBad →
        (s.dbg.halted = false → s.mbox.active = none → s.mbox.queue = [] →
          ∃ t, exec (.haspDoorbell h at_) s = .next t ∧ t.done h .badOpcode) ∧
        ((s.dbg.halted = true ∨ s.mbox.active.isSome = true) →
          ∃ t, exec (.haspDoorbell h at_) s = .next t ∧ (t.hasp h).state = .pending ∧ h ∈ t.mbox.queue ∧ SameMemory s t)))) ∧
  (∀ (s : State) (h op : Nat) (c : Instr), h < 16 →
    ((c, op) ∈ mailboxRows h ∨ op = 0x14 ∧ ∃ n x y envs, c = .fwActivate h n x y envs) → s.recordBusy = false →
    (s.ready h op = false → exec c s = .next s) ∧
    (∀ st d, s.ready h op = true → (s.begin_ h).preChecks h = some (st, d) →
      ∃ t, exec c s = .next t ∧ t.done h st ∧ t.respLen h = 0 ∧
        t.respDetail h = (if st = .badField ∧ s.ctl.compat ≠ 3 then d else 0) ∧ SameMemoryButHasp h s t ∧
        t = { s with hasps := t.hasps, mbox := t.mbox, regs := { s.regs with irqStatus := t.regs.irqStatus } })) ∧
  (∀ (s : State) (h at_ : Nat), h < 16 →
    let u := s.touch at_
    (u.ready h 0x0D = false → exec (.pullReplica h at_) s = .next u) ∧
    (∀ st d, u.ready h 0x0D = true → (u.begin_ h).preChecks h = some (st, d) →
      ∃ t, exec (.pullReplica h at_) s = .next t ∧ t.done h st ∧ t.respLen h = 0 ∧
        t.respDetail h = (if st = .badField ∧ s.ctl.compat ≠ 3 then d else 0) ∧ SameMemoryButHasp h s t ∧
        t = { u with hasps := t.hasps, mbox := t.mbox, regs := { s.regs with irqStatus := t.regs.irqStatus } }))

/-- GET_INFO, GET_STEP_REPORT, GET_PLUMB and SET_BUDGET (R435, R508, R510, R511, R513) complete OKAY with the bytes that the state
gives, or with the status of the field or step they name, of a step that an OPEN_STEP or a VERDICT is changing as it stood before (R499), and change nothing but their hasp; SET_BUDGET sets the clamped budgets,
which a tick edge puts in force. PLUMB_WINDOW_END (R443): the record of the window that ended is in its registers and first in its
history of 64 or 16. -/
def Obligations.QueriesAndBudgetsAnswer : Prop :=
  (∀ (s : State) (h : Nat),
    let out := fun (t : State) => SameMemoryButHasp h s t ∧
      t = { s with hasps := t.hasps, mbox := t.mbox, regs := { s.regs with irqStatus := t.regs.irqStatus } }
    let x := s.hasp h
    (s.turn h 0x01 →
      ∃ t, exec (.getInfo h) s = .next t ∧ t.done h .okay ∧ t.respLen h = 256 ∧ t.respBytes h s.infoBytes ∧ out t) ∧
    (s.turn h 0x09 →
      (128 < x.pay 8 2 → ∃ t, exec (.getStepReport h) s = .next t ∧ t.done h .badField ∧ out t) ∧
      (x.pay 8 2 ≤ 128 → s.asSeen.reportSet (x.pay 0 8) = none → ∃ t, exec (.getStepReport h) s = .next t ∧ t.done h .badStep ∧ out t) ∧
      (∀ b, s.asSeen.reportSet (x.pay 0 8) = some b → x.pay 8 2 = 0 →
        ∃ t, exec (.getStepReport h) s = .next t ∧ t.done h .okay ∧ t.respBytes h (s.asSeen.reportPage0 b) ∧ out t) ∧
      (∀ b p, s.asSeen.reportSet (x.pay 0 8) = some b → x.pay 8 2 = p + 1 → p < 128 →
        ∃ t, exec (.getStepReport h) s = .next t ∧ t.done h .okay ∧ t.respLen h = 1024 ∧
          (∀ i, i < 16 → t.hasps.bytes (haspAt h (0x840 + 64 * i)) 64 = s.asSeen.reportGroup b (16 * p + i)) ∧ out t)) ∧
    (s.turn h 0x0F →
      (x.pay 0 1 ≤ 2 →
        ∃ t, exec (.getPlumb h) s = .next t ∧ t.done h .okay ∧
          t.respBytes h ((s.plumb.page (x.pay 0 1)).map PlRecord.bytes).flatten ∧ out t) ∧
      (2 < x.pay 0 1 → ∃ t, exec (.getPlumb h) s = .next t ∧ t.done h .badField ∧ out t)) ∧
    (s.turn h 0x0E → s.ctl.lintel = [] →
      ∃ t, exec (.setBudget h) s = .next t ∧ t.done h .okay ∧ t.plumb.watts = clampWatts (BitVec.ofNat 8 (x.pay 0 1)) ∧
        (∀ i, i < 15 → t.plumb.caps[i]? = some (clampCap (BitVec.ofNat 8 (x.pay (i + 1) 1)))) ∧
        t.plumb = { s.plumb with watts := t.plumb.watts, caps := t.plumb.caps } ∧ SameMemoryButHasp h s t ∧ t.ctl = s.ctl)) ∧
  (∀ (s : State) (r : PlRecord), s.serving = true →
    (s.plumb.due1s = some r → exec (.plumbWindowEnd false) s =
      .next { s with plumb := { s.plumb with w1s := r, hist1s := (r :: s.plumb.hist1s).take 64, due1s := none } }) ∧
    (s.plumb.due60 = some r → exec (.plumbWindowEnd true) s =
      .next { s with plumb := { s.plumb with w60 := r, hist60 := (r :: s.plumb.hist60).take 16, due60 := none } }))

/-- SET_COMPAT, DEFINE_REGION, DEFINE_GROUP and LOAD_SCHEDULE (R145 to R149, R291 to R294, R299, R346, R481): with their checks
met they complete OKAY, the level and revision, the region, the group (created with START the epoch, retuned or deleted) or the
schedule are as the request gives them, a new record is written, and no other region, group or word changes; while a step is
held SET_COMPAT, DEFINE_REGION and DEFINE_GROUP complete STEP_BUSY. The record can be written now; where it must wait for a bed
boundary, the response waits with it (R347). A creation whose zeroing reaches a bank that does not take it now runs, with nothing
changed, until it does (R198); once it is made, its state and its Coffer read zero, but for the RLAST of a sparse group, which is the
epoch before (R294, R315). -/
def Obligations.ConfigurationIsSetAndRecorded : Prop :=
  ∀ (s : State) (h : Nat), s.recordReady →
    let x := s.hasp h
    let busy := fun (c : Instr) => ∃ t, exec c s = .next t ∧ t.done h .stepBusy ∧ SameMemoryButHasp h s t ∧ t.ctl = s.ctl ∧
      t.regions = s.regions ∧ t.groups = s.groups
    let ok := fun (t : State) => t.done h .okay ∧ t.ctl.seq = s.ctl.seq + 1 ∧ t.ctl.epoch = s.ctl.epoch ∧ t.ctl.setA = s.ctl.setA ∧
      t.ctl.setB = s.ctl.setB ∧ t.latches = s.latches
    (s.turn h 0x02 → (x.pay 0 1 = 3 ∨ x.pay 0 1 = 4) → (x.pay 1 1 = 2 ∨ x.pay 1 1 = 3) →
      (s.holdsStep = true → busy (.setCompat h)) ∧
      (s.holdsStep = false → s.start.run.cmin.toNat ≤ x.pay 0 1 → x.pay 0 1 ≤ s.start.run.cmax.toNat →
        ¬(x.pay 1 1 = 3 ∧ (x.pay 0 1 = 3 ∨ s.numMax < 3)) → ¬(x.pay 1 1 = 2 ∧ s.groupList.any (fun e => e.2.needsN3) = true) →
        ∃ t, exec (.setCompat h) s = .next t ∧ ok t ∧ t.ctl.compat = x.pay 0 1 ∧ t.ctl.numRev = x.pay 1 1 ∧
          t.ctl.cfgSeq = s.ctl.cfgSeq ∧ t.regions = s.regions ∧ t.groups = s.groups ∧ SameMemoryButRecord h s t)) ∧
    (s.turn h 0x03 → s.regionBad x = none →
      (s.holdsStep = true → busy (.defineRegion h)) ∧
      (s.holdsStep = false → s.exporting = false → s.ringBusy = false →
        (∀ r, s.region (x.pay 0 1) = some r → (∀ b ∈ s.mbox.bg, b.touches r = false) ∧
          ∀ e ∈ s.groupList, e.2.stReg ≠ x.pay 0 1 ∧ e.2.cfReg ≠ x.pay 0 1) →
        (∀ r, x.regionOf = some r → s.regionOverlaps (x.pay 0 1) r = false) →
        ∃ t, exec (.defineRegion h) s = .next t ∧ ok t ∧ t.region (x.pay 0 1) = x.regionOf ∧
          (∀ i, i ≠ x.pay 0 1 → t.region i = s.region i) ∧ t.groups = s.groups ∧ t.ctl.cfgSeq = s.ctl.cfgSeq + 1 ∧
          SameMemoryButRecord h s t)) ∧
    (s.turn h 0x04 →
      let g := Group.ofBytes (x.payload 0 64)
      let n := x.pay 12 2
      let frame := fun (t : State) => (∀ i, i ≠ n → t.group i = s.group i) ∧ t.regions = s.regions ∧ t.ctl.cfgSeq = s.ctl.cfgSeq + 1
      (g.n ≠ 0 → s.groupBad g n = none → s.holdsStep = true → busy (.defineGroup h)) ∧
      (g.n = 0 → n ≤ 2047 → (s.group n).isSome = true → deleteBad (x.payload 0 64) = none → s.holdsStep = false → s.exporting = false →
        ∃ t, exec (.defineGroup h) s = .next t ∧ ok t ∧ t.group n = none ∧ frame t ∧ SameMemoryButRecord h s t) ∧
      (∀ o, g.n ≠ 0 → s.groupBad g n = none → s.holdsStep = false → s.exporting = false → s.group n = some o →
        (g.retunes o = true →
          let o' : Group := { o with beta1 := g.beta1, beta2 := g.beta2, eps := g.eps, lambda := g.lambda, clipD := g.clipD,
                                     eLsb := g.eLsb, rnd := g.rnd, flags := g.flags }
          ∃ t, exec (.defineGroup h) s = .next t ∧ ok t ∧ t.group n = some o' ∧ t.respBytes h o'.response ∧ frame t ∧
            SameMemoryButRecord h s t) ∧
        (g.retunes o = false →
          ∃ t, exec (.defineGroup h) s = .next t ∧ t.done h .groupExists ∧ SameMemoryButHasp h s t ∧ t.groups = s.groups)) ∧
      (∀ sr cr slab cof base, g.n ≠ 0 → s.groupBad g n = none → s.holdsStep = false → s.exporting = false → s.group n = none →
        s.region g.stReg = some sr → s.region g.cfReg = some cr → s.fitSlabs g sr = some slab → s.fitCoffer g cr = some cof →
        s.fitBase g = some base → s.mortarPoolUsed + g.mortarPool ≤ 0x3000000 → s.sysPoolUsed + g.sysPool ≤ 26 * 2 ^ 20 →
        let g' : Group := { g with start := s.ctl.epoch, low := s.ctl.epoch, base := base, slab := slab, slabs := g.needSlabs sr.placed,
                                   coffer := cof, wRnd := g.rnd, wSeed := s.ctl.seed }
        let rows := if g'.sparse then (List.range g'.pRows).map (fun u => g'.arrLoc sr.placed .rlast 0 u) else []
        let last := s.wordsOf (rows.flatMap (fun l => l.span 4))
        let cofs := (List.range g'.cofferLines).flatMap (fun i => (s.linePlaces (cr.loc (g'.coffer + 128 * i)) false).map (·.word))
        let line := fun (w : Nat) => ∃ c, ∃ p ∈ s.lintelLine c, p.word = w
        let holds := fun (k i j w : Nat) => i < g'.slabs ∧ j < 128 ∧ w = s.stackWordNo k (slab + i) j
        (s.zeroPlan g' cr = [] →
          ∃ t, exec (.defineGroup h) s = .next t ∧ ok t ∧ t.group n = some g' ∧ t.respBytes h g'.response ∧ frame t ∧
            t.mortar = s.mortar.zero (schedAt n) 1024 ∧
            (∀ k i j w, k < 4096 → slab + i < 9216 → (s.bank k).physRow (slab + i) < 9248 → holds k i j w →
              (.stack, w) ∉ last → ¬ line w → t.word .stack w = (0, 0)) ∧
            (∀ w ∈ cofs, ¬ line w → t.word .stack w = (0, 0)) ∧
            (s.apart (rows.flatMap (fun l => l.span 4)) → (∀ e ∈ last, e.2 ∉ cofs ∧ ¬ line e.2) →
              ∀ l ∈ rows, t.reads l (leBytes 4 ((s.ctl.epoch.toNat + 2 ^ 64 - 1) % 2 ^ 32))) ∧
            (∀ w, (¬ ∃ k i j, holds k i j w) → (.stack, w) ∉ last → w ∉ cofs → ¬ line w → t.word .stack w = s.word .stack w)) ∧
        (s.zeroPlan g' cr ≠ [] →
          ∃ t, exec (.defineGroup h) s = .next t ∧ (t.hasp h).state = .running ∧ t.tasked (.create h) = true ∧ t.groups = s.groups ∧
            t.regions = s.regions ∧ SameMemoryButHasp h s t))) ∧
    (s.turn h 0x05 → s.scheduleBad x = none → ∀ g, s.group (x.pay 0 2) = some g →
      ∃ t, exec (.loadSchedule h) s = .next t ∧ ok t ∧ t.group (x.pay 0 2) = some { g with knots := x.pay 2 1 } ∧
        (∀ i, i ≠ x.pay 0 2 → t.group i = s.group i) ∧ t.ctl.cfgSeq = s.ctl.cfgSeq + 1 ∧
        t.mortar.bytes (schedAt (x.pay 0 2)) (16 * x.pay 2 1) = x.knotBytes ∧
        (∀ w, (w < schedAt (x.pay 0 2) / 16 ∨ schedAt (x.pay 0 2) / 16 + 64 ≤ w) → t.word .mortar w = s.word .mortar w) ∧
        (∀ w, (∀ c, ∀ p ∈ s.lintelLine c, p.word ≠ w) → t.word .stack w = s.word .stack w))

/-- SET_SEED and DRAW_SEED (R255 to R257): while a step is held or a ring is not empty they complete STEP_BUSY or RING_BUSY and
the seed stays, also where a ring has taken descriptors by the end of a draw; else SET_SEED sets the seed with source 1, and
DRAW_SEED runs until ENTROPY_DRAW_DONE (R259 to R261), which completes it with the first eight bytes of the digest as the seed,
source 2, or with ENTROPY_FAIL, counted and with TRNG_FAIL set, the seed as it was. -/
def Obligations.SeedsAreSetOrDrawn : Prop :=
  (∀ (s : State) (h : Nat),
    (∀ st, (s.holdsStep = true ∧ st = .stepBusy ∨ s.holdsStep = false ∧ s.ringBusy = true ∧ st = .ringBusy) →
      (s.turn h 0x06 → ∃ t, exec (.setSeed h) s = .next t ∧ t.done h st ∧ SameMemoryButHasp h s t ∧
        t = { s with hasps := t.hasps, mbox := t.mbox, regs := { s.regs with irqStatus := t.regs.irqStatus } }) ∧
      (s.turn h 0x07 → ∃ t, exec (.drawSeed h) s = .next t ∧ t.done h st ∧ SameMemoryButHasp h s t ∧
        t = { s with hasps := t.hasps, mbox := t.mbox, regs := { s.regs with irqStatus := t.regs.irqStatus } })) ∧
    (s.holdsStep = false → s.ringBusy = false →
      (s.turn h 0x06 → s.recordReady →
        ∃ t, exec (.setSeed h) s = .next t ∧ t.done h .okay ∧ t.ctl.seed = BitVec.ofNat 64 ((s.hasp h).pay 0 8) ∧ t.ctl.seedSrc = 1 ∧
          t.ctl = { s.ctl with seed := t.ctl.seed, seedSrc := 1, seq := s.ctl.seq + 1 } ∧ SameMemoryButRecord h s t) ∧
      (s.turn h 0x07 →
        ∃ t, exec (.drawSeed h) s = .next t ∧ (t.hasp h).state = .running ∧ t.mbox.active = some h ∧ t.drawing = true ∧
          t.ctl = s.ctl ∧ SameMemoryButHasp h s t ∧
          (s.noneBad → (∀ j, j ≠ h → t.hasp j = s.hasp j) ∧ t = { s with mbox := t.mbox })))) ∧
  (∀ (s : State) (h : Nat) (bits : List Bool), s.mbox.active = some h → h < 16 → s.sampling = true → s.serving = true →
    s.runs 2 = true → s.dbg.halted = false → s.debugDraws = false → s.plumb.esr = false →
    let e := entropySequence bits
    ((e.1.rct || e.1.apt) = false → s.ringBusy = true →
      ∃ t, exec (.entropyDrawDone bits) s = .next t ∧ t.done h .ringBusy ∧ t.ctl = s.ctl ∧ SameMemoryButHasp h s t) ∧
    ((e.1.rct || e.1.apt) = false → s.ringBusy = false → s.recordReady →
      ∃ t, exec (.entropyDrawDone bits) s = .next t ∧ t.done h .okay ∧ t.ctl.seed = BitVec.ofNat 64 (leNat ((sha384 e.2).take 8)) ∧
        t.ctl.seedSrc = 2 ∧ t.respBytes h ((sha384 e.2).take 8) ∧ t.ctl.epoch = s.ctl.epoch ∧ SameMemoryButRecord h s t) ∧
    ((e.1.rct || e.1.apt) = true →
      ∃ t, exec (.entropyDrawDone bits) s = .next t ∧ t.done h .entropyFail ∧ t.ctl = s.ctl ∧
        t.regs.trngFails = satAdd s.regs.trngFails 1 ∧ t.regs.rctFail = (s.regs.rctFail || e.1.rct) ∧
        t.regs.aptFail = (s.regs.aptFail || e.1.apt) ∧ t.regs.irqStatus.getLsbD 9 = true ∧ SameMemoryButHasp h s t))

/-- OPEN_STEP (R28, R271 to R273, R324, R507) with its checks met opens the step in its set, with its contributors waiting, and
holds the mailbox until the set is clear. VERDICT (R327 to R332) on a sealed step: COMMIT and COMMIT_MASKED are recorded by a
write that holds the mailbox, or refused with the status of R328; an equal verdict completes OKAY and another VERDICT_DONE;
ABANDON leaves the step, and with it the one after it, ABANDONED with the set free, and completes OKAY, the seal record invalid last,
once the versions that the step had taken are back (R320, R332), whose accesses may wait for a bank or for sectors (R203, R437).
VERDICT_RECORDED writes copy 1, or lets it wait (R347), and completes VERDICT OKAY once it is written (R330). What makes two verdicts equal
is DEDUCED (log 52). -/
def Obligations.StepsOpenAndTakeVerdicts : Prop :=
  (∀ (s : State) (h : Nat), s.turn h 0x08 → s.importIncomplete = false →
    let x := s.hasp h
    let b := bit (x.pay 24 1) 0
    let vs := (ctabPlaces (x.pay 16 4)).map s.peek
    (s.ctl.setA.inIntake || s.ctl.setB.inIntake || (s.ctl.setA.held && s.ctl.setB.held)) = false →
    s.openBad x = none → s.ctabBad vs (x.pay 20 2) = none → x.pay 0 8 = s.ctl.epoch.toNat + s.heldSteps.length →
    ∃ t, exec (.openStep h) s = .next t ∧ t.set b = s.openedStep x (ctabExpected (ctabEntries vs)) ∧ t.set (!b) = s.set (!b) ∧
      t.mbox.active = some h ∧ (t.hasp h).state = .running ∧ t.ctl.epoch = s.ctl.epoch ∧ SameMemoryButHasp h s t ∧
      (s.noneBad → SameMemory s t) ∧ t.latches = s.latches ∧ t.groups = s.groups) ∧
  (∀ (s : State) (h : Nat) (b : Bool), s.turn h 0x0A → s.recordBusy = false → s.heldSet ((s.hasp h).pay 0 8) = some b →
    let x := s.hasp h
    let kind := x.pay 8 1 % 4
    let clip := BitVec.ofNat 32 (x.pay 12 4)
    let v := (s.set b).given kind clip (BitVec.ofNat 8 (x.pay 9 1))
    let kept := fun (t : State) (st : MStatus) => t.done h st ∧ t.ctl = s.ctl ∧ t.groups = s.groups ∧ SameMemoryButHasp h s t
    (kind < 2 → (f32IsFin clip && f32Lt 0 clip) = true →
      ((s.set b).verdict = none → s.verdictStatus b kind = none →
        ∃ t, exec (.verdict h) s = .next t ∧ t.set b = { s.set b with verdict := some v } ∧ t.ctl.writing = some (.verdict h b) ∧
          t.mbox.active = some h ∧ t.ctl.seq = s.ctl.seq + 1 ∧ t.set (!b) = s.set (!b) ∧ t.ctl.epoch = s.ctl.epoch ∧
          SameMemoryButRecord h s t) ∧
      (∀ st, (s.set b).verdict = none → s.verdictStatus b kind = some st → ∃ t, exec (.verdict h) s = .next t ∧ kept t st) ∧
      (∀ w, (s.set b).verdict = some w →
        ∃ t, exec (.verdict h) s = .next t ∧ kept t (if w = v then .okay else .verdictDone))) ∧
    (kind = 2 → (s.set b).verdict = none →
      let ns := s.takenGroups b
      let later := (s.set (!b)).held && (s.set (!b)).step == (s.set b).step + 1
      let clears := later && (s.set (!b)).verdict.isSome
      let u := if later then ((s.begin_ h).abandonSet b).abandonSet (!b) else (s.begin_ h).abandonSet b
      let acc := u.deriveAll ns
      let cost := (acc.map (fun a => ksSectorsOf a.2)).sum
      ∃ t, exec (.verdict h) s = .next t ∧ (t.set b).state = .abandoned ∧ (t.set b).held = false ∧ (t.set b).verdict = none ∧
        (later = true → (t.set (!b)).state = .abandoned ∧ (t.set (!b)).held = false) ∧ (later = false → t.set (!b) = s.set (!b)) ∧
        t.regs.irqStatus.getLsbD 2 = true ∧ t.ctl.epoch = s.ctl.epoch ∧ t.latches = s.latches ∧
        (u.goes (rowPlan acc) cost = true → s.recordReady →
          t.done h .okay ∧ (t.set b).rec0 = false ∧ (t.set b).rec1 = false ∧ t.ctl.seq = (if clears then s.ctl.seq + 1 else s.ctl.seq)) ∧
        (u.goes (rowPlan acc) cost = false →
          t.mbox.active = some h ∧ t.tasked (.derive h b ns later clears) = true ∧ (t.set b).rec0 = (s.set b).rec0 ∧
          (t.set b).rec1 = (s.set b).rec1 ∧ t.ctl.seq = s.ctl.seq ∧ SameMemoryButHasp h s t)) ∧
    (∀ w, kind = 2 → (s.set b).verdict = some w → ∃ t, exec (.verdict h) s = .next t ∧ kept t .verdictDone)) ∧
  (∀ (s : State) (h : Nat) (b : Bool), s.wardenRuns = true → s.ctl.writing = some (.verdict h b) →
    (s.tasked .recordEnd = true → exec .verdictRecorded s = .next s) ∧
    (s.tasked .recordEnd = false → (s.ctl.lintel ≠ [] ∨ s.lintelOpen none true = false) →
      ∃ t, exec .verdictRecorded s = .next t ∧ t.set b = s.set b ∧ t.mbox = s.mbox ∧ SameMemory s t ∧
        t.ctl.lintel = s.ctl.lintel ++ [{ copy := true, bytes := s.lintelBytes s.ctl.epoch.toNat, seq := s.seq }] ∧
        t.tasked .recordEnd = true)) ∧
  (∀ (s : State) (h : Nat) (b : Bool), s.wardenRuns = true → h < 16 → s.ctl.writing = some (.verdict h b) → (s.set b).run = none →
    s.tasked .recordEnd = false → s.ctl.lintel = [] → s.lintelOpen none true = true →
    ∃ t, exec .verdictRecorded s = .next t ∧ t.ctl.writing = none ∧ t.done h .okay ∧ t.set b = s.set b ∧ t.set (!b) = s.set (!b) ∧
      t.latches = s.latches)

/-- CHECKPOINT_EXPORT (R203, R484, R485, R509) zeroes the first line of its range, or lets that access wait for its bank or for sectors (R437), keeps
the group table and the schedule tables as they read, and runs until EXPORT_DONE, which writes the header line over the zeros once
every other line is written, and completes OKAY with TOTAL_BYTES and EPOCH, or lets its write wait; a range too short completes
NO_SPACE with both. An image line that the engine moves is written to its place of the range as the sources read then (R484). That
the lines go out as the ticks' sectors carry them, in their order, is the model's choice (DESIGN CHOICE, log 46).
CHECKPOINT_IMPORT (R486 to R488) reads its range, or waits for its banks and for sectors (R203, R437); a whole image that fits marks
every group until IMPORT_DONE, which installs it: groups, schedule, epoch and latch 0, while queries go on
to show what stood before (R499); one that is not whole completes IMAGE_CRC and one that does not fit IMAGE_MISMATCH, with every
group as it was. -/
def Obligations.CheckpointsAreWrittenAndRead : Prop :=
  (∀ (s : State) (h : Nat) (r : Region), s.turn h 0x0B → s.stepsRun = false → s.exporting = false → s.importIncomplete = false →
    let dst := (s.hasp h).pay 0 8
    let n := (s.hasp h).pay 8 8
    s.rangeBad dst n = none → s.dataRange dst n = some r →
    (n < imageSize s.groupList →
      ∃ t, exec (.checkpointExport h) s = .next t ∧ t.done h .noSpace ∧ t.respBytes h (exportResponse (imageSize s.groupList) s.ctl.epoch) ∧
        SameMemoryButHasp h s t ∧ t.mbox.bg = s.mbox.bg) ∧
    (imageSize s.groupList ≤ n →
      ∃ t sched, exec (.checkpointExport h) s = .next t ∧ t.mbox.bg = s.mbox.bg ++ [.export_ h dst n s.groupList sched s.ctl.epoch] ∧
        (∀ e ∈ s.groupList, schedBytes sched e.1 =
          valueBytes ((List.range 64).map (fun i => s.peek (mortarPlace (schedAt e.1 + 16 * i))))) ∧ (t.hasp h).state = .running ∧
        let owed : StepCtl := { s.ctl with debt := imageSize s.groupList / 16, debtAll := imageSize s.groupList / 16 }
        let zero := rowPlan [(true, wordUnion [(s.rangePlaces r dst 128).map (·.word)])]
        (s.goes zero (planCost zero) = true → t.ctl = owed ∧ (∀ p ∈ s.rangePlaces r dst 128, t.holds p 0) ∧
          (s.noneBad → SameMemoryBut ((s.rangePlaces r dst 128).map (fun p => (p.space, p.word))) s t)) ∧
        (s.goes zero (planCost zero) = false → t.tasked .zeroLine = true ∧ t.ctl = { owed with items := t.ctl.items } ∧
          (s.noneBad → SameMemory s t)) ∧ t.groups = s.groups)) ∧
  (∀ (s : State) (h dst n : Nat) (gs : List (Nat × Group)) (sched : Sparse (BondData × Bool)) (epoch : BitVec 64) (r : Region)
    (l : List Background),
    s.imageMoved = true → h < 16 → isBackground (s.hasp h).opcode = true → s.mbox.bg = .export_ h dst n gs sched epoch :: l → s.dataRange dst n = some r →
    let x : ExportJob := { hasp := h, dst := dst, region := r, groups := gs, sched := sched, epoch := epoch }
    let acc := rowPlan [(true, wordUnion [(s.rangePlaces r dst 128).map (·.word)])]
    ((s.zeroWaits = true ∨ s.exportWaits x = true ∨ s.tasked .exportEnd = true) → exec .exportDone s = .next s) ∧
    (s.zeroWaits = false → s.exportWaits x = false → s.tasked .exportEnd = false → s.goes acc 0 = false →
      ∃ t, exec .exportDone s = .next t ∧ Waits s t .exportEnd ∧ t.mbox.bg = s.mbox.bg) ∧
    (s.zeroWaits = false → s.exportWaits x = false → s.tasked .exportEnd = false → s.goes acc 0 = true →
      ∃ t u : State, exec .exportDone s = .next t ∧ t.done h .okay ∧ t.respBytes h (exportResponse (imageSize gs) epoch) ∧
        SameMemory s u ∧ u.ctl = s.ctl ∧ u.groups = s.groups ∧ t.stack = (u.writeRange r dst ((u.image gs sched epoch).take 128)).stack ∧
        t.exporting = false ∧ t.ctl = s.ctl ∧ t.groups = s.groups ∧ t.mortar = s.mortar ∧ t.latches = s.latches)) ∧
  (∀ (s : State) (x : ExportJob) (line : Nat), s.export? = some x →
    let off := x.dst + 128 * line
    let read := rowPlan [(false, (s.exportWords x.groups x.epoch line (line + 1)).map (·.1))]
    s.goes read 0 = true → s.bankWaits (x.region.loc off).bank = false → s.regionAt off = some x.region →
    ∃ u : State, SameMemory s u ∧ u.ctl = s.ctl ∧ u.groups = s.groups ∧
      (∀ e ∈ List.zip (s.linePlaces (x.region.loc off) x.region.detect)
          (imageWords (((u.image x.groups x.sched x.epoch).drop (128 * line)).take 128)),
        (s.exportMove line (line + 1)).placeData e.1 = e.2.1 ∧
        (s.exportMove line (line + 1)).placeSyn e.1 = if e.2.2 = true then poisonMask else 0) ∧
      SameMemoryBut ((s.linePlaces (x.region.loc off) x.region.detect).map (fun p => (p.space, p.word))) s (s.exportMove line (line + 1))) ∧
  (∀ (s : State) (h : Nat) (r : Region), s.turn h 0x0C → s.holdsStep = false → s.exporting = false → s.memWf = true →
    let src := (s.hasp h).pay 0 8
    let n := (s.hasp h).pay 8 8
    s.rangeBad src n = none → s.dataRange src n = some r →
    let span := s.imageSpan r src n
    let read := rowPlan [(false, wordUnion [(s.rangePlaces r src span).map (·.word)])]
    (s.goes read (planCost read) = false →
      ∃ t, exec (.checkpointImport h) s = .next t ∧ t.mbox.active = some h ∧ t.tasked (.importRead h) = true ∧
        (t.hasp h).state = .running ∧ t.groups = s.groups ∧ SameMemoryButHasp h s t) ∧
    (s.goes read (planCost read) = true →
    (s.imageAt r src n = none → ∃ t, exec (.checkpointImport h) s = .next t ∧ t.done h .imageCrc ∧ t.groups = s.groups ∧ SameMemoryButHasp h s t) ∧
    (∀ bs secs, s.imageAt r src n = some (bs, secs) →
      (s.imageFits bs secs = false →
        ∃ t, exec (.checkpointImport h) s = .next t ∧ t.done h .imageMismatch ∧ t.groups = s.groups ∧ SameMemoryButHasp h s t) ∧
      (s.imageFits bs secs = true →
        ∃ t, exec (.checkpointImport h) s = .next t ∧ t.mbox.active = some h ∧ (t.hasp h).state = .running ∧
          (∀ i, t.group i = (s.group i).map (fun g => { g with marked := true })) ∧ t.ctl.cfgSeq = s.ctl.cfgSeq + 1 ∧
          t.mbox.before = some s.shownNow ∧
          SameMemoryButRecord h s t)))) ∧
  (∀ (s : State) (h : Nat) (r : Region) (bs : List Byte) (secs : List Nat), s.imageRuns = true → s.recordReady →
    s.mbox.active = some h → h < 16 → s.mbox.after = none → s.tasked (.importRead h) = false → s.tasked (.importRows h) = false →
    (s.hasp h).opcode = 0x0C → s.memWf = true → s.dataRange ((s.hasp h).pay 0 8) ((s.hasp h).pay 8 8) = some r →
    s.imageAt r ((s.hasp h).pay 0 8) ((s.hasp h).pay 8 8) = some (bs, secs) →
    let epoch := BitVec.ofNat 64 (imgNum bs 8 8)
    (∃ t, exec .importDone s = .next t ∧ t.done h .okay ∧ t.respBytes h (leBytes 8 epoch.toNat) ∧ t.ctl.epoch = epoch ∧
      t.latch 0 = latchWord (epoch.toNat % 2 ^ 48) 2 48 ∧ (∀ i, i ≠ 0 → t.latch i = s.latch i) ∧
      (∀ off n g, (off, n, g) ∈ List.zip secs s.groupList → ∃ g', t.group n = some g' ∧ g'.marked = false ∧ g'.low = epoch ∧ g'.done = [] ∧
        g'.start = BitVec.ofNat 64 (imgNum (bs.drop off) 64 8) ∧ g'.knots = imgNum (bs.drop off) 80 1)))

/-- PULL_REPLICA (R357, R358) with its fields in range becomes a background command whose first latch read goes out; a field out
of range completes BAD_FIELD with its offset in DETAIL, kept from level 4 on (R514). START_SCRUB, SCRUB_TURN and SCRUB_PROGRESS (R185, R500, R510): one pass at a time
visits its lines in order with the patrol's corrections, counts their outcomes, ends OKAY after the last, and puts its counts
into the payload every 500 ticks. That one line in all is due in an INTERVAL is the model's choice (DESIGN CHOICE, log 34), and
the ticks of the first line and of the first counts are DEDUCED (log 57). -/
def Obligations.PullsAndScrubsRunInTheBackground : Prop :=
  (∀ (s : State) (h at_ : Nat), (s.touch at_).turn h 0x0D →
    let x := s.hasp h
    (s.pullBad x = none →
      ∃ (u : State) (p : Pull) (v : State), exec (.pullReplica h at_) s = .next ((u.pumpPulls pumpFuel).hidePart h v).sweepBad ∧ u.mbox.bg = s.mbox.bg ++ [.pull p] ∧ p.hasp = h ∧
        p.node = BitVec.ofNat 14 (x.pay 0 2) ∧ p.off = x.pay 8 8 ∧ p.lines = x.pay 32 4 ∧ p.latch = x.pay 2 2 ∧
        p.ver = BitVec.ofNat 64 (x.pay 16 8) ∧ p.k = x.pay 6 1 ∧ p.dst = x.pay 24 8 ∧ p.done = x.pay 4 2 ∧ p.phase = 0 ∧
        (u.hasp h).state = .running ∧ SameMemory s u) ∧
    (∀ o, s.pullBad x = some o → ∃ t, exec (.pullReplica h at_) s = .next t ∧ t.done h .badField ∧
      t.respDetail h = (if s.ctl.compat ≠ 3 then fieldAt o else 0) ∧ t.mbox.bg = s.mbox.bg ∧ SameMemoryButHasp h s t)) ∧
  (∀ (s : State) (h : Nat), s.turn h 0x10 →
    let x := s.hasp h
    let isScrub := fun (b : Background) => match b with | .scrub _ _ _ _ _ _ _ _ _ _ _ => true | _ => false
    x.pay 0 2 + x.pay 2 2 ≤ slabLimit → x.pay 4 2 ≠ 0 →
    (s.mbox.bg.any isScrub = true → ∃ t, exec (.startScrub h) s = .next t ∧ t.done h .engineBusy ∧ t.mbox.bg = s.mbox.bg) ∧
    (s.mbox.bg.any isScrub = false → x.pay 2 2 ≠ 0 →
      ∃ t, exec (.startScrub h) s = .next t ∧ (t.hasp h).state = .running ∧
        t.mbox.bg = s.mbox.bg ++ [.scrub h (x.pay 0 2) (x.pay 2 2) (x.pay 4 2) 0 0 0 0 0 (s.clk.tick.toNat + x.pay 4 2) (s.clk.tick.toNat + 500)] ∧
        t.ctl = s.ctl ∧ SameMemoryButHasp h s t ∧ (s.noneBad → t = { s with mbox := t.mbox }))) ∧
  (∀ (s : State) (h first slabs interval n ce ue po visited due rep : Nat) (l : List Background), s.wardenRuns = true → h < 16 →
    s.mbox.bg = .scrub h first slabs interval n ce ue po visited due rep :: l →
    let k := (scrubAt first n).1
    let line := (scrubAt first n).2
    let ps := (List.range 8).map (fun i => s.rowPlace k (line / 16) (line % 16 * 8 + i) (Region.policy (s.regionAtSlab (line / 16))))
    let o := s.lineOutcomes ps
    let fixed := fun (t : State) => ∀ p ∈ ps, (∀ d, s.placeCheck p = .corrected d → t.holds p d) ∧
      ((∀ d, s.placeCheck p ≠ .corrected d) → t.placeData p = s.placeData p ∧ t.placeSyn p = s.placeSyn p)
    (due ≤ s.clk.tick.toNat → s.bankHeld k = false → (s.bank k).course = none → (s.bank k).owed < 4 → (s.die (k / 256)).temp ≤ 95 * 16 →
      (n + 1 ≠ scrubLines slabs → (∀ b ∈ l, ∀ a1 a2 a3 a4 a5 a6 a7 a8 a9 a10 a11, b ≠ .scrub a1 a2 a3 a4 a5 a6 a7 a8 a9 a10 a11) →
        ∃ t, exec .scrubTurn s = .next t ∧ fixed t ∧ SameMemoryBut (ps.map (fun p => (p.space, p.word))) s t ∧
          t.mbox.bg = .scrub h first slabs interval (n + 1) (ce + o.1) (ue + o.2.1) (po + o.2.2) (visited + 1)
            (s.clk.tick.toNat + interval) rep :: l) ∧
      (n + 1 = scrubLines slabs → isBackground (s.hasp h).opcode = true →
        ∃ t, exec .scrubTurn s = .next t ∧ fixed t ∧ t.done h .okay ∧
          t.respBytes h (scrubBytes (ce + o.1) (ue + o.2.1) (po + o.2.2) (visited + 1)))) ∧
    (s.clk.tick.toNat < due → exec .scrubTurn s = .next s) ∧
    (rep ≤ s.clk.tick.toNat →
      ∃ t, exec .scrubProgress s = .next t ∧ t.respBytes h (scrubBytes ce ue po visited) ∧ SameMemoryButHasp h s t ∧ t.hasp h = s.hasp h) ∧
    (s.clk.tick.toNat < rep → exec .scrubProgress s = .next s))

/-- REPAIR_SOFT (R470) holds the bank until REPAIR_SOFT_DONE, which copies the row into the spare, maps it and completes OKAY
with the spare; a row that has a soft entry gives it up for the new one (DEDUCED, log 32), and a bank with no free entry is
REPAIR_NO_SPARE. REPAIR_FUSE (R471) of a row waits for its conditions, programs a row that is SOFT once they hold, and of a TSV
lane is recorded at once; REPAIR_COND_TIMEOUT ends one whose 1 s has passed REPAIR_COND; FPROG_DONE ends one that was issued
OKAY with the spare FUSED, or REPAIR_FAULT where the stack refused; in emergency self-refresh the spare is FUSED and the rest waits
(R447). All wait while Warden is halted (R547). -/
def Obligations.RepairsMapAndFuseSpares : Prop :=
  (∀ (s : State) (h sp : Nat), s.turn h 0x11 → (s.hasp h).pay 0 2 < 4096 → (s.hasp h).pay 2 2 < 9208 → s.repairing = none →
    let k := (s.hasp h).pay 0 2
    let row := (s.hasp h).pay 2 2
    (s.bank k).freeSpare = some sp →
    ((s.bank k).soft.length < 4 →
      ∃ t, exec (.repairSoft h) s = .next t ∧ (t.bank k) = { s.bank k with hold := true } ∧ (∀ j, j ≠ k → t.bank j = s.bank j) ∧
        t.mbox.bg = s.mbox.bg ++ [.repair (some h) false k row sp 0 false] ∧ (t.hasp h).state = .running ∧ SameMemoryButHasp h s t ∧
        (s.noneBad → SameMemory s t)) ∧
    (4 ≤ (s.bank k).soft.length →
      ∃ t, exec (.repairSoft h) s = .next t ∧ t.done h .repairNoSpare ∧ t.banks = s.banks ∧ SameMemoryButHasp h s t)) ∧
  (∀ (s : State) (h k row sp t0 : Nat) (issued : Bool) (l : List Background), s.repairRuns (some h) = true → h < 16 → k < 4096 →
    isBackground (s.hasp h).opcode = true → s.mbox.bg = .repair (some h) false k row sp t0 issued :: l → (s.bank k).course = none → (s.bank k).owed < 8 →
    (∀ b ∈ l, b.isRepair = false) →
    ∃ u : State, exec .repairSoftDone s = .next (u.releaseBank k) ∧ u.done h .okay ∧
      u.respBytes h (BitVec.ofNat 8 sp :: List.replicate 7 0) ∧ (∃ e, (e, (row, sp)) ∈ (u.bank k).soft) ∧ (u.bank k).physRow row = 9216 + sp ∧
      u.mbox.bg = l ∧ (∀ j, j ≠ k → u.bank j = s.bank j) ∧
      (∀ space w, space ≠ .pages → (space = .hasp → s.haspQuiet h (w / 256)) →
        (space = .stack → ∀ i, i < 128 → (sparePlace k sp i).word ≠ w) → u.word space w = s.word space w)) ∧
  (∀ (s : State) (h sp : Nat), s.turn h 0x12 → (s.hasp h).pay 0 1 = 0 → (s.hasp h).pay 2 2 < 4096 → (s.hasp h).pay 4 2 < 9216 →
    s.repairing = none →
    let k := (s.hasp h).pay 2 2
    let row := (s.hasp h).pay 4 2
    let bg := fun (t : State) (issued : Bool) =>
      t.mbox.bg = s.mbox.bg ++ [.repair (some h) true k row sp (s.now + 100000000) issued] ∧ (t.hasp h).state = .running ∧
      SameMemoryButHasp h s t ∧ (s.noneBad → SameMemory s t)
    ((s.bank k).softSpare row = none → (s.bank k).freeSpare = some sp → s.fuseCond k = false →
      ∃ t, exec (.repairFuse h) s = .next t ∧ bg t false ∧ t.banks = s.banks) ∧
    ((s.bank k).softSpare row = some sp → s.repairRuns (some h) = true → s.fuseCond k = true → (s.bank k).course = none → (s.bank k).owed < 8 →
      ∃ t, exec (.repairFuse h) s = .next t ∧ bg t true ∧ t.bank k = { s.bank k with hold := true } ∧ (t.chan (k / 16)).fprogHold = true ∧
        t.start.calib = { s.start.calib with pending := some (k, row, sp) })) ∧
  (∀ (s : State) (h : Nat), s.turn h 0x12 → (s.hasp h).pay 0 1 = 1 → (s.hasp h).pay 2 2 < 256 → (s.hasp h).pay 4 2 < 169 → s.repairing = none →
    ∃ t, exec (.repairFuse h) s = .next t ∧ t.done h .okay ∧ t.banks = s.banks ∧ t.mbox.bg = s.mbox.bg ∧ SameMemoryButHasp h s t ∧
      t.start.calib = { s.start.calib with tsv := s.start.calib.tsv ++ [((s.hasp h).pay 2 2, (s.hasp h).pay 4 2)] }) ∧
  (∀ (s : State) (h k row sp t0 : Nat) (l : List Background), h < 16 → k < 4096 → (∀ b ∈ l, b.isRepair = false) →
    (s.mbox.bg = .repair (some h) true k row sp t0 false :: l →
      (t0 ≤ s.now → s.repairRuns (some h) = true →
        ∃ u : State, exec .repairCondTimeout s = .next (u.releaseBank k) ∧ u.done h .repairCond ∧ u.mbox.bg = l ∧ u.banks = s.banks) ∧
      ((s.now < t0 ∨ s.repairRuns (some h) = false) → exec .repairCondTimeout s = .next s)) ∧
    (s.mbox.bg = .repair (some h) true k row sp t0 true :: l →
      ((s.chan (k / 16)).fprogHold = false → exec (.fprogDone false) s = .next s ∧ exec (.fprogDone true) s = .next s) ∧
      ((s.chan (k / 16)).fprogHold = true → s.fprogRuns (some h) = true → s.plumb.esr = true →
        ∃ t, exec (.fprogDone false) s = .next t ∧ (row, sp) ∈ (t.bank k).fused ∧ (t.chan (k / 16)).fprogHold = false ∧
          t.mbox.bg = s.mbox.bg)) ∧
    (s.mbox.bg = .repair (some h) true k row sp t0 true :: l → s.repairRuns (some h) = true → isBackground (s.hasp h).opcode = true →
      (s.chan (k / 16)).fprogHold = true →
      (∃ u : State, exec (.fprogDone false) s = .next (u.releaseBank k) ∧ u.done h .okay ∧ (row, sp) ∈ (u.bank k).fused ∧
        (∀ e ∈ (u.bank k).soft, e.2.1 ≠ row) ∧ u.mbox.bg = l ∧ u.start.calib.pending = none ∧ (u.chan (k / 16)).fprogHold = false) ∧
      ((row, sp) ∉ (s.bank k).fused →
        ∃ u : State, exec (.fprogDone true) s = .next (u.releaseBank k) ∧ u.done h .repairFault ∧ (u.bank k).fused = (s.bank k).fused ∧
          (u.bank k).ctx = setAt (s.bank k).ctx 0 .fault ∧ u.mbox.bg = l ∧ u.start.calib.pending = none)))

/-! ### Firmware and shutdown -/

/-- FW_STAGE (R476, R512): a chunk that is refused changes nothing, an accepted one is kept in the slot that is not active, and
the last one is answered as R474 finds the image. FW_ACTIVATE (R477 to R479, R510): LOCK raises the fuses one at a time, to the
running SVN or, where VDD_C leaves its range first, to what was reached (REPAIR_COND); without a staged image it answers
FW_NONE_STAGED; else it restarts, with CY_UP 0 and nothing held or in the background, up to the wait for the ports, or the
attempts of R467 follow a failure. SHUTDOWN (R502) comes to rest with a valid spill record of cause 2; that it empties the held
acquires is DEDUCED (log 44), and so is that one command does its steps up to self-refresh (log 42). -/
def Obligations.FirmwareIsStagedAndActivated : Prop :=
  (∀ (s : State) (h : Nat), s.turn h 0x13 →
    let x := s.hasp h
    let off := x.pay 0 4
    let bs := x.payload 64 (x.pay 4 2)
    let last := bit (x.pay 6 1) 0
    let f := (if off = 0 then FwSlot.empty else s.slotOf s.otherSlot).append bs
    (∀ o, (s.slotOf s.otherSlot).chunkBad off (x.pay 4 2) last bs = some o →
      ∃ t, exec (.fwStage h) s = .next t ∧ t.done h .badField ∧ t.start = s.start ∧ SameMemoryButHasp h s t) ∧
    ((s.slotOf s.otherSlot).chunkBad off (x.pay 4 2) last bs = none →
      ∃ t, exec (.fwStage h) s = .next t ∧ t.slotOf s.otherSlot = f ∧ t.slotOf (!s.otherSlot) = s.slotOf (!s.otherSlot) ∧
        (s.ctl.lintel = [] → t.done h (if last then (s.imageBad f).getD .okay else .okay)) ∧
        t.start.stagedOk = (if last && (s.imageBad f).isNone then true else if off = 0 then false else s.start.stagedOk) ∧
        t.start.run = s.start.run ∧ t.start.calib = s.start.calib ∧ SameMemoryButHasp h s t)) ∧
  (∀ (s : State) (h burnt : Nat) (startOk restoreOk : Bool) (envs : List StartEnv), s.turn h 0x14 →
    let c := Instr.fwActivate h burnt startOk restoreOk envs
    let flags := (s.hasp h).pay 0 1
    let img := s.slotOf s.otherSlot
    let out := fun (st : MStatus) => ∃ t, exec c s = .next t ∧ t.done h st ∧ t.start = s.start ∧ SameMemoryButHasp h s t
    let need := s.start.run.svn.toNat - s.start.fuseSvn.toNat
    (bit flags 1 = true → s.ctl.lintel = [] →
      ∃ t, exec c s = .next t ∧ t.done h (if need ≤ burnt then .okay else .repairCond) ∧
        t.start = { s.start with fuseSvn := s.start.fuseSvn + BitVec.ofNat 8 (min burnt need) } ∧ SameMemoryButHasp h s t) ∧
    (bit flags 1 = false → s.start.stagedOk = false → out .fwNoneStaged) ∧
    (bit flags 1 = false → s.start.stagedOk = true → (s.ctl.compat < img.run.cmin.toNat ∨ img.run.cmax.toNat < s.ctl.compat) →
      out .compatUnsupported) ∧
    (bit flags 1 = false → s.start.stagedOk = true → img.run.cmin.toNat ≤ s.ctl.compat → s.ctl.compat ≤ img.run.cmax.toNat →
      (((s.ctl.setA.inIntake || s.ctl.setB.inIntake) && !bit flags 0) = true → out .stepBusy) ∧
      (((s.ctl.setA.inIntake || s.ctl.setB.inIntake) && !bit flags 0) = false → (s.imageBad img).isSome = true → out .fwAuth) ∧
      (((s.ctl.setA.inIntake || s.ctl.setB.inIntake) && !bit flags 0) = false → s.imageBad img = none →
        ∃ (u v : State), u.start.mode = .starting ∧ u.start.kind = .restart ∧ u.start.activate = some h ∧ u.clk.up = false ∧
          u.acq = [] ∧ u.mbox.bg = [] ∧ u.slates = [] ∧ u.dbg.sessionOn = false ∧
          (let fails := fun (w : State) (cause : Nat) =>
            exec c s = .next ((State.attempts (.fail w cause) envs.tail maxAttempts).hidePart h v).sweepBad
          (startOk = false → fails { u with free := u.free + 1 } (Config.imageCause u.free).toNat) ∧
          (startOk = true →
            let w := (u.runImage img).leaveSref
            ((restoreOk = false ∨ w.start.cfgBad = true) → fails w 11) ∧
            (restoreOk = true → w.start.cfgBad = false →
              let r := w.stopRings.recover 3
              let x := r.state
              (r.ok = false → fails x 12) ∧
              (r.ok = true →
                ((envs.headD noEnv).tumblerOk = false → fails { x with regs := { x.regs with katFail := true } } 10) ∧
                ((envs.headD noEnv).tumblerOk = true →
                  exec c s = .next (({ x with start := { x.start with wait := .ports, phase := 12 } } : State).hidePart h v).sweepBad)))))))) ∧
  (∀ (s : State) (h : Nat), s.turn h 0x15 →
    ∃ t, exec (.shutdown h) s = .next t ∧ t.start.mode = .shut ∧ t.clk.up = false ∧ t.acq = [] ∧ t.mbox.bg = [] ∧
      (s.runs 1 = true →
        (∀ copy, s.endFprog.fuseHeld (lintelBank copy) = false ∧ (s.plumb.esr = false → (s.chan (lintelBank copy / 16)).sref = false)) →
        t.done h .okay ∧ t.ctl.writing = none ∧ t.ctl.lintel = []) ∧ t.start.spill.valid = true ∧ t.start.spill.cause = 2 ∧ t.start.spill.tick = s.clk.tick)

/-! ### Rings -/

/-- RING_TAIL_WRITE, RING_CONFIG_WRITE, RING_ENABLE, RING_STOP and RING_ABORT (R363 to R365, R368, R369): each acts on its own
ring only, as its state allows, while CCLK runs (R557); LOG2 is kept within 4 to 8 (DEDUCED, log 17); more descriptors than the
array holds are OVERRUN, ranges outside one PLACED DATA region are RANGE in every state, both with the ring in FAULT and
RG_ERR_SEQ at RG_HEAD (DEDUCED, log 47); ENABLE that starts a ring again sets ERR to 0, and ABORT keeps ENABLE (DESIGN CHOICE,
log 47); ABORT leaves an empty ring in STOPPED, with RG_HEAD at RG_TAIL, and at the bank's next boundary (R115), which is at
once where nothing runs in the bank, contexts 2 and 3 EMPTY and the save area's VALID bits clear. -/
def Obligations.RingsAreConfiguredAndStopped : Prop :=
  (∀ (s : State) (k : Nat) (v : BitVec 32) (reg : Nat), k < 4096 → s.runs 2 = false →
    ∀ c ∈ [Instr.ringTailWrite k v, .ringConfigWrite k reg v, .ringEnable k, .ringStop k, .ringSave k, .ringRestore k, .ringAbort k],
      exec c s = .next s) ∧
  ∀ (s : State) (k : Nat), k < 4096 → s.serving = true → s.runs 2 = true →
    let r := s.ring k
    let fault := fun (c : Instr) (err : BitVec 4) (r : Ring) =>
      ∃ t, exec c s = .next t ∧ t.ring k = { r with state := .fault, err := err, errSeq := (s.ring k).head32 } ∧
        (∀ j, j ≠ k → t.ring j = s.ring j) ∧ t.regs.irqStatus.getLsbD 5 = true ∧ t = { s with rings := t.rings, regs := t.regs }
    let cleared : Ring := { r with head := r.head + BitVec.ofNat 48 r.owed, state := .stopped, live := false, err := 0, failed := none, forcedQ := none,
                                   saving := false, loading := false, fetched := none }
    (∀ v : BitVec 32,
      (r.slots < (v - r.head32).toNat → fault (.ringTailWrite k v) 10 r) ∧
      ((v - r.head32).toNat ≤ r.slots → exec (.ringTailWrite k v) s = .next (s.setRing k { r with tail := v }))) ∧
    (∀ v : BitVec 32,
      (r.state ≠ .stopped → ∀ reg ∈ [0x00, 0x04, 0x1C], exec (.ringConfigWrite k reg v) s = .next (s.setRing k { r with cfgIgnored := true })) ∧
      (r.state = .stopped →
        exec (.ringConfigWrite k 0x00 v) s = .next (s.setRing k { r with base := v.setWidth 11 }) ∧
        exec (.ringConfigWrite k 0x1C v) s = .next (s.setRing k { r with save := v.setWidth 15 }) ∧
        exec (.ringConfigWrite k 0x04 v) s = .next (s.setRing k { r with logSz := BitVec.ofNat 4 (max 4 (min 8 (v.toNat % 16))) }))) ∧
    (s.ringRangesOk k = false → fault (.ringEnable k) 3 { r with enable := true }) ∧
    (s.ringRangesOk k = true →
      (r.state = .running → exec (.ringEnable k) s = .next (s.setRing k { r with enable := true })) ∧
      (r.state ≠ .running → exec (.ringEnable k) s =
        .next (s.setRing k { r with enable := true, state := .running, live := true, err := 0, failed := none, fetched := none }))) ∧
    (r.state = .running → r.flight = [] →
      exec (.ringStop k) s = .next (s.setRing k { r with enable := false, state := .stopped, live := false })) ∧
    ((r.state ≠ .running ∨ r.flight ≠ []) → exec (.ringStop k) s = .next (s.setRing k { r with enable := false })) ∧
    (cleared.head32 = r.tail ∧ cleared.isEmpty = true) ∧
    (s.bankOpen k = false → exec (.ringAbort k) s = .next (s.setRing k { cleared with aborting := true })) ∧
    (s.bankOpen k = true →
      ∃ t, exec (.ringAbort k) s = .next t ∧ t.ring k = { cleared with flight := [], aborting := false } ∧
        (∀ j, j ≠ k → t.ring j = s.ring j) ∧ (∀ c, c = 2 ∨ c = 3 → (t.bank k).ctx.getD c .empty = .empty) ∧
        (∀ j, j ≠ k → t.bank j = s.bank j) ∧
        ((s.ringRegion r.saveAt 1024).isSome = true → ∀ i, i = 0 ∨ i = 32 →
          t.placeData (s.saveAreaPlace k i) = (s.peek (s.saveAreaPlace k i)).1 &&& ~~~ (BitVec.ofNat 128 (2 ^ 40))) ∧
        SameMemoryBut [(.stack, (s.saveAreaPlace k 0).word), (.stack, (s.saveAreaPlace k 32).word)] s t)

/-- RING_SAVE and RING_SAVE_DONE (R397, R398): once the bank is at a boundary the images of both contexts are written into the
save area, with what the area holds apart from them as it was, and the ring is SAVED; with a bad area it is in FAULT with RANGE.
RING_RESTORE (R397, R399): in STOPPED or SAVED the images that pass their checks are the descriptors in flight, behind the one
of number RG_HEAD that has completed where only the one after it is, a failing one is BAD_DESC and a bad area RANGE, at once or,
where a course runs in the bank, at its boundary; in the other states it has no effect. RANGE of a SAVE, and RG_ERR_SEQ at
RG_HEAD for a RESTORE that fails, are DEDUCED (log 47). -/
def Obligations.RingsAreSavedAndRestored : Prop :=
  ∀ (s : State) (k : Nat), k < 4096 → s.serving = true → s.runs 2 = true →
    let r := s.ring k
    let place := s.saveAreaPlace k
    let word := fun (f : Option InFlight) (i : Nat) => BitVec.ofNat 128 (leNat (((imageBytes f).drop (16 * i)).take 16))
    let faulted := fun (c : Instr) (err : BitVec 4) (r : Ring) =>
      ∃ t, exec c s = .next t ∧ t.ring k = { r with state := .fault, err := err, errSeq := (s.ring k).head32 } ∧
        t.regs.irqStatus.getLsbD 5 = true ∧ (∀ j, j ≠ k → t.ring j = s.ring j) ∧ SameMemory s t
    exec (.ringSave k) s = .next (s.setRing k { r with saving := true }) ∧
    ((r.saving = false ∨ r.aborting = true ∨ s.bankOpen k = false) → exec (.ringSaveDone k) s = .next s) ∧
    (r.saving = true → r.aborting = false → s.bankOpen k = true → s.plumb.esr = false → s.runs 1 = true →
      ((s.ringRegion r.saveAt 1024).isSome = true →
        ∃ t, exec (.ringSaveDone k) s = .next t ∧ t.ring k = { r with saving := false, state := .saved, live := false } ∧ (∀ j, j ≠ k → t.ring j = s.ring j) ∧
          (∀ i, i < 24 → t.placeData (place i) = word (r.inContext 2) i ∧ t.placeData (place (32 + i)) = word (r.inContext 3) i) ∧
          SameMemoryBut ((List.range 24).map (fun i => (.stack, (place i).word)) ++ (List.range 24).map (fun i => (.stack, (place (32 + i)).word))) s t) ∧
      (s.ringRegion r.saveAt 1024 = none → faulted (.ringSaveDone k) 3 { r with saving := false })) ∧
    (r.state ≠ .stopped → r.state ≠ .saved → exec (.ringRestore k) s = .next s) ∧
    ((r.state = .stopped ∨ r.state = .saved) →
      (s.bankOpen k = false → exec (.ringRestore k) s = .next (s.setRing k { r with loading := true })) ∧
      (s.bankOpen k = true → r.aborting = false →
        let r' : Ring := { r with loading := false, fetched := none }
        let first := (s.descLine k r.head.toNat).1
        ((s.ringRegion r.saveAt 1024).isSome = true →
          (∀ a b, s.readImage k place = some a → s.readImage k (fun i => place (32 + i)) = some b →
            ∃ t, exec (.ringRestore k) s = .next t ∧ t.ring k = { r' with flight := r.resume first (a.toList ++ b.toList) } ∧
              (r.flight = [] → (∀ f, (a = some f ∨ b = some f) → f ∈ (t.ring k).flight) ∧
                ∀ f ∈ (t.ring k).flight, a = some f ∨ b = some f ∨ f = { InFlight.at_ r.head.toNat first with done := true }) ∧
              (∀ j, j ≠ k → t.ring j = s.ring j) ∧ SameMemory s t) ∧
          ((s.readImage k place = none ∨ s.readImage k (fun i => place (32 + i)) = none) → faulted (.ringRestore k) 9 r')) ∧
        (s.ringRegion r.saveAt 1024 = none → faulted (.ringRestore k) 3 r')))

/-- DESCRIPTOR_START (R365, R366, R368, R397): at a boundary of its bank the next descriptor, read once, that passes its checks
starts with its cursor at zero, beside the one in flight where they share no byte; one that waits is kept as it was read, and a
conflict is counted once as ORDER_FORCED; one that fails its checks faults the ring with its code and number when nothing is in
flight ahead of it, else it is kept for that time; where the ring may take none, or Warden is halted (R547), it has no effect.
DESCRIPTOR_RETIRE (R363, R367, R370): of a ring that runs, or was running when it faulted, a completed one retires, RG_HEAD goes
up by one, its release is performed and its interrupt raised; one with a release waits while CCLK is stopped, and every one while SCLK is (R557). That SHAPE is checked before RANGE is the model's choice (DESIGN
CHOICE, log 47). -/
def Obligations.DescriptorsStartAndRetireInOrder : Prop :=
  (∀ (s : State) (k : Nat), k < 4096 → s.dbg.halted = true → exec (.descriptorStart k) s = .next s) ∧
  (∀ (s : State) (k : Nat), k < 4096 → s.serving = true → s.dbg.halted = false → s.plumb.esr = false → s.runs 1 = true →
    let r := s.ring k
    let q := r.head.toNat + r.flight.length
    let line := match r.fetched with
      | some f => if f.1 = q then f.2 else s.descLine k q
      | none => s.descLine k q
    let d := Desc.of line.1
    let becomes := fun (r' : Ring) => ∃ t, exec (.descriptorStart k) s = .next t ∧ t.ring k = r' ∧ (∀ j, j ≠ k → t.ring j = s.ring j) ∧
      SameMemory s t ∧ t.latches = s.latches
    (s.descReady k = false → ∃ t, exec (.descriptorStart k) s = .next t ∧ t = { s with banks := t.banks } ∧ ∀ j, j ≠ k → t.bank j = s.bank j) ∧
    (s.descReady k = true →
      (r.flight = [] →
        (line.2 = false → s.descErr d = none → becomes { r with fetched := none, forcedQ := none, flight := [InFlight.at_ q line.1] }) ∧
        (∀ e, (line.2 = true ∧ e = 9 ∨ line.2 = false ∧ s.descErr d = some e) →
          ∃ t, exec (.descriptorStart k) s = .next t ∧
            t.ring k = { r with fetched := none, state := .fault, err := e, errSeq := BitVec.ofNat 32 q } ∧
            t.regs.irqStatus.getLsbD 5 = true ∧ (∀ j, j ≠ k → t.ring j = s.ring j) ∧ SameMemory s t)) ∧
      (∀ f, r.flight = [f] →
        (∀ e, (line.2 = true ∧ e = 9 ∨ line.2 = false ∧ s.descErr d = some e) → becomes { r with fetched := none, failed := some e }) ∧
        (line.2 = false → s.descErr d = none →
          (d.wait = true → becomes { r with fetched := some (q, line) }) ∧
          (d.wait = false → descConflict (Desc.of f.desc) d = false →
            becomes { r with fetched := none, flight := [f, InFlight.at_ q line.1] }) ∧
          (d.wait = false → descConflict (Desc.of f.desc) d = true →
            (r.forcedQ = some q → becomes { r with fetched := some (q, line) }) ∧
            (r.forcedQ ≠ some q →
              becomes { r with fetched := some (q, line), forcedQ := some q, orderForced := true, forced := satAdd r.forced 1 })))))) ∧
  (∀ (s : State) (k : Nat), k < 4096 → s.runs 1 = false → exec (.descriptorRetire k) s = .next s) ∧
  (∀ (s : State) (k : Nat), k < 4096 → s.serving = true → s.runs 1 = true →
    let r := s.ring k
    (r.retires = false → exec (.descriptorRetire k) s = .next s) ∧
    (∀ f, r.retires = true → r.flight = [f] → r.failed = none → (r.state ≠ .running ∨ r.enable = true) →
      let d := Desc.of f.desc
      let l := d.rel % 2 ^ 13
      (f.done = true → (d.relKind = 0 ∨ s.runs 2 = true) →
        ∃ t, exec (.descriptorRetire k) s = .next t ∧
          t.ring k = { r with head := r.head + 1, flight := [], poisoned := r.poisoned || f.poison,
                              poisonCnt := if f.poison then satAdd r.poisonCnt 1 else r.poisonCnt } ∧
          (∀ j, j ≠ k → t.ring j = s.ring j) ∧ SameMemory s t ∧
          (d.relKind = 1 → l ≠ 0 → t.latch l = latchWord (r.head + 1).toNat d.scope (64 + k)) ∧
          (d.relKind = 2 → l ≠ 0 → t.latch l = latchWord (latchValue (s.latch l) + 1) d.scope (64 + k)) ∧
          (∀ i, (i ≠ l ∨ l = 0 ∨ d.relKind = 0) → t.latch i = s.latch i) ∧
          ((d.relKind = 1 ∨ d.relKind = 2) → l = 0 → t.regs.ltDenied = satAdd s.regs.ltDenied 1) ∧
          (d.irqFlag = true → t.regs.irqStatus.getLsbD 4 = true)) ∧
      ((f.done = false ∨ d.relKind ≠ 0 ∧ s.runs 2 = false) → ∃ t, exec (.descriptorRetire k) s = .next t ∧ t.ring k = r ∧ t.latches = s.latches ∧ SameMemory s t)))

/-! ### Registers -/

/-- CY_CTRL (R525): LOCK, or a write of 1 to bit 0, sets LOCK, a write of 0 leaves it, and no step but one of CY_RST_N clears
it; a write to an RWL field while LOCK is 1 is ignored and sets LOCK_VIOL, which a write of 1 to bit 1 clears; both read 0 after
reset, and bits [31:2] read zero. -/
def Obligations.LockIsSet : Prop :=
  (∀ s : State, s.start.mode ≠ .reset → s.runs 2 = true → exec .lock s = .next { s with regs := { s.regs with lock := true } }) ∧
  (∀ (s : State) (v : BitVec 32) (c : Instr), s.ctOpen = true → (c = .registerWrite 0x8 v ∨ c = .controlPortWrite 0x8 v) →
    exec c s = .next { s with
      ct := { s.ct with last := some { rdata := 0, err := false } },
      regs := { s.regs with lock := s.regs.lock || v.getLsbD 0, lockViol := s.regs.lockViol && !v.getLsbD 1 } }) ∧
  (∀ (s : State) (off : BitVec 27) (v : BitVec 32), s.ctOpen = true → s.start.mode ≠ .starting → s.regs.lock = true →
    off ∈ [(0x34 : BitVec 27), 0x38, 0x3C] →
    exec (.registerWrite off v) s = .next { s with
      ct := { s.ct with last := some { rdata := 0, err := false } }, regs := { s.regs with lockViol := true } }) ∧
  (∀ s : State, (s.readGlobal 0x8).getLsbD 0 = s.regs.lock ∧ (s.readGlobal 0x8).getLsbD 1 = s.regs.lockViol ∧
    ∀ i, 2 ≤ i → (s.readGlobal 0x8).getLsbD i = false) ∧
  State.reset.readGlobal 0x8 = 0 ∧
  (∀ s t : State, step s = .next t → s.regs.lock = true → (∀ envs rest, s.pending ≠ .cyRstNDeassert envs :: rest) → t.regs.lock = true)

/-- REGISTER_WRITE, CONTROL_PORT_WRITE, ER_LOG_CLEAR and CHANNEL_ALIAS_WRITE (R45, R76, R138, R178, R188, R516, R519, R525,
R535): a refused word is answered with CT_ERR; an RWL field keeps its value under LOCK and sets LOCK_VIOL; 1 clears a W1C bit; a
counter is cleared by zero only; a word of host scratch is merged into its Bond word; an alias acts on every selected channel
and on no other; and while CCLK is stopped none has an effect (R557). -/
def Obligations.RegistersFollowTheirAccessCodes : Prop :=
  (∀ (s : State) (off : BitVec 27) (v : BitVec 32) (c : Instr), s.ctOpen = true → (c = .registerWrite off v ∨ c = .controlPortWrite off v) →
    let at_ := off.toNat / 4 * 4
    let done := fun (t : State) => t.ct = { s.ct with last := some { rdata := 0, err := false } }
    let onlyRegs := fun (t : State) (r : Regs) => t = { s with ct := t.ct, regs := r }
    (s.ctRefused (ctlTarget at_) true = true → exec c s = .next { s with ct := { s.ct with last := some { rdata := 0, err := true } } }) ∧
    (s.start.mode ≠ .starting →
      (at_ = 0x0028 → ∃ t, exec c s = .next t ∧ done t ∧ onlyRegs t { s.regs with irqStatus := s.regs.irqStatus &&& ~~~ v.setWidth 20 }) ∧
      (at_ = 0x3010 → ∃ t, exec c s = .next t ∧ done t ∧ onlyRegs t { s.regs with stale := if v = 0 then 0 else s.regs.stale }) ∧
      (at_ = 0x0030 → ∃ t, exec c s = .next t ∧ done t ∧
        onlyRegs t { s.regs with rmtTmo := BitVec.ofNat 16 (max 50 (min 25000 (v.toNat % 65536))) }) ∧
      (s.regs.lock = true → at_ ∈ [0x0034, 0x0038, 0x003C] → ∃ t, exec c s = .next t ∧ done t ∧ onlyRegs t { s.regs with lockViol := true }) ∧
      (s.regs.lock = false → at_ = 0x0034 → ∃ t, exec c s = .next t ∧ done t ∧ onlyRegs t { s.regs with scrubInt := v.setWidth 16 })) ∧
    (s.serving = true → 0x2000000 ≤ at_ → at_ < 0x3000000 →
      ∃ t, exec c s = .next t ∧ done t ∧
        s.merged t (mortarPlace (at_ - 0x2000000)) (BitVec.ofNat 128 (v.toNat <<< (8 * (at_ % 16)))) (15 * 2 ^ (at_ % 16)) ∧
        SameMemoryBut [(.mortar, (at_ - 0x2000000) / 16)] s t ∧ t.ctl = s.ctl ∧ t.latches = s.latches)) ∧
  (∀ s : State, s.start.mode ≠ .reset → s.runs 2 = true →
    exec .erLogClear s = .next { s with regs := { s.regs with log := [], overflow := false } }) ∧
  (∀ (s : State) (off : BitVec 27) (v : BitVec 32) (c : Instr), s.runs 2 = false →
    c ∈ [.lock, .erLogClear, .relock, .channelAliasWrite off v, .registerWrite off v, .controlPortWrite off v] → exec c s = .next s) ∧
  (∀ (s : State) (off : BitVec 27) (v : BitVec 32), s.serving = true → s.runs 2 = true →
    let o := off.toNat % 0x1000 / 4 * 4
    (off.toNat / 0x1000 = 0x200 →
      ∃ t, exec (.channelAliasWrite off v) s = .next t ∧ (∀ c, c < 256 → t.chan c = (s.chan c).write o v) ∧
        (∀ c, 256 ≤ c → t.chan c = s.chan c) ∧ t = { s with chans := t.chans }) ∧
    (∀ g, g < 16 → off.toNat / 0x1000 = 0x210 + g →
      ∃ t, exec (.channelAliasWrite off v) s = .next t ∧ (∀ c ∈ s.aliasChans g, t.chan c = (s.chan c).write o v) ∧
        (∀ c, c ∉ s.aliasChans g → t.chan c = s.chan c) ∧ t = { s with chans := t.chans }))

/-! ### Debug port -/

/-- Challenges and sessions (R542, R543): DB_CHALLENGE starts a draw, CHAL_READY gives the digest's first 32 bytes or counts a
failure, but never in a start (R257), a challenge lives 10 s, DB_RESPONSE is refused or verified, a verification that ends consumes the challenge and opens a
session, or starts a lockout of 1 s that LOCKOUT_END ends; RELOCK and TRST_N (R91, R544) end the session, and Warden runs. What
a refused response counts and keeps is DEDUCED (log 48), and so are an update that waits for a stopped CCLK (R555, R557; log 55), a DB_CHALLENGE while one is drawn and what TRST_N clears
(log 45). -/
def Obligations.ChallengesOpenAndEndSessions : Prop :=
  (∀ s : State, s.start.mode ≠ .reset → s.runs 2 = true →
    (let u := s.selects 0x10 1;
      (s.dbg.busy = .idle → exec (.dbChallenge true) s =
        .next { u with dbg := { u.dbg with chalReady := false, busy := .draw s.sampling } }) ∧
      (s.dbg.busy ≠ .idle → exec (.dbChallenge true) s = .next u)) ∧
    exec (.dbChallenge false) s = .next (s.selects 0x10 0) ∧
    (∀ r, let u := s.selects 0x11 r.toNat;
      (s.dbg.busy ≠ .idle → exec (.dbResponse r) s = .next u) ∧
      (s.dbg.busy = .idle →
        (s.responseRefused r = true → exec (.dbResponse r) s =
          .next { u with dbg := { u.dbg with unlockRes := 3 }, regs := { s.regs with failCnt := satAdd s.regs.failCnt 1 } }) ∧
        (s.responseRefused r = false → exec (.dbResponse r) s = .next { u with dbg := { u.dbg with busy := .verify r } }))) ∧
    (∀ r, s.responseRefused r = true ↔ (s.dbg.chalReady = false ∨ s.dbg.chalAt + 1000000000 ≤ s.now ∨ s.regs.noUnlock = true ∨
      s.dbg.refused = true ∨ (∃ t0, s.dbg.lockout = some t0 ∧ s.now < t0) ∨ bits r.toNat 31 4 ≠ 0)) ∧
    (∃ t, exec .relock s = .next t ∧ t.dbg.sessionOn = false ∧ t.dbg.scope = 0 ∧ t.dbg.halted = false ∧ t.dbg.bkpts = [] ∧ t.dbg.watches = [] ∧
      t.stack = s.stack ∧ t.mortar = s.mortar ∧ t.latches = s.latches)) ∧
  (∀ s : State, s.runs 2 = false →
    let waits := fun (ir : BitVec 8) (v : Nat) => ({ s.selects ir v with waits := s.waits ++ [.update ir v] } : State)
    (∀ b, exec (.dbChallenge b) s = .next (waits 0x10 (b2n b))) ∧ ∀ r, exec (.dbResponse r) s = .next (waits 0x11 r.toNat)) ∧
  (∀ (s : State) (bits : List Bool), s.start.mode = .starting → exec (.chalReady bits) s = .next s) ∧
  (∀ (s : State) (bits : List Bool) (w : Bool), s.dbg.busy = .draw w → (w && s.sampling) = false → s.start.mode ≠ .starting →
    let e := entropySequence bits
    ((e.1.rct || e.1.apt) = false → 
      ∃ t, exec (.chalReady bits) s = .next t ∧ t.dbg.busy = .idle ∧ t.dbg.chalReady = true ∧
        t.dbg.challenge = BitVec.ofNat 256 (leNat ((sha384 e.2).take 32)) ∧ t.dbg.chalAt = s.now ∧
        t = { s with dbg := { s.dbg with busy := .idle, chalReady := true, challenge := t.dbg.challenge, chalAt := s.now } }) ∧
    ((e.1.rct || e.1.apt) = true → exec (.chalReady bits) s =
      .next { s with
        dbg := { s.dbg with busy := .idle },
        regs := { s.regs with rctFail := s.regs.rctFail || e.1.rct, aptFail := s.regs.aptFail || e.1.apt,
                              failCnt := satAdd s.regs.failCnt 1 } })) ∧
  (∀ s : State, s.dbg.chalReady = true →
    (s.dbg.chalAt + 1000000000 ≤ s.now → exec .challengeExpiry s = .next { s with dbg := { s.dbg with chalReady := false } }) ∧
    (s.now < s.dbg.chalAt + 1000000000 → exec .challengeExpiry s = .next s)) ∧
  (∀ (s : State) (r : BitVec 1568), s.start.mode ≠ .reset → s.dbg.busy = .verify r → s.responseRefused r = false →
    (s.unlockOk r = true → ∃ t, exec .unlockVerifyDone s = .next t ∧ t.dbg.sessionOn = true ∧ t.dbg.scope = BitVec.ofNat 4 (bits r.toNat 3 0) ∧
      t.dbg.unlockRes = 1 ∧ t.dbg.chalReady = false ∧ t.dbg.busy = .idle ∧ t.dbg.sessionTick = s.clk.tick ∧
      t.regs.unlockCnt = satAdd s.regs.unlockCnt 1 ∧ t.regs.irqStatus.getLsbD 19 = true ∧ t = { s with dbg := t.dbg, regs := t.regs }) ∧
    (s.unlockOk r = false → ∃ t, exec .unlockVerifyDone s = .next t ∧
      t.dbg = { s.dbg with busy := .idle, chalReady := false, unlockRes := 2, lockout := some (s.now + 100000000) } ∧
      t = { s with dbg := t.dbg, regs := { s.regs with failCnt := satAdd s.regs.failCnt 1 } })) ∧
  (∀ (s : State) (t0 : Nat), s.dbg.lockout = some t0 →
    (t0 ≤ s.now → exec .lockoutEnd s = .next { s with dbg := { s.dbg with lockout := none } }) ∧
    (s.now < t0 → exec .lockoutEnd s = .next s)) ∧
  (∀ s : State,
    ∃ t, exec .trstN s = .next t ∧ t.dbg.ir = 0x01 ∧ t.dbg.tap = .testLogicReset ∧ t.dbg.sessionOn = false ∧ t.dbg.scope = 0 ∧ t.dbg.halted = false ∧
      t.dbg.bkpts = [] ∧ t.dbg.watches = [] ∧ t.dbg.chalReady = false ∧ t.stack = s.stack ∧ t.mortar = s.mortar ∧ t.latches = s.latches)

/-- Run control (R541, R545 to R547): without RUN scope only the instruction register moves; with it HALT asks for a halt that
WARDEN_HALTED makes once no record write is in flight, RESUME ends it, STEP steps a halted Warden (its program counter a free
value, log 9), DB_BKPT and DB_WATCH set the comparators; a hit of an enabled one halts Warden with its cause and index. A DB_RUN
update of any other value has no effect, and while CCLK is stopped an update waits (R555, R557; DEDUCED, log 55). That HALT_CAUSE stays over RESUME is DEDUCED (log 45). -/
def Obligations.RunControlNeedsItsScope : Prop :=
  (∀ s : State, s.runs 2 = false →
    let waits := fun (ir : BitVec 8) (v : Nat) => ({ s.selects ir v with waits := s.waits ++ [.update ir v] } : State)
    exec .halt s = .next (waits 0x20 1) ∧ exec .resume s = .next (waits 0x20 2) ∧ exec .step s = .next (waits 0x20 4) ∧
    (∀ v, exec (.dbBkpt v) s = .next (waits 0x21 v.toNat)) ∧ (∀ v, exec (.dbWatch v) s = .next (waits 0x22 v.toNat))) ∧
  (∀ s : State, s.runs 2 = true → s.debugOpen 2 = false →
    exec .halt s = .next (s.selects 0x20 1) ∧ exec .resume s = .next (s.selects 0x20 2) ∧ exec .step s = .next (s.selects 0x20 4) ∧
    (∀ v, exec (.dbBkpt v) s = .next (s.selects 0x21 v.toNat)) ∧ (∀ v, exec (.dbWatch v) s = .next (s.selects 0x22 v.toNat))) ∧
  (∀ s : State, s.runs 2 = true → s.debugOpen 2 = true →
    let dbg := fun (ir : BitVec 8) (v : Nat) => (s.selects ir v).dbg
    (s.dbg.halted = false → exec .halt s = .next { s with dbg := { dbg 0x20 1 with haltReq := some 1 } }) ∧
    (s.dbg.halted = true → ∃ t, exec .resume s = .next t ∧ t.dbg = { dbg 0x20 2 with halted := false }) ∧
    (s.dbg.halted = true → exec .step s =
      .next { s with dbg := { dbg 0x20 4 with haltCause := 2, pc := Config.wardenPc s.free }, free := s.free + 1 }) ∧
    (∀ v : BitVec 40, bits v.toNat 7 4 = 0 →
      ∃ t, exec (.dbBkpt v) s = .next t ∧ t = { s with dbg := { dbg 0x21 v.toNat with bkpts := t.dbg.bkpts } } ∧
        Sparse.get none t.dbg.bkpts (bits v.toNat 2 0) = (if bit v.toNat 3 then some (BitVec.ofNat 32 (bits v.toNat 39 8)) else none) ∧
        ∀ i, i ≠ bits v.toNat 2 0 → Sparse.get none t.dbg.bkpts i = Sparse.get none s.dbg.bkpts i) ∧
    (∀ v : BitVec 48, bits v.toNat 7 5 = 0 → bits v.toNat 15 12 = 0 → 2 ≤ bits v.toNat 11 8 → bits v.toNat 11 8 ≤ 12 →
      ∃ t, exec (.dbWatch v) s = .next t ∧ t = { s with dbg := { dbg 0x22 v.toNat with watches := t.dbg.watches } } ∧
        Sparse.get none t.dbg.watches (bits v.toNat 1 0) = (if bit v.toNat 2 then some v else none) ∧
        ∀ i, i ≠ bits v.toNat 1 0 → Sparse.get none t.dbg.watches i = Sparse.get none s.dbg.watches i)) ∧
  (∀ (s : State) (c : BitVec 4), s.dbg.haltReq = some c →
    (s.recordBusy = false → exec .wardenHalted s = .next { s with dbg := { s.dbg with halted := true, haltCause := c, haltReq := none } }) ∧
    (s.recordBusy = true → exec .wardenHalted s = .next s)) ∧
  (∀ (s : State) (v : BitVec 4), v ≠ 1 → v ≠ 2 → v ≠ 4 → s.dbRun v = s) ∧
  (∀ (s : State) (i : Nat), s.dbg.halted = false →
    (i < 8 → (Sparse.get none s.dbg.bkpts i).isSome = true → s.recordBusy = false → exec (.breakpointHit i) s =
      .next { s with dbg := { s.dbg with hitIndex := BitVec.ofNat 3 i, halted := true, haltCause := 3, haltReq := none } }) ∧
    (i < 8 → (Sparse.get none s.dbg.bkpts i).isSome = true → s.recordBusy = true → exec (.breakpointHit i) s =
      .next { s with dbg := { s.dbg with hitIndex := BitVec.ofNat 3 i, haltReq := some 3 } }) ∧
    (i < 8 → Sparse.get none s.dbg.bkpts i = none → exec (.breakpointHit i) s = .next s) ∧
    (i < 4 → (Sparse.get none s.dbg.watches i).isSome = true → s.recordBusy = false → exec (.watchpointHit i) s =
      .next { s with dbg := { s.dbg with hitIndex := BitVec.ofNat 3 i, halted := true, haltCause := 4, haltReq := none } }))

/-- Debug accesses and repairs (R11, R541, R548 to R550): without their scope only the instruction register moves; DB_ADDR loads
the address, its reserved bits zero; DB_DATA starts an access that shows PENDING, or DENIED for a write without WRITE scope, and
one of the stack goes to its bank, where it waits behind a course and behind what waits there; a second DB_DATA waits;
DB_ACCESS_DONE ends an access with its result, moves OFFSET on by one unit and starts the next; a write to a latch is DENIED and
has no effect; DB_REPAIR starts a repair that holds its bank; while CCLK is stopped an update waits and no access ends (R555, R557; DEDUCED, log 55). What is DENIED and that an alias takes the mask at acceptance are
DEDUCED (log 51), and so is that a soft repair replaces the entry of its row (log 32). -/
def Obligations.DebugAccessesNeedTheirScope : Prop :=
  (∀ s : State, s.runs 2 = false →
    let waits := fun (ir : BitVec 8) (v : Nat) => ({ s.selects ir v with waits := s.waits ++ [.update ir v] } : State)
    (∀ v, exec (.dbAddr v) s = .next (waits 0x30 v.toNat)) ∧ (∀ v, exec (.dbData v) s = .next (waits 0x31 v.toNat)) ∧
    (∀ v, exec (.dbRepair v) s = .next (waits 0x32 v.toNat)) ∧ exec .dbAccessDone s = .next s) ∧
  (∀ s : State, s.runs 2 = true →
    (s.debugOpen 0 = false → (∀ v, exec (.dbAddr v) s = .next (s.selects 0x30 v.toNat)) ∧
      ∀ v, exec (.dbData v) s = .next (s.selects 0x31 v.toNat)) ∧
    (s.debugOpen 3 = false → ∀ v, exec (.dbRepair v) s = .next (s.selects 0x32 v.toNat))) ∧
  (∀ s : State, s.runs 2 = true → s.debugOpen 0 = true →
    (∀ v, exec (.dbAddr v) s = .next { s with dbg := { (s.selects 0x30 v.toNat).dbg with addr := v &&& 0xFFFFFFFFFF07 } }) ∧
    (∀ u : BitVec 152,
      let sel := (s.selects 0x31 u.toNat).dbg
      let write := bit u.toNat 147
      let d : Debug := { sel with access := some u, accessAddr := s.dbg.addr }
      let shows := fun (outcome : Nat) (w : Bool) =>
        ({ s with dbg := { d with result := dbWord 0 0 outcome w, accessChans := s.maskOf d.offset } } : State)
      (s.dbg.access.isSome = true → exec (.dbData u) s = .next { s with dbg := { sel with accessNext := s.dbg.accessNext ++ [u] } }) ∧
      (s.dbg.access = none → write = true → s.granted 1 = false → exec (.dbData u) s = .next (shows 4 true)) ∧
      (s.dbg.access = none → (write = false ∨ s.granted 1 = true) →
        ((d.space ≠ 1 ∨ 9216 * slabSize ≤ d.offset ∨ s.stackServed = false) → exec (.dbData u) s = .next (shows 5 write)) ∧
        (d.space = 1 → d.offset < 9216 * slabSize → s.stackServed = true →
          let a : BankAccess := .debug write s.seq
          let k := ((shows 5 write).accessLoc a).bank
          (s.bankWaits k = true →
            ∃ t, exec (.dbData u) s = .next t ∧ (t.bank k).queue = (s.bank k).queue ++ [a] ∧ t.dbg = (shows 5 write).dbg ∧
              (∀ j, j ≠ k → t.bank j = s.bank j) ∧ SameMemory s t) ∧
          (s.bankWaits k = false →
            ∃ t, exec (.dbData u) s = .next t ∧ t.dbg.access = some u ∧ t.dbg.shown = dbWord 0 0 5 write ∧ dbOutcome t.dbg.result ≠ 5 ∧
              t.dbg.addr = s.dbg.addr))))) ∧
  (∀ (s : State) (u : BitVec 152), s.dbg.access = some u → s.dbQueued = false → s.start.mode ≠ .reset → s.runs 2 = true →
    (s.dbg.space = 2 → s.runs 1 = true) →
    let moved := fun (t : State) => bits t.dbg.addr.toNat 47 8 = (bits s.dbg.addr.toNat 47 8 + s.dbg.unit) % 2 ^ 40 ∧
      bits t.dbg.addr.toNat 7 0 = bits s.dbg.addr.toNat 7 0
    (dbOutcome s.dbg.result = 5 → s.dbg.accessNext = [] →
      ∃ t, exec .dbAccessDone s = .next t ∧ t.dbg.access = none ∧ t.dbg.result = (s.dbPerform u).dbg.result ∧ moved t ∧
        (s.dbg.space = 0 → 0x400000 ≤ s.dbg.offset → s.dbg.offset < 0x480000 → bit u.toNat 147 = true →
          t.dbg.result = dbWord 0 0 4 true ∧ t = { s with dbg := t.dbg })) ∧
    (dbOutcome s.dbg.result ≠ 5 → s.dbg.accessNext = [] →
      ∃ t, exec .dbAccessDone s = .next t ∧ t.dbg.access = none ∧ t.dbg.result = s.dbg.result ∧ moved t ∧ t = { s with dbg := t.dbg }) ∧
    (∀ v l, s.dbg.accessNext = v :: l → dbOutcome s.dbg.result ≠ 5 →
      ∃ t : State, exec .dbAccessDone s = .next (t.dbStart v) ∧ t.dbg.access = none ∧ t.dbg.accessNext = l ∧ moved t)) ∧
  (∀ s : State, s.start.mode = .reset → exec .dbAccessDone s = .next s) ∧
  (∀ (s : State) (v : BitVec 40), s.runs 2 = true → s.debugOpen 3 = true → s.serving = true → s.dbg.repairRes ≠ 1 → s.repairing = none →
    let dbg := (s.selects 0x32 v.toNat).dbg
    let bank := bits v.toNat 13 2
    let row := bits v.toNat 27 14
    ((bits v.toNat 1 0 = 3 ∨ bits v.toNat 1 0 = 1 ∧ 9208 ≤ row) →
      exec (.dbRepair v) s = .next { s with dbg := { dbg with repairRes := 6 } }) ∧
    (bits v.toNat 1 0 = 1 → row < 9208 → 4 ≤ (s.bank bank).soft.length →
      ∃ t, exec (.dbRepair v) s = .next t ∧ t.dbg = { dbg with repairRes := 3 } ∧ t.banks = s.banks) ∧
    (∀ sp, bits v.toNat 1 0 = 1 → row < 9208 → (s.bank bank).freeSpare = some sp → (s.bank bank).soft.length < 4 →
      ∃ t, exec (.dbRepair v) s = .next t ∧ t.dbg = { dbg with repairRes := 1 } ∧
        t.mbox.bg = s.mbox.bg ++ [.repair none false bank row sp 0 false] ∧ t.bank bank = { s.bank bank with hold := true } ∧
        (∀ j, j ≠ bank → t.bank j = s.bank j) ∧ t = { s with dbg := t.dbg, mbox := t.mbox, banks := t.banks }))
end

