-- ==== Sys2Proof/Laws/Plan.lean ====
section
/-!
SUPPORT. Plans of the Keystone engine: what is paid for and what is still owed make up the whole.
-/

namespace Sys2Proof.Machine

@[simp] theorem planCost_nil : planCost [] = 0 := rfl

@[simp] theorem planCost_cons (r : Reach) (p : List Reach) : planCost (r :: p) = r.cost + planCost p := by
  simp [planCost]

@[simp] theorem planCost_append (p q : List Reach) : planCost (p ++ q) = planCost p + planCost q := by
  simp [planCost]

/-- Nothing of a plan is lost or paid for twice. -/
theorem planCost_split (owed : Nat) (plan : List Reach) :
    planCost (splitPlan owed plan).1 + planCost (splitPlan owed plan).2 = planCost plan := by
  induction plan with
  | nil => rfl
  | cons r p ih =>
    simp only [splitPlan]
    split
    · simp only [planCost_cons]; omega
    · cases r with
      | take k bs => simp
      | row w k phys ls =>
        dsimp only
        split
        · simp
        · simp only [planCost_cons, planCost_nil, Reach.cost, List.length_take, List.length_drop]; omega

/-- What is still owed stays within the part that is not made yet. -/
theorem planCost_rest (owed : Nat) (plan : List Reach) (h : owed ≤ planCost plan) : owed ≤ planCost (splitPlan owed plan).2 := by
  induction plan with
  | nil => exact h
  | cons r p ih =>
    simp only [splitPlan]
    split
    · exact ih ‹_›
    · cases r with
      | take k bs => exact h
      | row w k phys ls =>
        dsimp only
        split
        · exact h
        · simp only [planCost_cons, Reach.cost, List.length_drop] at *; omega

/-- A plan that nothing is owed for is made whole. -/
theorem splitPlan_zero (plan : List Reach) : splitPlan 0 plan = (plan, []) := by
  induction plan with
  | nil => rfl
  | cons r p ih => simp [splitPlan, ih]

/-- An access that goes leaves no work item. -/
theorem State.ksMove_goes (s : State) (plan : List Reach) (cost params : Nat) (task : KsTask) (h : s.goes plan cost = true) :
    (s.ksMove plan cost params task).2 = false := by
  simp [State.ksMove, h]

end Sys2Proof.Machine
end

