-- ==== Sys2Proof/Laws/Sparse.lean ====
section
/-!
SUPPORT. Sparse maps: what a write leaves readable, and that every operation keeps the canonical form.
-/

namespace Sys2Proof.Machine

variable {α : Type}

theorem Sparse.get_nil (d : α) (i : Nat) : Sparse.get d ([] : Sparse α) i = d := rfl

theorem Sparse.get_put (d : α) (m : Sparse α) (k : Nat) (v : α) (i : Nat) :
    Sparse.get d (Sparse.put k v m) i = if i = k then v else Sparse.get d m i := by
  induction m with
  | nil => simp [Sparse.put, Sparse.get]
  | cons e r ih =>
    obtain ⟨k', v'⟩ := e
    by_cases h1 : k < k'
    · simp only [Sparse.put, h1, if_true, Sparse.get]
    · by_cases h2 : k = k'
      · subst h2
        by_cases h : i = k <;> simp [Sparse.put, Sparse.get, h]
      · simp only [Sparse.put, h1, h2, if_false, Sparse.get, ih]
        by_cases h3 : i = k'
        · subst h3; simp [Ne.symm h2]
        · simp [h3]

theorem Sparse.get_del (d : α) (m : Sparse α) (k i : Nat) :
    Sparse.get d (Sparse.del k m) i = if i = k then d else Sparse.get d m i := by
  induction m with
  | nil => simp [Sparse.del, Sparse.get]
  | cons e r ih =>
    obtain ⟨k', v'⟩ := e
    have ih' : Sparse.get d (List.filter (fun e => e.1 != k) r) i = if i = k then d else Sparse.get d r i := ih
    by_cases h : k' = k
    · subst h
      have : List.filter (fun e => e.1 != k') ((k', v') :: r) = List.filter (fun e => e.1 != k') r := by simp
      simp only [Sparse.del, this, ih', Sparse.get]
      by_cases hi : i = k' <;> simp [hi]
    · have : List.filter (fun e => e.1 != k) ((k', v') :: r) = (k', v') :: List.filter (fun e => e.1 != k) r := by
        simp [h]
      simp only [Sparse.del, this, Sparse.get, ih']
      by_cases hi : i = k'
      · subst hi; simp [h]
      · simp [hi]

/-- A write is read back at its key and leaves every other key alone. -/
theorem Sparse.get_set [DecidableEq α] (d : α) (m : Sparse α) (k : Nat) (v : α) (i : Nat) :
    Sparse.get d (Sparse.set d m k v) i = if i = k then v else Sparse.get d m i := by
  unfold Sparse.set
  by_cases h : v = d
  · simp [h, Sparse.get_del]
  · simp [h, Sparse.get_put]

@[simp] theorem Sparse.get_set_self [DecidableEq α] (d : α) (m : Sparse α) (k : Nat) (v : α) :
    Sparse.get d (Sparse.set d m k v) k = v := by simp [Sparse.get_set]

theorem Sparse.get_set_ne [DecidableEq α] (d : α) (m : Sparse α) {k i : Nat} (v : α) (h : i ≠ k) :
    Sparse.get d (Sparse.set d m k v) i = Sparse.get d m i := by simp [Sparse.get_set, h]

/-! ### Canonical form -/

theorem Sparse.rising_cons_iff (lo : Option Nat) (e : Nat × α) (r : Sparse α) :
    Sparse.rising lo (e :: r) = true ↔ (∀ l ∈ lo, l < e.1) ∧ Sparse.rising (some e.1) r = true := by
  obtain ⟨k, v⟩ := e
  cases lo <;> simp [Sparse.rising]

theorem Sparse.rising_mono {lo lo' : Option Nat} (h : ∀ l ∈ lo, ∃ l' ∈ lo', l ≤ l') (m : Sparse α)
    (hm : Sparse.rising lo' m = true) : Sparse.rising lo m = true := by
  cases m with
  | nil => cases lo <;> rfl
  | cons e r =>
    rw [Sparse.rising_cons_iff] at hm ⊢
    refine ⟨fun l hl => ?_, hm.2⟩
    obtain ⟨l', hl', hle⟩ := h l hl
    exact lt_of_le_of_lt hle (hm.1 l' hl')

theorem Sparse.rising_filter (p : Nat × α → Bool) (lo : Option Nat) (m : Sparse α) (hm : Sparse.rising lo m = true) :
    Sparse.rising lo (m.filter p) = true := by
  induction m generalizing lo with
  | nil => exact hm
  | cons e r ih =>
    rw [Sparse.rising_cons_iff] at hm
    by_cases h : p e = true
    · rw [List.filter_cons_of_pos h, Sparse.rising_cons_iff]
      exact ⟨hm.1, ih _ hm.2⟩
    · rw [List.filter_cons_of_neg h]
      apply Sparse.rising_mono (lo' := some e.1) _ _ (ih _ hm.2)
      intro l hl
      exact ⟨e.1, rfl, le_of_lt (hm.1 l hl)⟩

theorem Sparse.rising_put (k : Nat) (v : α) (lo : Option Nat) (m : Sparse α) (hlo : ∀ l ∈ lo, l < k)
    (hm : Sparse.rising lo m = true) : Sparse.rising lo (Sparse.put k v m) = true := by
  induction m generalizing lo with
  | nil =>
    rw [Sparse.put, Sparse.rising_cons_iff]
    exact ⟨hlo, rfl⟩
  | cons e r ih =>
    obtain ⟨k', v'⟩ := e
    rw [Sparse.rising_cons_iff] at hm
    by_cases h1 : k < k'
    · simp only [Sparse.put, h1, if_true]
      rw [Sparse.rising_cons_iff, Sparse.rising_cons_iff]
      exact ⟨hlo, by simpa using h1, hm.2⟩
    · by_cases h2 : k = k'
      · subst h2
        simp only [Sparse.put, h1, if_false, if_true]
        rw [Sparse.rising_cons_iff]
        exact ⟨hlo, hm.2⟩
      · simp only [Sparse.put, h1, h2, if_false]
        rw [Sparse.rising_cons_iff]
        exact ⟨hm.1, ih _ (by simp only [Option.mem_def, Option.some.injEq]; intro l hl; subst hl; omega) hm.2⟩

theorem Sparse.all_put (p : Nat × α → Bool) (k : Nat) (v : α) (m : Sparse α) (hv : p (k, v) = true) (hm : m.all p = true) :
    (Sparse.put k v m).all p = true := by
  induction m with
  | nil => simp [Sparse.put, hv]
  | cons e r ih =>
    obtain ⟨k', v'⟩ := e
    simp only [List.all_cons, Bool.and_eq_true] at hm
    by_cases h1 : k < k'
    · simp [Sparse.put, h1, hv, hm.1, hm.2]
    · by_cases h2 : k = k'
      · subst h2
        simp only [Sparse.put, lt_irrefl, if_false, if_true, List.all_cons, Bool.and_eq_true]
        exact ⟨hv, hm.2⟩
      · simp [Sparse.put, h1, h2, hm.1, ih hm.2]

theorem Sparse.all_filter (p q : Nat × α → Bool) (m : Sparse α) (hm : m.all p = true) : (m.filter q).all p = true := by
  rw [List.all_eq_true] at hm ⊢
  intro e he
  exact hm e (List.mem_of_mem_filter he)

variable [DecidableEq α]

theorem Sparse.wf_nil (d : α) : Sparse.wf d ([] : Sparse α) = true := rfl

/-- Dropping entries keeps the canonical form. -/
theorem Sparse.wf_filter (d : α) (p : Nat × α → Bool) (m : Sparse α) (hm : Sparse.wf d m = true) :
    Sparse.wf d (m.filter p) = true := by
  simp only [Sparse.wf, Bool.and_eq_true] at hm ⊢
  exact ⟨Sparse.rising_filter p _ _ hm.1, Sparse.all_filter _ _ _ hm.2⟩

theorem Sparse.wf_put (d : α) (k : Nat) (v : α) (m : Sparse α) (hv : v ≠ d) (hm : Sparse.wf d m = true) :
    Sparse.wf d (Sparse.put k v m) = true := by
  simp only [Sparse.wf, Bool.and_eq_true] at hm ⊢
  exact ⟨Sparse.rising_put k v _ _ (by simp) hm.1, Sparse.all_put _ k v m (by simpa using hv) hm.2⟩

/-- A write keeps the canonical form. -/
theorem Sparse.wf_set (d : α) (m : Sparse α) (k : Nat) (v : α) (hm : Sparse.wf d m = true) :
    Sparse.wf d (Sparse.set d m k v) = true := by
  unfold Sparse.set
  by_cases h : v = d
  · simp only [h, if_true]
    exact Sparse.wf_filter d _ m hm
  · simp only [h, if_false]
    exact Sparse.wf_put d k v m h hm

omit [DecidableEq α] in
theorem Sparse.get_of_rising {d : α} {i : Nat} {m : Sparse α} (hm : Sparse.rising (some i) m = true) : Sparse.get d m i = d := by
  induction m with
  | nil => rfl
  | cons e r ih =>
    obtain ⟨k, v⟩ := e
    rw [Sparse.rising_cons_iff] at hm
    have hk : i < k := hm.1 i rfl
    rw [Sparse.get, if_neg (by omega)]
    exact ih (Sparse.rising_mono (lo' := some k) (by simp; omega) r hm.2)

/-- Two maps in canonical form that read alike are equal. -/
theorem Sparse.ext_of_wf (d : α) {m n : Sparse α} (hm : Sparse.wf d m = true) (hn : Sparse.wf d n = true)
    (h : ∀ i, Sparse.get d m i = Sparse.get d n i) : m = n := by
  induction m generalizing n with
  | nil =>
    cases n with
    | nil => rfl
    | cons e r =>
      exfalso
      simp only [Sparse.wf, Bool.and_eq_true, List.all_cons, decide_eq_true_eq] at hn
      have := h e.1
      rw [show Sparse.get d (e :: r) e.1 = e.2 by simp [Sparse.get]] at this
      exact hn.2.1 this.symm
  | cons a m ih =>
    cases n with
    | nil =>
      exfalso
      simp only [Sparse.wf, Bool.and_eq_true, List.all_cons, decide_eq_true_eq] at hm
      have := h a.1
      rw [show Sparse.get d (a :: m) a.1 = a.2 by simp [Sparse.get]] at this
      exact hm.2.1 this
    | cons b n =>
      obtain ⟨ka, va⟩ := a
      obtain ⟨kb, vb⟩ := b
      simp only [Sparse.wf, Bool.and_eq_true, List.all_cons, decide_eq_true_eq] at hm hn
      have hma := (Sparse.rising_cons_iff none (ka, va) m).1 hm.1
      have hnb := (Sparse.rising_cons_iff none (kb, vb) n).1 hn.1
      have hk : ka = kb := by
        rcases lt_trichotomy ka kb with hlt | heq | hgt
        · exfalso
          have h1 := h ka
          rw [show Sparse.get d ((ka, va) :: m) ka = va by simp [Sparse.get]] at h1
          have h2 : Sparse.get d ((kb, vb) :: n) ka = d := by
            rw [Sparse.get, if_neg (by omega)]
            exact Sparse.get_of_rising (Sparse.rising_mono (lo' := some kb) (by simp; omega) n hnb.2)
          exact hm.2.1 (h1.trans h2)
        · exact heq
        · exfalso
          have h1 := h kb
          rw [show Sparse.get d ((kb, vb) :: n) kb = vb by simp [Sparse.get]] at h1
          have h2 : Sparse.get d ((ka, va) :: m) kb = d := by
            rw [Sparse.get, if_neg (by omega)]
            exact Sparse.get_of_rising (Sparse.rising_mono (lo' := some ka) (by simp; omega) m hma.2)
          exact hn.2.1 (h1.symm.trans h2)
      subst hk
      have hv : va = vb := by
        have h1 := h ka
        simpa [Sparse.get] using h1
      subst hv
      congr 1
      apply ih
      · simp only [Sparse.wf, Bool.and_eq_true]
        exact ⟨Sparse.rising_mono (lo' := some ka) (by simp) m hma.2, hm.2.2⟩
      · simp only [Sparse.wf, Bool.and_eq_true]
        exact ⟨Sparse.rising_mono (lo' := some ka) (by simp) n hnb.2, hn.2.2⟩
      · intro i
        have h1 := h i
        by_cases hi : i = ka
        · subst hi
          rw [Sparse.get_of_rising hma.2, Sparse.get_of_rising hnb.2]
        · simpa [Sparse.get, hi] using h1

end Sys2Proof.Machine
end

