-- ==== Sys2Proof/Laws/State.lean ====
section
/-!
SUPPORT. What each update of the state leaves unchanged, field by field, and what a reader gives after a writer.
-/

namespace Sys2Proof.Machine

/-! ### Fields after an update -/

@[simp] theorem State.setPort_pending (s : State) (n : Nat) (x : PintlePort) : (s.setPort n x).pending = s.pending := rfl
@[simp] theorem State.setPort_clk (s : State) (n : Nat) (x : PintlePort) : (s.setPort n x).clk = s.clk := rfl
@[simp] theorem State.setPort_regs (s : State) (n : Nat) (x : PintlePort) : (s.setPort n x).regs = s.regs := rfl
@[simp] theorem State.setPort_plumb (s : State) (n : Nat) (x : PintlePort) : (s.setPort n x).plumb = s.plumb := rfl
@[simp] theorem State.setPort_start (s : State) (n : Nat) (x : PintlePort) : (s.setPort n x).start = s.start := rfl
@[simp] theorem State.setPort_dbg (s : State) (n : Nat) (x : PintlePort) : (s.setPort n x).dbg = s.dbg := rfl
@[simp] theorem State.setPort_fab (s : State) (n : Nat) (x : PintlePort) : (s.setPort n x).fab = s.fab := rfl
@[simp] theorem State.setPort_ct (s : State) (n : Nat) (x : PintlePort) : (s.setPort n x).ct = s.ct := rfl
@[simp] theorem State.setPort_latches (s : State) (n : Nat) (x : PintlePort) : (s.setPort n x).latches = s.latches := rfl
@[simp] theorem State.setPort_acq (s : State) (n : Nat) (x : PintlePort) : (s.setPort n x).acq = s.acq := rfl
@[simp] theorem State.setPort_chans (s : State) (n : Nat) (x : PintlePort) : (s.setPort n x).chans = s.chans := rfl
@[simp] theorem State.setPort_dies (s : State) (n : Nat) (x : PintlePort) : (s.setPort n x).dies = s.dies := rfl
@[simp] theorem State.setPort_banks (s : State) (n : Nat) (x : PintlePort) : (s.setPort n x).banks = s.banks := rfl
@[simp] theorem State.setPort_rings (s : State) (n : Nat) (x : PintlePort) : (s.setPort n x).rings = s.rings := rfl
@[simp] theorem State.setPort_slates (s : State) (n : Nat) (x : PintlePort) : (s.setPort n x).slates = s.slates := rfl
@[simp] theorem State.setPort_regions (s : State) (n : Nat) (x : PintlePort) : (s.setPort n x).regions = s.regions := rfl
@[simp] theorem State.setPort_groups (s : State) (n : Nat) (x : PintlePort) : (s.setPort n x).groups = s.groups := rfl
@[simp] theorem State.setPort_ctl (s : State) (n : Nat) (x : PintlePort) : (s.setPort n x).ctl = s.ctl := rfl
@[simp] theorem State.setPort_mbox (s : State) (n : Nat) (x : PintlePort) : (s.setPort n x).mbox = s.mbox := rfl
@[simp] theorem State.setPort_stack (s : State) (n : Nat) (x : PintlePort) : (s.setPort n x).stack = s.stack := rfl
@[simp] theorem State.setPort_bg (s : State) (n : Nat) (x : PintlePort) : (s.setPort n x).bg = s.bg := rfl
@[simp] theorem State.setPort_mortar (s : State) (n : Nat) (x : PintlePort) : (s.setPort n x).mortar = s.mortar := rfl
@[simp] theorem State.setPort_hasps (s : State) (n : Nat) (x : PintlePort) : (s.setPort n x).hasps = s.hasps := rfl
@[simp] theorem State.setPort_idPage (s : State) (n : Nat) (x : PintlePort) : (s.setPort n x).idPage = s.idPage := rfl
@[simp] theorem State.setPort_idSyn (s : State) (n : Nat) (x : PintlePort) : (s.setPort n x).idSyn = s.idSyn := rfl
@[simp] theorem State.setPort_nodeId (s : State) (n : Nat) (x : PintlePort) : (s.setPort n x).nodeId = s.nodeId := rfl
@[simp] theorem State.setPort_jtagMfr (s : State) (n : Nat) (x : PintlePort) : (s.setPort n x).jtagMfr = s.jtagMfr := rfl
@[simp] theorem State.setPort_ipRev (s : State) (n : Nat) (x : PintlePort) : (s.setPort n x).ipRev = s.ipRev := rfl
@[simp] theorem State.setPort_seq (s : State) (n : Nat) (x : PintlePort) : (s.setPort n x).seq = s.seq := rfl
@[simp] theorem State.setPort_crossing (s : State) (n : Nat) (x : PintlePort) : (s.setPort n x).crossing = s.crossing := rfl
@[simp] theorem State.setPort_waits (s : State) (n : Nat) (x : PintlePort) : (s.setPort n x).waits = s.waits := rfl
@[simp] theorem State.setPort_dbWords (s : State) (n : Nat) (x : PintlePort) : (s.setPort n x).dbWords = s.dbWords := rfl
@[simp] theorem State.setPort_free (s : State) (n : Nat) (x : PintlePort) : (s.setPort n x).free = s.free := rfl

@[simp] theorem State.setChan_pending (s : State) (n : Nat) (x : Channel) : (s.setChan n x).pending = s.pending := rfl
@[simp] theorem State.setChan_clk (s : State) (n : Nat) (x : Channel) : (s.setChan n x).clk = s.clk := rfl
@[simp] theorem State.setChan_regs (s : State) (n : Nat) (x : Channel) : (s.setChan n x).regs = s.regs := rfl
@[simp] theorem State.setChan_plumb (s : State) (n : Nat) (x : Channel) : (s.setChan n x).plumb = s.plumb := rfl
@[simp] theorem State.setChan_start (s : State) (n : Nat) (x : Channel) : (s.setChan n x).start = s.start := rfl
@[simp] theorem State.setChan_dbg (s : State) (n : Nat) (x : Channel) : (s.setChan n x).dbg = s.dbg := rfl
@[simp] theorem State.setChan_ports (s : State) (n : Nat) (x : Channel) : (s.setChan n x).ports = s.ports := rfl
@[simp] theorem State.setChan_fab (s : State) (n : Nat) (x : Channel) : (s.setChan n x).fab = s.fab := rfl
@[simp] theorem State.setChan_ct (s : State) (n : Nat) (x : Channel) : (s.setChan n x).ct = s.ct := rfl
@[simp] theorem State.setChan_latches (s : State) (n : Nat) (x : Channel) : (s.setChan n x).latches = s.latches := rfl
@[simp] theorem State.setChan_acq (s : State) (n : Nat) (x : Channel) : (s.setChan n x).acq = s.acq := rfl
@[simp] theorem State.setChan_dies (s : State) (n : Nat) (x : Channel) : (s.setChan n x).dies = s.dies := rfl
@[simp] theorem State.setChan_banks (s : State) (n : Nat) (x : Channel) : (s.setChan n x).banks = s.banks := rfl
@[simp] theorem State.setChan_rings (s : State) (n : Nat) (x : Channel) : (s.setChan n x).rings = s.rings := rfl
@[simp] theorem State.setChan_slates (s : State) (n : Nat) (x : Channel) : (s.setChan n x).slates = s.slates := rfl
@[simp] theorem State.setChan_regions (s : State) (n : Nat) (x : Channel) : (s.setChan n x).regions = s.regions := rfl
@[simp] theorem State.setChan_groups (s : State) (n : Nat) (x : Channel) : (s.setChan n x).groups = s.groups := rfl
@[simp] theorem State.setChan_ctl (s : State) (n : Nat) (x : Channel) : (s.setChan n x).ctl = s.ctl := rfl
@[simp] theorem State.setChan_mbox (s : State) (n : Nat) (x : Channel) : (s.setChan n x).mbox = s.mbox := rfl
@[simp] theorem State.setChan_stack (s : State) (n : Nat) (x : Channel) : (s.setChan n x).stack = s.stack := rfl
@[simp] theorem State.setChan_bg (s : State) (n : Nat) (x : Channel) : (s.setChan n x).bg = s.bg := rfl
@[simp] theorem State.setChan_mortar (s : State) (n : Nat) (x : Channel) : (s.setChan n x).mortar = s.mortar := rfl
@[simp] theorem State.setChan_hasps (s : State) (n : Nat) (x : Channel) : (s.setChan n x).hasps = s.hasps := rfl
@[simp] theorem State.setChan_idPage (s : State) (n : Nat) (x : Channel) : (s.setChan n x).idPage = s.idPage := rfl
@[simp] theorem State.setChan_idSyn (s : State) (n : Nat) (x : Channel) : (s.setChan n x).idSyn = s.idSyn := rfl
@[simp] theorem State.setChan_nodeId (s : State) (n : Nat) (x : Channel) : (s.setChan n x).nodeId = s.nodeId := rfl
@[simp] theorem State.setChan_jtagMfr (s : State) (n : Nat) (x : Channel) : (s.setChan n x).jtagMfr = s.jtagMfr := rfl
@[simp] theorem State.setChan_ipRev (s : State) (n : Nat) (x : Channel) : (s.setChan n x).ipRev = s.ipRev := rfl
@[simp] theorem State.setChan_seq (s : State) (n : Nat) (x : Channel) : (s.setChan n x).seq = s.seq := rfl
@[simp] theorem State.setChan_crossing (s : State) (n : Nat) (x : Channel) : (s.setChan n x).crossing = s.crossing := rfl
@[simp] theorem State.setChan_waits (s : State) (n : Nat) (x : Channel) : (s.setChan n x).waits = s.waits := rfl
@[simp] theorem State.setChan_dbWords (s : State) (n : Nat) (x : Channel) : (s.setChan n x).dbWords = s.dbWords := rfl
@[simp] theorem State.setChan_free (s : State) (n : Nat) (x : Channel) : (s.setChan n x).free = s.free := rfl

@[simp] theorem State.setDie_pending (s : State) (n : Nat) (x : Die) : (s.setDie n x).pending = s.pending := rfl
@[simp] theorem State.setDie_clk (s : State) (n : Nat) (x : Die) : (s.setDie n x).clk = s.clk := rfl
@[simp] theorem State.setDie_regs (s : State) (n : Nat) (x : Die) : (s.setDie n x).regs = s.regs := rfl
@[simp] theorem State.setDie_plumb (s : State) (n : Nat) (x : Die) : (s.setDie n x).plumb = s.plumb := rfl
@[simp] theorem State.setDie_start (s : State) (n : Nat) (x : Die) : (s.setDie n x).start = s.start := rfl
@[simp] theorem State.setDie_dbg (s : State) (n : Nat) (x : Die) : (s.setDie n x).dbg = s.dbg := rfl
@[simp] theorem State.setDie_ports (s : State) (n : Nat) (x : Die) : (s.setDie n x).ports = s.ports := rfl
@[simp] theorem State.setDie_fab (s : State) (n : Nat) (x : Die) : (s.setDie n x).fab = s.fab := rfl
@[simp] theorem State.setDie_ct (s : State) (n : Nat) (x : Die) : (s.setDie n x).ct = s.ct := rfl
@[simp] theorem State.setDie_latches (s : State) (n : Nat) (x : Die) : (s.setDie n x).latches = s.latches := rfl
@[simp] theorem State.setDie_acq (s : State) (n : Nat) (x : Die) : (s.setDie n x).acq = s.acq := rfl
@[simp] theorem State.setDie_chans (s : State) (n : Nat) (x : Die) : (s.setDie n x).chans = s.chans := rfl
@[simp] theorem State.setDie_banks (s : State) (n : Nat) (x : Die) : (s.setDie n x).banks = s.banks := rfl
@[simp] theorem State.setDie_rings (s : State) (n : Nat) (x : Die) : (s.setDie n x).rings = s.rings := rfl
@[simp] theorem State.setDie_slates (s : State) (n : Nat) (x : Die) : (s.setDie n x).slates = s.slates := rfl
@[simp] theorem State.setDie_regions (s : State) (n : Nat) (x : Die) : (s.setDie n x).regions = s.regions := rfl
@[simp] theorem State.setDie_groups (s : State) (n : Nat) (x : Die) : (s.setDie n x).groups = s.groups := rfl
@[simp] theorem State.setDie_ctl (s : State) (n : Nat) (x : Die) : (s.setDie n x).ctl = s.ctl := rfl
@[simp] theorem State.setDie_mbox (s : State) (n : Nat) (x : Die) : (s.setDie n x).mbox = s.mbox := rfl
@[simp] theorem State.setDie_stack (s : State) (n : Nat) (x : Die) : (s.setDie n x).stack = s.stack := rfl
@[simp] theorem State.setDie_bg (s : State) (n : Nat) (x : Die) : (s.setDie n x).bg = s.bg := rfl
@[simp] theorem State.setDie_mortar (s : State) (n : Nat) (x : Die) : (s.setDie n x).mortar = s.mortar := rfl
@[simp] theorem State.setDie_hasps (s : State) (n : Nat) (x : Die) : (s.setDie n x).hasps = s.hasps := rfl
@[simp] theorem State.setDie_idPage (s : State) (n : Nat) (x : Die) : (s.setDie n x).idPage = s.idPage := rfl
@[simp] theorem State.setDie_idSyn (s : State) (n : Nat) (x : Die) : (s.setDie n x).idSyn = s.idSyn := rfl
@[simp] theorem State.setDie_nodeId (s : State) (n : Nat) (x : Die) : (s.setDie n x).nodeId = s.nodeId := rfl
@[simp] theorem State.setDie_jtagMfr (s : State) (n : Nat) (x : Die) : (s.setDie n x).jtagMfr = s.jtagMfr := rfl
@[simp] theorem State.setDie_ipRev (s : State) (n : Nat) (x : Die) : (s.setDie n x).ipRev = s.ipRev := rfl
@[simp] theorem State.setDie_seq (s : State) (n : Nat) (x : Die) : (s.setDie n x).seq = s.seq := rfl
@[simp] theorem State.setDie_crossing (s : State) (n : Nat) (x : Die) : (s.setDie n x).crossing = s.crossing := rfl
@[simp] theorem State.setDie_waits (s : State) (n : Nat) (x : Die) : (s.setDie n x).waits = s.waits := rfl
@[simp] theorem State.setDie_dbWords (s : State) (n : Nat) (x : Die) : (s.setDie n x).dbWords = s.dbWords := rfl
@[simp] theorem State.setDie_free (s : State) (n : Nat) (x : Die) : (s.setDie n x).free = s.free := rfl

@[simp] theorem State.setBank_pending (s : State) (n : Nat) (x : Bank) : (s.setBank n x).pending = s.pending := rfl
@[simp] theorem State.setBank_clk (s : State) (n : Nat) (x : Bank) : (s.setBank n x).clk = s.clk := rfl
@[simp] theorem State.setBank_regs (s : State) (n : Nat) (x : Bank) : (s.setBank n x).regs = s.regs := rfl
@[simp] theorem State.setBank_plumb (s : State) (n : Nat) (x : Bank) : (s.setBank n x).plumb = s.plumb := rfl
@[simp] theorem State.setBank_start (s : State) (n : Nat) (x : Bank) : (s.setBank n x).start = s.start := rfl
@[simp] theorem State.setBank_dbg (s : State) (n : Nat) (x : Bank) : (s.setBank n x).dbg = s.dbg := rfl
@[simp] theorem State.setBank_ports (s : State) (n : Nat) (x : Bank) : (s.setBank n x).ports = s.ports := rfl
@[simp] theorem State.setBank_fab (s : State) (n : Nat) (x : Bank) : (s.setBank n x).fab = s.fab := rfl
@[simp] theorem State.setBank_ct (s : State) (n : Nat) (x : Bank) : (s.setBank n x).ct = s.ct := rfl
@[simp] theorem State.setBank_latches (s : State) (n : Nat) (x : Bank) : (s.setBank n x).latches = s.latches := rfl
@[simp] theorem State.setBank_acq (s : State) (n : Nat) (x : Bank) : (s.setBank n x).acq = s.acq := rfl
@[simp] theorem State.setBank_chans (s : State) (n : Nat) (x : Bank) : (s.setBank n x).chans = s.chans := rfl
@[simp] theorem State.setBank_dies (s : State) (n : Nat) (x : Bank) : (s.setBank n x).dies = s.dies := rfl
@[simp] theorem State.setBank_rings (s : State) (n : Nat) (x : Bank) : (s.setBank n x).rings = s.rings := rfl
@[simp] theorem State.setBank_slates (s : State) (n : Nat) (x : Bank) : (s.setBank n x).slates = s.slates := rfl
@[simp] theorem State.setBank_regions (s : State) (n : Nat) (x : Bank) : (s.setBank n x).regions = s.regions := rfl
@[simp] theorem State.setBank_groups (s : State) (n : Nat) (x : Bank) : (s.setBank n x).groups = s.groups := rfl
@[simp] theorem State.setBank_ctl (s : State) (n : Nat) (x : Bank) : (s.setBank n x).ctl = s.ctl := rfl
@[simp] theorem State.setBank_mbox (s : State) (n : Nat) (x : Bank) : (s.setBank n x).mbox = s.mbox := rfl
@[simp] theorem State.setBank_stack (s : State) (n : Nat) (x : Bank) : (s.setBank n x).stack = s.stack := rfl
@[simp] theorem State.setBank_bg (s : State) (n : Nat) (x : Bank) : (s.setBank n x).bg = s.bg := rfl
@[simp] theorem State.setBank_mortar (s : State) (n : Nat) (x : Bank) : (s.setBank n x).mortar = s.mortar := rfl
@[simp] theorem State.setBank_hasps (s : State) (n : Nat) (x : Bank) : (s.setBank n x).hasps = s.hasps := rfl
@[simp] theorem State.setBank_idPage (s : State) (n : Nat) (x : Bank) : (s.setBank n x).idPage = s.idPage := rfl
@[simp] theorem State.setBank_idSyn (s : State) (n : Nat) (x : Bank) : (s.setBank n x).idSyn = s.idSyn := rfl
@[simp] theorem State.setBank_nodeId (s : State) (n : Nat) (x : Bank) : (s.setBank n x).nodeId = s.nodeId := rfl
@[simp] theorem State.setBank_jtagMfr (s : State) (n : Nat) (x : Bank) : (s.setBank n x).jtagMfr = s.jtagMfr := rfl
@[simp] theorem State.setBank_ipRev (s : State) (n : Nat) (x : Bank) : (s.setBank n x).ipRev = s.ipRev := rfl
@[simp] theorem State.setBank_seq (s : State) (n : Nat) (x : Bank) : (s.setBank n x).seq = s.seq := rfl
@[simp] theorem State.setBank_crossing (s : State) (n : Nat) (x : Bank) : (s.setBank n x).crossing = s.crossing := rfl
@[simp] theorem State.setBank_waits (s : State) (n : Nat) (x : Bank) : (s.setBank n x).waits = s.waits := rfl
@[simp] theorem State.setBank_dbWords (s : State) (n : Nat) (x : Bank) : (s.setBank n x).dbWords = s.dbWords := rfl
@[simp] theorem State.setBank_free (s : State) (n : Nat) (x : Bank) : (s.setBank n x).free = s.free := rfl

@[simp] theorem State.setRing_pending (s : State) (n : Nat) (x : Ring) : (s.setRing n x).pending = s.pending := rfl
@[simp] theorem State.setRing_clk (s : State) (n : Nat) (x : Ring) : (s.setRing n x).clk = s.clk := rfl
@[simp] theorem State.setRing_regs (s : State) (n : Nat) (x : Ring) : (s.setRing n x).regs = s.regs := rfl
@[simp] theorem State.setRing_plumb (s : State) (n : Nat) (x : Ring) : (s.setRing n x).plumb = s.plumb := rfl
@[simp] theorem State.setRing_start (s : State) (n : Nat) (x : Ring) : (s.setRing n x).start = s.start := rfl
@[simp] theorem State.setRing_dbg (s : State) (n : Nat) (x : Ring) : (s.setRing n x).dbg = s.dbg := rfl
@[simp] theorem State.setRing_ports (s : State) (n : Nat) (x : Ring) : (s.setRing n x).ports = s.ports := rfl
@[simp] theorem State.setRing_fab (s : State) (n : Nat) (x : Ring) : (s.setRing n x).fab = s.fab := rfl
@[simp] theorem State.setRing_ct (s : State) (n : Nat) (x : Ring) : (s.setRing n x).ct = s.ct := rfl
@[simp] theorem State.setRing_latches (s : State) (n : Nat) (x : Ring) : (s.setRing n x).latches = s.latches := rfl
@[simp] theorem State.setRing_acq (s : State) (n : Nat) (x : Ring) : (s.setRing n x).acq = s.acq := rfl
@[simp] theorem State.setRing_chans (s : State) (n : Nat) (x : Ring) : (s.setRing n x).chans = s.chans := rfl
@[simp] theorem State.setRing_dies (s : State) (n : Nat) (x : Ring) : (s.setRing n x).dies = s.dies := rfl
@[simp] theorem State.setRing_banks (s : State) (n : Nat) (x : Ring) : (s.setRing n x).banks = s.banks := rfl
@[simp] theorem State.setRing_slates (s : State) (n : Nat) (x : Ring) : (s.setRing n x).slates = s.slates := rfl
@[simp] theorem State.setRing_regions (s : State) (n : Nat) (x : Ring) : (s.setRing n x).regions = s.regions := rfl
@[simp] theorem State.setRing_groups (s : State) (n : Nat) (x : Ring) : (s.setRing n x).groups = s.groups := rfl
@[simp] theorem State.setRing_ctl (s : State) (n : Nat) (x : Ring) : (s.setRing n x).ctl = s.ctl := rfl
@[simp] theorem State.setRing_mbox (s : State) (n : Nat) (x : Ring) : (s.setRing n x).mbox = s.mbox := rfl
@[simp] theorem State.setRing_stack (s : State) (n : Nat) (x : Ring) : (s.setRing n x).stack = s.stack := rfl
@[simp] theorem State.setRing_bg (s : State) (n : Nat) (x : Ring) : (s.setRing n x).bg = s.bg := rfl
@[simp] theorem State.setRing_mortar (s : State) (n : Nat) (x : Ring) : (s.setRing n x).mortar = s.mortar := rfl
@[simp] theorem State.setRing_hasps (s : State) (n : Nat) (x : Ring) : (s.setRing n x).hasps = s.hasps := rfl
@[simp] theorem State.setRing_idPage (s : State) (n : Nat) (x : Ring) : (s.setRing n x).idPage = s.idPage := rfl
@[simp] theorem State.setRing_idSyn (s : State) (n : Nat) (x : Ring) : (s.setRing n x).idSyn = s.idSyn := rfl
@[simp] theorem State.setRing_nodeId (s : State) (n : Nat) (x : Ring) : (s.setRing n x).nodeId = s.nodeId := rfl
@[simp] theorem State.setRing_jtagMfr (s : State) (n : Nat) (x : Ring) : (s.setRing n x).jtagMfr = s.jtagMfr := rfl
@[simp] theorem State.setRing_ipRev (s : State) (n : Nat) (x : Ring) : (s.setRing n x).ipRev = s.ipRev := rfl
@[simp] theorem State.setRing_seq (s : State) (n : Nat) (x : Ring) : (s.setRing n x).seq = s.seq := rfl
@[simp] theorem State.setRing_crossing (s : State) (n : Nat) (x : Ring) : (s.setRing n x).crossing = s.crossing := rfl
@[simp] theorem State.setRing_waits (s : State) (n : Nat) (x : Ring) : (s.setRing n x).waits = s.waits := rfl
@[simp] theorem State.setRing_dbWords (s : State) (n : Nat) (x : Ring) : (s.setRing n x).dbWords = s.dbWords := rfl
@[simp] theorem State.setRing_free (s : State) (n : Nat) (x : Ring) : (s.setRing n x).free = s.free := rfl

@[simp] theorem State.setRegion_pending (s : State) (n : Nat) (x : Option Region) : (s.setRegion n x).pending = s.pending := rfl
@[simp] theorem State.setRegion_clk (s : State) (n : Nat) (x : Option Region) : (s.setRegion n x).clk = s.clk := rfl
@[simp] theorem State.setRegion_regs (s : State) (n : Nat) (x : Option Region) : (s.setRegion n x).regs = s.regs := rfl
@[simp] theorem State.setRegion_plumb (s : State) (n : Nat) (x : Option Region) : (s.setRegion n x).plumb = s.plumb := rfl
@[simp] theorem State.setRegion_start (s : State) (n : Nat) (x : Option Region) : (s.setRegion n x).start = s.start := rfl
@[simp] theorem State.setRegion_dbg (s : State) (n : Nat) (x : Option Region) : (s.setRegion n x).dbg = s.dbg := rfl
@[simp] theorem State.setRegion_ports (s : State) (n : Nat) (x : Option Region) : (s.setRegion n x).ports = s.ports := rfl
@[simp] theorem State.setRegion_fab (s : State) (n : Nat) (x : Option Region) : (s.setRegion n x).fab = s.fab := rfl
@[simp] theorem State.setRegion_ct (s : State) (n : Nat) (x : Option Region) : (s.setRegion n x).ct = s.ct := rfl
@[simp] theorem State.setRegion_latches (s : State) (n : Nat) (x : Option Region) : (s.setRegion n x).latches = s.latches := rfl
@[simp] theorem State.setRegion_acq (s : State) (n : Nat) (x : Option Region) : (s.setRegion n x).acq = s.acq := rfl
@[simp] theorem State.setRegion_chans (s : State) (n : Nat) (x : Option Region) : (s.setRegion n x).chans = s.chans := rfl
@[simp] theorem State.setRegion_dies (s : State) (n : Nat) (x : Option Region) : (s.setRegion n x).dies = s.dies := rfl
@[simp] theorem State.setRegion_banks (s : State) (n : Nat) (x : Option Region) : (s.setRegion n x).banks = s.banks := rfl
@[simp] theorem State.setRegion_rings (s : State) (n : Nat) (x : Option Region) : (s.setRegion n x).rings = s.rings := rfl
@[simp] theorem State.setRegion_slates (s : State) (n : Nat) (x : Option Region) : (s.setRegion n x).slates = s.slates := rfl
@[simp] theorem State.setRegion_groups (s : State) (n : Nat) (x : Option Region) : (s.setRegion n x).groups = s.groups := rfl
@[simp] theorem State.setRegion_ctl (s : State) (n : Nat) (x : Option Region) : (s.setRegion n x).ctl = s.ctl := rfl
@[simp] theorem State.setRegion_mbox (s : State) (n : Nat) (x : Option Region) : (s.setRegion n x).mbox = s.mbox := rfl
@[simp] theorem State.setRegion_stack (s : State) (n : Nat) (x : Option Region) : (s.setRegion n x).stack = s.stack := rfl
@[simp] theorem State.setRegion_bg (s : State) (n : Nat) (x : Option Region) : (s.setRegion n x).bg = s.bg := rfl
@[simp] theorem State.setRegion_mortar (s : State) (n : Nat) (x : Option Region) : (s.setRegion n x).mortar = s.mortar := rfl
@[simp] theorem State.setRegion_hasps (s : State) (n : Nat) (x : Option Region) : (s.setRegion n x).hasps = s.hasps := rfl
@[simp] theorem State.setRegion_idPage (s : State) (n : Nat) (x : Option Region) : (s.setRegion n x).idPage = s.idPage := rfl
@[simp] theorem State.setRegion_idSyn (s : State) (n : Nat) (x : Option Region) : (s.setRegion n x).idSyn = s.idSyn := rfl
@[simp] theorem State.setRegion_nodeId (s : State) (n : Nat) (x : Option Region) : (s.setRegion n x).nodeId = s.nodeId := rfl
@[simp] theorem State.setRegion_jtagMfr (s : State) (n : Nat) (x : Option Region) : (s.setRegion n x).jtagMfr = s.jtagMfr := rfl
@[simp] theorem State.setRegion_ipRev (s : State) (n : Nat) (x : Option Region) : (s.setRegion n x).ipRev = s.ipRev := rfl
@[simp] theorem State.setRegion_seq (s : State) (n : Nat) (x : Option Region) : (s.setRegion n x).seq = s.seq := rfl
@[simp] theorem State.setRegion_crossing (s : State) (n : Nat) (x : Option Region) : (s.setRegion n x).crossing = s.crossing := rfl
@[simp] theorem State.setRegion_waits (s : State) (n : Nat) (x : Option Region) : (s.setRegion n x).waits = s.waits := rfl
@[simp] theorem State.setRegion_dbWords (s : State) (n : Nat) (x : Option Region) : (s.setRegion n x).dbWords = s.dbWords := rfl
@[simp] theorem State.setRegion_free (s : State) (n : Nat) (x : Option Region) : (s.setRegion n x).free = s.free := rfl

@[simp] theorem State.setGroup_pending (s : State) (n : Nat) (x : Option Group) : (s.setGroup n x).pending = s.pending := rfl
@[simp] theorem State.setGroup_clk (s : State) (n : Nat) (x : Option Group) : (s.setGroup n x).clk = s.clk := rfl
@[simp] theorem State.setGroup_regs (s : State) (n : Nat) (x : Option Group) : (s.setGroup n x).regs = s.regs := rfl
@[simp] theorem State.setGroup_plumb (s : State) (n : Nat) (x : Option Group) : (s.setGroup n x).plumb = s.plumb := rfl
@[simp] theorem State.setGroup_start (s : State) (n : Nat) (x : Option Group) : (s.setGroup n x).start = s.start := rfl
@[simp] theorem State.setGroup_dbg (s : State) (n : Nat) (x : Option Group) : (s.setGroup n x).dbg = s.dbg := rfl
@[simp] theorem State.setGroup_ports (s : State) (n : Nat) (x : Option Group) : (s.setGroup n x).ports = s.ports := rfl
@[simp] theorem State.setGroup_fab (s : State) (n : Nat) (x : Option Group) : (s.setGroup n x).fab = s.fab := rfl
@[simp] theorem State.setGroup_ct (s : State) (n : Nat) (x : Option Group) : (s.setGroup n x).ct = s.ct := rfl
@[simp] theorem State.setGroup_latches (s : State) (n : Nat) (x : Option Group) : (s.setGroup n x).latches = s.latches := rfl
@[simp] theorem State.setGroup_acq (s : State) (n : Nat) (x : Option Group) : (s.setGroup n x).acq = s.acq := rfl
@[simp] theorem State.setGroup_chans (s : State) (n : Nat) (x : Option Group) : (s.setGroup n x).chans = s.chans := rfl
@[simp] theorem State.setGroup_dies (s : State) (n : Nat) (x : Option Group) : (s.setGroup n x).dies = s.dies := rfl
@[simp] theorem State.setGroup_banks (s : State) (n : Nat) (x : Option Group) : (s.setGroup n x).banks = s.banks := rfl
@[simp] theorem State.setGroup_rings (s : State) (n : Nat) (x : Option Group) : (s.setGroup n x).rings = s.rings := rfl
@[simp] theorem State.setGroup_slates (s : State) (n : Nat) (x : Option Group) : (s.setGroup n x).slates = s.slates := rfl
@[simp] theorem State.setGroup_regions (s : State) (n : Nat) (x : Option Group) : (s.setGroup n x).regions = s.regions := rfl
@[simp] theorem State.setGroup_ctl (s : State) (n : Nat) (x : Option Group) : (s.setGroup n x).ctl = s.ctl := rfl
@[simp] theorem State.setGroup_mbox (s : State) (n : Nat) (x : Option Group) : (s.setGroup n x).mbox = s.mbox := rfl
@[simp] theorem State.setGroup_stack (s : State) (n : Nat) (x : Option Group) : (s.setGroup n x).stack = s.stack := rfl
@[simp] theorem State.setGroup_bg (s : State) (n : Nat) (x : Option Group) : (s.setGroup n x).bg = s.bg := rfl
@[simp] theorem State.setGroup_mortar (s : State) (n : Nat) (x : Option Group) : (s.setGroup n x).mortar = s.mortar := rfl
@[simp] theorem State.setGroup_hasps (s : State) (n : Nat) (x : Option Group) : (s.setGroup n x).hasps = s.hasps := rfl
@[simp] theorem State.setGroup_idPage (s : State) (n : Nat) (x : Option Group) : (s.setGroup n x).idPage = s.idPage := rfl
@[simp] theorem State.setGroup_idSyn (s : State) (n : Nat) (x : Option Group) : (s.setGroup n x).idSyn = s.idSyn := rfl
@[simp] theorem State.setGroup_nodeId (s : State) (n : Nat) (x : Option Group) : (s.setGroup n x).nodeId = s.nodeId := rfl
@[simp] theorem State.setGroup_jtagMfr (s : State) (n : Nat) (x : Option Group) : (s.setGroup n x).jtagMfr = s.jtagMfr := rfl
@[simp] theorem State.setGroup_ipRev (s : State) (n : Nat) (x : Option Group) : (s.setGroup n x).ipRev = s.ipRev := rfl
@[simp] theorem State.setGroup_seq (s : State) (n : Nat) (x : Option Group) : (s.setGroup n x).seq = s.seq := rfl
@[simp] theorem State.setGroup_crossing (s : State) (n : Nat) (x : Option Group) : (s.setGroup n x).crossing = s.crossing := rfl
@[simp] theorem State.setGroup_waits (s : State) (n : Nat) (x : Option Group) : (s.setGroup n x).waits = s.waits := rfl
@[simp] theorem State.setGroup_dbWords (s : State) (n : Nat) (x : Option Group) : (s.setGroup n x).dbWords = s.dbWords := rfl
@[simp] theorem State.setGroup_free (s : State) (n : Nat) (x : Option Group) : (s.setGroup n x).free = s.free := rfl

@[simp] theorem State.setLatch_pending (s : State) (n : Nat) (x : BitVec 64) : (s.setLatch n x).pending = s.pending := rfl
@[simp] theorem State.setLatch_clk (s : State) (n : Nat) (x : BitVec 64) : (s.setLatch n x).clk = s.clk := rfl
@[simp] theorem State.setLatch_regs (s : State) (n : Nat) (x : BitVec 64) : (s.setLatch n x).regs = s.regs := rfl
@[simp] theorem State.setLatch_plumb (s : State) (n : Nat) (x : BitVec 64) : (s.setLatch n x).plumb = s.plumb := rfl
@[simp] theorem State.setLatch_start (s : State) (n : Nat) (x : BitVec 64) : (s.setLatch n x).start = s.start := rfl
@[simp] theorem State.setLatch_dbg (s : State) (n : Nat) (x : BitVec 64) : (s.setLatch n x).dbg = s.dbg := rfl
@[simp] theorem State.setLatch_ports (s : State) (n : Nat) (x : BitVec 64) : (s.setLatch n x).ports = s.ports := rfl
@[simp] theorem State.setLatch_fab (s : State) (n : Nat) (x : BitVec 64) : (s.setLatch n x).fab = s.fab := rfl
@[simp] theorem State.setLatch_ct (s : State) (n : Nat) (x : BitVec 64) : (s.setLatch n x).ct = s.ct := rfl
@[simp] theorem State.setLatch_acq (s : State) (n : Nat) (x : BitVec 64) : (s.setLatch n x).acq = s.acq := rfl
@[simp] theorem State.setLatch_chans (s : State) (n : Nat) (x : BitVec 64) : (s.setLatch n x).chans = s.chans := rfl
@[simp] theorem State.setLatch_dies (s : State) (n : Nat) (x : BitVec 64) : (s.setLatch n x).dies = s.dies := rfl
@[simp] theorem State.setLatch_banks (s : State) (n : Nat) (x : BitVec 64) : (s.setLatch n x).banks = s.banks := rfl
@[simp] theorem State.setLatch_rings (s : State) (n : Nat) (x : BitVec 64) : (s.setLatch n x).rings = s.rings := rfl
@[simp] theorem State.setLatch_slates (s : State) (n : Nat) (x : BitVec 64) : (s.setLatch n x).slates = s.slates := rfl
@[simp] theorem State.setLatch_regions (s : State) (n : Nat) (x : BitVec 64) : (s.setLatch n x).regions = s.regions := rfl
@[simp] theorem State.setLatch_groups (s : State) (n : Nat) (x : BitVec 64) : (s.setLatch n x).groups = s.groups := rfl
@[simp] theorem State.setLatch_ctl (s : State) (n : Nat) (x : BitVec 64) : (s.setLatch n x).ctl = s.ctl := rfl
@[simp] theorem State.setLatch_mbox (s : State) (n : Nat) (x : BitVec 64) : (s.setLatch n x).mbox = s.mbox := rfl
@[simp] theorem State.setLatch_stack (s : State) (n : Nat) (x : BitVec 64) : (s.setLatch n x).stack = s.stack := rfl
@[simp] theorem State.setLatch_bg (s : State) (n : Nat) (x : BitVec 64) : (s.setLatch n x).bg = s.bg := rfl
@[simp] theorem State.setLatch_mortar (s : State) (n : Nat) (x : BitVec 64) : (s.setLatch n x).mortar = s.mortar := rfl
@[simp] theorem State.setLatch_hasps (s : State) (n : Nat) (x : BitVec 64) : (s.setLatch n x).hasps = s.hasps := rfl
@[simp] theorem State.setLatch_idPage (s : State) (n : Nat) (x : BitVec 64) : (s.setLatch n x).idPage = s.idPage := rfl
@[simp] theorem State.setLatch_idSyn (s : State) (n : Nat) (x : BitVec 64) : (s.setLatch n x).idSyn = s.idSyn := rfl
@[simp] theorem State.setLatch_nodeId (s : State) (n : Nat) (x : BitVec 64) : (s.setLatch n x).nodeId = s.nodeId := rfl
@[simp] theorem State.setLatch_jtagMfr (s : State) (n : Nat) (x : BitVec 64) : (s.setLatch n x).jtagMfr = s.jtagMfr := rfl
@[simp] theorem State.setLatch_ipRev (s : State) (n : Nat) (x : BitVec 64) : (s.setLatch n x).ipRev = s.ipRev := rfl
@[simp] theorem State.setLatch_seq (s : State) (n : Nat) (x : BitVec 64) : (s.setLatch n x).seq = s.seq := rfl
@[simp] theorem State.setLatch_crossing (s : State) (n : Nat) (x : BitVec 64) : (s.setLatch n x).crossing = s.crossing := rfl
@[simp] theorem State.setLatch_waits (s : State) (n : Nat) (x : BitVec 64) : (s.setLatch n x).waits = s.waits := rfl
@[simp] theorem State.setLatch_dbWords (s : State) (n : Nat) (x : BitVec 64) : (s.setLatch n x).dbWords = s.dbWords := rfl
@[simp] theorem State.setLatch_free (s : State) (n : Nat) (x : BitVec 64) : (s.setLatch n x).free = s.free := rfl

@[simp] theorem State.setHasp_pending (s : State) (n : Nat) (x : Hasp) : (s.setHasp n x).pending = s.pending := rfl
@[simp] theorem State.setHasp_clk (s : State) (n : Nat) (x : Hasp) : (s.setHasp n x).clk = s.clk := rfl
@[simp] theorem State.setHasp_regs (s : State) (n : Nat) (x : Hasp) : (s.setHasp n x).regs = s.regs := rfl
@[simp] theorem State.setHasp_plumb (s : State) (n : Nat) (x : Hasp) : (s.setHasp n x).plumb = s.plumb := rfl
@[simp] theorem State.setHasp_start (s : State) (n : Nat) (x : Hasp) : (s.setHasp n x).start = s.start := rfl
@[simp] theorem State.setHasp_dbg (s : State) (n : Nat) (x : Hasp) : (s.setHasp n x).dbg = s.dbg := rfl
@[simp] theorem State.setHasp_ports (s : State) (n : Nat) (x : Hasp) : (s.setHasp n x).ports = s.ports := rfl
@[simp] theorem State.setHasp_fab (s : State) (n : Nat) (x : Hasp) : (s.setHasp n x).fab = s.fab := rfl
@[simp] theorem State.setHasp_ct (s : State) (n : Nat) (x : Hasp) : (s.setHasp n x).ct = s.ct := rfl
@[simp] theorem State.setHasp_latches (s : State) (n : Nat) (x : Hasp) : (s.setHasp n x).latches = s.latches := rfl
@[simp] theorem State.setHasp_acq (s : State) (n : Nat) (x : Hasp) : (s.setHasp n x).acq = s.acq := rfl
@[simp] theorem State.setHasp_chans (s : State) (n : Nat) (x : Hasp) : (s.setHasp n x).chans = s.chans := rfl
@[simp] theorem State.setHasp_dies (s : State) (n : Nat) (x : Hasp) : (s.setHasp n x).dies = s.dies := rfl
@[simp] theorem State.setHasp_banks (s : State) (n : Nat) (x : Hasp) : (s.setHasp n x).banks = s.banks := rfl
@[simp] theorem State.setHasp_rings (s : State) (n : Nat) (x : Hasp) : (s.setHasp n x).rings = s.rings := rfl
@[simp] theorem State.setHasp_slates (s : State) (n : Nat) (x : Hasp) : (s.setHasp n x).slates = s.slates := rfl
@[simp] theorem State.setHasp_regions (s : State) (n : Nat) (x : Hasp) : (s.setHasp n x).regions = s.regions := rfl
@[simp] theorem State.setHasp_groups (s : State) (n : Nat) (x : Hasp) : (s.setHasp n x).groups = s.groups := rfl
@[simp] theorem State.setHasp_ctl (s : State) (n : Nat) (x : Hasp) : (s.setHasp n x).ctl = s.ctl := rfl
@[simp] theorem State.setHasp_stack (s : State) (n : Nat) (x : Hasp) : (s.setHasp n x).stack = s.stack := rfl
@[simp] theorem State.setHasp_bg (s : State) (n : Nat) (x : Hasp) : (s.setHasp n x).bg = s.bg := rfl
@[simp] theorem State.setHasp_mortar (s : State) (n : Nat) (x : Hasp) : (s.setHasp n x).mortar = s.mortar := rfl
@[simp] theorem State.setHasp_hasps (s : State) (n : Nat) (x : Hasp) : (s.setHasp n x).hasps = s.hasps := rfl
@[simp] theorem State.setHasp_idPage (s : State) (n : Nat) (x : Hasp) : (s.setHasp n x).idPage = s.idPage := rfl
@[simp] theorem State.setHasp_idSyn (s : State) (n : Nat) (x : Hasp) : (s.setHasp n x).idSyn = s.idSyn := rfl
@[simp] theorem State.setHasp_nodeId (s : State) (n : Nat) (x : Hasp) : (s.setHasp n x).nodeId = s.nodeId := rfl
@[simp] theorem State.setHasp_jtagMfr (s : State) (n : Nat) (x : Hasp) : (s.setHasp n x).jtagMfr = s.jtagMfr := rfl
@[simp] theorem State.setHasp_ipRev (s : State) (n : Nat) (x : Hasp) : (s.setHasp n x).ipRev = s.ipRev := rfl
@[simp] theorem State.setHasp_seq (s : State) (n : Nat) (x : Hasp) : (s.setHasp n x).seq = s.seq := rfl
@[simp] theorem State.setHasp_crossing (s : State) (n : Nat) (x : Hasp) : (s.setHasp n x).crossing = s.crossing := rfl
@[simp] theorem State.setHasp_waits (s : State) (n : Nat) (x : Hasp) : (s.setHasp n x).waits = s.waits := rfl
@[simp] theorem State.setHasp_dbWords (s : State) (n : Nat) (x : Hasp) : (s.setHasp n x).dbWords = s.dbWords := rfl
@[simp] theorem State.setHasp_free (s : State) (n : Nat) (x : Hasp) : (s.setHasp n x).free = s.free := rfl

@[simp] theorem State.setSlateTag_pending (s : State) (n : Nat) (x : Option SlateTag) : (s.setSlateTag n x).pending = s.pending := rfl
@[simp] theorem State.setSlateTag_clk (s : State) (n : Nat) (x : Option SlateTag) : (s.setSlateTag n x).clk = s.clk := rfl
@[simp] theorem State.setSlateTag_regs (s : State) (n : Nat) (x : Option SlateTag) : (s.setSlateTag n x).regs = s.regs := rfl
@[simp] theorem State.setSlateTag_plumb (s : State) (n : Nat) (x : Option SlateTag) : (s.setSlateTag n x).plumb = s.plumb := rfl
@[simp] theorem State.setSlateTag_start (s : State) (n : Nat) (x : Option SlateTag) : (s.setSlateTag n x).start = s.start := rfl
@[simp] theorem State.setSlateTag_dbg (s : State) (n : Nat) (x : Option SlateTag) : (s.setSlateTag n x).dbg = s.dbg := rfl
@[simp] theorem State.setSlateTag_ports (s : State) (n : Nat) (x : Option SlateTag) : (s.setSlateTag n x).ports = s.ports := rfl
@[simp] theorem State.setSlateTag_fab (s : State) (n : Nat) (x : Option SlateTag) : (s.setSlateTag n x).fab = s.fab := rfl
@[simp] theorem State.setSlateTag_ct (s : State) (n : Nat) (x : Option SlateTag) : (s.setSlateTag n x).ct = s.ct := rfl
@[simp] theorem State.setSlateTag_latches (s : State) (n : Nat) (x : Option SlateTag) : (s.setSlateTag n x).latches = s.latches := rfl
@[simp] theorem State.setSlateTag_acq (s : State) (n : Nat) (x : Option SlateTag) : (s.setSlateTag n x).acq = s.acq := rfl
@[simp] theorem State.setSlateTag_chans (s : State) (n : Nat) (x : Option SlateTag) : (s.setSlateTag n x).chans = s.chans := rfl
@[simp] theorem State.setSlateTag_dies (s : State) (n : Nat) (x : Option SlateTag) : (s.setSlateTag n x).dies = s.dies := rfl
@[simp] theorem State.setSlateTag_banks (s : State) (n : Nat) (x : Option SlateTag) : (s.setSlateTag n x).banks = s.banks := rfl
@[simp] theorem State.setSlateTag_rings (s : State) (n : Nat) (x : Option SlateTag) : (s.setSlateTag n x).rings = s.rings := rfl
@[simp] theorem State.setSlateTag_regions (s : State) (n : Nat) (x : Option SlateTag) : (s.setSlateTag n x).regions = s.regions := rfl
@[simp] theorem State.setSlateTag_groups (s : State) (n : Nat) (x : Option SlateTag) : (s.setSlateTag n x).groups = s.groups := rfl
@[simp] theorem State.setSlateTag_ctl (s : State) (n : Nat) (x : Option SlateTag) : (s.setSlateTag n x).ctl = s.ctl := rfl
@[simp] theorem State.setSlateTag_mbox (s : State) (n : Nat) (x : Option SlateTag) : (s.setSlateTag n x).mbox = s.mbox := rfl
@[simp] theorem State.setSlateTag_stack (s : State) (n : Nat) (x : Option SlateTag) : (s.setSlateTag n x).stack = s.stack := rfl
@[simp] theorem State.setSlateTag_bg (s : State) (n : Nat) (x : Option SlateTag) : (s.setSlateTag n x).bg = s.bg := rfl
@[simp] theorem State.setSlateTag_mortar (s : State) (n : Nat) (x : Option SlateTag) : (s.setSlateTag n x).mortar = s.mortar := rfl
@[simp] theorem State.setSlateTag_hasps (s : State) (n : Nat) (x : Option SlateTag) : (s.setSlateTag n x).hasps = s.hasps := rfl
@[simp] theorem State.setSlateTag_idPage (s : State) (n : Nat) (x : Option SlateTag) : (s.setSlateTag n x).idPage = s.idPage := rfl
@[simp] theorem State.setSlateTag_idSyn (s : State) (n : Nat) (x : Option SlateTag) : (s.setSlateTag n x).idSyn = s.idSyn := rfl
@[simp] theorem State.setSlateTag_nodeId (s : State) (n : Nat) (x : Option SlateTag) : (s.setSlateTag n x).nodeId = s.nodeId := rfl
@[simp] theorem State.setSlateTag_jtagMfr (s : State) (n : Nat) (x : Option SlateTag) : (s.setSlateTag n x).jtagMfr = s.jtagMfr := rfl
@[simp] theorem State.setSlateTag_ipRev (s : State) (n : Nat) (x : Option SlateTag) : (s.setSlateTag n x).ipRev = s.ipRev := rfl
@[simp] theorem State.setSlateTag_seq (s : State) (n : Nat) (x : Option SlateTag) : (s.setSlateTag n x).seq = s.seq := rfl
@[simp] theorem State.setSlateTag_crossing (s : State) (n : Nat) (x : Option SlateTag) : (s.setSlateTag n x).crossing = s.crossing := rfl
@[simp] theorem State.setSlateTag_waits (s : State) (n : Nat) (x : Option SlateTag) : (s.setSlateTag n x).waits = s.waits := rfl
@[simp] theorem State.setSlateTag_dbWords (s : State) (n : Nat) (x : Option SlateTag) : (s.setSlateTag n x).dbWords = s.dbWords := rfl
@[simp] theorem State.setSlateTag_free (s : State) (n : Nat) (x : Option SlateTag) : (s.setSlateTag n x).free = s.free := rfl

@[simp] theorem State.touch_pending (s : State) (a : Nat) : (s.touch a).pending = s.pending := rfl
@[simp] theorem State.touch_regs (s : State) (a : Nat) : (s.touch a).regs = s.regs := rfl
@[simp] theorem State.touch_plumb (s : State) (a : Nat) : (s.touch a).plumb = s.plumb := rfl
@[simp] theorem State.touch_start (s : State) (a : Nat) : (s.touch a).start = s.start := rfl
@[simp] theorem State.touch_dbg (s : State) (a : Nat) : (s.touch a).dbg = s.dbg := rfl
@[simp] theorem State.touch_ports (s : State) (a : Nat) : (s.touch a).ports = s.ports := rfl
@[simp] theorem State.touch_fab (s : State) (a : Nat) : (s.touch a).fab = s.fab := rfl
@[simp] theorem State.touch_ct (s : State) (a : Nat) : (s.touch a).ct = s.ct := rfl
@[simp] theorem State.touch_latches (s : State) (a : Nat) : (s.touch a).latches = s.latches := rfl
@[simp] theorem State.touch_acq (s : State) (a : Nat) : (s.touch a).acq = s.acq := rfl
@[simp] theorem State.touch_chans (s : State) (a : Nat) : (s.touch a).chans = s.chans := rfl
@[simp] theorem State.touch_dies (s : State) (a : Nat) : (s.touch a).dies = s.dies := rfl
@[simp] theorem State.touch_banks (s : State) (a : Nat) : (s.touch a).banks = s.banks := rfl
@[simp] theorem State.touch_rings (s : State) (a : Nat) : (s.touch a).rings = s.rings := rfl
@[simp] theorem State.touch_slates (s : State) (a : Nat) : (s.touch a).slates = s.slates := rfl
@[simp] theorem State.touch_regions (s : State) (a : Nat) : (s.touch a).regions = s.regions := rfl
@[simp] theorem State.touch_groups (s : State) (a : Nat) : (s.touch a).groups = s.groups := rfl
@[simp] theorem State.touch_ctl (s : State) (a : Nat) : (s.touch a).ctl = s.ctl := rfl
@[simp] theorem State.touch_mbox (s : State) (a : Nat) : (s.touch a).mbox = s.mbox := rfl
@[simp] theorem State.touch_stack (s : State) (a : Nat) : (s.touch a).stack = s.stack := rfl
@[simp] theorem State.touch_bg (s : State) (a : Nat) : (s.touch a).bg = s.bg := rfl
@[simp] theorem State.touch_mortar (s : State) (a : Nat) : (s.touch a).mortar = s.mortar := rfl
@[simp] theorem State.touch_hasps (s : State) (a : Nat) : (s.touch a).hasps = s.hasps := rfl
@[simp] theorem State.touch_idPage (s : State) (a : Nat) : (s.touch a).idPage = s.idPage := rfl
@[simp] theorem State.touch_idSyn (s : State) (a : Nat) : (s.touch a).idSyn = s.idSyn := rfl
@[simp] theorem State.touch_nodeId (s : State) (a : Nat) : (s.touch a).nodeId = s.nodeId := rfl
@[simp] theorem State.touch_jtagMfr (s : State) (a : Nat) : (s.touch a).jtagMfr = s.jtagMfr := rfl
@[simp] theorem State.touch_ipRev (s : State) (a : Nat) : (s.touch a).ipRev = s.ipRev := rfl
@[simp] theorem State.touch_seq (s : State) (a : Nat) : (s.touch a).seq = s.seq := rfl
@[simp] theorem State.touch_crossing (s : State) (a : Nat) : (s.touch a).crossing = s.crossing := rfl
@[simp] theorem State.touch_waits (s : State) (a : Nat) : (s.touch a).waits = s.waits := rfl
@[simp] theorem State.touch_dbWords (s : State) (a : Nat) : (s.touch a).dbWords = s.dbWords := rfl
@[simp] theorem State.touch_free (s : State) (a : Nat) : (s.touch a).free = s.free := rfl

@[simp] theorem State.bump_pending (s : State) : (s.bump).pending = s.pending := rfl
@[simp] theorem State.bump_clk (s : State) : (s.bump).clk = s.clk := rfl
@[simp] theorem State.bump_regs (s : State) : (s.bump).regs = s.regs := rfl
@[simp] theorem State.bump_plumb (s : State) : (s.bump).plumb = s.plumb := rfl
@[simp] theorem State.bump_start (s : State) : (s.bump).start = s.start := rfl
@[simp] theorem State.bump_dbg (s : State) : (s.bump).dbg = s.dbg := rfl
@[simp] theorem State.bump_ports (s : State) : (s.bump).ports = s.ports := rfl
@[simp] theorem State.bump_fab (s : State) : (s.bump).fab = s.fab := rfl
@[simp] theorem State.bump_ct (s : State) : (s.bump).ct = s.ct := rfl
@[simp] theorem State.bump_latches (s : State) : (s.bump).latches = s.latches := rfl
@[simp] theorem State.bump_acq (s : State) : (s.bump).acq = s.acq := rfl
@[simp] theorem State.bump_chans (s : State) : (s.bump).chans = s.chans := rfl
@[simp] theorem State.bump_dies (s : State) : (s.bump).dies = s.dies := rfl
@[simp] theorem State.bump_banks (s : State) : (s.bump).banks = s.banks := rfl
@[simp] theorem State.bump_rings (s : State) : (s.bump).rings = s.rings := rfl
@[simp] theorem State.bump_slates (s : State) : (s.bump).slates = s.slates := rfl
@[simp] theorem State.bump_regions (s : State) : (s.bump).regions = s.regions := rfl
@[simp] theorem State.bump_groups (s : State) : (s.bump).groups = s.groups := rfl
@[simp] theorem State.bump_ctl (s : State) : (s.bump).ctl = s.ctl := rfl
@[simp] theorem State.bump_mbox (s : State) : (s.bump).mbox = s.mbox := rfl
@[simp] theorem State.bump_stack (s : State) : (s.bump).stack = s.stack := rfl
@[simp] theorem State.bump_bg (s : State) : (s.bump).bg = s.bg := rfl
@[simp] theorem State.bump_mortar (s : State) : (s.bump).mortar = s.mortar := rfl
@[simp] theorem State.bump_hasps (s : State) : (s.bump).hasps = s.hasps := rfl
@[simp] theorem State.bump_idPage (s : State) : (s.bump).idPage = s.idPage := rfl
@[simp] theorem State.bump_idSyn (s : State) : (s.bump).idSyn = s.idSyn := rfl
@[simp] theorem State.bump_nodeId (s : State) : (s.bump).nodeId = s.nodeId := rfl
@[simp] theorem State.bump_jtagMfr (s : State) : (s.bump).jtagMfr = s.jtagMfr := rfl
@[simp] theorem State.bump_ipRev (s : State) : (s.bump).ipRev = s.ipRev := rfl
@[simp] theorem State.bump_crossing (s : State) : (s.bump).crossing = s.crossing := rfl
@[simp] theorem State.bump_waits (s : State) : (s.bump).waits = s.waits := rfl
@[simp] theorem State.bump_dbWords (s : State) : (s.bump).dbWords = s.dbWords := rfl
@[simp] theorem State.bump_free (s : State) : (s.bump).free = s.free := rfl

@[simp] theorem State.irq_pending (s : State) (i : Irq) : (s.irq i).pending = s.pending := rfl
@[simp] theorem State.irq_clk (s : State) (i : Irq) : (s.irq i).clk = s.clk := rfl
@[simp] theorem State.irq_plumb (s : State) (i : Irq) : (s.irq i).plumb = s.plumb := rfl
@[simp] theorem State.irq_start (s : State) (i : Irq) : (s.irq i).start = s.start := rfl
@[simp] theorem State.irq_dbg (s : State) (i : Irq) : (s.irq i).dbg = s.dbg := rfl
@[simp] theorem State.irq_ports (s : State) (i : Irq) : (s.irq i).ports = s.ports := rfl
@[simp] theorem State.irq_fab (s : State) (i : Irq) : (s.irq i).fab = s.fab := rfl
@[simp] theorem State.irq_ct (s : State) (i : Irq) : (s.irq i).ct = s.ct := rfl
@[simp] theorem State.irq_latches (s : State) (i : Irq) : (s.irq i).latches = s.latches := rfl
@[simp] theorem State.irq_acq (s : State) (i : Irq) : (s.irq i).acq = s.acq := rfl
@[simp] theorem State.irq_chans (s : State) (i : Irq) : (s.irq i).chans = s.chans := rfl
@[simp] theorem State.irq_dies (s : State) (i : Irq) : (s.irq i).dies = s.dies := rfl
@[simp] theorem State.irq_banks (s : State) (i : Irq) : (s.irq i).banks = s.banks := rfl
@[simp] theorem State.irq_rings (s : State) (i : Irq) : (s.irq i).rings = s.rings := rfl
@[simp] theorem State.irq_slates (s : State) (i : Irq) : (s.irq i).slates = s.slates := rfl
@[simp] theorem State.irq_regions (s : State) (i : Irq) : (s.irq i).regions = s.regions := rfl
@[simp] theorem State.irq_groups (s : State) (i : Irq) : (s.irq i).groups = s.groups := rfl
@[simp] theorem State.irq_ctl (s : State) (i : Irq) : (s.irq i).ctl = s.ctl := rfl
@[simp] theorem State.irq_mbox (s : State) (i : Irq) : (s.irq i).mbox = s.mbox := rfl
@[simp] theorem State.irq_stack (s : State) (i : Irq) : (s.irq i).stack = s.stack := rfl
@[simp] theorem State.irq_bg (s : State) (i : Irq) : (s.irq i).bg = s.bg := rfl
@[simp] theorem State.irq_mortar (s : State) (i : Irq) : (s.irq i).mortar = s.mortar := rfl
@[simp] theorem State.irq_hasps (s : State) (i : Irq) : (s.irq i).hasps = s.hasps := rfl
@[simp] theorem State.irq_idPage (s : State) (i : Irq) : (s.irq i).idPage = s.idPage := rfl
@[simp] theorem State.irq_idSyn (s : State) (i : Irq) : (s.irq i).idSyn = s.idSyn := rfl
@[simp] theorem State.irq_nodeId (s : State) (i : Irq) : (s.irq i).nodeId = s.nodeId := rfl
@[simp] theorem State.irq_jtagMfr (s : State) (i : Irq) : (s.irq i).jtagMfr = s.jtagMfr := rfl
@[simp] theorem State.irq_ipRev (s : State) (i : Irq) : (s.irq i).ipRev = s.ipRev := rfl
@[simp] theorem State.irq_seq (s : State) (i : Irq) : (s.irq i).seq = s.seq := rfl
@[simp] theorem State.irq_crossing (s : State) (i : Irq) : (s.irq i).crossing = s.crossing := rfl
@[simp] theorem State.irq_waits (s : State) (i : Irq) : (s.irq i).waits = s.waits := rfl
@[simp] theorem State.irq_dbWords (s : State) (i : Irq) : (s.irq i).dbWords = s.dbWords := rfl
@[simp] theorem State.irq_free (s : State) (i : Irq) : (s.irq i).free = s.free := rfl

@[simp] theorem State.mapRegs_pending (s : State) (f : Regs → Regs) : (s.mapRegs f).pending = s.pending := rfl
@[simp] theorem State.mapRegs_clk (s : State) (f : Regs → Regs) : (s.mapRegs f).clk = s.clk := rfl
@[simp] theorem State.mapRegs_plumb (s : State) (f : Regs → Regs) : (s.mapRegs f).plumb = s.plumb := rfl
@[simp] theorem State.mapRegs_start (s : State) (f : Regs → Regs) : (s.mapRegs f).start = s.start := rfl
@[simp] theorem State.mapRegs_dbg (s : State) (f : Regs → Regs) : (s.mapRegs f).dbg = s.dbg := rfl
@[simp] theorem State.mapRegs_ports (s : State) (f : Regs → Regs) : (s.mapRegs f).ports = s.ports := rfl
@[simp] theorem State.mapRegs_fab (s : State) (f : Regs → Regs) : (s.mapRegs f).fab = s.fab := rfl
@[simp] theorem State.mapRegs_ct (s : State) (f : Regs → Regs) : (s.mapRegs f).ct = s.ct := rfl
@[simp] theorem State.mapRegs_latches (s : State) (f : Regs → Regs) : (s.mapRegs f).latches = s.latches := rfl
@[simp] theorem State.mapRegs_acq (s : State) (f : Regs → Regs) : (s.mapRegs f).acq = s.acq := rfl
@[simp] theorem State.mapRegs_chans (s : State) (f : Regs → Regs) : (s.mapRegs f).chans = s.chans := rfl
@[simp] theorem State.mapRegs_dies (s : State) (f : Regs → Regs) : (s.mapRegs f).dies = s.dies := rfl
@[simp] theorem State.mapRegs_banks (s : State) (f : Regs → Regs) : (s.mapRegs f).banks = s.banks := rfl
@[simp] theorem State.mapRegs_rings (s : State) (f : Regs → Regs) : (s.mapRegs f).rings = s.rings := rfl
@[simp] theorem State.mapRegs_slates (s : State) (f : Regs → Regs) : (s.mapRegs f).slates = s.slates := rfl
@[simp] theorem State.mapRegs_regions (s : State) (f : Regs → Regs) : (s.mapRegs f).regions = s.regions := rfl
@[simp] theorem State.mapRegs_groups (s : State) (f : Regs → Regs) : (s.mapRegs f).groups = s.groups := rfl
@[simp] theorem State.mapRegs_ctl (s : State) (f : Regs → Regs) : (s.mapRegs f).ctl = s.ctl := rfl
@[simp] theorem State.mapRegs_mbox (s : State) (f : Regs → Regs) : (s.mapRegs f).mbox = s.mbox := rfl
@[simp] theorem State.mapRegs_stack (s : State) (f : Regs → Regs) : (s.mapRegs f).stack = s.stack := rfl
@[simp] theorem State.mapRegs_bg (s : State) (f : Regs → Regs) : (s.mapRegs f).bg = s.bg := rfl
@[simp] theorem State.mapRegs_mortar (s : State) (f : Regs → Regs) : (s.mapRegs f).mortar = s.mortar := rfl
@[simp] theorem State.mapRegs_hasps (s : State) (f : Regs → Regs) : (s.mapRegs f).hasps = s.hasps := rfl
@[simp] theorem State.mapRegs_idPage (s : State) (f : Regs → Regs) : (s.mapRegs f).idPage = s.idPage := rfl
@[simp] theorem State.mapRegs_idSyn (s : State) (f : Regs → Regs) : (s.mapRegs f).idSyn = s.idSyn := rfl
@[simp] theorem State.mapRegs_nodeId (s : State) (f : Regs → Regs) : (s.mapRegs f).nodeId = s.nodeId := rfl
@[simp] theorem State.mapRegs_jtagMfr (s : State) (f : Regs → Regs) : (s.mapRegs f).jtagMfr = s.jtagMfr := rfl
@[simp] theorem State.mapRegs_ipRev (s : State) (f : Regs → Regs) : (s.mapRegs f).ipRev = s.ipRev := rfl
@[simp] theorem State.mapRegs_seq (s : State) (f : Regs → Regs) : (s.mapRegs f).seq = s.seq := rfl
@[simp] theorem State.mapRegs_crossing (s : State) (f : Regs → Regs) : (s.mapRegs f).crossing = s.crossing := rfl
@[simp] theorem State.mapRegs_waits (s : State) (f : Regs → Regs) : (s.mapRegs f).waits = s.waits := rfl
@[simp] theorem State.mapRegs_dbWords (s : State) (f : Regs → Regs) : (s.mapRegs f).dbWords = s.dbWords := rfl
@[simp] theorem State.mapRegs_free (s : State) (f : Regs → Regs) : (s.mapRegs f).free = s.free := rfl

@[simp] theorem State.mapPlumb_pending (s : State) (f : Plumb → Plumb) : (s.mapPlumb f).pending = s.pending := rfl
@[simp] theorem State.mapPlumb_clk (s : State) (f : Plumb → Plumb) : (s.mapPlumb f).clk = s.clk := rfl
@[simp] theorem State.mapPlumb_regs (s : State) (f : Plumb → Plumb) : (s.mapPlumb f).regs = s.regs := rfl
@[simp] theorem State.mapPlumb_start (s : State) (f : Plumb → Plumb) : (s.mapPlumb f).start = s.start := rfl
@[simp] theorem State.mapPlumb_dbg (s : State) (f : Plumb → Plumb) : (s.mapPlumb f).dbg = s.dbg := rfl
@[simp] theorem State.mapPlumb_ports (s : State) (f : Plumb → Plumb) : (s.mapPlumb f).ports = s.ports := rfl
@[simp] theorem State.mapPlumb_fab (s : State) (f : Plumb → Plumb) : (s.mapPlumb f).fab = s.fab := rfl
@[simp] theorem State.mapPlumb_ct (s : State) (f : Plumb → Plumb) : (s.mapPlumb f).ct = s.ct := rfl
@[simp] theorem State.mapPlumb_latches (s : State) (f : Plumb → Plumb) : (s.mapPlumb f).latches = s.latches := rfl
@[simp] theorem State.mapPlumb_acq (s : State) (f : Plumb → Plumb) : (s.mapPlumb f).acq = s.acq := rfl
@[simp] theorem State.mapPlumb_chans (s : State) (f : Plumb → Plumb) : (s.mapPlumb f).chans = s.chans := rfl
@[simp] theorem State.mapPlumb_dies (s : State) (f : Plumb → Plumb) : (s.mapPlumb f).dies = s.dies := rfl
@[simp] theorem State.mapPlumb_banks (s : State) (f : Plumb → Plumb) : (s.mapPlumb f).banks = s.banks := rfl
@[simp] theorem State.mapPlumb_rings (s : State) (f : Plumb → Plumb) : (s.mapPlumb f).rings = s.rings := rfl
@[simp] theorem State.mapPlumb_slates (s : State) (f : Plumb → Plumb) : (s.mapPlumb f).slates = s.slates := rfl
@[simp] theorem State.mapPlumb_regions (s : State) (f : Plumb → Plumb) : (s.mapPlumb f).regions = s.regions := rfl
@[simp] theorem State.mapPlumb_groups (s : State) (f : Plumb → Plumb) : (s.mapPlumb f).groups = s.groups := rfl
@[simp] theorem State.mapPlumb_ctl (s : State) (f : Plumb → Plumb) : (s.mapPlumb f).ctl = s.ctl := rfl
@[simp] theorem State.mapPlumb_mbox (s : State) (f : Plumb → Plumb) : (s.mapPlumb f).mbox = s.mbox := rfl
@[simp] theorem State.mapPlumb_stack (s : State) (f : Plumb → Plumb) : (s.mapPlumb f).stack = s.stack := rfl
@[simp] theorem State.mapPlumb_bg (s : State) (f : Plumb → Plumb) : (s.mapPlumb f).bg = s.bg := rfl
@[simp] theorem State.mapPlumb_mortar (s : State) (f : Plumb → Plumb) : (s.mapPlumb f).mortar = s.mortar := rfl
@[simp] theorem State.mapPlumb_hasps (s : State) (f : Plumb → Plumb) : (s.mapPlumb f).hasps = s.hasps := rfl
@[simp] theorem State.mapPlumb_idPage (s : State) (f : Plumb → Plumb) : (s.mapPlumb f).idPage = s.idPage := rfl
@[simp] theorem State.mapPlumb_idSyn (s : State) (f : Plumb → Plumb) : (s.mapPlumb f).idSyn = s.idSyn := rfl
@[simp] theorem State.mapPlumb_nodeId (s : State) (f : Plumb → Plumb) : (s.mapPlumb f).nodeId = s.nodeId := rfl
@[simp] theorem State.mapPlumb_jtagMfr (s : State) (f : Plumb → Plumb) : (s.mapPlumb f).jtagMfr = s.jtagMfr := rfl
@[simp] theorem State.mapPlumb_ipRev (s : State) (f : Plumb → Plumb) : (s.mapPlumb f).ipRev = s.ipRev := rfl
@[simp] theorem State.mapPlumb_seq (s : State) (f : Plumb → Plumb) : (s.mapPlumb f).seq = s.seq := rfl
@[simp] theorem State.mapPlumb_crossing (s : State) (f : Plumb → Plumb) : (s.mapPlumb f).crossing = s.crossing := rfl
@[simp] theorem State.mapPlumb_waits (s : State) (f : Plumb → Plumb) : (s.mapPlumb f).waits = s.waits := rfl
@[simp] theorem State.mapPlumb_dbWords (s : State) (f : Plumb → Plumb) : (s.mapPlumb f).dbWords = s.dbWords := rfl
@[simp] theorem State.mapPlumb_free (s : State) (f : Plumb → Plumb) : (s.mapPlumb f).free = s.free := rfl

@[simp] theorem State.countPt_pending (s : State) : (s.countPt).pending = s.pending := rfl
@[simp] theorem State.countPt_clk (s : State) : (s.countPt).clk = s.clk := rfl
@[simp] theorem State.countPt_regs (s : State) : (s.countPt).regs = s.regs := rfl
@[simp] theorem State.countPt_start (s : State) : (s.countPt).start = s.start := rfl
@[simp] theorem State.countPt_dbg (s : State) : (s.countPt).dbg = s.dbg := rfl
@[simp] theorem State.countPt_ports (s : State) : (s.countPt).ports = s.ports := rfl
@[simp] theorem State.countPt_fab (s : State) : (s.countPt).fab = s.fab := rfl
@[simp] theorem State.countPt_ct (s : State) : (s.countPt).ct = s.ct := rfl
@[simp] theorem State.countPt_latches (s : State) : (s.countPt).latches = s.latches := rfl
@[simp] theorem State.countPt_acq (s : State) : (s.countPt).acq = s.acq := rfl
@[simp] theorem State.countPt_chans (s : State) : (s.countPt).chans = s.chans := rfl
@[simp] theorem State.countPt_dies (s : State) : (s.countPt).dies = s.dies := rfl
@[simp] theorem State.countPt_banks (s : State) : (s.countPt).banks = s.banks := rfl
@[simp] theorem State.countPt_rings (s : State) : (s.countPt).rings = s.rings := rfl
@[simp] theorem State.countPt_slates (s : State) : (s.countPt).slates = s.slates := rfl
@[simp] theorem State.countPt_regions (s : State) : (s.countPt).regions = s.regions := rfl
@[simp] theorem State.countPt_groups (s : State) : (s.countPt).groups = s.groups := rfl
@[simp] theorem State.countPt_ctl (s : State) : (s.countPt).ctl = s.ctl := rfl
@[simp] theorem State.countPt_mbox (s : State) : (s.countPt).mbox = s.mbox := rfl
@[simp] theorem State.countPt_stack (s : State) : (s.countPt).stack = s.stack := rfl
@[simp] theorem State.countPt_bg (s : State) : (s.countPt).bg = s.bg := rfl
@[simp] theorem State.countPt_mortar (s : State) : (s.countPt).mortar = s.mortar := rfl
@[simp] theorem State.countPt_hasps (s : State) : (s.countPt).hasps = s.hasps := rfl
@[simp] theorem State.countPt_idPage (s : State) : (s.countPt).idPage = s.idPage := rfl
@[simp] theorem State.countPt_idSyn (s : State) : (s.countPt).idSyn = s.idSyn := rfl
@[simp] theorem State.countPt_nodeId (s : State) : (s.countPt).nodeId = s.nodeId := rfl
@[simp] theorem State.countPt_jtagMfr (s : State) : (s.countPt).jtagMfr = s.jtagMfr := rfl
@[simp] theorem State.countPt_ipRev (s : State) : (s.countPt).ipRev = s.ipRev := rfl
@[simp] theorem State.countPt_seq (s : State) : (s.countPt).seq = s.seq := rfl
@[simp] theorem State.countPt_crossing (s : State) : (s.countPt).crossing = s.crossing := rfl
@[simp] theorem State.countPt_waits (s : State) : (s.countPt).waits = s.waits := rfl
@[simp] theorem State.countPt_dbWords (s : State) : (s.countPt).dbWords = s.dbWords := rfl
@[simp] theorem State.countPt_free (s : State) : (s.countPt).free = s.free := rfl

@[simp] theorem State.countFab_pending (s : State) (n : Nat) : (s.countFab n).pending = s.pending := rfl
@[simp] theorem State.countFab_clk (s : State) (n : Nat) : (s.countFab n).clk = s.clk := rfl
@[simp] theorem State.countFab_regs (s : State) (n : Nat) : (s.countFab n).regs = s.regs := rfl
@[simp] theorem State.countFab_start (s : State) (n : Nat) : (s.countFab n).start = s.start := rfl
@[simp] theorem State.countFab_dbg (s : State) (n : Nat) : (s.countFab n).dbg = s.dbg := rfl
@[simp] theorem State.countFab_ports (s : State) (n : Nat) : (s.countFab n).ports = s.ports := rfl
@[simp] theorem State.countFab_fab (s : State) (n : Nat) : (s.countFab n).fab = s.fab := rfl
@[simp] theorem State.countFab_ct (s : State) (n : Nat) : (s.countFab n).ct = s.ct := rfl
@[simp] theorem State.countFab_latches (s : State) (n : Nat) : (s.countFab n).latches = s.latches := rfl
@[simp] theorem State.countFab_acq (s : State) (n : Nat) : (s.countFab n).acq = s.acq := rfl
@[simp] theorem State.countFab_chans (s : State) (n : Nat) : (s.countFab n).chans = s.chans := rfl
@[simp] theorem State.countFab_dies (s : State) (n : Nat) : (s.countFab n).dies = s.dies := rfl
@[simp] theorem State.countFab_banks (s : State) (n : Nat) : (s.countFab n).banks = s.banks := rfl
@[simp] theorem State.countFab_rings (s : State) (n : Nat) : (s.countFab n).rings = s.rings := rfl
@[simp] theorem State.countFab_slates (s : State) (n : Nat) : (s.countFab n).slates = s.slates := rfl
@[simp] theorem State.countFab_regions (s : State) (n : Nat) : (s.countFab n).regions = s.regions := rfl
@[simp] theorem State.countFab_groups (s : State) (n : Nat) : (s.countFab n).groups = s.groups := rfl
@[simp] theorem State.countFab_ctl (s : State) (n : Nat) : (s.countFab n).ctl = s.ctl := rfl
@[simp] theorem State.countFab_mbox (s : State) (n : Nat) : (s.countFab n).mbox = s.mbox := rfl
@[simp] theorem State.countFab_stack (s : State) (n : Nat) : (s.countFab n).stack = s.stack := rfl
@[simp] theorem State.countFab_bg (s : State) (n : Nat) : (s.countFab n).bg = s.bg := rfl
@[simp] theorem State.countFab_mortar (s : State) (n : Nat) : (s.countFab n).mortar = s.mortar := rfl
@[simp] theorem State.countFab_hasps (s : State) (n : Nat) : (s.countFab n).hasps = s.hasps := rfl
@[simp] theorem State.countFab_idPage (s : State) (n : Nat) : (s.countFab n).idPage = s.idPage := rfl
@[simp] theorem State.countFab_idSyn (s : State) (n : Nat) : (s.countFab n).idSyn = s.idSyn := rfl
@[simp] theorem State.countFab_nodeId (s : State) (n : Nat) : (s.countFab n).nodeId = s.nodeId := rfl
@[simp] theorem State.countFab_jtagMfr (s : State) (n : Nat) : (s.countFab n).jtagMfr = s.jtagMfr := rfl
@[simp] theorem State.countFab_ipRev (s : State) (n : Nat) : (s.countFab n).ipRev = s.ipRev := rfl
@[simp] theorem State.countFab_seq (s : State) (n : Nat) : (s.countFab n).seq = s.seq := rfl
@[simp] theorem State.countFab_crossing (s : State) (n : Nat) : (s.countFab n).crossing = s.crossing := rfl
@[simp] theorem State.countFab_waits (s : State) (n : Nat) : (s.countFab n).waits = s.waits := rfl
@[simp] theorem State.countFab_dbWords (s : State) (n : Nat) : (s.countFab n).dbWords = s.dbWords := rfl
@[simp] theorem State.countFab_free (s : State) (n : Nat) : (s.countFab n).free = s.free := rfl

@[simp] theorem State.countParams_pending (s : State) (n : Nat) : (s.countParams n).pending = s.pending := rfl
@[simp] theorem State.countParams_clk (s : State) (n : Nat) : (s.countParams n).clk = s.clk := rfl
@[simp] theorem State.countParams_regs (s : State) (n : Nat) : (s.countParams n).regs = s.regs := rfl
@[simp] theorem State.countParams_start (s : State) (n : Nat) : (s.countParams n).start = s.start := rfl
@[simp] theorem State.countParams_dbg (s : State) (n : Nat) : (s.countParams n).dbg = s.dbg := rfl
@[simp] theorem State.countParams_ports (s : State) (n : Nat) : (s.countParams n).ports = s.ports := rfl
@[simp] theorem State.countParams_fab (s : State) (n : Nat) : (s.countParams n).fab = s.fab := rfl
@[simp] theorem State.countParams_ct (s : State) (n : Nat) : (s.countParams n).ct = s.ct := rfl
@[simp] theorem State.countParams_latches (s : State) (n : Nat) : (s.countParams n).latches = s.latches := rfl
@[simp] theorem State.countParams_acq (s : State) (n : Nat) : (s.countParams n).acq = s.acq := rfl
@[simp] theorem State.countParams_chans (s : State) (n : Nat) : (s.countParams n).chans = s.chans := rfl
@[simp] theorem State.countParams_dies (s : State) (n : Nat) : (s.countParams n).dies = s.dies := rfl
@[simp] theorem State.countParams_banks (s : State) (n : Nat) : (s.countParams n).banks = s.banks := rfl
@[simp] theorem State.countParams_rings (s : State) (n : Nat) : (s.countParams n).rings = s.rings := rfl
@[simp] theorem State.countParams_slates (s : State) (n : Nat) : (s.countParams n).slates = s.slates := rfl
@[simp] theorem State.countParams_regions (s : State) (n : Nat) : (s.countParams n).regions = s.regions := rfl
@[simp] theorem State.countParams_groups (s : State) (n : Nat) : (s.countParams n).groups = s.groups := rfl
@[simp] theorem State.countParams_ctl (s : State) (n : Nat) : (s.countParams n).ctl = s.ctl := rfl
@[simp] theorem State.countParams_mbox (s : State) (n : Nat) : (s.countParams n).mbox = s.mbox := rfl
@[simp] theorem State.countParams_stack (s : State) (n : Nat) : (s.countParams n).stack = s.stack := rfl
@[simp] theorem State.countParams_bg (s : State) (n : Nat) : (s.countParams n).bg = s.bg := rfl
@[simp] theorem State.countParams_mortar (s : State) (n : Nat) : (s.countParams n).mortar = s.mortar := rfl
@[simp] theorem State.countParams_hasps (s : State) (n : Nat) : (s.countParams n).hasps = s.hasps := rfl
@[simp] theorem State.countParams_idPage (s : State) (n : Nat) : (s.countParams n).idPage = s.idPage := rfl
@[simp] theorem State.countParams_idSyn (s : State) (n : Nat) : (s.countParams n).idSyn = s.idSyn := rfl
@[simp] theorem State.countParams_nodeId (s : State) (n : Nat) : (s.countParams n).nodeId = s.nodeId := rfl
@[simp] theorem State.countParams_jtagMfr (s : State) (n : Nat) : (s.countParams n).jtagMfr = s.jtagMfr := rfl
@[simp] theorem State.countParams_ipRev (s : State) (n : Nat) : (s.countParams n).ipRev = s.ipRev := rfl
@[simp] theorem State.countParams_seq (s : State) (n : Nat) : (s.countParams n).seq = s.seq := rfl
@[simp] theorem State.countParams_crossing (s : State) (n : Nat) : (s.countParams n).crossing = s.crossing := rfl
@[simp] theorem State.countParams_waits (s : State) (n : Nat) : (s.countParams n).waits = s.waits := rfl
@[simp] theorem State.countParams_dbWords (s : State) (n : Nat) : (s.countParams n).dbWords = s.dbWords := rfl
@[simp] theorem State.countParams_free (s : State) (n : Nat) : (s.countParams n).free = s.free := rfl

@[simp] theorem State.ksSpend_pending (s : State) (n : Nat) : (s.ksSpend n).pending = s.pending := rfl
@[simp] theorem State.ksSpend_clk (s : State) (n : Nat) : (s.ksSpend n).clk = s.clk := rfl
@[simp] theorem State.ksSpend_regs (s : State) (n : Nat) : (s.ksSpend n).regs = s.regs := rfl
@[simp] theorem State.ksSpend_start (s : State) (n : Nat) : (s.ksSpend n).start = s.start := rfl
@[simp] theorem State.ksSpend_dbg (s : State) (n : Nat) : (s.ksSpend n).dbg = s.dbg := rfl
@[simp] theorem State.ksSpend_ports (s : State) (n : Nat) : (s.ksSpend n).ports = s.ports := rfl
@[simp] theorem State.ksSpend_fab (s : State) (n : Nat) : (s.ksSpend n).fab = s.fab := rfl
@[simp] theorem State.ksSpend_ct (s : State) (n : Nat) : (s.ksSpend n).ct = s.ct := rfl
@[simp] theorem State.ksSpend_latches (s : State) (n : Nat) : (s.ksSpend n).latches = s.latches := rfl
@[simp] theorem State.ksSpend_acq (s : State) (n : Nat) : (s.ksSpend n).acq = s.acq := rfl
@[simp] theorem State.ksSpend_chans (s : State) (n : Nat) : (s.ksSpend n).chans = s.chans := rfl
@[simp] theorem State.ksSpend_dies (s : State) (n : Nat) : (s.ksSpend n).dies = s.dies := rfl
@[simp] theorem State.ksSpend_banks (s : State) (n : Nat) : (s.ksSpend n).banks = s.banks := rfl
@[simp] theorem State.ksSpend_rings (s : State) (n : Nat) : (s.ksSpend n).rings = s.rings := rfl
@[simp] theorem State.ksSpend_slates (s : State) (n : Nat) : (s.ksSpend n).slates = s.slates := rfl
@[simp] theorem State.ksSpend_regions (s : State) (n : Nat) : (s.ksSpend n).regions = s.regions := rfl
@[simp] theorem State.ksSpend_groups (s : State) (n : Nat) : (s.ksSpend n).groups = s.groups := rfl
@[simp] theorem State.ksSpend_ctl (s : State) (n : Nat) : (s.ksSpend n).ctl = s.ctl := rfl
@[simp] theorem State.ksSpend_mbox (s : State) (n : Nat) : (s.ksSpend n).mbox = s.mbox := rfl
@[simp] theorem State.ksSpend_stack (s : State) (n : Nat) : (s.ksSpend n).stack = s.stack := rfl
@[simp] theorem State.ksSpend_bg (s : State) (n : Nat) : (s.ksSpend n).bg = s.bg := rfl
@[simp] theorem State.ksSpend_mortar (s : State) (n : Nat) : (s.ksSpend n).mortar = s.mortar := rfl
@[simp] theorem State.ksSpend_hasps (s : State) (n : Nat) : (s.ksSpend n).hasps = s.hasps := rfl
@[simp] theorem State.ksSpend_idPage (s : State) (n : Nat) : (s.ksSpend n).idPage = s.idPage := rfl
@[simp] theorem State.ksSpend_idSyn (s : State) (n : Nat) : (s.ksSpend n).idSyn = s.idSyn := rfl
@[simp] theorem State.ksSpend_nodeId (s : State) (n : Nat) : (s.ksSpend n).nodeId = s.nodeId := rfl
@[simp] theorem State.ksSpend_jtagMfr (s : State) (n : Nat) : (s.ksSpend n).jtagMfr = s.jtagMfr := rfl
@[simp] theorem State.ksSpend_ipRev (s : State) (n : Nat) : (s.ksSpend n).ipRev = s.ipRev := rfl
@[simp] theorem State.ksSpend_seq (s : State) (n : Nat) : (s.ksSpend n).seq = s.seq := rfl
@[simp] theorem State.ksSpend_crossing (s : State) (n : Nat) : (s.ksSpend n).crossing = s.crossing := rfl
@[simp] theorem State.ksSpend_waits (s : State) (n : Nat) : (s.ksSpend n).waits = s.waits := rfl
@[simp] theorem State.ksSpend_dbWords (s : State) (n : Nat) : (s.ksSpend n).dbWords = s.dbWords := rfl
@[simp] theorem State.ksSpend_free (s : State) (n : Nat) : (s.ksSpend n).free = s.free := rfl

@[simp] theorem State.withCommand_clk (s : State) (c : Instr) : (s.withCommand c).clk = s.clk := rfl
@[simp] theorem State.withCommand_regs (s : State) (c : Instr) : (s.withCommand c).regs = s.regs := rfl
@[simp] theorem State.withCommand_plumb (s : State) (c : Instr) : (s.withCommand c).plumb = s.plumb := rfl
@[simp] theorem State.withCommand_start (s : State) (c : Instr) : (s.withCommand c).start = s.start := rfl
@[simp] theorem State.withCommand_dbg (s : State) (c : Instr) : (s.withCommand c).dbg = s.dbg := rfl
@[simp] theorem State.withCommand_ports (s : State) (c : Instr) : (s.withCommand c).ports = s.ports := rfl
@[simp] theorem State.withCommand_fab (s : State) (c : Instr) : (s.withCommand c).fab = s.fab := rfl
@[simp] theorem State.withCommand_ct (s : State) (c : Instr) : (s.withCommand c).ct = s.ct := rfl
@[simp] theorem State.withCommand_latches (s : State) (c : Instr) : (s.withCommand c).latches = s.latches := rfl
@[simp] theorem State.withCommand_acq (s : State) (c : Instr) : (s.withCommand c).acq = s.acq := rfl
@[simp] theorem State.withCommand_chans (s : State) (c : Instr) : (s.withCommand c).chans = s.chans := rfl
@[simp] theorem State.withCommand_dies (s : State) (c : Instr) : (s.withCommand c).dies = s.dies := rfl
@[simp] theorem State.withCommand_banks (s : State) (c : Instr) : (s.withCommand c).banks = s.banks := rfl
@[simp] theorem State.withCommand_rings (s : State) (c : Instr) : (s.withCommand c).rings = s.rings := rfl
@[simp] theorem State.withCommand_slates (s : State) (c : Instr) : (s.withCommand c).slates = s.slates := rfl
@[simp] theorem State.withCommand_regions (s : State) (c : Instr) : (s.withCommand c).regions = s.regions := rfl
@[simp] theorem State.withCommand_groups (s : State) (c : Instr) : (s.withCommand c).groups = s.groups := rfl
@[simp] theorem State.withCommand_ctl (s : State) (c : Instr) : (s.withCommand c).ctl = s.ctl := rfl
@[simp] theorem State.withCommand_mbox (s : State) (c : Instr) : (s.withCommand c).mbox = s.mbox := rfl
@[simp] theorem State.withCommand_stack (s : State) (c : Instr) : (s.withCommand c).stack = s.stack := rfl
@[simp] theorem State.withCommand_bg (s : State) (c : Instr) : (s.withCommand c).bg = s.bg := rfl
@[simp] theorem State.withCommand_mortar (s : State) (c : Instr) : (s.withCommand c).mortar = s.mortar := rfl
@[simp] theorem State.withCommand_hasps (s : State) (c : Instr) : (s.withCommand c).hasps = s.hasps := rfl
@[simp] theorem State.withCommand_idPage (s : State) (c : Instr) : (s.withCommand c).idPage = s.idPage := rfl
@[simp] theorem State.withCommand_idSyn (s : State) (c : Instr) : (s.withCommand c).idSyn = s.idSyn := rfl
@[simp] theorem State.withCommand_nodeId (s : State) (c : Instr) : (s.withCommand c).nodeId = s.nodeId := rfl
@[simp] theorem State.withCommand_jtagMfr (s : State) (c : Instr) : (s.withCommand c).jtagMfr = s.jtagMfr := rfl
@[simp] theorem State.withCommand_ipRev (s : State) (c : Instr) : (s.withCommand c).ipRev = s.ipRev := rfl
@[simp] theorem State.withCommand_seq (s : State) (c : Instr) : (s.withCommand c).seq = s.seq := rfl
@[simp] theorem State.withCommand_crossing (s : State) (c : Instr) : (s.withCommand c).crossing = s.crossing := rfl
@[simp] theorem State.withCommand_waits (s : State) (c : Instr) : (s.withCommand c).waits = s.waits := rfl
@[simp] theorem State.withCommand_dbWords (s : State) (c : Instr) : (s.withCommand c).dbWords = s.dbWords := rfl
@[simp] theorem State.withCommand_free (s : State) (c : Instr) : (s.withCommand c).free = s.free := rfl

@[simp] theorem State.setSet_pending (s : State) (b : Bool) (x : StepSet) : (s.setSet b x).pending = s.pending := by cases b <;> rfl
@[simp] theorem State.setSet_clk (s : State) (b : Bool) (x : StepSet) : (s.setSet b x).clk = s.clk := by cases b <;> rfl
@[simp] theorem State.setSet_regs (s : State) (b : Bool) (x : StepSet) : (s.setSet b x).regs = s.regs := by cases b <;> rfl
@[simp] theorem State.setSet_plumb (s : State) (b : Bool) (x : StepSet) : (s.setSet b x).plumb = s.plumb := by cases b <;> rfl
@[simp] theorem State.setSet_start (s : State) (b : Bool) (x : StepSet) : (s.setSet b x).start = s.start := by cases b <;> rfl
@[simp] theorem State.setSet_dbg (s : State) (b : Bool) (x : StepSet) : (s.setSet b x).dbg = s.dbg := by cases b <;> rfl
@[simp] theorem State.setSet_ports (s : State) (b : Bool) (x : StepSet) : (s.setSet b x).ports = s.ports := by cases b <;> rfl
@[simp] theorem State.setSet_fab (s : State) (b : Bool) (x : StepSet) : (s.setSet b x).fab = s.fab := by cases b <;> rfl
@[simp] theorem State.setSet_ct (s : State) (b : Bool) (x : StepSet) : (s.setSet b x).ct = s.ct := by cases b <;> rfl
@[simp] theorem State.setSet_latches (s : State) (b : Bool) (x : StepSet) : (s.setSet b x).latches = s.latches := by cases b <;> rfl
@[simp] theorem State.setSet_acq (s : State) (b : Bool) (x : StepSet) : (s.setSet b x).acq = s.acq := by cases b <;> rfl
@[simp] theorem State.setSet_chans (s : State) (b : Bool) (x : StepSet) : (s.setSet b x).chans = s.chans := by cases b <;> rfl
@[simp] theorem State.setSet_dies (s : State) (b : Bool) (x : StepSet) : (s.setSet b x).dies = s.dies := by cases b <;> rfl
@[simp] theorem State.setSet_banks (s : State) (b : Bool) (x : StepSet) : (s.setSet b x).banks = s.banks := by cases b <;> rfl
@[simp] theorem State.setSet_rings (s : State) (b : Bool) (x : StepSet) : (s.setSet b x).rings = s.rings := by cases b <;> rfl
@[simp] theorem State.setSet_slates (s : State) (b : Bool) (x : StepSet) : (s.setSet b x).slates = s.slates := by cases b <;> rfl
@[simp] theorem State.setSet_regions (s : State) (b : Bool) (x : StepSet) : (s.setSet b x).regions = s.regions := by cases b <;> rfl
@[simp] theorem State.setSet_groups (s : State) (b : Bool) (x : StepSet) : (s.setSet b x).groups = s.groups := by cases b <;> rfl
@[simp] theorem State.setSet_mbox (s : State) (b : Bool) (x : StepSet) : (s.setSet b x).mbox = s.mbox := by cases b <;> rfl
@[simp] theorem State.setSet_stack (s : State) (b : Bool) (x : StepSet) : (s.setSet b x).stack = s.stack := by cases b <;> rfl
@[simp] theorem State.setSet_bg (s : State) (b : Bool) (x : StepSet) : (s.setSet b x).bg = s.bg := by cases b <;> rfl
@[simp] theorem State.setSet_mortar (s : State) (b : Bool) (x : StepSet) : (s.setSet b x).mortar = s.mortar := by cases b <;> rfl
@[simp] theorem State.setSet_hasps (s : State) (b : Bool) (x : StepSet) : (s.setSet b x).hasps = s.hasps := by cases b <;> rfl
@[simp] theorem State.setSet_idPage (s : State) (b : Bool) (x : StepSet) : (s.setSet b x).idPage = s.idPage := by cases b <;> rfl
@[simp] theorem State.setSet_idSyn (s : State) (b : Bool) (x : StepSet) : (s.setSet b x).idSyn = s.idSyn := by cases b <;> rfl
@[simp] theorem State.setSet_nodeId (s : State) (b : Bool) (x : StepSet) : (s.setSet b x).nodeId = s.nodeId := by cases b <;> rfl
@[simp] theorem State.setSet_jtagMfr (s : State) (b : Bool) (x : StepSet) : (s.setSet b x).jtagMfr = s.jtagMfr := by cases b <;> rfl
@[simp] theorem State.setSet_ipRev (s : State) (b : Bool) (x : StepSet) : (s.setSet b x).ipRev = s.ipRev := by cases b <;> rfl
@[simp] theorem State.setSet_seq (s : State) (b : Bool) (x : StepSet) : (s.setSet b x).seq = s.seq := by cases b <;> rfl
@[simp] theorem State.setSet_crossing (s : State) (b : Bool) (x : StepSet) : (s.setSet b x).crossing = s.crossing := by cases b <;> rfl
@[simp] theorem State.setSet_waits (s : State) (b : Bool) (x : StepSet) : (s.setSet b x).waits = s.waits := by cases b <;> rfl
@[simp] theorem State.setSet_dbWords (s : State) (b : Bool) (x : StepSet) : (s.setSet b x).dbWords = s.dbWords := by cases b <;> rfl
@[simp] theorem State.setSet_free (s : State) (b : Bool) (x : StepSet) : (s.setSet b x).free = s.free := by cases b <;> rfl

/-! ### Readers after writers -/

theorem State.port_setPort (s : State) (n : Nat) (x : PintlePort) (i : Nat) :
    (s.setPort n x).port i = if i = n then x else s.port i := Sparse.get_set _ _ n x i
theorem State.chan_setChan (s : State) (n : Nat) (x : Channel) (i : Nat) :
    (s.setChan n x).chan i = if i = n then x else s.chan i := Sparse.get_set _ _ n x i
theorem State.die_setDie (s : State) (n : Nat) (x : Die) (i : Nat) :
    (s.setDie n x).die i = if i = n then x else s.die i := Sparse.get_set _ _ n x i
theorem State.bank_setBank (s : State) (n : Nat) (x : Bank) (i : Nat) :
    (s.setBank n x).bank i = if i = n then x else s.bank i := Sparse.get_set _ _ n x i
theorem State.ring_setRing (s : State) (n : Nat) (x : Ring) (i : Nat) :
    (s.setRing n x).ring i = if i = n then x else s.ring i := Sparse.get_set _ _ n x i
theorem State.region_setRegion (s : State) (n : Nat) (x : Option Region) (i : Nat) :
    (s.setRegion n x).region i = if i = n then x else s.region i := Sparse.get_set _ _ n x i
theorem State.group_setGroup (s : State) (n : Nat) (x : Option Group) (i : Nat) :
    (s.setGroup n x).group i = if i = n then x else s.group i := Sparse.get_set _ _ n x i
theorem State.latch_setLatch (s : State) (n : Nat) (x : BitVec 64) (i : Nat) :
    (s.setLatch n x).latch i = if i = n then x else s.latch i := Sparse.get_set _ _ n x i
theorem State.hasp_setHasp (s : State) (n : Nat) (x : Hasp) (i : Nat) :
    (s.setHasp n x).hasp i = if i = n then x else s.hasp i := Sparse.get_set _ _ n x i
theorem State.slateTag_setSlateTag (s : State) (n : Nat) (x : Option SlateTag) (i : Nat) :
    (s.setSlateTag n x).slateTag i = if i = n then x else s.slateTag i := Sparse.get_set _ _ n x i
theorem State.set_setSet (s : State) (b : Bool) (x : StepSet) (c : Bool) :
    (s.setSet b x).set c = if c = b then x else s.set c := by cases b <;> cases c <;> rfl

@[simp] theorem State.port_setPort_self (s : State) (n : Nat) (x : PintlePort) : (s.setPort n x).port n = x := by
  simp [State.port_setPort]
@[simp] theorem State.chan_setChan_self (s : State) (n : Nat) (x : Channel) : (s.setChan n x).chan n = x := by
  simp [State.chan_setChan]
@[simp] theorem State.die_setDie_self (s : State) (n : Nat) (x : Die) : (s.setDie n x).die n = x := by
  simp [State.die_setDie]
@[simp] theorem State.bank_setBank_self (s : State) (n : Nat) (x : Bank) : (s.setBank n x).bank n = x := by
  simp [State.bank_setBank]
@[simp] theorem State.ring_setRing_self (s : State) (n : Nat) (x : Ring) : (s.setRing n x).ring n = x := by
  simp [State.ring_setRing]
@[simp] theorem State.region_setRegion_self (s : State) (n : Nat) (x : Option Region) : (s.setRegion n x).region n = x := by
  simp [State.region_setRegion]
@[simp] theorem State.group_setGroup_self (s : State) (n : Nat) (x : Option Group) : (s.setGroup n x).group n = x := by
  simp [State.group_setGroup]
@[simp] theorem State.latch_setLatch_self (s : State) (n : Nat) (x : BitVec 64) : (s.setLatch n x).latch n = x := by
  simp [State.latch_setLatch]
@[simp] theorem State.hasp_setHasp_self (s : State) (n : Nat) (x : Hasp) : (s.setHasp n x).hasp n = x := by
  simp [State.hasp_setHasp]
@[simp] theorem State.set_setSet_self (s : State) (b : Bool) (x : StepSet) : (s.setSet b x).set b = x := by
  simp [State.set_setSet]

/-! ### The step -/

/-- A command at the front of the queue is executed with the queue's rest. -/
theorem step_withCommand (s : State) (c : Instr) : step (s.withCommand c) = exec c s := rfl

/-- An empty queue idles (log 1). -/
theorem step_idle (s : State) (h : s.pending = []) : step s = .next s := by simp [step, h]

/-- A guard that holds lets the command have its effect. -/
@[simp] theorem guard_true (s : State) : guard true s = .next s := rfl
@[simp] theorem guard_false (s : State) : guard false s = .fault .noSuchUnit := rfl

/-- What a guarded meaning can answer: the effect, or the stop of a unit that Crety does not have. -/
theorem guard_eq_next {ok : Bool} {s t : State} : guard ok s = .next t ↔ ok = true ∧ t = s := by
  cases ok <;> simp [guard, eq_comm]

end Sys2Proof.Machine
end

