-- ==== Sys2Proof/Laws/Store.lean ====
section
/-!
SUPPORT. Stores of Bond words: read after write, and that every memory operation keeps the canonical form.
-/

namespace Sys2Proof.Machine

/-! ### Reading after writing -/

theorem Store.byte_setByte (m : Store) (a : Nat) (b : Byte) (i : Nat) :
    (m.setByte a b).byte i = if i = a then b else m.byte i := Sparse.get_set 0 m.cells a b i

@[simp] theorem Store.syn_setByte (m : Store) (a : Nat) (b : Byte) (w : Nat) : (m.setByte a b).syn w = m.syn w := rfl

theorem Store.syn_setSyn (m : Store) (w : Nat) (x : BitVec 16) (i : Nat) :
    (m.setSyn w x).syn i = if i = w then x else m.syn i := Sparse.get_set 0 m.synd w x i

@[simp] theorem Store.byte_setSyn (m : Store) (w : Nat) (x : BitVec 16) (i : Nat) : (m.setSyn w x).byte i = m.byte i := rfl

@[simp] theorem Store.syn_setBytes (bs : List Byte) (m : Store) (a w : Nat) : (m.setBytes a bs).syn w = m.syn w := by
  induction bs generalizing m a with
  | nil => rfl
  | cons b r ih => rw [Store.setBytes, ih, Store.syn_setByte]

/-- Bytes below the first one written stay. -/
theorem Store.byte_setBytes_lt (bs : List Byte) (m : Store) {a i : Nat} (h : i < a) : (m.setBytes a bs).byte i = m.byte i := by
  induction bs generalizing m a with
  | nil => rfl
  | cons b r ih =>
    rw [Store.setBytes, ih _ (by omega), Store.byte_setByte, if_neg (by omega)]

/-- A run of bytes is read back, and every other byte stays. -/
theorem Store.byte_setBytes (bs : List Byte) (m : Store) (a i : Nat) :
    (m.setBytes a bs).byte i = if a ≤ i ∧ i < a + bs.length then bs.getD (i - a) 0 else m.byte i := by
  induction bs generalizing m a with
  | nil =>
    rw [Store.setBytes, if_neg (by simp only [List.length_nil]; omega)]
  | cons b r ih =>
    rw [Store.setBytes, ih, Store.byte_setByte]
    by_cases h0 : i = a
    · subst h0
      simp
    · by_cases h1 : a + 1 ≤ i ∧ i < a + 1 + r.length
      · obtain ⟨k, hk⟩ : ∃ k, i = a + 1 + k := ⟨i - (a + 1), by omega⟩
        subst hk
        rw [if_pos h1, if_pos (by simp only [List.length_cons]; omega)]
        rw [show a + 1 + k - (a + 1) = k by omega, show a + 1 + k - a = k + 1 by omega, List.getD_cons_succ]
      · rw [if_neg h1, if_neg h0, if_neg (by simp only [List.length_cons]; omega)]

theorem Store.syn_setWord (m : Store) (w : Nat) (d : BondData) (x : BitVec 16) (i : Nat) :
    (m.setWord w d x).syn i = if i = w then x else m.syn i := by
  rw [Store.setWord, Store.syn_setSyn, Store.syn_setBytes]

theorem leBytes_length (n v : Nat) : (leBytes n v).length = n := by
  induction n generalizing v with
  | zero => rfl
  | succ n ih => rw [leBytes, List.length_cons, ih]

/-- A write of a word leaves every byte outside it. -/
theorem Store.byte_setWord_ne (m : Store) (w : Nat) (d : BondData) (x : BitVec 16) {i : Nat} (h : i / 16 ≠ w) :
    (m.setWord w d x).byte i = m.byte i := by
  rw [Store.setWord, Store.byte_setSyn, Store.byte_setBytes, leBytes_length, if_neg (by omega)]

theorem Store.data_setWord_ne (m : Store) (w : Nat) (d : BondData) (x : BitVec 16) {i : Nat} (h : i ≠ w) :
    (m.setWord w d x).data i = m.data i := by
  unfold Store.data Store.bytes
  congr 2
  apply List.map_congr_left
  intro k hk
  rw [List.mem_range] at hk
  exact Store.byte_setWord_ne m w d x (by omega)

/-! ### Canonical form -/

theorem Store.wf_empty : Store.wf .empty = true := rfl

theorem Store.wf_iff (m : Store) : m.wf = true ↔ Sparse.wf 0 m.cells = true ∧ Sparse.wf 0 m.synd = true := by
  simp [Store.wf]

theorem Store.wf_setByte (m : Store) (a : Nat) (b : Byte) (h : m.wf = true) : (m.setByte a b).wf = true := by
  rw [Store.wf_iff] at h ⊢
  exact ⟨Sparse.wf_set 0 m.cells a b h.1, h.2⟩

theorem Store.wf_setSyn (m : Store) (w : Nat) (x : BitVec 16) (h : m.wf = true) : (m.setSyn w x).wf = true := by
  rw [Store.wf_iff] at h ⊢
  exact ⟨h.1, Sparse.wf_set 0 m.synd w x h.2⟩

theorem Store.wf_setBytes (bs : List Byte) (m : Store) (a : Nat) (h : m.wf = true) : (m.setBytes a bs).wf = true := by
  induction bs generalizing m a with
  | nil => exact h
  | cons b r ih => exact ih _ _ (Store.wf_setByte m a b h)

theorem Store.wf_setWord (m : Store) (w : Nat) (d : BondData) (x : BitVec 16) (h : m.wf = true) : (m.setWord w d x).wf = true :=
  Store.wf_setSyn _ w x (Store.wf_setBytes _ m _ h)

theorem Store.wf_foldl {β : Type} (f : Store → β → Store) (hf : ∀ m e, m.wf = true → (f m e).wf = true) (l : List β) (m : Store)
    (h : m.wf = true) : (l.foldl f m).wf = true := by
  induction l generalizing m with
  | nil => exact h
  | cons e r ih => exact ih _ (hf m e h)

theorem Store.wf_writeFresh (m : Store) (a : Nat) (bs : List Byte) (h : m.wf = true) : (m.writeFresh a bs).wf = true :=
  Store.wf_foldl _ (fun m _ hm => Store.wf_setSyn m _ 0 hm) _ _ (Store.wf_setBytes bs m a h)

theorem Store.wf_zero (m : Store) (a n : Nat) (h : m.wf = true) : (m.zero a n).wf = true := by
  rw [Store.wf_iff] at h ⊢
  exact ⟨Sparse.wf_filter 0 _ _ h.1, Sparse.wf_filter 0 _ _ h.2⟩

theorem Store.wf_restore (m : Store) (a n : Nat) (win : Store) (h : m.wf = true) : (m.restore a n win).wf = true :=
  Store.wf_foldl _ (fun m _ hm => Store.wf_setSyn m _ _ hm) _ _
    (Store.wf_foldl _ (fun m _ hm => Store.wf_setByte m _ _ hm) _ _ (Store.wf_zero m a n h))

/-! ### The three stores of the state -/

theorem State.memWf_iff (s : State) :
    s.memWf = true ↔ s.stack.wf = true ∧ s.mortar.wf = true ∧ s.hasps.wf = true ∧ Sparse.wf none s.groups = true ∧
      Sparse.wf none s.regions = true := by
  simp [State.memWf, and_assoc]

theorem State.memWf_reset : State.reset.memWf = true := rfl

/-- A change of a group, or of a region, keeps the form. -/
theorem State.memWf_setGroup (s : State) (n : Nat) (x : Option Group) (h : s.memWf = true) : (s.setGroup n x).memWf = true := by
  rw [State.memWf_iff] at h
  exact (State.memWf_iff _).2 ⟨h.1, h.2.1, h.2.2.1, Sparse.wf_set none s.groups n x h.2.2.2.1, h.2.2.2.2⟩

theorem State.memWf_setRegion (s : State) (n : Nat) (x : Option Region) (h : s.memWf = true) : (s.setRegion n x).memWf = true := by
  rw [State.memWf_iff] at h
  exact (State.memWf_iff _).2 ⟨h.1, h.2.1, h.2.2.1, h.2.2.2.1, Sparse.wf_set none s.regions n x h.2.2.2.2⟩

/-- A write of one word of the stack keeps the form. -/
theorem State.memWf_stkSet (s : State) (w : Nat) (d : BondData) (x : BitVec 16) (h : s.memWf = true) :
    (s.stkSet w d x).memWf = true := by
  rw [State.memWf_iff] at h
  unfold State.stkSet
  split <;> exact (State.memWf_iff _).2 ⟨Store.wf_setWord _ _ _ _ h.1, h.2⟩

/-- A write of any Bond word keeps the form. -/
theorem State.memWf_placeSet (s : State) (p : Place) (d : BondData) (x : BitVec 16) (h : s.memWf = true) :
    (s.placeSet p d x).memWf = true := by
  unfold State.placeSet
  split
  · exact State.memWf_stkSet s _ _ _ h
  · rw [State.memWf_iff] at h
    exact (State.memWf_iff _).2 ⟨h.1, Store.wf_setWord _ _ _ _ h.2.1, h.2.2⟩
  · rw [State.memWf_iff] at h
    exact (State.memWf_iff _).2 ⟨h.1, h.2.1, Store.wf_setWord _ _ _ _ h.2.2.1, h.2.2.2⟩
  · exact h

theorem State.memWf_placeWrite (s : State) (p : Place) (d : BondData) (b : Bool) (h : s.memWf = true) :
    (s.placeWrite p d b).memWf = true := State.memWf_placeSet s p d _ h

theorem State.memWf_writePlaces (l : List (Place × BondData × Bool)) (s : State) (h : s.memWf = true) :
    (s.writePlaces l).memWf = true := by
  induction l generalizing s with
  | nil => exact h
  | cons e r ih =>
    obtain ⟨p, d, b⟩ := e
    exact ih _ (State.memWf_placeWrite s p d b h)

end Sys2Proof.Machine
end

