-- ==== Sys2Proof/Tests/Slice0.lean ====
section
/-!
SUPPORT. Tests: an ill-formed term for each check of WellFormed, worked examples of the spec, and for each statement a
state and operands that meet the hypotheses of its clauses.
-/

namespace Sys2Proof.Tests

open Sys2Proof Sys2Proof.Machine

set_option Elab.async false

/-! ### Ill-formed commands -/

theorem test_wf_refuses_unit_numbers :
    (Instr.pintleResponse 32).wf = false ∧ (Instr.pintleReservedOp 0 3 true 0 0).wf = false ∧ (Instr.clockStopped 5).wf = false ∧
    (Instr.alertPulse 256 0).wf = false ∧ (Instr.bedEnd 4096 0).wf = false ∧ (Instr.tierLower 16).wf = false ∧ (Instr.getInfo 16).wf = false ∧
    (Instr.ringConfigWrite 0 0x08 0).wf = false ∧ (Instr.breakpointHit 8).wf = false ∧ (Instr.watchpointHit 4).wf = false := by decide

theorem test_wf_takes_the_last_unit :
    (Instr.read 31 true 0 0).wf = true ∧ (Instr.bedEnd 4095 0).wf = true ∧ (Instr.haspDoorbell 15 0).wf = true := by decide

/-! ### States -/

def dataR : Region := { first := 0, slabs := 16, placed := false, defer := false, role := 0, detect := false }
def stateR : Region := { first := 16, slabs := 64, placed := true, defer := false, role := 1, detect := false }
def cofferR : Region := { first := 100, slabs := 4, placed := false, defer := false, role := 2, detect := false }
def ringR : Region := { first := 200, slabs := 16, placed := true, defer := false, role := 0, detect := false }

/-- A LEAN Lion group of 128 parameters with BF16 weights. -/
def leanG : Group :=
  { rule := 2, flags := 1, mFmt := 0, vFmt := 0, wFmt := 0, rnd := 0, k := 1, stReg := 1, cfReg := 2, eLsb := -20, n := 128, rows := 0,
    cols := 0, beta1 := 0x3F666666, beta2 := 0, eps := 0, lambda := 0, clipD := 0, start := 0, base := 0, slab := 16, slabs := 1,
    coffer := 100 * slabSize, knots := 1, low := 0, wRnd := 0, colA := [], colB := [], qA := (0, false), qB := (0, false), done := [], pass1 := false, rStage := [],
    cStage := [], meanR := (0, false), marked := false, undef := false, cofUndef := false, wSeed := 0 }

/-- Crety serves, with four regions, no group, and nodes 0 to 31 in its ward. -/
def live : State :=
  { State.reset with
    start := { State.reset.start with mode := .serving },
    clk := { State.reset.clk with up := true },
    fab := { State.reset.fab with up := true },
    regions := [(0, some dataR), (1, some stateR), (2, some cofferR), (3, some ringR)],
    regs := { State.reset.regs with ward := [(0, 0xFFFFFFFF)] } }

/-- A request of opcode op that waits in hasp h. -/
def asks (s : State) (h op : Nat) (payload : List Byte) : State :=
  let x : Hasp := { Hasp.init with
    state := .pending,
    req := toSparse (leBytes 2 op ++ ([0, 0] : List Byte) ++ leBytes 4 payload.length ++ List.replicate 56 (0 : Byte) ++ payload) }
  { s.setHasp h x with mbox := { (s.setHasp h x).mbox with queue := [h] } }

/-- A step of contributor 1 at node 1 in set A. -/
def openA : StepSet :=
  { StepSet.init with
    kept := true, held := true, state := .opened, key := 5, deadline := 100, expected := 1, clear := true,
    contribs := [(1, { node := 1, sum := 0, lines := 0, state := .notSealed })] }

def holding (x : StepSet) : State := { live with ctl := { live.ctl with setA := x } }
def holdingB (x : StepSet) : State := { live with ctl := { live.ctl with setB := x } }

/-- A bank held by a repair. -/
def heldAt (s : State) (k : Nat) : State := s.setBank k { s.bank k with hold := true }

/-- CCLK is stopped. -/
def noCclk : State := { live with regs := { live.regs with stopped := 4 } }

/-- A session with every scope is open. -/
def debugging : State := { live with dbg := { live.dbg with sessionOn := true, scope := 15 } }

/-! ### The queue and the whole machine -/

theorem test_empty_queue : step State.reset = .next State.reset := rfl

theorem test_step_meets_invariants :
    live.memWf = true ∧ live.pending = [] ∧ (∃ t, step { live with pending := [.lock] } = .next t ∧ t.regs.lock = true) := by
  refine ⟨by decide +kernel, rfl, _, rfl, by decide +kernel⟩

theorem test_bounded_holds : live.clk.phase < 200 ∧ live.regs.log.length ≤ 64 ∧ live.heldCount ≤ 1024 ∧ live.start.spill.rings = [] := by
  decide +kernel

/-- A record can be written, no end of one waits, no request is bad, and an access of the Keystone engine goes or waits for its bank. -/
theorem test_banks_can_be_reached :
    live.recordReady ∧ live.wardenRuns = true ∧ live.tasked .recordEnd = false ∧ live.recordBusy = false ∧
    (heldAt live 2048).lintelOpen none true = false ∧ live.goes (rowPlan [(true, [0])]) 0 = true ∧
    (heldAt live 0).goes (rowPlan [(true, [0])]) 0 = false ∧
    ({ live with ctl := { live.ctl with items := [{ id := 0, task := .recordEnd, owed := 0, plan := [], params := 0 }] } } : State).tasked .recordEnd = true := by
  unfold State.recordReady; decide +kernel

/-- In a state whose hasps hold no request none is bad. -/
theorem test_none_bad : live.noneBad := by
  intro j
  have h : live.hasp j = Hasp.init := rfl
  simp only [State.badStatus, h]; rfl

/-! ### Pintle ports -/

theorem test_port_ready : live.portReady 31 255 := by unfold State.portReady; decide +kernel

/-- Control space at its last mapped line, host scratch, the stack at its first line, a refused offset and a bank that waits. -/
theorem test_pintle_reads :
    live.reqStatus (bareReq 0 0 true 0x31FFF80 0) = none ∧ live.reqStatus (bareReq 0 0 true 0x3200000 0) = some ptAddrErr ∧
    live.reqStatus (bareReq 0 0 false 0 0) = none ∧ live.regionAt 0 = some dataR ∧ live.bankWaits (dataR.loc 0).bank = false ∧
    (live.setBank 0 { live.bank 0 with hold := true }).bankWaits (dataR.loc 0).bank = true ∧ live.runs 2 = true := by decide +kernel

theorem test_pintle_writes :
    live.reqStatus { bareReq 0 1 true 0x2FFFF80 0 with ben := 0xFFFF } = none ∧
    live.reqStatus { bareReq 0 1 true 0x3000000 0 with ben := 0xFFFF } = some ptAddrErr ∧
    live.reqStatus { bareReq 0 1 true 0x480000 0 with ben := 1 } = some ptAddrErr ∧
    live.reqStatus { bareReq 0 1 false 0x80 0 with ben := 0xFFFF } = none ∧
    live.reqStatus { bareReq 0 1 true 0 0 with ben := 0xF } = none ∧ (bareReq 0 1 true 0 0).target.isReg = true ∧
    live.reqStatus { bareReq 0 1 true 0xC00000 0 with ben := 0xF } = none ∧ (bareReq 0 1 true 0xC00000 0).target = .hasp 0 ∧
    (bareReq 0 1 true 0x2FFFF80 0).target = .mortar 0xFFFF80 true true := by decide +kernel

theorem test_clean_line : cleanLine 0 0 (List.range 8) := by unfold cleanLine; decide +kernel

/-- Latch 8,191: an add of 1 in scope 2, and an acquire of 5. -/
theorem test_latch_requests :
    live.reqStatus (bareReq 0 2 true 0x47FFC0 0) = none ∧ (bareReq 0 2 true 0x47FFC0 0).target = .latch 8191 0 ∧
    atomicRefused false 8191 (BitVec.ofNat 128 (2 ^ 63 + 1)) = false ∧ opAcq (BitVec.ofNat 128 (2 ^ 63 + 1)) = false ∧
    atomicRefused true 8191 0 = false ∧ atomicRefused false 8191 (BitVec.ofNat 128 (3 * 2 ^ 62)) = true ∧
    atomicRefused false 8191 (BitVec.ofNat 128 (2 ^ 61 + 5 * 2 ^ 64)) = false ∧ opAcq (BitVec.ofNat 128 (2 ^ 61 + 5 * 2 ^ 64)) = true ∧
    latchValue (live.latch 8191) < opHigh (BitVec.ofNat 128 (2 ^ 61 + 5 * 2 ^ 64)) ∧ live.heldCount < 1024 ∧
    opHigh (BitVec.ofNat 128 (2 ^ 61)) ≤ latchValue (live.latch 8191) ∧ live.drained (matchOf 0 (live.latch 8191) 1) = true := by
  decide +kernel

/-- A write to the reserved bytes [15:8] of the last latch slot, and control port states with LOCK 1. -/
theorem test_reserved_latch_bytes :
    (0xFF00 : BitVec 128) ≠ 0 ∧ bits (0xFF00 : BitVec 128).toNat 7 0 = 0 ∧ bits (0xFF00 : BitVec 128).toNat 71 64 = 0 ∧
    cleanLine 0 0 (benWords 0xFF00) ∧ live.serving = true ∧ live.runs 2 = true ∧
    ({ live with regs := { live.regs with lock := true } } : State).ctOpen = true ∧ live.start.mode ≠ .starting := by
  unfold cleanLine; decide +kernel

/-- As many acquires as Crety holds, and a write that a drain waits for. -/
theorem test_acquires_held :
    (let h : HeldAcquire := { who := .pintle 1 0, latch := 0, scope := 1, target := 9, until_ := 0, matched := none }
     1024 ≤ ({ live with acq := List.replicate 1024 h } : State).heldCount) ∧
    (live.setBank 0 { live.bank 0 with queue := [.pintle (bareReq 1 1 false 0 0)] }).drained (matchOf 1 (live.latch 1) 1) = false := by
  decide +kernel

theorem test_up_link : live.linksRun = true ∧ 0 < (live.port 0).upCred ∧
    ((live.setPort 0 { live.port 0 with upQ := [wordFlit (bareReq 0 2 true 0 7) 1] }).port 0).upQ = [wordFlit (bareReq 0 2 true 0 7) 1] := by
  decide +kernel

/-! ### Fabric port -/

theorem test_fabric_members : live.fabReady 31 ∧ live.member 32 = false ∧ live.fabOpen = true := by
  unfold State.fabReady; decide +kernel

theorem test_fabric_reads :
    let s := { live with groups := [(0, some leanG)] }
    let a := 100 * slabSize
    inStack a = true ∧ s.regionAt a = some cofferR ∧ (s.cofferAt a).isSome = true ∧ s.bankWaits (cofferR.loc a).bank = false ∧
    s.regionAt 0 = some dataR ∧ (s.regionAt (a + 1)) = some cofferR ∧ (s.cofferAt (a + 1)).isSome = true ∧
    s.cofferAt (a + 3 * slabSize) = none ∧ s.regionAt (a + 3 * slabSize) = some cofferR ∧ s.regionAt (50000 * slabSize) = none ∧
    inStack (a + 3 * slabSize) = true ∧ (heldAt s (cofferR.loc a).bank).bankWaits (cofferR.loc a).bank = true ∧
    noCclk.fabReady 31 ∧ noCclk.runs 2 = false := by
  unfold State.fabReady; decide +kernel

/-- The first line of window 1 for a step that is open, one with a key that no set has, and one of a node that is not expected. -/
theorem test_contribution_lines :
    let s := { holding openA with groups := [(0, some leanG)] }
    intakeWindow 0x2800000000 = some (1, 0) ∧ (s.touch 0).acceptingSet 5 = some false ∧ (s.touch 0).acceptingSet 6 = none ∧
    (s.set false).sender 1 = some (1, { node := 1, sum := 0, lines := 0, state := .notSealed }) ∧ (s.set false).sender 2 = none ∧
    s.lineElems false 1 0 0 ≠ [] := by decide +kernel

/-- The seal of contributor 1. -/
def sealBytes : List Byte :=
  leBytes 4 0x4C414553 ++ leBytes 2 1 ++ leBytes 2 5 ++ leBytes 8 0 ++ leBytes 8 0 ++ leBytes 4 0 ++ List.replicate 100 (0 : Byte)

theorem test_seals :
    let h : HeldSeal := { contrib := 1, src := 1, tag := 5, checksum := 0, lines := 0, stamp := 0, seq := 0 }
    let x : StepSet := { openA with contribs := [(1, { node := 1, sum := 0, lines := 0, state := .held })], seals := [h] }
    openA.sealOk 1 5 (lineBytes (lineOfBytes sealBytes)) = true ∧
    (holding x).ctl.setA.seals.find? (fun y => y.contrib == 1 && (holding x).linesAdded y.src y.seq) = some h ∧
    x.contribs.find? (fun e => e.1 == 1) = some (1, { node := 1, sum := 0, lines := 0, state := .held }) ∧
    (holding x).now < 200 * x.deadline.toNat ∧
    (holdingB x).ctl.setB.seals.find? (fun y => y.contrib == 1 && (holdingB x).linesAdded y.src y.seq) = some h ∧
    (holdingB x).ctl.setA.seals.find? (fun y => y.contrib == 1 && (holdingB x).linesAdded y.src y.seq) = none := by decide +kernel

theorem test_fabric_atomics :
    (live.runs 2 && live.linesAdded 1 live.seq && live.fab.held.all (fun h => h.src != 1)) = true ∧
    (let a : FabAtomic := { src := 1, tag := 0, isCas := false, latch := 3, data := 1, seq := 0 }
     let s := { live with fab := { live.fab with held := [a] } }
     s.fab.held = [] ++ a :: [] ∧ s.linesAdded a.src a.seq = true ∧
     (s.runs 2 && s.linesAdded 1 s.seq && s.fab.held.all (fun h => h.src != 1)) = false) := by decide +kernel

/-- A pull of one line whose read is outstanding until cycle 150, and the same with its window over. -/
theorem test_pulled_lines :
    let p : Pull := { hasp := 2, node := 1, off := 0, lines := 1, latch := 1, ver := 1, k := 2, dst := 0, done := 2, phase := 1, next := 1,
                      arrived := 0, bad := 0, firstBad := none, seen := 0, timedOut := false, ended := 0 }
    let s : State := { live with fab := { live.fab with outbound := [{ tag := 7, hasp := 2, what := .line 0, until_ := 150 }] },
                                 mbox := { live.mbox with bg := [.pull p] } }
    s.fabRuns = true ∧ State.reset.fabRuns = false ∧ s.bankWaits (dataR.loc 0).bank = false ∧
    (s.setBank (dataR.loc 0).bank { Bank.init with hold := true }).bankWaits (dataR.loc 0).bank = true ∧
    s.pullOf 2 = some p ∧ s.regionAt 0 = some dataR ∧
    (s.touch 149).fab.outbound.find? (fun x => x.tag == 7 && decide ((s.touch 149).now < x.until_)) =
      some { tag := 7, hasp := 2, what := .line 0, until_ := 150 } ∧
    (s.touch 0).fab.outbound.find? (fun x => x.tag == 8 && decide ((s.touch 0).now < x.until_)) = none ∧
    (s.touch 150).fab.outbound.find? (fun x => x.tag == 7 && decide (x.until_ ≤ (s.touch 150).now)) =
      some { tag := 7, hasp := 2, what := .line 0, until_ := 150 } := by decide +kernel

/-! ### Latches, the control port and the budget interface -/

theorem test_held_acquires :
    let m : Matched := { word := 9, scope := 1, seq := 0, bank := 0 }
    let h : HeldAcquire := { who := .pintle 0 0, latch := 1, scope := 1, target := 9, until_ := 0, matched := none }
    let s : State := { live with acq := [h, { h with matched := some m }] }
    s.acq[0]? = some h ∧ h.until_ ≤ s.now ∧ s.acq[1]? = some { h with matched := some m } ∧ s.drained m = true := by decide +kernel

/-- Offset 0x47FFFC is the last reserved word of latch 8,191. -/
theorem test_control_port :
    live.ctOpen = true ∧ live.serving = true ∧ ctlTarget 0x480000 = .unmapped ∧ ctlTarget 0x7FFFFFC ≠ .unmapped ∧
    ctlTarget 0x47FFFC = .latch 8191 60 ∧ ctlTarget 0x400008 = .latch 0 8 := by decide +kernel

theorem test_samples : live.plumb.samples.length = 4 ∧ live.serving = true ∧ (live.runs 4 || live.runs 2) = true := by decide +kernel

/-! ### Supply, reset and start -/

def starting (w : StartWait) : State := { live with start := { live.start with mode := .starting, kind := .cold, seqCold := 2, wait := w } }

theorem test_modes :
    State.reset.start.mode = .reset ∧ ({ live with start := { live.start with mode := .dark } } : State).start.mode = .dark ∧
    live.start.mode ≠ .reset ∧ ({ live with start := { live.start with mode := .failed, sagInFail := true } } : State).start.sagInFail = true ∧
    ({ live with start := { live.start with mode := .shut } } : State).clk.dbolt = false ∧ State.reset.chanLive 0 = false ∧
    (State.reset.readSensors [1696]).coolEnough = false ∧ State.reset.start.sagInStart = false ∧
    (let e : StartEnv := { noEnv with clocksOk := true, railsOk := true, temps := [1696] }
     e.clocksOk = true ∧ e.railsOk = true ∧ (State.reset.readSensors e.temps).coolEnough = false) := by decide +kernel

/-- Eyes of 77 on every channel are 0.30 UI wide, and one of 76 is not (R465). -/
theorem test_eyes :
    eyesOk { noEnv with margins := (List.range 256).map (fun c => (c, 77)) } = true ∧
    eyesOk { noEnv with margins := (255, 76) :: (List.range 255).map (fun c => (c, 77)) } = false := by decide +kernel

/-- A sensor at 106 °C, one wait before and at 10 s, and cool sensors. -/
theorem test_thermal_waits :
    let s := starting .thermal
    let late : State := { s with clk := { s.clk with tick := 5000000 } }
    s.start.mode = .starting ∧ s.start.wait = .thermal ∧ (s.readSensors [1696]).coolEnough = false ∧ s.now < s.start.waitFrom + thermalLife ∧
    late.start.waitFrom + thermalLife ≤ late.now ∧ (s.readSensors []).coolEnough = true ∧ s.start.kind = .cold ∧ s.start.seqCold = 2 := by
  decide +kernel

theorem test_image_waits :
    let s := starting .image
    let t : State := { s with start := { s.start with loadState := 1 } }
    let late : State := { s with clk := { s.clk with tick := 2500000 } }
    s.imageWaits = true ∧ s.now < s.loadEnds ∧ late.imageWaits = true ∧ late.loadEnds ≤ late.now ∧ late.loadOpen = false ∧ s.runs 2 = true ∧
    ({ live with regs := { live.regs with stopped := 4 } } : State).runs 2 = false ∧ s.loadOpen = true ∧ s.start.loadState ≠ 2 ∧ s.start.loadState ≠ 1 ∧ t.start.loadState = 1 ∧ (t.imageBad t.start.load).isSome = true ∧
    live.loadOpen = false ∧ (∀ e ∈ t.start.load.bytes, e.1 < t.start.load.len) := by decide +kernel

theorem test_start_completes :
    let s := { starting .ports with start := { (starting .ports).start with phase := 12 } }
    s.start.mode = .starting ∧ s.start.wait = .ports ∧ s.start.phase = 12 ∧ s.start.activate = none ∧ s.start.kind = .cold ∧
    ({ s with start := { s.start with kind := .warmReset } } : State).start.kind ≠ .cold ∧ s.ctl.lintel = [] ∧
    (∃ w, s.plumb.ceil = some w) := by
  refine ⟨by decide +kernel, by decide +kernel, by decide +kernel, by decide +kernel, by decide +kernel, by decide +kernel, by decide +kernel, 75,
    by decide +kernel⟩

/-! ### Clocks, the stack interface and ticks -/

theorem test_clocks :
    ({ live with start := { live.start with fabricDown := true } } : State).start.fabricDown = true ∧ live.mayStop 4 = true ∧ live.mayStop 0 = true ∧
    ({ live with regs := { live.regs with stopped := 16 } } : State).runs 4 = false ∧
    ({ live with regs := { live.regs with stopped := 16 } } : State).runs (watcher 4) = true ∧
    ({ live with regs := { live.regs with stopped := 20 } } : State).runs (watcher 4) = false ∧
    ({ live with clk := { live.clk with fclkRan := some false } } : State).mayStop 3 = false ∧ live.clk.fclkRan = none ∧ live.mayStop 3 = true ∧
    ({ live with clk := { live.clk with fclkRan := some true } } : State).mayStop 3 = true ∧
    (let l : BitVec 4 := 3; ({ live.plumb with capPin := some l } : Plumb).capPin = some l) ∧
    ({ live with clk := { live.clk with hold := true } } : State).clk.hold = true ∧ (live.port 31).dups = [] ∧
    (live.port 31).busy.length < 256 ∧ live.chanLive 255 = true ∧ (live.bank 4095).owed < 8 := by decide +kernel

theorem test_self_refresh :
    let s : State := { live with plumb := { live.plumb with esr := true, esrUntil := 3 } }
    let t : State := { s with clk := { s.clk with tick := 3 } }
    s.clk.tick.toNat < s.plumb.esrUntil.toNat ∧ t.plumb.esrUntil.toNat ≤ t.clk.tick.toNat ∧ tooHot [1760] = false ∧ tooHot [1761] = true ∧
    live.plumb.esr = false ∧ live.runs 2 = true ∧ s.runs 1 = true ∧ (live.chan 255).fprogHold = false ∧ (live.chan 0).fprogHold = false ∧
    (live.chan 128).fprogHold = false := by decide +kernel

/-- The banks of both Lintel copies take commands as Crety comes to rest. -/
theorem test_record_banks :
    live.runs 1 = true ∧ ∀ copy, live.endFprog.fuseHeld (lintelBank copy) = false ∧ (live.chan (lintelBank copy / 16)).sref = false := by
  decide +kernel

/-- SCLK is stopped, and an export has sectors left to move. -/
theorem test_debts :
    ({ live with regs := { live.regs with stopped := 2 } } : State).runs 1 = false ∧
    (let s : State := { asks live 0 0xB (leBytes 8 0 ++ leBytes 8 128) with
       mbox := { live.mbox with bg := [.export_ 0 0 128 [] [] 0] }, ctl := { live.ctl with debt := 8, debtAll := 16 },
       plumb := { live.plumb with ksAllow := 8 } }
     s.ctl.items = [] ∧ min s.ctl.debt (s.ksRest / 8 * 8) = 8 ∧ s.debtRuns = true ∧ s.runs 1 = true ∧ s.plumb.esr = false ∧
     s.export?.isSome = true) := by decide +kernel

/-- CCLK is stopped and the sixteen events of channel 255's crossing wait. -/
theorem test_crossing_full :
    let s : State := { live with regs := { live.regs with stopped := 4 }, crossing := [(255, 16)] }
    s.runs 2 = false ∧ 16 ≤ Sparse.get 0 s.crossing 255 := by decide +kernel

theorem test_ticks :
    live.runs 4 = true ∧ live.exporting = false ∧ live.plumb.ceil = some 75 ∧ ({ live.plumb with wattsOn := 75 } : Plumb).ceil = some 75 ∧
    ({ live with start := { live.start with mode := .failed } } : State).serving = false := by decide +kernel

/-- Below FULL, and from 7 owed to 8. -/
theorem test_refresh :
    let s := live.setBank 4095 { Bank.init with owed := 7, acc := 15999 }
    (live.bank 0).owed + ((live.bank 0).acc.toNat + tierStep 0) / 16000 < 8 ∧ (s.bank 4095).owed < 8 ∧
    8 ≤ (s.bank 4095).owed + ((s.bank 4095).acc.toNat + tierStep 0) / 16000 ∧ (s.chan 255).sref = false ∧ s.chanLive 255 = true ∧ s.runs 4 = true ∧
    (let t : State := { s with clk := { s.clk with openPhase := true } }
     t.clk.openPhase = true ∧ 1 ≤ (t.bank 4095).owed ∧ (t.bank 4095).refs = 0) := by decide +kernel

/-- A course whose context has no more work, and one that goes on. -/
theorem test_beds :
    let c : Course := { ctx := 0, len := 8 }
    let s := (live.setBank 0 { Bank.init with course := some c }).setChan 0 { Channel.init with allow := 1 }
    let t : State := { s with ctl := { s.ctl with setA := { openA with state := .sealing } }, groups := [(0, some leanG)] }
    (s.bank 0).course = some c ∧ (s.bank 0).owed < 4 ∧ (s.bank 0).patrolDue = false ∧ s.ctxWork 0 0 = false ∧ (s.bank 0).queue = [] ∧
    ((s.touch 0).bedWork 0 0 0).ctxWork 0 0 = false ∧
    (let u := (t.touch 0).bedWork 0 0 0
     u.ctxWork 0 0 = true ∧ u.overAllow 0 = false ∧ u.mayGrant 0 = true ∧ bedLen (u.grantAt 0 0) = some 64 ∧
     bedLen ((u.feed 0 0 false).grantAt 0 0) = some 64) ∧
    (∀ p, p < 32 → (t.port p).behind = []) := by decide +kernel

theorem test_tiers :
    let s := live.setDie 15 { Die.init with tier := 1, nextTier := 1, below := 500 }
    tooHot [1760, 0, 0, 0] = false ∧ 500 ≤ (s.die 15).below ∧ 0 < (s.die 15).tier ∧ (s.die 15).nextTier = (s.die 15).tier ∧
    (live.die 0).below < 500 ∧ (live.die 0).read = false ∧ (live.die 0).tier = 0 := by decide +kernel

theorem test_patrols :
    ({ live with regs := { live.regs with scrubOn := 64 } } : State).regs.scrubOn ≠ 0 ∧ live.bankHeld 4095 = false ∧ (live.bank 4095).course = none ∧ (live.bank 4095).owed < 4 ∧
    (live.die 15).temp ≤ 95 * 16 ∧ live.runs 4 = true ∧
    ({ live with regs := { live.regs with scrubOn := 0 } } : State).regs.scrubOn = 0 ∧
    (live.setBank 4095 { Bank.init with course := some { ctx := 1, len := 8 } }).bankHeld 4095 = false ∧ live.mortarPending 0 = false ∧
    (live.setPort 0 { live.port 0 with behind := [bareReq 0 0 true 0x2000000 0] }).mortarPending 0 = true := by decide +kernel

theorem test_plumb_windows :
    let s : State := { live with plumb := { live.plumb with due1s := some .none, due60 := some .none } }
    s.plumb.due1s = some .none ∧ s.plumb.due60 = some .none := by decide +kernel

/-! ### Steps -/

/-- A piece of an element that is added and of one that is marked, where the accumulator of the first reads poisoned, and one of
marks alone. -/
theorem test_staged_piece :
    let a : Addend := { group := 0, elem := 0, value := 1, mark := false }
    let m : Addend := { group := 0, elem := 1, value := 0, mark := true }
    let p : Piece := { bank := 0, adds := [a, m], marksOnly := false, fed := true }
    let q : Piece := { p with fed := false }
    let l : StagedLine := { src := 1, setB := false, seq := 0, pieces := [p] }
    let s : State := { (holding openA).setBank 0 { Bank.init with course := some { ctx := 0, len := 8 } } with
      groups := [(0, some leanG)], ctl := { (holding openA).ctl with staged := [l] } }
    let acc := fun (x : Addend) => leanG.arrLoc (s.gPlaced leanG) .acc 0 x.elem
    let nf := fun (x : Addend) => leanG.arrLoc (s.gPlaced leanG) .nf 0 x.elem
    let word := fun (x : Loc) => s.stackWordNo x.bank x.row (x.byte / 16)
    (s.bank 0).course = some { ctx := 0, len := 8 } ∧ takePiece 0 s.ctl.staged = some (l, p, []) ∧ s.runs 1 = true ∧
    (takePiece 0 [{ l with pieces := [q] }]).isSome = true ∧ s.group 0 = some leanG ∧
    (∀ x ∈ p.adds, (acc x).byte % 8 = 0) ∧ (p.adds.map (fun x => 2 * word (acc x) + (acc x).byte % 16 / 8)).Nodup ∧
    s.marksHere false p = [m] ∧ s.marksHere false { p with adds := [m], marksOnly := true } = [m] ∧
    (∀ x ∈ p.adds, word (nf m) ≠ word (acc x)) ∧ (s.peekNat (acc a) 8).2 = false ∧
    ((s.placeWrite (s.locPlace (acc a) false) 0 true).peekNat (acc a) 8).2 = true := by
  decide +kernel

/-- The clear of set A with no group, with stack contents at zero and free, and one that a group's bank has not passed. -/
theorem test_set_clear :
    let s := { asks live 15 8 (List.replicate 32 0) with mbox := { (asks live 15 8 (List.replicate 32 0)).mbox with active := some 15 } }
    s.mbox.active = some 15 ∧ (s.hasp 15).opcode = 8 ∧ s.bg = 0 ∧ s.wardenRuns = true ∧ s.swept = true ∧ s.ctl.lintel = [] ∧
    ({ s with bg := 1 } : State).bg ≠ 0 ∧ ({ s with groups := [(0, some leanG)] } : State).swept = false := by decide +kernel

theorem test_seal_scan :
    let x : StepSet := { openA with state := .sealing }
    let g : Group := { leanG with n := 8 }
    let s : State := { holding x with groups := [(0, some g)] }
    let t := (s.banksOf g).foldl (fun t k => t.setBank k { Bank.init with passed := (1000000, 0) }) s
    let u := heldAt t ((s.banksOf g).headD 0)
    (holding x).scanReady false = true ∧ (holding x).wardenRuns = true ∧ (holdingB x).scanReady true = true ∧
    (holdingB x).scanReady false = false ∧ t.scanReady false = true ∧ t.goes (t.scanPlan false) 0 = true ∧ u.scanReady false = true ∧
    u.goes (u.scanPlan false) 0 = false := by decide +kernel

def sealedA (v : Option Verdict) : StepSet := { openA with state := .isSealed, result := .isSealed, verdict := v }
def someVerdict : Verdict := { masked := false, clip := f32One, exp := 0 }

theorem test_updates_start :
    let s := holding (sealedA (some someVerdict))
    let t := { holding (sealedA none) with groups := [(0, some { leanG with flags := 0 })] }
    s.wardenRuns = true ∧ s.exporting = false ∧ s.mayUpdate false = true ∧ s.ctl.writing = none ∧ s.memWf = true ∧ s.ctl.setB.held = false ∧
    s.ctl.setA.verdict = some someVerdict ∧ t.ctl.setA.verdict = none ∧ t.ctl.setA.result = .isSealed ∧ t.anySafe = true ∧
    (holding (sealedA none)).anySafe = false ∧ s.mayUpdate true = false ∧ (holdingB (sealedA none)).mayUpdate true = true ∧
    (holdingB (sealedA none)).mayUpdate false = false := by decide +kernel

def running (r : Run) : State := holding { openA with state := .updating, run := some r }
def someRun : Run := { spec := false, clip := f32One, exp := 0, safeDone := true, pass2 := [] }

theorem test_factored_pass2 :
    let g : Group := { leanG with rule := 1, rows := 4, cols := 32 }
    let s := { running someRun with groups := [(0, some g)] }
    s.group 0 = some g ∧ s.groupRuns 0 = true ∧ s.ctl.setA.run = some someRun ∧ s.ctl.setB.run = none ∧ 0 ∉ someRun.pass2 ∧
    s.runPassed someRun (s.firstShare someRun) = false ∧
    (let t := (List.range 4).foldl (fun t k => t.setBank k { Bank.init with passed := (0, 16) }) live
     ({ t with groups := [(0, some g)] } : State).runPassed someRun (({ t with groups := [(0, some g)] } : State).firstShare someRun) = true) ∧
    0 ∈ ({ someRun with pass2 := [0] } : Run).pass2 ∧ s.tasked (.pass2 false 0) = false ∧
    (let plan := fun (t : State) => t.pass1Plan (t.uctx false 0 { g with flags := 0 } someRun.clip someRun.exp)
     s.goes (plan s) 0 = true ∧ (heldAt s (g.rowBanks.headD 0)).goes (plan (heldAt s (g.rowBanks.headD 0))) 0 = false) := by decide +kernel

theorem test_lean_units :
    let s : State := { (running someRun).setBank 0 { Bank.init with course := some { ctx := 1, len := 8 } } with groups := [(0, some leanG)] }
    let ks : State := { s with plumb := { s.plumb with ksAllow := 1 }, banks := live.banks }
    let e : JEntry := { group := 0, unit := 0, step := 0, bytes := journalSize, at_ := 0 }
    let t : State := { s with ctl := { s.ctl with journal := [e] } }
    let c := s.uctx false 0 leanG f32One 0
    s.leanRun = some (false, someRun) ∧ s.groupRuns 0 = true ∧ t.groupRuns 0 = true ∧
    (leanG.lean && leanG.hasUnit 0 && !leanG.done.contains 0 && !s.inJournal 0 0 && (leanG.rule != 1 || someRun.pass2.contains 0)) = true ∧
    s.unitReaches c 0 = true ∧ s.ctl.journalFit (c.entryBytes 0) = some 0 ∧ t.inJournal 0 0 = true ∧ s.inJournal 0 0 = false ∧
    t.ctl.journalFit (c.entryBytes 0) = none ∧ ({ s with banks := live.banks } : State).unitReaches c 0 = false ∧
    s.tasked (.unitRead 0 0) = false ∧ s.tasked (.unitStart 0 0) = false ∧ t.tasked (.unitOut 0 0) = false ∧ t.tasked (.unitDone 0 0) = false ∧
    ks.unitReaches (ks.uctx false 0 { leanG with flags := 0x11 } f32One 0) 0 = true := by decide +kernel

/-- The accesses of a unit's start and end, with every bank free, with a bank held, and with the tick's sectors spent. -/
theorem test_update_accesses :
    let g1 : Group := { leanG with flags := 0x11 }
    let s : State := { running someRun with groups := [(0, some g1)], plumb := { live.plumb with ksAllow := 1000 } }
    let c := s.uctx false 0 g1 f32One 0
    let u := heldAt s (wordBank ((s.backingWords 0 (c.entryBytes 0)).headD 0))
    let k : State := { (running someRun).setBank 0 { Bank.init with course := some { ctx := 1, len := 8 } } with groups := [(0, some leanG)] }
    let moves := fun (t : State) (acc : List (Bool × List Nat)) => t.goes (rowPlan acc) (c.sectors acc)
    moves s (s.startAccess c 0 0) = true ∧ moves u (u.startAccess c 0 0) = false ∧ moves s (s.doneAccess c 0) = true ∧ c.g.corbel = false ∧
    moves { s with plumb := { s.plumb with ksUsed := 999 } } (s.doneAccess c 0) = false ∧
    k.goes [.take 0 []] 0 = false ∧ leanG.corbel = true ∧
    s.goes [] 0 = true := by
  decide +kernel

/-- A LEAN unit outside a course, on a group without bank stones: it starts, stands in the journal, and finishes. -/
theorem test_lean_unit_starts_and_finishes :
    let g : Group := { leanG with flags := 0x11 }
    let s : State := { running someRun with groups := [(0, some g)], plumb := { live.plumb with ksAllow := 1000 } }
    let c := s.uctx false 0 g f32One 0
    let e : JEntry := { group := 0, unit := 0, step := 0, bytes := c.entryBytes 0, at_ := 0 }
    let t : State := { s with ctl := { s.ctl with journal := [e] } }
    let moves := fun (u : State) (acc : List (Bool × List Nat)) => u.goes (rowPlan acc) (c.sectors acc)
    s.groupRuns 0 = true ∧ s.leanRun = some (false, someRun) ∧ s.group 0 = some g ∧
    (g.lean && g.hasUnit 0 && !g.done.contains 0 && !s.inJournal 0 0 && (g.rule != 1 || someRun.pass2.contains 0) &&
      s.unitReaches c 0 && !s.tasked (.unitRead 0 0) && !s.tasked (.unitStart 0 0)) = true ∧
    s.ctl.journalFit (c.entryBytes 0) = some 0 ∧ moves s (s.startAccess c 0 0) = true ∧ g.corbel = false ∧
    (t.inJournal 0 0 && t.unitReaches c 0 && !t.tasked (.unitOut 0 0) && !t.tasked (.unitDone 0 0)) = true ∧
    moves t (t.doneAccess c 0) = true := by decide +kernel

/-- The places of such a unit's entry in the backing differ, and so do the bytes that a unit of eight elements writes. -/
theorem test_lean_unit_places :
    let g : Group := { leanG with flags := 0x11, n := 8 }
    let s : State := { running someRun with groups := [(0, some g)] }
    let c := s.uctx false 0 g f32One 0
    ((List.range ((imageWords (s.entryImage c 0)).length)).map (fun i => (s.backingPlace (16 * i)).word)).Nodup ∧
    s.apart (s.updLocs c (c.unitArrays 0) (g.unitElems 0)) := by unfold State.apart; decide +kernel

/-- A run over one SAFE group of eight elements, whose bytes lie apart and outside copy 0 of the record. -/
theorem test_safe_results :
    let g : Group := { leanG with flags := 0x10, n := 8 }
    let r : Run := { someRun with safeDone := false }
    let s : State := { running r with groups := [(0, some g)] }
    let c := s.uctx false 0 g f32One 0
    let is := c.shares.flatMap (·.2)
    let locs := s.updLocs c (c.updArrays is) is
    s.groupList.filter (fun e => !e.2.lean) = [(0, g)] ∧ s.apart locs ∧ (∀ p ∈ s.lintelLine false, (.stack, p.word) ∉ s.wordsOf locs) ∧
    g.corbel = false ∧ (s.updated c is).length = 8 ∧ s.goes (s.runTakes false r) 0 = true ∧ s.tasked (.updateOut false) = false ∧
    s.runReady false r = true ∧ s.memWf = true := by unfold State.apart; decide +kernel

theorem test_updates_finish :
    (running someRun).runReady false someRun = true ∧ (running { someRun with spec := true }).runReady false { someRun with spec := true } = true ∧
    (running someRun).tasked (.updateOut false) = false ∧ (running someRun).memWf = true ∧ (running someRun).goes ((running someRun).runTakes false someRun) 0 = true ∧
    (running someRun).ctl.lintel = [] ∧ (running someRun).lintelOpen none true = true ∧
    (running someRun).ctl.writing = none ∧ (∀ e ∈ (running someRun).groupList, (running someRun).groupRuns e.1 = true) ∧
    (running someRun).wardenRuns = true ∧ (running someRun).ctl.setB.run = none ∧ (running someRun).recordBusy = false ∧
    ({ running someRun with ctl := { (running someRun).ctl with writing := some (.commit false) } } : State).memWf = true := by decide +kernel


/-! ### Mailbox -/

/-- A doorbell on an idle hasp whose request names no command, and on one that is pending; a request with a wrong length. -/
theorem test_mailbox_checks :
    let s := asks live 15 1 [0]
    (live.hasp 15).state ≠ .pending ∧ (∀ i, i < 128 → live.hasps.syn (256 * 15 + i) = 0) ∧ leNat (live.hasps.bytes (haspAt 15 0) 2) = 0 ∧
    (s.hasp 15).state = .pending ∧ live.ready 15 1 = false ∧ s.ready 15 1 = true ∧ (s.begin_ 15).preChecks 15 = some (.badLength, 0) ∧
    (asks live 15 0x14 [0]).ready 15 0x14 = true ∧ ((asks live 15 0x14 [0]).begin_ 15).preChecks 15 = some (.badLength, 0) ∧
    ((asks live 15 0xD [0]).touch 0).ready 15 0xD = true ∧ live.dbg.halted = false ∧ live.mbox.active = none ∧ live.mbox.queue = [] ∧
    live.runs 2 = true ∧ noCclk.runs 2 = false ∧
    (let t : State := { live with hasps := live.hasps.setByte (haspAt 15 0) 0x15 }
     leNat (t.hasps.bytes (haspAt 15 0) 2) = 0x15) := by decide +kernel

/-- GET_INFO, SET_BUDGET, GET_PLUMB of pages 1 and 3, and GET_STEP_REPORT of no step, of page 0, of the last page and of page 129. -/
theorem test_queries :
    let rep (page : Nat) := asks (holding openA) 0 9 (leBytes 8 0 ++ leBytes 2 page ++ List.replicate 6 0)
    (asks live 0 1 []).turn 0 1 ∧ (asks live 15 0xE (List.replicate 16 0)).turn 15 0xE ∧
    (asks live 0 0xF (1 :: List.replicate 7 0)).turn 0 0xF ∧ (asks live 0 0xF (3 :: List.replicate 7 0)).turn 0 0xF ∧
    (rep 0).turn 0 9 ∧ (rep 128).turn 0 9 ∧ (rep 129).turn 0 9 ∧ (rep 0).reportSet 0 = some false ∧ (rep 0).reportSet 1 = none := by
  unfold State.turn; decide +kernel

/-- Firmware of levels 3 and 4 runs. -/
def levels : State := { live with start := { live.start with run := { live.start.run with cmin := 3, cmax := 4 } } }

theorem test_set_compat :
    let s := asks levels 0 2 ([4, 3] ++ List.replicate 6 0)
    let x := s.hasp 0
    s.turn 0 2 ∧ x.pay 0 1 = 4 ∧ x.pay 1 1 = 3 ∧ s.holdsStep = false ∧ s.start.run.cmin.toNat ≤ x.pay 0 1 ∧
    x.pay 0 1 ≤ s.start.run.cmax.toNat ∧ ¬(x.pay 1 1 = 3 ∧ (x.pay 0 1 = 3 ∨ s.numMax < 3)) ∧ (holding openA).holdsStep = true ∧
    (asks (holding openA) 0 2 ([4, 3] ++ List.replicate 6 0)).turn 0 2 := by
  unfold State.turn; decide +kernel

/-- Region 63 takes the last slabs of the stack; region 0, which nothing uses, is deleted. -/
theorem test_define_region :
    let s := asks live 0 3 ([63] ++ List.replicate 7 0 ++ leBytes 2 (slabLimit - 1) ++ leBytes 2 1 ++ List.replicate 12 0)
    let t := asks live 0 3 (List.replicate 24 0)
    s.turn 0 3 ∧ s.regionBad (s.hasp 0) = none ∧ s.exporting = false ∧ s.ringBusy = false ∧ s.region 63 = none ∧
    (s.hasp 0).regionOf = some { first := slabLimit - 1, slabs := 1, placed := false, defer := false, role := 0, detect := false } ∧
    s.regionOverlaps 63 { first := slabLimit - 1, slabs := 1, placed := false, defer := false, role := 0, detect := false } = false ∧
    t.turn 0 3 ∧ t.regionBad (t.hasp 0) = none ∧ t.region 0 = some dataR ∧ (t.hasp 0).regionOf = none := by
  unfold State.turn; decide +kernel

/-- A group that is created, retuned, refused and deleted. -/
theorem test_define_group :
    let s := asks live 0 4 (leanG.entry 2047)
    let t := asks { live with groups := [(2047, some leanG)] } 0 4 (leanG.entry 2047)
    let u := asks { live with groups := [(2047, some { leanG with k := 2 })] } 0 4 (leanG.entry 2047)
    let v := asks { live with groups := [(2047, some leanG)] } 0 4 (List.replicate 12 0 ++ leBytes 2 2047 ++ List.replicate 50 0)
    let g := Group.ofBytes ((s.hasp 0).payload 0 64)
    s.turn 0 4 ∧ t.turn 0 4 ∧ u.turn 0 4 ∧ v.turn 0 4 ∧ g.n = 128 ∧ s.groupBad g 2047 = none ∧ s.group 2047 = none ∧
    s.zeroPlan { g with slab := 16, slabs := 1, coffer := 100 * slabSize } cofferR = [] ∧
    (heldAt s 0).zeroPlan { g with slab := 16, slabs := 1, coffer := 100 * slabSize } cofferR ≠ [] ∧
    s.region g.stReg = some stateR ∧ s.region g.cfReg = some cofferR ∧ (s.fitSlabs g stateR).isSome = true ∧
    (s.fitCoffer g cofferR).isSome = true ∧ (s.fitBase g).isSome = true ∧ s.mortarPoolUsed + g.mortarPool ≤ 0x3000000 ∧
    s.sysPoolUsed + g.sysPool ≤ 26 * 2 ^ 20 ∧ g.retunes leanG = true ∧ g.retunes { leanG with k := 2 } = false ∧
    deleteBad ((v.hasp 0).payload 0 64) = none ∧ (v.group 2047).isSome = true ∧ (Group.ofBytes ((v.hasp 0).payload 0 64)).n = 0 := by
  unfold State.turn; decide +kernel

/-- The RLAST words of a new sparse group of two rows lie apart, outside the Coffer and the record. -/
theorem test_sparse_creation :
    let g : Group := { leanG with rule := 0, flags := 3, n := 256, rows := 2, cols := 128, beta2 := 0x3F7FBE77, eps := 0x322BCC77 }
    let rows := (List.range g.pRows).map (fun u => g.arrLoc true .rlast 0 u)
    let last := live.wordsOf (rows.flatMap (fun l => l.span 4))
    live.groupBad (Group.ofBytes (g.entry 7)) 7 = none ∧ g.sparse = true ∧ rows.length = 2 ∧ live.apart (rows.flatMap (fun l => l.span 4)) ∧
    (∀ e ∈ last, e.2 ∉ (List.range g.cofferLines).flatMap (fun i =>
      (live.linePlaces (cofferR.loc (g.coffer + 128 * i)) false).map (·.word)) ∧ ∀ c, ∀ p ∈ live.lintelLine c, p.word ≠ e.2) := by
  unfold State.apart; decide +kernel

theorem test_load_schedule :
    let s := asks { live with groups := [(3, some leanG)] } 0 5 ([3, 0, 1] ++ List.replicate 29 0)
    s.turn 0 5 ∧ s.ctl.writing = none ∧ s.scheduleBad (s.hasp 0) = none ∧ s.group ((s.hasp 0).pay 0 2) = some leanG := by
  unfold State.turn; decide +kernel

theorem test_seeds :
    let s := asks live 0 6 (List.replicate 8 0)
    let t := asks (holding openA) 0 7 []
    s.turn 0 6 ∧ (asks live 0 7 []).turn 0 7 ∧ s.holdsStep = false ∧ s.ringBusy = false ∧ t.turn 0 7 ∧ t.holdsStep = true ∧
    (let u : State := { s with rings := [(4095, { s.ring 4095 with tail := 1 })] }; u.turn 0 6 ∧ u.holdsStep = false ∧ u.ringBusy = true) := by
  unfold State.turn; decide +kernel

/-- A draw running for HASP 0; the sequences that pass and fail follow. -/
theorem test_entropy_draws :
    let s := ((asks live 0 7 []).begin_ 0).holdSerial 0
    s.mbox.active = some 0 ∧ s.drawing = true ∧ s.sampling = true ∧ s.runs 2 = true ∧ s.debugDraws = false ∧ s.serving = true ∧ s.dbg.halted = false ∧ s.plumb.esr = false ∧
    s.ringBusy = false ∧ ({ s with rings := [(4095, { s.ring 4095 with tail := 1 })] } : State).ringBusy = true ∧ s.recordReady := by
  unfold State.recordReady; decide +kernel

theorem healthRun_append (a b : List Bool) : ∀ (j : Nat) (h : Health), healthRun j h (a ++ b) = healthRun (j + a.length) (healthRun j h a) b := by
  induction a with
  | nil => intro j h; rfl
  | cons x r ih => intro j h; simp only [List.cons_append, healthRun, ih, List.length_cons]; congr 1; omega

theorem healthRun_stopped (a : List Bool) : ∀ (j : Nat) (h : Health), (h.rct || h.apt) = true → healthRun j h a = h := by
  induction a with
  | nil => intro j h _; rfl
  | cons x r ih =>
    intro j h e
    have : h.feed j x = h := by simp [Health.feed, e]
    simp only [healthRun, this]; exact ih _ _ e

theorem entropySequence_health (bs : List Bool) :
    (entropySequence bs).1 = healthRun 0 Health.init ((List.range 2048).map (fun i => bs.getD (10 + i) false)) := by
  simp only [entropySequence]

theorem silent_bits (n m : Nat) :
    (List.range (n + m)).map (fun i => ([] : List Bool).getD (10 + i) false) = List.replicate n false ++ List.replicate m false := by
  rw [List.replicate_append_replicate]
  simp [List.map_const']

/-- A silent source fails the run test at its forty-first bit (R260). -/
theorem test_entropy_fails : (entropySequence []).1.rct = true := by
  have k : (healthRun 0 Health.init (List.replicate 41 false)).rct = true := by decide +kernel
  have o : ((healthRun 0 Health.init (List.replicate 41 false)).rct || (healthRun 0 Health.init (List.replicate 41 false)).apt) = true := by
    rw [k, Bool.true_or]
  rw [entropySequence_health, silent_bits 41 2007, healthRun_append, healthRun_stopped _ _ _ o]; exact k

/-- Alternating bits pass both tests from any even place on. -/
theorem healthRun_alternating (n : Nat) : ∀ (j : Nat) (h : Health), j % 2 = 0 → h.last = false → h.rct = false → h.apt = false →
    (j % 1024 ≠ 0 → h.first = true ∧ h.count = j % 1024 / 2) →
    let k := healthRun j h ((List.range' j (2 * n)).map (fun i => i % 2 == 0))
    k.rct = false ∧ k.apt = false := by
  induction n with
  | zero => intro j h _ _ r a _; exact ⟨r, a⟩
  | succ n ih =>
    intro j h e l r a c
    have e1 : (j + 1) % 2 = 1 := by omega
    have m1 : (j + 1) % 1024 ≠ 0 := by omega
    have s : List.range' j (2 * (n + 1)) = j :: (j + 1) :: List.range' (j + 2) (2 * n) := by
      rw [show 2 * (n + 1) = 2 * n + 1 + 1 by ring, List.range'_succ, List.range'_succ]
    simp only [s, List.map_cons, healthRun, e, e1]
    by_cases z : j % 1024 = 0
    · refine ih _ _ (by omega) ?_ ?_ ?_ ?_
      all_goals simp [Health.feed, r, a, l, z, m1]
      omega
    · obtain ⟨f, q⟩ := c z
      have v : ¬799 ≤ j % 1024 / 2 := by omega
      refine ih _ _ (by omega) ?_ ?_ ?_ ?_
      all_goals simp [Health.feed, r, a, l, z, m1, f, q, v]
      all_goals omega

theorem swinging_bits (n m : Nat) (h : n + 10 ≤ m) :
    (List.range n).map (fun i => ((List.range m).map (fun i => i % 2 == 0)).getD (10 + i) false) =
      (List.range' 0 n).map (fun i => i % 2 == 0) := by
  rw [← List.range_eq_range']
  apply List.map_congr_left
  intro i hi
  have : i < n := List.mem_range.mp hi
  have q : 10 + i < m := by omega
  have e : (10 + i) % 2 = i % 2 := by omega
  simp [List.getD_eq_getElem?_getD, List.getElem?_map, List.getElem?_range q, e]

/-- A sequence of alternating bits passes both tests. -/
theorem test_entropy_passes :
    ((entropySequence ((List.range 2058).map (fun i => i % 2 == 0))).1.rct ||
      (entropySequence ((List.range 2058).map (fun i => i % 2 == 0))).1.apt) = false := by
  rw [entropySequence_health, swinging_bits 2048 2058 (by omega)]
  have k := healthRun_alternating 1024 0 Health.init rfl rfl rfl rfl (fun h => absurd rfl h)
  rw [show 2 * 1024 = 2048 from rfl] at k
  rw [k.1, k.2, Bool.or_false]

/-- OPEN_STEP of step 0 with one contributor, whose table entry stands in host scratch. -/
def opening : State :=
  asks { live with mortar := live.mortar.setByte 3 0x80 |>.setByte 2 1 } 0 8
    (leBytes 8 0 ++ leBytes 8 30000000 ++ leBytes 4 0x2000000 ++ leBytes 2 1 ++ leBytes 2 5 ++ List.replicate 8 0)

theorem test_open_step :
    let x := opening.hasp 0
    opening.turn 0 8 ∧ opening.importIncomplete = false ∧ opening.openBad x = none ∧
    opening.ctabBad ((ctabPlaces (x.pay 16 4)).map opening.peek) (x.pay 20 2) = none ∧
    x.pay 0 8 = opening.ctl.epoch.toNat + opening.heldSteps.length := by
  unfold State.turn; decide +kernel

/-- VERDICT of step 0 in a state: the payload of KIND and CLIP. -/
def verdicts (s : State) (kind : Byte) : State := asks s 0 0xA (leBytes 8 0 ++ [kind, 0, 0, 0] ++ leBytes 4 f32One.toNat)

theorem test_verdicts :
    let s := verdicts (holding (sealedA none)) 0
    let t := verdicts (holding { sealedA none with result := .invalid }) 1
    let u := verdicts (holding (sealedA (some someVerdict))) 0
    let v := verdicts (holding (sealedA none)) 2
    s.turn 0 0xA ∧ s.heldSet 0 = some false ∧ s.verdictStatus false 0 = none ∧ t.turn 0 0xA ∧ t.verdictStatus false 1 = some .verdictRefused ∧
    u.turn 0 0xA ∧ (u.set false).verdict = some someVerdict ∧ v.turn 0 0xA ∧ (v.hasp 0).pay 8 1 % 4 = 2 ∧ s.ctl.writing = none ∧
    (verdicts (holding (sealedA (some someVerdict))) 2).turn 0 0xA ∧
    ({ holding (sealedA (some someVerdict)) with ctl := { (holding (sealedA (some someVerdict))).ctl with writing := some (.verdict 0 false) } } :
      State).wardenRuns = true ∧ (f32IsFin f32One && f32Lt 0 f32One) = true ∧ v.recordReady ∧
    (let w := (v.begin_ 0).abandonSet false
     w.goes (rowPlan (w.deriveAll (v.takenGroups false))) ((w.deriveAll (v.takenGroups false)).map (fun a => ksSectorsOf a.2)).sum = true) := by
  unfold State.turn State.recordReady; decide +kernel

/-- ABANDON of a step whose run before the verdict took a version: the version comes back within the tick's sectors, or waits. -/
theorem test_abandon_waits :
    let g : Group := { leanG with flags := 0, n := 8 }
    let v := verdicts { holding { sealedA none with state := .updated, run := some { someRun with spec := true } } with groups := [(0, some g)] } 2
    let w := (v.begin_ 0).abandonSet false
    let acc := w.deriveAll (v.takenGroups false)
    let cost := (acc.map (fun a => ksSectorsOf a.2)).sum
    let rich : State := { w with plumb := { w.plumb with ksAllow := 1000 } }
    v.turn 0 0xA ∧ v.takenGroups false = [0] ∧ 0 < cost ∧ w.goes (rowPlan acc) cost = false ∧ rich.goes (rowPlan acc) cost = true := by
  unfold State.turn; decide +kernel

/-- An export into the first lines of region 0, one that has no room, and an import of the image of no group. -/
theorem test_checkpoints :
    let s := asks live 0 0xB (leBytes 8 0 ++ leBytes 8 128)
    let t := asks { live with groups := [(0, some leanG)] } 0 0xB (leBytes 8 0 ++ leBytes 8 128)
    let u := asks live 0 0xC (leBytes 8 0 ++ leBytes 8 128)
    s.turn 0 0xB ∧ s.stepsRun = false ∧ s.importIncomplete = false ∧ s.rangeBad 0 128 = none ∧ s.dataRange 0 128 = some dataR ∧
    imageSize s.groupList ≤ 128 ∧ t.turn 0 0xB ∧ 128 < imageSize t.groupList ∧ u.turn 0 0xC ∧ u.memWf = true ∧ u.imageAt dataR 0 128 = none ∧
    s.imageMoved = true ∧
    (let zero := rowPlan [(true, wordUnion [(s.rangePlaces dataR 0 128).map (·.word)])]
     s.goes zero (planCost zero) = false ∧ ({ s with plumb := { s.plumb with ksAllow := 4 } } : State).goes zero (planCost zero) = true) := by
  unfold State.turn; decide +kernel

/-- An export of no group that has moved its sectors, with its bank free and held. -/
theorem test_export_ends :
    let s := asks live 0 0xB (leBytes 8 0 ++ leBytes 8 128)
    let t : State := { s with mbox := { s.mbox with bg := [.export_ 0 0 128 [] [] 0] } }
    let x : ExportJob := { hasp := 0, dst := 0, region := dataR, groups := [], sched := [], epoch := 0 }
    let acc := rowPlan [(true, wordUnion [(t.rangePlaces dataR 0 128).map (·.word)])]
    let u := heldAt t (dataR.loc 0).bank
    t.imageMoved = true ∧ isBackground (t.hasp 0).opcode = true ∧ t.export? = some x ∧ t.exportWaits x = false ∧ t.tasked .exportEnd = false ∧ t.zeroWaits = false ∧
    t.goes acc 0 = true ∧ u.goes acc 0 = false ∧ u.exportWaits x = false ∧
    t.goes (rowPlan [(false, (t.exportWords [] 0 0 1).map (·.1))]) 0 = true ∧ t.bankWaits (dataR.loc 0).bank = false ∧
    t.regionAt 0 = some dataR ∧
    ({ t with ctl := { t.ctl with items := [{ id := 0, task := .exportLines 0 1, owed := 0, plan := [], params := 0 }] } } : State).exportWaits x = true := by
  decide +kernel

/-- The image of no group at the start of region 0, in the state that imports it. -/
def importing : State :=
  (asks { live with plumb := { live.plumb with ksAllow := 4 } } 0 0xC (leBytes 8 0 ++ leBytes 8 128)).writeRange dataR 0
    (sound (live.imageHeader 0 128 7))

/-- Its range can be read within the tick's four sectors, and not without them or while its bank is held. -/
theorem test_import_reads :
    let read := fun (t : State) => rowPlan [(false, wordUnion [(t.rangePlaces dataR 0 (t.imageSpan dataR 0 128)).map (·.word)])]
    let u := heldAt importing (dataR.loc 0).bank
    let v : State := { importing with plumb := { importing.plumb with ksUsed := 4 } }
    importing.imageSpan dataR 0 128 = 128 ∧ planCost (read importing) = 4 ∧ importing.goes (read importing) 4 = true ∧ u.goes (read u) 4 = false ∧
    v.goes (read v) 4 = false ∧ importing.tasked (.importRead 0) = false ∧ importing.tasked (.importRows 0) = false ∧
    importing.mbox.after = none ∧ importing.imageRuns = true := by
  decide +kernel

theorem test_import_of_no_group :
    ∃ bs, importing.imageAt dataR 0 128 = some (bs, []) ∧ importing.imageFits bs [] = true ∧
      ({ importing with groups := [(0, some leanG)] } : State).imageFits bs [] = false ∧ importing.memWf = true := by
  refine ⟨live.imageHeader 0 128 7, by decide +kernel, by decide +kernel, by decide +kernel, by decide +kernel⟩

theorem test_pulls_and_scrubs :
    let pay (lines : Nat) := leBytes 2 1 ++ leBytes 2 1 ++ leBytes 2 1 ++ [2, 0] ++ leBytes 8 0 ++ leBytes 8 1 ++ leBytes 8 0 ++ leBytes 4 lines ++
      List.replicate 28 0
    let s := asks live 0 0xD (pay 1)
    let t := asks live 0 0x10 (leBytes 2 0 ++ leBytes 2 1 ++ leBytes 2 1 ++ [0, 0])
    let b : Background := .scrub 1 0 1 1 0 0 0 0 0 0 0
    (s.touch 0).turn 0 0xD ∧ s.pullBad (s.hasp 0) = none ∧ (asks live 0 0xD (pay 0)).pullBad ((asks live 0 0xD (pay 0)).hasp 0) = some 32 ∧
    t.turn 0 0x10 ∧ (t.hasp 0).pay 0 2 + (t.hasp 0).pay 2 2 ≤ slabLimit ∧ (t.hasp 0).pay 4 2 ≠ 0 ∧
    (let u : State := { live with mbox := { live.mbox with bg := [b] } }
     u.wardenRuns = true ∧ u.mbox.bg = b :: [] ∧ (scrubAt 0 65535).1 < 4096 ∧ u.bankHeld 0 = false ∧ 65535 + 1 = scrubLines 1) := by
  unfold State.turn; decide +kernel

theorem test_repairs :
    let s := asks live 0 0x11 (leBytes 2 4095 ++ leBytes 2 9207 ++ List.replicate 4 0)
    let full := live.setBank 4095 { Bank.init with soft := [(0, 0, 0), (1, 1, 1), (2, 2, 2), (3, 3, 3)] }
    let t := asks (live.setDie 15 { Die.init with sensors := [1361, 0, 0, 0] }) 0 0x12 (leBytes 2 0 ++ leBytes 2 4095 ++ leBytes 2 9215 ++ [0, 0])
    s.turn 0 0x11 ∧ s.repairing = none ∧ (s.bank 4095).freeSpare = some 0 ∧ (full.bank 4095).freeSpare = some 4 ∧
    4 ≤ (full.bank 4095).soft.length ∧ (s.bank 4095).soft.length < 4 ∧ (s.bank 4095).owed < 8 ∧ isBackground (s.hasp 0).opcode = true ∧
    (let u := asks ({ live with clk := { live.clk with vddsNear := true } }.setBank 4095 { Bank.init with soft := [(0, 9207, 5)] }) 0 0x12
       (leBytes 2 0 ++ leBytes 2 4095 ++ leBytes 2 9207 ++ [0, 0])
     u.turn 0 0x12 ∧ (u.bank 4095).softSpare 9207 = some 5 ∧ u.fuseCond 4095 = true ∧ u.repairRuns (some 0) = true ∧ (u.bank 4095).course = none) ∧
    (let w : State := { live.setChan 255 { Channel.init with fprogHold := true } with plumb := { live.plumb with esr := true } }
     (w.chan 255).fprogHold = true ∧ (live.chan 255).fprogHold = false ∧ w.fprogRuns (some 0) = true ∧ w.repairRuns (some 0) = false ∧
     (9207, 5) ∉ (live.bank 4095).fused) ∧
    ({ live with dbg := { live.dbg with halted := true } } : State).repairRuns (some 0) = false ∧
    (asks live 0 0x12 (leBytes 2 1 ++ leBytes 2 255 ++ leBytes 2 168 ++ [0, 0])).turn 0 0x12 ∧ t.turn 0 0x12 ∧ (t.bank 4095).softSpare 9215 = none ∧
    t.fuseCond 4095 = false ∧ live.repairRuns (some 0) = true := by
  unfold State.turn; decide +kernel

/-! ### Firmware, shutdown and rings -/

theorem test_firmware :
    let chunk (len : Nat) := asks live 0 0x13 (leBytes 4 0 ++ leBytes 2 len ++ List.replicate 58 0 ++ List.replicate len 0)
    let s := chunk 128
    let x := s.hasp 0
    s.turn 0 0x13 ∧ (s.slotOf s.otherSlot).chunkBad 0 128 false (x.payload 64 128) = none ∧ (chunk 1).turn 0 0x13 ∧
    ((chunk 1).slotOf (chunk 1).otherSlot).chunkBad 0 1 false (((chunk 1).hasp 0).payload 64 1) = some 4 ∧
    (asks live 0 0x14 (2 :: List.replicate 7 0)).turn 0 0x14 ∧ (asks live 0 0x14 (List.replicate 8 0)).turn 0 0x14 ∧
    live.start.stagedOk = false ∧ (asks live 0 0x15 []).turn 0 0x15 ∧ live.ctl.lintel = [] ∧
    (let t : State := { live with start := { live.start with stagedOk := true } }
     t.start.stagedOk = true ∧ (t.slotOf t.otherSlot).run.cmax.toNat < t.ctl.compat ∧ (t.imageBad (t.slotOf t.otherSlot)).isSome = true ∧
     ({ t with ctl := { t.ctl with compat := 0 } } : State).ctl.compat ≤ (t.slotOf t.otherSlot).run.cmax.toNat) := by
  unfold State.turn; decide +kernel

/-- Ring 0 with its array at slab 200 and its save area at slab 201 of region 3. -/
def ring0 : Ring := { Ring.init with base := 25, logSz := 4, save := 402 }
def ringing (r : Ring) : State := live.setRing 0 r

theorem test_rings :
    let s := ringing ring0
    let t := ringing { ring0 with state := .running }
    ring0.slots < (17 - ring0.head32 : BitVec 32).toNat ∧ (16 - ring0.head32 : BitVec 32).toNat ≤ ring0.slots ∧ (s.ring 0).state = .stopped ∧
    s.ringRangesOk 0 = true ∧ live.ringRangesOk 0 = false ∧ (t.ring 0).state ≠ .stopped ∧ (t.ring 0).flight = [] ∧
    (s.ringRegion ring0.saveAt 1024).isSome = true ∧ live.ringRegion (live.ring 0).saveAt 1024 = none ∧
    s.readImage 0 (s.saveAreaPlace 0) = some none ∧ s.readImage 0 (fun i => s.saveAreaPlace 0 (32 + i)) = some none ∧
    s.bankOpen 0 = true ∧ (live.setBank 0 { Bank.init with course := some { ctx := 2, len := 8 } }).bankOpen 0 = false ∧
    ring0.aborting = false ∧ ({ ring0 with state := .saved } : Ring).retires = false ∧
    (let u := s.placeSet (s.saveAreaPlace 0 0) 0 poisonMask
     u.readImage 0 (u.saveAreaPlace 0) = none) := by decide +kernel

/-- A FILL of one FP32 element at the start of slab 202. -/
def fill : BitVec 512 := BitVec.ofNat 512 (2 + 2 ^ 64 + 202 * 2048 * 2 ^ 224)

/-- Ring 0 runs with its first descriptor a FILL. -/
def filling (r : Ring) : State :=
  let s := ringing { r with state := .running, enable := true, tail := 1 }
  (List.range 4).foldl (fun s i => s.placeSet (s.ringPlace 0 (r.arrayAt + 16 * i)) (BitVec.ofNat 128 (fill.toNat >>> (128 * i))) 0) s

/-- The unit of work of that FILL: it stores one word of four bytes, in context 2. -/
theorem test_ring_unit :
    let f := InFlight.at_ 0 fill
    let s := (filling { ring0 with flight := [f] })
    let ws := s.unitStores 0 f
    let d := Desc.of fill
    (s.ring 0).flight.findIdx? (fun f => f.q % 2 == 2 - 2) = some 0 ∧ (s.ring 0).flight[0]? = some f ∧ f.done = false ∧
    ws.map (fun e => (e.1, e.2.length)) = [(d.out, 4)] ∧
    ((ws.flatMap (fun e => (List.range e.2.length).map (e.1 + ·))).map (fun a => 16 * (s.ringPlace 0 a).word + a % 16)).Nodup ∧
    d.elementwise = true ∧ (ringFmt d.fmtO).isSome = true := by decide +kernel

/-- A row of a reduction that ends with its values for a slate: SUM of one element of an array of one row, OUT_VALID 1. -/
theorem test_ring_row_ends :
    let desc : BitVec 512 := BitVec.ofNat 512 (0x0A + 2 ^ 64 + 2 ^ 96 + 202 * 2048 * 2 ^ 128 + 2 ^ 287)
    let f := InFlight.at_ 0 desc
    let s := (filling { ring0 with flight := [f] })
    let d := Desc.of desc
    (f.endsRow && d.outValid && !d.elementwise && !d.slateCopy) = true ∧ s.slateSlot d.slateOut (d.srow + f.outer) 0 d.gen = some 0 := by
  decide +kernel

theorem test_descriptors :
    let s := filling ring0
    let f : InFlight := { InFlight.at_ 0 fill with done := true }
    let t := ringing { ring0 with state := .running, enable := true, flight := [f] }
    s.runs 1 = true ∧ s.descReady 0 = true ∧ (t.ring 0).retires = true ∧ (s.ring 0).flight = [] ∧
    (Desc.of fill).relKind = 0 ∧ (Desc.of (fill + BitVec.ofNat 512 (2 ^ 11))).relKind = 1 ∧
    (ringing { ring0 with state := .running, enable := true, tail := 2, flight := [InFlight.at_ 0 fill] }).descReady 0 = true ∧
    live.descReady 0 = false ∧
    s.descLine 0 0 = (fill, false) ∧ s.descErr (Desc.of fill) = none ∧
    s.descErr (Desc.of 0) = some 1 ∧ (t.ring 0).flight = [f] ∧ f.done = true ∧ (InFlight.at_ 0 fill).done = false ∧ s.dbg.halted = false ∧
    ({ s with dbg := { s.dbg with halted := true } } : State).dbg.halted = true ∧
    (Desc.of fill).wait = false ∧ descConflict (Desc.of fill) (Desc.of fill) = true ∧
    descConflict (Desc.of fill) (Desc.of (fill + BitVec.ofNat 512 (32 * 2 ^ 224))) = false := by decide +kernel

/-! ### Registers and the debug port -/

theorem test_registers :
    live.ctRefused (ctlTarget 0x1000000) true = true ∧ live.ctOpen = true ∧ live.start.mode ≠ .starting ∧
    ({ live with regs := { live.regs with lock := true } } : State).regs.lock = true ∧ live.regs.lock = false ∧
    (0x210000 + 15 * 0x1000) / 0x1000 = 0x210 + 15 := by decide +kernel

theorem test_challenges :
    let s : State := { live with dbg := { live.dbg with chalReady := true, busy := .verify 0 } }
    let t : State := { live with dbg := { live.dbg with busy := .draw false } }
    live.dbg.busy = .idle ∧ live.start.mode ≠ .starting ∧ (starting .ports).start.mode = .starting ∧ t.sampling = false ∧
    ((((asks t 0 7 []).begin_ 0).holdSerial 0).sampling) = true ∧ s.dbg.busy ≠ .idle ∧ live.responseRefused 0 = true ∧ s.responseRefused 0 = false ∧ t.dbg.busy = .draw false ∧
    s.now < s.dbg.chalAt + 1000000000 ∧
    ({ live with clk := { live.clk with tick := 5000000 } } : State).dbg.chalAt + 1000000000 ≤
      ({ live with clk := { live.clk with tick := 5000000 } } : State).now := by decide +kernel

theorem test_run_control :
    let s : State := { debugging with dbg := { debugging.dbg with halted := true, bkpts := [(7, some 0)], watches := [(3, some 4)], haltReq := some 1 } }
    live.debugOpen 2 = false ∧ debugging.debugOpen 2 = true ∧ s.debugOpen 2 = true ∧ s.dbg.halted = true ∧ debugging.dbg.halted = false ∧
    (Sparse.get none s.dbg.bkpts 7).isSome = true ∧ Sparse.get none s.dbg.bkpts 0 = none ∧ (Sparse.get none s.dbg.watches 3).isSome = true ∧
    s.dbg.haltReq = some 1 ∧ s.ctl.writing = none ∧ bits (0xC00 : BitVec 48).toNat 11 8 = 12 := by decide +kernel

theorem test_debug_accesses :
    let s : State := { debugging with dbg := { debugging.dbg with access := some 0, result := dbWord 0 0 5 false } }
    live.debugOpen 0 = false ∧ debugging.debugOpen 0 = true ∧ debugging.dbg.access = none ∧ debugging.granted 1 = true ∧ debugging.dbg.space ≠ 1 ∧
    ({ debugging with dbg := { debugging.dbg with scope := 1 } } : State).granted 1 = false ∧ bit ((2 ^ 147 : BitVec 152)).toNat 147 = true ∧
    s.dbg.access = some 0 ∧ s.dbQueued = false ∧ dbOutcome s.dbg.result = 5 ∧ dbOutcome debugging.dbg.result ≠ 5 ∧ debugging.debugOpen 3 = true ∧
    debugging.stackServed = true ∧ State.reset.stackServed = false ∧
    (let u : State := { debugging with dbg := { debugging.dbg with accessAddr := 1 + BitVec.ofNat 48 ((9216 * slabSize - 1) * 256) } }
     let k := (u.accessLoc (.debug false 0)).bank
     u.dbg.space = 1 ∧ u.dbg.offset < 9216 * slabSize ∧ u.bankWaits k = false ∧ (heldAt u k).bankWaits k = true) ∧ s.dbg.accessNext = [] ∧
    ({ s with dbg := { s.dbg with accessNext := [1] } } : State).dbg.accessNext = [1] ∧ debugging.start.mode ≠ .reset ∧
    debugging.repairing = none ∧ debugging.dbg.repairRes ≠ 1 ∧ bits (1 : BitVec 40).toNat 1 0 = 1 ∧ (debugging.bank 0).freeSpare = some 0 ∧
    (debugging.bank 0).soft.length < 4 := by
  decide +kernel

/-! ### Worked examples of the spec -/

/-- Worked word of the Bond code: FP32 1.0, its check bits, and one faulty symbol. -/
theorem test_bond_example :
    bondEncode (0x3F800000 : BitVec 128) = 0x830F ∧ bondSyndrome (0x3B800000 : BitVec 128) 0x830F = 0x8B67 ∧
    bondCheck false (0x3B800000 : BitVec 128) 0x8B67 = .corrected 0x3F800000 := by decide +kernel

/-- The test vector of R263. -/
theorem test_tumbler_example :
    let t := tumbler 0xC0DE0042 streamWeight 1000 (groupIndex 1 5)
    t.w0 = 0x6DC2B527 ∧ t.w1 = 0xCF0D5D29 ∧ t.w2 = 0x08031F48 ∧ t.w3 = 0x1C0C7ED5 := by decide +kernel

/-- Where stack offset 0x03_2A5C_4F80 lies (R156). -/
theorem test_quoin_example : (quoin 0x032A5C4F80).bank = 1876 ∧ (quoin 0x032A5C4F80).row = 1620 := by decide +kernel

/-- A write of clean words to the stack is read back as it was written, and a poisoned word reads poisoned (R174). -/
theorem test_word_reads_back :
    let p := live.rowPlace 4095 9207 127 false
    (live.placeWrite p 0x1234 false).peek p = (0x1234, false) ∧ ((live.placeWrite p 0x1234 true).peek p).2 = true := by decide +kernel

end Sys2Proof.Tests
end

section
/-!
SUPPORT. Lines of words, the words of a line that arrives clean, and a request that a port takes at once and in its turn
(R42, R48, R49, R54, R55).
-/

namespace Sys2Proof.Machine

/-! ### Words of a line -/

/-- Bits [128 i + 127 : 128 i] of packed words are word i; past the last word they are zero. -/
theorem packedWords_word (ws : List (BitVec 128)) (i : Nat) :
    BitVec.ofNat 128 (ws.foldr (fun w acc => w.toNat + 2 ^ 128 * acc) 0 >>> (128 * i)) = ws.getD i 0 := by
  induction ws generalizing i with
  | nil => simp
  | cons w r ih =>
    cases i with
    | zero =>
      apply BitVec.eq_of_toNat_eq
      rw [BitVec.toNat_ofNat, List.foldr_cons, Nat.mul_zero, Nat.shiftRight_zero, Nat.add_mul_mod_self_left,
        Nat.mod_eq_of_lt w.isLt, List.getD_cons_zero]
    | succ i =>
      rw [List.getD_cons_succ, ← ih i, List.foldr_cons, Nat.mul_succ, Nat.add_comm (128 * i), Nat.shiftRight_add,
        Nat.shiftRight_eq_div_pow _ 128, Nat.add_mul_div_left _ _ (by decide), Nat.div_eq_of_lt w.isLt, Nat.zero_add]

/-- The eight words of a line are read back from it. -/
theorem lineWord_lineOfWords (ws : List (BitVec 128)) {i : Nat} (h : i < 8) : lineWord (lineOfWords ws) i = ws.getD i 0 := by
  rw [← packedWords_word, lineWord, lineOfWords, BitVec.toNat_ofNat]
  apply BitVec.eq_of_getLsbD_eq
  intro j hj
  have hline : 128 * i + j < 1024 := by omega
  simp only [BitVec.getLsbD_ofNat, Nat.testBit_shiftRight, Nat.testBit_mod_two_pow, hj, hline, decide_true, Bool.true_and]

/-- A word with zero syndrome is delivered as it arrived, under either policy (R172, R173). -/
@[simp] theorem bondCheck_zero (detect : Bool) (d : BondData) : bondCheck detect d 0 = .clean := by
  cases detect <;> rfl

/-- The words of a line that arrives clean are delivered as they are, none poisoned and none refused, and nothing is counted
(R54, R172). -/
theorem State.rxWords_of_cleanLine (s : State) (site : Site) (w : Who) (where_ : Nat) (detect : Bool) {d : LineData} {c : LineChk}
    {is : List Nat} (h : cleanLine d c is) :
    s.rxWords site w where_ detect d c is = (is.map (fun i => (i, lineWord d i, false)), false, false, s) := by
  induction is with
  | nil => rfl
  | cons i r ih =>
    have hi : bondSyndrome (lineWord d i) (lineChk c i) = 0 := h i List.mem_cons_self
    have hr : cleanLine d c r := fun j hj => h j (List.mem_cons_of_mem i hj)
    simp only [State.rxWords, hi, bondCheck_zero, State.account, BondOutcome.value, ih hr]
    rfl

/-! ### A request that is taken at once -/

/-- Nothing stands in the way of a request that finds its port ready (R49, R408, R557). -/
theorem State.blockedBy_accepted {s : State} {r : PintleReq} (h : s.portReady r.port r.tag) (hc : r.ctl = true → s.runs 2 = true) :
    (s.accepted r).blockedBy (s.numbered r) ((s.accepted r).port r.port).behind = false := by
  obtain ⟨-, -, -, -, hbehind, hqueued, hacquires⟩ := h
  have hb : ((s.accepted r).port r.port).behind = [] := by simp [State.accepted, hbehind]
  have hq : (s.accepted r).portQueued (s.numbered r).port = [] := hqueued
  have ha : (s.accepted r).portAcquires (s.numbered r).port = [] := hacquires
  have hr : ((s.numbered r).ctl && !(s.accepted r).runs 2) = false := by
    have hcr : (r.ctl && !s.runs 2) = false := by
      cases hctl : r.ctl
      · rfl
      · simp [hc hctl]
    exact hcr
  simp [State.blockedBy, hb, hq, ha, hr]

/-- A port that is ready performs the request in the state of its acceptance, and returns its credits (R42, R48, R49). -/
theorem State.pintleTake_of_portReady {s : State} {r : PintleReq} (h : s.portReady r.port r.tag)
    (hc : r.ctl = true → s.runs 2 = true) :
    s.pintleTake r = ((s.accepted r).pintlePerform (s.numbered r)).settle r.port := by
  have hfree := State.blockedBy_accepted h hc
  obtain ⟨-, hlinks, hcredit, htag, -⟩ := h
  have htake : (!s.linksRun || (s.port r.port).dnCred == 0) = false := by simp [hlinks]; omega
  have hissue : s.pintleTake r = ((s.accepted r).pintleIssue (s.numbered r)).settle r.port := by
    simp only [State.pintleTake, htake, List.contains_iff_mem, htag]
    rfl
  rw [hissue, State.pintleIssue]
  exact congrArg (State.settle · r.port) (if_neg (by rw [Bool.not_eq_true]; exact hfree))

/-- An answer without data is a response at the end of the port's queue. -/
theorem State.refuse_eq (s : State) (r : PintleReq) (st : BitVec 3) : s.refuse r st = s.upPush r.port (plainFlit r st) := rfl

/-- An answer with a line is a response at the end of the port's queue. -/
theorem State.answerLine_eq (s : State) (r : PintleReq) (vs : List (BondData × Bool)) :
    s.answerLine r vs = s.upPush r.port (lineFlit r vs) := rfl

/-- Returning credits does nothing, or sets the credits of that port. -/
theorem State.settle_cases (s : State) (n : Nat) : s.settle n = s ∨ s.settle n = s.setPort n { s.port n with dnCred := 32 } := by
  by_cases h : s.withholds (s.port n) = true
  · exact .inl (if_pos h)
  · exact .inr (if_neg h)

/-- Returning credits changes nothing but the ports. -/
theorem State.settle_frame (s : State) (n : Nat) : s.settle n = { s with ports := (s.settle n).ports } := by
  obtain h | h := State.settle_cases s n
  · rw [h]
  · rw [h]
    rfl

@[simp] theorem State.upQ_port_settle (s : State) (n i : Nat) : ((s.settle n).port i).upQ = (s.port i).upQ := by
  obtain h | h := State.settle_cases s n
  · rw [h]
  · rw [h, State.port_setPort]
    split
    · next hi => rw [hi]
    · rfl

theorem State.port_settle_ne (s : State) {n i : Nat} (hi : i ≠ n) : (s.settle n).port i = s.port i := by
  obtain h | h := State.settle_cases s n
  · rw [h]
  · rw [h, State.port_setPort, if_neg hi]

theorem State.port_upPush (s : State) (n : Nat) (f : UpFlit) (i : Nat) :
    (s.upPush n f).port i = if i = n then { s.port n with upQ := (s.port n).upQ ++ [f] } else s.port i := State.port_setPort s n _ i

theorem State.port_accepted_ne (s : State) (r : PintleReq) {i : Nat} (hi : i ≠ r.port) : (s.accepted r).port i = s.port i := by
  rw [State.accepted, State.port_setPort, if_neg hi]
  rfl

theorem State.upQ_port_accepted (s : State) (r : PintleReq) : ((s.accepted r).port r.port).upQ = (s.port r.port).upQ := by
  simp [State.accepted]

/-- A ready port whose request is performed by a response alone: acceptance, the response, and the credits. -/
theorem State.pintleTake_of_performs {s : State} {r : PintleReq} {f : UpFlit} (h : s.portReady r.port r.tag)
    (hc : r.ctl = true → s.runs 2 = true) (hf : (s.accepted r).pintlePerform (s.numbered r) = (s.accepted r).upPush r.port f) :
    s.pintleTake r = ((s.accepted r).upPush r.port f).settle r.port := by
  rw [State.pintleTake_of_portReady h hc, hf]

/-- A request whose acceptance is followed by its response alone is answered by it (R49, R51). -/
theorem State.answered_accepted_upPush (s : State) (r : PintleReq) (f : UpFlit) :
    Answered s (((s.accepted r).upPush r.port f).settle r.port) r.port f := by
  constructor
  · rw [State.upQ_port_settle, State.port_upPush, if_pos rfl, State.upQ_port_accepted]
  · intro q hq
    rw [State.port_settle_ne _ hq, State.port_upPush, if_neg hq, State.port_accepted_ne s r hq]

/-- A request whose acceptance is followed by its response alone leaves everything but the ports, the acceptance number and the count
of flits. -/
theorem State.accepted_upPush_frame (s : State) (r : PintleReq) (f : UpFlit) :
    ((s.accepted r).upPush r.port f).settle r.port =
      { s.countPt with ports := (((s.accepted r).upPush r.port f).settle r.port).ports, seq := s.seq + 1 } :=
  State.settle_frame _ _

end Sys2Proof.Machine
end

section
/-!
PROOF. The reserved bytes of a latch slot (O10): a latch line on a Pintle port, and reserved words on the control port (R135).
-/

namespace Sys2Proof.Machine

/-! ### Latch lines on a Pintle port -/

/-- Offset of latch slot i in control space (R134). -/
theorem toNat_latchOffset {i : Nat} (hi : i < 8192) : (BitVec.ofNat 37 (0x400000 + 64 * i)).toNat = 0x400000 + 64 * i := by
  rw [BitVec.toNat_ofNat]
  omega

/-- That offset names the first byte of latch slot i (R134). -/
theorem ctlTarget_latchOffset {i : Nat} (hi : i < 8192) : ctlTarget (0x400000 + 64 * i) = .latch i 0 := by
  have hslot : (0x400000 + 64 * i - 0x400000) / 64 = i := by omega
  have hbyte : (0x400000 + 64 * i) % 64 = 0 := by omega
  simp only [ctlTarget, hslot, hbyte]
  repeat rw [if_neg (by omega)]
  rw [if_pos (by omega)]

/-- A request to the line of latch slots i and i + 1, in a state that serves it. -/
structure OnLatchLine (s : State) (r : PintleReq) (i : Nat) : Prop where
  serving : s.serving = true
  ctl : r.ctl = true
  target : r.target = .latch i 0
  aligned : r.addr.toNat % 128 = 0

/-- The request to slot i, i even, as it meets the state of its acceptance. -/
theorem onLatchLine_accepted {s : State} {r : PintleReq} {i : Nat} (hs : s.serving = true) (hc : r.ctl = true)
    (ha : r.addr = BitVec.ofNat 37 (0x400000 + 64 * i)) (hi : i < 8192) (heven : i % 2 = 0) :
    OnLatchLine (s.accepted r) (s.numbered r) i where
  serving := hs
  ctl := hc
  target := by
    show ctlTarget r.addr.toNat = _
    rw [ha, toNat_latchOffset hi, ctlTarget_latchOffset hi]
  aligned := by
    show r.addr.toNat % 128 = 0
    rw [ha, toNat_latchOffset hi]
    omega

variable {s : State} {r : PintleReq} {i : Nat}

/-- A READ of a latch line passes its checks, and so does a WRITE whose enables break no rule (R44, R45). -/
theorem OnLatchLine.reqStatus (h : OnLatchLine s r i) (hop : r.op.toNat < 2) (hb : r.op = 1 → r.badEnables = false) :
    s.reqStatus r = none := by
  have hmapped : r.mapped = true := by simp [PintleReq.mapped, h.ctl, h.target]
  have harea : s.areaRefuses r = false := by simp [State.areaRefuses, h.ctl, h.target]
  have hreserved : ¬ 4 ≤ r.op.toNat := by omega
  simpa [State.reqStatus, hmapped, harea, hreserved, hop, h.serving, h.ctl, h.aligned] using hb

/-- A READ of a latch line is answered with the words of its two slots. -/
theorem OnLatchLine.pintlePerform_read (h : OnLatchLine s r i) (hop : r.op = 0) :
    s.pintlePerform r = s.upPush r.port (lineFlit r (s.latchLine i)) := by
  have hok : s.reqStatus r = none := h.reqStatus (by simp [hop]) (by simp [hop])
  simp [State.pintlePerform, hok, hop, State.pintleRead, h.ctl, State.readCtlLine, h.target, State.answerLine_eq]

/-- A WRITE of clean words to reserved bytes of a latch line is answered OKAY and stores nothing. -/
theorem OnLatchLine.pintlePerform_write (h : OnLatchLine s r i) (hop : r.op = 1)
    (hclean : cleanLine r.data r.chk (benWords r.ben)) (hben : r.badEnables = false) :
    s.pintlePerform r = s.upPush r.port (plainFlit r ptOkay) := by
  have hok : s.reqStatus r = none := h.reqStatus (by simp [hop]) (fun _ => hben)
  simp [State.pintlePerform, hok, hop, State.pintleWrite, h.ctl, State.rxWords_of_cleanLine _ _ _ _ _ hclean, h.target,
    CtlTarget.isReg, State.writeCtlWords, State.refuse_eq]

/-- Enables that touch a latch line but neither latch word break no rule (R44). -/
theorem OnLatchLine.badEnables_reserved (h : OnLatchLine s r i) (h0 : r.ben ≠ 0) (hlow : bits r.ben.toNat 7 0 = 0)
    (hhigh : bits r.ben.toNat 71 64 = 0) : r.badEnables = false := by
  simpa [PintleReq.badEnables, h.ctl, h.target, hlow, hhigh] using h0

/-- Word j of the line that a READ of a latch line returns (R135). -/
theorem lineWord_latchLine (r : PintleReq) (s : State) (i : Nat) {j : Nat} (hj : j < 8) :
    lineWord (lineFlit r (s.latchLine i)).data j =
      if j = 0 then (s.latch i).setWidth 128 else if j = 4 then (s.latch (i + 1)).setWidth 128 else 0 := by
  rw [lineFlit, lineOfValues, lineWord_lineOfWords _ hj]
  obtain rfl | rfl | rfl | rfl | rfl | rfl | rfl | rfl :
    j = 0 ∨ j = 1 ∨ j = 2 ∨ j = 3 ∨ j = 4 ∨ j = 5 ∨ j = 6 ∨ j = 7 := by omega
  all_goals rfl

/-! ### Commands on a Pintle port -/

/-- READ of the line of slots i and i + 1, i even: the response with their words, and nothing else. -/
theorem exec_read_latchLine {port : Nat} {tag : BitVec 8} (hready : s.portReady port tag) (hs : s.serving = true)
    (hr : s.runs 2 = true) (hi : i < 8192) (heven : i % 2 = 0) :
    let r := bareReq port 0 true (BitVec.ofNat 37 (0x400000 + 64 * i)) tag
    exec (.read port true r.addr tag) s =
      .next (((s.accepted r).upPush port (lineFlit r (s.latchLine i))).settle port) := by
  intro r
  have hline : OnLatchLine (s.accepted r) (s.numbered r) i := onLatchLine_accepted hs rfl rfl hi heven
  have hperform := hline.pintlePerform_read rfl
  exact guard_eq_next.2 ⟨decide_eq_true hready.1, (State.pintleTake_of_performs hready (fun _ => hr) hperform).symm⟩

/-- WRITE of clean words to reserved bytes of the line of slots i and i + 1, i even: the response OKAY, and nothing else. -/
theorem exec_write_latchLine {port : Nat} {tag : BitVec 8} {data : LineData} {chk : LineChk} {ben : BitVec 128}
    (hready : s.portReady port tag) (hs : s.serving = true) (hr : s.runs 2 = true) (hi : i < 8192) (heven : i % 2 = 0)
    (hclean : cleanLine data chk (benWords ben)) (h0 : ben ≠ 0) (hlow : bits ben.toNat 7 0 = 0) (hhigh : bits ben.toNat 71 64 = 0) :
    let r := { bareReq port 1 true (BitVec.ofNat 37 (0x400000 + 64 * i)) tag with data := data, chk := chk, ben := ben }
    exec (.write port true r.addr tag data chk ben) s =
      .next (((s.accepted r).upPush port (plainFlit r ptOkay)).settle port) := by
  intro r
  have hline : OnLatchLine (s.accepted r) (s.numbered r) i := onLatchLine_accepted hs rfl rfl hi heven
  have hperform := hline.pintlePerform_write rfl hclean (hline.badEnables_reserved h0 hlow hhigh)
  exact guard_eq_next.2 ⟨decide_eq_true hready.1, (State.pintleTake_of_performs hready (fun _ => hr) hperform).symm⟩

/-! ### Reserved words on the control port -/

/-- The control port refuses no access to a reserved byte of a latch slot that Crety serves (R76, R135). -/
theorem State.ctRefused_reserved {o : Nat} (hs : s.serving = true) (ho : 8 ≤ o) (write : Bool) :
    s.ctRefused (.latch i o) write = false := by
  simp [State.ctRefused, State.serves, hs, ho]

/-- A read of a reserved word answers zero without an error, and captures nothing. -/
theorem State.ctRead_reserved {off o : Nat} (hs : s.serving = true) (ht : ctlTarget (off / 4 * 4) = .latch i o) (ho : 8 ≤ o) :
    s.ctRead off = { s with ct := { s.ct with last := some { rdata := 0, err := false } } } := by
  have h0 : o ≠ 0 := by omega
  have h4 : o ≠ 4 := by omega
  simp [State.ctRead, ht, State.ctRefused_reserved hs ho, State.ctWord, h0, h4]

/-- A write of a reserved word answers without an error, and stores nothing. -/
theorem State.ctWrite_reserved {off o : Nat} (hs : s.serving = true) (ht : ctlTarget (off / 4 * 4) = .latch i o) (ho : 8 ≤ o)
    (v : BitVec 32) : s.ctWrite off v = { s with ct := { s.ct with last := some { rdata := 0, err := false } } } := by
  simp [State.ctWrite, ht, State.ctRefused_reserved hs ho]

end Sys2Proof.Machine

open Sys2Proof Sys2Proof.Machine

/-- Settles O10: a latch line's READ and WRITE are each a response on the port and nothing more, and the control port's access to a
reserved word is its answer and nothing more. -/
theorem latchLineHoldsTwoWords : Obligations.LatchLineHoldsTwoWords := by
  unfold Obligations.LatchLineHoldsTwoWords
  refine ⟨?read, ?write, ?control⟩
  case read =>
    intro s port tag i hready hs hr hi heven
    refine ⟨_, _, exec_read_latchLine hready hs hr hi heven, State.answered_accepted_upPush s _ _, rfl, rfl, rfl, ?_, ?_, ?_,
      State.accepted_upPush_frame s _ _⟩
    · exact lineWord_latchLine _ s i (by decide)
    · exact lineWord_latchLine _ s i (by decide)
    · intro j hj h0 h4
      rw [lineWord_latchLine _ s i hj, if_neg h0, if_neg h4]
  case write =>
    intro s port tag data chk ben i hready hs hr hi heven hclean h0 hlow hhigh
    exact ⟨_, exec_write_latchLine hready hs hr hi heven hclean h0 hlow hhigh, State.answered_accepted_upPush s _ _,
      State.accepted_upPush_frame s _ _⟩
  case control =>
    intro s off value i o hopen hs ht ho
    simp only [List.forall_mem_cons, List.not_mem_nil, false_implies, implies_true, and_true]
    refine ⟨?_, ?_, ?_⟩
    · exact congrArg Host.Outcome.next ((if_pos hopen).trans (State.ctRead_reserved hs ht ho))
    all_goals exact congrArg Host.Outcome.next ((if_pos hopen).trans (State.ctWrite_reserved hs ht ho value))

end

section
/-!
SUPPORT. Bytes of a number, words of a store, and the storage of a hasp (R10, R491).
-/

namespace Sys2Proof.Machine

/-! ### Bytes of a number -/

theorem leNat_lt (bs : List Byte) : leNat bs < 256 ^ bs.length := by
  induction bs with
  | nil => exact Nat.one_pos
  | cons b r ih =>
    have hb : b.toNat < 256 := b.isLt
    rw [leNat, List.length_cons, Nat.pow_succ]
    omega

/-- Byte i of a number that bytes spell is byte i of them; past the last one it is zero. -/
theorem leNat_byte (bs : List Byte) (i : Nat) : BitVec.ofNat 8 (leNat bs >>> (8 * i)) = bs.getD i 0 := by
  induction bs generalizing i with
  | nil => simp [leNat]
  | cons b r ih =>
    have hb : b.toNat < 2 ^ 8 := b.isLt
    cases i with
    | zero =>
      apply BitVec.eq_of_toNat_eq
      rw [BitVec.toNat_ofNat, leNat, Nat.mul_zero, Nat.shiftRight_zero, List.getD_cons_zero]
      omega
    | succ i =>
      have hrest : (b.toNat + 256 * leNat r) >>> 8 = leNat r := by rw [Nat.shiftRight_eq_div_pow]; omega
      rw [List.getD_cons_succ, ← ih i, leNat, Nat.mul_succ, Nat.add_comm (8 * i), Nat.shiftRight_add, hrest]

theorem leBytes_leNat (bs : List Byte) : leBytes bs.length (leNat bs) = bs := by
  induction bs with
  | nil => rfl
  | cons b r ih =>
    have hb : b.toNat < 256 := b.isLt
    have hdiv : (b.toNat + 256 * leNat r) / 256 = leNat r := by omega
    have hhead : BitVec.ofNat 8 (b.toNat + 256 * leNat r) = b := by
      apply BitVec.eq_of_toNat_eq
      rw [BitVec.toNat_ofNat]
      omega
    rw [List.length_cons, leNat, leBytes, hdiv, ih, hhead]

theorem leNat_leBytes (n x : Nat) : leNat (leBytes n x) = x % 256 ^ n := by
  induction n generalizing x with
  | zero => rw [Nat.pow_zero, Nat.mod_one]; rfl
  | succ n ih =>
    rw [leBytes, leNat, ih, BitVec.toNat_ofNat, show 256 ^ (n + 1) = 256 * 256 ^ n from Nat.pow_succ']
    exact Nat.mod_mul.symm

theorem bytesOf_length (m : List (Nat × Byte)) (lo n : Nat) : (bytesOf m lo n).length = n := by simp [bytesOf]

/-! ### Words of a store -/

/-- The bytes of a word are those written to it. -/
theorem Store.bytes_setWord (m : Store) (w : Nat) (d : BondData) (x : BitVec 16) :
    (m.setWord w d x).bytes (16 * w) 16 = leBytes 16 d.toNat := by
  apply List.ext_getElem
  · rw [leBytes_length, Store.bytes, List.length_map, List.length_range]
  · intro i hi hi'
    rw [leBytes_length] at hi'
    simp only [Store.bytes, List.getElem_map, List.getElem_range]
    rw [Store.setWord, Store.byte_setSyn, Store.byte_setBytes, leBytes_length, if_pos ⟨Nat.le_add_right _ _, by omega⟩,
      Nat.add_sub_cancel_left, List.getD_eq_getElem]

theorem Store.data_setWord_self (m : Store) (w : Nat) (d : BondData) (x : BitVec 16) : (m.setWord w d x).data w = d := by
  have hlt : d.toNat < 256 ^ 16 := d.isLt
  rw [Store.data, Store.bytes_setWord, leNat_leBytes, Nat.mod_eq_of_lt hlt, BitVec.ofNat_toNat, BitVec.setWidth_eq]

/-- Byte i of a merged word (R45). -/
def mergedByte (old new : BondData) (ben i : Nat) : Byte :=
  BitVec.ofNat 8 (if bit ben i then new.toNat >>> (8 * i) else old.toNat >>> (8 * i))

theorem leBytes_mergeBytes (old new : BondData) (ben : Nat) :
    leBytes 16 (mergeBytes old new ben).toNat = (List.range 16).map (mergedByte old new ben) := by
  have hlt := leNat_lt ((List.range 16).map (mergedByte old new ben))
  rw [List.length_map, List.length_range] at hlt
  have hval : (mergeBytes old new ben).toNat = leNat ((List.range 16).map (mergedByte old new ben)) :=
    (BitVec.toNat_ofNat _ _).trans (Nat.mod_eq_of_lt hlt)
  rw [hval]
  exact leBytes_leNat ((List.range 16).map (mergedByte old new ben))

/-- Enables 2^n - 1 are those of bytes 0 to n - 1. -/
theorem bit_two_pow_sub_one {i n : Nat} (h : i < n) : bit (2 ^ n - 1) i = true := by
  have htest : (2 ^ n - 1).testBit i = true := by rw [Nat.testBit_two_pow_sub_one]; exact decide_eq_true h
  rw [Nat.testBit_eq_decide_div_mod_eq, decide_eq_true_eq] at htest
  rw [bit, Nat.shiftRight_eq_div_pow, htest]
  rfl

/-- The low bytes of a word into which n bytes were merged are those bytes. -/
theorem Store.bytes_setWord_mergeBytes (m : Store) (w : Nat) (old : BondData) (x : BitVec 16) {bs : List Byte} (h : bs.length < 16) :
    (m.setWord w (mergeBytes old (BitVec.ofNat 128 (leNat bs)) (2 ^ bs.length - 1)) x).bytes (16 * w) bs.length = bs := by
  have hword := Store.bytes_setWord m w (mergeBytes old (BitVec.ofNat 128 (leNat bs)) (2 ^ bs.length - 1)) x
  rw [leBytes_mergeBytes] at hword
  have hnew : (BitVec.ofNat 128 (leNat bs)).toNat = leNat bs := by
    rw [BitVec.toNat_ofNat]
    exact Nat.mod_eq_of_lt (lt_of_lt_of_le (b := 256 ^ bs.length) (c := 256 ^ 16) (leNat_lt bs) (Nat.pow_le_pow_right (by decide) h.le))
  apply List.ext_getElem
  · rw [Store.bytes, List.length_map, List.length_range]
  · intro i hi hi'
    have hbyte := congrArg (fun l => l[i]?) hword
    simp only [Store.bytes, List.getElem?_map, List.getElem?_range (show i < 16 by omega), Option.map_some, Option.some.injEq] at hbyte
    simp only [Store.bytes, List.getElem_map, List.getElem_range, hbyte, mergedByte, bit_two_pow_sub_one hi', if_true, hnew, leNat_byte]
    exact List.getD_eq_getElem _ _ hi'

/-! ### The storage of a hasp -/

/-- Two stores hold the same bytes and syndromes in the storage of hasp j. -/
def SameHasp (j : Nat) (m n : Store) : Prop := (∀ a, a / 4096 = j → n.byte a = m.byte a) ∧ ∀ w, w / 256 = j → n.syn w = m.syn w

theorem SameHasp.refl (j : Nat) (m : Store) : SameHasp j m m := ⟨fun _ _ => rfl, fun _ _ => rfl⟩

theorem SameHasp.trans {j : Nat} {m n o : Store} (h : SameHasp j m n) (h' : SameHasp j n o) : SameHasp j m o :=
  ⟨fun a ha => (h'.1 a ha).trans (h.1 a ha), fun w hw => (h'.2 w hw).trans (h.2 w hw)⟩

/-- A write of a word of another hasp. -/
theorem SameHasp.setWord {j w : Nat} (m : Store) (d : BondData) (x : BitVec 16) (h : w / 256 ≠ j) : SameHasp j m (m.setWord w d x) :=
  ⟨fun _ _ => Store.byte_setWord_ne _ _ _ _ (by omega), fun _ _ => (Store.syn_setWord _ _ _ _ _).trans (if_neg (by omega))⟩

theorem SameHasp.bytes {j : Nat} {m n : Store} (h : SameHasp j m n) {a k : Nat} (hlo : 4096 * j ≤ a) (hhi : a + k ≤ 4096 * (j + 1)) :
    n.bytes a k = m.bytes a k := by
  apply List.map_congr_left
  intro i hi
  rw [List.mem_range] at hi
  exact h.1 _ (by omega)

theorem SameHasp.data {j : Nat} {m n : Store} (h : SameHasp j m n) {w : Nat} (hw : w / 256 = j) : n.data w = m.data w := by
  rw [Store.data, Store.data, h.bytes (by omega) (by omega)]

end Sys2Proof.Machine
end

section
/-!
SUPPORT. What Warden writes into the storage of a hasp: a part of a word, and the header of a response (R45, R491, R494).
-/

namespace Sys2Proof.Machine

/-! ### Registers that a check of a word can change (R176, R187, R189) -/

/-- t is s but for its registers. -/
def State.SameButRegs (s t : State) : Prop := ∃ r, t = { s with regs := r }

theorem State.SameButRegs.refl (s : State) : s.SameButRegs s := ⟨s.regs, rfl⟩

theorem State.SameButRegs.trans {s t u : State} (h : s.SameButRegs t) (h' : t.SameButRegs u) : s.SameButRegs u := by
  obtain ⟨r, rfl⟩ := h
  obtain ⟨r', rfl⟩ := h'
  exact ⟨r', rfl⟩

theorem State.sameButRegs_pushLog (s : State) (src outcome : Nat) (syn : BitVec 16) (agent where_ : Nat) :
    s.SameButRegs (s.pushLog src outcome syn agent where_) := by
  unfold State.pushLog
  split
  · exact ⟨_, rfl⟩
  · split
    · exact State.SameButRegs.refl s
    · exact ⟨_, rfl⟩

theorem State.sameButRegs_countCe (s : State) : s.SameButRegs s.countCe := by
  unfold State.countCe
  dsimp only
  split <;> exact ⟨_, rfl⟩

theorem State.sameButRegs_siteCe_mortar (s : State) : s.SameButRegs (s.siteCe .mortar) :=
  State.SameButRegs.trans ⟨_, rfl⟩ (State.sameButRegs_countCe _)

/-- A check of a word that lies in CCLK itself changes registers only (R186). -/
theorem State.sameButRegs_account_mortar (s : State) (w : Who) (where_ : Nat) (o : BondOutcome) (syn : BitVec 16) :
    s.SameButRegs (s.account .mortar w where_ o syn) := by
  cases o with
  | clean => exact State.SameButRegs.refl s
  | poison => exact State.SameButRegs.refl s
  | corrected d =>
    have hcount := State.sameButRegs_siteCe_mortar s
    simp only [State.account]
    split
    · exact hcount.trans (State.sameButRegs_pushLog _ _ _ _ _ _)
    · exact hcount
  | uncorrectable =>
    have hcount : s.SameButRegs (s.siteUe .mortar) := ⟨_, rfl⟩
    exact (hcount.trans (State.sameButRegs_pushLog _ _ _ _ _ _)).trans ⟨_, rfl⟩

/-! ### Writes into hasp storage (R45, R491) -/

/-- A whole word replaces the stored one. -/
theorem State.mergePlace_hasp_whole (s : State) (w : Who) (off : Nat) (d : BondData) :
    s.mergePlace w (haspPlace off) d false (2 ^ 16 - 1) = { s with hasps := s.hasps.setWord (off / 16) d 0 } := rfl

/-- A part of a word is merged into the stored one. -/
theorem State.mergePlace_hasp_part (s : State) (w : Who) (off : Nat) (d : BondData) {n : Nat} (h0 : 0 < n) (h : n < 16) :
    ∃ old x r, s.mergePlace w (haspPlace off) d false (2 ^ n - 1) =
      { s with hasps := s.hasps.setWord (off / 16) (mergeBytes old d (2 ^ n - 1)) x, regs := r } := by
  have hlt : 2 ^ n < 2 ^ 16 := Nat.pow_lt_pow_right (by decide) h
  have hle : 2 ^ 1 ≤ 2 ^ n := Nat.pow_le_pow_right (by decide) h0
  have hnone : (2 ^ n - 1) % 2 ^ 16 ≠ 0 := by omega
  have hall : (2 ^ n - 1) % 2 ^ 16 ≠ 2 ^ 16 - 1 := by omega
  rw [State.mergePlace, if_neg hnone, if_neg hall]
  generalize s.placeCheck (haspPlace off) = o
  have hcheck : ∀ t, s.SameButRegs t → ∃ old x r, t.placeWrite (haspPlace off)
      (mergeBytes (s.peek (haspPlace off)).1 d (2 ^ n - 1)) ((s.peek (haspPlace off)).2 || false) =
      { s with hasps := s.hasps.setWord (off / 16) (mergeBytes old d (2 ^ n - 1)) x, regs := r } := by
    rintro _ ⟨r, rfl⟩
    exact ⟨_, _, r, rfl⟩
  cases o with
  | clean => exact hcheck s (State.SameButRegs.refl s)
  | poison => exact hcheck _ (State.sameButRegs_pushLog _ _ _ _ _ _)
  | corrected x => exact hcheck _ (State.sameButRegs_account_mortar _ _ _ _ _)
  | uncorrectable => exact hcheck _ (State.sameButRegs_account_mortar _ _ _ _ _)

/-- Fewer than 16 bytes at the beginning of a word are read back, and no other hasp changes. -/
theorem State.haspPut_short (s : State) (h : Nat) {o : Nat} {bs : List Byte} (ho : o % 16 = 0) (hlast : o < 4096) (hlen : bs.length < 16) :
    ∃ m r, s.haspPut h o bs = { s with hasps := m, regs := r } ∧ m.bytes (haspAt h o) bs.length = bs ∧
      ∀ j, j ≠ h → SameHasp j s.hasps m := by
  by_cases h0 : bs = []
  · subst h0
    exact ⟨s.hasps, s.regs, rfl, rfl, fun j _ => SameHasp.refl j _⟩
  · have hpos : 0 < bs.length := List.length_pos_of_ne_nil h0
    have hone : ceilDiv bs.length 16 = 1 := by rw [ceilDiv]; omega
    have htake : bs.take 16 = bs := List.take_of_length_le hlen.le
    obtain ⟨old, x, r, hput⟩ := s.mergePlace_hasp_part { src := 4, agent := agentWarden } (haspAt h o) (BitVec.ofNat 128 (leNat bs)) hpos hlen
    have hword : 16 * (haspAt h o / 16) = haspAt h o := by rw [haspAt]; omega
    have hhasp : haspAt h o / 16 / 256 = h := by rw [haspAt]; omega
    have hbytes := Store.bytes_setWord_mergeBytes s.hasps (haspAt h o / 16) old x hlen
    rw [hword] at hbytes
    have hone' : s.haspPut h o bs = s.mergePlace { src := 4, agent := agentWarden } (haspPlace (haspAt h o))
        (BitVec.ofNat 128 (leNat bs)) false (2 ^ bs.length - 1) := by
      simp [State.haspPut, hone, htake, Nat.min_eq_right hlen.le]
    exact ⟨_, r, hone'.trans hput, hbytes, fun j hj => SameHasp.setWord _ _ _ (by rw [hhasp]; exact hj.symm)⟩

/-- A response header is stored in the first four words of the response area: no other hasp changes, nor any byte after it. -/
theorem State.haspPut_header (s : State) (h : Nat) {bs : List Byte} (hlen : bs.length = 64) :
    ∃ m, s.haspPut h 0x800 bs = { s with hasps := m } ∧
      m.data (haspAt h 0x800 / 16) = BitVec.ofNat 128 (leNat (bs.take 16)) ∧
      (∀ a, haspAt h 0x840 ≤ a → m.byte a = s.hasps.byte a) ∧ ∀ j, j ≠ h → SameHasp j s.hasps m := by
  have hfour : ceilDiv bs.length 16 = 4 := by rw [hlen]; rfl
  have hpart : ∀ i, i < 4 → ((bs.drop (16 * i)).take 16).length = 16 := by
    intro i hi
    rw [List.length_take, List.length_drop]
    omega
  have hword : ∀ i, i < 4 → haspAt h (0x800 + 16 * i) / 16 = 256 * h + 128 + i := by
    intro i _
    rw [haspAt]
    omega
  have hput : s.haspPut h 0x800 bs = { s with hasps := (List.range 4).foldl (fun m i =>
      m.setWord (haspAt h (0x800 + 16 * i) / 16) (BitVec.ofNat 128 (leNat ((bs.drop (16 * i)).take 16))) 0) s.hasps } := by
    rw [State.haspPut, hfour]
    simp only [show List.range 4 = [0, 1, 2, 3] from rfl, List.foldl_cons, List.foldl_nil, hpart, Nat.zero_lt_succ, Nat.one_lt_ofNat,
      Nat.lt_add_one, Nat.reduceLT, State.mergePlace_hasp_whole]
  simp only [show List.range 4 = [0, 1, 2, 3] from rfl, List.foldl_cons, List.foldl_nil, hword, Nat.reduceLT, Nat.zero_lt_succ] at hput
  refine ⟨_, hput, ?_, ?_, ?_⟩
  · rw [show haspAt h 0x800 / 16 = 256 * h + 128 + 0 from hword 0 (by decide), Store.data_setWord_ne _ _ _ _ (by omega),
      Store.data_setWord_ne _ _ _ _ (by omega), Store.data_setWord_ne _ _ _ _ (by omega), Store.data_setWord_self, Nat.mul_zero,
      List.drop_zero]
  · intro a ha
    rw [haspAt] at ha
    rw [Store.byte_setWord_ne _ _ _ _ (by omega), Store.byte_setWord_ne _ _ _ _ (by omega), Store.byte_setWord_ne _ _ _ _ (by omega),
      Store.byte_setWord_ne _ _ _ _ (by omega)]
  · intro j hj
    exact (((SameHasp.setWord _ _ _ (by omega)).trans (SameHasp.setWord _ _ _ (by omega))).trans (SameHasp.setWord _ _ _ (by omega))).trans
      (SameHasp.setWord _ _ _ (by omega))

end Sys2Proof.Machine
end

section
/-!
SUPPORT. Responses of the mailbox: what the answer to a request stores, and what it leaves unchanged (R494, R496).
-/

namespace Sys2Proof.Machine

/-! ### What an answer leaves unchanged -/

/-- t is s but for hasp storage, the mailbox and registers. -/
def State.SameButAnswers (s t : State) : Prop := t = { s with hasps := t.hasps, mbox := t.mbox, regs := t.regs }

/-- t is s but for hasp storage, the mailbox and interrupt causes that have been set. -/
def State.SameButCauses (s t : State) : Prop :=
  ∃ x, t = { s with hasps := t.hasps, mbox := t.mbox, regs := { s.regs with irqStatus := s.regs.irqStatus ||| x } }

theorem State.SameButAnswers.trans {s t u : State} (h : s.SameButAnswers t) (h' : t.SameButAnswers u) : s.SameButAnswers u := by
  rw [State.SameButAnswers] at *
  rw [h', h]

/-- An answer is stored nowhere but in hasp storage, and moves no step. -/
theorem State.SameButAnswers.word {s t : State} (hf : s.SameButAnswers t) {sp : Space} (hhasp : sp ≠ .hasp) (hpages : sp ≠ .pages) (w : Nat) :
    t.word sp w = s.word sp w := by
  rw [hf]
  cases sp with
  | stack => exact rfl
  | mortar => exact rfl
  | hasp => exact absurd rfl hhasp
  | pages => exact absurd rfl hpages

theorem State.SameButAnswers.ctl {s t : State} (hf : s.SameButAnswers t) : t.ctl = s.ctl := by rw [hf]

theorem State.SameButCauses.sameButAnswers {s t : State} (h : s.SameButCauses t) : s.SameButAnswers t := by
  obtain ⟨x, h⟩ := h
  rw [h]
  exact rfl

theorem State.SameButCauses.trans {s t u : State} (h : s.SameButCauses t) (h' : t.SameButCauses u) : s.SameButCauses u := by
  obtain ⟨x, h⟩ := h
  obtain ⟨y, h'⟩ := h'
  refine ⟨x ||| y, ?_⟩
  rw [h', h, ← BitVec.or_assoc]

theorem State.sameButCauses_of_mbox (s : State) (m : Mailbox) : s.SameButCauses { s with mbox := m } :=
  ⟨0, by simp⟩

/-- A cause that is set under a condition. -/
theorem State.ite_irq (s : State) (b : Bool) (i : Irq) :
    (if b then s.irq i else s) =
      { s with regs := { s.regs with irqStatus := s.regs.irqStatus ||| (if b then BitVec.ofNat 20 (2 ^ i.bit) else 0) } } := by
  cases b
  · simp
  · rfl

/-! ### An answer -/

theorem MStatus.code_lt (st : MStatus) : st.code < 2 ^ 16 := by cases st <;> decide

/-- The header of a response of n payload bytes (R496). -/
def State.header (s : State) (h code d n : Nat) : List Byte :=
  bytesOf (s.hasp h).req 0 2 ++ leBytes 2 code ++ leBytes 4 n ++ bytesOf (s.hasp h).req 8 8 ++ leBytes 8 d ++
    leBytes 8 s.clk.tick.toNat ++ List.replicate 32 0

theorem State.header_length (s : State) (h code d n : Nat) : (s.header h code d n).length = 64 := by
  simp [State.header, bytesOf_length, leBytes_length]

/-- The status stands in bytes [3:2] of the header. -/
theorem State.bits_header (s : State) (h d n : Nat) {code : Nat} (hcode : code < 2 ^ 16) :
    bits (BitVec.ofNat 128 (leNat ((s.header h code d n).take 16))).toNat 31 16 = code := by
  obtain ⟨a, b, hop⟩ : ∃ a b, bytesOf (s.hasp h).req 0 2 = [a, b] := List.length_eq_two.1 (bytesOf_length _ _ _)
  have ha : a.toNat < 256 := a.isLt
  have hb : b.toNat < 256 := b.isLt
  simp only [State.header, hop, leBytes, List.cons_append, List.nil_append, List.take_succ_cons, leNat, bits, BitVec.toNat_ofNat,
    Nat.shiftRight_eq_div_pow]
  omega

/-- The response to hasp h as it is stored: its payload, then its header (R494, R496). -/
structure State.Stores (s t : State) (h code : Nat) (bs : List Byte) : Prop where
  frame : t = { s with hasps := t.hasps, regs := t.regs }
  regs : bs = [] → t.regs = s.regs
  status : t.respStatus h = code
  bytes : t.respBytes h bs
  storage : ∀ j, j ≠ h → SameHasp j s.hasps t.hasps

theorem State.stores_haspPut (s : State) (h d : Nat) {code : Nat} {bs : List Byte} (hcode : code < 2 ^ 16) (hlen : bs.length < 16) :
    s.Stores ((s.haspPut h 0x840 bs).haspPut h 0x800 (s.header h code d bs.length)) h code bs := by
  obtain ⟨m, r, hput, hbytes, hother⟩ := s.haspPut_short h (o := 0x840) rfl (by decide) hlen
  have hregs : bs = [] → r = s.regs := by
    rintro rfl
    exact (congrArg State.regs hput).symm
  rw [hput]
  obtain ⟨n, hput', hdata, hpast, hother'⟩ := State.haspPut_header { s with hasps := m, regs := r } h (s.header_length h code d bs.length)
  rw [hput']
  refine ⟨rfl, hregs, ?_, ?_, fun j hj => (hother j hj).trans (hother' j hj)⟩
  · rw [State.respStatus, hdata]
    exact s.bits_header h d bs.length hcode
  · refine Eq.trans (List.map_congr_left fun i _ => ?_) hbytes
    exact hpast _ (Nat.le_add_right _ _)

/-- What the answer to hasp h with a code and payload bytes does. -/
structure State.Answers (s t : State) (h code : Nat) (bs : List Byte) : Prop where
  frame : s.SameButAnswers t
  causes : bs = [] → s.SameButCauses t
  state : (t.hasp h).state = .done
  hasp : ∀ j, j ≠ h → t.hasp j = s.hasp j
  status : t.respStatus h = code
  bytes : t.respBytes h bs
  storage : ∀ j, j ≠ h → SameHasp j s.hasps t.hasps
  queue : t.mbox.queue = s.mbox.queue.filter (· != h)
  active : t.mbox.active = if s.mbox.active = some h then none else s.mbox.active

/-- The mailbox once hasp h has been answered, with its new control words. -/
def Mailbox.answered (m : Mailbox) (h : Nat) (x : Hasp) : Mailbox :=
  { m with hasps := Sparse.set .init m.hasps h x, queue := m.queue.filter (· != h), active := if m.active = some h then none else m.active,
           before := if m.active = some h then none else m.before, sets := if m.active = some h then [] else m.sets }

/-- The control words of a hasp whose command has ended (R492, R494). -/
def Hasp.ended (x : Hasp) : Hasp := { x with state := .done, progress := if isBackground x.opcode then 0xFFFF else 0 }

/-- The state once the response of hasp h stands in its storage: STATE DONE, and the interrupt that the request asked for (R494). It is
the end of `State.answerHasp`, which `State.answerHasp_eq` ties to it. -/
def State.endAnswer (u : State) (h : Nat) : State :=
  let x := u.hasp h
  let s := u.setHasp h x.ended
  let s : State := { s with mbox := { s.mbox with queue := s.mbox.queue.filter (· != h),
                                                  active := if s.mbox.active = some h then none else s.mbox.active,
                                                  before := if s.mbox.active = some h then none else s.mbox.before,
                                                  sets := if s.mbox.active = some h then [] else s.mbox.sets } }
  if bit x.flags 0 then s.irq .mboxDone else s

theorem State.endAnswer_eq (u : State) (h : Nat) : ∃ y, u.endAnswer h =
    { u with mbox := u.mbox.answered h (u.hasp h).ended, regs := { u.regs with irqStatus := u.regs.irqStatus ||| y } } := by
  simp only [State.endAnswer, State.ite_irq, State.setHasp]
  exact ⟨_, rfl⟩

/-- An answer is its response and the end of the command (R494). -/
theorem State.answerHasp_eq (s : State) (h code d : Nat) (bs : List Byte) :
    s.answerHasp h code d bs = ((s.haspPut h 0x840 bs).haspPut h 0x800 (s.header h code d bs.length)).endAnswer h := rfl

theorem State.answers_answerHasp (s : State) (h d : Nat) {code : Nat} {bs : List Byte} (hcode : code < 2 ^ 16) (hlen : bs.length < 16) :
    s.Answers (s.answerHasp h code d bs) h code bs := by
  obtain ⟨hframe, hregs, hstatus, hbytes, hstorage⟩ := s.stores_haspPut h d hcode hlen
  rw [State.answerHasp_eq]
  generalize (s.haspPut h 0x840 bs).haspPut h 0x800 (s.header h code d bs.length) = u at *
  obtain ⟨y, hy⟩ := u.endAnswer_eq h
  rw [hy]
  obtain ⟨m, r, rfl⟩ : ∃ m r, u = { s with hasps := m, regs := r } := ⟨_, _, hframe⟩
  refine ⟨?_, ?_, ?_, ?_, hstatus, hbytes, hstorage, ?_, ?_⟩
  · rw [State.SameButAnswers]
  · intro h0
    have hr : r = s.regs := hregs h0
    subst hr
    exact ⟨y, rfl⟩
  · simp only [State.hasp, Mailbox.answered, Sparse.get_set_self, Hasp.ended]
  · intro j hj
    simp only [State.hasp, Mailbox.answered, Sparse.get_set_ne _ _ _ hj]
  · simp only [Mailbox.answered]
  · simp only [Mailbox.answered]

end Sys2Proof.Machine
end

section
/-!
SUPPORT. The end of a command, and the answers to the requests that fail check 1 or 2 and whose turn comes with it (R497, R499).
-/

namespace Sys2Proof.Machine

/-! ### Requests that fail check 1 or 2 -/

theorem State.badStatus_of_state_ne {s : State} {j : Nat} (h : (s.hasp j).state ≠ .pending) : s.badStatus j = none := if_neg h

/-- Whether a waiting request fails depends on its hasp alone. -/
theorem State.badStatus_congr {s t : State} {j : Nat} (h : t.hasp j = s.hasp j) : t.badStatus j = s.badStatus j := by
  rw [State.badStatus, State.badStatus, h]

/-- What is answered next fails check 1 or 2. -/
theorem State.badStatus_of_nextBad {s : State} {j : Nat} {st : MStatus} (h : s.nextBad = some (j, st)) : s.badStatus j = some st := by
  unfold State.nextBad at h
  split at h
  · exact absurd h nofun
  · split at h
    · simp only [Option.map_eq_some_iff, Prod.mk.injEq] at h
      obtain ⟨st', hst, rfl, rfl⟩ := h
      exact hst
    · split at h
      · exact absurd h nofun
      · simp only [Option.bind_eq_some_iff, Option.map_eq_some_iff, Prod.mk.injEq] at h
        obtain ⟨k, -, st', hst, rfl, rfl⟩ := h
        exact hst

/-- Answers to requests that fail check 1 or 2, and nothing else. -/
structure State.Sweeps (s t : State) : Prop where
  causes : s.SameButCauses t
  hasp : ∀ j, s.badStatus j = none → t.hasp j = s.hasp j
  storage : ∀ j, s.badStatus j = none → SameHasp j s.hasps t.hasps
  queue : ∀ j, j ∈ t.mbox.queue → j ∈ s.mbox.queue
  active : ∀ j, s.badStatus j = none → (t.mbox.active = some j ↔ s.mbox.active = some j)

theorem State.Sweeps.refl (s : State) : s.Sweeps s where
  causes := State.sameButCauses_of_mbox s s.mbox
  hasp _ _ := rfl
  storage _ _ := SameHasp.refl _ _
  queue _ h := h
  active _ _ := Iff.rfl

theorem State.Sweeps.trans {s t u : State} (h : s.Sweeps t) (h' : t.Sweeps u) : s.Sweeps u := by
  have hnone : ∀ j, s.badStatus j = none → t.badStatus j = none := fun j hj => (State.badStatus_congr (h.hasp j hj)).trans hj
  exact {
    causes := h.causes.trans h'.causes
    hasp := fun j hj => (h'.hasp j (hnone j hj)).trans (h.hasp j hj)
    storage := fun j hj => (h.storage j hj).trans (h'.storage j (hnone j hj))
    queue := fun j hj => h.queue j (h'.queue j hj)
    active := fun j hj => (h'.active j (hnone j hj)).trans (h.active j hj) }

/-- One such answer; the control words of its hasp may have changed before it. -/
theorem State.sweeps_answerHasp (s : State) {h : Nat} {st : MStatus} (hbad : s.badStatus h = some st) (x : Hasp) :
    s.Sweeps ((s.setHasp h x).answerHasp h st.code 0 []) := by
  obtain ⟨-, hcauses, -, hhasp, -, -, hstorage, hqueue, hactive⟩ :=
    (s.setHasp h x).answers_answerHasp h 0 st.code_lt (bs := []) (by decide)
  generalize (s.setHasp h x).answerHasp h st.code 0 [] = t at *
  have hne : ∀ j, s.badStatus j = none → j ≠ h := by
    rintro j hj rfl
    rw [hj] at hbad
    exact absurd hbad nofun
  refine ⟨(s.sameButCauses_of_mbox _).trans (hcauses rfl), ?_, fun j hj => hstorage j (hne j hj), ?_, ?_⟩
  · intro j hj
    rw [hhasp j (hne j hj), State.hasp_setHasp, if_neg (hne j hj)]
  · intro j hj
    rw [hqueue] at hj
    exact List.mem_of_mem_filter hj
  · intro j hj
    have hjh := hne j hj
    rw [hactive]
    change (if s.mbox.active = some h then none else s.mbox.active) = some j ↔ _
    split
    · next ha => simp [ha, hjh.symm]
    · exact Iff.rfl

theorem State.sweeps_sweepUpTo (n : Nat) (s : State) : s.Sweeps (s.sweepUpTo n) := by
  induction n generalizing s with
  | zero => exact State.Sweeps.refl s
  | succ n ih =>
    rw [State.sweepUpTo]
    split
    · next h st hnext => exact (s.sweeps_answerHasp (State.badStatus_of_nextBad hnext) _).trans (ih _)
    · exact State.Sweeps.refl s

theorem State.sweeps_sweepBad (s : State) : s.Sweeps s.sweepBad := s.sweeps_sweepUpTo 16

/-- With no such request there is nothing to answer. -/
theorem State.sweepBad_of_noneBad {s : State} (h : s.noneBad) : s.sweepBad = s := by
  have hnext : s.nextBad = none := by
    cases hn : s.nextBad with
    | none => rfl
    | some e =>
      have hbad := State.badStatus_of_nextBad hn
      rw [h] at hbad
      exact absurd hbad nofun
  rw [State.sweepBad, State.sweepUpTo, hnext]

/-! ### The end of a command -/

/-- The command of hasp h has ended with a status and payload bytes, and every other hasp without a failing request is as it was. -/
structure State.Completes (s t : State) (h : Nat) (st : MStatus) (bs : List Byte) : Prop where
  frame : s.SameButAnswers t
  causes : bs = [] → s.SameButCauses t
  done : t.done h st
  bytes : t.respBytes h bs
  hasp : ∀ j, s.haspQuiet h j → t.hasp j = s.hasp j
  storage : ∀ j, s.haspQuiet h j → SameHasp j s.hasps t.hasps

variable {s t u : State} {h : Nat} {st : MStatus} {bs : List Byte}

/-- A command that has ended stays so while other requests are answered. -/
theorem State.Completes.sweeps (hc : s.Completes t h st bs) (hlen : bs.length < 16) (hs : t.Sweeps u) : s.Completes u h st bs := by
  obtain ⟨hstate, hstatus, hqueue, hactive⟩ := hc.done
  have hnone : t.badStatus h = none := State.badStatus_of_state_ne (by rw [hstate]; decide)
  have hquiet : ∀ j, s.haspQuiet h j → t.badStatus j = none := fun j hj => (State.badStatus_congr (hc.hasp j hj)).trans hj.2
  refine ⟨hc.frame.trans hs.causes.sameButAnswers, fun h0 => (hc.causes h0).trans hs.causes, ⟨?_, ?_, ?_, ?_⟩, ?_, ?_, ?_⟩
  · rw [hs.hasp h hnone, hstate]
  · rw [State.respStatus, (hs.storage h hnone).data (by rw [haspAt]; omega)]
    exact hstatus
  · exact fun hmem => hqueue (hs.queue h hmem)
  · rwa [Ne, hs.active h hnone]
  · rw [State.respBytes, (hs.storage h hnone).bytes (by rw [haspAt]; omega) (by rw [haspAt]; omega)]
    exact hc.bytes
  · exact fun j hj => (hs.hasp j (hquiet j hj)).trans (hc.hasp j hj)
  · exact fun j hj => (hc.storage j hj).trans (hs.storage j (hquiet j hj))

theorem State.completes_complete (s : State) (h d : Nat) (st : MStatus) (hlen : bs.length < 16) :
    s.Completes (s.complete h st.code d bs) h st bs := by
  obtain ⟨hframe, hcauses, hstate, hhasp, hstatus, hbytes, hstorage, hqueue, hactive⟩ := s.answers_answerHasp h d st.code_lt hlen
  have hends : s.Completes (s.answerHasp h st.code d bs) h st bs := by
    refine ⟨hframe, hcauses, ⟨hstate, hstatus, ?_, ?_⟩, hbytes, fun j hj => hhasp j hj.1, fun j hj => hstorage j hj.1⟩
    · simp [hqueue]
    · rw [hactive]
      split
      · exact nofun
      · assumption
  exact hends.sweeps hlen (State.sweeps_sweepBad _)

/-- A command ends at once, unless it succeeds and its record waits (R346, R347). -/
theorem State.completes_finish (s : State) (h d : Nat) (hlen : bs.length < 16) (hnow : st = .okay → s.ctl.lintel = []) :
    s.Completes (s.finish h st d bs) h st bs := by
  have hgo : ¬(st = .okay ∧ s.recordWaits h = true) := by
    rintro ⟨rfl, hwaits⟩
    simp [State.recordWaits, hnow rfl] at hwaits
  simp only [State.finish, if_neg hgo]
  exact s.completes_complete h _ st hlen

/-- The end of a command in a state that differs in the mailbox alone, away from the storage and the waiting requests of other hasps. -/
theorem State.Completes.of_mbox {m : Mailbox} (hc : State.Completes { s with mbox := m } t h st bs)
    (hm : ∀ j, j ≠ h → ({ s with mbox := m } : State).hasp j = s.hasp j) : s.Completes t h st bs := by
  have hquiet : ∀ j, s.haspQuiet h j → ({ s with mbox := m } : State).haspQuiet h j :=
    fun j hj => ⟨hj.1, (State.badStatus_congr (hm j hj.1)).trans hj.2⟩
  exact {
    frame := (s.sameButCauses_of_mbox m).sameButAnswers.trans hc.frame
    causes := fun h0 => (s.sameButCauses_of_mbox m).trans (hc.causes h0)
    done := hc.done
    bytes := hc.bytes
    hasp := fun j hj => (hc.hasp j (hquiet j hj)).trans (hm j hj.1)
    storage := fun j hj => hc.storage j (hquiet j hj) }

/-- What leaves the storage of the other hasps leaves their words and those of the stack and of Mortar. -/
theorem sameMemoryButHasp_of_storage (hf : s.SameButAnswers t) (hs : ∀ j, s.haspQuiet h j → SameHasp j s.hasps t.hasps) :
    SameMemoryButHasp h s t := by
  intro sp w hpages hq
  by_cases hhasp : sp = .hasp
  · subst hhasp
    have hsame := hs _ (hq rfl)
    exact Prod.ext (hsame.data rfl) (hsame.2 w rfl)
  · exact hf.word hhasp hpages w

theorem State.Completes.sameMemoryButHasp (hc : s.Completes t h st bs) : SameMemoryButHasp h s t :=
  sameMemoryButHasp_of_storage hc.frame hc.storage

/-! ### Running a command -/

theorem State.hasp_begin_ne (s : State) {h j : Nat} (hj : j ≠ h) : (s.begin_ h).hasp j = s.hasp j := by
  simp only [State.begin_, State.setHasp, State.hasp, Sparse.get_set_ne _ _ _ hj]

theorem State.hasp_begin_self (s : State) (h : Nat) :
    (s.begin_ h).hasp h = { s.hasp h with state := .running, level := s.ctl.compat } := by
  simp only [State.begin_, State.setHasp, State.hasp, Sparse.get_set_self]

theorem State.haspQuiet_begin {j : Nat} (hq : s.haspQuiet h j) : (s.begin_ h).haspQuiet h j :=
  ⟨hq.1, (State.badStatus_congr (s.hasp_begin_ne hq.1)).trans hq.2⟩

theorem State.runCommand_turn {op : Nat} (hturn : s.turn h op) (body : State → State) :
    s.runCommand h op body = ((body (s.begin_ h)).hidePart h (s.begin_ h)).sweepBad := by
  obtain ⟨-, hready, hpre⟩ := hturn
  simp only [State.runCommand, hready, hpre, if_true]

/-- A command that ends with its own part hides nothing, and other requests may be answered after it. -/
theorem State.completes_runCommand {op : Nat} (hturn : s.turn h op) {body : State → State} (hlen : bs.length < 16)
    (hc : u.Completes (body (s.begin_ h)) h st bs) : u.Completes (s.runCommand h op body) h st bs := by
  obtain ⟨-, -, -, hactive⟩ := hc.done
  rw [State.runCommand_turn hturn, State.hidePart, if_neg hactive]
  exact hc.sweeps hlen (State.sweeps_sweepBad _)

/-- The same, seen from the state before it. -/
theorem State.Completes.of_begin (hc : (s.begin_ h).Completes t h st bs) : s.Completes t h st bs :=
  State.Completes.of_mbox (m := (s.begin_ h).mbox) hc fun _ hj => s.hasp_begin_ne hj

end Sys2Proof.Machine
end

section
/-!
SUPPORT. The Lintel record: what writing a copy changes, and a record that is written at once in both copies (R345 to R347).
-/

namespace Sys2Proof.Machine

/-! ### Words of the stack -/

/-- A write of a word of the stack leaves every other one. -/
theorem State.word_stkSet_ne (s : State) {w i : Nat} (d : BondData) (x : BitVec 16) (h : i ≠ w) :
    (s.stkSet w d x).word .stack i = s.word .stack i := by
  unfold State.stkSet
  split
  all_goals
    simp only [State.word, State.stkData, State.stkSyn, Store.data_setWord_ne _ _ _ _ h, Store.syn_setWord, if_neg h]

theorem State.stkSet_frame (s : State) (w : Nat) (d : BondData) (x : BitVec 16) :
    s.stkSet w d x = { s with stack := (s.stkSet w d x).stack } := by
  unfold State.stkSet
  split <;> rfl

/-! ### A copy of the record -/

/-- Accesses of the line of a Lintel copy: its bank and channel, its words, and what a failed write counts (R345, R347). -/
structure State.PutsCopy (copy : Bool) (s t : State) : Prop where
  frame : t = { s with stack := t.stack, banks := t.banks, chans := t.chans,
                       regs := { s.regs with irqStatus := t.regs.irqStatus, lintelFail := t.regs.lintelFail } }
  bank : ∀ k, k ≠ lintelBank copy → t.bank k = s.bank k
  chan : ∀ c, c ≠ lintelBank copy / 16 → t.chan c = s.chan c
  line : ∀ c, t.lintelLine c = s.lintelLine c
  word : ∀ w, (∀ p ∈ s.lintelLine copy, p.word ≠ w) → t.word .stack w = s.word .stack w

variable {copy : Bool} {s t u : State}

theorem State.PutsCopy.refl (copy : Bool) (s : State) : s.PutsCopy copy s where
  frame := rfl
  bank _ _ := rfl
  chan _ _ := rfl
  line _ := rfl
  word _ _ := rfl

theorem State.PutsCopy.trans (h : State.PutsCopy copy s t) (h' : State.PutsCopy copy t u) : State.PutsCopy copy s u where
  frame := by
    rw [h'.frame, h.frame]
  bank k hk := (h'.bank k hk).trans (h.bank k hk)
  chan c hc := (h'.chan c hc).trans (h.chan c hc)
  line c := (h'.line c).trans (h.line c)
  word w hw := (h'.word w (by rwa [h.line])).trans (h.word w hw)

/-- Where a copy's line stands depends on the repairs of its bank alone. -/
theorem State.lintelLine_congr {c : Bool} (h : ∀ row, (t.bank (lintelBank c)).physRow row = (s.bank (lintelBank c)).physRow row) :
    t.lintelLine c = s.lintelLine c := by
  simp only [State.lintelLine, State.rowPlace, State.stackWordNo, h]

theorem State.putsCopy_setBank (s : State) {x : Bank} (h : ∀ row, x.physRow row = (s.bank (lintelBank copy)).physRow row) :
    s.PutsCopy copy (s.setBank (lintelBank copy) x) where
  frame := rfl
  bank k hk := by rw [State.bank_setBank, if_neg hk]
  chan _ _ := rfl
  line c := by
    apply State.lintelLine_congr
    intro row
    rw [State.bank_setBank]
    split
    · next hc => rw [h, hc]
    · rfl
  word _ _ := rfl

theorem State.putsCopy_setChan (s : State) (x : Channel) : s.PutsCopy copy (s.setChan (lintelBank copy / 16) x) where
  frame := rfl
  bank _ _ := rfl
  chan c hc := by rw [State.chan_setChan, if_neg hc]
  line _ := rfl
  word _ _ := rfl

theorem State.putsCopy_sent (s : State) (op bank arg : Nat) : s.PutsCopy copy (s.sent (lintelBank copy / 16) op bank arg) :=
  s.putsCopy_setChan _

theorem State.putsCopy_occupy (s : State) (n : Nat) : s.PutsCopy copy (s.occupy (lintelBank copy) n) := s.putsCopy_setBank fun _ => rfl

theorem State.putsCopy_sendColumns (s : State) (cs : List Column) :
    s.PutsCopy copy (cs.foldl (fun s c => s.sendColumn (lintelBank copy) c) s) := by
  induction cs generalizing s with
  | nil => exact State.PutsCopy.refl copy s
  | cons c r ih => exact (s.putsCopy_sent _ _ _).trans (ih _)

theorem State.putsCopy_rowAccess (s : State) (row : Nat) (cs : List Column) : s.PutsCopy copy (s.rowAccess (lintelBank copy) row cs) :=
  (((s.putsCopy_sent _ _ _).trans (State.putsCopy_sendColumns _ cs)).trans (State.putsCopy_sent _ _ _ _)).trans (State.putsCopy_occupy _ _)

theorem State.putsCopy_refpb (s : State) : s.PutsCopy copy (s.refpb (lintelBank copy)) := by
  refine State.PutsCopy.trans (State.PutsCopy.trans (State.putsCopy_setBank _ ?_) (State.putsCopy_occupy _ _)) (State.putsCopy_sent _ _ _ _)
  exact fun _ => rfl

theorem State.putsCopy_fullRefresh (s : State) : s.PutsCopy copy (s.fullRefresh (lintelBank copy)) := by
  unfold State.fullRefresh
  split
  · exact s.putsCopy_refpb
  · exact State.PutsCopy.refl copy s

/-- Writes of words of the copy's line. -/
theorem State.putsCopy_writePlaces (l : List (Place × BondData × Bool)) (s : State) (h : ∀ e ∈ l, e.1 ∈ s.lintelLine copy) :
    s.PutsCopy copy (s.writePlaces l) := by
  induction l generalizing s with
  | nil => exact State.PutsCopy.refl copy s
  | cons e r ih =>
    obtain ⟨p, d, b⟩ := e
    have hp : p ∈ s.lintelLine copy := h _ List.mem_cons_self
    have hspace : p.space = .stack := by
      obtain ⟨i, -, rfl⟩ := List.mem_map.1 hp
      rfl
    have hset : s.placeWrite p d b = s.stkSet p.word d (if b then poisonMask else 0) := by
      rw [State.placeWrite, State.placeSet, hspace]
    have hfirst : s.PutsCopy copy (s.placeWrite p d b) := by
      rw [hset]
      have hframe := s.stkSet_frame p.word d (if b then poisonMask else 0)
      have hword := fun w (hw : w ≠ p.word) => s.word_stkSet_ne d (if b then poisonMask else 0) hw
      generalize s.stkSet p.word d (if b then poisonMask else 0) = t at *
      obtain ⟨m, rfl⟩ : ∃ m, t = { s with stack := m } := ⟨_, hframe⟩
      exact ⟨rfl, fun _ _ => rfl, fun _ _ => rfl, fun _ => rfl, fun w hw => hword w (hw p hp).symm⟩
    refine hfirst.trans (ih _ fun e he => ?_)
    rw [hfirst.line]
    exact h e (List.mem_cons_of_mem _ he)

theorem State.putsCopy_putLine (s : State) (bs : List Byte) : s.PutsCopy copy (s.putLine (s.lintelLine copy) bs) := by
  apply State.putsCopy_writePlaces
  intro e he
  obtain ⟨⟨i, p⟩, hip, rfl⟩ := List.mem_map.1 he
  exact (List.of_mem_zip hip).2

theorem State.putsCopy_lintelPutBytes (n : Nat) (s : State) (bs : List Byte) : s.PutsCopy copy (s.lintelPutBytes copy bs n) := by
  induction n generalizing s with
  | zero => exact ⟨rfl, fun _ _ => rfl, fun _ _ => rfl, fun _ => rfl, fun _ _ => rfl⟩
  | succ n ih =>
    have hwrite := s.putsCopy_rowAccess (copy := copy) 9208 [lintelColumn true]
    have hline := State.putsCopy_putLine (copy := copy) (s.rowAccess (lintelBank copy) 9208 [lintelColumn true]) bs
    rw [hwrite.line] at hline
    have hread := (hwrite.trans hline).trans (State.putsCopy_rowAccess _ 9208 [lintelColumn false])
    simp only [State.lintelPutBytes]
    split
    · exact hread
    · exact hread.trans (ih _)

theorem State.putsCopy_lintelIssue (s : State) (bs : List Byte) : s.PutsCopy copy (s.lintelIssue copy bs) :=
  s.putsCopy_fullRefresh.trans (State.putsCopy_lintelPutBytes 4 _ bs)

/-- Whether a copy's bank takes the line depends on its bank, its channel, the mode and the clocks. -/
theorem State.lintelOpen_congr {c : Bool} (hbank : t.bank (lintelBank c) = s.bank (lintelBank c))
    (hchan : t.chan (lintelBank c / 16) = s.chan (lintelBank c / 16)) (hstart : t.start = s.start)
    (hstopped : t.regs.stopped = s.regs.stopped) : t.lintelOpen none c = s.lintelOpen none c := by
  simp only [State.lintelOpen, State.serving, State.runs, State.mayRefresh, State.chanLive, State.fuseHeld, hbank, hchan, hstart, hstopped]

/-- The other copy's bank takes its line as before. -/
theorem State.PutsCopy.lintelOpen (h : State.PutsCopy false s t) : t.lintelOpen none true = s.lintelOpen none true :=
  State.lintelOpen_congr (h.bank _ (by decide)) (h.chan _ (by decide)) (by rw [h.frame]) (by rw [h.frame])

/-! ### A record -/

theorem State.lintelPut_now {s : State} {c : Bool} (hlines : s.ctl.lintel = []) (hopen : s.lintelOpen none c = true) (epoch : Nat) :
    s.lintelPut c epoch = s.lintelIssue c (s.lintelBytes epoch) := by
  simp [State.lintelPut, hlines, hopen]

/-- Both copies written at once: t holds the steps, the mailbox and the words outside the copies as they were. -/
structure State.WritesCopies (s t : State) : Prop where
  ctl : t.ctl = s.ctl
  mbox : t.mbox = s.mbox
  mortar : t.mortar = s.mortar
  hasps : t.hasps = s.hasps
  word : ∀ w, (∀ c, ∀ p ∈ s.lintelLine c, p.word ≠ w) → t.word .stack w = s.word .stack w

theorem State.writesCopies_lintelPut (hlines : s.ctl.lintel = []) (hopen0 : s.lintelOpen none false = true)
    (hopen1 : s.lintelOpen none true = true) (epoch : Nat) : s.WritesCopies ((s.lintelPut false epoch).lintelPut true epoch) := by
  rw [State.lintelPut_now hlines hopen0]
  have h0 := s.putsCopy_lintelIssue (copy := false) (s.lintelBytes epoch)
  generalize s.lintelIssue false (s.lintelBytes epoch) = t at h0
  have hctl : t.ctl = s.ctl := by rw [h0.frame]
  rw [State.lintelPut_now (by rw [hctl, hlines]) (by rw [h0.lintelOpen, hopen1])]
  have h1 := t.putsCopy_lintelIssue (copy := true) (t.lintelBytes epoch)
  generalize t.lintelIssue true (t.lintelBytes epoch) = u at h1
  refine ⟨?_, ?_, ?_, ?_, fun w hw => (h1.word w ?_).trans (h0.word w (hw false))⟩
  · rw [h1.frame, hctl]
  · rw [h1.frame, h0.frame]
  · rw [h1.frame, h0.frame]
  · rw [h1.frame, h0.frame]
  · rw [h0.line]
    exact hw true

/-- A new record in a state that is ready for it (R346). -/
theorem State.writesCopies_lintelWrite (hready : s.recordReady) : s.lintelSeq.WritesCopies s.lintelWrite := by
  obtain ⟨-, hlines, hopen0, hopen1⟩ := hready
  exact State.writesCopies_lintelPut (s := s.lintelSeq) hlines hopen0 hopen1 _

end Sys2Proof.Machine
end

section
/-!
PROOF. Seeds (O47): SET_SEED, DRAW_SEED and the end of its sequence (R255 to R261).
-/

namespace Sys2Proof.Machine

variable {s t u : State} {h : Nat}

/-! ### What refuses a seed -/

/-- The two refusals of R256, in their order. -/
theorem State.seedBusy_eq_some {st : MStatus}
    (hst : s.holdsStep = true ∧ st = .stepBusy ∨ s.holdsStep = false ∧ s.ringBusy = true ∧ st = .ringBusy) :
    s.seedBusy = some st ∧ st ≠ .okay := by
  obtain ⟨hstep, rfl⟩ | ⟨hstep, hring, rfl⟩ := hst
  · simp [State.seedBusy, hstep]
  · simp [State.seedBusy, hstep, hring]

theorem State.seedBusy_eq_none (hstep : s.holdsStep = false) (hring : s.ringBusy = false) : s.seedBusy = none := by
  simp [State.seedBusy, hstep, hring]

theorem State.seedBusy_begin (s : State) (h : Nat) : (s.begin_ h).seedBusy = s.seedBusy := rfl

/-- Nothing but a hasp, the mailbox and the interrupt causes, in the words of the statement. -/
theorem State.SameButCauses.eq (hc : s.SameButCauses t) :
    t = { s with hasps := t.hasps, mbox := t.mbox, regs := { s.regs with irqStatus := t.regs.irqStatus } } := by
  obtain ⟨x, hx⟩ := hc
  rw [hx]

/-! ### A new seed and its record -/

/-- The state with a new seed and the number of its record (R255, R346). -/
def State.seeded (s : State) (seed : BitVec 64) (src : BitVec 8) : State :=
  { s with ctl := { s.ctl with seed := seed, seedSrc := src, seq := s.ctl.seq + 1 } }

theorem State.WritesCopies.lintel_of_seeded {seed : BitVec 64} {src : BitVec 8} (hp : (s.seeded seed src).WritesCopies t) :
    t.ctl.lintel = s.ctl.lintel := by
  rw [hp.ctl]
  rfl

/-- Where a record can be written now, a new seed is in force at once, with its record in both copies. -/
theorem State.writesCopies_putSeed (hready : s.recordReady) (seed : BitVec 64) (src : BitVec 8) :
    (s.seeded seed src).WritesCopies (s.putSeed seed src) := by
  have ⟨_, hlines, _⟩ := hready
  have hready' : ({ s with ctl := { s.ctl with seed := seed, seedSrc := src } } : State).recordReady := hready
  have hcopies : (s.seeded seed src).WritesCopies _ := State.writesCopies_lintelWrite hready'
  have hempty : ({ s with ctl := { s.ctl with seed := seed, seedSrc := src } } : State).lintelWrite.ctl.lintel.isEmpty = true := by
    rw [hcopies.ctl]
    exact List.isEmpty_iff.2 hlines
  have hput : s.putSeed seed src = ({ s with ctl := { s.ctl with seed := seed, seedSrc := src } } : State).lintelWrite := if_pos hempty
  rw [hput]
  exact hcopies

/-- A command that has put a seed and ended with success has stored its response and the record alone. -/
theorem State.WritesCopies.sameMemoryButRecord {seed : BitVec 64} {src : BitVec 8} {bs : List Byte}
    (hp : (s.seeded seed src).WritesCopies t) (hc : t.Completes u h .okay bs) : SameMemoryButRecord h s u := by
  intro sp w hpages hq hw
  have hsame := hc.sameMemoryButHasp sp w hpages fun hsp => by
    obtain ⟨hne, hbad⟩ := hq hsp
    have hhasp : t.hasp (w / 256) = s.hasp (w / 256) := by
      rw [State.hasp, hp.mbox]
      rfl
    exact ⟨hne, (State.badStatus_congr hhasp).trans hbad⟩
  rw [hsame]
  cases sp with
  | stack => exact hp.word w (hw rfl)
  | mortar => simp only [State.word, hp.mortar, State.seeded]
  | hasp => simp only [State.word, hp.hasps, State.seeded]
  | pages => exact absurd rfl hpages

/-- The beginning of a command changes no word, nor where the records lie. -/
theorem sameMemoryButRecord_of_begin (hm : SameMemoryButRecord h (s.begin_ h) t) : SameMemoryButRecord h s t :=
  fun sp w hpages hq hw => hm sp w hpages (fun hsp => State.haspQuiet_begin (hq hsp)) hw

/-! ### SET_SEED -/

theorem exec_setSeed (hturn : s.turn h 0x06) : exec (.setSeed h) s = .next (s.runCommand h 0x06 (fun s => s.setSeed h)) :=
  guard_eq_next.2 ⟨decide_eq_true hturn.1, rfl⟩

/-- A refused SET_SEED ends with the status of its refusal. -/
theorem State.completes_setSeed_busy {st : MStatus} (hturn : s.turn h 0x06) (hbusy : s.seedBusy = some st) (hst : st ≠ .okay) :
    s.Completes (s.runCommand h 0x06 (fun s => s.setSeed h)) h st [] := by
  apply State.completes_runCommand hturn (by decide)
  simp only [State.setSeed, State.seedBusy_begin, hbusy]
  exact State.Completes.of_begin (State.completes_finish _ h 0 (by decide) fun h0 => absurd h0 hst)

/-- Otherwise it puts the seed of its payload, and ends with success. -/
theorem State.completes_setSeed (hturn : s.turn h 0x06) (hfree : s.seedBusy = none) (hready : s.recordReady) :
    ∃ u, ((s.begin_ h).seeded (BitVec.ofNat 64 ((s.hasp h).pay 0 8)) 1).WritesCopies u ∧
      u.Completes (s.runCommand h 0x06 (fun s => s.setSeed h)) h .okay [] := by
  have hpay : ((s.begin_ h).hasp h).pay 0 8 = (s.hasp h).pay 0 8 := by rw [State.hasp_begin_self]; rfl
  have hready' : (s.begin_ h).recordReady := hready
  have hput := State.writesCopies_putSeed hready' (BitVec.ofNat 64 ((s.hasp h).pay 0 8)) 1
  refine ⟨_, hput, State.completes_runCommand hturn (by decide) ?_⟩
  simp only [State.setSeed, State.seedBusy_begin, hfree, hpay]
  exact State.completes_finish _ h 0 (by decide) fun _ => hput.lintel_of_seeded.trans hready'.2.1

/-! ### DRAW_SEED -/

/-- DRAW_SEED after the checks of R497 (R256, R259). -/
def State.drawSeed (s : State) (h : Nat) : State :=
  match s.seedBusy with
  | some st => s.finish h st 0 []
  | none => s.holdSerial h

theorem exec_drawSeed (hturn : s.turn h 0x07) : exec (.drawSeed h) s = .next (s.runCommand h 0x07 (fun s => s.drawSeed h)) :=
  guard_eq_next.2 ⟨decide_eq_true hturn.1, rfl⟩

/-- A refused DRAW_SEED ends with the status of its refusal. -/
theorem State.completes_drawSeed_busy {st : MStatus} (hturn : s.turn h 0x07) (hbusy : s.seedBusy = some st) (hst : st ≠ .okay) :
    s.Completes (s.runCommand h 0x07 (fun s => s.drawSeed h)) h st [] := by
  apply State.completes_runCommand hturn (by decide)
  simp only [State.drawSeed, State.seedBusy_begin, hbusy]
  exact State.Completes.of_begin (State.completes_finish _ h 0 (by decide) fun h0 => absurd h0 hst)

/-- The state once a DRAW_SEED has begun its sequence: it keeps the mailbox, and queries show things as they stood (R259, R499). -/
def State.drawBegun (s : State) (h : Nat) : State :=
  { s with mbox := { (s.begin_ h).mbox with active := some h, before := some (s.begin_ h).shownNow } }

theorem State.hasp_drawBegun_self (s : State) (h : Nat) :
    (s.drawBegun h).hasp h = { s.hasp h with state := .running, level := s.ctl.compat } := s.hasp_begin_self h

theorem State.hasp_drawBegun_ne (s : State) {h j : Nat} (hj : j ≠ h) : (s.drawBegun h).hasp j = s.hasp j := s.hasp_begin_ne hj

theorem State.opcode_of_turn {op : Nat} (hturn : s.turn h op) : (s.hasp h).opcode = op := by
  obtain ⟨-, hready, -⟩ := hturn
  simp only [State.ready, Bool.and_eq_true, beq_iff_eq] at hready
  exact hready.1.1.2

/-- A DRAW_SEED that holds the mailbox hides what it is about to change (R499). -/
theorem State.hidePart_holdSerial (hop : (s.hasp h).opcode = 0x07) :
    ((s.begin_ h).holdSerial h).hidePart h (s.begin_ h) = s.drawBegun h := by
  have hactive : ((s.begin_ h).holdSerial h).mbox.active = some h := rfl
  have hsame : (((s.begin_ h).holdSerial h).hasp h).opcode = 0x07 := by
    have hhasp : ((s.begin_ h).holdSerial h).hasp h = (s.begin_ h).hasp h := rfl
    rw [hhasp, State.hasp_begin_self]
    exact hop
  rw [State.hidePart, if_pos hactive, if_neg (by rw [hsame]; decide)]
  simp only [State.drawBegun, State.holdSerial, State.begin_, State.setHasp]

/-- A DRAW_SEED that nothing refuses begins its sequence. -/
theorem State.runCommand_drawSeed (hturn : s.turn h 0x07) (hfree : s.seedBusy = none) :
    s.runCommand h 0x07 (fun s => s.drawSeed h) = (s.drawBegun h).sweepBad := by
  rw [State.runCommand_turn hturn]
  simp only [State.drawSeed, State.seedBusy_begin, hfree, State.hidePart_holdSerial (State.opcode_of_turn hturn)]

theorem State.haspQuiet_drawBegun {j : Nat} (hq : s.haspQuiet h j) : (s.drawBegun h).haspQuiet h j := State.haspQuiet_begin hq

theorem State.badStatus_drawBegun_self (s : State) (h : Nat) : (s.drawBegun h).badStatus h = none :=
  State.badStatus_of_state_ne (by simp [State.hasp_drawBegun_self])

/-- The answers to other requests leave the draw as it began. -/
theorem State.hasp_sweepBad_drawBegun (s : State) (h : Nat) :
    (s.drawBegun h).sweepBad.hasp h = { s.hasp h with state := .running, level := s.ctl.compat } := by
  rw [(s.drawBegun h).sweeps_sweepBad.hasp h (s.badStatus_drawBegun_self h), State.hasp_drawBegun_self]

theorem State.active_sweepBad_drawBegun (s : State) (h : Nat) : (s.drawBegun h).sweepBad.mbox.active = some h :=
  ((s.drawBegun h).sweeps_sweepBad.active h (s.badStatus_drawBegun_self h)).2 rfl

theorem State.sameMemoryButHasp_sweepBad_drawBegun (s : State) (h : Nat) : SameMemoryButHasp h s (s.drawBegun h).sweepBad := by
  have hs := (s.drawBegun h).sweeps_sweepBad
  exact sameMemoryButHasp_of_storage ((s.sameButCauses_of_mbox _).trans hs.causes).sameButAnswers fun j hq =>
    hs.storage j (State.haspQuiet_drawBegun hq).2

/-- With no failing request the beginning changes the mailbox alone, and in it no other hasp. -/
theorem State.sweepBad_drawBegun_of_noneBad (hnone : s.noneBad) :
    (∀ j, j ≠ h → (s.drawBegun h).sweepBad.hasp j = s.hasp j) ∧
      (s.drawBegun h).sweepBad = { s with mbox := (s.drawBegun h).sweepBad.mbox } := by
  have hquiet : (s.drawBegun h).noneBad := by
    intro j
    by_cases hj : j = h
    · rw [hj, State.badStatus_drawBegun_self]
    · exact (State.haspQuiet_drawBegun ⟨hj, hnone j⟩).2
  rw [State.sweepBad_of_noneBad hquiet]
  exact ⟨fun j hj => s.hasp_drawBegun_ne hj, rfl⟩

theorem State.drawing_of_active (hactive : s.mbox.active = some h) (hstate : (s.hasp h).state = .running) (hop : (s.hasp h).opcode = 7) :
    s.drawing = true := by
  simp [State.drawing, hactive, hstate, hop]

/-! ### The end of the sequence -/

/-- The bytes of the digest that a sequence of raw bits gives for the seed (R259, R260). -/
def drawnBytes (bits : List Bool) : List Byte := (sha384 (entropySequence bits).2).take 8

theorem drawnBytes_length_lt (bits : List Bool) : (drawnBytes bits).length < 16 := lt_of_le_of_lt (List.length_take_le 8 _) (by decide)

/-- The end of a sequence, once a challenge draw that waited has the source (R259 to R261); `State.drawEnd_eq` ties it to
`State.drawEnd`. -/
def State.drawEnded (s : State) (h : Nat) (bits : List Bool) : State :=
  let e := entropySequence bits
  if e.1.rct || e.1.apt then
    let s := s.trngFail e.1
    ({ s with regs := { s.regs with trngFails := satAdd s.regs.trngFails 1 } } : State).finish h .entropyFail 0 []
  else if s.ringBusy then s.finish h .ringBusy 0 []
  else (s.putSeed (BitVec.ofNat 64 (leNat (drawnBytes bits))) 2).finish h .okay 0 (drawnBytes bits)

theorem State.drawEnd_eq (s : State) (h : Nat) (bits : List Bool) : ∃ d, s.drawEnd h bits = ({ s with dbg := d } : State).drawEnded h bits := by
  unfold State.drawEnd
  extract_lets +onlyGivenNames e b t
  have ht : ∃ d, t = { s with dbg := d } := by
    simp only [t]
    split
    · exact ⟨_, rfl⟩
    · exact ⟨s.dbg, rfl⟩
  obtain ⟨d, hd⟩ := ht
  clear_value t
  subst hd
  exact ⟨d, rfl⟩

/-- A draw that CCLK and Warden let end (R259, R448). -/
theorem exec_entropyDrawDone (bits : List Bool) (hactive : s.mbox.active = some h) (hsampling : s.sampling = true) (hserving : s.serving = true)
    (hruns : s.runs 2 = true) (hhalted : s.dbg.halted = false) (hdraws : s.debugDraws = false) (hesr : s.plumb.esr = false) :
    ∃ d, exec (.entropyDrawDone bits) s = .next (({ s with dbg := d } : State).drawEnded h bits) := by
  obtain ⟨d, hd⟩ := s.drawEnd_eq h bits
  refine ⟨d, ?_⟩
  rw [← hd]
  show execEntropyDrawDone bits s = _
  simp [execEntropyDrawDone, hactive, hsampling, hserving, hruns, hhalted, hdraws, hesr]

/-- A sequence that passes its tests, and meets a ring that has taken descriptors, is refused (R256). -/
theorem State.completes_drawEnded_ringBusy (s : State) (h : Nat) {bits : List Bool}
    (hpass : ((entropySequence bits).1.rct || (entropySequence bits).1.apt) = false) (hring : s.ringBusy = true) :
    s.Completes (s.drawEnded h bits) h .ringBusy [] := by
  simp only [State.drawEnded, hpass, hring, if_true, Bool.false_eq_true, if_false]
  exact s.completes_finish h 0 (by decide) nofun

/-- A sequence that passes its tests puts the first eight bytes of the digest, and answers with them (R259, R260). -/
theorem State.completes_drawEnded (h : Nat) {bits : List Bool}
    (hpass : ((entropySequence bits).1.rct || (entropySequence bits).1.apt) = false) (hring : s.ringBusy = false) (hready : s.recordReady) :
    ∃ u, (s.seeded (BitVec.ofNat 64 (leNat (drawnBytes bits))) 2).WritesCopies u ∧
      u.Completes (s.drawEnded h bits) h .okay (drawnBytes bits) := by
  have hput := State.writesCopies_putSeed hready (BitVec.ofNat 64 (leNat (drawnBytes bits))) 2
  refine ⟨_, hput, ?_⟩
  simp only [State.drawEnded, hpass, hring, Bool.false_eq_true, if_false]
  exact State.completes_finish _ h 0 (drawnBytes_length_lt bits) fun _ => hput.lintel_of_seeded.trans hready.2.1

/-- A failed test is counted and raises TRNG_FAIL (R261). -/
def State.trngCounted (s : State) (f : Health) : State :=
  { s.trngFail f with regs := { (s.trngFail f).regs with trngFails := satAdd s.regs.trngFails 1 } }

theorem State.irqStatus_trngCounted (s : State) (f : Health) : (s.trngCounted f).regs.irqStatus.getLsbD 9 = true := by
  have hcause : (s.trngCounted f).regs.irqStatus = s.regs.irqStatus ||| BitVec.ofNat 20 (2 ^ Irq.trngFail.bit) := rfl
  have hbit : (BitVec.ofNat 20 (2 ^ Irq.trngFail.bit)).getLsbD 9 = true := by decide
  rw [hcause, BitVec.getLsbD_or, hbit, Bool.or_true]

/-- A sequence that fails its tests is refused, once that is counted (R261). -/
theorem State.completes_drawEnded_fail (s : State) (h : Nat) {bits : List Bool}
    (hfail : ((entropySequence bits).1.rct || (entropySequence bits).1.apt) = true) :
    (s.trngCounted (entropySequence bits).1).Completes (s.drawEnded h bits) h .entropyFail [] := by
  simp only [State.drawEnded, hfail, if_true]
  exact State.completes_finish (s.trngCounted (entropySequence bits).1) h 0 (by decide) nofun

end Sys2Proof.Machine

open Sys2Proof Sys2Proof.Machine

/-- Settles O47: SET_SEED, DRAW_SEED and the end of its sequence each complete in a mailbox whose other requests may be answered after
it, and a seed is put together with its record. -/
theorem seedsAreSetOrDrawn : Obligations.SeedsAreSetOrDrawn := by
  unfold Obligations.SeedsAreSetOrDrawn
  refine ⟨fun s h => ⟨?busy, fun hstep hring => ⟨?set, ?draw⟩⟩, ?ends⟩
  case busy =>
    intro st hst
    obtain ⟨hbusy, hne⟩ := State.seedBusy_eq_some hst
    constructor
    · intro hturn
      have hc := State.completes_setSeed_busy hturn hbusy hne
      exact ⟨_, exec_setSeed hturn, hc.done, hc.sameMemoryButHasp, (hc.causes rfl).eq⟩
    · intro hturn
      have hc := State.completes_drawSeed_busy hturn hbusy hne
      exact ⟨_, exec_drawSeed hturn, hc.done, hc.sameMemoryButHasp, (hc.causes rfl).eq⟩
  case set =>
    intro hturn hready
    obtain ⟨u, hput, hc⟩ := State.completes_setSeed hturn (State.seedBusy_eq_none hstep hring) hready
    refine ⟨_, exec_setSeed hturn, hc.done, ?_⟩
    have hctl := hc.frame.ctl.trans hput.ctl
    refine ⟨?_, ?_, ?_, sameMemoryButRecord_of_begin (hput.sameMemoryButRecord hc)⟩
    all_goals simp only [hctl, State.seeded, State.begin_, State.setHasp]
  case draw =>
    intro hturn
    have hsweeps := (s.drawBegun h).sweeps_sweepBad
    have hself := State.hasp_sweepBad_drawBegun s h
    have hactive := State.active_sweepBad_drawBegun s h
    have hstate : ((s.drawBegun h).sweepBad.hasp h).state = .running := by rw [hself]
    have hopcode : ((s.drawBegun h).sweepBad.hasp h).opcode = 7 := by
      rw [hself]
      exact State.opcode_of_turn hturn
    rw [exec_drawSeed hturn, State.runCommand_drawSeed hturn (State.seedBusy_eq_none hstep hring)]
    exact ⟨_, rfl, hstate, hactive,
      State.drawing_of_active hactive hstate hopcode, hsweeps.causes.sameButAnswers.ctl, State.sameMemoryButHasp_sweepBad_drawBegun s h,
      State.sweepBad_drawBegun_of_noneBad⟩
  case ends =>
    intro s h bits hactive hh hsampling hserving hruns hhalted hdraws hesr e
    obtain ⟨d, hexec⟩ := exec_entropyDrawDone bits hactive hsampling hserving hruns hhalted hdraws hesr
    refine ⟨fun hpass hring => ?_, fun hpass hring hready => ?_, fun hfail => ?_⟩
    · have hc := State.completes_drawEnded_ringBusy { s with dbg := d } h hpass hring
      exact ⟨_, hexec, hc.done, hc.frame.ctl, hc.sameMemoryButHasp⟩
    · obtain ⟨u, hput, hc⟩ := State.completes_drawEnded (s := { s with dbg := d }) h hpass hring hready
      have hctl := hc.frame.ctl.trans hput.ctl
      refine ⟨_, hexec, hc.done, ?_, ?_, hc.bytes, ?_, hput.sameMemoryButRecord hc⟩
      all_goals simp only [hctl, State.seeded, drawnBytes, e]
    · have hc := State.completes_drawEnded_fail { s with dbg := d } h hfail
      obtain ⟨x, hx⟩ := hc.causes rfl
      have hregs := congrArg State.regs hx
      refine ⟨_, hexec, hc.done, hc.frame.ctl, ?_, ?_, ?_, ?_, hc.sameMemoryButHasp⟩
      case refine_4 =>
        rw [hregs]
        exact (BitVec.getLsbD_or ..).trans (by rw [State.irqStatus_trngCounted, Bool.true_or])
      all_goals
        rw [hregs]
        rfl

end

section
/-!
SUPPORT. LOCK under the operations that all commands share (R525): none of them writes it.  Their lemmas say so one by one, in the order
of the model, as an equation that `simp` carries on to the operations that use them.  Where a proof says `-implicitDefEqProofs`, generalizes
a callee or forgets the value of a state that `let` names, the kernel would otherwise compare two long runs of the model by evaluation.
-/

namespace Sys2Proof.Machine

/-! ### Conditions and turns -/

@[simp] theorem State.ite_lock (c : Prop) [Decidable c] (s t : State) :
    (if c then s else t).regs.lock = if c then s.regs.lock else t.regs.lock := by split <;> rfl

@[simp] theorem fst_ite {α β : Type} (c : Prop) [Decidable c] (x y : α × β) : (if c then x else y).1 = if c then x.1 else y.1 :=
  apply_ite ..

@[simp] theorem snd_ite {α β : Type} (c : Prop) [Decidable c] (x y : α × β) : (if c then x else y).2 = if c then x.2 else y.2 :=
  apply_ite ..

/-- The operation leaves LOCK alone.  It is a definition so that a hypothesis about each turn of a fold, or about an event or a command's
own part, is one proposition. -/
def KeepsLock (f : State → State) : Prop := ∀ s, (f s).regs.lock = s.regs.lock

@[simp] theorem keepsLock_iff (f : State → State) : KeepsLock f ↔ ∀ s, (f s).regs.lock = s.regs.lock := ⟨id, id⟩

@[simp] theorem foldl_lock {α : Type} {f : State → α → State} (h : ∀ a, KeepsLock (f · a)) (s : State) (l : List α) :
    (l.foldl f s).regs.lock = s.regs.lock := by
  induction l generalizing s with
  | nil => rfl
  | cons a l ih => rw [List.foldl_cons, ih, h a s]

/-! ### Writers, Bond words, frames and the Keystone engine (R45, R100 to R103, R174 to R189, R203) -/


@[simp] theorem State.stkSet_lock (s : State) (w d syn) : (s.stkSet w d syn).regs.lock = s.regs.lock := by simp [State.stkSet]

@[simp] theorem State.irq_lock (s : State) (i) : (s.irq i).regs.lock = s.regs.lock := by simp [State.irq]
@[simp] theorem State.pushLog_lock (s : State) (src outcome syn agent where_) :
    (s.pushLog src outcome syn agent where_).regs.lock = s.regs.lock := by simp [State.pushLog]
@[simp] theorem State.overrun_lock (s : State) (d) : (s.overrun d).regs.lock = s.regs.lock := by simp [State.overrun]

@[simp] theorem State.cross_lock (s : State) (c) {event : State → State} (h : KeepsLock event) :
    (s.cross c event).regs.lock = s.regs.lock := by
  rw [keepsLock_iff] at h
  unfold State.cross
  split
  · exact h s
  · dsimp only
    split
    · exact h _
    · simp

@[simp] theorem State.crossIrq_lock (s : State) (c i) : (s.crossIrq c i).regs.lock = s.regs.lock := by simp [State.crossIrq]
@[simp] theorem State.countCe_lock (s : State) : (s.countCe).regs.lock = s.regs.lock := by simp [State.countCe]

@[simp] theorem State.siteIrq_lock (s : State) (site i) : (s.siteIrq site i).regs.lock = s.regs.lock := by
  unfold State.siteIrq
  split <;> simp

@[simp] theorem State.siteCe_lock (s : State) (a) : (s.siteCe a).regs.lock = s.regs.lock := by
  unfold State.siteCe
  split <;> simp

@[simp] theorem State.siteUe_lock (s : State) (a) : (s.siteUe a).regs.lock = s.regs.lock := by
  unfold State.siteUe
  split <;> simp

@[simp] theorem State.sitePoison_lock (s : State) (a) : (s.sitePoison a).regs.lock = s.regs.lock := by
  unfold State.sitePoison
  split <;> simp

@[simp] theorem State.account_lock (s : State) (site w where_ o syn) :
    (s.account site w where_ o syn).regs.lock = s.regs.lock := by
  unfold State.account
  split <;> simp

@[simp] theorem State.statePoison_lock (s : State) (site w where_) : (s.statePoison site w where_).regs.lock = s.regs.lock := by
  unfold State.statePoison
  split <;> simp

@[simp] theorem State.placeSet_lock (s : State) (p d syn) : (s.placeSet p d syn).regs.lock = s.regs.lock := by
  unfold State.placeSet
  split <;> simp

@[simp] theorem State.placeWrite_lock (s : State) (p d poisoned) : (s.placeWrite p d poisoned).regs.lock = s.regs.lock := by
  simp [State.placeWrite]
@[simp] theorem State.readPlace_lock (s : State) (w p) : (s.readPlace w p).2.regs.lock = s.regs.lock := by simp [State.readPlace]

@[simp] theorem State.readPlaces_lock (s : State) (w ps) : (s.readPlaces w ps).2.regs.lock = s.regs.lock := by
  induction ps generalizing s with
  | nil => rfl
  | cons p r ih => simp [State.readPlaces, ih]

@[simp] theorem State.mergePlace_lock (s : State) (w p d poisoned ben) :
    (s.mergePlace w p d poisoned ben).regs.lock = s.regs.lock := by
  unfold State.mergePlace
  dsimp only
  repeat' split
  all_goals simp

@[simp] theorem State.writePlaces_lock (s : State) (l) : (s.writePlaces l).regs.lock = s.regs.lock := by
  induction l generalizing s with
  | nil => rfl
  | cons e r ih => simp [State.writePlaces, ih]

@[simp] theorem State.sent_lock (s : State) (c op bank arg) : (s.sent c op bank arg).regs.lock = s.regs.lock := by
  simp [State.sent]
@[simp] theorem State.idrLine_lock (s : State) (page line) : (s.idrLine page line).regs.lock = s.regs.lock := by
  simp [State.idrLine]
@[simp] theorem State.sendColumn_lock (s : State) (k c) : (s.sendColumn k c).regs.lock = s.regs.lock := by simp [State.sendColumn]
@[simp] theorem State.sendPre_lock (s : State) (k) : (s.sendPre k).regs.lock = s.regs.lock := by simp [State.sendPre]
@[simp] theorem State.sendPhys_lock (s : State) (k phys cs) : (s.sendPhys k phys cs).regs.lock = s.regs.lock := by
  simp [State.sendPhys]
@[simp] theorem State.sendRow_lock (s : State) (k row cs) : (s.sendRow k row cs).regs.lock = s.regs.lock := by
  simp [State.sendRow]
@[simp] theorem State.occupy_lock (s : State) (k n) : (s.occupy k n).regs.lock = s.regs.lock := by simp [State.occupy]
@[simp] theorem State.occupyEven_lock (s : State) (k n) : (s.occupyEven k n).regs.lock = s.regs.lock := by simp [State.occupyEven]
@[simp] theorem State.rowAccess_lock (s : State) (k row cs) : (s.rowAccess k row cs).regs.lock = s.regs.lock := by
  simp [State.rowAccess]
@[simp] theorem State.corbel_lock (s : State) (k op arg n) : (s.corbel k op arg n).regs.lock = s.regs.lock := by
  simp [State.corbel]
@[simp] theorem State.sendDesc_lock (s : State) (k ctx) : (s.sendDesc k ctx).regs.lock = s.regs.lock := by simp [State.sendDesc]
@[simp] theorem State.sendSave_lock (s : State) (k ctx) : (s.sendSave k ctx).regs.lock = s.regs.lock := by simp [State.sendSave]
@[simp] theorem State.sendLoad_lock (s : State) (k ctx) : (s.sendLoad k ctx).regs.lock = s.regs.lock := by simp [State.sendLoad]
@[simp] theorem State.sendScalar_lock (s : State) (k i v) : (s.sendScalar k i v).regs.lock = s.regs.lock := by
  simp [State.sendScalar]
@[simp] theorem State.sendAbort_lock (s : State) (k ctx) : (s.sendAbort k ctx).regs.lock = s.regs.lock := by
  simp [State.sendAbort]
@[simp] theorem State.fillLatch_lock (s : State) (k one use data) : (s.fillLatch k one use data).regs.lock = s.regs.lock := by
  simp [State.fillLatch]
@[simp] theorem State.putLatch_lock (s : State) (k one use data) : (s.putLatch k one use data).regs.lock = s.regs.lock := by
  simp [State.putLatch]
@[simp] theorem State.latchOut_lock (s : State) (k data) : (s.latchOut k data).regs.lock = s.regs.lock := by simp [State.latchOut]
@[simp] theorem State.addChan_lock (s : State) (c ce ue po) : (s.addChan c ce ue po).regs.lock = s.regs.lock := by
  simp [State.addChan]
@[simp] theorem State.cstat_lock (s : State) (k) : (s.cstat k).regs.lock = s.regs.lock := by simp [State.cstat]
@[simp] theorem State.unitReport_lock (s : State) (k) : (s.unitReport k).regs.lock = s.regs.lock := by simp [State.unitReport]
@[simp] theorem State.refpb_lock (s : State) (k) : (s.refpb k).regs.lock = s.regs.lock := by simp [State.refpb]
@[simp] theorem State.fullRefresh_lock (s : State) (k) : (s.fullRefresh k).regs.lock = s.regs.lock := by simp [State.fullRefresh]
@[simp] theorem State.newWork_lock (s : State) (ctx1) : (s.newWork ctx1).regs.lock = s.regs.lock := by simp [State.newWork]
@[simp] theorem State.moveRows_lock (s : State) (write rows) : (s.moveRows write rows).regs.lock = s.regs.lock := by
  simp [State.moveRows]
@[simp] theorem State.moveWords_lock (s : State) (write ws) : (s.moveWords write ws).regs.lock = s.regs.lock := by
  simp [State.moveWords]
@[simp] theorem State.freeFrames_lock (s : State) : (s.freeFrames).regs.lock = s.regs.lock := by simp [State.freeFrames]
@[simp] theorem State.forgetDb_lock (s : State) : (s.forgetDb).regs.lock = s.regs.lock := by simp [State.forgetDb]
@[simp] theorem State.wroteRecord_lock (s : State) : (s.wroteRecord).regs.lock = s.regs.lock := by simp [State.wroteRecord]
@[simp] theorem State.moveAccess_lock (s : State) (acc) : (s.moveAccess acc).regs.lock = s.regs.lock := by simp [State.moveAccess]

@[simp] theorem State.doReach_lock (s : State) (a) : (s.doReach a).regs.lock = s.regs.lock := by
  unfold State.doReach
  split <;> simp

@[simp] theorem State.queueReach_lock (s : State) (id r) : (s.queueReach id r).regs.lock = s.regs.lock := by
  simp [State.queueReach]
@[simp] theorem State.issue_lock (s : State) (id plan) : (s.issue id plan).regs.lock = s.regs.lock := by simp [State.issue]
@[simp] theorem State.ksMove_lock (s : State) (plan cost params task) :
    (s.ksMove plan cost params task).1.regs.lock = s.regs.lock := by simp [State.ksMove]
@[simp] theorem State.ksAccess_lock (s : State) (plan cost task) : (s.ksAccess plan cost task).1.regs.lock = s.regs.lock := by
  simp [State.ksAccess]
@[simp] theorem State.owe_lock (s : State) (n) : (s.owe n).regs.lock = s.regs.lock := by simp [State.owe]
@[simp] theorem State.addTask_lock (s : State) (task) : (s.addTask task).regs.lock = s.regs.lock := by simp [State.addTask]
@[simp] theorem State.dropRecordEnd_lock (s : State) : (s.dropRecordEnd).regs.lock = s.regs.lock := by simp [State.dropRecordEnd]
@[simp] theorem State.dropTasks_lock (s : State) (pick) : (s.dropTasks pick).regs.lock = s.regs.lock := by simp [State.dropTasks]
@[simp] theorem State.dropItems_lock (s : State) : (s.dropItems).regs.lock = s.regs.lock := by simp [State.dropItems]
@[simp] theorem State.freshWord_lock (s : State) : (s.freshWord).2.regs.lock = s.regs.lock := by simp [State.freshWord]

@[simp] theorem State.freshWords_lock (s : State) (n) : (s.freshWords n).2.regs.lock = s.regs.lock := by
  induction n generalizing s with
  | zero => rfl
  | succ n ih => simp [State.freshWords, ih]

/-! ### Responses and latches (R402 to R412) -/

@[simp] theorem State.upPush_lock (s : State) (port f) : (s.upPush port f).regs.lock = s.regs.lock := by simp [State.upPush]
@[simp] theorem State.answer_lock (s : State) (port tag stat word) : (s.answer port tag stat word).regs.lock = s.regs.lock := by
  simp [State.answer]
@[simp] theorem State.refuse_lock (s : State) (r stat) : (s.refuse r stat).regs.lock = s.regs.lock := by simp [State.refuse]
@[simp] theorem State.answerLine_lock (s : State) (r vs) : (s.answerLine r vs).regs.lock = s.regs.lock := by
  simp [State.answerLine]
@[simp] theorem State.foPush_lock (s : State) (o) : (s.foPush o).regs.lock = s.regs.lock := by simp [State.foPush]
@[simp] theorem State.foFlush_lock (s : State) : (s.foFlush).regs.lock = s.regs.lock := by simp [State.foFlush]
@[simp] theorem State.errResp_lock (s : State) (src tag stat) : (s.errResp src tag stat).regs.lock = s.regs.lock := by
  simp [State.errResp]
@[simp] theorem State.atomResp_lock (s : State) (src tag word) : (s.atomResp src tag word).regs.lock = s.regs.lock := by
  simp [State.atomResp]
@[simp] theorem State.sealAck_lock (s : State) (src tag) : (s.sealAck src tag).regs.lock = s.regs.lock := by simp [State.sealAck]
@[simp] theorem State.rdResp_lock (s : State) (src tag vs) : (s.rdResp src tag vs).regs.lock = s.regs.lock := by
  simp [State.rdResp]
@[simp] theorem State.countWiden_lock (s : State) (scope word) : (s.countWiden scope word).regs.lock = s.regs.lock := by
  simp [State.countWiden]
@[simp] theorem State.wake_lock (s : State) (i) : (s.wake i).regs.lock = s.regs.lock := by simp [State.wake]
@[simp] theorem State.release_lock (s : State) (i value scope agent) :
    (s.release i value scope agent).regs.lock = s.regs.lock := by simp -implicitDefEqProofs [State.release]
@[simp] theorem State.releaseNot0_lock (s : State) (i value scope agent) :
    (s.releaseNot0 i value scope agent).regs.lock = s.regs.lock := by simp [State.releaseNot0]

@[simp] theorem State.acqOkay_lock (s : State) (who word) : (s.acqOkay who word).regs.lock = s.regs.lock := by
  unfold State.acqOkay
  split <;> simp

@[simp] theorem State.acqNotReady_lock (s : State) (who) : (s.acqNotReady who).regs.lock = s.regs.lock := by
  unfold State.acqNotReady
  split <;> simp

@[simp] theorem State.dropAcquires_lock (s : State) : (s.dropAcquires).regs.lock = s.regs.lock := by simp [State.dropAcquires]
@[simp] theorem State.acquire_lock (s : State) (who i scope target at_) :
    (s.acquire who i scope target at_).regs.lock = s.regs.lock := by simp [State.acquire]

@[simp] theorem State.atomic_lock (s : State) (isCas i ops agent) : (s.atomic isCas i ops agent).regs.lock = s.regs.lock := by
  unfold State.atomic
  split <;> simp

/-! ### The mailbox (R491 to R501) -/

@[simp] theorem State.haspPut_lock (s : State) (h o bs) : (s.haspPut h o bs).regs.lock = s.regs.lock := by simp [State.haspPut]
@[simp] theorem State.answerHasp_lock (s : State) (h code d payload) :
    (s.answerHasp h code d payload).regs.lock = s.regs.lock := by simp -implicitDefEqProofs [State.answerHasp]

@[simp] theorem State.sweepUpTo_lock (s : State) (n) : (s.sweepUpTo n).regs.lock = s.regs.lock := by
  induction n generalizing s with
  | zero => rfl
  | succ n ih =>
    unfold State.sweepUpTo
    split <;> simp [ih]

@[simp] theorem State.sweepBad_lock (s : State) : (s.sweepBad).regs.lock = s.regs.lock := by simp [State.sweepBad]
@[simp] theorem State.complete_lock (s : State) (h code d payload) : (s.complete h code d payload).regs.lock = s.regs.lock := by
  simp [State.complete]
@[simp] theorem State.finish_lock (s : State) (h st detail payload) : (s.finish h st detail payload).regs.lock = s.regs.lock := by
  simp [State.finish]
@[simp] theorem State.applyCompat_lock (s : State) (h) : (s.applyCompat h).regs.lock = s.regs.lock := by simp [State.applyCompat]

@[simp] theorem State.applySeed_lock (s : State) : (s.applySeed).regs.lock = s.regs.lock := by
  unfold State.applySeed
  split <;> simp

@[simp] theorem State.endAfter_lock (s : State) : (s.endAfter).regs.lock = s.regs.lock := by
  unfold State.endAfter
  split <;> simp

@[simp] theorem State.enqueue_lock (s : State) (h) : (s.enqueue h).regs.lock = s.regs.lock := by simp [State.enqueue]
@[simp] theorem State.doorbell_lock (s : State) (h) : (s.doorbell h).regs.lock = s.regs.lock := by simp [State.doorbell]
@[simp] theorem State.haspControl_lock (s : State) (h d ben) : (s.haspControl h d ben).regs.lock = s.regs.lock := by
  simp [State.haspControl]
@[simp] theorem State.haspWordWrite_lock (s : State) (w off d poisoned ben) :
    (s.haspWordWrite w off d poisoned ben).regs.lock = s.regs.lock := by simp [State.haspWordWrite]
@[simp] theorem State.haspWordRead_lock (s : State) (w off) : (s.haspWordRead w off).2.regs.lock = s.regs.lock := by
  simp [State.haspWordRead]
@[simp] theorem State.begin_lock (s : State) (h) : (s.begin_ h).regs.lock = s.regs.lock := by simp [State.begin_]
@[simp] theorem State.hidePart_lock (s : State) (h) (old : State) : (s.hidePart h old).regs.lock = s.regs.lock := by
  simp [State.hidePart]

@[simp] theorem State.runCommand_lock (s : State) (h op) {body : State → State} (hb : KeepsLock body) :
    (s.runCommand h op body).regs.lock = s.regs.lock := by
  unfold State.runCommand
  split
  · dsimp only
    split
    · simp
    · simp [hb _]
  · rfl

@[simp] theorem State.holdSerial_lock (s : State) (h) : (s.holdSerial h).regs.lock = s.regs.lock := by simp [State.holdSerial]
@[simp] theorem State.clearMailbox_lock (s : State) : (s.clearMailbox).regs.lock = s.regs.lock := by simp [State.clearMailbox]

end Sys2Proof.Machine
end

section
/-!
SUPPORT. LOCK under the work of groups, rings and PULL_REPLICA (R153, R357 to R399, R525).
-/

namespace Sys2Proof.Machine

/-! ### Groups -/

@[simp] theorem State.flush_lock (s : State) (who role own known l) :
    (s.flush who role own known l).1.regs.lock = s.regs.lock := by
  induction l generalizing s with
  | nil => rfl
  | cons e r ih => simp [State.flush, ih]

@[simp] theorem State.accountWords_lock (s : State) (who ps) : (s.accountWords who ps).regs.lock = s.regs.lock := by
  simp [State.accountWords]
@[simp] theorem State.loseRecords_lock (s : State) : (s.loseRecords).regs.lock = s.regs.lock := by simp [State.loseRecords]
@[simp] theorem State.loseMortar_lock (s : State) (off) : (s.loseMortar off).regs.lock = s.regs.lock := by simp [State.loseMortar]

@[simp] theorem State.zeroSlabs_lock (s : State) (first n) : (s.zeroSlabs first n).regs.lock = s.regs.lock := by
  unfold State.zeroSlabs
  split
  · rfl
  · exact foldl_lock (fun k s => foldl_lock (fun r s => foldl_lock (fun w s => by simp) _ _) _ _) _ _

@[simp] theorem State.zeroLines_lock (s : State) (r a n) : (s.zeroLines r a n).regs.lock = s.regs.lock := by
  simp [State.zeroLines]

/-! ### Units of work of a descriptor (R372 to R391) -/

@[simp] theorem State.ringAccount_lock (s : State) (k a n) : (s.ringAccount k a n).regs.lock = s.regs.lock := by
  simp [State.ringAccount]
@[simp] theorem State.ringFlush_lock (s : State) (k m f ops fresh) : (s.ringFlush k m f ops fresh).1.regs.lock = s.regs.lock := by
  simp [State.ringFlush]
@[simp] theorem State.slatePut_lock (s : State) (n row i c) : (s.slatePut n row i c).regs.lock = s.regs.lock := by
  simp [State.slatePut]
@[simp] theorem State.slateAccount_lock (s : State) (k n row) : (s.slateAccount k n row).regs.lock = s.regs.lock := by
  simp [State.slateAccount]
@[simp] theorem State.slateLoad_lock (s : State) (k d f) : (s.slateLoad k d f).regs.lock = s.regs.lock := by
  simp [State.slateLoad]
@[simp] theorem State.unitElementwise_lock (s : State) (k d f) : (s.unitElementwise k d f).1.regs.lock = s.regs.lock := by
  simp [State.unitElementwise]

@[simp] theorem State.unitSlateCopy_lock (s : State) (k d f) : (s.unitSlateCopy k d f).1.regs.lock = s.regs.lock := by
  unfold State.unitSlateCopy
  obtain ⟨put, hput⟩ : ∃ put, put = State.ringPut := ⟨_, rfl⟩
  rw [← hput]
  split
  · rfl
  · simp

@[simp] theorem State.unitReduce_lock (s : State) (k d f) : (s.unitReduce k d f).1.regs.lock = s.regs.lock := by
  unfold State.unitReduce
  dsimp only
  repeat' split
  all_goals simp

@[simp] theorem State.normRow_lock (s : State) (k d f bs short bad) :
    (s.normRow k d f bs short bad).1.regs.lock = s.regs.lock := by simp [State.normRow]
@[simp] theorem State.unitRow_lock (s : State) (k d f) : (s.unitRow k d f).1.regs.lock = s.regs.lock := by simp [State.unitRow]

@[simp] theorem State.unitNorm_lock (s : State) (k d f) : (s.unitNorm k d f).1.regs.lock = s.regs.lock := by
  unfold State.unitNorm
  dsimp only
  repeat' split
  all_goals simp

@[simp] theorem State.gemvLoad_lock (s : State) (k d f) : (s.gemvLoad k d f).regs.lock = s.regs.lock := by
  have hwords (a n : Nat) : KeepsLock (fun s => (List.range n).foldl (fun s i =>
      (s.readPlace { src := 4, agent := agentNone } (mortarPlace (a / 16 * 16 + 16 * i))).2) s) := by simp
  unfold State.gemvLoad
  dsimp only
  rw [State.putLatch_lock]
  exact foldl_lock (fun b => hwords _ _) _ _

@[simp] theorem State.gemvRow_lock (s : State) (k d f vec vbad) : (s.gemvRow k d f vec vbad).1.regs.lock = s.regs.lock := by
  simp [State.gemvRow]

@[simp] theorem State.unitGemv_lock (s : State) (k d f) : (s.unitGemv k d f).1.regs.lock = s.regs.lock := by
  unfold State.unitGemv
  split <;> simp

@[simp] theorem State.ringUnit_lock (s : State) (k f) : (s.ringUnit k f).1.regs.lock = s.regs.lock := by simp [State.ringUnit]

@[simp] theorem State.ringWork_lock (s : State) (k i n) : (s.ringWork k i n).regs.lock = s.regs.lock := by
  induction n generalizing s with
  | zero => rfl
  | succ n ih =>
    unfold State.ringWork
    split <;> simp [ih]

/-! ### Ring control (R362 to R371, R395 to R399) -/

@[simp] theorem State.ringFault_lock (s : State) (k err seq) : (s.ringFault k err seq).regs.lock = s.regs.lock := by
  simp [State.ringFault]

@[simp] theorem State.ringEnable_lock (s : State) (k) : (s.ringEnable k).regs.lock = s.regs.lock := by
  unfold State.ringEnable
  dsimp only
  repeat' split
  all_goals simp

@[simp] theorem State.ringStop_lock (s : State) (k) : (s.ringStop k).regs.lock = s.regs.lock := by simp [State.ringStop]
@[simp] theorem State.ringTail_lock (s : State) (k v) : (s.ringTail k v).regs.lock = s.regs.lock := by simp [State.ringTail]
@[simp] theorem State.ringConfig_lock (s : State) (k off v) : (s.ringConfig k off v).regs.lock = s.regs.lock := by
  simp [State.ringConfig]
@[simp] theorem State.putImage_lock (s : State) (place f) : (s.putImage place f).regs.lock = s.regs.lock := by
  simp [State.putImage]
@[simp] theorem State.putImages_lock (s : State) (k place) : (s.putImages k place).regs.lock = s.regs.lock := by
  simp [State.putImages]
@[simp] theorem State.descAccount_lock (s : State) (k q) : (s.descAccount k q).regs.lock = s.regs.lock := by
  simp [State.descAccount]
@[simp] theorem State.accountImages_lock (s : State) (k place) : (s.accountImages k place).regs.lock = s.regs.lock := by
  simp [State.accountImages]
@[simp] theorem State.dropLatch_lock (s : State) (k) : (s.dropLatch k).regs.lock = s.regs.lock := by simp [State.dropLatch]

@[simp] theorem State.accountLoad_lock (s : State) (k place) : (s.accountLoad k place).regs.lock = s.regs.lock := by
  unfold State.accountLoad
  dsimp only
  split <;> simp -implicitDefEqProofs [-List.foldl_append]

@[simp] theorem State.loadImages_lock (s : State) (k place rest) : (s.loadImages k place rest).regs.lock = s.regs.lock := by
  unfold State.loadImages
  dsimp only
  split <;> simp

@[simp] theorem State.markContexts_lock (s : State) (k) : (s.markContexts k).regs.lock = s.regs.lock := by
  simp [State.markContexts]
@[simp] theorem State.ringSave_lock (s : State) (k) : (s.ringSave k).regs.lock = s.regs.lock := by simp [State.ringSave]
@[simp] theorem State.clearSaveValid_lock (s : State) (k) : (s.clearSaveValid k).regs.lock = s.regs.lock := by
  simp [State.clearSaveValid]
@[simp] theorem State.abortNow_lock (s : State) (k) : (s.abortNow k).regs.lock = s.regs.lock := by simp [State.abortNow]
@[simp] theorem State.restoreNow_lock (s : State) (k) : (s.restoreNow k).regs.lock = s.regs.lock := by simp [State.restoreNow]
@[simp] theorem State.ringDue_lock (s : State) (k) : (s.ringDue k).regs.lock = s.regs.lock := by simp [State.ringDue]
@[simp] theorem State.ringRestore_lock (s : State) (k) : (s.ringRestore k).regs.lock = s.regs.lock := by simp [State.ringRestore]
@[simp] theorem State.ringAbort_lock (s : State) (k) : (s.ringAbort k).regs.lock = s.regs.lock := by simp [State.ringAbort]
@[simp] theorem State.ringCtrl_lock (s : State) (k v) : (s.ringCtrl k v).regs.lock = s.regs.lock := by simp [State.ringCtrl]
@[simp] theorem State.ringStatusW1c_lock (s : State) (k v) : (s.ringStatusW1c k v).regs.lock = s.regs.lock := by
  simp [State.ringStatusW1c]

@[simp] theorem State.ringWrite_lock (s : State) (k off v) : (s.ringWrite k off v).regs.lock = s.regs.lock := by
  unfold State.ringWrite
  split <;> simp

@[simp] theorem State.descFetch_lock (s : State) (k q) : (s.descFetch k q).2.regs.lock = s.regs.lock := by
  unfold State.descFetch
  split <;> simp

@[simp] theorem State.descFail_lock (s : State) (k q e) : (s.descFail k q e).regs.lock = s.regs.lock := by simp [State.descFail]
@[simp] theorem State.descSend_lock (s : State) (k q desc) : (s.descSend k q desc).regs.lock = s.regs.lock := by
  simp [State.descSend]

@[simp] theorem State.descStart_lock (s : State) (k) : (s.descStart k).regs.lock = s.regs.lock := by
  unfold State.descStart
  dsimp only
  repeat' split
  all_goals simp

@[simp] theorem State.retireOne_lock (s : State) (k f) : (s.retireOne k f).regs.lock = s.regs.lock := by simp [State.retireOne]

@[simp] theorem State.ringSettle_lock (s : State) (k) : (s.ringSettle k).regs.lock = s.regs.lock := by
  unfold State.ringSettle
  dsimp only
  repeat' split
  all_goals simp

@[simp] theorem State.descRetire_lock (s : State) (k) : (s.descRetire k).regs.lock = s.regs.lock := by
  unfold State.descRetire
  dsimp only
  repeat' split
  all_goals simp

@[simp] theorem State.ringSaveDone_lock (s : State) (k) : (s.ringSaveDone k).regs.lock = s.regs.lock := by
  simp -implicitDefEqProofs [State.ringSaveDone]
@[simp] theorem State.saveRing_lock (s : State) (k) : (s.saveRing k).regs.lock = s.regs.lock := by simp [State.saveRing]
@[simp] theorem State.saveAborted_lock (s : State) : (s.saveAborted).regs.lock = s.regs.lock := by simp [State.saveAborted]
@[simp] theorem State.blankImages_lock (s : State) (c save) : (s.blankImages c save).regs.lock = s.regs.lock := by
  simp [State.blankImages]

@[simp] theorem State.everyRing_lock (s : State) (save) {one : State → Nat → State} (h : ∀ k, KeepsLock (one · k)) :
    (s.everyRing save one).regs.lock = s.regs.lock := by
  simp only [keepsLock_iff] at h
  simp -implicitDefEqProofs [State.everyRing, h]

@[simp] theorem State.saveRings_lock (s : State) : (s.saveRings).regs.lock = s.regs.lock := by simp [State.saveRings]
@[simp] theorem State.emptyContexts_lock (s : State) : (s.emptyContexts).regs.lock = s.regs.lock := by simp [State.emptyContexts]
@[simp] theorem State.loadRing_lock (s : State) (k) : (s.loadRing k).regs.lock = s.regs.lock := by simp [State.loadRing]
@[simp] theorem State.loadRings_lock (s : State) : (s.loadRings).regs.lock = s.regs.lock := by simp [State.loadRings]

/-! ### PULL_REPLICA (R357 to R359) -/

@[simp] theorem State.setPull_lock (s : State) (p) : (s.setPull p).regs.lock = s.regs.lock := by simp [State.setPull]
@[simp] theorem State.dropBg_lock (s : State) (pick) : (s.dropBg pick).regs.lock = s.regs.lock := by simp [State.dropBg]

@[simp] theorem State.pullIssue_lock (s : State) (p what) : (s.pullIssue p what).regs.lock = s.regs.lock := by
  unfold State.pullIssue
  dsimp only
  split <;> simp

@[simp] theorem State.pullEnd_lock (s : State) (p) : (s.pullEnd p).regs.lock = s.regs.lock := by simp [State.pullEnd]

theorem State.pullNext_lock {s t : State} {p : Pull} (h : s.pullNext p = some t) : t.regs.lock = s.regs.lock := by
  unfold State.pullNext at h
  split at h
  · split at h <;> simp at h
    simp [← h]
  · repeat' split at h
    all_goals simp at h
    all_goals simp [← h]

@[simp] theorem State.pumpPulls_lock (s : State) (n) : (s.pumpPulls n).regs.lock = s.regs.lock := by
  induction n generalizing s with
  | zero => rfl
  | succ n ih =>
    unfold State.pumpPulls
    split
    · rfl
    · split
      · next s' hs' =>
        obtain ⟨p, -, hp⟩ := List.exists_of_findSome?_eq_some hs'
        rw [ih, State.pullNext_lock hp]
      · rfl

end Sys2Proof.Machine
end

section
/-!
SUPPORT. LOCK under register writes, and under what serves requests, which may be register writes (R45, R516, R525): it stays 1.
-/

namespace Sys2Proof.Machine

/-- The operation may set LOCK and does not clear it. -/
def StaysLocked (f : State → State) : Prop := ∀ s, s.regs.lock = true → (f s).regs.lock = true

@[simp] theorem staysLocked_iff (f : State → State) : StaysLocked f ↔ ∀ s, s.regs.lock = true → (f s).regs.lock = true := ⟨id, id⟩

@[simp] theorem foldl_locked {α : Type} {f : State → α → State} (hf : ∀ a, StaysLocked (f · a)) (s : State) (l : List α)
    (h : s.regs.lock = true) : (l.foldl f s).regs.lock = true := by
  induction l generalizing s with
  | nil => exact h
  | cons a l ih => exact ih _ (hf a s h)

theorem State.runCommand_locked (s : State) (h op) {body : State → State} (hb : StaysLocked body) (hl : s.regs.lock = true) :
    (s.runCommand h op body).regs.lock = true := by
  unfold State.runCommand
  split
  · dsimp only
    split
    · simp [hl]
    · simp [hb _ _, hl]
  · exact hl

/-! ### Register writes (R516 to R539) -/

@[simp] theorem Regs.clearLog_lock (r : Regs) : r.clearLog.lock = r.lock := rfl
@[simp] theorem Regs.writeCtrl_lock (r : Regs) (v) : (r.writeCtrl v).lock = (r.lock || v.getLsbD 0) := rfl

@[simp] theorem State.closeSession_lock (s : State) : (s.closeSession).regs.lock = s.regs.lock := by simp [State.closeSession]
@[simp] theorem State.endSession_lock (s : State) : (s.endSession).regs.lock = s.regs.lock := by simp [State.endSession]
@[simp] theorem State.fwLoadBegin_lock (s : State) : (s.fwLoadBegin).regs.lock = s.regs.lock := by simp [State.fwLoadBegin]
@[simp] theorem State.fwLoadWord_lock (s : State) (v) : (s.fwLoadWord v).regs.lock = s.regs.lock := by simp [State.fwLoadWord]
@[simp] theorem State.fwLoadStop_lock (s : State) : (s.fwLoadStop).regs.lock = s.regs.lock := by simp [State.fwLoadStop]
@[simp] theorem State.writeLocked_locked (s : State) (f) (h : s.regs.lock = true) : (s.writeLocked f).regs.lock = true := by
  simp [State.writeLocked, h]
@[simp] theorem State.mapRegs_regs (s : State) (f) : (s.mapRegs f).regs = f s.regs := rfl

@[simp] theorem State.writeGlobal_locked (s : State) (off v) (h : s.regs.lock = true) :
    (s.writeGlobal off v).regs.lock = true := by
  simp [State.writeGlobal, apply_ite Regs.lock, h]

@[simp] theorem State.noteWrite_lock (s : State) (off) : (s.noteWrite off).regs.lock = s.regs.lock := by simp [State.noteWrite]
@[simp] theorem State.writeChan_lock (s : State) (off v c) : (s.writeChan off v c).regs.lock = s.regs.lock := by
  simp [State.writeChan]
@[simp] theorem State.writeChans_lock (s : State) (cs off v) : (s.writeChans cs off v).regs.lock = s.regs.lock := by
  simp [State.writeChans]

@[simp] theorem State.writeRegTo_locked (s : State) (off v chans) (h : s.regs.lock = true) :
    (s.writeRegTo off v chans).regs.lock = true := by
  unfold State.writeRegTo
  split <;> simp [h]

@[simp] theorem State.writeReg_locked (s : State) (off v) (h : s.regs.lock = true) : (s.writeReg off v).regs.lock = true := by
  simp [State.writeReg, h]
@[simp] theorem State.writeRegLine_locked (s : State) (off d ben chans) (h : s.regs.lock = true) :
    (s.writeRegLine off d ben chans).regs.lock = true := by simp +contextual [State.writeRegLine, h]

/-! ### Pintle requests and the queues of banks (R44 to R56, R200 to R204) -/

@[simp] theorem State.rxWords_lock (s : State) (site w at_ detect d c l) :
    (s.rxWords site w at_ detect d c l).2.2.2.regs.lock = s.regs.lock := by
  induction l generalizing s with
  | nil => rfl
  | cons i r ih => simp [State.rxWords, ih]

@[simp] theorem State.readStackLine_lock (s : State) (w a) : (s.readStackLine w a).2.regs.lock = s.regs.lock := by
  unfold State.readStackLine
  split <;> simp

@[simp] theorem State.readHaspLine_lock (s : State) (w off l) : (s.readHaspLine w off l).2.regs.lock = s.regs.lock := by
  induction l generalizing s with
  | nil => rfl
  | cons i r ih => simp [State.readHaspLine, ih]

@[simp] theorem State.readCtlLine_lock (s : State) (r) : (s.readCtlLine r).2.regs.lock = s.regs.lock := by
  unfold State.readCtlLine
  split <;> simp

@[simp] theorem State.writeWords_lock (s : State) (w place ben l) : (s.writeWords w place ben l).regs.lock = s.regs.lock := by
  induction l generalizing s with
  | nil => rfl
  | cons e r ih => simp [State.writeWords, ih]

@[simp] theorem State.writeHaspWords_lock (s : State) (w off ben l) : (s.writeHaspWords w off ben l).regs.lock = s.regs.lock := by
  induction l generalizing s with
  | nil => rfl
  | cons e r ih => simp [State.writeHaspWords, ih]

@[simp] theorem State.writeCtlWords_locked (s : State) (r vs) (h : s.regs.lock = true) :
    (s.writeCtlWords r vs).regs.lock = true := by
  unfold State.writeCtlWords
  split <;> simp [h]

@[simp] theorem State.stackServe_lock (s : State) (r) : (s.stackServe r).regs.lock = s.regs.lock := by
  unfold State.stackServe
  dsimp only
  split <;> simp

@[simp] theorem State.enqueueBank_lock (s : State) (k a) : (s.enqueueBank k a).regs.lock = s.regs.lock := by
  simp [State.enqueueBank]
@[simp] theorem State.dbBond_lock (s : State) (p u) : (s.dbBond p u).regs.lock = s.regs.lock := by simp [State.dbBond]
@[simp] theorem State.dbUnlaid_lock (s : State) (p u) : (s.dbUnlaid p u).regs.lock = s.regs.lock := by simp [State.dbUnlaid]

@[simp] theorem State.serveAccess_lock (s : State) (k a) : (s.serveAccess k a).regs.lock = s.regs.lock := by
  unfold State.serveAccess
  dsimp only
  repeat' split
  all_goals simp

@[simp] theorem State.countHost_lock (s : State) (k cs) : (s.countHost k cs).regs.lock = s.regs.lock := by simp [State.countHost]
@[simp] theorem State.serveRow_lock (s : State) (k g) : (s.serveRow k g).regs.lock = s.regs.lock := by simp [State.serveRow]
@[simp] theorem State.bankAccess_lock (s : State) (k a) : (s.bankAccess k a).regs.lock = s.regs.lock := by simp [State.bankAccess]
@[simp] theorem State.dataError_lock (s : State) (r) : (s.dataError r).regs.lock = s.regs.lock := by simp [State.dataError]

@[simp] theorem State.pintleWrite_locked (s : State) (r) (h : s.regs.lock = true) : (s.pintleWrite r).regs.lock = true := by
  unfold State.pintleWrite
  dsimp only
  repeat' split
  all_goals simp [h]

@[simp] theorem State.pintleRead_lock (s : State) (r) : (s.pintleRead r).regs.lock = s.regs.lock := by
  unfold State.pintleRead
  dsimp only
  repeat' split
  all_goals simp

@[simp] theorem State.pintleAtomic_lock (s : State) (r i) : (s.pintleAtomic r i).regs.lock = s.regs.lock := by
  simp [State.pintleAtomic]

@[simp] theorem State.pintlePerform_locked (s : State) (r) (h : s.regs.lock = true) : (s.pintlePerform r).regs.lock = true := by
  unfold State.pintlePerform
  repeat' split
  all_goals simp [h]

@[simp] theorem State.drainPort_locked (s : State) (port n) (h : s.regs.lock = true) : (s.drainPort port n).regs.lock = true := by
  induction n generalizing s with
  | zero => exact h
  | succ n ih =>
    unfold State.drainPort
    split
    · exact h
    · exact ih _ (by simp [h])

@[simp] theorem State.drainPorts_locked (s : State) (h : s.regs.lock = true) : (s.drainPorts).regs.lock = true := by
  simp +contextual [State.drainPorts, h]
@[simp] theorem State.pintleIssue_locked (s : State) (r) (h : s.regs.lock = true) : (s.pintleIssue r).regs.lock = true := by
  simp [State.pintleIssue, h]
@[simp] theorem State.serveOnce_locked (s : State) (k inOrder pick) (h : s.regs.lock = true) :
    (s.serveOnce k inOrder pick).regs.lock = true := by simp [State.serveOnce, h]

@[simp] theorem State.serveMore_locked (s : State) (k inOrder pick n) (h : s.regs.lock = true) :
    (s.serveMore k inOrder pick n).regs.lock = true := by
  induction n generalizing s with
  | zero => exact h
  | succ n ih =>
    unfold State.serveMore
    split
    · exact ih _ (by simp [h])
    · exact h

@[simp] theorem State.serveQueue_locked (s : State) (k inOrder pick) (h : s.regs.lock = true) :
    (s.serveQueue k inOrder pick).regs.lock = true := by simp [State.serveQueue, h]
@[simp] theorem State.serveIdle_locked (s : State) (k) (h : s.regs.lock = true) : (s.serveIdle k).regs.lock = true := by
  simp [State.serveIdle, h]
@[simp] theorem State.serveAllIdle_locked (s : State) (h : s.regs.lock = true) : (s.serveAllIdle).regs.lock = true := by
  simp +contextual [State.serveAllIdle, h]

/-! ### Held acquires (R410, R411) -/

@[simp] theorem State.acquireDone_locked (s : State) (i) (h : s.regs.lock = true) : (s.acquireDone i).regs.lock = true := by
  unfold State.acquireDone
  repeat' split
  all_goals simp [h]

@[simp] theorem State.acquireTimeout_locked (s : State) (i) (h : s.regs.lock = true) : (s.acquireTimeout i).regs.lock = true := by
  unfold State.acquireTimeout
  split <;> simp [h]

end Sys2Proof.Machine
end

section
/-!
SUPPORT. LOCK under the Lintel record, the mailbox commands, the steps and the checkpoint images (R266 to R360, R484 to R488, R525).
-/

namespace Sys2Proof.Machine

/-! ### The Lintel record (R344 to R348) -/

@[simp] theorem State.putLine_lock (s : State) (ps bs) : (s.putLine ps bs).regs.lock = s.regs.lock := by simp [State.putLine]

@[simp] theorem State.lintelPutBytes_lock (s : State) (copy bs n) : (s.lintelPutBytes copy bs n).regs.lock = s.regs.lock := by
  induction n generalizing s with
  | zero => rfl
  | succ n ih => simp [State.lintelPutBytes, ih]

@[simp] theorem State.lintelIssue_lock (s : State) (copy bs) : (s.lintelIssue copy bs).regs.lock = s.regs.lock := by
  simp [State.lintelIssue]

@[simp] theorem State.lintelDrain_lock (s : State) (bank n) : (s.lintelDrain bank n).regs.lock = s.regs.lock := by
  induction n generalizing s with
  | zero => rfl
  | succ n ih =>
    unfold State.lintelDrain
    split <;> simp [ih]

@[simp] theorem State.lintelAt_lock (s : State) (bank) : (s.lintelAt bank).regs.lock = s.regs.lock := by simp [State.lintelAt]

@[simp] theorem State.lintelRun_lock (s : State) (n) : (s.lintelRun n).regs.lock = s.regs.lock := by
  induction n generalizing s with
  | zero => rfl
  | succ n ih =>
    unfold State.lintelRun
    split <;> simp [ih]

@[simp] theorem State.lintelForce_lock (s : State) : (s.lintelForce).regs.lock = s.regs.lock := by simp [State.lintelForce]
@[simp] theorem State.lintelPut_lock (s : State) (copy epoch) : (s.lintelPut copy epoch).regs.lock = s.regs.lock := by
  simp [State.lintelPut]
@[simp] theorem State.lintelSeq_lock (s : State) : (s.lintelSeq).regs.lock = s.regs.lock := by simp [State.lintelSeq]
@[simp] theorem State.lintelWrite_lock (s : State) : (s.lintelWrite).regs.lock = s.regs.lock := by simp [State.lintelWrite]

@[simp] theorem State.lintelCopy1_lock (s : State) : (s.lintelCopy1).regs.lock = s.regs.lock := by
  unfold State.lintelCopy1
  split <;> simp

@[simp] theorem State.configChanged_lock (s : State) : (s.configChanged).regs.lock = s.regs.lock := by simp [State.configChanged]
@[simp] theorem State.lintelAccount_lock (s : State) : (s.lintelAccount).regs.lock = s.regs.lock := by simp [State.lintelAccount]

@[simp] theorem State.lintelRepair_lock (s : State) (r copy) : (s.lintelRepair r copy).regs.lock = s.regs.lock := by
  unfold State.lintelRepair
  split <;> simp

/-! ### Queries and configuration (R145 to R155, R255 to R261, R510) -/

@[simp] theorem State.getStepReport_lock (s : State) (h) : (s.getStepReport h).regs.lock = s.regs.lock := by
  unfold State.getStepReport
  dsimp only
  repeat' split
  all_goals simp

@[simp] theorem State.getPlumb_lock (s : State) (h) : (s.getPlumb h).regs.lock = s.regs.lock := by simp [State.getPlumb]
@[simp] theorem State.setCompat_lock (s : State) (h) : (s.setCompat h).regs.lock = s.regs.lock := by simp [State.setCompat]

@[simp] theorem State.defineRegion_lock (s : State) (h) : (s.defineRegion h).regs.lock = s.regs.lock := by
  unfold State.defineRegion
  dsimp only
  split <;> simp

@[simp] theorem State.initRlast_lock (s : State) (g) : (s.initRlast g).regs.lock = s.regs.lock := by
  simp -implicitDefEqProofs [State.initRlast]
@[simp] theorem State.putSchedule_lock (s : State) (n bs) : (s.putSchedule n bs).regs.lock = s.regs.lock := by
  simp [State.putSchedule]
@[simp] theorem State.createNow_lock (s : State) (h n g cr) : (s.createNow h n g cr).regs.lock = s.regs.lock := by
  simp [State.createNow]

@[simp] theorem State.createGroup_lock (s : State) (h n g) : (s.createGroup h n g).regs.lock = s.regs.lock := by
  unfold State.createGroup
  split <;> simp

@[simp] theorem State.createEnd_lock (s : State) (h) : (s.createEnd h).regs.lock = s.regs.lock := by
  unfold State.createEnd
  dsimp only
  split <;> simp

@[simp] theorem State.defineGroup_lock (s : State) (h) : (s.defineGroup h).regs.lock = s.regs.lock := by
  unfold State.defineGroup
  dsimp only
  repeat' split
  all_goals simp

@[simp] theorem State.loadSchedule_lock (s : State) (h) : (s.loadSchedule h).regs.lock = s.regs.lock := by
  unfold State.loadSchedule
  dsimp only
  split <;> simp

@[simp] theorem State.putSeed_lock (s : State) (seed src) : (s.putSeed seed src).regs.lock = s.regs.lock := by
  simp [State.putSeed]

@[simp] theorem State.setSeed_lock (s : State) (h) : (s.setSeed h).regs.lock = s.regs.lock := by
  unfold State.setSeed
  split <;> simp

@[simp] theorem State.trngFail_lock (s : State) (f) : (s.trngFail f).regs.lock = s.regs.lock := by simp [State.trngFail]

@[simp] theorem State.drawEnd_lock (s : State) (h bits) : (s.drawEnd h bits).regs.lock = s.regs.lock := by
  cases hb : s.dbg.busy <;> simp [State.drawEnd, hb]

/-! ### Intake (R266 to R290) -/

@[simp] theorem State.openStep_lock (s : State) (h) : (s.openStep h).regs.lock = s.regs.lock := by
  unfold State.openStep
  dsimp only
  repeat' split
  all_goals simp

@[simp] theorem State.clearIntake_lock (s : State) (b) : (s.clearIntake b).regs.lock = s.regs.lock := by simp [State.clearIntake]
@[simp] theorem State.countStale_lock (s : State) (key) : (s.countStale key).regs.lock = s.regs.lock := by simp [State.countStale]
@[simp] theorem State.countStray_lock (s : State) (b) : (s.countStray b).regs.lock = s.regs.lock := by simp [State.countStray]

@[simp] theorem State.takeLine_lock (s : State) (src tag w line d) : (s.takeLine src tag w line d).regs.lock = s.regs.lock := by
  unfold State.takeLine
  repeat' split
  all_goals simp

@[simp] theorem State.addPiece_lock (s : State) (b p) : (s.addPiece b p).regs.lock = s.regs.lock := by
  unfold State.addPiece
  repeat' split
  all_goals simp

@[simp] theorem State.stagePieces_lock (s : State) (k) : (s.stagePieces k).regs.lock = s.regs.lock := by simp [State.stagePieces]

@[simp] theorem State.accumContrib_lock (s : State) (k) : (s.accumContrib k).regs.lock = s.regs.lock := by
  unfold State.accumContrib
  split <;> simp

@[simp] theorem State.takeSeal_lock (s : State) (src tag d) : (s.takeSeal src tag d).regs.lock = s.regs.lock := by
  unfold State.takeSeal
  split <;> simp

@[simp] theorem State.closeSet_lock (s : State) (b cause) : (s.closeSet b cause).regs.lock = s.regs.lock := by
  simp [State.closeSet]
@[simp] theorem State.deadlineClose_lock (s : State) : (s.deadlineClose).regs.lock = s.regs.lock := by simp [State.deadlineClose]
@[simp] theorem State.releaseSeal_lock (s : State) (b h) : (s.releaseSeal b h).regs.lock = s.regs.lock := by
  simp [State.releaseSeal]

@[simp] theorem State.sealRelease_lock (s : State) (c) : (s.sealRelease c).regs.lock = s.regs.lock := by
  unfold State.sealRelease
  dsimp only
  split <;> simp

@[simp] theorem State.scanAccount_lock (s : State) (ps) : (s.scanAccount ps).2.regs.lock = s.regs.lock := by
  unfold State.scanAccount
  generalize 0 = n
  induction ps generalizing s n with
  | nil => rfl
  | cons e r ih => simp [ih]

@[simp] theorem State.scanInto_lock (s : State) (b n g) : (s.scanInto b n g).regs.lock = s.regs.lock := by
  simp [State.scanInto]
@[simp] theorem State.readKnots_lock (s : State) : (s.readKnots).regs.lock = s.regs.lock := by simp [State.readKnots]
@[simp] theorem State.scanReports_lock (s : State) : (s.scanReports).regs.lock = s.regs.lock := by simp [State.scanReports]
@[simp] theorem State.masksLeft_lock (s : State) (b) : (s.masksLeft b).regs.lock = s.regs.lock := by simp [State.masksLeft]
@[simp] theorem State.masksGo_lock (s : State) (b) : (s.masksGo b).regs.lock = s.regs.lock := by simp [State.masksGo]

@[simp] theorem State.feedMasks_lock (s : State) (k) : (s.feedMasks k).regs.lock = s.regs.lock := by
  unfold State.feedMasks
  split <;> simp

@[simp] theorem State.sealScan_lock (s : State) (b) : (s.sealScan b).regs.lock = s.regs.lock := by simp [State.sealScan]
@[simp] theorem State.scanDone_lock (s : State) (b) : (s.scanDone b).regs.lock = s.regs.lock := by simp [State.scanDone]
@[simp] theorem State.dropIntake_lock (s : State) (b) : (s.dropIntake b).regs.lock = s.regs.lock := by simp [State.dropIntake]

/-! ### Updates (R320 to R342) -/

@[simp] theorem State.accountUpd_lock (s : State) (c ps) : (s.accountUpd c ps).regs.lock = s.regs.lock := by
  simp [State.accountUpd]
@[simp] theorem State.unitReports_lock (s : State) (c ks) : (s.unitReports c ks).regs.lock = s.regs.lock := by
  simp [State.unitReports]
@[simp] theorem State.countRun_lock (s : State) (c nonfin poison) : (s.countRun c nonfin poison).regs.lock = s.regs.lock := by
  simp [State.countRun]
@[simp] theorem State.updElems_lock (s : State) (c bank seen is rows rstat) :
    (s.updElems c bank seen is rows rstat).regs.lock = s.regs.lock := by simp [State.updElems]
@[simp] theorem State.pass1_lock (s : State) (c) : (s.pass1 c).regs.lock = s.regs.lock := by simp [State.pass1]

@[simp] theorem State.storeQ_lock (s : State) (c) : (s.storeQ c).regs.lock = s.regs.lock := by
  unfold State.storeQ
  split <;> simp

@[simp] theorem State.runSafe_lock (s : State) (b r n g) : (s.runSafe b r n g).regs.lock = s.regs.lock := by
  unfold State.runSafe
  dsimp only
  split <;> simp

@[simp] theorem State.journalPut_lock (s : State) (c unit at_) : (s.journalPut c unit at_).regs.lock = s.regs.lock := by
  simp [State.journalPut]
@[simp] theorem State.undo_lock (s : State) (c e) : (s.undo c e).regs.lock = s.regs.lock := by simp [State.undo]
@[simp] theorem State.accountStart_lock (s : State) (c unit) : (s.accountStart c unit).regs.lock = s.regs.lock := by
  simp [State.accountStart]

@[simp] theorem State.unitStarted_lock (s : State) (n unit) : (s.unitStarted n unit).regs.lock = s.regs.lock := by
  unfold State.unitStarted
  dsimp only
  repeat' split
  all_goals simp

@[simp] theorem State.unitBack_lock (s : State) (n unit) : (s.unitBack n unit).regs.lock = s.regs.lock := by
  unfold State.unitBack
  dsimp only
  repeat' split
  all_goals simp

@[simp] theorem State.leanStart_lock (s : State) (n unit) : (s.leanStart n unit).regs.lock = s.regs.lock := by
  unfold State.leanStart
  split <;> simp

@[simp] theorem State.unitFinished_lock (s : State) (n unit) : (s.unitFinished n unit).regs.lock = s.regs.lock := by
  unfold State.unitFinished
  split <;> simp

@[simp] theorem State.unitWrite_lock (s : State) (n unit) : (s.unitWrite n unit).regs.lock = s.regs.lock := by
  unfold State.unitWrite
  split <;> simp

@[simp] theorem State.leanDone_lock (s : State) (n unit) : (s.leanDone n unit).regs.lock = s.regs.lock := by
  unfold State.leanDone
  split <;> simp

@[simp] theorem State.zeroCounts_lock (s : State) (b pick) : (s.zeroCounts b pick).regs.lock = s.regs.lock := by
  simp [State.zeroCounts]
@[simp] theorem State.spoilSafe_lock (s : State) : (s.spoilSafe).regs.lock = s.regs.lock := by simp [State.spoilSafe]
@[simp] theorem State.spoilRun_lock (s : State) (b) : (s.spoilRun b).regs.lock = s.regs.lock := by simp [State.spoilRun]
@[simp] theorem State.loseVersions_lock (s : State) (t pick) : (s.loseVersions t pick).regs.lock = s.regs.lock := by
  simp [State.loseVersions]
@[simp] theorem State.openRun_lock (s : State) (b spec clip exp) : (s.openRun b spec clip exp).regs.lock = s.regs.lock := by
  simp [State.openRun]

@[simp] theorem State.startRows_lock (s : State) (b) : (s.startRows b).regs.lock = s.regs.lock := by
  unfold State.startRows
  split <;> simp

@[simp] theorem State.startRun_lock (s : State) (b spec clip exp) : (s.startRun b spec clip exp).regs.lock = s.regs.lock := by
  simp [State.startRun]

@[simp] theorem State.updateStart_lock (s : State) (b) : (s.updateStart b).regs.lock = s.regs.lock := by
  unfold State.updateStart
  repeat' split
  all_goals simp

@[simp] theorem State.pass2Begin_lock (s : State) (b n) : (s.pass2Begin b n).regs.lock = s.regs.lock := by
  unfold State.pass2Begin
  split <;> simp

@[simp] theorem State.pass2Start_lock (s : State) (b n) : (s.pass2Start b n).regs.lock = s.regs.lock := by
  unfold State.pass2Start
  dsimp only
  split <;> simp

@[simp] theorem State.finishRun_lock (s : State) (b r) : (s.finishRun b r).regs.lock = s.regs.lock := by
  unfold State.finishRun
  extract_lets s1
  have h1 : s1.regs.lock = s.regs.lock := by
    unfold s1
    split
    · rfl
    · exact foldl_lock (fun e s => by dsimp only; split <;> simp) _ _
  split
  · exact h1
  · exact (foldl_lock (fun e s => by dsimp only; split <;> simp) _ _).trans h1

@[simp] theorem State.beginCommit_lock (s : State) (b) : (s.beginCommit b).regs.lock = s.regs.lock := by simp [State.beginCommit]

@[simp] theorem State.updateEnd_lock (s : State) (b) : (s.updateEnd b).regs.lock = s.regs.lock := by
  unfold State.updateEnd
  dsimp only
  split <;> simp

@[simp] theorem State.updateDone_lock (s : State) (b) : (s.updateDone b).regs.lock = s.regs.lock := by
  unfold State.updateDone
  dsimp only
  split <;> simp

/-! ### Verdicts, the commit and recovery (R327 to R353) -/

@[simp] theorem State.installGroups_lock (s : State) (b) : (s.installGroups b).regs.lock = s.regs.lock := by
  simp [State.installGroups]
@[simp] theorem State.freezeLow_lock (s : State) (b) : (s.freezeLow b).regs.lock = s.regs.lock := by simp [State.freezeLow]
@[simp] theorem State.commitFinish_lock (s : State) (b) : (s.commitFinish b).regs.lock = s.regs.lock := by
  simp [State.commitFinish]
@[simp] theorem State.leanAfter_lock (s : State) (b r) : (s.leanAfter b r).regs.lock = s.regs.lock := by simp [State.leanAfter]

@[simp] theorem State.afterVerdict_lock (s : State) (b v) : (s.afterVerdict b v).regs.lock = s.regs.lock := by
  unfold State.afterVerdict
  dsimp only
  split <;> simp

@[simp] theorem State.recordFinish_lock (s : State) : (s.recordFinish).regs.lock = s.regs.lock := by
  unfold State.recordFinish
  dsimp only
  repeat' split
  all_goals simp

@[simp] theorem State.recordDone_lock (s : State) : (s.recordDone).regs.lock = s.regs.lock := by simp [State.recordDone]

@[simp] theorem State.endWrites_lock (s : State) (n) : (s.endWrites n).regs.lock = s.regs.lock := by
  induction n generalizing s with
  | zero => rfl
  | succ n ih => simp [State.endWrites, ih]

@[simp] theorem State.deriveWeights_lock (s : State) (n g v) : (s.deriveWeights n g v).regs.lock = s.regs.lock := by
  simp [State.deriveWeights]
@[simp] theorem State.restoreCoffer_lock (s : State) (ns) : (s.restoreCoffer ns).regs.lock = s.regs.lock :=
  foldl_lock (fun n s => by dsimp only; split <;> simp) s ns
@[simp] theorem State.abandonSet_lock (s : State) (b) : (s.abandonSet b).regs.lock = s.regs.lock := by simp [State.abandonSet]
@[simp] theorem State.abandonLast_lock (s : State) (b) : (s.abandonLast b).regs.lock = s.regs.lock := by simp [State.abandonLast]
@[simp] theorem State.abandonEnd_lock (s : State) (h b later) : (s.abandonEnd h b later).regs.lock = s.regs.lock := by
  simp [State.abandonEnd]
@[simp] theorem State.abandonRest_lock (s : State) (h b ns later clears) :
    (s.abandonRest h b ns later clears).regs.lock = s.regs.lock := by simp [State.abandonRest]
@[simp] theorem State.abandonCmd_lock (s : State) (h b) : (s.abandonCmd h b).regs.lock = s.regs.lock := by simp [State.abandonCmd]

@[simp] theorem State.verdictCmd_lock (s : State) (h) : (s.verdictCmd h).regs.lock = s.regs.lock := by
  unfold State.verdictCmd
  dsimp only
  repeat' split
  all_goals simp -implicitDefEqProofs

@[simp] theorem State.completeWrites_lock (s : State) : (s.completeWrites).regs.lock = s.regs.lock := by
  unfold State.completeWrites
  dsimp only
  split <;> simp

@[simp] theorem State.stopSteps_lock (s : State) : (s.stopSteps).regs.lock = s.regs.lock := by simp [State.stopSteps]
@[simp] theorem State.undoJournal_lock (s : State) : (s.undoJournal).regs.lock = s.regs.lock :=
  foldl_lock (fun e s => by dsimp only; split <;> simp) s _

@[simp] theorem State.runWhole_lock (s : State) (b v) : (s.runWhole b v).regs.lock = s.regs.lock := by
  unfold State.runWhole
  extract_lets s1 s2 s3 s4
  have h3 : s3.regs.lock = s2.regs.lock :=
    foldl_lock (fun e s => foldl_lock (fun u s => by dsimp only; split <;> simp) _ _) _ _
  have h4 : s4.regs.lock = s3.regs.lock := by
    unfold s4
    split <;> simp
  rw [State.recordDone_lock, State.updateEnd_lock, h4, h3]
  simp [s2, s1]

@[simp] theorem State.recover_lock (s : State) (cause) : (s.recover cause).state.regs.lock = s.regs.lock := by
  unfold State.recover
  dsimp only
  repeat' split
  all_goals simp

/-! ### Checkpoint images (R484 to R488) -/

@[simp] theorem State.schedules_lock (s : State) (gs) : (s.schedules gs).2.regs.lock = s.regs.lock := by
  unfold State.schedules
  generalize [] = m
  induction gs generalizing s m with
  | nil => rfl
  | cons e r ih => rw [List.foldl_cons, ih, State.readPlaces_lock]

@[simp] theorem State.writeRange_lock (s : State) (r a bs) : (s.writeRange r a bs).regs.lock = s.regs.lock := by
  simp [State.writeRange]
@[simp] theorem State.putImageLine_lock (s : State) (r off bs) : (s.putImageLine r off bs).regs.lock = s.regs.lock := by
  simp [State.putImageLine]

@[simp] theorem State.zeroLine_lock (s : State) : (s.zeroLine).regs.lock = s.regs.lock := by
  unfold State.zeroLine
  split <;> simp

@[simp] theorem State.exportZero_lock (s : State) : (s.exportZero).regs.lock = s.regs.lock := by
  unfold State.exportZero
  dsimp only
  split <;> simp

@[simp] theorem State.exportStart_lock (s : State) (h) : (s.exportStart h).regs.lock = s.regs.lock := by
  unfold State.exportStart
  dsimp only
  repeat' split
  all_goals simp

@[simp] theorem State.linesOut_lock (s : State) (first last) : (s.linesOut first last).regs.lock = s.regs.lock := by
  unfold State.linesOut
  split <;> simp

@[simp] theorem State.exportMove_lock (s : State) (first last) : (s.exportMove first last).regs.lock = s.regs.lock := by
  unfold State.exportMove
  repeat' split
  all_goals simp

@[simp] theorem State.exportFinish_lock (s : State) : (s.exportFinish).regs.lock = s.regs.lock := by
  unfold State.exportFinish
  split <;> simp

@[simp] theorem State.exportDone_lock (s : State) : (s.exportDone).regs.lock = s.regs.lock := by
  unfold State.exportDone
  split <;> simp

@[simp] theorem State.importRead_lock (s : State) (h) : (s.importRead h).regs.lock = s.regs.lock := by
  unfold State.importRead
  dsimp only
  repeat' split
  all_goals simp

@[simp] theorem State.importStart_lock (s : State) (h) : (s.importStart h).regs.lock = s.regs.lock := by
  unfold State.importStart
  dsimp only
  repeat' split
  all_goals simp

@[simp] theorem State.importGroup_lock (s : State) (bs off n g epoch) :
    (s.importGroup bs off n g epoch).regs.lock = s.regs.lock := by simp [State.importGroup]
@[simp] theorem State.importAll_lock (s : State) (h bs secs) : (s.importAll h bs secs).regs.lock = s.regs.lock := by
  simp [State.importAll]

@[simp] theorem State.importFinish_lock (s : State) : (s.importFinish).regs.lock = s.regs.lock := by
  unfold State.importFinish
  split <;> simp

@[simp] theorem State.importDone_lock (s : State) : (s.importDone).regs.lock = s.regs.lock := by
  unfold State.importDone
  split <;> simp

@[simp] theorem State.runTask_lock (s : State) (t) : (s.runTask t).regs.lock = s.regs.lock := by
  cases t <;> simp [State.runTask]
@[simp] theorem State.mapItems_lock (s : State) (f) : (s.mapItems f).regs.lock = s.regs.lock := by simp [State.mapItems]
@[simp] theorem State.itemIssue_lock (s : State) (i) : (s.itemIssue i).regs.lock = s.regs.lock := by simp [State.itemIssue]
@[simp] theorem State.runItems_lock (s : State) : (s.runItems).regs.lock = s.regs.lock := by simp [State.runItems]

@[simp] theorem State.showExport_lock (s : State) : (s.showExport).regs.lock = s.regs.lock := by
  unfold State.showExport
  split <;> simp

@[simp] theorem State.payMoves_lock (s : State) (n) : (s.payMoves n).regs.lock = s.regs.lock := by
  unfold State.payMoves
  dsimp only
  split <;> simp

@[simp] theorem State.payDebt_lock (s : State) : (s.payDebt).regs.lock = s.regs.lock := by simp [State.payDebt]

end Sys2Proof.Machine
end

section
/-!
SUPPORT. LOCK under the work of banks, ports, repairs and the debug port (R57 to R130, R191 to R217, R447, R539 to R550, R525).
-/

namespace Sys2Proof.Machine

/-! ### Banks (R97, R191 to R217, R447) -/

@[simp] theorem State.pressing_lock (s : State) (k) : (s.pressing k).regs.lock = s.regs.lock := by simp [State.pressing]
@[simp] theorem State.bankFirst_lock (s : State) (k) : (s.bankFirst k).regs.lock = s.regs.lock := by simp [State.bankFirst]
@[simp] theorem State.goOn_lock (s : State) : (s.goOn).regs.lock = s.regs.lock := by simp [State.goOn]
@[simp] theorem State.idleRefresh_lock (s : State) (k) : (s.idleRefresh k).regs.lock = s.regs.lock := by simp [State.idleRefresh]
@[simp] theorem State.countFull_lock (s : State) (k) : (s.countFull k).regs.lock = s.regs.lock := by simp [State.countFull]
@[simp] theorem State.afterAccrual_locked (s : State) (k) (h : s.regs.lock = true) : (s.afterAccrual k).regs.lock = true := by
  simp [State.afterAccrual, h]
@[simp] theorem State.accrual_locked (s : State) (k) (h : s.regs.lock = true) : (s.accrual k).regs.lock = true := by
  simp [State.accrual, h]
@[simp] theorem State.grant_lock (s : State) (k ctx op g n) : (s.grant k ctx op g n).regs.lock = s.regs.lock := by
  simp [State.grant]
@[simp] theorem State.putScalar_lock (s : State) (k i v) : (s.putScalar k i v).regs.lock = s.regs.lock := by
  simp [State.putScalar]
@[simp] theorem State.putScalars_lock (s : State) (k start vs) : (s.putScalars k start vs).regs.lock = s.regs.lock := by
  simp [State.putScalars]
@[simp] theorem State.feedIntake_lock (s : State) (k start) : (s.feedIntake k start).regs.lock = s.regs.lock := by
  simp [State.feedIntake]
@[simp] theorem State.feedColumns_lock (s : State) (k c line) : (s.feedColumns k c line).regs.lock = s.regs.lock := by
  simp [State.feedColumns]
@[simp] theorem State.feedRing_lock (s : State) (k f) : (s.feedRing k f).regs.lock = s.regs.lock := by simp [State.feedRing]

@[simp] theorem State.feed_lock (s : State) (k ctx start) : (s.feed k ctx start).regs.lock = s.regs.lock := by
  unfold State.feed
  repeat' split
  all_goals simp

@[simp] theorem State.startCourse_lock (s : State) (k slot) : (s.startCourse k slot).regs.lock = s.regs.lock := by
  unfold State.startCourse
  dsimp only
  repeat' split
  all_goals simp

@[simp] theorem State.endCourse_lock (s : State) (k) : (s.endCourse k).regs.lock = s.regs.lock := by
  unfold State.endCourse
  dsimp only
  split <;> simp

@[simp] theorem State.weightsOut_lock (s : State) (k c line last) : (s.weightsOut k c line last).regs.lock = s.regs.lock := by
  unfold State.weightsOut
  split <;> simp

@[simp] theorem State.updBed_lock (s : State) (k work) : (s.updBed k work).regs.lock = s.regs.lock := by
  unfold State.updBed
  split <;> simp

@[simp] theorem State.bedWork_lock (s : State) (k ctx work) : (s.bedWork k ctx work).regs.lock = s.regs.lock := by
  unfold State.bedWork
  repeat' split
  all_goals simp

@[simp] theorem State.lastBed_lock (s : State) (k) : (s.lastBed k).regs.lock = s.regs.lock := by
  unfold State.lastBed
  split <;> simp

@[simp] theorem State.endCourses_lock (s : State) : (s.endCourses).regs.lock = s.regs.lock := by simp [State.endCourses]

@[simp] theorem State.patrolWord_lock (s : State) (p) : (s.patrolWord p).regs.lock = s.regs.lock := by
  unfold State.patrolWord
  dsimp only
  split <;> simp

@[simp] theorem State.patrolLine_lock (s : State) (k n) : (s.patrolLine k n).regs.lock = s.regs.lock := by simp [State.patrolLine]
@[simp] theorem State.patrolRow_lock (s : State) (k n) : (s.patrolRow k n).regs.lock = s.regs.lock := by simp [State.patrolRow]
@[simp] theorem State.patrolAccess_lock (s : State) (k) : (s.patrolAccess k).regs.lock = s.regs.lock := by
  simp [State.patrolAccess]
@[simp] theorem State.patrolTurn_lock (s : State) (k) : (s.patrolTurn k).regs.lock = s.regs.lock := by simp [State.patrolTurn]
@[simp] theorem State.patrolAt_lock (s : State) (k) : (s.patrolAt k).regs.lock = s.regs.lock := by simp [State.patrolAt]
@[simp] theorem State.patrolOpen_lock (s : State) (k) : (s.patrolOpen k).regs.lock = s.regs.lock := by simp [State.patrolOpen]
@[simp] theorem State.mortarTurn_lock (s : State) : (s.mortarTurn).regs.lock = s.regs.lock := by simp [State.mortarTurn]
@[simp] theorem State.afterCourse_locked (s : State) (k) (h : s.regs.lock = true) : (s.afterCourse k).regs.lock = true := by
  simp [State.afterCourse, h]

@[simp] theorem State.boundary_locked (s : State) (k ctx) (h : s.regs.lock = true) : (s.boundary k ctx).regs.lock = true := by
  unfold State.boundary
  dsimp only
  repeat' split
  all_goals simp [h]

@[simp] theorem State.bedEnd_locked (s : State) (k work) (h : s.regs.lock = true) : (s.bedEnd k work).regs.lock = true := by
  unfold State.bedEnd
  split <;> simp [h]

@[simp] theorem State.openBank_locked (s : State) (k) (h : s.regs.lock = true) : (s.openBank k).regs.lock = true := by
  simp [State.openBank, h]
@[simp] theorem State.windowEnd_locked (s : State) (h : s.regs.lock = true) : (s.windowEnd).regs.lock = true := by
  simp +contextual [State.windowEnd, h]
@[simp] theorem State.reservedSlot_lock (s : State) (k) : (s.reservedSlot k).regs.lock = s.regs.lock := by
  simp [State.reservedSlot]
@[simp] theorem State.edgeBank_locked (s : State) (k) (h : s.regs.lock = true) : (s.edgeBank k).regs.lock = true := by
  simp [State.edgeBank, h]
@[simp] theorem State.startCourses_lock (s : State) : (s.startCourses).regs.lock = s.regs.lock := by simp [State.startCourses]
@[simp] theorem State.payRefresh_lock (s : State) (k) : (s.payRefresh k).regs.lock = s.regs.lock := by simp [State.payRefresh]
@[simp] theorem State.srefChan_lock (s : State) (c) : (s.srefChan c).regs.lock = s.regs.lock := by simp [State.srefChan]
@[simp] theorem State.enterSref_lock (s : State) : (s.enterSref).regs.lock = s.regs.lock := by simp [State.enterSref]
@[simp] theorem State.leaveSref_lock (s : State) : (s.leaveSref).regs.lock = s.regs.lock := by simp [State.leaveSref]
@[simp] theorem State.saveContext_lock (s : State) (k ctx) : (s.saveContext k ctx).regs.lock = s.regs.lock := by
  simp [State.saveContext]
@[simp] theorem State.loadContext_lock (s : State) (k ctx) : (s.loadContext k ctx).regs.lock = s.regs.lock := by
  simp [State.loadContext]
@[simp] theorem State.saveBank_lock (s : State) (k) : (s.saveBank k).regs.lock = s.regs.lock := by simp [State.saveBank]
@[simp] theorem State.saveContexts_lock (s : State) : (s.saveContexts).regs.lock = s.regs.lock := by simp [State.saveContexts]
@[simp] theorem State.serveTakes_locked (s : State) (k) (h : s.regs.lock = true) : (s.serveTakes k).regs.lock = true := by
  simp [State.serveTakes, h]
@[simp] theorem State.lateSref_locked (s : State) (c k) (h : s.regs.lock = true) : (s.lateSref c k).regs.lock = true := by
  simp [State.lateSref, h]
@[simp] theorem State.loadContexts_lock (s : State) : (s.loadContexts).regs.lock = s.regs.lock := by simp [State.loadContexts]

@[simp] theorem State.enterEsr_locked (s : State) (c) (h : s.regs.lock = true) : (s.enterEsr c).regs.lock = true := by
  have hbanks : ((s.endCourses).waitingBanks.foldl (fun s k => s.serveTakes k) s.endCourses).regs.lock = true :=
    foldl_locked (fun k s hs => State.serveTakes_locked s k hs) _ _ (by simp [h])
  simp -implicitDefEqProofs [State.enterEsr, hbanks]

@[simp] theorem State.readSensors_lock (s : State) (temps) : (s.readSensors temps).regs.lock = s.regs.lock := by
  simp [State.readSensors]
@[simp] theorem State.esrExit_locked (s : State) (temps) (h : s.regs.lock = true) : (s.esrExit temps).regs.lock = true := by
  simp -implicitDefEqProofs [State.esrExit, h]
@[simp] theorem State.dieTrips_lock (s : State) (d) : (s.dieTrips d).regs.lock = s.regs.lock := by simp [State.dieTrips]
@[simp] theorem State.thermTrip_locked (s : State) (c) (h : s.regs.lock = true) : (s.thermTrip c).regs.lock = true := by
  simp [State.thermTrip, h]
@[simp] theorem State.tierRead_locked (s : State) (di ts) (h : s.regs.lock = true) : (s.tierRead di ts).regs.lock = true := by
  simp [State.tierRead, h]
@[simp] theorem State.tierLower_lock (s : State) (di) : (s.tierLower di).regs.lock = s.regs.lock := by simp [State.tierLower]
@[simp] theorem State.alertPulse_lock (s : State) (c ignored) : (s.alertPulse c ignored).regs.lock = s.regs.lock := by
  simp [State.alertPulse]

/-! ### The control port and the fabric port (R57 to R77) -/

@[simp] theorem State.capture_lock (s : State) (low v phase) : (s.capture low v phase).regs.lock = s.regs.lock := by
  simp [State.capture]

@[simp] theorem State.ctHigh_lock (s : State) (low now) : (s.ctHigh low now).2.regs.lock = s.regs.lock := by
  unfold State.ctHigh
  repeat' split
  all_goals simp

@[simp] theorem State.ctPhase_lock (s : State) (now) : (s.ctPhase now).2.regs.lock = s.regs.lock := by
  unfold State.ctPhase
  repeat' split
  all_goals simp

@[simp] theorem State.ctWord_lock (s : State) (off) : (s.ctWord off).2.regs.lock = s.regs.lock := by
  unfold State.ctWord
  split <;> simp

@[simp] theorem State.ctRead_lock (s : State) (off) : (s.ctRead off).regs.lock = s.regs.lock := by simp [State.ctRead]

@[simp] theorem State.ctWrite_locked (s : State) (off v) (h : s.regs.lock = true) : (s.ctWrite off v).regs.lock = true := by
  unfold State.ctWrite
  dsimp only
  repeat' split
  all_goals simp [h]
@[simp] theorem State.fabricTake_lock (s : State) (beats src tag) {body : State → State} (hb : KeepsLock body) :
    (s.fabricTake beats src tag body).regs.lock = s.regs.lock := by
  simp [State.fabricTake, hb _]

@[simp] theorem State.fabPerform_lock (s : State) (a) : (s.fabPerform a).regs.lock = s.regs.lock := by simp [State.fabPerform]

@[simp] theorem State.fabCclk_lock (s : State) (w) : (s.fabCclk w).regs.lock = s.regs.lock := by
  unfold State.fabCclk
  split <;> simp

@[simp] theorem State.fabLatch_lock (s : State) (src tag want) : (s.fabLatch src tag want).regs.lock = s.regs.lock := by
  simp [State.fabLatch]
@[simp] theorem State.fabResume_lock (s : State) : (s.fabResume).regs.lock = s.regs.lock := by simp [State.fabResume]

@[simp] theorem State.fabRead_lock (s : State) (src tag off) : (s.fabRead src tag off).regs.lock = s.regs.lock := by
  unfold State.fabRead
  dsimp only
  repeat' split
  all_goals simp

@[simp] theorem State.fabLine_lock (s : State) (src off d c) : (s.fabLine src off d c).2.2.regs.lock = s.regs.lock := by
  simp [State.fabLine]

@[simp] theorem State.fabWrite_lock (s : State) (src tag off d c) : (s.fabWrite src tag off d c).regs.lock = s.regs.lock := by
  unfold State.fabWrite
  dsimp only
  repeat' split
  all_goals simp

@[simp] theorem State.fabSeal_lock (s : State) (src tag off d c) : (s.fabSeal src tag off d c).regs.lock = s.regs.lock := by
  simp [State.fabSeal]
@[simp] theorem State.fabAtomic_lock (s : State) (isCas src tag off data chk) :
    (s.fabAtomic isCas src tag off data chk).regs.lock = s.regs.lock := by simp [State.fabAtomic]

@[simp] theorem State.heldRelease_lock (s : State) (src) : (s.heldRelease src).regs.lock = s.regs.lock := by
  unfold State.heldRelease
  repeat' split
  all_goals simp

@[simp] theorem State.countLate_lock (s : State) : (s.countLate).regs.lock = s.regs.lock := by simp [State.countLate]
@[simp] theorem State.fabReserved_lock (s : State) (src vc type tag) :
    (s.fabReserved src vc type tag).regs.lock = s.regs.lock := by simp [State.fabReserved]

@[simp] theorem State.pullWrite_lock (s : State) (p l vs) : (s.pullWrite p l vs).regs.lock = s.regs.lock := by
  unfold State.pullWrite
  dsimp only
  split <;> simp

@[simp] theorem State.pullArrive_lock (s : State) (p what vs timedOut) :
    (s.pullArrive p what vs timedOut).regs.lock = s.regs.lock := by
  unfold State.pullArrive
  dsimp only
  repeat' split
  all_goals simp

@[simp] theorem State.outboundDone_lock (s : State) (o vs timedOut) : (s.outboundDone o vs timedOut).regs.lock = s.regs.lock := by
  unfold State.outboundDone
  dsimp only
  split <;> simp

@[simp] theorem State.fabResponse_lock (s : State) (tag) {use : State → OutRead → State} (hu : ∀ o, KeepsLock (use · o)) :
    (s.fabResponse tag use).regs.lock = s.regs.lock := by
  unfold State.fabResponse
  split
  · simp
  · simp [hu _ s]

@[simp] theorem State.loseOutbound_lock (s : State) : (s.loseOutbound).regs.lock = s.regs.lock := by simp [State.loseOutbound]

@[simp] theorem State.pullStart_lock (s : State) (h) : (s.pullStart h).regs.lock = s.regs.lock := by
  unfold State.pullStart
  dsimp only
  split <;> simp

@[simp] theorem State.pullLineIn_lock (s : State) (o data chk) : (s.pullLineIn o data chk).regs.lock = s.regs.lock := by
  simp [State.pullLineIn]

/-! ### Repairs and the scrub pass (R126 to R130, R185, R470) -/

@[simp] theorem State.softMap_lock (s : State) (bank row spare) : (s.softMap bank row spare).regs.lock = s.regs.lock := by
  unfold State.softMap
  dsimp only
  split <;> simp

@[simp] theorem State.noteCalib_lock (s : State) : (s.noteCalib).regs.lock = s.regs.lock := by simp [State.noteCalib]
@[simp] theorem State.copyRow_lock (s : State) (bank row spare) : (s.copyRow bank row spare).regs.lock = s.regs.lock := by
  simp [State.copyRow]
@[simp] theorem State.readRow_lock (s : State) (bank row det) : (s.readRow bank row det).regs.lock = s.regs.lock := by
  simp [State.readRow]

@[simp] theorem State.repairEnd_lock (s : State) (hasp st payload) : (s.repairEnd hasp st payload).regs.lock = s.regs.lock := by
  unfold State.repairEnd
  split <;> simp

@[simp] theorem State.releaseBank_locked (s : State) (k) (h : s.regs.lock = true) : (s.releaseBank k).regs.lock = true := by
  simp [State.releaseBank, h]

@[simp] theorem State.softBegin_lock (s : State) (hasp bank row) : (s.softBegin hasp bank row).regs.lock = s.regs.lock := by
  unfold State.softBegin
  dsimp only
  split <;> simp

@[simp] theorem State.softDone_locked (s : State) (h : s.regs.lock = true) : (s.softDone).regs.lock = true := by
  unfold State.softDone
  split <;> simp [h]

@[simp] theorem State.fuseBegin_lock (s : State) (hasp bank row) : (s.fuseBegin hasp bank row).regs.lock = s.regs.lock := by
  unfold State.fuseBegin
  dsimp only
  split <;> simp

@[simp] theorem State.fuseIssue_lock (s : State) : (s.fuseIssue).regs.lock = s.regs.lock := by
  unfold State.fuseIssue
  split <;> simp

@[simp] theorem State.readRepairPage_lock (s : State) (bank) : (s.readRepairPage bank).regs.lock = s.regs.lock := by
  simp [State.readRepairPage]
@[simp] theorem State.lateEntry_locked (s : State) (bank) (h : s.regs.lock = true) : (s.lateEntry bank).regs.lock = true := by
  simp [State.lateEntry, h]

@[simp] theorem State.fuseFinish_locked (s : State) (h : s.regs.lock = true) : (s.fuseFinish).regs.lock = true := by
  unfold State.fuseFinish
  split <;> simp [h]

@[simp] theorem State.fprogDone_locked (s : State) (refused) (h : s.regs.lock = true) :
    (s.fprogDone refused).regs.lock = true := by
  unfold State.fprogDone
  split <;> simp [h]

@[simp] theorem State.fuseTimeout_locked (s : State) (h : s.regs.lock = true) : (s.fuseTimeout).regs.lock = true := by
  unfold State.fuseTimeout
  split <;> simp [h]

@[simp] theorem State.repairSoft_lock (s : State) (h) : (s.repairSoft h).regs.lock = s.regs.lock := by simp [State.repairSoft]
@[simp] theorem State.repairFuse_lock (s : State) (h) : (s.repairFuse h).regs.lock = s.regs.lock := by simp [State.repairFuse]
@[simp] theorem State.scrubStart_lock (s : State) (h) : (s.scrubStart h).regs.lock = s.regs.lock := by simp [State.scrubStart]

@[simp] theorem State.scrubTurn_lock (s : State) : (s.scrubTurn).regs.lock = s.regs.lock := by
  unfold State.scrubTurn
  split <;> simp

@[simp] theorem State.scrubReport_lock (s : State) : (s.scrubReport).regs.lock = s.regs.lock := by
  unfold State.scrubReport
  split <;> simp

/-! ### The debug port (R539 to R550) -/

@[simp] theorem State.selects_lock (s : State) (ir v) : (s.selects ir v).regs.lock = s.regs.lock := by simp [State.selects]
@[simp] theorem State.challengeRequest_lock (s : State) : (s.challengeRequest).regs.lock = s.regs.lock := by
  simp [State.challengeRequest]
@[simp] theorem State.challengeFail_lock (s : State) (f) : (s.challengeFail f).regs.lock = s.regs.lock := by
  simp [State.challengeFail]

@[simp] theorem State.challengeDrawn_lock (s : State) (bits) : (s.challengeDrawn bits).regs.lock = s.regs.lock := by
  unfold State.challengeDrawn
  split <;> simp

@[simp] theorem State.challengeExpire_lock (s : State) : (s.challengeExpire).regs.lock = s.regs.lock := by
  simp [State.challengeExpire]
@[simp] theorem State.refuseResponse_lock (s : State) : (s.refuseResponse).regs.lock = s.regs.lock := by
  simp [State.refuseResponse]
@[simp] theorem State.response_lock (s : State) (r) : (s.response r).regs.lock = s.regs.lock := by simp [State.response]

@[simp] theorem State.verified_lock (s : State) : (s.verified).regs.lock = s.regs.lock := by
  unfold State.verified
  split <;> simp

@[simp] theorem State.lockoutEnd_lock (s : State) : (s.lockoutEnd).regs.lock = s.regs.lock := by
  unfold State.lockoutEnd
  split <;> simp

@[simp] theorem State.trst_lock (s : State) : (s.trst).regs.lock = s.regs.lock := by simp [State.trst]
@[simp] theorem State.haltAt_lock (s : State) (cause) : (s.haltAt cause).regs.lock = s.regs.lock := by simp [State.haltAt]
@[simp] theorem State.resumeWarden_lock (s : State) : (s.resumeWarden).regs.lock = s.regs.lock := by simp [State.resumeWarden]
@[simp] theorem State.stepWarden_lock (s : State) : (s.stepWarden).regs.lock = s.regs.lock := by simp [State.stepWarden]

@[simp] theorem State.dbRun_lock (s : State) (v) : (s.dbRun v).regs.lock = s.regs.lock := by
  unfold State.dbRun
  split <;> simp

@[simp] theorem State.setBkpt_lock (s : State) (v) : (s.setBkpt v).regs.lock = s.regs.lock := by simp [State.setBkpt]
@[simp] theorem State.setWatch_lock (s : State) (v) : (s.setWatch v).regs.lock = s.regs.lock := by simp [State.setWatch]
@[simp] theorem State.hit_lock (s : State) (enabled cause index) : (s.hit enabled cause index).regs.lock = s.regs.lock := by
  simp [State.hit]
@[simp] theorem State.dbSetResult_lock (s : State) (r) : (s.dbSetResult r).regs.lock = s.regs.lock := by simp [State.dbSetResult]
@[simp] theorem State.dbHaspWrite_lock (s : State) (o u) : (s.dbHaspWrite o u).regs.lock = s.regs.lock := by
  simp [State.dbHaspWrite]
@[simp] theorem State.dbHaspRead_lock (s : State) (o) : (s.dbHaspRead o).regs.lock = s.regs.lock := by simp [State.dbHaspRead]

@[simp] theorem State.dbControl_locked (s : State) (off u) (h : s.regs.lock = true) : (s.dbControl off u).regs.lock = true := by
  unfold State.dbControl
  dsimp only
  repeat' split
  all_goals simp [h]

@[simp] theorem State.dbPages_lock (s : State) (off u) : (s.dbPages off u).regs.lock = s.regs.lock := by simp [State.dbPages]
@[simp] theorem State.dbMortar_lock (s : State) (u) : (s.dbMortar u).regs.lock = s.regs.lock := by simp [State.dbMortar]
@[simp] theorem State.dbPerform_locked (s : State) (u) (h : s.regs.lock = true) : (s.dbPerform u).regs.lock = true := by
  simp [State.dbPerform, h]

@[simp] theorem State.dbStart_lock (s : State) (u) : (s.dbStart u).regs.lock = s.regs.lock := by
  unfold State.dbStart
  split
  · rfl
  · extract_lets write d1 s1 d2 s2 a
    have h2 : s2.regs.lock = s.regs.lock := rfl
    clear_value s2
    split
    · exact h2
    · split
      · simp [h2]
      · exact h2

@[simp] theorem State.dbNext_lock (s : State) : (s.dbNext).regs.lock = s.regs.lock := by
  unfold State.dbNext
  split <;> simp

@[simp] theorem State.dbDone_locked (s : State) (h : s.regs.lock = true) : (s.dbDone).regs.lock = true := by
  unfold State.dbDone
  split <;> simp [h]

@[simp] theorem State.dbRepair_lock (s : State) (v) : (s.dbRepair v).regs.lock = s.regs.lock := by simp [State.dbRepair]

@[simp] theorem State.tapUpdate_lock (s : State) (ir v) : (s.tapUpdate ir v).regs.lock = s.regs.lock := by
  unfold State.tapUpdate
  split <;> simp

@[simp] theorem State.tapCross_lock (s : State) (ir v) : (s.tapCross ir v).regs.lock = s.regs.lock := by simp [State.tapCross]

/-! ### Pintle ports (R41 to R52) -/

@[simp] theorem State.settle_lock (s : State) (port) : (s.settle port).regs.lock = s.regs.lock := by simp [State.settle]
@[simp] theorem State.settleAll_lock (s : State) : (s.settleAll).regs.lock = s.regs.lock := by simp [State.settleAll]
@[simp] theorem State.pintleTake_locked (s : State) (r) (h : s.regs.lock = true) : (s.pintleTake r).regs.lock = true := by
  simp [State.pintleTake, h]

@[simp] theorem State.pintleSend_lock (s : State) (port) : (s.pintleSend port).regs.lock = s.regs.lock := by
  unfold State.pintleSend
  dsimp only
  split <;> simp

end Sys2Proof.Machine
end

section
/-!
SUPPORT. LOCK under ticks, clocks, firmware, supply events and starts (R82 to R89, R436 to R468, R473 to R479, R525).  The rise of CY_RST_N
alone gives it its Reset column, and has no lemma here.
-/

namespace Sys2Proof.Machine

/-! ### Ticks and clocks (R89, R436 to R446, R555 to R559) -/

@[simp] theorem State.divideFrom_lock (s : State) (cs left used) : (s.divideFrom cs left used).regs.lock = s.regs.lock := by
  induction cs generalizing s left used with
  | nil => rfl
  | cons c rest ih => simp [State.divideFrom, ih]

@[simp] theorem State.divide_lock (s : State) : (s.divide).regs.lock = s.regs.lock := by simp [State.divide]
@[simp] theorem State.grantUnits_lock (s : State) (units ks) : (s.grantUnits units ks).regs.lock = s.regs.lock := by
  simp [State.grantUnits]
@[simp] theorem State.planTick_lock (s : State) : (s.planTick).regs.lock = s.regs.lock := by simp [State.planTick]
@[simp] theorem State.throttleDies_lock (s : State) : (s.throttleDies).regs.lock = s.regs.lock := by simp [State.throttleDies]
@[simp] theorem State.closeCeWindow_lock (s : State) (t) : (s.closeCeWindow t).regs.lock = s.regs.lock := by
  simp [State.closeCeWindow]
@[simp] theorem State.closeWindows_lock (s : State) (t) : (s.closeWindows t).regs.lock = s.regs.lock := by
  simp [State.closeWindows]

@[simp] theorem State.writeWindow_lock (s : State) (sixty) : (s.writeWindow sixty).regs.lock = s.regs.lock := by
  unfold State.writeWindow
  dsimp only
  split <;> simp

@[simp] theorem State.chargeTick_lock (s : State) (n) : (s.chargeTick n).regs.lock = s.regs.lock := by simp [State.chargeTick]

@[simp] theorem State.fillBucket_lock (s : State) : (s.fillBucket).regs.lock = s.regs.lock := by
  unfold State.fillBucket
  dsimp only
  split <;> simp

@[simp] theorem State.hostOver_lock (s : State) : (s.hostOver).regs.lock = s.regs.lock := by simp [State.hostOver]
@[simp] theorem State.tickFlags_lock (s : State) : (s.tickFlags).regs.lock = s.regs.lock := by simp [State.tickFlags]
@[simp] theorem State.edgeDies_lock (s : State) : (s.edgeDies).regs.lock = s.regs.lock := by simp [State.edgeDies]
@[simp] theorem State.zeroUse_lock (s : State) : (s.zeroUse).regs.lock = s.regs.lock := by simp [State.zeroUse]
@[simp] theorem State.edgeCounts_lock (s : State) : (s.edgeCounts).regs.lock = s.regs.lock := by simp [State.edgeCounts]
@[simp] theorem State.edgeScrub_lock (s : State) : (s.edgeScrub).regs.lock = s.regs.lock := by simp [State.edgeScrub]
@[simp] theorem State.edgeBanks_locked (s : State) (h : s.regs.lock = true) : (s.edgeBanks).regs.lock = true := by
  simp +contextual [State.edgeBanks, h]
@[simp] theorem State.nextTick_lock (s : State) : (s.nextTick).regs.lock = s.regs.lock := by simp [State.nextTick]
@[simp] theorem State.tickEdge_locked (s : State) (n) (h : s.regs.lock = true) : (s.tickEdge n).regs.lock = true := by
  simp [State.tickEdge, h]
@[simp] theorem State.capLevel_lock (s : State) (level) : (s.capLevel level).regs.lock = s.regs.lock := by
  simp -implicitDefEqProofs [State.capLevel]
@[simp] theorem State.sense_lock (s : State) (rail data) : (s.sense rail data).regs.lock = s.regs.lock := by simp [State.sense]

@[simp] theorem State.capArrives_lock (s : State) : (s.capArrives).regs.lock = s.regs.lock := by
  unfold State.capArrives
  split <;> simp
@[simp] theorem State.holdRise_lock (s : State) : (s.holdRise).regs.lock = s.regs.lock := by simp [State.holdRise]
@[simp] theorem State.aclkIdle_lock (s : State) : (s.aclkIdle).regs.lock = s.regs.lock := by simp [State.aclkIdle]
@[simp] theorem State.holdFall_lock (s : State) (pt) : (s.holdFall pt).regs.lock = s.regs.lock := by simp [State.holdFall]
@[simp] theorem State.stopRef_lock (s : State) : (s.stopRef).regs.lock = s.regs.lock := by simp [State.stopRef]
@[simp] theorem State.stopClock_lock (s : State) (d) : (s.stopClock d).regs.lock = s.regs.lock := by simp [State.stopClock]
@[simp] theorem State.clockStopped_lock (s : State) (d) : (s.clockStopped d).regs.lock = s.regs.lock := by
  simp [State.clockStopped]
@[simp] theorem State.oweFull_locked (s : State) (k) (h : s.regs.lock = true) : (s.oweFull k).regs.lock = true := by
  simp [State.oweFull, h]
@[simp] theorem State.oweAll_locked (s : State) (h : s.regs.lock = true) : (s.oweAll).regs.lock = true := by
  simp +contextual [State.oweAll, h]
@[simp] theorem State.findTrips_locked (s : State) (h : s.regs.lock = true) : (s.findTrips).regs.lock = true := by
  simp +contextual [State.findTrips, h]

@[simp] theorem State.arrive_lock (s : State) (w) : (s.arrive w).regs.lock = s.regs.lock := by
  unfold State.arrive
  split <;> simp

@[simp] theorem State.arriveAll_lock (s : State) : (s.arriveAll).regs.lock = s.regs.lock := by simp [State.arriveAll]

@[simp] theorem State.clockRestart_locked (s : State) (d) (h : s.regs.lock = true) : (s.clockRestart d).regs.lock = true := by
  have hidle (t : State) (ht : t.regs.lock = true) : t.oweAll.serveAllIdle.regs.lock = true := by simp [ht]
  simp [State.clockRestart, hidle, h]

/-! ### Firmware images, sags, SHUTDOWN and supply (R82 to R87, R455, R473 to R479, R502) -/

@[simp] theorem State.setSlot_lock (s : State) (b f) : (s.setSlot b f).regs.lock = s.regs.lock := by simp [State.setSlot]

@[simp] theorem State.fwStage_lock (s : State) (h) : (s.fwStage h).regs.lock = s.regs.lock := by
  unfold State.fwStage
  dsimp only
  repeat' split
  all_goals simp

@[simp] theorem State.fwLock_lock (s : State) (h burnt) : (s.fwLock h burnt).regs.lock = s.regs.lock := by simp [State.fwLock]
@[simp] theorem State.refuseAccess_lock (s : State) (a) : (s.refuseAccess a).regs.lock = s.regs.lock := by
  unfold State.refuseAccess
  repeat' split
  all_goals simp

@[simp] theorem State.dropQueues_lock (s : State) : (s.dropQueues).regs.lock = s.regs.lock := by simp [State.dropQueues]
@[simp] theorem State.refuseWaiting_lock (s : State) : (s.refuseWaiting).regs.lock = s.regs.lock := by simp [State.refuseWaiting]
@[simp] theorem State.endBankWork_lock (s : State) : (s.endBankWork).regs.lock = s.regs.lock := by simp [State.endBankWork]

@[simp] theorem State.endFprog_lock (s : State) : (s.endFprog).regs.lock = s.regs.lock := by
  unfold State.endFprog
  split <;> simp

@[simp] theorem State.undraw_lock (s : State) : (s.undraw).regs.lock = s.regs.lock := by
  unfold State.undraw
  split <;> simp

@[simp] theorem State.stopExport_lock (s : State) : (s.stopExport).regs.lock = s.regs.lock := by simp [State.stopExport]
@[simp] theorem State.dropBackground_lock (s : State) : (s.dropBackground).regs.lock = s.regs.lock := by
  simp [State.dropBackground]
@[simp] theorem State.abortBackground_lock (s : State) : (s.abortBackground).regs.lock = s.regs.lock := by
  simp [State.abortBackground]
@[simp] theorem State.srefTrained_lock (s : State) : (s.srefTrained).regs.lock = s.regs.lock := by simp [State.srefTrained]
@[simp] theorem State.saveRingsOnce_lock (s : State) (esr) : (s.saveRingsOnce esr).regs.lock = s.regs.lock := by
  simp [State.saveRingsOnce]
@[simp] theorem State.writeSpill_lock (s : State) (cause) : (s.writeSpill cause).regs.lock = s.regs.lock := by
  simp [State.writeSpill]
@[simp] theorem State.leave_lock (s : State) (m) : (s.leave m).regs.lock = s.regs.lock := by simp [State.leave]
@[simp] theorem State.deadbolt_lock (s : State) (cause) : (s.deadbolt cause).regs.lock = s.regs.lock := by simp [State.deadbolt]
@[simp] theorem State.sagPorts_lock (s : State) : (s.sagPorts).regs.lock = s.regs.lock := by simp [State.sagPorts]
@[simp] theorem State.deliverLost_locked (s : State) (h : s.regs.lock = true) : (s.deliverLost).regs.lock = true := by
  simp [State.deliverLost, h]
@[simp] theorem State.vddsFar_lock (s : State) : (s.vddsFar).regs.lock = s.regs.lock := by simp [State.vddsFar]

@[simp] theorem State.sagAccept_locked (s : State) (h : s.regs.lock = true) : (s.sagAccept).regs.lock = true := by
  unfold State.sagAccept
  split <;> simp [h]

@[simp] theorem State.dboltDone_lock (s : State) : (s.dboltDone).regs.lock = s.regs.lock := by
  unfold State.dboltDone
  split <;> simp

@[simp] theorem State.shutdown_locked (s : State) (b) (h : s.regs.lock = true) : (s.shutdown b).regs.lock = true := by
  simp [State.shutdown, h]
@[simp] theorem State.resetStack_lock (s : State) : (s.resetStack).regs.lock = s.regs.lock := by simp [State.resetStack]
@[simp] theorem State.assertReset_lock (s : State) : (s.assertReset).regs.lock = s.regs.lock := by simp [State.assertReset]
@[simp] theorem State.vddSLoss_lock (s : State) : (s.vddSLoss).regs.lock = s.regs.lock := by simp [State.vddSLoss]
@[simp] theorem State.vddCRemoval_lock (s : State) : (s.vddCRemoval).regs.lock = s.regs.lock := by simp [State.vddCRemoval]

/-! ### Starts (R459 to R478) -/

/-- The state in which a stretch of an attempt ends. -/
def Attempt.state : Attempt → State
  | .go s => s
  | .fail s _ => s
  | .hold s => s

@[simp] theorem Attempt.state_go (s : State) : (Attempt.go s).state = s := rfl
@[simp] theorem Attempt.state_fail (s : State) (c : Nat) : (Attempt.fail s c).state = s := rfl
@[simp] theorem Attempt.state_hold (s : State) : (Attempt.hold s).state = s := rfl
@[simp] theorem Attempt.ite_state (c : Prop) [Decidable c] (a b : Attempt) :
    (if c then a else b).state = if c then a.state else b.state := apply_ite ..

@[simp] theorem State.idrPage_lock (s : State) (p) : (s.idrPage p).regs.lock = s.regs.lock := by simp [State.idrPage]
@[simp] theorem State.readPages_lock (s : State) : (s.readPages).regs.lock = s.regs.lock := by simp [State.readPages]
@[simp] theorem State.inPhase_lock (s : State) (p) : (s.inPhase p).regs.lock = s.regs.lock := by simp [State.inPhase]
@[simp] theorem State.stkRst_lock (s : State) : (s.stkRst).regs.lock = s.regs.lock := by simp [State.stkRst]
@[simp] theorem State.shutDebug_lock (s : State) : (s.shutDebug).regs.lock = s.regs.lock := by simp [State.shutDebug]
@[simp] theorem State.clearMark_lock (s : State) : (s.clearMark).regs.lock = s.regs.lock := by simp [State.clearMark]
@[simp] theorem State.asKind_lock (s : State) (k) : (s.asKind k).regs.lock = s.regs.lock := by simp [State.asKind]
@[simp] theorem State.failAttempt_lock (s : State) (cause) : (s.failAttempt cause).regs.lock = s.regs.lock := by
  simp [State.failAttempt]
@[simp] theorem State.trn_lock (s : State) (c arg) : (s.trn c arg).regs.lock = s.regs.lock := by simp [State.trn]
@[simp] theorem State.noteMargin_lock (s : State) (e c ifs) : (s.noteMargin e c ifs).regs.lock = s.regs.lock := by
  simp [State.noteMargin]
@[simp] theorem State.applyLanes_lock (s : State) (e l) : (s.applyLanes e l).regs.lock = s.regs.lock := by simp [State.applyLanes]

@[simp] theorem State.issueTsv_lock (s : State) (e) : (s.issueTsv e).regs.lock = s.regs.lock := by
  unfold State.issueTsv
  split
  · rfl
  · exact foldl_lock (fun x s => by dsimp only; split <;> simp) _ _

@[simp] theorem State.putCalib_lock (s : State) (f) : (s.putCalib f).regs.lock = s.regs.lock := by simp [State.putCalib]
@[simp] theorem State.train_lock (s : State) (e) : (s.train e).1.regs.lock = s.regs.lock := by simp [State.train]
@[simp] theorem State.lanes_lock (s : State) (e) : (s.lanes e).1.regs.lock = s.regs.lock := by simp [State.lanes]
@[simp] theorem State.lostRow_lock (s : State) (bank row spare) : (s.lostRow bank row spare).regs.lock = s.regs.lock := by
  simp [State.lostRow]
@[simp] theorem State.reapplySoft_lock (s : State) : (s.reapplySoft).regs.lock = s.regs.lock := by simp [State.reapplySoft]

@[simp] theorem State.checkPending_lock (s : State) : (s.checkPending).regs.lock = s.regs.lock := by
  unfold State.checkPending
  split <;> simp

@[simp] theorem State.readRecords_lock (s : State) (calOk) : (s.readRecords calOk).regs.lock = s.regs.lock := by
  simp [State.readRecords]
@[simp] theorem State.phase5_lock (s : State) (e stored calOk) : (s.phase5 e stored calOk).state.regs.lock = s.regs.lock := by
  simp -implicitDefEqProofs [State.phase5]
@[simp] theorem State.runImage_lock (s : State) (f) : (s.runImage f).regs.lock = s.regs.lock := by simp [State.runImage]
@[simp] theorem State.bistFrames_lock (s : State) (k was) : (s.bistFrames k was).regs.lock = s.regs.lock := by
  simp [State.bistFrames]
@[simp] theorem State.marchStack_lock (s : State) : (s.marchStack).regs.lock = s.regs.lock := by simp [State.marchStack]

@[simp] theorem State.bist_lock (s : State) (e ks) : (s.bist e ks).1.regs.lock = s.regs.lock := by
  induction ks generalizing s with
  | nil => rfl
  | cons k ks ih => simp [State.bist, ih]

@[simp] theorem State.coldState_lock (s : State) (img) : (s.coldState img).regs.lock = s.regs.lock := by simp [State.coldState]

@[simp] theorem State.restoreImage_lock (s : State) : (s.restoreImage).regs.lock = s.regs.lock := by
  unfold State.restoreImage
  split <;> simp

@[simp] theorem State.stopRings_lock (s : State) : (s.stopRings).regs.lock = s.regs.lock := by simp [State.stopRings]
@[simp] theorem State.phase9_lock (s : State) : (s.phase9).regs.lock = s.regs.lock := by simp [State.phase9]
@[simp] theorem State.phases7_lock (s : State) (e img) : (s.phases7 e img).state.regs.lock = s.regs.lock := by
  simp -implicitDefEqProofs [State.phases7]
@[simp] theorem State.phase6_lock (s : State) (e kept) : (s.phase6 e kept).state.regs.lock = s.regs.lock := by
  simp [State.phase6]

@[simp] theorem State.phases3_lock (s : State) (e) : (s.phases3 e).state.regs.lock = s.regs.lock := by
  unfold State.phases3
  extract_lets s1 clk s2 start s3 calOk kept l
  have h3 : s3.regs.lock = s.regs.lock := by
    have h2 : s2.regs.lock = s.regs.lock := by simp [s2, s1]
    unfold s3
    split
    · exact h2
    · rfl
  have hl : l.1.regs.lock = s.regs.lock := by simp [l, h3]
  have h5 : (l.1.phase5 e l.2.1 calOk).state.regs.lock = s.regs.lock := by rw [State.phase5_lock, hl]
  clear_value s3 l
  split
  · exact h3
  · split
    · exact hl
    · split
      all_goals next heq => simpa [heq] using h5

@[simp] theorem State.phases1_lock (s : State) (e) : (s.phases1 e).state.regs.lock = s.regs.lock := by
  simp -implicitDefEqProofs [State.phases1]

@[simp] theorem State.attempts_lock (r : Attempt) (envs n) : (State.attempts r envs n).regs.lock = r.state.regs.lock := by
  induction n generalizing r envs with
  | zero => cases r <;> simp [State.attempts]
  | succ n ih => cases r <;> simp [State.attempts, ih]

@[simp] theorem State.dropScratch_lock (s : State) : (s.dropScratch).regs.lock = s.regs.lock := by simp [State.dropScratch]
@[simp] theorem State.beginStart_lock (s : State) (kind) : (s.beginStart kind).regs.lock = s.regs.lock := by
  simp [State.beginStart]
@[simp] theorem State.sagClear_lock (s : State) (envs) : (s.sagClear envs).regs.lock = s.regs.lock := by
  simp [State.sagClear]
@[simp] theorem State.thermalWait_lock (s : State) (temps envs) : (s.thermalWait temps envs).regs.lock = s.regs.lock := by
  simp -implicitDefEqProofs [State.thermalWait]

@[simp] theorem State.fwLoadEnd_lock (s : State) (envs) : (s.fwLoadEnd envs).regs.lock = s.regs.lock := by
  unfold State.fwLoadEnd
  dsimp only
  split
  · simp
  · split <;> simp

@[simp] theorem State.fwWaitExpiry_lock (s : State) (envs) : (s.fwWaitExpiry envs).regs.lock = s.regs.lock := by
  simp [State.fwWaitExpiry]
@[simp] theorem State.startUse_lock (s : State) : (s.startUse).regs.lock = s.regs.lock := by simp [State.startUse]
@[simp] theorem State.plumbStart_lock (s : State) : (s.plumbStart).regs.lock = s.regs.lock := by simp [State.plumbStart]

@[simp] theorem State.endActivate_lock (s : State) : (s.endActivate).regs.lock = s.regs.lock := by
  unfold State.endActivate
  split <;> simp

@[simp] theorem State.startComplete_lock (s : State) (fclk) : (s.startComplete fclk).regs.lock = s.regs.lock := by
  simp [State.startComplete]
@[simp] theorem State.fclkRecheck_lock (s : State) (fclk) : (s.fclkRecheck fclk).regs.lock = s.regs.lock := by
  simp [State.fclkRecheck]

@[simp] theorem State.restart_locked (s : State) (h startOk restoreOk envs) (hl : s.regs.lock = true) :
    (s.restart h startOk restoreOk envs).regs.lock = true := by
  unfold State.restart
  extract_lets staged s1 s2 s3 start s4 bad s5 r s6
  have hbad (t : State) (c : Nat) (ht : t.regs.lock = true) : (bad t c).regs.lock = true := by simp [bad, ht]
  have h2 : s2.regs.lock = true := by simp [s2, s1, hl]
  clear_value s2
  have h4 : s4.regs.lock = true := by simp [s4, s3, h2]
  have h5 : s5.regs.lock = true := by simp [s5, h4]
  have h6 : s6.regs.lock = true := by simp [s6, r, h5]
  clear_value s4 s5 s6 bad
  split
  · exact hbad _ _ h4
  · split
    · exact hbad _ _ h5
    · split
      · exact hbad _ _ h6
      · split
        · exact hbad _ _ h6
        · exact h6

@[simp] theorem State.fwActivate_locked (s : State) (h b c d envs) (hl : s.regs.lock = true) :
    (s.fwActivate h b c d envs).regs.lock = true := by
  simp [State.fwActivate, hl]

end Sys2Proof.Machine
end

section
/-!
PROOF. CY_CTRL (O56): what LOCK and the writes of CY_CTRL and of RWL fields store, what CY_CTRL reads, and that no command but
CY_RST_N_DEASSERT clears LOCK (R525).
-/

namespace Sys2Proof.Machine

/-! ### No command clears LOCK -/

/-- Where the command has an effect, LOCK is 1 after it. -/
def LocksAfter (o : Host.Outcome State Fault Refusal) : Prop := ∀ t, o = .next t → t.regs.lock = true

@[simp] theorem locksAfter_next (t : State) : LocksAfter (.next t) ↔ t.regs.lock = true :=
  ⟨fun h => h t rfl, fun h u hu => by cases hu; exact h⟩

@[simp] theorem locksAfter_guard {ok : Bool} {t : State} (h : t.regs.lock = true) : LocksAfter (guard ok t) :=
  fun u hu => by rw [(guard_eq_next.1 hu).2, h]

/-- Every command but CY_RST_N_DEASSERT leaves a LOCK of 1 (R525). -/
theorem exec_locksAfter {s : State} {c : Instr} (h : s.regs.lock = true) (hc : ∀ envs, c ≠ .cyRstNDeassert envs) :
    LocksAfter (exec c s) := by
  cases c
  case cyRstNDeassert envs => exact absurd rfl (hc envs)
  case read | write | fadd64 | fadd64Acquire | cas64 | pintleReservedOp | pintleResponse | upLinkCredit =>
    simp [exec, execRead, execWrite, execFadd64, execFadd64Acquire, execCas64, execPintleReservedOp, execPintleResponse,
      execUpLinkCredit, h]
  case rdReq | wrLine | sealWr | fadd | cas | heldRelease | faddAcquire | fabricReservedType | rdResp | errResp | pullReplica =>
    simp [exec, execRdReq, execWrLine, execSealWr, execFadd, execCas, execHeldRelease, execFaddAcquire, execFabricReservedType,
      execRdResp, execErrResp, execPullReplica, h]
  case sealRelease | accumContrib | deadlineClose | sealScanDone | openStep =>
    simp [exec, execSealRelease, execAccumContrib, execDeadlineClose, execSealScanDone, execOpenStep, h]
  case acquireDone | acquireTimeout =>
    simp [exec, execAcquireDone, execAcquireTimeout, h]
  case captureRead | registerWrite | controlPortWrite =>
    simp [exec, execCaptureRead, execRegisterWrite, execControlPortWrite, h]
  case pwrCapLvlChange | senseSample | tickEdge | plumbWindowEnd =>
    simp [exec, execPwrCapLvlChange, execSenseSample, execTickEdge, execPlumbWindowEnd, h]
  case sagAccept | dboltDone | cyRstNAssert | vddSLoss | vddCRemoval =>
    simp [exec, execSagAccept, execDboltDone, execCyRstNAssert, execVddSLoss, execVddCRemoval, h]
  case sagClearStart | startThermalWait | fwWaitExpiry | startComplete | fclkRecheck | fwLoadEnd =>
    simp [exec, execSagClearStart, execStartThermalWait, execFwWaitExpiry, execStartComplete, execFclkRecheck, execFwLoadEnd, h]
  case aclkHoldRise | aclkIdle | aclkHoldFall | clockStopped | clockRestart =>
    simp [exec, execAclkHoldRise, execAclkIdle, execAclkHoldFall, execClockStopped, execClockRestart, h]
  case trstN | dbChallenge | chalReady | challengeExpiry | dbResponse | unlockVerifyDone | lockoutEnd | halt | resume | step |
      dbBkpt | dbWatch | breakpointHit | watchpointHit | dbAddr | dbData | dbAccessDone | dbRepair =>
    simp [exec, execTrstN, execDbChallenge, execChalReady, execChallengeExpiry, execDbResponse, execUnlockVerifyDone,
      execLockoutEnd, execHalt, execResume, execStep, execDbBkpt, execDbWatch, execBreakpointHit, execWatchpointHit, execDbAddr,
      execDbData, execDbAccessDone, execDbRepair, h]
  case alertPulse | thermTrip | refreshAccrual | bedEnd | courseWindowEnd | reservedRefreshSlot | tierRead | tierLower | esrExit |
      patrolTurn | mortarPatrol =>
    simp [exec, execAlertPulse, execThermTrip, execRefreshAccrual, execBedEnd, execCourseWindowEnd, execReservedRefreshSlot,
      execTierRead, execTierLower, execEsrExit, execPatrolTurn, execMortarPatrol, h]
  case updateStart | factoredPass2Start | leanUnitStart | leanUnitDone | updateDone =>
    simp [exec, execUpdateStart, execFactoredPass2Start, execLeanUnitStart, execLeanUnitDone, execUpdateDone, h]
  case haspDoorbell =>
    simp [exec, execHaspDoorbell, h]
  case getInfo | getStepReport | getPlumb =>
    simp [exec, execGetInfo, execGetStepReport, execGetPlumb, h]
  case setCompat | defineRegion | defineGroup | loadSchedule | setSeed | setBudget =>
    simp [exec, execSetCompat, execDefineRegion, execDefineGroup, execLoadSchedule, execSetSeed, execSetBudget, h]
  case verdict =>
    simp [exec, execVerdict, h]
  case checkpointExport | exportDone | checkpointImport | importDone =>
    simp [exec, execCheckpointExport, execExportDone, execCheckpointImport, execImportDone, h]
  case startScrub | scrubTurn | scrubProgress | repairSoft | repairSoftDone | repairFuse | repairCondTimeout | fprogDone =>
    simp [exec, execStartScrub, execScrubTurn, execScrubProgress, execRepairSoft, execRepairSoftDone, execRepairFuse,
      execRepairCondTimeout, execFprogDone, h]
  case fwStage =>
    simp [exec, execFwStage, h]
  case fwLoadStart | fwLoadData | ringTailWrite | ringConfigWrite | ringEnable | ringStop | ringSave | ringRestore | ringAbort |
      lock | erLogClear | relock =>
    simp [exec, execFwLoadStart, execFwLoadData, execRingTailWrite, execRingConfigWrite, execRingEnable, execRingStop,
      execRingSave, execRingRestore, execRingAbort, execLock, execErLogClear, execRelock, h]
  case ringSaveDone | descriptorStart | descriptorRetire =>
    simp [exec, execRingSaveDone, execDescriptorStart, execDescriptorRetire, h]
  case remoteTimeout | setClearDone | commitDone | verdictRecorded | entropyDrawDone | channelAliasWrite | wardenHalted =>
    simp only [exec, execRemoteTimeout, execSetClearDone, execCommitDone, execVerdictRecorded, execEntropyDrawDone,
      execChannelAliasWrite, execWardenHalted, locksAfter_next]
    split <;> simp [h]
  case drawSeed hasp =>
    exact locksAfter_guard ((State.runCommand_lock s hasp 7 fun s => by split <;> simp).trans h)
  case shutdown hasp =>
    exact locksAfter_guard (State.runCommand_locked s hasp 0x15 (fun t ht => State.shutdown_locked t hasp ht) h)
  case fwActivate hasp burnt startOk restoreOk envs =>
    exact locksAfter_guard (State.runCommand_locked s hasp 0x14 (fun t ht => t.fwActivate_locked hasp burnt startOk restoreOk envs ht) h)

/-! ### Writes of CY_CTRL and of RWL fields -/

theorem State.mode_ne_reset_of_ctOpen {s : State} (h : s.ctOpen = true) : s.start.mode ≠ .reset := by
  simp only [State.ctOpen, Bool.and_eq_true, bne_iff_ne] at h
  exact h.1.1.2

theorem State.writeReg_ctrl (s : State) (v : BitVec 32) : s.writeReg 0x8 v = { s with regs := s.regs.writeCtrl v } := by
  simp [State.writeReg, State.writeRegTo, ctlTarget, State.writeGlobal, State.mapRegs, State.noteWrite, imageOffset]

/-- LOCK keeps an RWL field, and the write is recorded (R516). -/
theorem State.writeReg_rwl_locked {s : State} {off : Nat} (hoff : off ∈ [0x34, 0x38, 0x3C]) (hmode : s.start.mode ≠ .starting)
    (hlock : s.regs.lock = true) (v : BitVec 32) : s.writeReg off v = { s with regs := { s.regs with lockViol := true } } := by
  simp only [List.mem_cons, List.not_mem_nil, or_false] at hoff
  obtain rfl | rfl | rfl := hoff
  all_goals simp [State.writeReg, State.writeRegTo, ctlTarget, State.writeGlobal, State.writeLocked, State.noteWrite, hlock, hmode]

/-- The control port writes a global register that stands at a word's offset. -/
theorem State.ctWrite_global {s : State} {off : Nat} (hopen : s.ctOpen = true) (haligned : off / 4 * 4 = off) (hoff : off < 0x10000)
    (v : BitVec 32) : s.ctWrite off v =
      { s.writeReg off v with ct := { (s.writeReg off v).ct with last := some { rdata := 0, err := false } } } := by
  simp [State.ctWrite, haligned, ctlTarget, hoff, State.ctRefused, State.serves, State.mode_ne_reset_of_ctOpen hopen]

theorem execRegisterWrite_open {s : State} (h : s.ctOpen = true) (off : BitVec 27) (v : BitVec 32) :
    execRegisterWrite off v s = .next (s.ctWrite off.toNat v) := by
  simp [execRegisterWrite, h]

theorem execControlPortWrite_open {s : State} (h : s.ctOpen = true) (off : BitVec 27) (v : BitVec 32) :
    execControlPortWrite off v s = .next (s.ctWrite off.toNat v) := by
  simp [execControlPortWrite, h]

/-! ### Reads of CY_CTRL -/

theorem State.readGlobal_ctrl (s : State) : s.readGlobal 0x8 = BitVec.ofNat 32 (b2n s.regs.lock + 2 * b2n s.regs.lockViol) := rfl

end Sys2Proof.Machine

open Sys2Proof Sys2Proof.Machine

/-- Settles O56: CY_CTRL and the RWL fields are stored as R525 and R529 have them, and every command but CY_RST_N_DEASSERT leaves a LOCK
of 1. -/
theorem lockIsSet : Obligations.LockIsSet := by
  unfold Obligations.LockIsSet
  refine ⟨?lock, ?ctrl, ?rwl, ?read, rfl, ?step⟩
  case lock =>
    intro s hmode hruns
    have hserves : s.serves (.global 0x8) = true := by simp [State.serves, hmode]
    show execLock s = _
    simp [execLock, hserves, hruns, State.writeReg_ctrl, Regs.writeCtrl]
  case ctrl =>
    intro s v c hopen hc
    have hwrite := State.ctWrite_global hopen (off := 0x8) rfl (by decide) v
    rw [State.writeReg_ctrl] at hwrite
    obtain rfl | rfl := hc
    · exact (execRegisterWrite_open hopen 0x8 v).trans (congrArg _ hwrite)
    · exact (execControlPortWrite_open hopen 0x8 v).trans (congrArg _ hwrite)
  case rwl =>
    intro s off v hopen hmode hlock hoff
    have hoff' : off.toNat ∈ [0x34, 0x38, 0x3C] := List.mem_map_of_mem (f := BitVec.toNat) hoff
    have haligned : off.toNat / 4 * 4 = off.toNat ∧ off.toNat < 0x10000 := by
      simp only [List.mem_cons, List.not_mem_nil, or_false] at hoff'
      omega
    have hwrite := State.ctWrite_global hopen haligned.1 haligned.2 v
    rw [State.writeReg_rwl_locked hoff' hmode hlock] at hwrite
    exact (execRegisterWrite_open hopen off v).trans (congrArg _ hwrite)
  case read =>
    intro s
    rw [State.readGlobal_ctrl]
    refine ⟨?_, ?_, ?_⟩
    · cases s.regs.lock <;> cases s.regs.lockViol <;> rfl
    · cases s.regs.lock <;> cases s.regs.lockViol <;> rfl
    · intro i hi
      have hbelow : b2n s.regs.lock + 2 * b2n s.regs.lockViol < 2 ^ i :=
        calc b2n s.regs.lock + 2 * b2n s.regs.lockViol < 2 ^ 2 := by cases s.regs.lock <;> cases s.regs.lockViol <;> decide
          _ ≤ 2 ^ i := Nat.pow_le_pow_right (by decide) hi
      rw [BitVec.getLsbD_ofNat, Nat.testBit_lt_two_pow hbelow, Bool.and_false]
  case step =>
    intro s t hstep hlock hnot
    cases hp : s.pending with
    | nil =>
      rw [step_idle s hp] at hstep
      cases hstep
      exact hlock
    | cons c rest =>
      simp only [step, hp] at hstep
      exact exec_locksAfter (s := { s with pending := rest }) hlock (fun envs hc => hnot envs rest (hc ▸ hp)) t hstep

end

section
/-!
SUPPORT. What every operation of the model keeps (O2, O4 to O7): the queue of commands, the canonical form of memory, the bounds, the
anti-rollback fuses and the scope of the debug session.  One relation between the state before and after carries the five facts, so that
each operation is looked at once; its lemmas are tagged `mono`, and `mono` goes from the last operation of a definition back to the first.
-/

namespace Sys2Proof.Machine

set_option Elab.async false

/-- A debug session stands after only if it stood before, with the same scope (R543). -/
def Debug.NoWider (d e : Debug) : Prop := e.sessionOn = true → d.sessionOn = true ∧ e.scope = d.scope

/-- What every operation but the end of a verification keeps. -/
structure Keeps (s t : State) : Prop where
  pending : t.pending = s.pending
  memWf : s.memWf = true → t.memWf = true
  bounded : s.bounded → t.bounded
  fuses : s.start.fuseSvn ≤ t.start.fuseSvn
  session : s.dbg.NoWider t.dbg

theorem Debug.noWider_refl (d : Debug) : d.NoWider d := fun h => ⟨h, rfl⟩

theorem Debug.NoWider.trans {a b c : Debug} (h : a.NoWider b) (h' : b.NoWider c) : a.NoWider c := fun hc =>
  ⟨(h (h' hc).1).1, (h' hc).2.trans (h (h' hc).1).2⟩

@[mono] theorem Keeps.refl (s : State) : Keeps s s := ⟨rfl, id, id, BitVec.le_refl _, Debug.noWider_refl _⟩

theorem Keeps.trans {s t u : State} (h : Keeps s t) (h' : Keeps t u) : Keeps s u :=
  ⟨h'.pending.trans h.pending, h'.memWf ∘ h.memWf, h'.bounded ∘ h.bounded, BitVec.le_trans h.fuses h'.fuses, h.session.trans h'.session⟩

/-! ### Updates of fields -/

section
variable {s t : State} {clk : Clock} {regs : Regs} {plumb : Plumb} {start : Start} {dbg : Debug} {ports : Sparse PintlePort} {fab : Fabric}
  {ct : ControlPort} {latches : Sparse (BitVec 64)} {chans : Sparse Channel} {frameBase : Option Nat} {dies : Sparse Die}
  {slates : Sparse (Option SlateTag)} {ctl : StepCtl} {mbox : Mailbox} {bg : Nat} {idPage : List Byte} {idSyn : Sparse (BitVec 16)}
  {nodeId : BitVec 14} {jtagMfr : BitVec 11} {ipRev : BitVec 8} {seq : Nat} {crossing : Sparse Nat} {waits : List CclkWait}
  {dbWords : List Nat} {free : Nat}

/-- A change of fields that no kept fact speaks of. -/
theorem Keeps.lit (h : Keeps s t) (hphase : clk.phase = t.clk.phase := by rfl) (hlog : regs.log = t.regs.log := by rfl)
    (hfuse : start.fuseSvn = t.start.fuseSvn := by rfl) (hspill : start.spill.rings = t.start.spill.rings := by rfl)
    (hon : dbg.sessionOn = t.dbg.sessionOn := by rfl) (hscope : dbg.scope = t.dbg.scope := by rfl) :
    Keeps s (State.mk t.pending clk regs plumb start dbg ports fab ct latches t.acq chans frameBase dies t.banks t.rings slates t.regions
      t.groups ctl mbox t.stack bg t.mortar t.hasps idPage idSyn nodeId jtagMfr ipRev seq crossing waits dbWords free) where
  pending := h.pending
  memWf := h.memWf
  bounded hs := by
    obtain ⟨hp, hl, ha, hb, hr, hsp⟩ := h.bounded hs
    exact ⟨hphase ▸ hp, hlog ▸ hl, ha, hb, hr, hspill ▸ hsp⟩
  fuses := hfuse ▸ h.fuses
  session hn := by
    rw [hon] at hn
    exact ⟨(h.session hn).1, hscope.trans (h.session hn).2⟩

end

@[mono] theorem keeps_id {s t : State} (h : Keeps s t) : Keeps s (id t) := h

@[mono] theorem keeps_ite {s t u : State} {c : Prop} [Decidable c] (h : Keeps s t) (h' : Keeps s u) : Keeps s (if c then t else u) := by
  split <;> assumption

@[mono] theorem keeps_foldl {α : Type} {s t : State} {f : State → α → State} {l : List α} (h : Keeps s t)
    (hf : ∀ a u, Keeps s u → Keeps s (f u a)) : Keeps s (l.foldl f t) := by
  induction l generalizing t with
  | nil => exact h
  | cons a l ih => exact ih (hf a t h)

/-! ### Banks, rings, groups and regions -/

/-- A bank that the bounds allow, where they hold of a state (R209). -/
def BankFits (s : State) (b : Bank) : Prop := s.bounded → b.owed ≤ 8

/-- A ring that the bounds allow, where they hold of a state (R366). -/
def RingFits (s : State) (r : Ring) : Prop := s.bounded → r.flight.length ≤ 2

theorem Keeps.owed {s t : State} (h : Keeps s t) (hs : s.bounded) (k : Nat) : (t.bank k).owed ≤ 8 := (h.bounded hs).2.2.2.1 k

theorem Keeps.flight {s t : State} (h : Keeps s t) (hs : s.bounded) (k : Nat) : (t.ring k).flight.length ≤ 2 :=
  (h.bounded hs).2.2.2.2.1 k

@[mono] theorem bankFits_bank {s t : State} {k : Nat} (h : Keeps s t) : BankFits s (t.bank k) := fun hs => h.owed hs k

@[mono] theorem bankFits_mk {s t : State} {k : Nat} {acc refs course barred ctx ctxSeen queue waited patrol patrolDue busyTo cstat rowLat
    rowCtr passed scalars saved soft fused bad hold} (h : Keeps s t) :
    BankFits s (Bank.mk (t.bank k).owed acc refs course barred ctx ctxSeen queue waited patrol patrolDue busyTo cstat rowLat rowCtr passed
      scalars saved soft fused bad hold) := fun hs => h.owed hs k

@[mono] theorem ringFits_ring {s t : State} {k : Nat} (h : Keeps s t) : RingFits s (t.ring k) := fun hs => h.flight hs k

@[mono] theorem ringFits_mk {s t : State} {k : Nat} {base logSz tail head enable state live err poisoned slateShort slateFull orderForced
    cfgIgnored errSeq save forced poisonCnt failed forcedQ saving loading aborting fetched} (h : Keeps s t) :
    RingFits s (Ring.mk base logSz tail head enable state live err poisoned slateShort slateFull orderForced cfgIgnored errSeq save forced
      poisonCnt (t.ring k).flight failed forcedQ saving loading aborting fetched) := fun hs => h.flight hs k

@[mono] theorem State.setBank_keeps {s t : State} {k : Nat} {b : Bank} (h : Keeps s t) (hb : BankFits s b) : Keeps s (t.setBank k b) where
  pending := h.pending
  memWf := h.memWf
  bounded hs := by
    obtain ⟨hp, hl, ha, hbank, hr, hsp⟩ := h.bounded hs
    refine ⟨hp, hl, ha, fun i => ?_, hr, hsp⟩
    rw [State.bank_setBank]
    split
    · exact hb hs
    · exact hbank i
  fuses := h.fuses
  session := h.session

theorem ringsBounded_set {m : Sparse Ring} (h : ringsBounded m) (k : Nat) {r : Ring} (hr : r.flight.length ≤ 2) :
    ringsBounded (Sparse.set .init m k r) := fun i => by
  rw [Sparse.get_set]
  split
  · exact hr
  · exact h i

theorem ringsBounded_nil : ringsBounded [] := fun _ => Nat.zero_le 2

@[mono] theorem State.setRing_keeps {s t : State} {k : Nat} {r : Ring} (h : Keeps s t) (hr : RingFits s r) : Keeps s (t.setRing k r) where
  pending := h.pending
  memWf := h.memWf
  bounded hs := by
    obtain ⟨hp, hl, ha, hb, hring, hsp⟩ := h.bounded hs
    exact ⟨hp, hl, ha, hb, ringsBounded_set hring k (hr hs), hsp⟩
  fuses := h.fuses
  session := h.session

@[mono] theorem State.setGroup_keeps {s t : State} {n : Nat} {g : Option Group} (h : Keeps s t) : Keeps s (t.setGroup n g) :=
  ⟨h.pending, fun hs => t.memWf_setGroup n g (h.memWf hs), h.bounded, h.fuses, h.session⟩

@[mono] theorem State.setRegion_keeps {s t : State} {n : Nat} {r : Option Region} (h : Keeps s t) : Keeps s (t.setRegion n r) :=
  ⟨h.pending, fun hs => t.memWf_setRegion n r (h.memWf hs), h.bounded, h.fuses, h.session⟩

@[mono] theorem State.setPort_keeps {s t : State} {n : Nat} {x : PintlePort} (h : Keeps s t) : Keeps s (t.setPort n x) := .lit h
@[mono] theorem State.setChan_keeps {s t : State} {n : Nat} {x : Channel} (h : Keeps s t) : Keeps s (t.setChan n x) := .lit h
@[mono] theorem State.setDie_keeps {s t : State} {n : Nat} {x : Die} (h : Keeps s t) : Keeps s (t.setDie n x) := .lit h
@[mono] theorem State.setLatch_keeps {s t : State} {n : Nat} {x : BitVec 64} (h : Keeps s t) : Keeps s (t.setLatch n x) := .lit h
@[mono] theorem State.setHasp_keeps {s t : State} {n : Nat} {x : Hasp} (h : Keeps s t) : Keeps s (t.setHasp n x) := .lit h
@[mono] theorem State.setSlateTag_keeps {s t : State} {n : Nat} {x : Option SlateTag} (h : Keeps s t) : Keeps s (t.setSlateTag n x) :=
  .lit h
@[mono] theorem State.setSet_keeps {s t : State} {b : Bool} {x : StepSet} (h : Keeps s t) : Keeps s (t.setSet b x) := by
  cases b
  · exact .lit h
  · exact .lit h
@[mono] theorem State.bump_keeps {s t : State} (h : Keeps s t) : Keeps s t.bump := .lit h

/-! ### Stores -/

/-- A change of the three stores that keeps their canonical form. -/
theorem Keeps.stores {s t : State} (h : Keeps s t) {stack mortar hasps : Store} (hst : t.stack.wf = true → stack.wf = true)
    (hmo : t.mortar.wf = true → mortar.wf = true) (hha : t.hasps.wf = true → hasps.wf = true) :
    Keeps s { t with stack := stack, mortar := mortar, hasps := hasps } where
  pending := h.pending
  memWf hs := by
    have := h.memWf hs
    rw [State.memWf_iff] at this ⊢
    obtain ⟨h1, h2, h3, h4, h5⟩ := this
    exact ⟨hst h1, hmo h2, hha h3, h4, h5⟩
  bounded := h.bounded
  fuses := h.fuses
  session := h.session

@[mono] theorem State.stkSet_keeps {s t : State} {w : Nat} {d : BondData} {syn : BitVec 16} (h : Keeps s t) : Keeps s (t.stkSet w d syn) := by
  unfold State.stkSet
  split
  · exact h.stores (Store.wf_setWord _ _ _ _) id id
  · exact h.stores (Store.wf_setWord _ _ _ _) id id

@[mono] theorem State.placeSet_keeps {s t : State} {p : Place} {d : BondData} {syn : BitVec 16} (h : Keeps s t) :
    Keeps s (t.placeSet p d syn) := by
  unfold State.placeSet
  split
  · exact State.stkSet_keeps h
  · exact h.stores id (Store.wf_setWord _ _ _ _) id
  · exact h.stores id id (Store.wf_setWord _ _ _ _)
  · exact h

/-! ### Time, the error log and held acquires -/

@[mono] theorem State.touch_keeps {s t : State} {at_ : Nat} (h : Keeps s t) : Keeps s (t.touch at_) where
  pending := h.pending
  memWf := h.memWf
  bounded hs := by
    obtain ⟨hp, hrest⟩ := h.bounded hs
    refine ⟨?_, hrest⟩
    simp only [State.touch]
    split
    · omega
    · exact hp
  fuses := h.fuses
  session := h.session

/-- A change of the error log that keeps to its 64 entries (R188). -/
theorem Keeps.log {s t : State} (h : Keeps s t) {regs : Regs} (hlog : t.regs.log.length ≤ 64 → regs.log.length ≤ 64) :
    Keeps s { t with regs := regs } where
  pending := h.pending
  memWf := h.memWf
  bounded hs := by
    obtain ⟨hp, hl, hrest⟩ := h.bounded hs
    exact ⟨hp, hlog hl, hrest⟩
  fuses := h.fuses
  session := h.session

/-- A change of the held acquires that keeps to 1,024 of them without a match (R412), with any registers that leave the error log. -/
theorem Keeps.acq {s t : State} (h : Keeps s t) {acq : List HeldAcquire} {regs : Regs}
    (hacq : t.heldCount ≤ 1024 → (acq.filter (fun h => h.matched.isNone)).length ≤ 1024) (hlog : regs.log = t.regs.log) :
    Keeps s { t with acq := acq, regs := regs } where
  pending := h.pending
  memWf := h.memWf
  bounded hs := by
    obtain ⟨hp, hl, ha, hrest⟩ := h.bounded hs
    exact ⟨hp, hlog ▸ hl, hacq ha, hrest⟩
  fuses := h.fuses
  session := h.session

end Sys2Proof.Machine
end

section
/-!
SUPPORT. Counting and frames: the checks of stored words, the frames of accesses and the times that they take change registers, channels,
banks and the crossings of events, and nothing else (R100 to R103, R176, R186, R555).
-/

namespace Sys2Proof.Machine

set_option Elab.async false

/-- t is s but for registers, channels, banks and what crosses into CCLK. -/
def State.SameButCounts (s t : State) : Prop :=
  t = { s with regs := t.regs, chans := t.chans, banks := t.banks, crossing := t.crossing }

@[mono] theorem State.SameButCounts.refl (s : State) : s.SameButCounts s := rfl

theorem State.SameButCounts.trans {s t u : State} (h : s.SameButCounts t) (h' : t.SameButCounts u) : s.SameButCounts u := by
  unfold State.SameButCounts at *
  rw [h', h]

/-- A change of those four parts. -/
theorem State.SameButCounts.lit {s t : State} (h : s.SameButCounts t) (regs : Regs) (chans : Sparse Channel) (banks : Sparse Bank)
    (crossing : Sparse Nat) : s.SameButCounts { t with regs := regs, chans := chans, banks := banks, crossing := crossing } := by
  unfold State.SameButCounts at *
  rw [h]

theorem State.SameButCounts.rings {s t : State} (h : s.SameButCounts t) : t.rings = s.rings := by rw [h]

theorem State.SameButCounts.ring {s t : State} (h : s.SameButCounts t) (k : Nat) : t.ring k = s.ring k := by rw [State.ring, h.rings, State.ring]

@[mono] theorem sameButCounts_ite {s t u : State} {c : Prop} [Decidable c] (h : s.SameButCounts t) (h' : s.SameButCounts u) :
    s.SameButCounts (if c then t else u) := by
  split <;> assumption

@[mono] theorem sameButCounts_foldl {α : Type} {s t : State} {f : State → α → State} {l : List α} (h : s.SameButCounts t)
    (hf : ∀ a u, s.SameButCounts u → s.SameButCounts (f u a)) : s.SameButCounts (l.foldl f t) := by
  induction l generalizing t with
  | nil => exact h
  | cons a l ih => exact ih (hf a t h)

section
variable {s₀ s : State} (h : s₀.SameButCounts s)
include h

@[mono] theorem State.sameButCounts_setChan {c x} : s₀.SameButCounts (s.setChan c x) := h.lit _ _ _ _
@[mono] theorem State.sameButCounts_setBank {k x} : s₀.SameButCounts (s.setBank k x) := h.lit _ _ _ _
@[mono] theorem State.sameButCounts_irq {i} : s₀.SameButCounts (s.irq i) := h.lit _ _ _ _

@[mono] theorem State.sameButCounts_pushLog {src outcome syn agent where_} :
    s₀.SameButCounts (s.pushLog src outcome syn agent where_) := by
  unfold State.pushLog
  mono
  · exact h.lit _ _ _ _
  · exact h.lit _ _ _ _

@[mono] theorem State.sameButCounts_overrun {d} : s₀.SameButCounts (s.overrun d) := by
  unfold State.overrun
  mono
  · exact h.lit _ _ _ _
  · exact h.lit _ _ _ _

@[mono] theorem State.sameButCounts_cross {c} {event : State → State} (he : ∀ u, s₀.SameButCounts u → s₀.SameButCounts (event u)) :
    s₀.SameButCounts (s.cross c event) := by
  unfold State.cross
  dsimp only
  mono
  exact h.lit _ _ _ _

@[mono] theorem State.sameButCounts_crossIrq {c i} : s₀.SameButCounts (s.crossIrq c i) := by
  unfold State.crossIrq
  mono
  exact fun _ => id

@[mono] theorem State.sameButCounts_countCe : s₀.SameButCounts s.countCe := by
  unfold State.countCe
  dsimp only
  mono
  · exact h.lit _ _ _ _
  · exact h.lit _ _ _ _

@[mono] theorem State.sameButCounts_siteIrq {site i} : s₀.SameButCounts (s.siteIrq site i) := by
  unfold State.siteIrq
  split <;> mono

@[mono] theorem State.sameButCounts_siteCe {site} : s₀.SameButCounts (s.siteCe site) := by
  unfold State.siteCe
  split <;> mono
  · intro u hu
    mono
  · exact h.lit _ _ _ _
  · exact fun _ hu => State.sameButCounts_countCe (hu.lit _ _ _ _)
  · exact fun _ hu => State.sameButCounts_countCe (hu.lit _ _ _ _)

@[mono] theorem State.sameButCounts_siteUe {site} : s₀.SameButCounts (s.siteUe site) := by
  unfold State.siteUe
  split
  · exact State.sameButCounts_cross h fun _ hu => State.sameButCounts_setChan hu
  · exact State.sameButCounts_setBank h
  · exact h.lit _ _ _ _
  · exact State.sameButCounts_cross h fun _ hu => hu.lit _ _ _ _
  · exact State.sameButCounts_cross h fun _ hu => hu.lit _ _ _ _

@[mono] theorem State.sameButCounts_sitePoison {site} : s₀.SameButCounts (s.sitePoison site) := by
  unfold State.sitePoison
  split <;> mono
  intro u hu
  mono

@[mono] theorem State.sameButCounts_account {site w where_ o syn} : s₀.SameButCounts (s.account site w where_ o syn) := by
  unfold State.account
  split <;> mono

@[mono] theorem State.sameButCounts_readPlace {w p} : s₀.SameButCounts (s.readPlace w p).2 := State.sameButCounts_account h

@[mono] theorem State.sameButCounts_readPlaces {w ps} : s₀.SameButCounts (s.readPlaces w ps).2 := by
  induction ps generalizing s with
  | nil => exact h
  | cons p r ih =>
    unfold State.readPlaces
    mono

@[mono] theorem State.sameButCounts_sent {c op bank arg} : s₀.SameButCounts (s.sent c op bank arg) := State.sameButCounts_setChan h
@[mono] theorem State.sameButCounts_occupy {k n} : s₀.SameButCounts (s.occupy k n) := State.sameButCounts_setBank h
@[mono] theorem State.sameButCounts_occupyEven {k n} : s₀.SameButCounts (s.occupyEven k n) := State.sameButCounts_setBank h

@[mono] theorem State.sameButCounts_sendPhys {k phys cs} : s₀.SameButCounts (s.sendPhys k phys cs) := by
  unfold State.sendPhys State.sendPre State.sendColumn
  mono
  intros
  mono

@[mono] theorem State.sameButCounts_rowAccess {k row cs} : s₀.SameButCounts (s.rowAccess k row cs) := by
  unfold State.rowAccess State.sendRow
  mono

@[mono] theorem State.sameButCounts_corbel {k op arg n} : s₀.SameButCounts (s.corbel k op arg n) := by
  unfold State.corbel
  mono

@[mono] theorem State.sameButCounts_moveRows {write rows} : s₀.SameButCounts (s.moveRows write rows) := by
  unfold State.moveRows
  mono
  intros
  mono

@[mono] theorem State.sameButCounts_moveWords {write ws} : s₀.SameButCounts (s.moveWords write ws) := State.sameButCounts_moveRows h

@[mono] theorem State.sameButCounts_descAccount {k q} : s₀.SameButCounts (s.descAccount k q) := by
  unfold State.descAccount
  mono
  intros
  mono

@[mono] theorem State.sameButCounts_descFetch {k q} : s₀.SameButCounts (s.descFetch k q).2 := by
  unfold State.descFetch
  split
  · rw [apply_ite Prod.snd]
    mono
  · mono

end

end Sys2Proof.Machine
end

section
/-!
SUPPORT. Every operation keeps what `Keeps` says (O2, O4 to O7): a lemma for each function of the model, in the order of the model, and
one for each command.  The searches of `mono` read the lemmas before them, so that the declarations are elaborated one after the other.
-/

namespace Sys2Proof.Machine

set_option Elab.async false

/-! ### Writers, Bond words, frames and the Keystone engine (R45, R100 to R103, R174 to R189, R203) -/
@[mono] theorem State.irq_keeps {s₀ s : State} {i} (hk : Keeps s₀ s) : Keeps s₀ (s.irq i) := .lit hk

@[mono] theorem State.pushLog_keeps {s₀ s : State} {src outcome syn agent where_} (hk : Keeps s₀ s) :
    Keeps s₀ (s.pushLog src outcome syn agent where_) := by
  unfold State.pushLog
  split
  · refine hk.log fun _ => ?_
    rw [List.length_append]
    simp only [List.length_singleton]
    omega
  · split
    · exact hk
    · exact State.irq_keeps (.lit hk)

@[mono] theorem State.overrun_keeps {s₀ s : State} {d} (hk : Keeps s₀ s) : Keeps s₀ (s.overrun d) := by
  unfold State.overrun
  mono <;> exact Keeps.lit hk

@[mono] theorem State.cross_keeps {s₀ s : State} {c} {event : State → State} (hk : Keeps s₀ s)
    (he : ∀ u, Keeps s₀ u → Keeps s₀ (event u)) : Keeps s₀ (s.cross c event) := by
  unfold State.cross
  split
  · exact he s hk
  · dsimp only
    split
    · exact he _ (.lit hk)
    · exact State.overrun_keeps hk

@[mono] theorem State.crossIrq_keeps {s₀ s : State} {c i} (hk : Keeps s₀ s) : Keeps s₀ (s.crossIrq c i) :=
  State.irq_keeps (State.cross_keeps hk fun _ => id)

@[mono] theorem State.countCe_keeps {s₀ s : State} (hk : Keeps s₀ s) : Keeps s₀ s.countCe := by
  unfold State.countCe
  mono <;> exact Keeps.lit hk

@[mono] theorem State.siteIrq_keeps {s₀ s : State} {site i} (hk : Keeps s₀ s) : Keeps s₀ (s.siteIrq site i) := by
  unfold State.siteIrq
  split <;> mono

@[mono] theorem State.siteCe_keeps {s₀ s : State} {a} (hk : Keeps s₀ s) : Keeps s₀ (s.siteCe a) := by
  unfold State.siteCe
  split
  · exact State.cross_keeps hk fun _ hu => State.countCe_keeps (State.setChan_keeps hu)
  · exact State.setBank_keeps hk (bankFits_mk hk)
  · exact State.countCe_keeps (.lit hk)
  · exact State.cross_keeps hk fun _ hu => State.countCe_keeps (.lit hu)
  · exact State.cross_keeps hk fun _ hu => State.countCe_keeps (.lit hu)

@[mono] theorem State.siteUe_keeps {s₀ s : State} {a} (hk : Keeps s₀ s) : Keeps s₀ (s.siteUe a) := by
  unfold State.siteUe
  split
  · exact State.cross_keeps hk fun _ hu => State.setChan_keeps hu
  · exact State.setBank_keeps hk (bankFits_mk hk)
  · exact .lit hk
  · exact State.cross_keeps hk fun _ hu => .lit hu
  · exact State.cross_keeps hk fun _ hu => .lit hu

@[mono] theorem State.sitePoison_keeps {s₀ s : State} {a} (hk : Keeps s₀ s) : Keeps s₀ (s.sitePoison a) := by
  unfold State.sitePoison
  split <;> mono <;> intros <;> mono

@[mono] theorem State.account_keeps {s₀ s : State} {site w where_ o syn} (hk : Keeps s₀ s) :
    Keeps s₀ (s.account site w where_ o syn) := by
  unfold State.account
  split <;> mono

@[mono] theorem State.statePoison_keeps {s₀ s : State} {site w where_} (hk : Keeps s₀ s) : Keeps s₀ (s.statePoison site w where_) := by
  unfold State.statePoison
  mono
  split
  · exact State.cross_keeps hk fun _ hu => .lit hu
  · exact .lit hk

@[mono] theorem State.placeWrite_keeps {s₀ s : State} {p d poisoned} (hk : Keeps s₀ s) : Keeps s₀ (s.placeWrite p d poisoned) := by
  unfold State.placeWrite
  mono

@[mono] theorem State.readPlace_keeps {s₀ s : State} {w p} (hk : Keeps s₀ s) : Keeps s₀ (s.readPlace w p).2 := by
  unfold State.readPlace
  mono

@[mono] theorem State.readPlaces_keeps {s₀ s : State} {w ps} (hk : Keeps s₀ s) : Keeps s₀ (s.readPlaces w ps).2 := by
  induction ps generalizing s with
  | nil => exact hk
  | cons p r ih =>
    unfold State.readPlaces
    mono

@[mono] theorem State.mergePlace_keeps {s₀ s : State} {w p d poisoned ben} (hk : Keeps s₀ s) :
    Keeps s₀ (s.mergePlace w p d poisoned ben) := by
  unfold State.mergePlace
  dsimp only
  (repeat' split) <;> mono

@[mono] theorem State.writePlaces_keeps {s₀ s : State} {l} (hk : Keeps s₀ s) : Keeps s₀ (s.writePlaces l) := by
  induction l generalizing s with
  | nil => exact hk
  | cons e r ih =>
    unfold State.writePlaces
    mono

@[mono] theorem State.sent_keeps {s₀ s : State} {c op bank arg} (hk : Keeps s₀ s) : Keeps s₀ (s.sent c op bank arg) := .lit hk
@[mono] theorem State.idrLine_keeps {s₀ s : State} {page line} (hk : Keeps s₀ s) : Keeps s₀ (s.idrLine page line) := .lit hk
@[mono] theorem State.sendColumn_keeps {s₀ s : State} {k c} (hk : Keeps s₀ s) : Keeps s₀ (s.sendColumn k c) := .lit hk
@[mono] theorem State.sendPre_keeps {s₀ s : State} {k} (hk : Keeps s₀ s) : Keeps s₀ (s.sendPre k) := .lit hk

@[mono] theorem State.sendPhys_keeps {s₀ s : State} {k phys cs} (hk : Keeps s₀ s) : Keeps s₀ (s.sendPhys k phys cs) := by
  unfold State.sendPhys
  mono <;> intros <;> mono

@[mono] theorem State.sendRow_keeps {s₀ s : State} {k row cs} (hk : Keeps s₀ s) : Keeps s₀ (s.sendRow k row cs) := by
  unfold State.sendRow
  mono

@[mono] theorem State.occupy_keeps {s₀ s : State} {k n} (hk : Keeps s₀ s) : Keeps s₀ (s.occupy k n) := by
  unfold State.occupy
  mono

@[mono] theorem State.occupyEven_keeps {s₀ s : State} {k n} (hk : Keeps s₀ s) : Keeps s₀ (s.occupyEven k n) := by
  unfold State.occupyEven
  mono

@[mono] theorem State.rowAccess_keeps {s₀ s : State} {k row cs} (hk : Keeps s₀ s) : Keeps s₀ (s.rowAccess k row cs) := by
  unfold State.rowAccess
  mono

@[mono] theorem State.corbel_keeps {s₀ s : State} {k op arg n} (hk : Keeps s₀ s) : Keeps s₀ (s.corbel k op arg n) := by
  unfold State.corbel
  mono

@[mono] theorem State.sendDesc_keeps {s₀ s : State} {k ctx} (hk : Keeps s₀ s) : Keeps s₀ (s.sendDesc k ctx) := by
  unfold State.sendDesc
  mono

@[mono] theorem State.sendSave_keeps {s₀ s : State} {k ctx} (hk : Keeps s₀ s) : Keeps s₀ (s.sendSave k ctx) := by
  unfold State.sendSave
  mono

@[mono] theorem State.sendLoad_keeps {s₀ s : State} {k ctx} (hk : Keeps s₀ s) : Keeps s₀ (s.sendLoad k ctx) := by
  unfold State.sendLoad
  mono

@[mono] theorem State.sendScalar_keeps {s₀ s : State} {k i v} (hk : Keeps s₀ s) : Keeps s₀ (s.sendScalar k i v) := by
  unfold State.sendScalar
  mono

@[mono] theorem State.sendAbort_keeps {s₀ s : State} {k ctx} (hk : Keeps s₀ s) : Keeps s₀ (s.sendAbort k ctx) := by
  unfold State.sendAbort
  mono

@[mono] theorem State.fillLatch_keeps {s₀ s : State} {k one use data} (hk : Keeps s₀ s) : Keeps s₀ (s.fillLatch k one use data) := by
  unfold State.fillLatch
  dsimp only
  exact Keeps.lit (by mono)

@[mono] theorem State.putLatch_keeps {s₀ s : State} {k one use data} (hk : Keeps s₀ s) : Keeps s₀ (s.putLatch k one use data) := by
  unfold State.putLatch
  mono <;> intros <;> mono

@[mono] theorem State.latchOut_keeps {s₀ s : State} {k data} (hk : Keeps s₀ s) : Keeps s₀ (s.latchOut k data) := by
  unfold State.latchOut
  mono <;> intros <;> mono <;> intros <;> mono

@[mono] theorem State.addChan_keeps {s₀ s : State} {c ce ue po} (hk : Keeps s₀ s) : Keeps s₀ (s.addChan c ce ue po) := by
  unfold State.addChan
  mono <;> intros <;> mono

@[mono] theorem State.cstat_keeps {s₀ s : State} {k} (hk : Keeps s₀ s) : Keeps s₀ (s.cstat k) := by
  unfold State.cstat
  mono
  intro u hu
  mono

@[mono] theorem State.unitReport_keeps {s₀ s : State} {k} (hk : Keeps s₀ s) : Keeps s₀ (s.unitReport k) := by
  unfold State.unitReport
  mono

@[mono] theorem State.refpb_keeps {s₀ s : State} {k} (hk : Keeps s₀ s) : Keeps s₀ (s.refpb k) := by
  unfold State.refpb
  mono
  exact fun hs => le_trans (Nat.sub_le _ _) (hk.owed hs k)

@[mono] theorem State.fullRefresh_keeps {s₀ s : State} {k} (hk : Keeps s₀ s) : Keeps s₀ (s.fullRefresh k) := by
  unfold State.fullRefresh
  mono

@[mono] theorem State.newWork_keeps {s₀ s : State} {ctx1} (hk : Keeps s₀ s) : Keeps s₀ (s.newWork ctx1) := by
  unfold State.newWork
  mono <;> intros <;> mono

@[mono] theorem State.moveRows_keeps {s₀ s : State} {write rows} (hk : Keeps s₀ s) : Keeps s₀ (s.moveRows write rows) := by
  unfold State.moveRows
  mono <;> intros <;> mono

@[mono] theorem State.moveWords_keeps {s₀ s : State} {write ws} (hk : Keeps s₀ s) : Keeps s₀ (s.moveWords write ws) := by
  unfold State.moveWords
  mono

@[mono] theorem State.freeFrames_keeps {s₀ s : State} (hk : Keeps s₀ s) : Keeps s₀ s.freeFrames := Keeps.lit (by mono <;> intros <;> mono)
@[mono] theorem State.forgetDb_keeps {s₀ s : State} (hk : Keeps s₀ s) : Keeps s₀ s.forgetDb := .lit hk

@[mono] theorem State.wroteRecord_keeps {s₀ s : State} (hk : Keeps s₀ s) : Keeps s₀ s.wroteRecord := by
  unfold State.wroteRecord
  mono

@[mono] theorem State.moveAccess_keeps {s₀ s : State} {acc} (hk : Keeps s₀ s) : Keeps s₀ (s.moveAccess acc) := by
  unfold State.moveAccess
  mono <;> intros <;> mono

@[mono] theorem State.doReach_keeps {s₀ s : State} {a} (hk : Keeps s₀ s) : Keeps s₀ (s.doReach a) := by
  unfold State.doReach
  split <;> mono

@[mono] theorem State.queueReach_keeps {s₀ s : State} {id r} (hk : Keeps s₀ s) : Keeps s₀ (s.queueReach id r) := by
  unfold State.queueReach
  mono

@[mono] theorem State.issue_keeps {s₀ s : State} {id plan} (hk : Keeps s₀ s) : Keeps s₀ (s.issue id plan) := by
  unfold State.issue
  mono <;> intros <;> mono

@[mono] theorem State.ksSpend_keeps {s₀ s : State} {n} (hk : Keeps s₀ s) : Keeps s₀ (s.ksSpend n) := .lit hk
@[mono] theorem State.countParams_keeps {s₀ s : State} {n} (hk : Keeps s₀ s) : Keeps s₀ (s.countParams n) := .lit hk

@[mono] theorem State.ksMove_keeps {s₀ s : State} {plan cost params task} (hk : Keeps s₀ s) :
    Keeps s₀ (s.ksMove plan cost params task).1 := by
  unfold State.ksMove
  split
  · mono
    intros
    mono
  · exact .lit (State.issue_keeps (State.bump_keeps (State.countParams_keeps (State.ksSpend_keeps hk))))

@[mono] theorem State.ksAccess_keeps {s₀ s : State} {plan cost task} (hk : Keeps s₀ s) : Keeps s₀ (s.ksAccess plan cost task).1 := by
  unfold State.ksAccess
  mono

@[mono] theorem State.owe_keeps {s₀ s : State} {n} (hk : Keeps s₀ s) : Keeps s₀ (s.owe n) := .lit hk

@[mono] theorem State.addTask_keeps {s₀ s : State} {task} (hk : Keeps s₀ s) : Keeps s₀ (s.addTask task) := by
  unfold State.addTask
  mono <;> exact Keeps.lit hk

@[mono] theorem State.dropRecordEnd_keeps {s₀ s : State} (hk : Keeps s₀ s) : Keeps s₀ s.dropRecordEnd := .lit hk

@[mono] theorem State.dropTasks_keeps {s₀ s : State} {pick} (hk : Keeps s₀ s) :
    Keeps s₀ (s.dropTasks pick) := Keeps.lit (by mono <;> intros <;> mono)

@[mono] theorem State.dropItems_keeps {s₀ s : State} (hk : Keeps s₀ s) : Keeps s₀ s.dropItems := by
  unfold State.dropItems
  mono

@[mono] theorem State.freshWord_keeps {s₀ s : State} (hk : Keeps s₀ s) : Keeps s₀ s.freshWord.2 := .lit hk

@[mono] theorem State.freshWords_keeps {s₀ s : State} {n} (hk : Keeps s₀ s) : Keeps s₀ (s.freshWords n).2 := by
  induction n generalizing s with
  | zero => exact hk
  | succ n ih =>
    unfold State.freshWords
    mono

/-! ### Responses and latches (R402 to R412) -/
@[mono] theorem State.upPush_keeps {s₀ s : State} {port f} (hk : Keeps s₀ s) : Keeps s₀ (s.upPush port f) := .lit hk
@[mono] theorem State.answer_keeps {s₀ s : State} {port tag stat word} (hk : Keeps s₀ s) : Keeps s₀ (s.answer port tag stat word) := .lit hk
@[mono] theorem State.refuse_keeps {s₀ s : State} {r stat} (hk : Keeps s₀ s) : Keeps s₀ (s.refuse r stat) := .lit hk
@[mono] theorem State.answerLine_keeps {s₀ s : State} {r vs} (hk : Keeps s₀ s) : Keeps s₀ (s.answerLine r vs) := .lit hk
@[mono] theorem State.countFab_keeps {s₀ s : State} {n} (hk : Keeps s₀ s) : Keeps s₀ (s.countFab n) := .lit hk
@[mono] theorem State.countPt_keeps {s₀ s : State} (hk : Keeps s₀ s) : Keeps s₀ s.countPt := .lit hk

@[mono] theorem State.foPush_keeps {s₀ s : State} {o} (hk : Keeps s₀ s) : Keeps s₀ (s.foPush o) := by
  unfold State.foPush
  split
  · exact .lit (State.countFab_keeps hk)
  · exact .lit hk

@[mono] theorem State.foFlush_keeps {s₀ s : State} (hk : Keeps s₀ s) : Keeps s₀ s.foFlush := by
  unfold State.foFlush
  split
  · exact .lit (State.countFab_keeps hk)
  · exact hk

@[mono] theorem State.errResp_keeps {s₀ s : State} {src tag stat} (hk : Keeps s₀ s) : Keeps s₀ (s.errResp src tag stat) := by
  unfold State.errResp
  mono

@[mono] theorem State.atomResp_keeps {s₀ s : State} {src tag word} (hk : Keeps s₀ s) : Keeps s₀ (s.atomResp src tag word) := by
  unfold State.atomResp
  mono

@[mono] theorem State.sealAck_keeps {s₀ s : State} {src tag} (hk : Keeps s₀ s) : Keeps s₀ (s.sealAck src tag) := by
  unfold State.sealAck
  mono

@[mono] theorem State.rdResp_keeps {s₀ s : State} {src tag vs} (hk : Keeps s₀ s) : Keeps s₀ (s.rdResp src tag vs) := by
  unfold State.rdResp
  mono

@[mono] theorem State.countWiden_keeps {s₀ s : State} {scope word} (hk : Keeps s₀ s) : Keeps s₀ (s.countWiden scope word) := by
  unfold State.countWiden
  mono <;> exact Keeps.lit hk

@[mono] theorem State.wake_keeps {s₀ s : State} {i} (hk : Keeps s₀ s) : Keeps s₀ (s.wake i) := by
  refine hk.acq (fun ha => le_trans ?_ ha) rfl
  rw [List.filter_map, List.length_map]
  refine List.Sublist.length_le (List.monotone_filter_right _ fun h hm => ?_)
  simp only [Function.comp_apply] at hm
  split at hm
  · simp at hm
  · exact hm

@[mono] theorem State.release_keeps {s₀ s : State} {i value scope agent} (hk : Keeps s₀ s) : Keeps s₀ (s.release i value scope agent) := by
  unfold State.release
  mono

@[mono] theorem State.releaseNot0_keeps {s₀ s : State} {i value scope agent} (hk : Keeps s₀ s) :
    Keeps s₀ (s.releaseNot0 i value scope agent) := by
  unfold State.releaseNot0
  mono <;> exact Keeps.lit hk

@[mono] theorem State.acqOkay_keeps {s₀ s : State} {who word} (hk : Keeps s₀ s) : Keeps s₀ (s.acqOkay who word) := by
  unfold State.acqOkay
  split <;> mono

@[mono] theorem State.acqNotReady_keeps {s₀ s : State} {who} (hk : Keeps s₀ s) : Keeps s₀ (s.acqNotReady who) := by
  unfold State.acqNotReady
  split <;> mono

@[mono] theorem State.dropAcquires_keeps {s₀ s : State} (hk : Keeps s₀ s) : Keeps s₀ s.dropAcquires := by
  unfold State.dropAcquires
  mono
  · exact hk.acq (fun _ => Nat.zero_le _) rfl
  · intros
    mono

@[mono] theorem State.acquire_keeps {s₀ s : State} {who i scope target at_} (hk : Keeps s₀ s) :
    Keeps s₀ (s.acquire who i scope target at_) := by
  have push (u : State) (hu : Keeps s₀ u) (x : HeldAcquire) (hx : x.matched.isNone = true → u.heldCount < 1024) :
      Keeps s₀ { u with acq := u.acq ++ [x] } := by
    refine hu.acq (fun ha => ?_) rfl
    rw [List.filter_append, List.length_append]
    change u.heldCount + _ ≤ 1024
    by_cases hm : x.matched.isNone = true
    · have := hx hm
      simp [hm]
      omega
    · simpa [hm] using ha
  unfold State.acquire
  dsimp only
  split
  · split
    · mono
    · exact push _ (State.countWiden_keeps hk) _ nofun
  · split
    · exact push _ hk _ fun _ => ‹_›
    · exact State.acqOkay_keeps (.lit hk)

@[mono] theorem State.atomic_keeps {s₀ s : State} {isCas i ops agent} (hk : Keeps s₀ s) : Keeps s₀ (s.atomic isCas i ops agent) := by
  unfold State.atomic
  split <;> mono

/-! ### The mailbox (R491 to R501) -/

@[mono] theorem State.haspPut_keeps {s₀ s : State} {h o bs} (hk : Keeps s₀ s) : Keeps s₀ (s.haspPut h o bs) := by
  unfold State.haspPut
  mono <;> intros <;> mono

@[mono] theorem State.answerHasp_keeps {s₀ s : State} {h code d payload} (hk : Keeps s₀ s) : Keeps s₀ (s.answerHasp h code d payload) := by
  unfold State.answerHasp
  dsimp only
  mono <;> refine Keeps.lit ?_ <;> mono

@[mono] theorem State.sweepUpTo_keeps {s₀ s : State} {n} (hk : Keeps s₀ s) : Keeps s₀ (s.sweepUpTo n) := by
  induction n generalizing s with
  | zero => exact hk
  | succ n ih =>
    unfold State.sweepUpTo
    split <;> mono

@[mono] theorem State.sweepBad_keeps {s₀ s : State} (hk : Keeps s₀ s) : Keeps s₀ s.sweepBad := by
  unfold State.sweepBad
  mono

@[mono] theorem State.complete_keeps {s₀ s : State} {h code d payload} (hk : Keeps s₀ s) : Keeps s₀ (s.complete h code d payload) := by
  unfold State.complete
  mono

@[mono] theorem State.finish_keeps {s₀ s : State} {h st detail payload} (hk : Keeps s₀ s) : Keeps s₀ (s.finish h st detail payload) := by
  unfold State.finish
  mono <;> exact Keeps.lit hk

@[mono] theorem State.applyCompat_keeps {s₀ s : State} {h} (hk : Keeps s₀ s) : Keeps s₀ (s.applyCompat h) := .lit hk

@[mono] theorem State.applySeed_keeps {s₀ s : State} (hk : Keeps s₀ s) : Keeps s₀ s.applySeed := by
  unfold State.applySeed
  split
  · exact .lit hk
  · exact hk

@[mono] theorem State.endAfter_keeps {s₀ s : State} (hk : Keeps s₀ s) : Keeps s₀ s.endAfter := by
  unfold State.endAfter
  dsimp only
  (repeat' split) <;> mono <;> refine Keeps.lit ?_ <;> mono

@[mono] theorem State.enqueue_keeps {s₀ s : State} {h} (hk : Keeps s₀ s) : Keeps s₀ (s.enqueue h) := .lit hk

@[mono] theorem State.doorbell_keeps {s₀ s : State} {h} (hk : Keeps s₀ s) : Keeps s₀ (s.doorbell h) := by
  unfold State.doorbell
  mono

@[mono] theorem State.haspControl_keeps {s₀ s : State} {h d ben} (hk : Keeps s₀ s) : Keeps s₀ (s.haspControl h d ben) := by
  unfold State.haspControl
  mono

@[mono] theorem State.haspWordWrite_keeps {s₀ s : State} {w off d poisoned ben} (hk : Keeps s₀ s) :
    Keeps s₀ (s.haspWordWrite w off d poisoned ben) := by
  unfold State.haspWordWrite
  mono

@[mono] theorem State.haspWordRead_keeps {s₀ s : State} {w off} (hk : Keeps s₀ s) : Keeps s₀ (s.haspWordRead w off).2 := by
  unfold State.haspWordRead
  dsimp only
  (repeat' split) <;> mono

@[mono] theorem State.begin__keeps {s₀ s : State} {h} (hk : Keeps s₀ s) : Keeps s₀ (s.begin_ h) := .lit (State.setHasp_keeps hk)

@[mono] theorem State.hidePart_keeps {s₀ s : State} {h} {old : State} (hk : Keeps s₀ s) : Keeps s₀ (s.hidePart h old) := by
  unfold State.hidePart
  mono <;> exact Keeps.lit hk

@[mono] theorem State.runCommand_keeps {s₀ s : State} {h op} {body : State → State} (hk : Keeps s₀ s)
    (hb : ∀ u, Keeps s₀ u → Keeps s₀ (body u)) : Keeps s₀ (s.runCommand h op body) := by
  unfold State.runCommand
  split
  · dsimp only
    split
    · mono
    · exact State.sweepBad_keeps (State.hidePart_keeps (hb _ (State.begin__keeps hk)))
  · exact hk

@[mono] theorem State.holdSerial_keeps {s₀ s : State} {h} (hk : Keeps s₀ s) : Keeps s₀ (s.holdSerial h) := .lit hk

@[mono] theorem State.clearMailbox_keeps {s₀ s : State} (hk : Keeps s₀ s) : Keeps s₀ s.clearMailbox :=
  .lit (hk.stores id id fun _ => Store.wf_empty)

/-! ### Groups -/

@[mono] theorem State.flush_keeps {s₀ s : State} {who role own known l} (hk : Keeps s₀ s) : Keeps s₀ (s.flush who role own known l).1 := by
  induction l generalizing s with
  | nil => exact hk
  | cons e r ih =>
    unfold State.flush
    mono

@[mono] theorem State.accountWords_keeps {s₀ s : State} {who ps} (hk : Keeps s₀ s) : Keeps s₀ (s.accountWords who ps) := by
  unfold State.accountWords
  mono <;> intros <;> mono

@[mono] theorem State.loseRecords_keeps {s₀ s : State} (hk : Keeps s₀ s) : Keeps s₀ s.loseRecords := by
  unfold State.loseRecords
  mono
  · exact .lit hk
  · exact fun _ _ hu => State.setGroup_keeps (.lit hu)

@[mono] theorem State.loseMortar_keeps {s₀ s : State} {off} (hk : Keeps s₀ s) : Keeps s₀ (s.loseMortar off) := by
  unfold State.loseMortar
  dsimp only
  mono
  · exact .lit hk
  · exact .lit hk
  · exact .lit hk
  · exact fun _ _ hu => State.setGroup_keeps (.lit hu)

@[mono] theorem State.zeroSlabs_keeps {s₀ s : State} {first n} (hk : Keeps s₀ s) : Keeps s₀ (s.zeroSlabs first n) := by
  unfold State.zeroSlabs
  split
  · refine hk.stores (fun h => ?_) id id
    rw [Store.wf_iff] at h ⊢
    exact ⟨Sparse.wf_filter 0 _ _ h.1, Sparse.wf_filter 0 _ _ h.2⟩
  · mono <;> intros <;> mono <;> intros <;> mono <;> intros <;> mono

@[mono] theorem State.zeroLines_keeps {s₀ s : State} {r a n} (hk : Keeps s₀ s) : Keeps s₀ (s.zeroLines r a n) := by
  unfold State.zeroLines
  mono <;> intros <;> mono <;> intros <;> mono

/-! ### Units of work of a descriptor (R372 to R391) -/

@[mono] theorem State.ringAccount_keeps {s₀ s : State} {k a n} (hk : Keeps s₀ s) : Keeps s₀ (s.ringAccount k a n) := by
  unfold State.ringAccount
  mono <;> intros <;> mono

@[mono] theorem State.ringFlush_keeps {s₀ s : State} {k m f ops fresh} (hk : Keeps s₀ s) : Keeps s₀ (s.ringFlush k m f ops fresh).1 := by
  unfold State.ringFlush
  mono

@[mono] theorem State.slatePut_keeps {s₀ s : State} {n row i c} (hk : Keeps s₀ s) : Keeps s₀ (s.slatePut n row i c) := by
  unfold State.slatePut
  mono

@[mono] theorem State.slateAccount_keeps {s₀ s : State} {k n row} (hk : Keeps s₀ s) : Keeps s₀ (s.slateAccount k n row) := by
  unfold State.slateAccount
  mono <;> intros <;> mono

@[mono] theorem State.slateLoad_keeps {s₀ s : State} {k d f} (hk : Keeps s₀ s) : Keeps s₀ (s.slateLoad k d f) := by
  unfold State.slateLoad
  mono <;> intros <;> mono

@[mono] theorem State.unitElementwise_keeps {s₀ s : State} {k d f} (hk : Keeps s₀ s) : Keeps s₀ (s.unitElementwise k d f).1 := by
  unfold State.unitElementwise
  mono

@[mono] theorem ringFits_set {s t : State} {k : Nat} {a b : Bool} (h : Keeps s t) : RingFits s ((t.ring k).set a b) :=
  fun hs => h.flight hs k

@[mono] theorem State.unitSlateCopy_keeps {s₀ s : State} {k d f} (hk : Keeps s₀ s) : Keeps s₀ (s.unitSlateCopy k d f).1 := by
  obtain ⟨put, hput⟩ : ∃ put, put = State.ringPut := ⟨_, rfl⟩
  unfold State.unitSlateCopy
  rw [← hput]
  split
  · exact hk
  · dsimp only
    mono

@[mono] theorem State.unitReduce_keeps {s₀ s : State} {k d f} (hk : Keeps s₀ s) : Keeps s₀ (s.unitReduce k d f).1 := by
  unfold State.unitReduce
  dsimp only
  (repeat' split) <;> mono

@[mono] theorem State.normRow_keeps {s₀ s : State} {k d f bs short bad} (hk : Keeps s₀ s) :
    Keeps s₀ (s.normRow k d f bs short bad).1 := State.setRing_keeps hk (ringFits_set hk)

@[mono] theorem State.unitRow_keeps {s₀ s : State} {k d f} (hk : Keeps s₀ s) : Keeps s₀ (s.unitRow k d f).1 := by
  unfold State.unitRow
  dsimp only
  (repeat' split) <;> mono

@[mono] theorem State.unitNorm_keeps {s₀ s : State} {k d f} (hk : Keeps s₀ s) : Keeps s₀ (s.unitNorm k d f).1 := by
  unfold State.unitNorm
  dsimp only
  (repeat' split) <;> mono

@[mono] theorem State.gemvLoad_keeps {s₀ s : State} {k d f} (hk : Keeps s₀ s) : Keeps s₀ (s.gemvLoad k d f) := by
  unfold State.gemvLoad
  mono <;> intros <;> mono <;> intros <;> mono

@[mono] theorem State.gemvRow_keeps {s₀ s : State} {k d f vec vbad} (hk : Keeps s₀ s) : Keeps s₀ (s.gemvRow k d f vec vbad).1 := by
  unfold State.gemvRow
  mono <;> intros <;> mono

@[mono] theorem State.unitGemv_keeps {s₀ s : State} {k d f} (hk : Keeps s₀ s) : Keeps s₀ (s.unitGemv k d f).1 := by
  unfold State.unitGemv
  split <;> mono

@[mono] theorem State.ringUnit_keeps {s₀ s : State} {k f} (hk : Keeps s₀ s) : Keeps s₀ (s.ringUnit k f).1 := by
  unfold State.ringUnit
  dsimp only
  (repeat' split) <;> mono

theorem length_setAt {α : Type} (l : List α) (i : Nat) (v : α) : (setAt l i v).length = l.length := by
  induction l generalizing i with
  | nil => rfl
  | cons a l ih =>
    cases i with
    | zero => rfl
    | succ i => exact congrArg (· + 1) (ih i)

@[mono] theorem State.ringWork_keeps {s₀ s : State} {k i n} (hk : Keeps s₀ s) : Keeps s₀ (s.ringWork k i n) := by
  induction n generalizing s with
  | zero => exact hk
  | succ n ih =>
    unfold State.ringWork
    split
    · exact hk
    · next f _ =>
      have hu := State.ringUnit_keeps (k := k) (f := f) hk
      exact ih (State.setRing_keeps hu fun hs => (length_setAt _ _ _).trans_le (hu.flight hs k))

/-! ### Ring control (R362 to R371, R395 to R399) -/

@[mono] theorem State.ringFault_keeps {s₀ s : State} {k err seq} (hk : Keeps s₀ s) : Keeps s₀ (s.ringFault k err seq) := by
  unfold State.ringFault
  mono

@[mono] theorem State.ringEnable_keeps {s₀ s : State} {k} (hk : Keeps s₀ s) : Keeps s₀ (s.ringEnable k) := by
  unfold State.ringEnable
  dsimp only
  (repeat' split) <;> mono

@[mono] theorem State.ringStop_keeps {s₀ s : State} {k} (hk : Keeps s₀ s) : Keeps s₀ (s.ringStop k) := by
  unfold State.ringStop
  mono

@[mono] theorem State.ringTail_keeps {s₀ s : State} {k v} (hk : Keeps s₀ s) : Keeps s₀ (s.ringTail k v) := by
  unfold State.ringTail
  mono

@[mono] theorem State.ringConfig_keeps {s₀ s : State} {k off v} (hk : Keeps s₀ s) : Keeps s₀ (s.ringConfig k off v) := by
  unfold State.ringConfig
  mono

@[mono] theorem State.putImage_keeps {s₀ s : State} {place f} (hk : Keeps s₀ s) : Keeps s₀ (s.putImage place f) := by
  unfold State.putImage
  mono <;> intros <;> mono

@[mono] theorem State.putImages_keeps {s₀ s : State} {k place} (hk : Keeps s₀ s) : Keeps s₀ (s.putImages k place) := by
  unfold State.putImages
  mono

@[mono] theorem State.descAccount_keeps {s₀ s : State} {k q} (hk : Keeps s₀ s) : Keeps s₀ (s.descAccount k q) := by
  unfold State.descAccount
  mono <;> intros <;> mono

@[mono] theorem State.accountImages_keeps {s₀ s : State} {k place} (hk : Keeps s₀ s) : Keeps s₀ (s.accountImages k place) := by
  unfold State.accountImages
  mono <;> intros <;> mono

@[mono] theorem State.dropLatch_keeps {s₀ s : State} {k} (hk : Keeps s₀ s) : Keeps s₀ (s.dropLatch k) := by
  unfold State.dropLatch
  mono

@[mono] theorem State.accountLoad_keeps {s₀ s : State} {k place} (hk : Keeps s₀ s) : Keeps s₀ (s.accountLoad k place) := by
  unfold State.accountLoad
  dsimp only
  (repeat' split) <;> mono <;> intros <;> mono

theorem Ring.length_found_le (r : Ring) (imgs : List InFlight) : (r.found imgs).length ≤ 2 := List.length_take_le _ _

theorem Ring.length_resume_le (r : Ring) (first : BitVec 512) (imgs : List InFlight) : (r.resume first imgs).length ≤ 2 := by
  unfold Ring.resume
  split
  · next h =>
    unfold Ring.firstDone at h
    split at h
    · next hf => simp [hf]
    · contradiction
  · exact Ring.length_found_le r imgs

@[mono] theorem State.loadImages_keeps {s₀ s : State} {k place rest} (hk : Keeps s₀ s) (hrest : s₀.bounded → rest.length ≤ 2) :
    Keeps s₀ (s.loadImages k place rest) := by
  unfold State.loadImages
  dsimp only
  split
  · exact State.setRing_keeps (by mono) fun _ => Ring.length_resume_le _ _ _
  · exact State.ringFault_keeps (State.setRing_keeps (State.accountLoad_keeps hk) hrest)

@[mono] theorem State.markContexts_keeps {s₀ s : State} {k} (hk : Keeps s₀ s) : Keeps s₀ (s.markContexts k) := by
  unfold State.markContexts
  mono

@[mono] theorem State.ringSave_keeps {s₀ s : State} {k} (hk : Keeps s₀ s) : Keeps s₀ (s.ringSave k) := by
  unfold State.ringSave
  mono

@[mono] theorem State.clearSaveValid_keeps {s₀ s : State} {k} (hk : Keeps s₀ s) : Keeps s₀ (s.clearSaveValid k) := by
  unfold State.clearSaveValid
  mono <;> intros <;> mono

@[mono] theorem State.abortNow_keeps {s₀ s : State} {k} (hk : Keeps s₀ s) : Keeps s₀ (s.abortNow k) := by
  unfold State.abortNow
  mono
  exact fun _ => Nat.zero_le 2

@[mono] theorem State.restoreNow_keeps {s₀ s : State} {k} (hk : Keeps s₀ s) : Keeps s₀ (s.restoreNow k) := by
  unfold State.restoreNow
  mono
  exact fun hs => hk.flight hs k

@[mono] theorem State.ringDue_keeps {s₀ s : State} {k} (hk : Keeps s₀ s) : Keeps s₀ (s.ringDue k) := by
  unfold State.ringDue
  mono

@[mono] theorem State.ringRestore_keeps {s₀ s : State} {k} (hk : Keeps s₀ s) : Keeps s₀ (s.ringRestore k) := by
  unfold State.ringRestore
  mono

@[mono] theorem State.ringAbort_keeps {s₀ s : State} {k} (hk : Keeps s₀ s) : Keeps s₀ (s.ringAbort k) := by
  unfold State.ringAbort
  mono

@[mono] theorem State.ringCtrl_keeps {s₀ s : State} {k v} (hk : Keeps s₀ s) : Keeps s₀ (s.ringCtrl k v) := by
  unfold State.ringCtrl
  mono

@[mono] theorem State.ringStatusW1c_keeps {s₀ s : State} {k v} (hk : Keeps s₀ s) : Keeps s₀ (s.ringStatusW1c k v) := by
  unfold State.ringStatusW1c
  mono

@[mono] theorem State.ringWrite_keeps {s₀ s : State} {k off v} (hk : Keeps s₀ s) : Keeps s₀ (s.ringWrite k off v) := by
  unfold State.ringWrite
  split <;> mono

@[mono] theorem State.descFetch_keeps {s₀ s : State} {k q} (hk : Keeps s₀ s) : Keeps s₀ (s.descFetch k q).2 := by
  unfold State.descFetch
  dsimp only
  (repeat' split) <;> mono

@[mono] theorem State.descFail_keeps {s₀ s : State} {k q e} (hk : Keeps s₀ s) : Keeps s₀ (s.descFail k q e) := by
  unfold State.descFail
  mono

theorem State.sameButCounts_sendDesc {s₀ s : State} {k ctx} (h : s₀.SameButCounts s) : s₀.SameButCounts (s.sendDesc k ctx) := by
  unfold State.sendDesc
  mono

@[mono] theorem State.descSend_keeps {s₀ s : State} {k q desc} (hk : Keeps s₀ s) (hl : s₀.bounded → (s.ring k).flight.length < 2) :
    Keeps s₀ (s.descSend k q desc) := by
  refine State.setRing_keeps (State.sendDesc_keeps hk) fun hs => ?_
  rw [List.length_append, (State.sameButCounts_sendDesc (.refl s)).ring k]
  exact hl hs

theorem State.flight_lt_of_descReady {s : State} {k : Nat} (h : s.descReady k = true) : (s.ring k).flight.length < 2 := by
  unfold State.descReady at h
  simp only [Bool.and_eq_true, decide_eq_true_eq] at h
  tauto

@[mono] theorem State.descStart_keeps {s₀ s : State} {k} (hk : Keeps s₀ s) : Keeps s₀ (s.descStart k) := by
  have hring (q : Nat) : (s.descFetch k q).2.ring k = s.ring k := (State.sameButCounts_descFetch (.refl s)).ring k
  unfold State.descStart
  dsimp only
  split
  · exact hk
  · next h =>
    have hl (q : Nat) : s₀.bounded → ((s.descFetch k q).2.ring k).flight.length < 2 := fun _ =>
      hring q ▸ State.flight_lt_of_descReady (by simpa using h)
    (repeat' split) <;> mono <;> exact hl _

@[mono] theorem State.retireOne_keeps {s₀ s : State} {k f} (hk : Keeps s₀ s) : Keeps s₀ (s.retireOne k f) := by
  have hr : RingFits s₀ { s.ring k with
      head := (s.ring k).head + 1, flight := (s.ring k).flight.drop 1, poisoned := (s.ring k).poisoned || f.poison,
      poisonCnt := if f.poison then satAdd (s.ring k).poisonCnt 1 else (s.ring k).poisonCnt } := fun hs =>
    ((List.drop_sublist 1 _).length_le).trans (hk.flight hs k)
  unfold State.retireOne
  dsimp only
  mono

@[mono] theorem State.ringSettle_keeps {s₀ s : State} {k} (hk : Keeps s₀ s) : Keeps s₀ (s.ringSettle k) := by
  unfold State.ringSettle
  dsimp only
  (repeat' split) <;> mono

@[mono] theorem State.descRetire_keeps {s₀ s : State} {k} (hk : Keeps s₀ s) : Keeps s₀ (s.descRetire k) := by
  have step (u : State) (hu : Keeps s₀ u) : Keeps s₀ (match (u.ring k).flight with
      | f :: _ => if u.retirable f then u.retireOne k f else u
      | [] => u) := by
    split <;> mono
  unfold State.descRetire
  split
  · exact hk
  · exact State.markContexts_keeps (State.ringSettle_keeps (keeps_ite (step _ (step _ hk)) (step _ hk)))

@[mono] theorem State.ringSaveDone_keeps {s₀ s : State} {k} (hk : Keeps s₀ s) : Keeps s₀ (s.ringSaveDone k) := by
  unfold State.ringSaveDone
  mono

@[mono] theorem State.saveRing_keeps {s₀ s : State} {k} (hk : Keeps s₀ s) : Keeps s₀ (s.saveRing k) := by
  unfold State.saveRing
  mono

@[mono] theorem State.saveAborted_keeps {s₀ s : State} (hk : Keeps s₀ s) : Keeps s₀ s.saveAborted := by
  unfold State.saveAborted
  mono <;> intros <;> mono

@[mono] theorem State.blankImages_keeps {s₀ s : State} {c save} (hk : Keeps s₀ s) : Keeps s₀ (s.blankImages c save) := .lit hk

@[mono] theorem State.everyRing_keeps {s₀ s : State} {save} {one : State → Nat → State} (hk : Keeps s₀ s)
    (h1 : ∀ k u, Keeps s₀ u → Keeps s₀ (one u k)) : Keeps s₀ (s.everyRing save one) := by
  unfold State.everyRing
  mono
  intro c u hu
  mono
  exact fun b v hv => h1 _ v hv

@[mono] theorem State.saveRings_keeps {s₀ s : State} (hk : Keeps s₀ s) : Keeps s₀ s.saveRings :=
  State.everyRing_keeps hk fun _ _ => State.saveRing_keeps

@[mono] theorem State.emptyContexts_keeps {s₀ s : State} (hk : Keeps s₀ s) : Keeps s₀ s.emptyContexts := by
  unfold State.emptyContexts
  mono
  intro k u hu
  mono
  exact fun hs => hu.owed hs k

@[mono] theorem State.loadRing_keeps {s₀ s : State} {k} (hk : Keeps s₀ s) : Keeps s₀ (s.loadRing k) :=
  State.markContexts_keeps (State.loadImages_keeps hk fun hs => (List.length_filter_le _ _).trans (hk.flight hs k))

@[mono] theorem State.loadRings_keeps {s₀ s : State} (hk : Keeps s₀ s) : Keeps s₀ s.loadRings := by
  unfold State.loadRings
  mono
  intro k u hu
  mono

/-! ### PULL_REPLICA (R357 to R359) -/

@[mono] theorem State.setPull_keeps {s₀ s : State} {p} (hk : Keeps s₀ s) : Keeps s₀ (s.setPull p) := by
  unfold State.setPull
  mono <;> exact Keeps.lit hk

@[mono] theorem State.dropBg_keeps {s₀ s : State} {pick} (hk : Keeps s₀ s) : Keeps s₀ (s.dropBg pick) := .lit hk

@[mono] theorem State.pullIssue_keeps {s₀ s : State} {p what} (hk : Keeps s₀ s) : Keeps s₀ (s.pullIssue p what) := by
  unfold State.pullIssue
  dsimp only
  split
  · exact hk
  · exact .lit (State.foPush_keeps hk)

@[mono] theorem State.pullEnd_keeps {s₀ s : State} {p} (hk : Keeps s₀ s) : Keeps s₀ (s.pullEnd p) := by
  unfold State.pullEnd
  mono

theorem State.pullNext_keeps {s₀ s t : State} {p : Pull} (hk : Keeps s₀ s) (h : s.pullNext p = some t) : Keeps s₀ t := by
  unfold State.pullNext at h
  (repeat' split at h) <;> first | contradiction | (rw [← Option.some.inj h]; mono)

@[mono] theorem State.pumpPulls_keeps {s₀ s : State} {n} (hk : Keeps s₀ s) : Keeps s₀ (s.pumpPulls n) := by
  induction n generalizing s with
  | zero => exact hk
  | succ n ih =>
    unfold State.pumpPulls
    split
    · exact hk
    · split
      · next h =>
        obtain ⟨p, _, hp⟩ := List.exists_of_findSome?_eq_some h
        exact ih (State.pullNext_keeps hk hp)
      · exact hk

/-! ### Register writes (R516 to R539) -/

@[mono] theorem State.closeSession_keeps {s₀ s : State} (hk : Keeps s₀ s) : Keeps s₀ s.closeSession where
  pending := hk.pending
  memWf := hk.memWf
  bounded := hk.bounded
  fuses := hk.fuses
  session := nofun

@[mono] theorem State.endSession_keeps {s₀ s : State} (hk : Keeps s₀ s) : Keeps s₀ s.endSession := by
  unfold State.endSession
  mono

@[mono] theorem State.fwLoadBegin_keeps {s₀ s : State} (hk : Keeps s₀ s) : Keeps s₀ s.fwLoadBegin := by
  unfold State.fwLoadBegin
  mono <;> exact Keeps.lit hk

@[mono] theorem State.fwLoadWord_keeps {s₀ s : State} {v} (hk : Keeps s₀ s) : Keeps s₀ (s.fwLoadWord v) := by
  unfold State.fwLoadWord
  mono <;> exact Keeps.lit hk

@[mono] theorem State.fwLoadStop_keeps {s₀ s : State} (hk : Keeps s₀ s) : Keeps s₀ s.fwLoadStop := by
  unfold State.fwLoadStop
  mono <;> exact Keeps.lit hk

@[mono] theorem State.mapRegs_keeps {s₀ s : State} {f : Regs → Regs} (hk : Keeps s₀ s)
    (hf : (f s.regs).log.length ≤ s.regs.log.length) : Keeps s₀ (s.mapRegs f) :=
  hk.log hf.trans

@[mono] theorem State.mapPlumb_keeps {s₀ s : State} {f} (hk : Keeps s₀ s) : Keeps s₀ (s.mapPlumb f) := .lit hk

@[mono] theorem State.writeLocked_keeps {s₀ s : State} {f : Regs → Regs} (hk : Keeps s₀ s)
    (hf : (f s.regs).log = s.regs.log) : Keeps s₀ (s.writeLocked f) := by
  unfold State.writeLocked
  split
  · exact .lit hk
  · exact .lit hk (hlog := hf)

theorem Regs.length_log_clearLog_le (r : Regs) : r.clearLog.log.length ≤ r.log.length := Nat.zero_le _

@[mono] theorem State.writeGlobal_keeps {s₀ s : State} {off v} (hk : Keeps s₀ s) : Keeps s₀ (s.writeGlobal off v) := by
  have hclear : (if v.getLsbD 8 then s.regs.clearLog else s.regs).log.length ≤ s.regs.log.length := by
    split
    · exact Regs.length_log_clearLog_le _
    · exact le_rfl
  have lit (st : Start) (h : st.fuseSvn = s.start.fuseSvn) (h' : st.spill.rings = s.start.spill.rings) :
      Keeps s₀ { s with start := st } := .lit hk (hfuse := h) (hspill := h')
  unfold State.writeGlobal
  dsimp only
  repeat' with_reducible refine keeps_ite ?_ ?_
  all_goals first
    | exact State.mapRegs_keeps hk le_rfl
    | exact State.writeLocked_keeps hk rfl
    | exact State.mapRegs_keeps hk hclear
    | exact lit _ rfl rfl
    | mono

@[mono] theorem State.noteWrite_keeps {s₀ s : State} {off} (hk : Keeps s₀ s) : Keeps s₀ (s.noteWrite off) := by
  unfold State.noteWrite
  mono <;> exact Keeps.lit hk

@[mono] theorem State.writeChan_keeps {s₀ s : State} {off v c} (hk : Keeps s₀ s) : Keeps s₀ (s.writeChan off v c) := .lit hk

@[mono] theorem State.writeChans_keeps {s₀ s : State} {cs off v} (hk : Keeps s₀ s) : Keeps s₀ (s.writeChans cs off v) := by
  unfold State.writeChans
  mono <;> intros <;> mono

@[mono] theorem State.writeRegTo_keeps {s₀ s : State} {off v chans} (hk : Keeps s₀ s) : Keeps s₀ (s.writeRegTo off v chans) := by
  unfold State.writeRegTo
  split <;> mono

@[mono] theorem State.writeReg_keeps {s₀ s : State} {off v} (hk : Keeps s₀ s) : Keeps s₀ (s.writeReg off v) := by
  unfold State.writeReg
  mono

@[mono] theorem State.writeRegLine_keeps {s₀ s : State} {off d ben chans} (hk : Keeps s₀ s) :
    Keeps s₀ (s.writeRegLine off d ben chans) := by
  unfold State.writeRegLine
  mono <;> intros <;> mono

/-! ### Pintle requests and the queues of banks (R44 to R56, R200 to R204) -/

@[mono] theorem State.rxWords_keeps {s₀ s : State} {site w at_ detect d c l} (hk : Keeps s₀ s) :
    Keeps s₀ (s.rxWords site w at_ detect d c l).2.2.2 := by
  induction l generalizing s with
  | nil => exact hk
  | cons i r ih =>
    unfold State.rxWords
    mono

@[mono] theorem State.readStackLine_keeps {s₀ s : State} {w a} (hk : Keeps s₀ s) : Keeps s₀ (s.readStackLine w a).2 := by
  unfold State.readStackLine
  split
  · exact hk
  · rw [apply_ite Prod.snd]
    mono

@[mono] theorem State.readHaspLine_keeps {s₀ s : State} {w off l} (hk : Keeps s₀ s) : Keeps s₀ (s.readHaspLine w off l).2 := by
  induction l generalizing s with
  | nil => exact hk
  | cons i r ih =>
    unfold State.readHaspLine
    mono

@[mono] theorem State.readCtlLine_keeps {s₀ s : State} {r} (hk : Keeps s₀ s) : Keeps s₀ (s.readCtlLine r).2 := by
  unfold State.readCtlLine
  split <;> mono

@[mono] theorem State.writeWords_keeps {s₀ s : State} {w place ben l} (hk : Keeps s₀ s) : Keeps s₀ (s.writeWords w place ben l) := by
  induction l generalizing s with
  | nil => exact hk
  | cons e r ih =>
    unfold State.writeWords
    mono

@[mono] theorem State.writeHaspWords_keeps {s₀ s : State} {w off ben l} (hk : Keeps s₀ s) : Keeps s₀ (s.writeHaspWords w off ben l) := by
  induction l generalizing s with
  | nil => exact hk
  | cons e r ih =>
    unfold State.writeHaspWords
    mono

@[mono] theorem State.writeCtlWords_keeps {s₀ s : State} {r vs} (hk : Keeps s₀ s) : Keeps s₀ (s.writeCtlWords r vs) := by
  unfold State.writeCtlWords
  split <;> mono

@[mono] theorem State.stackServe_keeps {s₀ s : State} {r} (hk : Keeps s₀ s) : Keeps s₀ (s.stackServe r) := by
  unfold State.stackServe
  dsimp only
  split <;> mono

@[mono] theorem State.enqueueBank_keeps {s₀ s : State} {k a} (hk : Keeps s₀ s) : Keeps s₀ (s.enqueueBank k a) := by
  unfold State.enqueueBank
  mono

@[mono] theorem State.dbBond_keeps {s₀ s : State} {p u} (hk : Keeps s₀ s) : Keeps s₀ (s.dbBond p u) := by
  unfold State.dbBond
  dsimp only
  mono <;> refine Keeps.lit ?_ <;> mono

@[mono] theorem State.dbUnlaid_keeps {s₀ s : State} {p u} (hk : Keeps s₀ s) : Keeps s₀ (s.dbUnlaid p u) := by
  unfold State.dbUnlaid
  dsimp only
  mono <;> refine Keeps.lit ?_ <;> mono

@[mono] theorem State.serveAccess_keeps {s₀ s : State} {k a} (hk : Keeps s₀ s) : Keeps s₀ (s.serveAccess k a) := by
  unfold State.serveAccess
  dsimp only
  (repeat' split) <;> mono

@[mono] theorem State.countHost_keeps {s₀ s : State} {k cs} (hk : Keeps s₀ s) : Keeps s₀ (s.countHost k cs) := .lit hk

@[mono] theorem State.serveRow_keeps {s₀ s : State} {k g} (hk : Keeps s₀ s) : Keeps s₀ (s.serveRow k g) := by
  unfold State.serveRow
  mono <;> intros <;> mono

@[mono] theorem State.bankAccess_keeps {s₀ s : State} {k a} (hk : Keeps s₀ s) : Keeps s₀ (s.bankAccess k a) := by
  unfold State.bankAccess
  mono

@[mono] theorem State.dataError_keeps {s₀ s : State} {r} (hk : Keeps s₀ s) : Keeps s₀ (s.dataError r) := .lit hk

@[mono] theorem State.pintleWrite_keeps {s₀ s : State} {r} (hk : Keeps s₀ s) : Keeps s₀ (s.pintleWrite r) := by
  unfold State.pintleWrite
  dsimp only
  (repeat' split) <;> mono

@[mono] theorem State.pintleRead_keeps {s₀ s : State} {r} (hk : Keeps s₀ s) : Keeps s₀ (s.pintleRead r) := by
  unfold State.pintleRead
  dsimp only
  (repeat' split) <;> mono

@[mono] theorem State.pintleAtomic_keeps {s₀ s : State} {r i} (hk : Keeps s₀ s) : Keeps s₀ (s.pintleAtomic r i) := by
  unfold State.pintleAtomic
  mono

@[mono] theorem State.pintlePerform_keeps {s₀ s : State} {r} (hk : Keeps s₀ s) : Keeps s₀ (s.pintlePerform r) := by
  unfold State.pintlePerform
  split
  · mono
  · split
    · mono
    · split
      · mono
      · split <;> mono

@[mono] theorem State.drainPort_keeps {s₀ s : State} {port n} (hk : Keeps s₀ s) : Keeps s₀ (s.drainPort port n) := by
  induction n generalizing s with
  | zero => exact hk
  | succ n ih =>
    unfold State.drainPort
    split <;> mono

@[mono] theorem State.drainPorts_keeps {s₀ s : State} (hk : Keeps s₀ s) : Keeps s₀ s.drainPorts := by
  unfold State.drainPorts
  mono <;> intros <;> mono

@[mono] theorem State.pintleIssue_keeps {s₀ s : State} {r} (hk : Keeps s₀ s) : Keeps s₀ (s.pintleIssue r) := by
  unfold State.pintleIssue
  mono

@[mono] theorem State.serveOnce_keeps {s₀ s : State} {k inOrder pick} (hk : Keeps s₀ s) : Keeps s₀ (s.serveOnce k inOrder pick) := by
  unfold State.serveOnce
  mono <;> intros <;> mono

@[mono] theorem State.serveMore_keeps {s₀ s : State} {k inOrder pick n} (hk : Keeps s₀ s) : Keeps s₀ (s.serveMore k inOrder pick n) := by
  induction n generalizing s with
  | zero => exact hk
  | succ n ih =>
    unfold State.serveMore
    mono

@[mono] theorem State.serveQueue_keeps {s₀ s : State} {k inOrder pick} (hk : Keeps s₀ s) : Keeps s₀ (s.serveQueue k inOrder pick) := by
  unfold State.serveQueue
  mono

@[mono] theorem State.serveIdle_keeps {s₀ s : State} {k} (hk : Keeps s₀ s) : Keeps s₀ (s.serveIdle k) := by
  unfold State.serveIdle
  mono

@[mono] theorem State.serveAllIdle_keeps {s₀ s : State} (hk : Keeps s₀ s) : Keeps s₀ s.serveAllIdle := by
  unfold State.serveAllIdle
  mono <;> intros <;> mono

/-! ### Held acquires (R410, R411) -/

theorem sublist_removeAt {α : Type} (l : List α) (i : Nat) : (removeAt l i).Sublist l := by
  induction l generalizing i with
  | nil => exact .slnil
  | cons a l ih =>
    cases i with
    | zero => exact .cons a (.refl l)
    | succ i => exact (ih i).cons_cons a

/-- An acquire that leaves the hold (R410, R411). -/
theorem Keeps.dropHeld {s t : State} (h : Keeps s t) (i : Nat) {regs : Regs} (hlog : regs.log = t.regs.log) :
    Keeps s { t with acq := removeAt t.acq i, regs := regs } :=
  h.acq (((sublist_removeAt t.acq i).filter _).length_le).trans hlog

@[mono] theorem State.acquireDone_keeps {s₀ s : State} {i} (hk : Keeps s₀ s) : Keeps s₀ (s.acquireDone i) := by
  unfold State.acquireDone
  split
  · split
    · split
      · exact State.drainPorts_keeps (State.acqOkay_keeps (Keeps.dropHeld hk i rfl))
      · exact hk
    · exact hk
  · exact hk

@[mono] theorem State.acquireTimeout_keeps {s₀ s : State} {i} (hk : Keeps s₀ s) : Keeps s₀ (s.acquireTimeout i) := by
  unfold State.acquireTimeout
  split
  · split
    · exact State.drainPorts_keeps (State.acqOkay_keeps (Keeps.dropHeld hk i rfl))
    · exact hk
  · exact hk

/-! ### The Lintel record (R344 to R348) -/

@[mono] theorem State.putLine_keeps {s₀ s : State} {ps bs} (hk : Keeps s₀ s) : Keeps s₀ (s.putLine ps bs) := by
  unfold State.putLine
  mono

@[mono] theorem State.lintelPutBytes_keeps {s₀ s : State} {copy bs n} (hk : Keeps s₀ s) : Keeps s₀ (s.lintelPutBytes copy bs n) := by
  induction n generalizing s with
  | zero => exact State.irq_keeps (.lit hk)
  | succ n ih =>
    unfold State.lintelPutBytes
    dsimp only
    mono

@[mono] theorem State.lintelIssue_keeps {s₀ s : State} {copy bs} (hk : Keeps s₀ s) : Keeps s₀ (s.lintelIssue copy bs) := by
  unfold State.lintelIssue
  mono <;> intros <;> mono

@[mono] theorem State.lintelDrain_keeps {s₀ s : State} {bank n} (hk : Keeps s₀ s) : Keeps s₀ (s.lintelDrain bank n) := by
  induction n generalizing s with
  | zero => exact hk
  | succ n ih =>
    unfold State.lintelDrain
    dsimp only
    (repeat' split) <;> mono <;> refine Keeps.lit ?_ <;> mono

@[mono] theorem State.lintelAt_keeps {s₀ s : State} {bank} (hk : Keeps s₀ s) : Keeps s₀ (s.lintelAt bank) := by
  unfold State.lintelAt
  mono

@[mono] theorem State.lintelRun_keeps {s₀ s : State} {n} (hk : Keeps s₀ s) : Keeps s₀ (s.lintelRun n) := by
  induction n generalizing s with
  | zero => exact hk
  | succ n ih =>
    unfold State.lintelRun
    dsimp only
    (repeat' split) <;> mono <;> refine Keeps.lit ?_ <;> mono

@[mono] theorem State.lintelForce_keeps {s₀ s : State} (hk : Keeps s₀ s) : Keeps s₀ s.lintelForce := by
  unfold State.lintelForce
  mono

@[mono] theorem State.lintelPut_keeps {s₀ s : State} {copy epoch} (hk : Keeps s₀ s) : Keeps s₀ (s.lintelPut copy epoch) := by
  unfold State.lintelPut
  mono <;> exact Keeps.lit hk

@[mono] theorem State.lintelSeq_keeps {s₀ s : State} (hk : Keeps s₀ s) : Keeps s₀ s.lintelSeq := .lit hk

@[mono] theorem State.lintelWrite_keeps {s₀ s : State} (hk : Keeps s₀ s) : Keeps s₀ s.lintelWrite := by
  unfold State.lintelWrite
  mono

@[mono] theorem State.lintelCopy1_keeps {s₀ s : State} (hk : Keeps s₀ s) : Keeps s₀ s.lintelCopy1 := by
  unfold State.lintelCopy1
  split <;> mono

theorem foldl_setChan_start {α : Type} (f : State → α → Nat) (x : State → α → Channel) (l : List α) (s : State) :
    (l.foldl (fun s a => s.setChan (f s a) (x s a)) s).start = s.start := by
  induction l generalizing s with
  | nil => rfl
  | cons a l ih => exact ih _

theorem State.wroteRecord_start (s : State) : s.wroteRecord.start = s.start := foldl_setChan_start (fun _ c => c) _ _ s.forgetDb

@[mono] theorem State.configChanged_keeps {s₀ s : State} (hk : Keeps s₀ s) : Keeps s₀ s.configChanged :=
  State.lintelWrite_keeps (.lit (State.wroteRecord_keeps hk) (hfuse := by rw [State.wroteRecord_start])
    (hspill := by rw [State.wroteRecord_start]))

@[mono] theorem State.lintelAccount_keeps {s₀ s : State} (hk : Keeps s₀ s) : Keeps s₀ s.lintelAccount := by
  unfold State.lintelAccount
  mono <;> intros <;> mono

@[mono] theorem State.lintelRepair_keeps {s₀ s : State} {r copy} (hk : Keeps s₀ s) : Keeps s₀ (s.lintelRepair r copy) := by
  unfold State.lintelRepair
  split <;> mono

/-! ### Queries and configuration (R145 to R155, R255 to R261, R510) -/

@[mono] theorem State.getStepReport_keeps {s₀ s : State} {h} (hk : Keeps s₀ s) : Keeps s₀ (s.getStepReport h) := by
  unfold State.getStepReport
  dsimp only
  (repeat' split) <;> mono

@[mono] theorem State.getPlumb_keeps {s₀ s : State} {h} (hk : Keeps s₀ s) : Keeps s₀ (s.getPlumb h) := by
  unfold State.getPlumb
  mono

@[mono] theorem State.setCompat_keeps {s₀ s : State} {h} (hk : Keeps s₀ s) : Keeps s₀ (s.setCompat h) := by
  unfold State.setCompat
  split <;> mono <;> exact Keeps.lit (by mono)

@[mono] theorem State.defineRegion_keeps {s₀ s : State} {h} (hk : Keeps s₀ s) : Keeps s₀ (s.defineRegion h) := by
  unfold State.defineRegion
  dsimp only
  split <;> mono

@[mono] theorem State.initRlast_keeps {s₀ s : State} {g} (hk : Keeps s₀ s) : Keeps s₀ (s.initRlast g) := by
  unfold State.initRlast
  mono

@[mono] theorem State.putSchedule_keeps {s₀ s : State} {n bs} (hk : Keeps s₀ s) : Keeps s₀ (s.putSchedule n bs) :=
  hk.stores id (fun h => Store.wf_writeFresh _ _ _ (Store.wf_zero _ _ _ h)) id

@[mono] theorem State.createNow_keeps {s₀ s : State} {h n g cr} (hk : Keeps s₀ s) : Keeps s₀ (s.createNow h n g cr) := by
  unfold State.createNow
  mono

@[mono] theorem State.createGroup_keeps {s₀ s : State} {h n g} (hk : Keeps s₀ s) : Keeps s₀ (s.createGroup h n g) := by
  unfold State.createGroup
  split <;> mono

@[mono] theorem State.createEnd_keeps {s₀ s : State} {h} (hk : Keeps s₀ s) : Keeps s₀ (s.createEnd h) := by
  unfold State.createEnd
  dsimp only
  split <;> mono

@[mono] theorem State.defineGroup_keeps {s₀ s : State} {h} (hk : Keeps s₀ s) : Keeps s₀ (s.defineGroup h) := by
  unfold State.defineGroup
  dsimp only
  (repeat' split) <;> mono

@[mono] theorem State.loadSchedule_keeps {s₀ s : State} {h} (hk : Keeps s₀ s) : Keeps s₀ (s.loadSchedule h) := by
  unfold State.loadSchedule
  dsimp only
  split <;> mono

@[mono] theorem State.putSeed_keeps {s₀ s : State} {seed src} (hk : Keeps s₀ s) : Keeps s₀ (s.putSeed seed src) := by
  have ht := State.lintelWrite_keeps (s := { s with ctl := { s.ctl with seed := seed, seedSrc := src } }) (.lit hk)
  unfold State.putSeed
  dsimp only
  split
  · exact ht
  · exact .lit ht

@[mono] theorem State.setSeed_keeps {s₀ s : State} {h} (hk : Keeps s₀ s) : Keeps s₀ (s.setSeed h) := by
  unfold State.setSeed
  split <;> mono

@[mono] theorem State.trngFail_keeps {s₀ s : State} {f} (hk : Keeps s₀ s) : Keeps s₀ (s.trngFail f) := State.irq_keeps (.lit hk)

@[mono] theorem State.drawEnd_keeps {s₀ s : State} {h bits} (hk : Keeps s₀ s) : Keeps s₀ (s.drawEnd h bits) := by
  have hdraw : Keeps s₀ (match s.dbg.busy with
      | .draw _ => { s with dbg := { s.dbg with busy := .draw false } }
      | _ => s) := by
    split
    · exact .lit hk
    · exact hk
  unfold State.drawEnd
  dsimp only
  split
  · exact State.finish_keeps (.lit (State.trngFail_keeps hdraw))
  · mono <;> exact hdraw

/-! ### Intake (R266 to R290) -/

@[mono] theorem State.openStep_keeps {s₀ s : State} {h} (hk : Keeps s₀ s) : Keeps s₀ (s.openStep h) := by
  unfold State.openStep
  dsimp only
  (repeat' split) <;> mono

@[mono] theorem State.clearIntake_keeps {s₀ s : State} {b} (hk : Keeps s₀ s) : Keeps s₀ (s.clearIntake b) := by
  unfold State.clearIntake
  split
  · refine hk.stores (fun h => ?_) id id
    rw [Store.wf_iff] at h ⊢
    exact ⟨Sparse.wf_filter 0 _ _ h.1, Sparse.wf_filter 0 _ _ h.2⟩
  · mono
    intro e u hu
    dsimp only
    mono
    intro l v hv
    mono

@[mono] theorem State.countStale_keeps {s₀ s : State} {key} (hk : Keeps s₀ s) : Keeps s₀ (s.countStale key) := by
  unfold State.countStale
  dsimp only
  (repeat' split) <;> mono <;> intros <;> mono <;> exact Keeps.lit (by mono)

@[mono] theorem State.countStray_keeps {s₀ s : State} {b} (hk : Keeps s₀ s) : Keeps s₀ (s.countStray b) := by
  unfold State.countStray
  exact State.cross_keeps (State.setSet_keeps hk) fun _ hu => .lit hu

@[mono] theorem State.takeLine_keeps {s₀ s : State} {src tag w line d} (hk : Keeps s₀ s) : Keeps s₀ (s.takeLine src tag w line d) := by
  unfold State.takeLine
  dsimp only
  split
  · mono
  · split
    · mono
    · split
      · mono
      · exact .lit (State.setSet_keeps (State.forgetDb_keeps hk))

@[mono] theorem State.addPiece_keeps {s₀ s : State} {b p} (hk : Keeps s₀ s) : Keeps s₀ (s.addPiece b p) := by
  unfold State.addPiece
  dsimp only
  (repeat' split) <;> mono <;> intros <;> mono

@[mono] theorem State.stagePieces_keeps {s₀ s : State} {k} (hk : Keeps s₀ s) : Keeps s₀ (s.stagePieces k) := by
  unfold State.stagePieces
  dsimp only
  exact Keeps.lit (by mono)

@[mono] theorem State.accumContrib_keeps {s₀ s : State} {k} (hk : Keeps s₀ s) : Keeps s₀ (s.accumContrib k) := by
  unfold State.accumContrib
  split <;> mono <;> exact Keeps.lit hk

@[mono] theorem State.takeSeal_keeps {s₀ s : State} {src tag d} (hk : Keeps s₀ s) : Keeps s₀ (s.takeSeal src tag d) := by
  unfold State.takeSeal
  split <;> mono

@[mono] theorem State.closeSet_keeps {s₀ s : State} {b cause} (hk : Keeps s₀ s) : Keeps s₀ (s.closeSet b cause) := by
  unfold State.closeSet
  mono

@[mono] theorem State.deadlineClose_keeps {s₀ s : State} (hk : Keeps s₀ s) : Keeps s₀ s.deadlineClose := by
  unfold State.deadlineClose
  mono

@[mono] theorem State.releaseSeal_keeps {s₀ s : State} {b h} (hk : Keeps s₀ s) : Keeps s₀ (s.releaseSeal b h) := by
  unfold State.releaseSeal
  mono

@[mono] theorem State.sealRelease_keeps {s₀ s : State} {c} (hk : Keeps s₀ s) : Keeps s₀ (s.sealRelease c) := by
  unfold State.sealRelease
  dsimp only
  split <;> mono

@[mono] theorem keeps_foldl_snd {α β : Type} {s : State} {x : β × State} {f : β × State → α → β × State} {l : List α} (h : Keeps s x.2)
    (hf : ∀ a y, Keeps s y.2 → Keeps s (f y a).2) : Keeps s (l.foldl f x).2 := by
  induction l generalizing x with
  | nil => exact h
  | cons a l ih => exact ih (hf a x h)

@[mono] theorem State.scanAccount_keeps {s₀ s : State} {ps} (hk : Keeps s₀ s) : Keeps s₀ (s.scanAccount ps).2 :=
  keeps_foldl_snd hk fun _ _ hu => State.readPlace_keeps hu

@[mono] theorem State.scanInto_keeps {s₀ s : State} {b n g} (hk : Keeps s₀ s) : Keeps s₀ (s.scanInto b n g) := by
  unfold State.scanInto
  mono

@[mono] theorem State.readKnots_keeps {s₀ s : State} (hk : Keeps s₀ s) : Keeps s₀ s.readKnots := by
  unfold State.readKnots
  mono <;> intros <;> mono

@[mono] theorem State.scanReports_keeps {s₀ s : State} (hk : Keeps s₀ s) : Keeps s₀ s.scanReports := by
  unfold State.scanReports
  mono <;> intros <;> mono

@[mono] theorem State.masksLeft_keeps {s₀ s : State} {b} (hk : Keeps s₀ s) : Keeps s₀ (s.masksLeft b) := by
  unfold State.masksLeft
  mono

@[mono] theorem State.masksGo_keeps {s₀ s : State} {b} (hk : Keeps s₀ s) : Keeps s₀ (s.masksGo b) := by
  unfold State.masksGo
  mono

@[mono] theorem State.feedMasks_keeps {s₀ s : State} {k} (hk : Keeps s₀ s) : Keeps s₀ (s.feedMasks k) := by
  unfold State.feedMasks
  split <;> mono

@[mono] theorem State.sealScan_keeps {s₀ s : State} {b} (hk : Keeps s₀ s) : Keeps s₀ (s.sealScan b) := by
  unfold State.sealScan
  mono <;> intros <;> mono

@[mono] theorem State.scanDone_keeps {s₀ s : State} {b} (hk : Keeps s₀ s) : Keeps s₀ (s.scanDone b) := by
  unfold State.scanDone
  mono

@[mono] theorem State.dropIntake_keeps {s₀ s : State} {b} (hk : Keeps s₀ s) : Keeps s₀ (s.dropIntake b) :=
  .lit (State.setSet_keeps (keeps_foldl hk fun _ _ hu => State.errResp_keeps hu))

/-! ### Updates (R320 to R342) -/

@[mono] theorem State.accountUpd_keeps {s₀ s : State} {c ps} (hk : Keeps s₀ s) : Keeps s₀ (s.accountUpd c ps) := by
  unfold State.accountUpd
  mono <;> intros <;> mono

@[mono] theorem State.unitReports_keeps {s₀ s : State} {c ks} (hk : Keeps s₀ s) : Keeps s₀ (s.unitReports c ks) := by
  unfold State.unitReports
  mono <;> intros <;> mono

@[mono] theorem State.countRun_keeps {s₀ s : State} {c nonfin poison} (hk : Keeps s₀ s) : Keeps s₀ (s.countRun c nonfin poison) := by
  unfold State.countRun
  mono

@[mono] theorem State.updElems_keeps {s₀ s : State} {c bank seen is rows rstat} (hk : Keeps s₀ s) :
    Keeps s₀ (s.updElems c bank seen is rows rstat) := by
  unfold State.updElems
  dsimp only
  mono <;> refine Keeps.lit ?_ <;> mono

@[mono] theorem State.pass1_keeps {s₀ s : State} {c} (hk : Keeps s₀ s) : Keeps s₀ (s.pass1 c) := by
  unfold State.pass1
  mono <;> intros <;> mono

@[mono] theorem State.storeQ_keeps {s₀ s : State} {c} (hk : Keeps s₀ s) : Keeps s₀ (s.storeQ c) := by
  unfold State.storeQ
  split <;> mono

@[mono] theorem State.runSafe_keeps {s₀ s : State} {b r n g} (hk : Keeps s₀ s) : Keeps s₀ (s.runSafe b r n g) := by
  unfold State.runSafe
  dsimp only
  (repeat' split) <;> mono <;> intros <;> mono

@[mono] theorem State.journalPut_keeps {s₀ s : State} {c unit at_} (hk : Keeps s₀ s) : Keeps s₀ (s.journalPut c unit at_) := by
  unfold State.journalPut
  dsimp only
  exact Keeps.lit (by mono)

@[mono] theorem State.undo_keeps {s₀ s : State} {c e} (hk : Keeps s₀ s) : Keeps s₀ (s.undo c e) := by
  unfold State.undo
  mono

@[mono] theorem State.accountStart_keeps {s₀ s : State} {c unit} (hk : Keeps s₀ s) : Keeps s₀ (s.accountStart c unit) := by
  unfold State.accountStart
  dsimp only
  exact Keeps.lit (by mono)

@[mono] theorem State.unitStarted_keeps {s₀ s : State} {n unit} (hk : Keeps s₀ s) : Keeps s₀ (s.unitStarted n unit) := by
  unfold State.unitStarted
  dsimp only
  (repeat' split) <;> mono

@[mono] theorem State.unitBack_keeps {s₀ s : State} {n unit} (hk : Keeps s₀ s) : Keeps s₀ (s.unitBack n unit) := by
  unfold State.unitBack
  dsimp only
  (repeat' split) <;> mono

@[mono] theorem State.leanStart_keeps {s₀ s : State} {n unit} (hk : Keeps s₀ s) : Keeps s₀ (s.leanStart n unit) := by
  unfold State.leanStart
  split <;> mono

@[mono] theorem State.unitFinished_keeps {s₀ s : State} {n unit} (hk : Keeps s₀ s) : Keeps s₀ (s.unitFinished n unit) := by
  unfold State.unitFinished
  dsimp only
  (repeat' split) <;> mono <;> refine Keeps.lit ?_ <;> mono

@[mono] theorem State.unitWrite_keeps {s₀ s : State} {n unit} (hk : Keeps s₀ s) : Keeps s₀ (s.unitWrite n unit) := by
  unfold State.unitWrite
  split <;> mono

@[mono] theorem State.leanDone_keeps {s₀ s : State} {n unit} (hk : Keeps s₀ s) : Keeps s₀ (s.leanDone n unit) := by
  unfold State.leanDone
  split <;> mono

@[mono] theorem State.zeroCounts_keeps {s₀ s : State} {b pick} (hk : Keeps s₀ s) : Keeps s₀ (s.zeroCounts b pick) := by
  unfold State.zeroCounts
  mono <;> intros <;> mono

@[mono] theorem State.spoilSafe_keeps {s₀ s : State} (hk : Keeps s₀ s) : Keeps s₀ s.spoilSafe := by
  unfold State.spoilSafe
  mono <;> intros <;> mono

@[mono] theorem State.spoilRun_keeps {s₀ s : State} {b} (hk : Keeps s₀ s) : Keeps s₀ (s.spoilRun b) := by
  unfold State.spoilRun
  mono

@[mono] theorem State.loseVersions_keeps {s₀ s : State} {t pick} (hk : Keeps s₀ s) : Keeps s₀ (s.loseVersions t pick) := by
  unfold State.loseVersions
  mono <;> intros <;> mono

@[mono] theorem State.openRun_keeps {s₀ s : State} {b spec clip exp} (hk : Keeps s₀ s) : Keeps s₀ (s.openRun b spec clip exp) := by
  unfold State.openRun
  mono

@[mono] theorem State.startRows_keeps {s₀ s : State} {b} (hk : Keeps s₀ s) : Keeps s₀ (s.startRows b) := by
  unfold State.startRows
  split <;> mono

@[mono] theorem State.startRun_keeps {s₀ s : State} {b spec clip exp} (hk : Keeps s₀ s) : Keeps s₀ (s.startRun b spec clip exp) := by
  unfold State.startRun
  mono

@[mono] theorem State.updateStart_keeps {s₀ s : State} {b} (hk : Keeps s₀ s) : Keeps s₀ (s.updateStart b) := by
  unfold State.updateStart
  split
  · exact hk
  · split <;> mono

@[mono] theorem State.pass2Begin_keeps {s₀ s : State} {b n} (hk : Keeps s₀ s) : Keeps s₀ (s.pass2Begin b n) := by
  unfold State.pass2Begin
  split <;> mono

@[mono] theorem State.pass2Start_keeps {s₀ s : State} {b n} (hk : Keeps s₀ s) : Keeps s₀ (s.pass2Start b n) := by
  unfold State.pass2Start
  dsimp only
  split <;> mono

@[mono] theorem State.finishRun_keeps {s₀ s : State} {b r} (hk : Keeps s₀ s) : Keeps s₀ (s.finishRun b r) := by
  unfold State.finishRun
  dsimp only
  (repeat' split) <;> mono <;> intros <;> (repeat' split) <;> mono

@[mono] theorem State.beginCommit_keeps {s₀ s : State} {b} (hk : Keeps s₀ s) : Keeps s₀ (s.beginCommit b) := by
  have record (u : State) (hu : Keeps s₀ u) : Keeps s₀ { u.wroteRecord with start := { u.start with cfgLost0 := false, cfgLost1 := false } } :=
    .lit (State.wroteRecord_keeps hu) (hfuse := by rw [State.wroteRecord_start]) (hspill := by rw [State.wroteRecord_start])
  unfold State.beginCommit
  dsimp only
  exact State.lintelPut_keeps (.lit (State.lintelSeq_keeps (keeps_ite (record _ (State.setSet_keeps hk)) (State.setSet_keeps hk))))

@[mono] theorem State.updateEnd_keeps {s₀ s : State} {b} (hk : Keeps s₀ s) : Keeps s₀ (s.updateEnd b) := by
  unfold State.updateEnd
  dsimp only
  split <;> mono

@[mono] theorem State.updateDone_keeps {s₀ s : State} {b} (hk : Keeps s₀ s) : Keeps s₀ (s.updateDone b) := by
  unfold State.updateDone
  dsimp only
  split <;> mono

/-! ### Verdicts, the commit and recovery (R327 to R353) -/

@[mono] theorem State.installGroups_keeps {s₀ s : State} {b} (hk : Keeps s₀ s) : Keeps s₀ (s.installGroups b) := by
  unfold State.installGroups
  mono <;> intros <;> mono

@[mono] theorem State.freezeLow_keeps {s₀ s : State} {b} (hk : Keeps s₀ s) : Keeps s₀ (s.freezeLow b) := by
  unfold State.freezeLow
  mono

@[mono] theorem State.commitFinish_keeps {s₀ s : State} {b} (hk : Keeps s₀ s) : Keeps s₀ (s.commitFinish b) := by
  unfold State.commitFinish
  dsimp only
  mono <;> refine Keeps.lit ?_ <;> mono

@[mono] theorem State.leanAfter_keeps {s₀ s : State} {b r} (hk : Keeps s₀ s) : Keeps s₀ (s.leanAfter b r) := by
  unfold State.leanAfter
  mono

@[mono] theorem State.afterVerdict_keeps {s₀ s : State} {b v} (hk : Keeps s₀ s) : Keeps s₀ (s.afterVerdict b v) := by
  unfold State.afterVerdict
  dsimp only
  split <;> mono

@[mono] theorem State.recordFinish_keeps {s₀ s : State} (hk : Keeps s₀ s) : Keeps s₀ s.recordFinish := by
  unfold State.recordFinish
  dsimp only
  (repeat' split) <;> mono <;> refine Keeps.lit ?_ <;> mono

@[mono] theorem State.recordDone_keeps {s₀ s : State} (hk : Keeps s₀ s) : Keeps s₀ s.recordDone := by
  unfold State.recordDone
  mono

@[mono] theorem State.endWrites_keeps {s₀ s : State} {n} (hk : Keeps s₀ s) : Keeps s₀ (s.endWrites n) := by
  induction n generalizing s with
  | zero => exact hk
  | succ n ih =>
    unfold State.endWrites
    mono

@[mono] theorem State.deriveWeights_keeps {s₀ s : State} {n g v} (hk : Keeps s₀ s) : Keeps s₀ (s.deriveWeights n g v) := by
  unfold State.deriveWeights
  mono

@[mono] theorem State.restoreCoffer_keeps {s₀ s : State} {ns} (hk : Keeps s₀ s) : Keeps s₀ (s.restoreCoffer ns) := by
  unfold State.restoreCoffer
  mono
  intro n u hu
  split <;> mono

@[mono] theorem State.abandonSet_keeps {s₀ s : State} {b} (hk : Keeps s₀ s) : Keeps s₀ (s.abandonSet b) := by
  unfold State.abandonSet
  mono

@[mono] theorem State.abandonLast_keeps {s₀ s : State} {b} (hk : Keeps s₀ s) : Keeps s₀ (s.abandonLast b) := by
  unfold State.abandonLast
  mono

@[mono] theorem State.abandonEnd_keeps {s₀ s : State} {h b later} (hk : Keeps s₀ s) : Keeps s₀ (s.abandonEnd h b later) := by
  unfold State.abandonEnd
  mono

@[mono] theorem State.abandonRest_keeps {s₀ s : State} {h b ns later clears} (hk : Keeps s₀ s) :
    Keeps s₀ (s.abandonRest h b ns later clears) := by
  unfold State.abandonRest
  mono

@[mono] theorem State.abandonCmd_keeps {s₀ s : State} {h b} (hk : Keeps s₀ s) : Keeps s₀ (s.abandonCmd h b) := by
  unfold State.abandonCmd
  mono

@[mono] theorem State.verdictCmd_keeps {s₀ s : State} {h} (hk : Keeps s₀ s) : Keeps s₀ (s.verdictCmd h) := by
  unfold State.verdictCmd
  dsimp only
  (repeat' split) <;> mono <;> refine Keeps.lit ?_ <;> mono

@[mono] theorem State.completeWrites_keeps {s₀ s : State} (hk : Keeps s₀ s) : Keeps s₀ s.completeWrites := by
  have hu : Keeps s₀ (if s.ctl.writing.isNone || s.tasked .recordEnd then s else s.lintelCopy1).lintelForce := by mono
  unfold State.completeWrites
  dsimp only
  split
  · mono
  · exact .lit (State.dropRecordEnd_keeps hu)
  · exact hu

@[mono] theorem State.stopSteps_keeps {s₀ s : State} (hk : Keeps s₀ s) : Keeps s₀ s.stopSteps := by
  unfold State.stopSteps
  mono

@[mono] theorem State.undoJournal_keeps {s₀ s : State} (hk : Keeps s₀ s) : Keeps s₀ s.undoJournal := by
  unfold State.undoJournal
  mono
  intro e u hu
  split <;> mono

@[mono] theorem State.runWhole_keeps {s₀ s : State} {b v} (hk : Keeps s₀ s) : Keeps s₀ (s.runWhole b v) := by
  unfold State.runWhole
  dsimp only
  mono
  split
  · mono
    · intro e u hu
      mono
    · intro e u hu
      mono
      intro n v hv
      split <;> mono
  · mono
    · intro e u hu
      mono
    · intro e u hu
      mono
      intro n v hv
      split <;> mono

@[mono] theorem State.recover_keeps {s₀ s : State} {cause} (hk : Keeps s₀ s) : Keeps s₀ (s.recover cause).state := by
  unfold State.recover
  extract_lets u
  have hu : Keeps s₀ u := State.lintelAccount_keeps hk
  clear_value u
  split
  · exact hu
  · next r copy _ =>
    extract_lets u1 ctl u2 u3 ev u4 u5 u6 has u7 ctl8 u8 ns
    have h1 : Keeps s₀ u1 := State.lintelRepair_keeps hu
    have h2 : Keeps s₀ u2 := .lit h1
    have h6 : Keeps s₀ u6 := State.setSet_keeps (State.setSet_keeps (keeps_ite (State.irq_keeps (State.setLatch_keeps h2))
      (State.setLatch_keeps h2)))
    have h8 : Keeps s₀ u8 := .lit (State.undoJournal_keeps h6)
    clear_value u8 u6
    split
    · exact h6
    · split
      · change Keeps s₀ (match u8.heldSet r.epoch with | some b => _ | none => _)
        split
        · split <;> mono
        · exact h8
      · split
        · exact State.restoreCoffer_keeps (State.moveAccess_keeps h8)
        · exact h8

/-! ### Checkpoint images (R484 to R488) -/

@[mono] theorem State.schedules_keeps {s₀ s : State} {gs} (hk : Keeps s₀ s) : Keeps s₀ (s.schedules gs).2 := by
  unfold State.schedules
  refine keeps_foldl_snd hk fun e x hx => ?_
  dsimp only
  mono

@[mono] theorem State.writeRange_keeps {s₀ s : State} {r a bs} (hk : Keeps s₀ s) : Keeps s₀ (s.writeRange r a bs) := by
  unfold State.writeRange
  mono

@[mono] theorem State.putImageLine_keeps {s₀ s : State} {r off bs} (hk : Keeps s₀ s) : Keeps s₀ (s.putImageLine r off bs) := by
  unfold State.putImageLine
  mono

@[mono] theorem State.zeroLine_keeps {s₀ s : State} (hk : Keeps s₀ s) : Keeps s₀ s.zeroLine := by
  unfold State.zeroLine
  split <;> mono

@[mono] theorem State.exportZero_keeps {s₀ s : State} (hk : Keeps s₀ s) : Keeps s₀ s.exportZero := by
  unfold State.exportZero
  split <;> mono

@[mono] theorem State.exportStart_keeps {s₀ s : State} {h} (hk : Keeps s₀ s) : Keeps s₀ (s.exportStart h) := by
  unfold State.exportStart
  dsimp only
  mono
  split <;> mono
  exact .lit (State.owe_keeps (State.schedules_keeps hk))

@[mono] theorem State.linesOut_keeps {s₀ s : State} {first last} (hk : Keeps s₀ s) : Keeps s₀ (s.linesOut first last) := by
  unfold State.linesOut
  split <;> mono <;> intros <;> mono

@[mono] theorem State.exportMove_keeps {s₀ s : State} {first last} (hk : Keeps s₀ s) : Keeps s₀ (s.exportMove first last) := by
  unfold State.exportMove
  dsimp only
  (repeat' split) <;> mono

@[mono] theorem State.exportFinish_keeps {s₀ s : State} (hk : Keeps s₀ s) : Keeps s₀ s.exportFinish := by
  unfold State.exportFinish
  split <;> mono

@[mono] theorem State.exportDone_keeps {s₀ s : State} (hk : Keeps s₀ s) : Keeps s₀ s.exportDone := by
  unfold State.exportDone
  split <;> mono

@[mono] theorem State.importRead_keeps {s₀ s : State} {h} (hk : Keeps s₀ s) : Keeps s₀ (s.importRead h) := by
  unfold State.importRead
  dsimp only
  (repeat' split) <;> mono <;> intros <;> mono

@[mono] theorem State.importStart_keeps {s₀ s : State} {h} (hk : Keeps s₀ s) : Keeps s₀ (s.importStart h) := by
  unfold State.importStart
  dsimp only
  (repeat' split) <;> mono <;> intros <;> mono

@[mono] theorem State.importGroup_keeps {s₀ s : State} {bs off n g epoch} (hk : Keeps s₀ s) :
    Keeps s₀ (s.importGroup bs off n g epoch) := by
  unfold State.importGroup
  mono

@[mono] theorem State.importAll_keeps {s₀ s : State} {h bs secs} (hk : Keeps s₀ s) : Keeps s₀ (s.importAll h bs secs) := by
  unfold State.importAll
  dsimp only
  refine State.finish_keeps (State.release_keeps (State.configChanged_keeps (.lit ?_)))
  mono
  intro e u hu
  mono

@[mono] theorem State.importFinish_keeps {s₀ s : State} (hk : Keeps s₀ s) : Keeps s₀ s.importFinish := by
  unfold State.importFinish
  split <;> mono

@[mono] theorem State.importDone_keeps {s₀ s : State} (hk : Keeps s₀ s) : Keeps s₀ s.importDone := by
  unfold State.importDone
  split <;> mono

@[mono] theorem State.runTask_keeps {s₀ s : State} {t} (hk : Keeps s₀ s) : Keeps s₀ (s.runTask t) := by
  unfold State.runTask
  split <;> mono

@[mono] theorem State.mapItems_keeps {s₀ s : State} {f} (hk : Keeps s₀ s) : Keeps s₀ (s.mapItems f) := .lit hk

@[mono] theorem State.itemIssue_keeps {s₀ s : State} {i} (hk : Keeps s₀ s) : Keeps s₀ (s.itemIssue i) := by
  unfold State.itemIssue
  mono

@[mono] theorem State.runItems_keeps {s₀ s : State} (hk : Keeps s₀ s) : Keeps s₀ s.runItems := by
  unfold State.runItems
  mono <;> intros <;> mono

@[mono] theorem State.showExport_keeps {s₀ s : State} (hk : Keeps s₀ s) : Keeps s₀ s.showExport := by
  unfold State.showExport
  split <;> mono

@[mono] theorem State.payMoves_keeps {s₀ s : State} {n} (hk : Keeps s₀ s) : Keeps s₀ (s.payMoves n) := by
  have ht : Keeps s₀ { s with ctl := { s.ctl with debt := s.ctl.debt - n } } := .lit hk
  unfold State.payMoves
  dsimp only
  split <;> mono

@[mono] theorem State.payDebt_keeps {s₀ s : State} (hk : Keeps s₀ s) : Keeps s₀ s.payDebt := by
  unfold State.payDebt
  dsimp only
  mono
  all_goals
    intro i u hu
    mono

/-! ### Banks (R97, R191 to R217, R447) -/

@[mono] theorem State.pressing_keeps {s₀ s : State} {k} (hk : Keeps s₀ s) : Keeps s₀ (s.pressing k) := by
  unfold State.pressing
  mono

@[mono] theorem State.bankFirst_keeps {s₀ s : State} {k} (hk : Keeps s₀ s) : Keeps s₀ (s.bankFirst k) := by
  unfold State.bankFirst
  mono

@[mono] theorem State.goOn_keeps {s₀ s : State} (hk : Keeps s₀ s) : Keeps s₀ s.goOn := by
  unfold State.goOn
  mono

@[mono] theorem State.idleRefresh_keeps {s₀ s : State} {k} (hk : Keeps s₀ s) : Keeps s₀ (s.idleRefresh k) := by
  unfold State.idleRefresh
  mono

@[mono] theorem State.countFull_keeps {s₀ s : State} {k} (hk : Keeps s₀ s) : Keeps s₀ (s.countFull k) := by
  unfold State.countFull
  mono <;> intros <;> mono

@[mono] theorem State.afterAccrual_keeps {s₀ s : State} {k} (hk : Keeps s₀ s) : Keeps s₀ (s.afterAccrual k) := by
  unfold State.afterAccrual
  mono

theorem owed_accrue_le (acc owed step : Nat) : (accrue acc owed step).2 ≤ 8 := Nat.min_le_left 8 _

@[mono] theorem State.accrual_keeps {s₀ s : State} {k} (hk : Keeps s₀ s) : Keeps s₀ (s.accrual k) := by
  unfold State.accrual
  dsimp only
  mono
  all_goals exact fun _ => owed_accrue_le _ _ _

@[mono] theorem State.grant_keeps {s₀ s : State} {k ctx op g n} (hk : Keeps s₀ s) : Keeps s₀ (s.grant k ctx op g n) := by
  unfold State.grant
  mono

@[mono] theorem State.putScalar_keeps {s₀ s : State} {k i v} (hk : Keeps s₀ s) : Keeps s₀ (s.putScalar k i v) := by
  unfold State.putScalar
  mono

@[mono] theorem State.putScalars_keeps {s₀ s : State} {k start vs} (hk : Keeps s₀ s) : Keeps s₀ (s.putScalars k start vs) := by
  unfold State.putScalars
  mono <;> intros <;> mono

@[mono] theorem State.feedIntake_keeps {s₀ s : State} {k start} (hk : Keeps s₀ s) : Keeps s₀ (s.feedIntake k start) := by
  unfold State.feedIntake
  mono

@[mono] theorem State.feedColumns_keeps {s₀ s : State} {k c line} (hk : Keeps s₀ s) : Keeps s₀ (s.feedColumns k c line) := by
  unfold State.feedColumns
  mono

@[mono] theorem State.feedRing_keeps {s₀ s : State} {k f} (hk : Keeps s₀ s) : Keeps s₀ (s.feedRing k f) := by
  unfold State.feedRing
  mono

@[mono] theorem State.feed_keeps {s₀ s : State} {k ctx start} (hk : Keeps s₀ s) : Keeps s₀ (s.feed k ctx start) := by
  unfold State.feed
  dsimp only
  (repeat' split) <;> mono

@[mono] theorem State.startCourse_keeps {s₀ s : State} {k slot} (hk : Keeps s₀ s) : Keeps s₀ (s.startCourse k slot) := by
  unfold State.startCourse
  dsimp only
  (repeat' split) <;> mono

@[mono] theorem State.endCourse_keeps {s₀ s : State} {k} (hk : Keeps s₀ s) : Keeps s₀ (s.endCourse k) := by
  unfold State.endCourse
  dsimp only
  split <;> mono

@[mono] theorem State.weightsOut_keeps {s₀ s : State} {k c line last} (hk : Keeps s₀ s) : Keeps s₀ (s.weightsOut k c line last) := by
  unfold State.weightsOut
  split <;> mono

@[mono] theorem State.updBed_keeps {s₀ s : State} {k work} (hk : Keeps s₀ s) : Keeps s₀ (s.updBed k work) := by
  unfold State.updBed
  split <;> mono

@[mono] theorem State.bedWork_keeps {s₀ s : State} {k ctx work} (hk : Keeps s₀ s) : Keeps s₀ (s.bedWork k ctx work) := by
  unfold State.bedWork
  dsimp only
  (repeat' split) <;> mono

@[mono] theorem State.lastBed_keeps {s₀ s : State} {k} (hk : Keeps s₀ s) : Keeps s₀ (s.lastBed k) := by
  unfold State.lastBed
  split <;> mono <;> exact Keeps.lit hk

@[mono] theorem State.endCourses_keeps {s₀ s : State} (hk : Keeps s₀ s) : Keeps s₀ s.endCourses := by
  unfold State.endCourses
  mono <;> intros <;> mono

@[mono] theorem State.patrolWord_keeps {s₀ s : State} {p} (hk : Keeps s₀ s) : Keeps s₀ (s.patrolWord p) := by
  unfold State.patrolWord
  dsimp only
  split <;> mono

@[mono] theorem State.patrolLine_keeps {s₀ s : State} {k n} (hk : Keeps s₀ s) : Keeps s₀ (s.patrolLine k n) := by
  unfold State.patrolLine
  mono <;> intros <;> mono

@[mono] theorem State.patrolRow_keeps {s₀ s : State} {k n} (hk : Keeps s₀ s) : Keeps s₀ (s.patrolRow k n) := by
  unfold State.patrolRow
  mono

@[mono] theorem State.patrolAccess_keeps {s₀ s : State} {k} (hk : Keeps s₀ s) : Keeps s₀ (s.patrolAccess k) := by
  unfold State.patrolAccess
  mono

@[mono] theorem State.patrolTurn_keeps {s₀ s : State} {k} (hk : Keeps s₀ s) : Keeps s₀ (s.patrolTurn k) := by
  unfold State.patrolTurn
  mono

@[mono] theorem State.patrolAt_keeps {s₀ s : State} {k} (hk : Keeps s₀ s) : Keeps s₀ (s.patrolAt k) := by
  unfold State.patrolAt
  mono

@[mono] theorem State.patrolOpen_keeps {s₀ s : State} {k} (hk : Keeps s₀ s) : Keeps s₀ (s.patrolOpen k) := by
  unfold State.patrolOpen
  mono

@[mono] theorem State.mortarTurn_keeps {s₀ s : State} (hk : Keeps s₀ s) : Keeps s₀ s.mortarTurn := by
  unfold State.mortarTurn
  dsimp only
  refine keeps_foldl (.lit hk) fun p u hu => ?_
  mono

@[mono] theorem State.afterCourse_keeps {s₀ s : State} {k} (hk : Keeps s₀ s) : Keeps s₀ (s.afterCourse k) := by
  unfold State.afterCourse
  mono

@[mono] theorem State.boundary_keeps {s₀ s : State} {k ctx} (hk : Keeps s₀ s) : Keeps s₀ (s.boundary k ctx) := by
  unfold State.boundary
  dsimp only
  (repeat' split) <;> mono

@[mono] theorem State.bedEnd_keeps {s₀ s : State} {k work} (hk : Keeps s₀ s) : Keeps s₀ (s.bedEnd k work) := by
  unfold State.bedEnd
  split <;> mono

@[mono] theorem State.openBank_keeps {s₀ s : State} {k} (hk : Keeps s₀ s) : Keeps s₀ (s.openBank k) := by
  unfold State.openBank
  mono

@[mono] theorem State.windowEnd_keeps {s₀ s : State} (hk : Keeps s₀ s) : Keeps s₀ s.windowEnd :=
  keeps_foldl (.lit (keeps_ite (State.touch_keeps hk) hk)) fun _ _ hu => State.openBank_keeps hu

@[mono] theorem State.reservedSlot_keeps {s₀ s : State} {k} (hk : Keeps s₀ s) : Keeps s₀ (s.reservedSlot k) := by
  unfold State.reservedSlot
  mono

@[mono] theorem State.edgeBank_keeps {s₀ s : State} {k} (hk : Keeps s₀ s) : Keeps s₀ (s.edgeBank k) := by
  unfold State.edgeBank
  mono

@[mono] theorem State.startCourses_keeps {s₀ s : State} (hk : Keeps s₀ s) : Keeps s₀ s.startCourses :=
  keeps_foldl hk fun _ _ hu => keeps_foldl hu fun _ _ hv => State.startCourse_keeps hv

theorem Bank.owed_refreshed_le (b : Bank) (n : Nat) : (b.refreshed n).owed ≤ b.owed := Nat.sub_le _ _

@[mono] theorem bankFits_refreshed {s t : State} {k n : Nat} (h : Keeps s t) : BankFits s ((t.bank k).refreshed n) := fun hs =>
  (Bank.owed_refreshed_le _ _).trans (h.owed hs k)

@[mono] theorem bankFits_emptied {s t : State} {k : Nat} (h : Keeps s t) : BankFits s (t.bank k).emptied := fun hs => h.owed hs k

@[mono] theorem State.payRefresh_keeps {s₀ s : State} {k} (hk : Keeps s₀ s) : Keeps s₀ (s.payRefresh k) := by
  unfold State.payRefresh
  dsimp only
  mono
  intro _ u hu
  mono

@[mono] theorem State.srefChan_keeps {s₀ s : State} {c} (hk : Keeps s₀ s) : Keeps s₀ (s.srefChan c) := by
  unfold State.srefChan
  mono <;> intros <;> mono

@[mono] theorem State.enterSref_keeps {s₀ s : State} (hk : Keeps s₀ s) : Keeps s₀ s.enterSref := by
  unfold State.enterSref
  mono <;> intros <;> mono

@[mono] theorem State.leaveSref_keeps {s₀ s : State} (hk : Keeps s₀ s) : Keeps s₀ s.leaveSref := by
  unfold State.leaveSref
  dsimp only
  mono
  · intro k u hu
    mono
    exact fun _ => Nat.zero_le 8
  · intro c u hu
    mono

@[mono] theorem State.saveContext_keeps {s₀ s : State} {k ctx} (hk : Keeps s₀ s) : Keeps s₀ (s.saveContext k ctx) := by
  unfold State.saveContext
  mono <;> intros <;> mono

@[mono] theorem State.loadContext_keeps {s₀ s : State} {k ctx} (hk : Keeps s₀ s) : Keeps s₀ (s.loadContext k ctx) := by
  unfold State.loadContext
  mono <;> intros <;> mono

@[mono] theorem State.saveBank_keeps {s₀ s : State} {k} (hk : Keeps s₀ s) : Keeps s₀ (s.saveBank k) := by
  unfold State.saveBank
  mono

@[mono] theorem State.saveContexts_keeps {s₀ s : State} (hk : Keeps s₀ s) : Keeps s₀ s.saveContexts := by
  unfold State.saveContexts
  mono <;> intros <;> mono

@[mono] theorem State.serveTakes_keeps {s₀ s : State} {k} (hk : Keeps s₀ s) : Keeps s₀ (s.serveTakes k) := by
  unfold State.serveTakes
  mono

@[mono] theorem State.lateSref_keeps {s₀ s : State} {c k} (hk : Keeps s₀ s) : Keeps s₀ (s.lateSref c k) := by
  unfold State.lateSref
  mono <;> intros <;> mono

@[mono] theorem State.loadContexts_keeps {s₀ s : State} (hk : Keeps s₀ s) : Keeps s₀ s.loadContexts := by
  unfold State.loadContexts
  mono <;> intros <;> mono

@[mono] theorem State.enterEsr_keeps {s₀ s : State} {c} (hk : Keeps s₀ s) : Keeps s₀ (s.enterEsr c) := by
  unfold State.enterEsr
  dsimp only
  mono
  intro k u hu
  mono

@[mono] theorem State.readSensors_keeps {s₀ s : State} {temps} (hk : Keeps s₀ s) : Keeps s₀ (s.readSensors temps) := by
  unfold State.readSensors
  mono <;> intros <;> mono

@[mono] theorem State.esrExit_keeps {s₀ s : State} {temps} (hk : Keeps s₀ s) : Keeps s₀ (s.esrExit temps) := by
  unfold State.esrExit
  dsimp only
  mono
  intro d u hu
  mono

@[mono] theorem State.dieTrips_keeps {s₀ s : State} {d} (hk : Keeps s₀ s) : Keeps s₀ (s.dieTrips d) := by
  unfold State.dieTrips
  dsimp only
  mono
  intro i u hu
  mono
  intro b v hv
  mono

@[mono] theorem State.thermTrip_keeps {s₀ s : State} {c} (hk : Keeps s₀ s) : Keeps s₀ (s.thermTrip c) := by
  unfold State.thermTrip
  dsimp only
  mono
  all_goals
    intro u hu
    mono

@[mono] theorem State.tierRead_keeps {s₀ s : State} {di ts} (hk : Keeps s₀ s) : Keeps s₀ (s.tierRead di ts) := by
  have early (u : State) (hu : Keeps s₀ u) :
      Keeps s₀ { u with regs := { u.regs with tierEarly := satAdd u.regs.tierEarly 1 } } := .lit hu
  unfold State.tierRead
  dsimp only
  mono

@[mono] theorem State.tierLower_keeps {s₀ s : State} {di} (hk : Keeps s₀ s) : Keeps s₀ (s.tierLower di) := by
  unfold State.tierLower
  mono

@[mono] theorem State.alertPulse_keeps {s₀ s : State} {c ignored} (hk : Keeps s₀ s) : Keeps s₀ (s.alertPulse c ignored) := by
  unfold State.alertPulse
  mono <;> intros <;> mono

/-! ### The control port and the fabric port (R57 to R77) -/
@[mono] theorem State.capture_keeps {s₀ s : State} {low v phase} (hk : Keeps s₀ s) : Keeps s₀ (s.capture low v phase) := .lit hk

@[mono] theorem State.ctHigh_keeps {s₀ s : State} {low now} (hk : Keeps s₀ s) : Keeps s₀ (s.ctHigh low now).2 := by
  unfold State.ctHigh
  split
  · split
    · split
      · exact .lit hk
      · exact hk
    · exact hk
  · exact hk

@[mono] theorem State.ctPhase_keeps {s₀ s : State} {now} (hk : Keeps s₀ s) : Keeps s₀ (s.ctPhase now).2 := by
  unfold State.ctPhase
  split
  · split
    · exact .lit hk
    · exact hk
  · exact hk

@[mono] theorem State.ctWord_keeps {s₀ s : State} {off} (hk : Keeps s₀ s) : Keeps s₀ (s.ctWord off).2 := by
  unfold State.ctWord
  dsimp only
  (repeat' split) <;> mono

@[mono] theorem State.ctRead_keeps {s₀ s : State} {off} (hk : Keeps s₀ s) : Keeps s₀ (s.ctRead off) := by
  unfold State.ctRead
  dsimp only
  mono <;> refine Keeps.lit ?_ <;> mono

@[mono] theorem State.ctWrite_keeps {s₀ s : State} {off v} (hk : Keeps s₀ s) : Keeps s₀ (s.ctWrite off v) := by
  unfold State.ctWrite
  dsimp only
  split
  · exact .lit hk
  · refine .lit ?_
    split <;> mono

@[mono] theorem State.fabricTake_keeps {s₀ s : State} {beats src tag} {body : State → State} (hk : Keeps s₀ s)
    (hb : ∀ u, Keeps s₀ u → Keeps s₀ (body u)) : Keeps s₀ (s.fabricTake beats src tag body) := by
  unfold State.fabricTake
  dsimp only
  mono

@[mono] theorem State.fabPerform_keeps {s₀ s : State} {a} (hk : Keeps s₀ s) : Keeps s₀ (s.fabPerform a) := by
  unfold State.fabPerform
  mono

@[mono] theorem State.fabCclk_keeps {s₀ s : State} {w} (hk : Keeps s₀ s) : Keeps s₀ (s.fabCclk w) := by
  unfold State.fabCclk
  split <;> mono <;> exact Keeps.lit hk

@[mono] theorem State.fabLatch_keeps {s₀ s : State} {src tag want} (hk : Keeps s₀ s) : Keeps s₀ (s.fabLatch src tag want) := by
  unfold State.fabLatch
  mono <;> exact Keeps.lit hk

@[mono] theorem State.fabResume_keeps {s₀ s : State} (hk : Keeps s₀ s) : Keeps s₀ s.fabResume :=
  keeps_foldl (.lit hk) fun _ _ hu => State.fabCclk_keeps hu

@[mono] theorem State.fabRead_keeps {s₀ s : State} {src tag off} (hk : Keeps s₀ s) : Keeps s₀ (s.fabRead src tag off) := by
  unfold State.fabRead
  dsimp only
  (repeat' split) <;> mono

@[mono] theorem State.fabLine_keeps {s₀ s : State} {src off d c} (hk : Keeps s₀ s) : Keeps s₀ (s.fabLine src off d c).2.2 := by
  unfold State.fabLine
  mono

@[mono] theorem State.fabWrite_keeps {s₀ s : State} {src tag off d c} (hk : Keeps s₀ s) : Keeps s₀ (s.fabWrite src tag off d c) := by
  unfold State.fabWrite
  dsimp only
  (repeat' split) <;> mono

@[mono] theorem State.fabSeal_keeps {s₀ s : State} {src tag off d c} (hk : Keeps s₀ s) : Keeps s₀ (s.fabSeal src tag off d c) := by
  unfold State.fabSeal
  mono

@[mono] theorem State.fabAtomic_keeps {s₀ s : State} {isCas src tag off data chk} (hk : Keeps s₀ s) :
    Keeps s₀ (s.fabAtomic isCas src tag off data chk) := by
  unfold State.fabAtomic
  mono

@[mono] theorem State.heldRelease_keeps {s₀ s : State} {src} (hk : Keeps s₀ s) : Keeps s₀ (s.heldRelease src) := by
  unfold State.heldRelease
  dsimp only
  (repeat' split) <;> mono <;> refine Keeps.lit ?_ <;> mono

@[mono] theorem State.countLate_keeps {s₀ s : State} (hk : Keeps s₀ s) : Keeps s₀ s.countLate :=
  State.cross_keeps hk fun _ hu => .lit hu

@[mono] theorem State.fabReserved_keeps {s₀ s : State} {src vc type tag} (hk : Keeps s₀ s) : Keeps s₀ (s.fabReserved src vc type tag) := by
  unfold State.fabReserved
  mono <;> exact Keeps.lit hk

@[mono] theorem State.pullWrite_keeps {s₀ s : State} {p l vs} (hk : Keeps s₀ s) : Keeps s₀ (s.pullWrite p l vs) := by
  unfold State.pullWrite
  dsimp only
  split <;> mono

@[mono] theorem State.pullArrive_keeps {s₀ s : State} {p what vs timedOut} (hk : Keeps s₀ s) :
    Keeps s₀ (s.pullArrive p what vs timedOut) := by
  unfold State.pullArrive
  dsimp only
  (repeat' split) <;> mono

@[mono] theorem State.outboundDone_keeps {s₀ s : State} {o vs timedOut} (hk : Keeps s₀ s) :
    Keeps s₀ (s.outboundDone o vs timedOut) := by
  have hu : Keeps s₀ { s with fab := { s.fab with outbound := s.fab.outbound.filter (fun x => x.tag != o.tag) } } := .lit hk
  unfold State.outboundDone
  dsimp only
  split <;> mono

@[mono] theorem State.fabResponse_keeps {s₀ s : State} {tag} {use : State → OutRead → State} (hk : Keeps s₀ s)
    (hu : ∀ u o, Keeps s₀ u → Keeps s₀ (use u o)) : Keeps s₀ (s.fabResponse tag use) := by
  unfold State.fabResponse
  split <;> mono

@[mono] theorem State.loseOutbound_keeps {s₀ s : State} (hk : Keeps s₀ s) : Keeps s₀ s.loseOutbound := by
  unfold State.loseOutbound
  mono <;> intros <;> mono

@[mono] theorem State.pullStart_keeps {s₀ s : State} {h} (hk : Keeps s₀ s) : Keeps s₀ (s.pullStart h) := by
  unfold State.pullStart
  dsimp only
  (repeat' split) <;> mono <;> refine Keeps.lit ?_ <;> mono

@[mono] theorem State.pullLineIn_keeps {s₀ s : State} {o data chk} (hk : Keeps s₀ s) : Keeps s₀ (s.pullLineIn o data chk) := by
  unfold State.pullLineIn
  mono

/-! ### Repairs and the scrub pass (R126 to R130, R185, R470) -/
theorem Bank.owed_unmapSoft (b : Bank) (row : Nat) : (b.unmapSoft row).owed = b.owed := rfl
theorem Bank.owed_mapSoft (b : Bank) (row spare : Nat) : (b.mapSoft row spare).owed = b.owed := rfl
theorem Bank.owed_fuse (b : Bank) (row spare : Nat) : (b.fuse row spare).owed = b.owed := rfl

@[mono] theorem bankFits_mapSoft {s t : State} {k row spare : Nat} (h : Keeps s t) : BankFits s ((t.bank k).mapSoft row spare) :=
  fun hs => h.owed hs k

@[mono] theorem bankFits_fuse {s t : State} {k row spare : Nat} (h : Keeps s t) : BankFits s ((t.bank k).fuse row spare) :=
  fun hs => h.owed hs k

@[mono] theorem State.softMap_keeps {s₀ s : State} {bank row spare} (hk : Keeps s₀ s) : Keeps s₀ (s.softMap bank row spare) := by
  have hb : BankFits s₀ ((s.bank bank).mapSoft row spare) := bankFits_mapSoft hk
  unfold State.softMap
  dsimp only
  split <;> mono

/-- A change of the start's fields, with the spill within its bounds, where a record is written. -/
theorem Keeps.record {s t : State} (h : Keeps s t) {start : Start} (hfuse : start.fuseSvn = t.start.fuseSvn := by rfl)
    (hspill : start.spill.rings = t.start.spill.rings := by rfl) : Keeps s { t.wroteRecord with start := start } :=
  .lit (State.wroteRecord_keeps h) (hfuse := by rw [hfuse, State.wroteRecord_start]) (hspill := by rw [hspill, State.wroteRecord_start])

@[mono] theorem State.noteCalib_keeps {s₀ s : State} (hk : Keeps s₀ s) : Keeps s₀ s.noteCalib := Keeps.record hk

@[mono] theorem State.copyRow_keeps {s₀ s : State} {bank row spare} (hk : Keeps s₀ s) : Keeps s₀ (s.copyRow bank row spare) := by
  unfold State.copyRow
  mono <;> intros <;> mono

@[mono] theorem State.readRow_keeps {s₀ s : State} {bank row det} (hk : Keeps s₀ s) : Keeps s₀ (s.readRow bank row det) := by
  unfold State.readRow
  mono <;> intros <;> mono

@[mono] theorem State.repairEnd_keeps {s₀ s : State} {hasp st payload} (hk : Keeps s₀ s) : Keeps s₀ (s.repairEnd hasp st payload) := by
  unfold State.repairEnd
  dsimp only
  split
  · mono
  · exact .lit (State.dropBg_keeps hk)

@[mono] theorem State.releaseBank_keeps {s₀ s : State} {k} (hk : Keeps s₀ s) : Keeps s₀ (s.releaseBank k) := by
  unfold State.releaseBank
  mono

@[mono] theorem State.softBegin_keeps {s₀ s : State} {hasp bank row} (hk : Keeps s₀ s) : Keeps s₀ (s.softBegin hasp bank row) := by
  unfold State.softBegin
  dsimp only
  split
  · split
    · mono
    · exact .lit (State.setBank_keeps hk (bankFits_mk hk))
  · mono

@[mono] theorem State.softDone_keeps {s₀ s : State} (hk : Keeps s₀ s) : Keeps s₀ s.softDone := by
  unfold State.softDone
  split <;> mono

@[mono] theorem State.fuseBegin_keeps {s₀ s : State} {hasp bank row} (hk : Keeps s₀ s) : Keeps s₀ (s.fuseBegin hasp bank row) := by
  unfold State.fuseBegin
  dsimp only
  split
  · mono
  · exact .lit hk

@[mono] theorem State.fuseIssue_keeps {s₀ s : State} (hk : Keeps s₀ s) : Keeps s₀ s.fuseIssue := by
  unfold State.fuseIssue
  split
  · next hasp bank row sp t _ =>
    split
    · exact hk
    · split
      · mono
      · extract_lets u v
        have hu : Keeps s₀ u := by
          refine keeps_ite hk ?_
          mono
        exact .lit (State.sent_keeps (State.setChan_keeps (Keeps.record (State.setBank_keeps hu (bankFits_mk hu)))))
  · exact hk

@[mono] theorem State.readRepairPage_keeps {s₀ s : State} {bank} (hk : Keeps s₀ s) : Keeps s₀ (s.readRepairPage bank) := .lit hk

@[mono] theorem State.lateEntry_keeps {s₀ s : State} {bank} (hk : Keeps s₀ s) : Keeps s₀ (s.lateEntry bank) := by
  unfold State.lateEntry
  mono

@[mono] theorem State.fuseFinish_keeps {s₀ s : State} (hk : Keeps s₀ s) : Keeps s₀ s.fuseFinish := by
  unfold State.fuseFinish
  split
  · next hasp bank row sp _ _ =>
    have hread : Keeps s₀ ((s.fullRefresh bank).readRow bank row (Region.policy (s.regionAtSlab row))) := by mono
    split
    · exact hk
    · split
      · exact State.releaseBank_keeps (State.repairEnd_keeps (State.noteCalib_keeps (.lit hread)))
      · exact State.releaseBank_keeps (State.repairEnd_keeps (Keeps.record hk))
  · exact hk

@[mono] theorem State.fprogDone_keeps {s₀ s : State} {refused} (hk : Keeps s₀ s) : Keeps s₀ (s.fprogDone refused) := by
  unfold State.fprogDone
  dsimp only
  split
  · mono
  · exact hk

@[mono] theorem State.fuseTimeout_keeps {s₀ s : State} (hk : Keeps s₀ s) : Keeps s₀ s.fuseTimeout := by
  unfold State.fuseTimeout
  split <;> mono

@[mono] theorem State.repairSoft_keeps {s₀ s : State} {h} (hk : Keeps s₀ s) : Keeps s₀ (s.repairSoft h) := by
  unfold State.repairSoft
  mono

@[mono] theorem State.repairFuse_keeps {s₀ s : State} {h} (hk : Keeps s₀ s) : Keeps s₀ (s.repairFuse h) := by
  unfold State.repairFuse
  mono <;> exact Keeps.lit hk

@[mono] theorem State.scrubStart_keeps {s₀ s : State} {h} (hk : Keeps s₀ s) : Keeps s₀ (s.scrubStart h) := by
  unfold State.scrubStart
  mono <;> exact Keeps.lit hk

@[mono] theorem State.scrubTurn_keeps {s₀ s : State} (hk : Keeps s₀ s) : Keeps s₀ s.scrubTurn := by
  unfold State.scrubTurn
  split <;> mono <;> exact Keeps.lit (by mono)

@[mono] theorem State.scrubReport_keeps {s₀ s : State} (hk : Keeps s₀ s) : Keeps s₀ s.scrubReport := by
  unfold State.scrubReport
  split <;> mono <;> exact Keeps.lit (by mono)

/-! ### The debug port (R539 to R550) -/
@[mono] theorem State.selects_keeps {s₀ s : State} {ir v} (hk : Keeps s₀ s) : Keeps s₀ (s.selects ir v) := .lit hk

@[mono] theorem State.challengeRequest_keeps {s₀ s : State} (hk : Keeps s₀ s) : Keeps s₀ s.challengeRequest := by
  unfold State.challengeRequest
  mono <;> exact Keeps.lit hk

@[mono] theorem State.challengeFail_keeps {s₀ s : State} {f} (hk : Keeps s₀ s) : Keeps s₀ (s.challengeFail f) := .lit hk

@[mono] theorem State.challengeDrawn_keeps {s₀ s : State} {bits} (hk : Keeps s₀ s) : Keeps s₀ (s.challengeDrawn bits) := by
  unfold State.challengeDrawn
  dsimp only
  split
  · split
    · exact hk
    · split
      · exact State.challengeFail_keeps (.lit hk)
      · exact .lit hk
  · exact hk

@[mono] theorem State.challengeExpire_keeps {s₀ s : State} (hk : Keeps s₀ s) : Keeps s₀ s.challengeExpire := by
  unfold State.challengeExpire
  mono <;> exact Keeps.lit hk

@[mono] theorem State.refuseResponse_keeps {s₀ s : State} (hk : Keeps s₀ s) : Keeps s₀ s.refuseResponse := .lit hk

@[mono] theorem State.response_keeps {s₀ s : State} {r} (hk : Keeps s₀ s) : Keeps s₀ (s.response r) := by
  unfold State.response
  mono <;> exact Keeps.lit hk

@[mono] theorem State.lockoutEnd_keeps {s₀ s : State} (hk : Keeps s₀ s) : Keeps s₀ s.lockoutEnd := by
  unfold State.lockoutEnd
  split <;> mono <;> exact Keeps.lit hk

@[mono] theorem State.trst_keeps {s₀ s : State} (hk : Keeps s₀ s) : Keeps s₀ s.trst := by
  unfold State.trst
  dsimp only
  exact Keeps.lit (by mono)

@[mono] theorem State.haltAt_keeps {s₀ s : State} {cause} (hk : Keeps s₀ s) : Keeps s₀ (s.haltAt cause) := by
  unfold State.haltAt
  mono <;> exact Keeps.lit hk

@[mono] theorem State.resumeWarden_keeps {s₀ s : State} (hk : Keeps s₀ s) : Keeps s₀ s.resumeWarden := by
  unfold State.resumeWarden
  mono <;> exact Keeps.lit hk

@[mono] theorem State.stepWarden_keeps {s₀ s : State} (hk : Keeps s₀ s) : Keeps s₀ s.stepWarden := by
  unfold State.stepWarden
  mono <;> exact Keeps.lit hk

@[mono] theorem State.dbRun_keeps {s₀ s : State} {v} (hk : Keeps s₀ s) : Keeps s₀ (s.dbRun v) := by
  unfold State.dbRun
  split <;> mono <;> exact Keeps.lit hk

@[mono] theorem State.setBkpt_keeps {s₀ s : State} {v} (hk : Keeps s₀ s) : Keeps s₀ (s.setBkpt v) := by
  unfold State.setBkpt
  mono <;> exact Keeps.lit hk

@[mono] theorem State.setWatch_keeps {s₀ s : State} {v} (hk : Keeps s₀ s) : Keeps s₀ (s.setWatch v) := by
  unfold State.setWatch
  mono <;> exact Keeps.lit hk

@[mono] theorem State.hit_keeps {s₀ s : State} {enabled cause index} (hk : Keeps s₀ s) : Keeps s₀ (s.hit enabled cause index) := by
  unfold State.hit
  mono <;> exact Keeps.lit hk

@[mono] theorem State.dbSetResult_keeps {s₀ s : State} {r} (hk : Keeps s₀ s) : Keeps s₀ (s.dbSetResult r) := .lit hk

@[mono] theorem State.dbHaspWrite_keeps {s₀ s : State} {o u} (hk : Keeps s₀ s) : Keeps s₀ (s.dbHaspWrite o u) := by
  unfold State.dbHaspWrite
  mono

@[mono] theorem State.dbHaspRead_keeps {s₀ s : State} {o} (hk : Keeps s₀ s) : Keeps s₀ (s.dbHaspRead o) := by
  unfold State.dbHaspRead
  mono

@[mono] theorem State.dbControl_keeps {s₀ s : State} {off u} (hk : Keeps s₀ s) : Keeps s₀ (s.dbControl off u) := by
  unfold State.dbControl
  dsimp only
  (repeat' split) <;> mono

@[mono] theorem State.dbPages_keeps {s₀ s : State} {off u} (hk : Keeps s₀ s) : Keeps s₀ (s.dbPages off u) := by
  unfold State.dbPages
  mono

@[mono] theorem State.dbMortar_keeps {s₀ s : State} {u} (hk : Keeps s₀ s) : Keeps s₀ (s.dbMortar u) := by
  unfold State.dbMortar
  mono

@[mono] theorem State.dbPerform_keeps {s₀ s : State} {u} (hk : Keeps s₀ s) : Keeps s₀ (s.dbPerform u) := by
  unfold State.dbPerform
  mono

/-- The end of a verification keeps everything but the debug session, as every other operation does. -/
theorem State.verified_keepsButDbg (s : State) : Keeps s { s.verified with dbg := s.dbg } := by
  unfold State.verified
  split
  · dsimp only
    split
    · exact ⟨rfl, id, id, BitVec.le_refl _, Debug.noWider_refl _⟩
    · split
      · exact ⟨rfl, id, id, BitVec.le_refl _, Debug.noWider_refl _⟩
      · exact ⟨rfl, id, id, BitVec.le_refl _, Debug.noWider_refl _⟩
  · exact .refl s

@[mono] theorem State.dbStart_keeps {s₀ s : State} {u} (hk : Keeps s₀ s) : Keeps s₀ (s.dbStart u) := by
  have pend : Keeps s₀ { s with dbg := { s.dbg with access := some u, result := dbPending u, accessAddr := s.dbg.addr } } := .lit hk
  have chans (v : State) (hv : Keeps s₀ v) :
      Keeps s₀ { v with dbg := { v.dbg with accessChans := v.maskOf v.dbg.offset } } := .lit hv
  unfold State.dbStart
  split
  · exact .lit hk
  · extract_lets write d1 v d2 w a
    have hw : Keeps s₀ w := chans _ pend
    clear_value w
    mono

@[mono] theorem State.dbNext_keeps {s₀ s : State} (hk : Keeps s₀ s) : Keeps s₀ s.dbNext := by
  unfold State.dbNext
  split <;> mono <;> exact Keeps.lit hk

@[mono] theorem State.dbDone_keeps {s₀ s : State} (hk : Keeps s₀ s) : Keeps s₀ s.dbDone := by
  unfold State.dbDone
  dsimp only
  (repeat' split) <;> mono <;> refine Keeps.lit ?_ <;> mono

@[mono] theorem State.dbRepair_keeps {s₀ s : State} {v} (hk : Keeps s₀ s) : Keeps s₀ (s.dbRepair v) := by
  unfold State.dbRepair
  mono <;> exact Keeps.lit hk

@[mono] theorem State.tapUpdate_keeps {s₀ s : State} {ir v} (hk : Keeps s₀ s) : Keeps s₀ (s.tapUpdate ir v) := by
  unfold State.tapUpdate
  split <;> mono <;> exact Keeps.lit hk

@[mono] theorem State.tapCross_keeps {s₀ s : State} {ir v} (hk : Keeps s₀ s) : Keeps s₀ (s.tapCross ir v) := by
  unfold State.tapCross
  dsimp only
  mono <;> refine Keeps.lit ?_ <;> mono

/-! ### Pintle ports (R41 to R52) -/

@[mono] theorem State.settle_keeps {s₀ s : State} {port} (hk : Keeps s₀ s) : Keeps s₀ (s.settle port) := by
  unfold State.settle
  mono

@[mono] theorem State.settleAll_keeps {s₀ s : State} (hk : Keeps s₀ s) : Keeps s₀ s.settleAll := by
  unfold State.settleAll
  mono <;> intros <;> mono

@[mono] theorem State.pintleTake_keeps {s₀ s : State} {r} (hk : Keeps s₀ s) : Keeps s₀ (s.pintleTake r) := by
  unfold State.pintleTake
  dsimp only
  mono <;> refine Keeps.lit ?_ <;> mono

@[mono] theorem State.pintleSend_keeps {s₀ s : State} {port} (hk : Keeps s₀ s) : Keeps s₀ (s.pintleSend port) := by
  unfold State.pintleSend
  dsimp only
  (repeat' split) <;> mono <;> refine Keeps.lit ?_ <;> mono

/-! ### Ticks and clocks (R89, R436 to R446, R555 to R559) -/

@[mono] theorem State.divideFrom_keeps {s₀ s : State} {cs left used} (hk : Keeps s₀ s) : Keeps s₀ (s.divideFrom cs left used) := by
  induction cs generalizing s left used with
  | nil => exact hk
  | cons c rest ih =>
    unfold State.divideFrom
    mono

@[mono] theorem State.divide_keeps {s₀ s : State} (hk : Keeps s₀ s) : Keeps s₀ s.divide := by
  unfold State.divide
  mono <;> intros <;> mono

@[mono] theorem State.grantUnits_keeps {s₀ s : State} {units ks} (hk : Keeps s₀ s) : Keeps s₀ (s.grantUnits units ks) := by
  unfold State.grantUnits
  mono <;> exact Keeps.lit hk

@[mono] theorem State.planTick_keeps {s₀ s : State} (hk : Keeps s₀ s) : Keeps s₀ s.planTick := by
  unfold State.planTick
  mono

@[mono] theorem State.throttleDies_keeps {s₀ s : State} (hk : Keeps s₀ s) : Keeps s₀ s.throttleDies := by
  unfold State.throttleDies
  mono <;> intros <;> mono

@[mono] theorem State.closeCeWindow_keeps {s₀ s : State} {t} (hk : Keeps s₀ s) : Keeps s₀ (s.closeCeWindow t) := by
  unfold State.closeCeWindow
  mono <;> exact Keeps.lit hk

@[mono] theorem State.closeWindows_keeps {s₀ s : State} {t} (hk : Keeps s₀ s) : Keeps s₀ (s.closeWindows t) := by
  unfold State.closeWindows
  dsimp only
  mono

@[mono] theorem State.writeWindow_keeps {s₀ s : State} {sixty} (hk : Keeps s₀ s) : Keeps s₀ (s.writeWindow sixty) := by
  unfold State.writeWindow
  dsimp only
  split <;> mono

@[mono] theorem State.chargeTick_keeps {s₀ s : State} {n} (hk : Keeps s₀ s) : Keeps s₀ (s.chargeTick n) := .lit hk

@[mono] theorem State.fillBucket_keeps {s₀ s : State} (hk : Keeps s₀ s) : Keeps s₀ s.fillBucket := by
  unfold State.fillBucket
  dsimp only
  split
  · exact .lit hk
  · exact .lit hk

@[mono] theorem State.hostOver_keeps {s₀ s : State} (hk : Keeps s₀ s) : Keeps s₀ s.hostOver := by
  unfold State.hostOver
  mono <;> exact Keeps.lit hk

@[mono] theorem State.tickFlags_keeps {s₀ s : State} (hk : Keeps s₀ s) : Keeps s₀ s.tickFlags := .lit hk

@[mono] theorem State.edgeDies_keeps {s₀ s : State} (hk : Keeps s₀ s) : Keeps s₀ s.edgeDies := by
  unfold State.edgeDies
  mono <;> intros <;> mono

@[mono] theorem State.zeroUse_keeps {s₀ s : State} (hk : Keeps s₀ s) : Keeps s₀ s.zeroUse :=
  State.mapPlumb_keeps (keeps_foldl hk fun _ _ hu => State.setChan_keeps hu)

@[mono] theorem State.edgeCounts_keeps {s₀ s : State} (hk : Keeps s₀ s) : Keeps s₀ s.edgeCounts := by
  unfold State.edgeCounts
  mono <;> intros <;> mono

@[mono] theorem State.edgeScrub_keeps {s₀ s : State} (hk : Keeps s₀ s) : Keeps s₀ s.edgeScrub := .lit hk

@[mono] theorem State.edgeBanks_keeps {s₀ s : State} (hk : Keeps s₀ s) : Keeps s₀ s.edgeBanks := by
  unfold State.edgeBanks
  mono <;> intros <;> mono

@[mono] theorem State.nextTick_keeps {s₀ s : State} (hk : Keeps s₀ s) : Keeps s₀ s.nextTick where
  pending := hk.pending
  memWf := hk.memWf
  bounded hs := ⟨Nat.succ_pos 199, (hk.bounded hs).2⟩
  fuses := hk.fuses
  session := hk.session

@[mono] theorem State.tickEdge_keeps {s₀ s : State} {n} (hk : Keeps s₀ s) : Keeps s₀ (s.tickEdge n) := by
  unfold State.tickEdge
  mono

@[mono] theorem State.capLevel_keeps {s₀ s : State} {level} (hk : Keeps s₀ s) : Keeps s₀ (s.capLevel level) := by
  unfold State.capLevel
  dsimp only
  mono

@[mono] theorem State.sense_keeps {s₀ s : State} {rail data} (hk : Keeps s₀ s) : Keeps s₀ (s.sense rail data) := .lit hk

@[mono] theorem State.capArrives_keeps {s₀ s : State} (hk : Keeps s₀ s) : Keeps s₀ s.capArrives := by
  unfold State.capArrives
  split <;> mono <;> exact Keeps.lit hk

@[mono] theorem State.holdRise_keeps {s₀ s : State} (hk : Keeps s₀ s) : Keeps s₀ s.holdRise := by
  unfold State.holdRise
  mono <;> exact Keeps.lit hk

@[mono] theorem State.aclkIdle_keeps {s₀ s : State} (hk : Keeps s₀ s) : Keeps s₀ s.aclkIdle := by
  unfold State.aclkIdle
  mono <;> exact Keeps.lit hk

@[mono] theorem State.holdFall_keeps {s₀ s : State} {pt} (hk : Keeps s₀ s) : Keeps s₀ (s.holdFall pt) := by
  unfold State.holdFall
  mono <;> exact Keeps.lit hk

@[mono] theorem State.stopRef_keeps {s₀ s : State} (hk : Keeps s₀ s) : Keeps s₀ s.stopRef := by
  unfold State.stopRef
  dsimp only
  mono
  intro c u hu
  mono

@[mono] theorem State.stopClock_keeps {s₀ s : State} {d} (hk : Keeps s₀ s) : Keeps s₀ (s.stopClock d) := by
  unfold State.stopClock
  mono <;> exact Keeps.lit hk

@[mono] theorem State.clockStopped_keeps {s₀ s : State} {d} (hk : Keeps s₀ s) : Keeps s₀ (s.clockStopped d) := by
  unfold State.clockStopped
  dsimp only
  mono <;> exact Keeps.lit hk

@[mono] theorem State.oweFull_keeps {s₀ s : State} {k} (hk : Keeps s₀ s) : Keeps s₀ (s.oweFull k) := by
  unfold State.oweFull
  dsimp only
  mono
  all_goals exact fun _ => le_rfl

@[mono] theorem State.oweAll_keeps {s₀ s : State} (hk : Keeps s₀ s) : Keeps s₀ s.oweAll := by
  unfold State.oweAll
  mono <;> intros <;> mono

@[mono] theorem State.findTrips_keeps {s₀ s : State} (hk : Keeps s₀ s) : Keeps s₀ s.findTrips := by
  unfold State.findTrips
  mono <;> intros <;> mono

@[mono] theorem State.arrive_keeps {s₀ s : State} {w} (hk : Keeps s₀ s) : Keeps s₀ (s.arrive w) := by
  unfold State.arrive
  split <;> mono

@[mono] theorem State.arriveAll_keeps {s₀ s : State} (hk : Keeps s₀ s) : Keeps s₀ s.arriveAll :=
  keeps_foldl (.lit hk) fun _ _ hu => State.arrive_keeps hu

@[mono] theorem State.clockRestart_keeps {s₀ s : State} {d} (hk : Keeps s₀ s) : Keeps s₀ (s.clockRestart d) := by
  have hu : Keeps s₀ (s.mapRegs (fun r => { r with stopped := r.stopped &&& ~~~ BitVec.ofNat 5 (2 ^ d) })) := .lit hk
  have shown (u : State) (hu : Keeps s₀ u) (n : Nat) : Keeps s₀ { u with crossing := [], clk := { u.clk with stopShown := n } } := .lit hu
  unfold State.clockRestart
  extract_lets u
  replace hu : Keeps s₀ u := hu
  clear_value u
  split
  · exact hk
  · split
    · mono
    · split
      · exact State.pumpPulls_keeps (State.sweepBad_keeps (State.goOn_keeps (State.arriveAll_keeps (State.drainPorts_keeps
          (State.fabResume_keeps (shown u hu _))))))
      · mono

/-! ### Firmware images, sags, SHUTDOWN and supply (R82 to R87, R455, R473 to R479, R502) -/

@[mono] theorem State.setSlot_keeps {s₀ s : State} {b f} (hk : Keeps s₀ s) : Keeps s₀ (s.setSlot b f) := by
  unfold State.setSlot
  dsimp only
  mono <;> refine Keeps.lit ?_ <;> mono

@[mono] theorem State.fwStage_keeps {s₀ s : State} {h} (hk : Keeps s₀ s) : Keeps s₀ (s.fwStage h) := by
  unfold State.fwStage
  extract_lets x off len last bs b f u st v w
  have hu : Keeps s₀ u := State.setSlot_keeps hk
  have hv : Keeps s₀ v := keeps_ite (.lit hu) hu
  clear_value v
  split
  · mono
  · split
    · mono
    · split
      · mono
      · exact State.finish_keeps (.lit hv)

/-- The fuses that are programmed go up to the version that runs at most (R479). -/
theorem fuseSvn_le_add (svn fuse : BitVec 8) (burnt : Nat) :
    fuse ≤ fuse + BitVec.ofNat 8 (min burnt (svn.toNat - fuse.toNat)) := by
  rw [BitVec.le_def, BitVec.toNat_add, BitVec.toNat_ofNat]
  have h := svn.isLt
  have h' := fuse.isLt
  rw [Nat.mod_eq_of_lt (by omega : min burnt (svn.toNat - fuse.toNat) < 2 ^ 8), Nat.mod_eq_of_lt (by omega)]
  omega

@[mono] theorem State.fwLock_keeps {s₀ s : State} {h burnt} (hk : Keeps s₀ s) : Keeps s₀ (s.fwLock h burnt) := by
  have hu : Keeps s₀ { s with start := { s.start with
      fuseSvn := s.start.fuseSvn + BitVec.ofNat 8 (min burnt (s.start.run.svn.toNat - s.start.fuseSvn.toNat)) } } :=
    ⟨hk.pending, hk.memWf, hk.bounded, BitVec.le_trans hk.fuses (fuseSvn_le_add _ _ _), hk.session⟩
  unfold State.fwLock
  dsimp only
  mono

theorem Debug.refuse_session (d : Debug) (u : BitVec 152) :
    (d.refuse u).sessionOn = d.sessionOn ∧ (d.refuse u).scope = d.scope := by
  have h (l : List (BitVec 152)) (e : Debug) : let f := l.foldl (fun d v =>
      ({ d with accessAddr := d.addr, result := dbWord 0 0 6 (bit v.toNat 147) } : Debug).endAccess) e
      f.sessionOn = e.sessionOn ∧ f.scope = e.scope := by
    induction l generalizing e with
    | nil => exact ⟨rfl, rfl⟩
    | cons v l ih => exact ih _
  exact h _ _

@[mono] theorem State.refuseAccess_keeps {s₀ s : State} {a} (hk : Keeps s₀ s) : Keeps s₀ (s.refuseAccess a) := by
  unfold State.refuseAccess
  split
  · mono
  · mono
  · split
    · obtain ⟨hon, hscope⟩ := Debug.refuse_session s.dbg ‹_›
      exact .lit hk (hon := hon) (hscope := hscope)
    · exact hk
  · exact hk
  · exact hk
  · exact hk

@[mono] theorem State.dropQueues_keeps {s₀ s : State} (hk : Keeps s₀ s) : Keeps s₀ s.dropQueues := by
  unfold State.dropQueues
  mono <;> intros <;> mono

@[mono] theorem State.refuseWaiting_keeps {s₀ s : State} (hk : Keeps s₀ s) : Keeps s₀ s.refuseWaiting := by
  unfold State.refuseWaiting
  refine keeps_foldl (keeps_foldl (.lit (keeps_foldl (keeps_foldl (State.dropQueues_keeps hk) fun _ _ hu => ?_) fun _ _ hu => ?_))
    fun _ _ hu => ?_) fun _ _ hu => ?_
  · mono
  · dsimp only
    mono
    intros
    mono
  · mono
  · mono

@[mono] theorem State.endBankWork_keeps {s₀ s : State} (hk : Keeps s₀ s) : Keeps s₀ s.endBankWork := by
  unfold State.endBankWork
  mono <;> intros <;> mono

@[mono] theorem State.endFprog_keeps {s₀ s : State} (hk : Keeps s₀ s) : Keeps s₀ s.endFprog := by
  unfold State.endFprog
  split
  · mono
  · exact hk

@[mono] theorem State.undraw_keeps {s₀ s : State} (hk : Keeps s₀ s) : Keeps s₀ s.undraw := by
  unfold State.undraw
  split
  · extract_lets ctl bs mine mbox t
    have ht : Keeps s₀ t := .lit hk
    clear_value t
    exact keeps_ite (.lit ht) (State.lintelWrite_keeps ht)
  · exact hk

@[mono] theorem State.stopExport_keeps {s₀ s : State} (hk : Keeps s₀ s) : Keeps s₀ s.stopExport := by
  unfold State.stopExport
  mono

@[mono] theorem State.dropBackground_keeps {s₀ s : State} (hk : Keeps s₀ s) : Keeps s₀ s.dropBackground := by
  have hu : Keeps s₀ s.endFprog.undraw.stopExport := by mono
  exact .lit (keeps_ite (.lit hu) hu)

@[mono] theorem State.abortBackground_keeps {s₀ s : State} (hk : Keeps s₀ s) : Keeps s₀ s.abortBackground := by
  unfold State.abortBackground
  mono <;> intros <;> mono

@[mono] theorem State.srefTrained_keeps {s₀ s : State} (hk : Keeps s₀ s) : Keeps s₀ s.srefTrained := by
  unfold State.srefTrained
  mono <;> intros <;> mono

@[mono] theorem State.saveRingsOnce_keeps {s₀ s : State} {esr} (hk : Keeps s₀ s) : Keeps s₀ (s.saveRingsOnce esr) := by
  unfold State.saveRingsOnce
  mono

@[mono] theorem State.writeSpill_keeps {s₀ s : State} {cause} (hk : Keeps s₀ s) : Keeps s₀ (s.writeSpill cause) := by
  have hw := State.wroteRecord_keeps hk
  refine ⟨hw.pending, hw.memWf, fun hs => ?_, ?_, hw.session⟩
  · obtain ⟨hp, hl, ha, hb, hr, -⟩ := hw.bounded hs
    obtain ⟨-, -, -, -, hring, -⟩ := hk.bounded hs
    exact ⟨hp, hl, ha, hb, hr, hring⟩
  · exact hk.fuses

@[mono] theorem State.leave_keeps {s₀ s : State} {m} (hk : Keeps s₀ s) : Keeps s₀ (s.leave m) := .lit hk

@[mono] theorem State.deadbolt_keeps {s₀ s : State} {cause} (hk : Keeps s₀ s) : Keeps s₀ (s.deadbolt cause) := by
  unfold State.deadbolt
  dsimp only
  exact Keeps.lit (by mono)

@[mono] theorem State.sagPorts_keeps {s₀ s : State} (hk : Keeps s₀ s) : Keeps s₀ s.sagPorts := by
  unfold State.sagPorts
  mono <;> intros <;> mono

@[mono] theorem State.deliverLost_keeps {s₀ s : State} (hk : Keeps s₀ s) : Keeps s₀ s.deliverLost := by
  unfold State.deliverLost
  mono

@[mono] theorem State.vddsFar_keeps {s₀ s : State} (hk : Keeps s₀ s) : Keeps s₀ s.vddsFar := .lit hk

@[mono] theorem State.sagAccept_keeps {s₀ s : State} (hk : Keeps s₀ s) : Keeps s₀ s.sagAccept := by
  have inStart (u : State) (hu : Keeps s₀ u) (b : Bool) : Keeps s₀ { u with start := { u.start with sagInStart := b } } := .lit hu
  have starting (u : State) (hu : Keeps s₀ u) :
      Keeps s₀ { u with start := { u.start with sagInStart := true, phase := 0, activate := none } } := .lit hu
  have inFail (u : State) (hu : Keeps s₀ u) : Keeps s₀ { u with start := { u.start with sagInFail := true } } := .lit hu
  have hfar := State.vddsFar_keeps hk
  unfold State.sagAccept
  split
  · exact State.closeSession_keeps (inStart _ (State.leave_keeps (State.deadbolt_keeps (State.deliverLost_keeps
      (State.dropBackground_keeps (State.sagPorts_keeps hfar))))) false)
  · exact State.closeSession_keeps (State.leave_keeps (starting _ hfar))
  · exact State.closeSession_keeps (inFail _ hfar)
  · exact hk

@[mono] theorem State.dboltDone_keeps {s₀ s : State} (hk : Keeps s₀ s) : Keeps s₀ s.dboltDone := by
  have up (u : State) (hu : Keeps s₀ u) : Keeps s₀ { u with clk := { u.clk with dbolt := true } } := .lit hu
  unfold State.dboltDone
  dsimp only
  split
  · exact up _ (by mono)
  · exact keeps_ite hk (up _ (by mono))
  · exact keeps_ite (up _ hk) hk
  · exact hk

@[mono] theorem State.shutdown_keeps {s₀ s : State} {b} (hk : Keeps s₀ s) : Keeps s₀ (s.shutdown b) := by
  unfold State.shutdown
  mono <;> intros <;> mono

theorem bank_resetStack_owed (s : State) (k : Nat) : (s.resetStack.bank k).owed = 0 := by
  have h : ∀ l : Sparse Bank, (Sparse.get .init (l.filterMap (fun e =>
      let b : Bank := { Bank.init with fused := e.2.fused, bad := e.2.bad, rowCtr := e.2.rowCtr }
      if b = Bank.init then none else some (e.1, b))) k).owed = 0 := by
    intro l
    induction l with
    | nil => rfl
    | cons e l ih =>
      rw [List.filterMap_cons]
      split
      · exact ih
      · next h =>
        dsimp only at h
        split at h
        · contradiction
        · rw [← Option.some.inj h]
          unfold Sparse.get
          dsimp only
          split
          · rfl
          · exact ih
  exact h s.banks

@[mono] theorem State.resetStack_keeps {s₀ s : State} (hk : Keeps s₀ s) : Keeps s₀ s.resetStack where
  pending := hk.pending
  memWf := hk.memWf
  bounded hs := by
    obtain ⟨hp, hl, ha, -, hr, hsp⟩ := hk.bounded hs
    exact ⟨hp, hl, ha, fun k => (bank_resetStack_owed s k).trans_le (Nat.zero_le 8), hr, hsp⟩
  fuses := hk.fuses
  session := hk.session

/-- Time at zero (R527). -/
theorem Keeps.clkInit {s t : State} (h : Keeps s t) : Keeps s { t with clk := .init } where
  pending := h.pending
  memWf := h.memWf
  bounded hs := ⟨Nat.succ_pos 199, (h.bounded hs).2⟩
  fuses := h.fuses
  session := h.session

@[mono] theorem State.assertReset_keeps {s₀ s : State} (hk : Keeps s₀ s) : Keeps s₀ s.assertReset := by
  unfold State.assertReset
  split
  · exact hk
  · have hu := State.closeSession_keeps (State.endFprog_keeps hk)
    have hv := (hu.acq (acq := []) (regs := { s.endFprog.closeSession.regs with irqStatus := 0, irqEnable := 0 })
      (fun _ => Nat.zero_le 1024) rfl)
    exact State.leave_keeps (State.resetStack_keeps (.lit (Keeps.clkInit hv)))

/-- An empty stack. -/
theorem Keeps.clearStack {s t : State} (h : Keeps s t) : Keeps s { t with stack := .empty } :=
  h.stores (fun _ => Store.wf_empty) id id

@[mono] theorem State.vddSLoss_keeps {s₀ s : State} (hk : Keeps s₀ s) : Keeps s₀ s.vddSLoss := by
  have hu : Keeps s₀ s.vddsFar.loseRecords.forgetDb := by mono
  have hv := keeps_foldl (f := fun s k => s.setBank k { s.bank k with soft := [] })
    (l := s.vddsFar.loseRecords.forgetDb.banks.map (·.1)) hu fun k u hu => State.setBank_keeps hu (bankFits_mk hu)
  exact .lit (Keeps.clearStack hv)

@[mono] theorem State.vddCRemoval_keeps {s₀ s : State} (hk : Keeps s₀ s) : Keeps s₀ s.vddCRemoval := .lit hk

/-! ### Starts (R459 to R478) -/

@[mono] theorem State.idrPage_keeps {s₀ s : State} {p} (hk : Keeps s₀ s) : Keeps s₀ (s.idrPage p) := by
  unfold State.idrPage
  mono <;> intros <;> mono

@[mono] theorem State.readPages_keeps {s₀ s : State} (hk : Keeps s₀ s) : Keeps s₀ s.readPages := by
  unfold State.readPages
  mono <;> intros <;> mono

@[mono] theorem State.inPhase_keeps {s₀ s : State} {p} (hk : Keeps s₀ s) : Keeps s₀ (s.inPhase p) := .lit hk

@[mono] theorem State.stkRst_keeps {s₀ s : State} (hk : Keeps s₀ s) : Keeps s₀ s.stkRst := by
  unfold State.stkRst
  mono <;> intros <;> mono

@[mono] theorem State.shutDebug_keeps {s₀ s : State} (hk : Keeps s₀ s) : Keeps s₀ s.shutDebug := by
  unfold State.shutDebug
  dsimp only
  mono <;> refine Keeps.lit ?_ <;> mono

@[mono] theorem State.clearMark_keeps {s₀ s : State} (hk : Keeps s₀ s) : Keeps s₀ s.clearMark := .lit hk

@[mono] theorem State.asKind_keeps {s₀ s : State} {k} (hk : Keeps s₀ s) : Keeps s₀ (s.asKind k) := by
  unfold State.asKind
  mono <;> exact Keeps.lit hk

@[mono] theorem State.failAttempt_keeps {s₀ s : State} {cause} (hk : Keeps s₀ s) : Keeps s₀ (s.failAttempt cause) := by
  unfold State.failAttempt
  dsimp only
  mono <;> exact Keeps.lit hk

@[mono] theorem State.trn_keeps {s₀ s : State} {c arg} (hk : Keeps s₀ s) : Keeps s₀ (s.trn c arg) := .lit hk
@[mono] theorem State.noteMargin_keeps {s₀ s : State} {e c ifs} (hk : Keeps s₀ s) : Keeps s₀ (s.noteMargin e c ifs) := .lit hk

@[mono] theorem State.applyLanes_keeps {s₀ s : State} {e l} (hk : Keeps s₀ s) : Keeps s₀ (s.applyLanes e l) := by
  unfold State.applyLanes
  refine keeps_foldl hk fun c u hu => ?_
  dsimp only
  mono
  intro x v hv
  mono

@[mono] theorem State.issueTsv_keeps {s₀ s : State} {e} (hk : Keeps s₀ s) : Keeps s₀ (s.issueTsv e) := by
  unfold State.issueTsv
  split
  · exact hk
  · refine .lit (keeps_foldl hk fun x u hu => ?_)
    dsimp only
    split <;> mono

@[mono] theorem State.putCalib_keeps {s₀ s : State} {f} (hk : Keeps s₀ s) : Keeps s₀ (s.putCalib f) := Keeps.record hk

@[mono] theorem State.train_keeps {s₀ s : State} {e} (hk : Keeps s₀ s) : Keeps s₀ (s.train e).1 := by
  unfold State.train
  extract_lets u v serial temps n w st
  have hu : Keeps s₀ u := State.issueTsv_keeps hk
  have hw : Keeps s₀ w := State.putCalib_keeps (State.applyLanes_keeps hu)
  clear_value w temps serial n u
  split
  · dsimp only
    mono
    intro c x hx
    mono
  · exact .lit hw

@[mono] theorem State.lanes_keeps {s₀ s : State} {e} (hk : Keeps s₀ s) : Keeps s₀ (s.lanes e).1 := by
  unfold State.lanes
  split <;> mono

@[mono] theorem State.lostRow_keeps {s₀ s : State} {bank row spare} (hk : Keeps s₀ s) : Keeps s₀ (s.lostRow bank row spare) := by
  unfold State.lostRow
  refine .lit (keeps_foldl (State.softMap_keeps hk) fun i u hu => ?_)
  dsimp only
  mono

@[mono] theorem State.reapplySoft_keeps {s₀ s : State} (hk : Keeps s₀ s) : Keeps s₀ s.reapplySoft := by
  unfold State.reapplySoft
  mono <;> intros <;> mono

@[mono] theorem State.checkPending_keeps {s₀ s : State} (hk : Keeps s₀ s) : Keeps s₀ s.checkPending := by
  have suspect (u : State) (hu : Keeps s₀ u) : Keeps s₀ { u with start := { u.start with fuseSuspect := true } } := .lit hu
  unfold State.checkPending
  dsimp only
  split
  · exact hk
  · next bank row spare _ =>
    split
    · have hu : Keeps s₀ (((s.readRow bank row false).putCalib (fun c => { c with pending := none })).putCalib
          (fun c => { c with soft := c.soft.filter (fun x => (x.1, x.2.1) != (bank, row)) })) := by mono
      exact keeps_ite hu (suspect _ hu)
    · exact State.putCalib_keeps (.lit hk)

@[mono] theorem State.readRecords_keeps {s₀ s : State} {calOk} (hk : Keeps s₀ s) : Keeps s₀ (s.readRecords calOk) := by
  have found (u : State) (hu : Keeps s₀ u) (l : Option LintelRecord) (c : Calib) :
      Keeps s₀ { u with start := { u.start with found := l, calibRead := true, calib := c } } := .lit hu
  exact found _ (State.lintelAccount_keeps (State.freeFrames_keeps hk)) _ _

@[mono] theorem State.phase5_keeps {s₀ s : State} {e stored calOk} (hk : Keeps s₀ s) : Keeps s₀ (s.phase5 e stored calOk).state := by
  unfold State.phase5
  extract_lets u v und warm w st x y st' z r
  have hu : Keeps s₀ u := State.leaveSref_keeps (State.inPhase_keeps hk)
  have hv : Keeps s₀ v := keeps_ite (State.readRecords_keeps hu) hu
  have hw : Keeps s₀ w := State.checkPending_keeps (keeps_ite (State.reapplySoft_keeps hv) hv)
  clear_value w
  have hx : Keeps s₀ x := .lit hw
  clear_value x
  have hz : Keeps s₀ z := keeps_ite (.lit (State.clearMark_keeps (State.wroteRecord_keeps hx))) hx
  clear_value z
  have hr : Keeps s₀ r.1 := State.train_keeps (State.inPhase_keeps hz)
  split
  · split
    · exact hr
    · exact hr
  · exact hz

@[mono] theorem State.runImage_keeps {s₀ s : State} {f} (hk : Keeps s₀ s) : Keeps s₀ (s.runImage f) := by
  have h : s.freeFrames.start = s.start := foldl_setChan_start (fun _ c => c) _ _ s
  exact .lit (State.freeFrames_keeps hk) (hfuse := by rw [h]) (hspill := by rw [h])

@[mono] theorem State.bistFrames_keeps {s₀ s : State} {k was} (hk : Keeps s₀ s) : Keeps s₀ (s.bistFrames k was) := by
  unfold State.bistFrames
  mono <;> intros <;> mono

@[mono] theorem State.marchStack_keeps {s₀ s : State} (hk : Keeps s₀ s) : Keeps s₀ s.marchStack := .lit (Keeps.clearStack hk)

theorem Bank.owed_bistRows (cond : Bool) (b : Bank) (rows : List Nat) : (bistRows cond b rows).1.owed = b.owed := by
  induction rows generalizing b with
  | nil => rfl
  | cons r rest ih =>
    unfold bistRows
    split
    · rfl
    · split
      · split
        · rfl
        · exact ih _
      · split
        · exact ih _
        · rfl

@[mono] theorem State.bist_keeps {s₀ s : State} {e ks} (hk : Keeps s₀ s) : Keeps s₀ (s.bist e ks).1 := by
  induction ks generalizing s with
  | nil => exact hk
  | cons k ks ih =>
    unfold State.bist
    extract_lets fails bk b r u
    have hu : Keeps s₀ u := by
      refine State.bistFrames_keeps (State.setBank_keeps hk fun hs => ?_)
      exact (Bank.owed_bistRows _ _ _).trans_le (hk.owed hs k)
    clear_value u
    split
    · exact ih hu
    · exact hu

@[mono] theorem State.coldState_keeps {s₀ s : State} {img} (hk : Keeps s₀ s) : Keeps s₀ (s.coldState img) := by
  unfold State.coldState
  extract_lets r c0 c a1 a2 a3 u
  have hu : Keeps s₀ u := by
    refine ⟨hk.pending, fun hs => ?_, fun hs => ?_, hk.fuses, hk.session⟩
    · have := hk.memWf hs
      rw [State.memWf_iff] at this ⊢
      obtain ⟨-, -, hh, -, -⟩ := this
      exact ⟨Store.wf_empty, Store.wf_empty, hh, rfl, rfl⟩
    · obtain ⟨hp, hl, ha, hb, -, hsp⟩ := hk.bounded hs
      exact ⟨hp, hl, ha, hb, ringsBounded_nil, hsp⟩
  clear_value u
  mono

@[mono] theorem State.restoreImage_keeps {s₀ s : State} (hk : Keeps s₀ s) : Keeps s₀ s.restoreImage := by
  unfold State.restoreImage
  split
  · exact hk
  · exact .lit hk

@[mono] theorem ringFits_atStart {s t : State} {k : Nat} (h : Keeps s t) : RingFits s (t.ring k).atStart := fun hs => h.flight hs k

@[mono] theorem State.stopRings_keeps {s₀ s : State} (hk : Keeps s₀ s) : Keeps s₀ s.stopRings :=
  State.loadRings_keeps (keeps_foldl hk fun _ _ hu => State.setRing_keeps hu (ringFits_atStart hu))

/-- The image of host scratch, the latches and the rings as the spill holds them. -/
theorem Keeps.restoreSpill {s t : State} (h : Keeps s t) {l : Sparse (BitVec 64)} {a n : Nat} {m : Store} :
    Keeps s { t.freeFrames with mortar := t.mortar.restore a n m, latches := l, rings := t.start.spill.rings } := by
  have hf := State.freeFrames_keeps h
  refine ⟨hf.pending, fun hs => ?_, fun hs => ?_, hf.fuses, hf.session⟩
  · have h1 := hf.memWf hs
    have h2 := h.memWf hs
    rw [State.memWf_iff] at h1 h2 ⊢
    exact ⟨h1.1, Store.wf_restore _ _ _ _ h2.2.1, h1.2.2⟩
  · obtain ⟨hp, hl, ha, hb, -, hsp⟩ := hf.bounded hs
    exact ⟨hp, hl, ha, hb, (h.bounded hs).2.2.2.2.2, hsp⟩

@[mono] theorem State.phase9_keeps {s₀ s : State} (hk : Keeps s₀ s) : Keeps s₀ s.phase9 := by
  unfold State.phase9
  extract_lets sp fr u v bad
  have hu : Keeps s₀ u := keeps_ite hk (Keeps.restoreSpill hk)
  have hv : Keeps s₀ v := keeps_ite (State.restoreImage_keeps hu) hu
  exact State.stopRings_keeps (keeps_foldl hv fun _ _ hw => State.setBank_keeps hw (bankFits_mk hw))

@[mono] theorem State.phases7_keeps {s₀ s : State} {e img} (hk : Keeps s₀ s) : Keeps s₀ (s.phases7 e img).state := by
  have test (u : State) (hu : Keeps s₀ u) : Keeps s₀ (
      if !e.tumblerOk then Attempt.fail { u.inPhase 11 with regs := { (u.inPhase 11).regs with katFail := true } } 10
      else if (u.inPhase 11).isCold && !e.laneTestOk then .fail (u.inPhase 11) 9
      else .go (u.inPhase 11)).state := by
    split
    · exact .lit (State.inPhase_keeps hu)
    · split
      · exact State.inPhase_keeps hu
      · exact State.inPhase_keeps hu
  unfold State.phases7
  dsimp only
  split
  · split
    · exact test _ (by mono)
    · change Keeps s₀ (State.freeFrames _)
      mono
  · split
    · change Keeps s₀ (State.inPhase _ _)
      mono
    · split
      · exact test _ (by mono)
      · change Keeps s₀ (State.recover _ _).state
        mono

@[mono] theorem State.phase6_keeps {s₀ s : State} {e kept} (hk : Keeps s₀ s) : Keeps s₀ (s.phase6 e kept).state := by
  unfold State.phase6
  dsimp only
  split
  · mono
  · exact .lit (State.inPhase_keeps hk)

@[mono] theorem State.phases3_keeps {s₀ s : State} {e} (hk : Keeps s₀ s) : Keeps s₀ (s.phases3 e).state := by
  unfold State.phases3
  extract_lets p clk v st u calOk kept l
  have hv : Keeps s₀ v := State.readPages_keeps (.lit (State.inPhase_keeps hk))
  have hu : Keeps s₀ u := keeps_ite (.lit hv) hk
  have hl : Keeps s₀ l.1 := State.lanes_keeps (State.inPhase_keeps hu)
  have h5 := State.phase5_keeps (e := e) (stored := l.2.1) (calOk := calOk) hl
  split
  · exact hu
  · split
    · exact hl
    · split
      · next w h =>
        rw [h] at h5
        exact State.phase6_keeps h5
      · next w c h =>
        rw [h] at h5
        exact h5
      · next w h =>
        rw [h] at h5
        exact h5

@[mono] theorem State.phases1_keeps {s₀ s : State} {e} (hk : Keeps s₀ s) : Keeps s₀ (s.phases1 e).state := by
  unfold State.phases1
  extract_lets u c v w c' x y st
  have hu : Keeps s₀ u := keeps_ite (State.inPhase_keeps hk) hk
  have hw : Keeps s₀ w := State.inPhase_keeps (keeps_ite (.lit hu) hu)
  have hx : Keeps s₀ x := .lit hw
  have hy : Keeps s₀ y := State.readSensors_keeps hx
  split
  · exact hu
  · split
    · exact hx
    · split
      · exact State.phases3_keeps hy
      · exact .lit hy

@[mono] theorem State.attempts_keeps {s₀ : State} {r : Attempt} {envs n} (hk : Keeps s₀ r.state) : Keeps s₀ (State.attempts r envs n) := by
  induction n generalizing r envs with
  | zero =>
    unfold State.attempts
    split
    · exact .lit hk
    · exact hk
    · exact State.failAttempt_keeps hk
  | succ n ih =>
    unfold State.attempts
    split
    · exact .lit hk
    · exact hk
    · next u c =>
      have hf := State.failAttempt_keeps (cause := c) hk
      exact keeps_ite hf (ih (State.phases1_keeps hf))

@[mono] theorem State.dropScratch_keeps {s₀ s : State} (hk : Keeps s₀ s) : Keeps s₀ s.dropScratch := by
  have hu := keeps_foldl (f := fun s k => s.setBank k { s.bank k with saved := (false, false) }) (l := s.banks.map (·.1)) hk
    fun _ _ hu => State.setBank_keeps hu (bankFits_mk hu)
  exact .lit (hu.stores id (Store.wf_zero _ _ _) id)

@[mono] theorem State.beginStart_keeps {s₀ s : State} {kind} (hk : Keeps s₀ s) : Keeps s₀ (s.beginStart kind) := by
  unfold State.beginStart
  extract_lets u clk st dbg v
  have hu : Keeps s₀ u := State.dropScratch_keeps (State.closeSession_keeps (State.dropAcquires_keeps hk))
  have hv : Keeps s₀ v := .lit hu
  clear_value v
  mono

@[mono] theorem State.riseReset_keeps {s₀ s : State} (hk : Keeps s₀ s) : Keeps s₀ s.riseReset where
  pending := hk.pending
  memWf := hk.memWf
  bounded hs := by
    obtain ⟨-, -, ha, hb, -, hsp⟩ := hk.bounded hs
    exact ⟨Nat.succ_pos 199, Nat.zero_le 64, ha, hb, ringsBounded_nil, hsp⟩
  fuses := hk.fuses
  session := nofun

@[mono] theorem State.deassertReset_keeps {s₀ s : State} {envs} (hk : Keeps s₀ s) : Keeps s₀ (s.deassertReset envs) := by
  unfold State.deassertReset
  dsimp only
  mono

@[mono] theorem State.sagClear_keeps {s₀ s : State} {envs} (hk : Keeps s₀ s) : Keeps s₀ (s.sagClear envs) := by
  unfold State.sagClear
  dsimp only
  mono

@[mono] theorem State.thermalWait_keeps {s₀ s : State} {temps envs} (hk : Keeps s₀ s) : Keeps s₀ (s.thermalWait temps envs) := by
  have hu := State.readSensors_keeps (temps := temps) hk
  have hon : Keeps s₀ { s.readSensors temps with start := { (s.readSensors temps).start with wait := .ports } } := .lit hu
  unfold State.thermalWait
  dsimp only
  exact keeps_ite hk (keeps_ite (State.attempts_keeps hon) (keeps_ite (State.attempts_keeps (State.phases3_keeps hon)) hu))

@[mono] theorem State.fwLoadEnd_keeps {s₀ s : State} {envs} (hk : Keeps s₀ s) : Keeps s₀ (s.fwLoadEnd envs) := by
  have hu := State.fwLoadStop_keeps hk
  unfold State.fwLoadEnd
  dsimp only
  split
  · exact hu
  · split
    · exact State.attempts_keeps (.lit hu)
    · exact State.attempts_keeps (State.phases7_keeps (.lit hu))

@[mono] theorem State.fwWaitExpiry_keeps {s₀ s : State} {envs} (hk : Keeps s₀ s) : Keeps s₀ (s.fwWaitExpiry envs) := by
  unfold State.fwWaitExpiry
  split
  · exact hk
  · exact State.attempts_keeps (.lit hk)

@[mono] theorem State.startUse_keeps {s₀ s : State} (hk : Keeps s₀ s) : Keeps s₀ s.startUse := by
  unfold State.startUse
  mono <;> intros <;> mono

@[mono] theorem State.plumbStart_keeps {s₀ s : State} (hk : Keeps s₀ s) : Keeps s₀ s.plumbStart := by
  unfold State.plumbStart
  dsimp only
  mono <;> refine Keeps.lit ?_ <;> mono

@[mono] theorem State.endActivate_keeps {s₀ s : State} (hk : Keeps s₀ s) : Keeps s₀ s.endActivate := by
  unfold State.endActivate
  split
  · exact hk
  · next h _ =>
    extract_lets others u st v
    have hu : Keeps s₀ u := keeps_foldl hk fun _ _ hu => State.answerHasp_keeps hu
    have hv : Keeps s₀ v := .lit hu
    exact keeps_ite (State.finish_keeps (State.putCalib_keeps (.lit hv))) (State.finish_keeps hv)

@[mono] theorem State.startComplete_keeps {s₀ s : State} {fclk} (hk : Keeps s₀ s) : Keeps s₀ (s.startComplete fclk) := by
  unfold State.startComplete
  dsimp only
  mono <;> refine Keeps.lit ?_ <;> mono

@[mono] theorem State.fclkRecheck_keeps {s₀ s : State} {fclk} (hk : Keeps s₀ s) : Keeps s₀ (s.fclkRecheck fclk) := by
  unfold State.fclkRecheck
  dsimp only
  mono <;> exact Keeps.lit hk

@[mono] theorem State.restart_keeps {s₀ s : State} {h startOk restoreOk envs} (hk : Keeps s₀ s) :
    Keeps s₀ (s.restart h startOk restoreOk envs) := by
  have activated (u : State) (hu : Keeps s₀ u) : Keeps s₀ { u with start := { u.start with activate := some h } } := .lit hu
  have kat (u : State) (hu : Keeps s₀ u) : Keeps s₀ { u with regs := { u.regs with katFail := true } } := .lit hu
  have ports (u : State) (hu : Keeps s₀ u) : Keeps s₀ { u with start := { u.start with wait := .ports, phase := 12 } } := .lit hu
  have fresh (u : State) (hu : Keeps s₀ u) : Keeps s₀ { u with free := u.free + 1 } := .lit hu
  unfold State.restart
  extract_lets staged u v w st x bad y r z regs st'
  have hw : Keeps s₀ w := by mono
  clear_value w
  have hx : Keeps s₀ x := activated _ hw
  clear_value x
  have hy : Keeps s₀ y := State.leaveSref_keeps (State.runImage_keeps hx)
  have hz : Keeps s₀ z := State.recover_keeps (State.stopRings_keeps hy)
  have hbad (a : State) (c : Nat) (ha : Keeps s₀ a) : Keeps s₀ (bad a c) := State.attempts_keeps ha
  clear_value bad z y
  split
  · exact hbad _ _ (fresh _ hx)
  · split
    · exact hbad _ _ hy
    · split
      · exact hbad _ _ hz
      · split
        · exact hbad _ _ (kat _ hz)
        · exact ports _ hz

@[mono] theorem State.fwActivate_keeps {s₀ s : State} {h b c d envs} (hk : Keeps s₀ s) : Keeps s₀ (s.fwActivate h b c d envs) := by
  unfold State.fwActivate
  mono

/-! ### Commands and steps -/

/-- Where the command has an effect, it keeps what every operation keeps. -/
def KeepsAfter (s : State) (o : Host.Outcome State Fault Refusal) : Prop := ∀ t, o = .next t → Keeps s t

@[mono] theorem keepsAfter_next {s t : State} (h : Keeps s t) : KeepsAfter s (.next t) := by
  rintro _ ⟨⟩
  exact h

@[mono] theorem keepsAfter_guard {s t : State} {ok : Bool} (h : Keeps s t) : KeepsAfter s (guard ok t) := fun _ hu =>
  (guard_eq_next.1 hu).2 ▸ h

theorem execRead_keepsAfter {s : State} {port ctl addr tag} : KeepsAfter s (execRead port ctl addr tag s) := by
  unfold execRead
  mono

theorem execWrite_keepsAfter {s : State} {port ctl addr tag data chk ben} : KeepsAfter s (execWrite port ctl addr tag data chk ben s) := by
  unfold execWrite
  mono

theorem execFadd64_keepsAfter {s : State} {port ctl addr tag data chk} : KeepsAfter s (execFadd64 port ctl addr tag data chk s) := by
  unfold execFadd64
  mono

theorem execFadd64Acquire_keepsAfter {s : State} {port ctl addr tag data chk at_} : KeepsAfter s (execFadd64Acquire port ctl addr tag data chk at_ s) := by
  unfold execFadd64Acquire
  mono

theorem execCas64_keepsAfter {s : State} {port ctl addr tag data chk} : KeepsAfter s (execCas64 port ctl addr tag data chk s) := by
  unfold execCas64
  mono

theorem execPintleReservedOp_keepsAfter {s : State} {port op ctl addr tag} : KeepsAfter s (execPintleReservedOp port op ctl addr tag s) := by
  unfold execPintleReservedOp
  mono

theorem execPintleResponse_keepsAfter {s : State} {port} : KeepsAfter s (execPintleResponse port s) := by
  unfold execPintleResponse
  mono

theorem execUpLinkCredit_keepsAfter {s : State} {port} : KeepsAfter s (execUpLinkCredit port s) := by
  unfold execUpLinkCredit
  mono

theorem execRdReq_keepsAfter {s : State} {src tag off} : KeepsAfter s (execRdReq src tag off s) := by
  unfold execRdReq
  mono
  intros
  mono

theorem execWrLine_keepsAfter {s : State} {src tag off data chk at_} : KeepsAfter s (execWrLine src tag off data chk at_ s) := by
  unfold execWrLine
  mono
  intros
  mono

theorem execSealWr_keepsAfter {s : State} {src tag off data chk at_} : KeepsAfter s (execSealWr src tag off data chk at_ s) := by
  unfold execSealWr
  mono
  intros
  mono

theorem execSealRelease_keepsAfter {s : State} {contrib} : KeepsAfter s (execSealRelease contrib s) := by
  unfold execSealRelease
  mono

theorem execFadd_keepsAfter {s : State} {src tag off data chk} : KeepsAfter s (execFadd src tag off data chk s) := by
  unfold execFadd
  mono
  intros
  mono

theorem execCas_keepsAfter {s : State} {src tag off data chk} : KeepsAfter s (execCas src tag off data chk s) := by
  unfold execCas
  mono
  intros
  mono

theorem execHeldRelease_keepsAfter {s : State} {src} : KeepsAfter s (execHeldRelease src s) := by
  unfold execHeldRelease
  mono

theorem execFaddAcquire_keepsAfter {s : State} {src tag off data chk at_} : KeepsAfter s (execFaddAcquire src tag off data chk at_ s) := by
  unfold execFaddAcquire
  mono
  intros
  mono

theorem execFabricReservedType_keepsAfter {s : State} {src vc type tag off} : KeepsAfter s (execFabricReservedType src vc type tag off s) := by
  unfold execFabricReservedType
  mono

theorem execRdResp_keepsAfter {s : State} {tag data chk at_} : KeepsAfter s (execRdResp tag data chk at_ s) := by
  unfold execRdResp
  mono
  intros
  mono

theorem execErrResp_keepsAfter {s : State} {tag stat at_} : KeepsAfter s (execErrResp tag stat at_ s) := by
  unfold execErrResp
  mono
  intros
  mono

theorem execRemoteTimeout_keepsAfter {s : State} {tag} : KeepsAfter s (execRemoteTimeout tag s) := by
  refine keepsAfter_next ?_
  split <;> mono

theorem execAcquireDone_keepsAfter {s : State} {index} : KeepsAfter s (execAcquireDone index s) := by
  unfold execAcquireDone
  mono

theorem execAcquireTimeout_keepsAfter {s : State} {index} : KeepsAfter s (execAcquireTimeout index s) := by
  unfold execAcquireTimeout
  mono

theorem execCaptureRead_keepsAfter {s : State} {off} : KeepsAfter s (execCaptureRead off s) := by
  unfold execCaptureRead
  mono

theorem execPwrCapLvlChange_keepsAfter {s : State} {level at_} : KeepsAfter s (execPwrCapLvlChange level at_ s) := by
  unfold execPwrCapLvlChange
  mono

theorem execSenseSample_keepsAfter {s : State} {rail data at_} : KeepsAfter s (execSenseSample rail data at_ s) := by
  unfold execSenseSample
  mono

theorem execSagAccept_keepsAfter {s : State} {at_} : KeepsAfter s (execSagAccept at_ s) := by
  unfold execSagAccept
  mono

theorem execDboltDone_keepsAfter {s : State} : KeepsAfter s (execDboltDone s) := by
  unfold execDboltDone
  mono

theorem execSagClearStart_keepsAfter {s : State} {envs} : KeepsAfter s (execSagClearStart envs s) := by
  unfold execSagClearStart
  mono

theorem execCyRstNAssert_keepsAfter {s : State} : KeepsAfter s (execCyRstNAssert s) := by
  unfold execCyRstNAssert
  mono

theorem execCyRstNDeassert_keepsAfter {s : State} {envs} : KeepsAfter s (execCyRstNDeassert envs s) := by
  unfold execCyRstNDeassert
  mono

theorem execStartThermalWait_keepsAfter {s : State} {temps envs} : KeepsAfter s (execStartThermalWait temps envs s) := by
  unfold execStartThermalWait
  mono

theorem execFwWaitExpiry_keepsAfter {s : State} {envs} : KeepsAfter s (execFwWaitExpiry envs s) := by
  unfold execFwWaitExpiry
  mono

theorem execStartComplete_keepsAfter {s : State} {fclkOk} : KeepsAfter s (execStartComplete fclkOk s) := by
  unfold execStartComplete
  mono

theorem execFclkRecheck_keepsAfter {s : State} {fclkOk} : KeepsAfter s (execFclkRecheck fclkOk s) := by
  unfold execFclkRecheck
  mono

theorem execAclkHoldRise_keepsAfter {s : State} : KeepsAfter s (execAclkHoldRise s) := by
  unfold execAclkHoldRise
  mono

theorem execAclkIdle_keepsAfter {s : State} : KeepsAfter s (execAclkIdle s) := by
  unfold execAclkIdle
  mono

theorem execAclkHoldFall_keepsAfter {s : State} {pt} : KeepsAfter s (execAclkHoldFall pt s) := by
  unfold execAclkHoldFall
  mono

theorem execTrstN_keepsAfter {s : State} : KeepsAfter s (execTrstN s) := by
  unfold execTrstN
  mono

theorem execClockStopped_keepsAfter {s : State} {domain} : KeepsAfter s (execClockStopped domain s) := by
  unfold execClockStopped
  mono

theorem execClockRestart_keepsAfter {s : State} {domain} : KeepsAfter s (execClockRestart domain s) := by
  unfold execClockRestart
  mono

theorem execAlertPulse_keepsAfter {s : State} {chan ignored} : KeepsAfter s (execAlertPulse chan ignored s) := by
  unfold execAlertPulse
  mono

theorem execThermTrip_keepsAfter {s : State} {chan} : KeepsAfter s (execThermTrip chan s) := by
  unfold execThermTrip
  mono

theorem execTickEdge_keepsAfter {s : State} {counts} : KeepsAfter s (execTickEdge counts s) := by
  unfold execTickEdge
  mono

theorem execRefreshAccrual_keepsAfter {s : State} {bank} : KeepsAfter s (execRefreshAccrual bank s) := by
  unfold execRefreshAccrual
  mono

theorem execBedEnd_keepsAfter {s : State} {bank work} : KeepsAfter s (execBedEnd bank work s) := by
  unfold execBedEnd
  mono

theorem execCourseWindowEnd_keepsAfter {s : State} : KeepsAfter s (execCourseWindowEnd s) := by
  unfold execCourseWindowEnd
  mono

theorem execReservedRefreshSlot_keepsAfter {s : State} {bank} : KeepsAfter s (execReservedRefreshSlot bank s) := by
  unfold execReservedRefreshSlot
  mono

theorem execTierRead_keepsAfter {s : State} {die t0 t1 t2 t3} : KeepsAfter s (execTierRead die t0 t1 t2 t3 s) := by
  unfold execTierRead
  mono

theorem execTierLower_keepsAfter {s : State} {die} : KeepsAfter s (execTierLower die s) := by
  unfold execTierLower
  mono

theorem execEsrExit_keepsAfter {s : State} {temps} : KeepsAfter s (execEsrExit temps s) := by
  unfold execEsrExit
  mono

theorem execPatrolTurn_keepsAfter {s : State} {bank} : KeepsAfter s (execPatrolTurn bank s) := by
  unfold execPatrolTurn
  mono

theorem execMortarPatrol_keepsAfter {s : State} : KeepsAfter s (execMortarPatrol s) := by
  unfold execMortarPatrol
  mono

theorem execPlumbWindowEnd_keepsAfter {s : State} {sixty} : KeepsAfter s (execPlumbWindowEnd sixty s) := by
  unfold execPlumbWindowEnd
  mono

theorem execAccumContrib_keepsAfter {s : State} {bank} : KeepsAfter s (execAccumContrib bank s) := by
  unfold execAccumContrib
  mono

theorem execSetClearDone_keepsAfter {s : State} : KeepsAfter s (execSetClearDone s) := by
  refine keepsAfter_next ?_
  split <;> mono

theorem execDeadlineClose_keepsAfter {s : State} : KeepsAfter s (execDeadlineClose s) := by
  unfold execDeadlineClose
  mono

theorem execSealScanDone_keepsAfter {s : State} : KeepsAfter s (execSealScanDone s) := by
  unfold execSealScanDone
  mono

theorem execUpdateStart_keepsAfter {s : State} : KeepsAfter s (execUpdateStart s) := by
  unfold execUpdateStart
  mono

theorem execFactoredPass2Start_keepsAfter {s : State} {group} : KeepsAfter s (execFactoredPass2Start group s) := by
  unfold execFactoredPass2Start
  mono

theorem execLeanUnitStart_keepsAfter {s : State} {group unit} : KeepsAfter s (execLeanUnitStart group unit s) := by
  unfold execLeanUnitStart
  mono

theorem execLeanUnitDone_keepsAfter {s : State} {group unit} : KeepsAfter s (execLeanUnitDone group unit s) := by
  unfold execLeanUnitDone
  mono

theorem execUpdateDone_keepsAfter {s : State} : KeepsAfter s (execUpdateDone s) := by
  unfold execUpdateDone
  mono

theorem execCommitDone_keepsAfter {s : State} : KeepsAfter s (execCommitDone s) := by
  refine keepsAfter_next ?_
  split <;> mono

theorem execVerdictRecorded_keepsAfter {s : State} : KeepsAfter s (execVerdictRecorded s) := by
  refine keepsAfter_next ?_
  split <;> mono

theorem execHaspDoorbell_keepsAfter {s : State} {hasp at_} : KeepsAfter s (execHaspDoorbell hasp at_ s) := by
  have ht : Keeps s (s.touch at_) := by mono
  exact keepsAfter_guard (keeps_ite (.refl s) (keeps_ite (State.doorbell_keeps ht) (.lit ht)))

theorem execGetInfo_keepsAfter {s : State} {hasp} : KeepsAfter s (execGetInfo hasp s) := by
  unfold execGetInfo
  mono
  intros
  mono

theorem execSetCompat_keepsAfter {s : State} {hasp} : KeepsAfter s (execSetCompat hasp s) := by
  unfold execSetCompat
  mono
  intros
  mono

theorem execDefineRegion_keepsAfter {s : State} {hasp} : KeepsAfter s (execDefineRegion hasp s) := by
  unfold execDefineRegion
  mono
  intros
  mono

theorem execDefineGroup_keepsAfter {s : State} {hasp} : KeepsAfter s (execDefineGroup hasp s) := by
  unfold execDefineGroup
  mono
  intros
  mono

theorem execLoadSchedule_keepsAfter {s : State} {hasp} : KeepsAfter s (execLoadSchedule hasp s) := by
  unfold execLoadSchedule
  mono
  intros
  mono

theorem execSetSeed_keepsAfter {s : State} {hasp} : KeepsAfter s (execSetSeed hasp s) := by
  unfold execSetSeed
  mono
  intros
  mono

theorem execDrawSeed_keepsAfter {s : State} {hasp} : KeepsAfter s (execDrawSeed hasp s) := by
  refine keepsAfter_guard (State.runCommand_keeps (.refl s) fun u hu => ?_)
  split <;> mono

theorem execEntropyDrawDone_keepsAfter {s : State} {bits} : KeepsAfter s (execEntropyDrawDone bits s) := by
  refine keepsAfter_next ?_
  split <;> mono

theorem execOpenStep_keepsAfter {s : State} {hasp} : KeepsAfter s (execOpenStep hasp s) := by
  unfold execOpenStep
  mono
  intros
  mono

theorem execGetStepReport_keepsAfter {s : State} {hasp} : KeepsAfter s (execGetStepReport hasp s) := by
  unfold execGetStepReport
  mono
  intros
  mono

theorem execVerdict_keepsAfter {s : State} {hasp} : KeepsAfter s (execVerdict hasp s) := by
  unfold execVerdict
  mono
  intros
  mono

theorem execCheckpointExport_keepsAfter {s : State} {hasp} : KeepsAfter s (execCheckpointExport hasp s) := by
  unfold execCheckpointExport
  mono
  intros
  mono

theorem execExportDone_keepsAfter {s : State} : KeepsAfter s (execExportDone s) := by
  unfold execExportDone
  mono

theorem execCheckpointImport_keepsAfter {s : State} {hasp} : KeepsAfter s (execCheckpointImport hasp s) := by
  unfold execCheckpointImport
  mono
  intros
  mono

theorem execPullReplica_keepsAfter {s : State} {hasp at_} : KeepsAfter s (execPullReplica hasp at_ s) := by
  unfold execPullReplica
  mono
  intros
  mono

theorem execSetBudget_keepsAfter {s : State} {hasp} : KeepsAfter s (execSetBudget hasp s) := by
  unfold execSetBudget
  mono
  intros
  mono

theorem execGetPlumb_keepsAfter {s : State} {hasp} : KeepsAfter s (execGetPlumb hasp s) := by
  unfold execGetPlumb
  mono
  intros
  mono

theorem execStartScrub_keepsAfter {s : State} {hasp} : KeepsAfter s (execStartScrub hasp s) := by
  unfold execStartScrub
  mono
  intros
  mono

theorem execScrubTurn_keepsAfter {s : State} : KeepsAfter s (execScrubTurn s) := by
  unfold execScrubTurn
  mono

theorem execScrubProgress_keepsAfter {s : State} : KeepsAfter s (execScrubProgress s) := by
  unfold execScrubProgress
  mono

theorem execRepairSoft_keepsAfter {s : State} {hasp} : KeepsAfter s (execRepairSoft hasp s) := by
  unfold execRepairSoft
  mono
  intros
  mono

theorem execRepairSoftDone_keepsAfter {s : State} : KeepsAfter s (execRepairSoftDone s) := by
  unfold execRepairSoftDone
  mono

theorem execRepairFuse_keepsAfter {s : State} {hasp} : KeepsAfter s (execRepairFuse hasp s) := by
  unfold execRepairFuse
  mono
  intros
  mono

theorem execRepairCondTimeout_keepsAfter {s : State} : KeepsAfter s (execRepairCondTimeout s) := by
  unfold execRepairCondTimeout
  mono

theorem execFprogDone_keepsAfter {s : State} {refused} : KeepsAfter s (execFprogDone refused s) := by
  unfold execFprogDone
  mono

theorem execFwStage_keepsAfter {s : State} {hasp} : KeepsAfter s (execFwStage hasp s) := by
  unfold execFwStage
  mono
  intros
  mono

theorem execFwActivate_keepsAfter {s : State} {hasp burnt startOk restoreOk envs} : KeepsAfter s (execFwActivate hasp burnt startOk restoreOk envs s) := by
  unfold execFwActivate
  mono
  intros
  mono

theorem execShutdown_keepsAfter {s : State} {hasp} : KeepsAfter s (execShutdown hasp s) := by
  unfold execShutdown
  mono
  intros
  mono

theorem execFwLoadStart_keepsAfter {s : State} : KeepsAfter s (execFwLoadStart s) := by
  unfold execFwLoadStart
  mono

theorem execFwLoadData_keepsAfter {s : State} {word} : KeepsAfter s (execFwLoadData word s) := by
  unfold execFwLoadData
  mono

theorem execFwLoadEnd_keepsAfter {s : State} {envs} : KeepsAfter s (execFwLoadEnd envs s) := by
  unfold execFwLoadEnd
  mono

theorem execRingTailWrite_keepsAfter {s : State} {bank value} : KeepsAfter s (execRingTailWrite bank value s) := by
  unfold execRingTailWrite
  mono

theorem execRingConfigWrite_keepsAfter {s : State} {bank reg value} : KeepsAfter s (execRingConfigWrite bank reg value s) := by
  unfold execRingConfigWrite
  mono

theorem execRingEnable_keepsAfter {s : State} {bank} : KeepsAfter s (execRingEnable bank s) := by
  unfold execRingEnable
  mono

theorem execRingStop_keepsAfter {s : State} {bank} : KeepsAfter s (execRingStop bank s) := by
  unfold execRingStop
  mono

theorem execRingSave_keepsAfter {s : State} {bank} : KeepsAfter s (execRingSave bank s) := by
  unfold execRingSave
  mono

theorem execRingSaveDone_keepsAfter {s : State} {bank} : KeepsAfter s (execRingSaveDone bank s) := by
  unfold execRingSaveDone
  mono

theorem execRingRestore_keepsAfter {s : State} {bank} : KeepsAfter s (execRingRestore bank s) := by
  unfold execRingRestore
  mono

theorem execRingAbort_keepsAfter {s : State} {bank} : KeepsAfter s (execRingAbort bank s) := by
  unfold execRingAbort
  mono

theorem execDescriptorStart_keepsAfter {s : State} {bank} : KeepsAfter s (execDescriptorStart bank s) := by
  unfold execDescriptorStart
  mono

theorem execDescriptorRetire_keepsAfter {s : State} {bank} : KeepsAfter s (execDescriptorRetire bank s) := by
  unfold execDescriptorRetire
  mono

theorem execLock_keepsAfter {s : State} : KeepsAfter s (execLock s) := by
  unfold execLock
  mono

theorem execErLogClear_keepsAfter {s : State} : KeepsAfter s (execErLogClear s) := by
  unfold execErLogClear
  mono

theorem execChannelAliasWrite_keepsAfter {s : State} {off value} : KeepsAfter s (execChannelAliasWrite off value s) := by
  refine keepsAfter_next ?_
  split <;> mono

theorem execRegisterWrite_keepsAfter {s : State} {off value} : KeepsAfter s (execRegisterWrite off value s) := by
  unfold execRegisterWrite
  mono

theorem execDbChallenge_keepsAfter {s : State} {request} : KeepsAfter s (execDbChallenge request s) := by
  unfold execDbChallenge
  mono

theorem execChalReady_keepsAfter {s : State} {bits} : KeepsAfter s (execChalReady bits s) := by
  unfold execChalReady
  mono

theorem execChallengeExpiry_keepsAfter {s : State} : KeepsAfter s (execChallengeExpiry s) := by
  unfold execChallengeExpiry
  mono

theorem execDbResponse_keepsAfter {s : State} {response} : KeepsAfter s (execDbResponse response s) := by
  unfold execDbResponse
  mono

theorem execLockoutEnd_keepsAfter {s : State} : KeepsAfter s (execLockoutEnd s) := by
  unfold execLockoutEnd
  mono

theorem execRelock_keepsAfter {s : State} : KeepsAfter s (execRelock s) := by
  unfold execRelock
  mono

theorem execHalt_keepsAfter {s : State} : KeepsAfter s (execHalt s) := by
  unfold execHalt
  mono

theorem execWardenHalted_keepsAfter {s : State} : KeepsAfter s (execWardenHalted s) := by
  refine keepsAfter_next ?_
  split <;> mono

theorem execResume_keepsAfter {s : State} : KeepsAfter s (execResume s) := by
  unfold execResume
  mono

theorem execStep_keepsAfter {s : State} : KeepsAfter s (execStep s) := by
  unfold execStep
  mono

theorem execDbBkpt_keepsAfter {s : State} {value} : KeepsAfter s (execDbBkpt value s) := by
  unfold execDbBkpt
  mono

theorem execDbWatch_keepsAfter {s : State} {value} : KeepsAfter s (execDbWatch value s) := by
  unfold execDbWatch
  mono

theorem execBreakpointHit_keepsAfter {s : State} {index} : KeepsAfter s (execBreakpointHit index s) := by
  unfold execBreakpointHit
  mono

theorem execWatchpointHit_keepsAfter {s : State} {index} : KeepsAfter s (execWatchpointHit index s) := by
  unfold execWatchpointHit
  mono

theorem execDbAddr_keepsAfter {s : State} {value} : KeepsAfter s (execDbAddr value s) := by
  unfold execDbAddr
  mono

theorem execDbData_keepsAfter {s : State} {value} : KeepsAfter s (execDbData value s) := by
  unfold execDbData
  mono

theorem execDbAccessDone_keepsAfter {s : State} : KeepsAfter s (execDbAccessDone s) := by
  unfold execDbAccessDone
  mono

theorem execDbRepair_keepsAfter {s : State} {value} : KeepsAfter s (execDbRepair value s) := by
  unfold execDbRepair
  mono

theorem execControlPortWrite_keepsAfter {s : State} {off value} : KeepsAfter s (execControlPortWrite off value s) := by
  unfold execControlPortWrite
  mono

theorem execImportDone_keepsAfter {s : State} : KeepsAfter s (execImportDone s) := by
  unfold execImportDone
  mono

theorem execVddSLoss_keepsAfter {s : State} : KeepsAfter s (execVddSLoss s) := by
  unfold execVddSLoss
  mono

theorem execVddCRemoval_keepsAfter {s : State} : KeepsAfter s (execVddCRemoval s) := by
  unfold execVddCRemoval
  mono

/-- Every command but the end of a verification keeps the queue, the canonical form, the bounds, the fuses and the session. -/
theorem exec_keepsAfter {s : State} : {c : Instr} → c ≠ .unlockVerifyDone → KeepsAfter s (exec c s)
  | .read .., _ => execRead_keepsAfter
  | .write .., _ => execWrite_keepsAfter
  | .fadd64 .., _ => execFadd64_keepsAfter
  | .fadd64Acquire .., _ => execFadd64Acquire_keepsAfter
  | .cas64 .., _ => execCas64_keepsAfter
  | .pintleReservedOp .., _ => execPintleReservedOp_keepsAfter
  | .pintleResponse .., _ => execPintleResponse_keepsAfter
  | .upLinkCredit .., _ => execUpLinkCredit_keepsAfter
  | .rdReq .., _ => execRdReq_keepsAfter
  | .wrLine .., _ => execWrLine_keepsAfter
  | .sealWr .., _ => execSealWr_keepsAfter
  | .sealRelease .., _ => execSealRelease_keepsAfter
  | .fadd .., _ => execFadd_keepsAfter
  | .cas .., _ => execCas_keepsAfter
  | .heldRelease .., _ => execHeldRelease_keepsAfter
  | .faddAcquire .., _ => execFaddAcquire_keepsAfter
  | .fabricReservedType _ _ _ _ off, _ => execFabricReservedType_keepsAfter (off := off)
  | .rdResp .., _ => execRdResp_keepsAfter
  | .errResp _ stat _, _ => execErrResp_keepsAfter (stat := stat)
  | .remoteTimeout .., _ => execRemoteTimeout_keepsAfter
  | .acquireDone .., _ => execAcquireDone_keepsAfter
  | .acquireTimeout .., _ => execAcquireTimeout_keepsAfter
  | .captureRead .., _ => execCaptureRead_keepsAfter
  | .pwrCapLvlChange .., _ => execPwrCapLvlChange_keepsAfter
  | .senseSample .., _ => execSenseSample_keepsAfter
  | .sagAccept .., _ => execSagAccept_keepsAfter
  | .dboltDone, _ => execDboltDone_keepsAfter
  | .sagClearStart .., _ => execSagClearStart_keepsAfter
  | .cyRstNAssert, _ => execCyRstNAssert_keepsAfter
  | .cyRstNDeassert .., _ => execCyRstNDeassert_keepsAfter
  | .startThermalWait .., _ => execStartThermalWait_keepsAfter
  | .fwWaitExpiry .., _ => execFwWaitExpiry_keepsAfter
  | .startComplete .., _ => execStartComplete_keepsAfter
  | .fclkRecheck .., _ => execFclkRecheck_keepsAfter
  | .aclkHoldRise, _ => execAclkHoldRise_keepsAfter
  | .aclkIdle, _ => execAclkIdle_keepsAfter
  | .aclkHoldFall .., _ => execAclkHoldFall_keepsAfter
  | .trstN, _ => execTrstN_keepsAfter
  | .clockStopped .., _ => execClockStopped_keepsAfter
  | .clockRestart .., _ => execClockRestart_keepsAfter
  | .alertPulse .., _ => execAlertPulse_keepsAfter
  | .thermTrip .., _ => execThermTrip_keepsAfter
  | .tickEdge .., _ => execTickEdge_keepsAfter
  | .refreshAccrual .., _ => execRefreshAccrual_keepsAfter
  | .bedEnd .., _ => execBedEnd_keepsAfter
  | .courseWindowEnd, _ => execCourseWindowEnd_keepsAfter
  | .reservedRefreshSlot .., _ => execReservedRefreshSlot_keepsAfter
  | .tierRead .., _ => execTierRead_keepsAfter
  | .tierLower .., _ => execTierLower_keepsAfter
  | .esrExit .., _ => execEsrExit_keepsAfter
  | .patrolTurn .., _ => execPatrolTurn_keepsAfter
  | .mortarPatrol, _ => execMortarPatrol_keepsAfter
  | .plumbWindowEnd .., _ => execPlumbWindowEnd_keepsAfter
  | .accumContrib .., _ => execAccumContrib_keepsAfter
  | .setClearDone, _ => execSetClearDone_keepsAfter
  | .deadlineClose, _ => execDeadlineClose_keepsAfter
  | .sealScanDone, _ => execSealScanDone_keepsAfter
  | .updateStart, _ => execUpdateStart_keepsAfter
  | .factoredPass2Start .., _ => execFactoredPass2Start_keepsAfter
  | .leanUnitStart .., _ => execLeanUnitStart_keepsAfter
  | .leanUnitDone .., _ => execLeanUnitDone_keepsAfter
  | .updateDone, _ => execUpdateDone_keepsAfter
  | .commitDone, _ => execCommitDone_keepsAfter
  | .verdictRecorded, _ => execVerdictRecorded_keepsAfter
  | .haspDoorbell .., _ => execHaspDoorbell_keepsAfter
  | .getInfo .., _ => execGetInfo_keepsAfter
  | .setCompat .., _ => execSetCompat_keepsAfter
  | .defineRegion .., _ => execDefineRegion_keepsAfter
  | .defineGroup .., _ => execDefineGroup_keepsAfter
  | .loadSchedule .., _ => execLoadSchedule_keepsAfter
  | .setSeed .., _ => execSetSeed_keepsAfter
  | .drawSeed .., _ => execDrawSeed_keepsAfter
  | .entropyDrawDone .., _ => execEntropyDrawDone_keepsAfter
  | .openStep .., _ => execOpenStep_keepsAfter
  | .getStepReport .., _ => execGetStepReport_keepsAfter
  | .verdict .., _ => execVerdict_keepsAfter
  | .checkpointExport .., _ => execCheckpointExport_keepsAfter
  | .exportDone, _ => execExportDone_keepsAfter
  | .checkpointImport .., _ => execCheckpointImport_keepsAfter
  | .pullReplica .., _ => execPullReplica_keepsAfter
  | .setBudget .., _ => execSetBudget_keepsAfter
  | .getPlumb .., _ => execGetPlumb_keepsAfter
  | .startScrub .., _ => execStartScrub_keepsAfter
  | .scrubTurn, _ => execScrubTurn_keepsAfter
  | .scrubProgress, _ => execScrubProgress_keepsAfter
  | .repairSoft .., _ => execRepairSoft_keepsAfter
  | .repairSoftDone, _ => execRepairSoftDone_keepsAfter
  | .repairFuse .., _ => execRepairFuse_keepsAfter
  | .repairCondTimeout, _ => execRepairCondTimeout_keepsAfter
  | .fprogDone .., _ => execFprogDone_keepsAfter
  | .fwStage .., _ => execFwStage_keepsAfter
  | .fwActivate .., _ => execFwActivate_keepsAfter
  | .shutdown .., _ => execShutdown_keepsAfter
  | .fwLoadStart, _ => execFwLoadStart_keepsAfter
  | .fwLoadData .., _ => execFwLoadData_keepsAfter
  | .fwLoadEnd .., _ => execFwLoadEnd_keepsAfter
  | .ringTailWrite .., _ => execRingTailWrite_keepsAfter
  | .ringConfigWrite .., _ => execRingConfigWrite_keepsAfter
  | .ringEnable .., _ => execRingEnable_keepsAfter
  | .ringStop .., _ => execRingStop_keepsAfter
  | .ringSave .., _ => execRingSave_keepsAfter
  | .ringSaveDone .., _ => execRingSaveDone_keepsAfter
  | .ringRestore .., _ => execRingRestore_keepsAfter
  | .ringAbort .., _ => execRingAbort_keepsAfter
  | .descriptorStart .., _ => execDescriptorStart_keepsAfter
  | .descriptorRetire .., _ => execDescriptorRetire_keepsAfter
  | .lock, _ => execLock_keepsAfter
  | .erLogClear, _ => execErLogClear_keepsAfter
  | .channelAliasWrite .., _ => execChannelAliasWrite_keepsAfter
  | .registerWrite .., _ => execRegisterWrite_keepsAfter
  | .dbChallenge .., _ => execDbChallenge_keepsAfter
  | .chalReady .., _ => execChalReady_keepsAfter
  | .challengeExpiry, _ => execChallengeExpiry_keepsAfter
  | .dbResponse .., _ => execDbResponse_keepsAfter
  | .unlockVerifyDone, hc => absurd rfl hc
  | .lockoutEnd, _ => execLockoutEnd_keepsAfter
  | .relock, _ => execRelock_keepsAfter
  | .halt, _ => execHalt_keepsAfter
  | .wardenHalted, _ => execWardenHalted_keepsAfter
  | .resume, _ => execResume_keepsAfter
  | .step, _ => execStep_keepsAfter
  | .dbBkpt .., _ => execDbBkpt_keepsAfter
  | .dbWatch .., _ => execDbWatch_keepsAfter
  | .breakpointHit .., _ => execBreakpointHit_keepsAfter
  | .watchpointHit .., _ => execWatchpointHit_keepsAfter
  | .dbAddr .., _ => execDbAddr_keepsAfter
  | .dbData .., _ => execDbData_keepsAfter
  | .dbAccessDone, _ => execDbAccessDone_keepsAfter
  | .dbRepair .., _ => execDbRepair_keepsAfter
  | .controlPortWrite .., _ => execControlPortWrite_keepsAfter
  | .importDone, _ => execImportDone_keepsAfter
  | .vddSLoss, _ => execVddSLoss_keepsAfter
  | .vddCRemoval, _ => execVddCRemoval_keepsAfter

/-- A step runs the command at the front of the queue, or there is none. -/
theorem step_eq_next {s t : State} (h : step s = .next t) :
    t = s ∨ ∃ c rest, s.pending = c :: rest ∧ exec c { s with pending := rest } = .next t := by
  unfold step at h
  split at h
  · exact .inl (by cases h; rfl)
  · next c rest hp => exact .inr ⟨c, rest, hp, h⟩

end Sys2Proof.Machine
end

section
/-!
PROOF. What every step keeps (O2, O4 to O7), from what every command keeps.
-/

namespace Sys2Proof.Machine

/-! ### The end of a verification (R539, R543) -/

/-- A response that is not refused finds a challenge, and neither NO_UNLOCK, FAILED nor a lockout (R539, R543). -/
theorem State.of_responseRefused_eq_false {s : State} {r : BitVec 1568} (h : s.responseRefused r = false) :
    s.dbg.chalReady = true ∧ s.regs.noUnlock = false ∧ s.dbg.refused = false ∧ s.lockedOut = false := by
  simp only [State.responseRefused, Bool.or_eq_false_iff, Bool.not_eq_false'] at h
  obtain ⟨⟨⟨⟨⟨hchal, -⟩, hno⟩, hrefused⟩, hlocked⟩, -⟩ := h
  exact ⟨hchal, hno, hrefused, hlocked⟩

theorem State.verified_session {s : State} (h : s.verified.dbg.sessionOn = true) :
    (s.dbg.sessionOn = true ∧ s.verified.dbg.scope = s.dbg.scope) ∨
    ∃ r, s.dbg.busy = .verify r ∧ s.responseRefused r = false ∧ s.unlockOk r = true ∧
      s.verified.dbg.scope = BitVec.ofNat 4 (bits r.toNat 3 0) := by
  generalize ht : s.verified = t at h ⊢
  unfold State.verified at ht
  split at ht
  · next r hbusy =>
    split at hbusy
    · contradiction
    · dsimp only at ht
      split at ht
      · subst ht
        exact .inl ⟨h, rfl⟩
      · next hrefused =>
        split at ht
        · next hok =>
          subst ht
          exact .inr ⟨r, hbusy, Bool.not_eq_true _ ▸ hrefused, hok, rfl⟩
        · subst ht
          exact .inl ⟨h, rfl⟩
  · subst ht
    exact .inl ⟨h, rfl⟩

/-! ### Commands and steps -/

/-- Every command keeps everything that no debug register shows. -/
theorem exec_keepsButDbg {s t : State} {c : Instr} (h : exec c s = .next t) : ∃ d, Keeps s { t with dbg := d } := by
  by_cases hc : c = .unlockVerifyDone
  · subst hc
    cases h
    exact ⟨_, s.verified_keepsButDbg⟩
  · exact ⟨t.dbg, exec_keepsAfter hc t h⟩

theorem exec_pending {s t : State} {c : Instr} (h : exec c s = .next t) : t.pending = s.pending := by
  obtain ⟨d, hd⟩ := exec_keepsButDbg h
  exact hd.pending

/-- A step keeps everything that no debug register shows of the state behind its command. -/
theorem step_keepsButDbg {s t : State} (h : step s = .next t) : ∃ rest d, Keeps { s with pending := rest } { t with dbg := d } := by
  obtain rfl | ⟨c, rest, -, hc⟩ := step_eq_next h
  · exact ⟨t.pending, t.dbg, .refl t⟩
  · exact ⟨rest, exec_keepsButDbg hc⟩

theorem step_session {s t : State} (h : step s = .next t) (hon : t.dbg.sessionOn = true) :
    (s.dbg.sessionOn = true ∧ t.dbg.scope = s.dbg.scope) ∨
    ∃ rest, s.pending = .unlockVerifyDone :: rest ∧ t = ({ s with pending := rest } : State).verified := by
  obtain rfl | ⟨c, rest, hp, hc⟩ := step_eq_next h
  · exact .inl ⟨hon, rfl⟩
  · by_cases hv : c = .unlockVerifyDone
    · subst hv
      cases hc
      exact .inr ⟨rest, hp, rfl⟩
    · exact .inl ((exec_keepsAfter hv t hc).session hon)

end Sys2Proof.Machine

open Sys2Proof Sys2Proof.Machine

/-- Settles O2: every command keeps the queue, the idle step and the opcode table by their definitions. -/
theorem waitingCommandsWaitInOrder : Obligations.WaitingCommandsWaitInOrder := by
  refine ⟨fun s hs => ?_, fun s nbits w => ⟨rfl, rfl⟩, fun c s t h => exec_pending h⟩
  rw [step, hs]

/-- Settles O4: every operation keeps the canonical form. -/
theorem everyStepKeepsCanonicalMemory : Obligations.EveryStepKeepsCanonicalMemory := by
  intro s t hs h
  obtain ⟨rest, d, hk⟩ := step_keepsButDbg h
  exact hk.memWf hs

/-- Settles O5: every operation keeps the bounds. -/
theorem everyStepKeepsTheBounds : Obligations.EveryStepKeepsTheBounds := by
  intro s t hs h
  obtain ⟨rest, d, hk⟩ := step_keepsButDbg h
  exact hk.bounded hs

/-- Settles O6: every operation keeps the fuses or programs more of them, and no command but CY_RST_N_DEASSERT clears LOCK. -/
theorem lockAndFusesNeverFallBack : Obligations.LockAndFusesNeverFallBack := by
  intro s t h
  obtain ⟨rest, d, hk⟩ := step_keepsButDbg h
  refine ⟨hk.fuses, fun hlock hnot => ?_⟩
  obtain rfl | ⟨c, rest, hp, hc⟩ := step_eq_next h
  · exact hlock
  · exact exec_locksAfter (s := { s with pending := rest }) hlock (fun envs he => hnot envs rest (he ▸ hp)) t hc

/-- Settles O7: the end of a verification opens a session on its conditions, and no other operation does. -/
theorem onlyAVerifiedResponseOpensASession : Obligations.OnlyAVerifiedResponseOpensASession := by
  intro s t h hon
  obtain hkept | ⟨rest, hp, rfl⟩ := step_session h hon
  · exact .inl hkept
  · obtain hkept | ⟨r, hbusy, hrefused, hok, hscope⟩ := State.verified_session hon
    · exact .inl hkept
    · obtain ⟨hchal, hno, hdbg, hlocked⟩ := State.of_responseRefused_eq_false hrefused
      exact .inr ⟨rest, r, hp, hbusy, hok, hchal, hno, hdbg, hlocked, hscope⟩

end

section
/-!
PROOF. Commands and reset (O1, O3, O8, O14): what a step runs, which commands have an effect, the state after power-up, and reserved Pintle
operations.
-/

namespace Sys2Proof.Machine

/-! ### Commands that have an effect (R19, R40) -/

/-- A command has its effect, where the units that it names exist (R19, R40); a well-formed command names no others. -/
theorem exec_eq_guard (c : Instr) (s : State) : ∃ ok t, exec c s = guard ok t ∧ (c.wf = true → ok = true) := by
  cases c
  case read | write | fadd64 | fadd64Acquire | cas64 | pintleResponse | upLinkCredit | clockStopped | clockRestart | alertPulse |
      thermTrip | refreshAccrual | bedEnd | reservedRefreshSlot | tierRead | tierLower | patrolTurn | accumContrib | haspDoorbell |
      getInfo | setCompat | defineRegion | defineGroup | loadSchedule | setSeed | drawSeed | openStep | getStepReport | verdict |
      checkpointExport | checkpointImport | pullReplica | setBudget | getPlumb | startScrub | repairSoft | repairFuse | fwStage |
      shutdown | ringTailWrite | ringEnable | ringStop | ringSave | ringSaveDone | ringRestore | ringAbort | descriptorStart |
      descriptorRetire | breakpointHit | watchpointHit =>
    exact ⟨_, _, rfl, id⟩
  case pintleReservedOp | fwActivate | ringConfigWrite =>
    exact ⟨_, _, rfl, fun h => (Bool.and_eq_true_iff.1 h).1⟩
  case rdReq | wrLine | sealWr | sealRelease | fadd | cas | heldRelease | faddAcquire | fabricReservedType | rdResp | errResp |
      remoteTimeout | acquireDone | acquireTimeout | captureRead | pwrCapLvlChange | senseSample | sagAccept | dboltDone | sagClearStart |
      cyRstNAssert | cyRstNDeassert | startThermalWait | fwWaitExpiry | startComplete | fclkRecheck | aclkHoldRise | aclkIdle |
      aclkHoldFall | trstN | tickEdge | courseWindowEnd | esrExit | mortarPatrol | plumbWindowEnd | setClearDone | deadlineClose |
      sealScanDone | updateStart | factoredPass2Start | leanUnitStart | leanUnitDone | updateDone | commitDone | verdictRecorded |
      entropyDrawDone | exportDone | scrubTurn | scrubProgress | repairSoftDone | repairCondTimeout | fprogDone | fwLoadStart |
      fwLoadData | fwLoadEnd | lock | erLogClear | channelAliasWrite | registerWrite | dbChallenge | chalReady | challengeExpiry |
      dbResponse | unlockVerifyDone | lockoutEnd | relock | halt | wardenHalted | resume | step | dbBkpt | dbWatch | dbAddr | dbData |
      dbAccessDone | dbRepair | controlPortWrite | importDone | vddSLoss | vddCRemoval =>
    exact ⟨true, _, rfl, fun _ => rfl⟩

theorem guard_eq_fault_or_goes {c : Instr} {s t : State} {ok : Bool} (h : exec c s = guard ok t) :
    exec c s = .fault .noSuchUnit ∨ Goes c s := by
  cases ok
  · exact .inl h
  · exact .inr ⟨t, h⟩

theorem goes_of_wf {c : Instr} (s : State) (h : c.wf = true) : Goes c s := by
  obtain ⟨ok, t, he, hok⟩ := exec_eq_guard c s
  rw [hok h] at he
  exact ⟨t, he⟩

/-! ### Reserved Pintle operations (R53) -/

/-- Operations 4 to 7 have bit 2 set. -/
theorem getLsbD_two_of_four_le {op : BitVec 3} (h : 4 ≤ op.toNat) : op.getLsbD 2 = true := by
  have := op.isLt
  rw [BitVec.getLsbD, Nat.testBit_eq_decide_div_mod_eq, decide_eq_true_eq]
  omega

theorem State.reqStatus_reserved (s : State) {r : PintleReq} (h : 4 ≤ r.op.toNat) : s.reqStatus r = some ptBadOp := if_pos h

/-- A request that the accepting state refuses is performed by its answer. -/
theorem State.pintlePerform_of_reqStatus {s : State} {r : PintleReq} {st : BitVec 3} (h : s.reqStatus r = some st) :
    s.pintlePerform r = s.upPush r.port (plainFlit r st) := by
  rw [State.pintlePerform, h]
  rfl

end Sys2Proof.Machine

open Sys2Proof Sys2Proof.Machine

/-- Settles O1: by the definition of a step. -/
theorem stepRunsFrontCommand : Obligations.StepRunsFrontCommand := fun _ _ _ => rfl

/-- Settles O3: a command has its effect, or names a unit that Crety does not have. -/
theorem wellFormedCommandsAreSafe : Obligations.WellFormedCommandsAreSafe := by
  refine ⟨fun c h s => goes_of_wf s h, fun c s => ?_⟩
  obtain ⟨ok, t, he, -⟩ := exec_eq_guard c s
  exact guard_eq_fault_or_goes he

/-- Settles O8: the registers and the tables of the reset state are read by its definition. -/
theorem resetHasTheResetColumnsAndInvariants : Obligations.ResetHasTheResetColumnsAndInvariants := by
  refine ⟨⟨rfl, rfl, rfl, rfl, rfl, rfl, rfl, rfl, rfl, rfl, rfl, rfl, rfl, rfl, rfl, rfl, rfl, rfl, rfl, rfl, rfl, ?_⟩, rfl, ?_⟩
  · exact ⟨fun _ => ⟨rfl, rfl, rfl⟩, fun _ => rfl, fun _ => ⟨rfl, rfl⟩, rfl, rfl, fun _ => rfl, fun _ => rfl, fun _ => rfl⟩
  · exact ⟨by decide, by decide, by decide, fun _ => Nat.zero_le 8, fun _ => Nat.zero_le 2, fun _ => Nat.zero_le 2⟩

/-- Settles O14: a reserved operation that its port takes is refused before any other check. -/
theorem pintleReservedOpsAreBad : Obligations.PintleReservedOpsAreBad := by
  intro s port op ctl addr tag hready hop hctl
  have hperform := State.pintlePerform_of_reqStatus (s := s.accepted (bareReq port op ctl addr tag))
    (r := s.numbered (bareReq port op ctl addr tag)) (State.reqStatus_reserved _ hop)
  have hkind : (op == 0) = false := by
    rw [beq_eq_false_iff_ne]
    rintro rfl
    exact absurd hop (by decide)
  refine ⟨_, guard_eq_next.2 ⟨decide_eq_true hready.1, ?_⟩, State.answered_accepted_upPush s (bareReq port op ctl addr tag) _,
    State.accepted_upPush_frame s (bareReq port op ctl addr tag) _⟩
  rw [if_pos (getLsbD_two_of_four_le hop), State.pintleTake_of_performs (r := bareReq port op ctl addr tag) hready hctl hperform]
  simp only [plainFlit, State.numbered, bareReq, hkind]
  rfl

end

section
/-!
PROOF. The up link (O15): the oldest response leaves on a credit and frees its tag, and a credit returns (R42, R48, R51).
-/

namespace Sys2Proof.Machine

/-- Returning credits sets at most the credits of its port. -/
theorem State.port_settle_self (s : State) (n : Nat) : (s.settle n).port n = { s.port n with dnCred := ((s.settle n).port n).dnCred } := by
  obtain h | h := State.settle_cases s n
  · rw [h]
  · rw [h, State.port_setPort, if_pos rfl]

/-- The port once its oldest response has been sent. -/
def PintlePort.send (p : PintlePort) (f : UpFlit) (rest : List UpFlit) : PintlePort :=
  if f.dup then { p with upQ := rest, sent := some f, upCred := p.upCred - 1 }
  else { p with sent := some f, upCred := p.upCred - 1, busy := p.busy.filter (· != f.tag),
                dups := p.dups.filter (fun r => r.tag != f.tag), upQ := rest ++ (p.dups.filter (fun r => r.tag == f.tag)).map dupFlit }

theorem State.pintleSend_of_cons {s : State} {port : Nat} {f : UpFlit} {rest : List UpFlit} (hlinks : s.linksRun = true)
    (hcred : 0 < (s.port port).upCred) (hq : (s.port port).upQ = f :: rest) :
    s.pintleSend port = (s.countPt.setPort port ((s.port port).send f rest)).settle port := by
  have hgo : ¬(!s.linksRun || (s.port port).upCred == 0) = true := by
    simp [hlinks]
    omega
  unfold State.pintleSend
  simp only [hq, if_neg hgo, PintlePort.send]

@[simp] theorem PintlePort.sent_send (p : PintlePort) (f rest) : (p.send f rest).sent = some f := by
  unfold PintlePort.send
  split <;> rfl

@[simp] theorem PintlePort.upCred_send (p : PintlePort) (f rest) : (p.send f rest).upCred = p.upCred - 1 := by
  unfold PintlePort.send
  split <;> rfl

/-- A response of a held duplicate leaves the tags as they are. -/
theorem PintlePort.send_dup (p : PintlePort) {f : UpFlit} (rest : List UpFlit) (h : f.dup = true) :
    (p.send f rest).upQ = rest ∧ (p.send f rest).busy = p.busy := by
  rw [PintlePort.send, if_pos h]
  exact ⟨rfl, rfl⟩

/-- A response of a request frees its tag, and the held duplicates of the tag are answered after what waits. -/
theorem PintlePort.send_request (p : PintlePort) {f : UpFlit} (rest : List UpFlit) (h : f.dup = false) :
    f.tag ∉ (p.send f rest).busy ∧ (∀ x ∈ (p.send f rest).dups, x.tag ≠ f.tag) ∧
    (p.send f rest).upQ = rest ++ (p.dups.filter (fun r => r.tag == f.tag)).map dupFlit := by
  rw [PintlePort.send, if_neg (by simp [h])]
  exact ⟨by simp, by simp, rfl⟩

end Sys2Proof.Machine

open Sys2Proof Sys2Proof.Machine

/-- Settles O15: the port after a response is sent, and after a credit returns. -/
theorem upLinkSendsOnCredits : Obligations.UpLinkSendsOnCredits := by
  refine ⟨fun s port f rest hport hlinks hcred hq => ?_, fun s port hport hlinks => ?_⟩
  · have hsend := State.pintleSend_of_cons hlinks hcred hq
    have hp : (s.pintleSend port).port port =
        { (s.port port).send f rest with dnCred := ((s.pintleSend port).port port).dnCred } := by
      rw [hsend]
      exact (State.port_settle_self _ port).trans (by rw [State.port_setPort, if_pos rfl])
    have hne (q : Nat) (h : q ≠ port) : (s.pintleSend port).port q = s.port q := by
      rw [hsend, State.port_settle_ne _ h, State.port_setPort, if_neg h]
      rfl
    refine ⟨_, guard_eq_next.2 ⟨decide_eq_true hport, rfl⟩, ?_, ?_, fun hdup => ?_, fun hdup => ?_, hne, ?_⟩
    · rw [hp, PintlePort.sent_send]
    · rw [hp, PintlePort.upCred_send]
    · rw [hp]
      exact PintlePort.send_dup _ rest hdup
    · rw [hp]
      exact PintlePort.send_request _ rest hdup
    · rw [hsend]
      exact State.settle_frame _ port
  · refine ⟨_, guard_eq_next.2 ⟨decide_eq_true hport, rfl⟩, ?_⟩
    rw [if_pos hlinks]
    refine ⟨?_, ?_, fun q hq => ?_, rfl⟩
    · rw [State.port_setPort, if_pos rfl]
    · rw [State.port_setPort, if_pos rfl]
    · rw [State.port_setPort, if_neg hq]

end

section
/-!
PROOF. Refusals of the fabric port (O16): outsiders, reserved types, and responses that nothing asked for (R61, R62, R73).
-/

namespace Sys2Proof.Machine

/-! ### Beats that the fabric port takes (R62, R571) -/

/-- A request of a node that is no member is answered NOT_WARD, and its body has no effect. -/
theorem State.fabricTake_outsider {s : State} {src : BitVec 14} (ho : s.fabOpen = true) (hm : s.member src = false) (beats : Nat)
    (tag : BitVec 10) (body : State → State) : s.fabricTake beats src tag body = (s.countFab beats).errResp src tag 3 := by
  simp [State.fabricTake, ho, hm, fbNotWard]

/-- A member's request that the port takes now has the effect of its body. -/
theorem State.fabricTake_of_ready {s : State} {src : BitVec 14} (h : s.fabReady src) (beats : Nat) (tag : BitVec 10)
    (body : State → State) : s.fabricTake beats src tag body = (body (s.countFab beats)).bump := by
  obtain ⟨ho, hm, hs⟩ := h
  simp [State.fabricTake, ho, hm, hs]

/-- An event of a crossing while CCLK runs (R555). -/
theorem State.cross_of_runs {s : State} (h : s.runs 2 = true) (c : Nat) (event : State → State) : s.cross c event = event s := if_pos h

/-- An event that a crossing has room for while CCLK is stopped (R555). -/
theorem State.cross_of_waits {s : State} {c : Nat} (h : s.runs 2 = false) (hn : Sparse.get 0 s.crossing c < 16) (event : State → State) :
    s.cross c event = event { s with crossing := Sparse.set 0 s.crossing c (Sparse.get 0 s.crossing c + 1) } := by
  rw [State.cross, if_neg (by simp [h]), if_pos hn]

theorem State.countLate_of_runs {s : State} (h : s.runs 2 = true) :
    s.countLate = { s with regs := { s.regs with lateResp := satAdd s.regs.lateResp 1 } } := State.cross_of_runs h _ _

theorem State.countLate_of_waits {s : State} (h : s.runs 2 = false) (hn : Sparse.get 0 s.crossing sourceFab < 16) :
    s.countLate = { s with crossing := Sparse.set 0 s.crossing sourceFab (Sparse.get 0 s.crossing sourceFab + 1),
                           regs := { s.regs with lateResp := satAdd s.regs.lateResp 1 } } := State.cross_of_waits h hn _

/-! ### Reserved types (R61) -/

/-- A beat of a reserved type on virtual channel 0 is refused by its sender. -/
theorem State.fabReserved_request {s : State} {type : BitVec 4} (ho : s.fabOpen = true) (ht : 5 ≤ type.toNat) (src : BitVec 14)
    (tag : BitVec 10) : s.fabReserved src false type tag =
      if s.member src = true then (s.countFab (fabBeats type)).errResp src tag 2 else (s.countFab (fabBeats type)).errResp src tag 3 := by
  have hlow : ¬type.toNat < 5 := by omega
  cases hm : s.member src <;> simp [State.fabReserved, ho, hlow, hm, fbNotWard, fbBadOp]

/-- An ATOM_RESP or a SEAL_ACK is counted. -/
theorem State.fabReserved_response {s : State} {type : BitVec 4} (hr : s.fabRuns = true) (ht : type = 9 ∨ type = 10) (src : BitVec 14)
    (tag : BitVec 10) : s.fabReserved src true type tag = (s.countFab (fabBeats type)).countLate := by
  obtain rfl | rfl := ht <;> simp [State.fabReserved, hr]

end Sys2Proof.Machine

open Sys2Proof Sys2Proof.Machine

/-- Settles O16: a refusal comes before the body of a request, and a response that nothing asked for is counted. -/
theorem outsidersAndReservedTypesAreRefused : Obligations.OutsidersAndReservedTypesAreRefused := by
  refine ⟨fun s src tag off line lchk data chk at_ ho hm => ?_, fun s src type tag off => ?_⟩
  · have refused (u : State) (ho : u.fabOpen = true) (hm : u.member src = false) (beats : Nat) (body : State → State) :=
      congrArg (Host.Outcome.next (φ := Fault) (ρ := Refusal)) (State.fabricTake_outsider ho hm beats tag body)
    refine ⟨fun c hc => ?_, fun c hc => ?_, refused (s.touch at_) ho hm 1 _⟩
    · simp only [List.mem_cons, List.not_mem_nil, or_false] at hc
      obtain rfl | rfl | rfl := hc <;> exact refused s ho hm 1 _
    · simp only [List.mem_cons, List.not_mem_nil, or_false] at hc
      obtain rfl | rfl := hc <;> exact refused (s.touch at_) ho hm 2 _
  · refine ⟨fun ho hm ht => ?_, fun ho hm ht => ?_, fun hr ht => ⟨?_, fun h => ?_, fun h hn => ?_⟩⟩
    · exact congrArg Host.Outcome.next ((State.fabReserved_request ho ht src tag).trans (if_pos hm))
    · exact congrArg Host.Outcome.next ((State.fabReserved_request ho ht src tag).trans (if_neg (by simp [hm])))
    · exact congrArg Host.Outcome.next (State.fabReserved_response hr ht src tag)
    · exact State.countLate_of_runs h
    · exact State.countLate_of_waits h hn

end

section
/-!
PROOF. Held acquires (O23) and the control port's captures (O24).
-/

namespace Sys2Proof.Machine

/-! ### Held acquires that end (R410, R411) -/

theorem removeAt_eq_eraseIdx {α : Type} (l : List α) (i : Nat) : removeAt l i = l.eraseIdx i := by
  induction l generalizing i with
  | nil => rfl
  | cons a r ih =>
    cases i with
    | zero => rfl
    | succ i => exact congrArg (a :: ·) (ih i)

variable {s : State} {i : Nat} {h : HeldAcquire} {m : Matched}

theorem State.acquireDone_of_matched (hi : s.acq[i]? = some h) (hm : h.matched = some m) :
    s.acquireDone i =
      if s.drained m then (({ s with acq := s.acq.eraseIdx i } : State).acqOkay h.who m.word).drainPorts else s := by
  simp only [State.acquireDone, hi, hm, removeAt_eq_eraseIdx]

theorem State.acquireTimeout_of_unmatched (hi : s.acq[i]? = some h) (hm : h.matched = none) (ht : h.until_ ≤ s.now) :
    s.acquireTimeout i =
      (({ s with acq := s.acq.eraseIdx i, regs := { s.regs with ltTmo := satAdd s.regs.ltTmo 1 } } : State).acqOkay h.who
        (s.latch h.latch)).drainPorts := by
  simp only [State.acquireTimeout, hi, hm, ht, removeAt_eq_eraseIdx, Option.isNone_none, and_self, ↓reduceIte]
  rfl

/-! ### Reads of the control port (R76, R77, R521) -/

/-- The state after a read of the control port that answers this value and leaves this in the capture register. -/
def State.ctAnswered (s : State) (v : BitVec 32) (c : Option Capture) : State :=
  { s with ct := { capture := c, last := some { rdata := v, err := false } } }

theorem exec_captureRead {off : BitVec 27} {s t : State} (h : s.ctOpen = true) (ht : s.ctRead off.toNat = t) :
    exec (.captureRead off) s = .next t :=
  congrArg Host.Outcome.next ((if_pos h).trans ht)

theorem toNat_ctOffset {off : Nat} (h : off < 2 ^ 27) : (BitVec.ofNat 27 off).toNat = off := Nat.mod_eq_of_lt h

theorem State.ctRead_of_ctWord {s t : State} {off : Nat} {v : BitVec 32} (ha : off % 4 = 0)
    (hr : s.ctRefused (ctlTarget off) false = false) (hw : s.ctWord off = (v, t)) :
    s.ctRead off = t.ctAnswered v t.ct.capture := by
  have hoff : off / 4 * 4 = off := by omega
  simp [State.ctRead, hoff, hr, hw, State.ctAnswered]

/-! ### Global registers -/

theorem ctlTarget_global {off : Nat} (h : off < 0x10000) : ctlTarget off = .global off := if_pos h

theorem State.ctRefused_global {s : State} (h : s.ctOpen = true) (o : Nat) : s.ctRefused (.global o) false = false := by
  have hm : (s.start.mode != .reset) = true := by
    simp only [State.ctOpen, Bool.and_eq_true] at h
    exact h.1.1.2
  simp only [State.ctRefused, State.serves, hm, Bool.not_true, Bool.or_self]

/-- The 64-bit value of the register whose low half stands at this offset. -/
def State.wholeRegister (s : State) (off : Nat) : BitVec 64 :=
  BitVec.ofNat 64 ((s.readGlobal off).toNat + 2 ^ 32 * (s.readGlobal (off + 4)).toNat)

/-- The captured value's upper word is the high half. -/
theorem State.upper_wholeRegister (s : State) (off : Nat) :
    BitVec.ofNat 32 ((s.wholeRegister off).toNat / 2 ^ 32) = s.readGlobal (off + 4) := by
  have hlo := (s.readGlobal off).isLt
  have hhi := (s.readGlobal (off + 4)).isLt
  apply BitVec.eq_of_toNat_eq
  simp only [State.wholeRegister, BitVec.toNat_ofNat]
  omega

variable {u : State} {off low : Nat} {v : BitVec 64} {p : Option Nat} {last : Option CtResp}

theorem State.ctRead_lowHalf (hs : s.ctOpen = true) (hoff : off ∈ [0x0000, 0x0010, 0x0020, 0x4010]) :
    s.ctRead off = s.ctAnswered (s.readGlobal off)
      (some { low := off, value := some (s.wholeRegister off), phase := if off = 0x0010 then some s.clk.phase else none }) := by
  have hrange : off < 0x10000 ∧ off % 4 = 0 := by
    simp only [List.mem_cons, List.not_mem_nil, or_false] at hoff
    omega
  have hlow : isLowHalf off = true := by simpa [isLowHalf, or_assoc] using hoff
  have ht := ctlTarget_global hrange.1
  refine State.ctRead_of_ctWord (t := s.capture off (s.wholeRegister off) _) hrange.2 ?_ ?_
  · rw [ht, State.ctRefused_global hs]
  · simp only [State.ctWord, ht, hlow, ↓reduceIte]
    rfl

theorem State.ctHigh_captured (hu : u.ct = ⟨some ⟨low, some v, p⟩, last⟩) (now : BitVec 32) :
    u.ctHigh low now = (BitVec.ofNat 32 (v.toNat / 2 ^ 32), { u with ct := ⟨some ⟨low, none, p⟩, last⟩ }) := by
  simp [State.ctHigh, hu]

theorem State.ctHigh_read (hu : u.ct = ⟨some ⟨low, none, p⟩, last⟩) (now : BitVec 32) : u.ctHigh low now = (now, u) := by
  simp [State.ctHigh, hu]

theorem State.ctRead_highHalf (hopen : u.ctOpen = true) (hoff : off ∈ [0x0000, 0x0010, 0x0020, 0x4010])
    (hu : u.ct = ⟨some ⟨off, some v, p⟩, last⟩) :
    u.ctRead (off + 4) = u.ctAnswered (BitVec.ofNat 32 (v.toNat / 2 ^ 32)) (some ⟨off, none, p⟩) := by
  have hrange : off + 4 < 0x10000 ∧ (off + 4) % 4 = 0 := by
    simp only [List.mem_cons, List.not_mem_nil, or_false] at hoff
    omega
  have hlow : isLowHalf off = true := by simpa [isLowHalf, or_assoc] using hoff
  have hhigh : isLowHalf (off + 4) = false := by
    simp only [List.mem_cons, List.not_mem_nil, or_false] at hoff
    obtain rfl | rfl | rfl | rfl := hoff <;> rfl
  have ht := ctlTarget_global hrange.1
  refine State.ctRead_of_ctWord (t := { u with ct := ⟨some ⟨off, none, p⟩, last⟩ }) hrange.2 ?_ ?_
  · rw [ht, State.ctRefused_global hopen]
  · simp [State.ctWord, ht, hlow, hhigh, State.ctHigh_captured hu]

theorem State.ctRead_phase {n : Nat} (hopen : u.ctOpen = true) {w : Option (BitVec 64)} (hu : u.ct = ⟨some ⟨low, w, some n⟩, last⟩) :
    u.ctRead 0x18 = u.ctAnswered (BitVec.ofNat 32 n) (some ⟨low, w, none⟩) := by
  have ht : ctlTarget 0x18 = .global 0x18 := rfl
  refine State.ctRead_of_ctWord (t := { u with ct := ⟨some ⟨low, w, none⟩, last⟩ }) rfl ?_ ?_
  · rw [ht, State.ctRefused_global hopen]
  · simp [State.ctWord, ht, isLowHalf, State.ctPhase, hu]

/-- A word that is no half of a 64-bit register captures nothing. -/
theorem State.ctRead_word32 (hopen : s.ctOpen = true) (ha : off % 4 = 0) (hlt : off < 0x10000)
    (hno : ∀ h ∈ [0x0000, 0x0004, 0x0010, 0x0014, 0x0018, 0x0020, 0x0024, 0x4010, 0x4014], off ≠ h) :
    s.ctRead off = s.ctAnswered (s.readGlobal off) s.ct.capture := by
  simp only [List.forall_mem_cons, List.not_mem_nil, false_implies, implies_true, and_true] at hno
  have hlow : isLowHalf off = false := by simp [isLowHalf]; omega
  have hhigh : ¬ (4 ≤ off ∧ isLowHalf (off - 4) = true) := by simp [isLowHalf]; omega
  have hphase : off ≠ 0x18 := by omega
  have ht := ctlTarget_global hlt
  refine State.ctRead_of_ctWord (t := s) ha ?_ ?_
  · rw [ht, State.ctRefused_global hopen]
  · simp only [State.ctWord, ht, hlow, hhigh, hphase, Bool.false_eq_true, ↓reduceIte]

/-! ### Latch words -/

/-- The word at this offset of the slot of latch i (R134). -/
theorem ctlTarget_latchByte {i o : Nat} (hi : i < 8192) (ho : o < 64) : ctlTarget (0x400000 + 64 * i + o) = .latch i o := by
  have hslot : (0x400000 + 64 * i + o - 0x400000) / 64 = i := by omega
  have hbyte : (0x400000 + 64 * i + o) % 64 = o := by omega
  simp only [ctlTarget, hslot, hbyte]
  repeat rw [if_neg (by omega)]
  rw [if_pos (by omega)]

theorem State.ctRefused_latch (hs : s.serving = true) (i o : Nat) : s.ctRefused (.latch i o) false = false := by
  simp [State.ctRefused, State.serves, hs]

theorem State.ctRead_latchLow (hs : s.serving = true) {i : Nat} (hi : i < 8192) :
    s.ctRead (0x400000 + 64 * i) =
      s.ctAnswered ((s.latch i).setWidth 32) (some ⟨0x400000 + 64 * i, some (s.latch i), none⟩) := by
  have ht : ctlTarget (0x400000 + 64 * i) = .latch i 0 := ctlTarget_latchByte (o := 0) hi (by decide)
  refine State.ctRead_of_ctWord (t := s.capture (0x400000 + 64 * i) (s.latch i) none) (by omega) ?_ ?_
  · rw [ht, State.ctRefused_latch hs]
  · simp only [State.ctWord, ht, ↓reduceIte]

theorem State.ctRead_latchHigh_captured (hs : u.serving = true) {i : Nat} (hi : i < 8192)
    (hu : u.ct = ⟨some ⟨0x400000 + 64 * i, some v, p⟩, last⟩) :
    u.ctRead (0x400000 + 64 * i + 4) = u.ctAnswered (v.extractLsb' 32 32) (some ⟨0x400000 + 64 * i, none, p⟩) := by
  have ht : ctlTarget (0x400000 + 64 * i + 4) = .latch i 4 := ctlTarget_latchByte hi (by omega)
  refine State.ctRead_of_ctWord (t := { u with ct := ⟨some ⟨0x400000 + 64 * i, none, p⟩, last⟩ }) (by omega) ?_ ?_
  · rw [ht, State.ctRefused_latch hs]
  · simp [State.ctWord, ht, State.ctHigh_captured hu, BitVec.extractLsb', Nat.shiftRight_eq_div_pow]

theorem State.ctRead_latchHigh_read (hs : u.serving = true) {i : Nat} (hi : i < 8192)
    (hu : u.ct = ⟨some ⟨0x400000 + 64 * i, none, p⟩, last⟩) :
    u.ctRead (0x400000 + 64 * i + 4) = u.ctAnswered ((u.latch i).extractLsb' 32 32) (some ⟨0x400000 + 64 * i, none, p⟩) := by
  have ht : ctlTarget (0x400000 + 64 * i + 4) = .latch i 4 := ctlTarget_latchByte hi (by omega)
  have hc : u.ct.capture = some ⟨0x400000 + 64 * i, none, p⟩ := by rw [hu]
  rw [← hc]
  refine State.ctRead_of_ctWord (t := u) (by omega) ?_ ?_
  · rw [ht, State.ctRefused_latch hs]
  · simp [State.ctWord, ht, State.ctHigh_read hu, BitVec.extractLsb', Nat.shiftRight_eq_div_pow]

/-- A word that no map holds is answered with CT_ERR and zero. -/
theorem State.ctRead_unmapped (ht : ctlTarget (off / 4 * 4) = .unmapped) :
    s.ctRead off = { s with ct := { s.ct with last := some { rdata := 0, err := true } } } := by
  simp [State.ctRead, ht, State.ctRefused]

end Sys2Proof.Machine

open Sys2Proof Sys2Proof.Machine

/-- Settles O23: by the two lemmas of an acquire that ends. -/
theorem heldAcquiresAreAnswered : Obligations.HeldAcquiresAreAnswered := by
  intro s i h hrun hi
  have run {a b : State} (hab : a = b) : (.next (if s.runs 2 = true then a else s) : Host.Outcome State Fault Refusal) = .next b :=
    congrArg Host.Outcome.next ((if_pos hrun).trans hab)
  refine ⟨fun m hm hd => run ?_, fun m hm hd => run ?_, fun hm ht => run (State.acquireTimeout_of_unmatched hi hm ht)⟩
  · rw [State.acquireDone_of_matched hi hm, if_pos hd]
  · rw [State.acquireDone_of_matched hi hm, hd, if_neg Bool.false_ne_true]

/-- Settles O24: each read is the lemma of its kind; what the next read sees is the capture that the one before it left. -/
theorem controlPortCapturesLowHalves : Obligations.ControlPortCapturesLowHalves := by
  intro s hs
  refine ⟨fun off hoff => ?_, ?_, fun i hi hserve => ?_, fun off ha hrange => ?_, fun off ht => ?_⟩
  · have hlt : off + 4 < 2 ^ 27 := by
      simp only [List.mem_cons, List.not_mem_nil, or_false] at hoff
      omega
    refine ⟨_, exec_captureRead hs ((congrArg s.ctRead (toNat_ctOffset (by omega))).trans (State.ctRead_lowHalf hs hoff)), rfl, rfl,
      fun u hu hopen => ⟨_, exec_captureRead hopen ((congrArg u.ctRead (toNat_ctOffset hlt)).trans
        (State.ctRead_highHalf hopen hoff hu)), ?_, rfl⟩⟩
    rw [← State.upper_wholeRegister]
    rfl
  · exact ⟨_, exec_captureRead hs (State.ctRead_lowHalf (off := 0x10) hs (by decide)), fun u hu hopen =>
      ⟨_, exec_captureRead hopen (State.ctRead_highHalf (off := 0x10) hopen (by decide) hu), fun w hw hwopen =>
        ⟨_, exec_captureRead hwopen (State.ctRead_phase hwopen hw), rfl⟩⟩⟩
  · have hlow := toNat_ctOffset (off := 0x400000 + 64 * i) (by omega)
    have hhigh := toNat_ctOffset (off := 0x400000 + 64 * i + 4) (by omega)
    exact ⟨_, exec_captureRead hs ((congrArg s.ctRead hlow).trans (State.ctRead_latchLow hserve hi)), rfl, rfl, fun u hu hopen hus =>
      ⟨_, exec_captureRead hopen ((congrArg u.ctRead hhigh).trans (State.ctRead_latchHigh_captured hus hi hu)), rfl, rfl,
        fun w hw hwopen hws => ⟨_, exec_captureRead hwopen ((congrArg w.ctRead hhigh).trans
          (State.ctRead_latchHigh_read hws hi hw)), rfl⟩⟩⟩
  · refine exec_captureRead hs ((congrArg s.ctRead (toNat_ctOffset (by omega))).trans (State.ctRead_word32 hs ha (by omega) ?_))
    simp only [List.forall_mem_cons, List.not_mem_nil, false_implies, implies_true, and_true]
    omega
  · exact exec_captureRead hs (State.ctRead_unmapped ht)

end

section
/-!
PROOF. The budget interface (O25): a new cap level, and the samples of the rails.
-/

namespace Sys2Proof.Machine

/-! ### Allowances of channels -/

/-- t is s but for the channels. -/
def State.SameButChans (s t : State) : Prop := t = { s with chans := t.chans }

theorem State.SameButChans.trans {s t u : State} (h : s.SameButChans t) (h' : t.SameButChans u) : s.SameButChans u := by
  rw [State.SameButChans] at *
  rw [h', h]

theorem State.sameButChans_setChan (s : State) (c : Nat) (x : Channel) : s.SameButChans (s.setChan c x) := rfl

theorem State.sameButChans_foldl_setChan (f : State → Nat → Channel) (cs : List Nat) (s : State) :
    s.SameButChans (cs.foldl (fun s c => s.setChan c (f s c)) s) := by
  induction cs generalizing s with
  | nil => rfl
  | cons c cs ih => exact (s.sameButChans_setChan c (f s c)).trans (ih _)

theorem State.sameButChans_divideFrom (cs : List Nat) (s : State) (left : Nat) (used : Sparse Nat) :
    s.SameButChans (s.divideFrom cs left used) := by
  induction cs generalizing s left used with
  | nil => rfl
  | cons c cs ih => exact (s.sameButChans_setChan c _).trans (ih _ _ _)

theorem State.sameButChans_divide (s : State) : s.SameButChans s.divide := by
  rw [State.divide]
  split
  · exact State.sameButChans_divideFrom _ _ _ _
  · exact State.sameButChans_foldl_setChan _ _ _

/-! ### The cap level (R441) -/

/-- The budget interface in this level, its bucket clamped to the new capacity. -/
def Plumb.clamped (p : Plumb) (level : BitVec 4) : Plumb :=
  let q : Plumb := { p with capLvl := level }
  { q with
    level := (match q.ceil with
      | some w => min p.level ((8 * ceilEnergy w : Nat) : Int)
      | none => p.level),
    tickFlags := p.tickFlags ||| (if level = 0 then 0 else 4) }

theorem Plumb.level_clamped {p : Plumb} {level : BitVec 4} {w : Nat} (h : ({ p with capLvl := level } : Plumb).ceil = some w) :
    (p.clamped level).level = min p.level ((8 * ceilEnergy w : Nat) : Int) := by
  simp only [Plumb.clamped, h]

theorem State.mode_ne_of_serving {s : State} (h : s.serving = true) :
    ¬ (s.start.mode = .reset ∨ s.start.mode = .deadbolt ∨ s.start.mode = .dark) := by
  rintro (hm | hm | hm) <;> simp [State.serving, hm] at h

/-- A new cap level while Crety serves: the clamped bucket, and allowances that go down or stay. -/
theorem State.capLevel_of_serving {s : State} (level : BitVec 4) (h : s.serving = true) :
    ∃ units ks chans, units ≤ s.plumb.allow ∧ ks ≤ s.plumb.ksAllow ∧
      s.capLevel level = { s with plumb := { s.plumb.clamped level with allow := units, ksAllow := ks }, chans := chans } := by
  let t := s.mapPlumb (fun p => p.clamped level)
  let n := t.plan (fun r => (r : Int))
  have hcap : s.capLevel level =
      if n.1 < t.plumb.allow ∨ n.2 < t.plumb.ksAllow then t.grantUnits (min n.1 t.plumb.allow) (min n.2 t.plumb.ksAllow) else t := by
    have hs : (s.mapPlumb (fun p => { p with capLvl := level })).serving = true := h
    rw [State.capLevel, if_neg (State.mode_ne_of_serving h)]
    simp only [hs, Bool.not_true, Bool.false_eq_true, ↓reduceIte]
    rfl
  rw [hcap]
  split
  · have hgrant := State.sameButChans_divide
      (t.mapPlumb (fun p => { p with allow := min n.1 t.plumb.allow, ksAllow := min n.2 t.plumb.ksAllow }))
    exact ⟨_, _, _, Nat.min_le_right _ _, Nat.min_le_right _ _, hgrant⟩
  · exact ⟨t.plumb.allow, t.plumb.ksAllow, s.chans, Nat.le_refl _, Nat.le_refl _, rfl⟩

theorem State.capLevel_deadbolt {s : State} (level : BitVec 4) (h : s.start.mode = .deadbolt ∨ s.start.mode = .dark) :
    s.capLevel level = s :=
  if_pos (.inr h)

/-! ### Samples of the rails (R445) -/

theorem getD_setAt {α : Type} (l : List α) (i : Nat) (v d : α) (j : Nat) :
    (setAt l i v).getD j d = if j = i ∧ i < l.length then v else l.getD j d := by
  induction l generalizing i j with
  | nil => simp [setAt]
  | cons a r ih =>
    cases i with
    | zero => cases j <;> simp [setAt]
    | succ i =>
      cases j with
      | zero => simp [setAt]
      | succ j => simpa [setAt] using ih i j

end Sys2Proof.Machine

open Sys2Proof Sys2Proof.Machine

/-- Settles O25: a cap level clamps the bucket and lowers allowances, or waits or is ignored; a sample is set at its rail. -/
theorem budgetInterfaceTakesEffectAtOnce : Obligations.BudgetInterfaceTakesEffectAtOnce := by
  refine ⟨fun s level at_ hs hr => ?_, fun s level at_ hm hr => ?_, fun s level at_ hr => ?_, fun s rail data at_ hs hl => ?_⟩
  · obtain ⟨units, ks, chans, hu, hk, hcap⟩ := State.capLevel_of_serving (s := s.touch at_) level hs
    exact ⟨_, congrArg Host.Outcome.next ((if_pos hr).trans hcap), rfl, fun w hw => Plumb.level_clamped hw, hu, hk, rfl, rfl⟩
  · exact congrArg Host.Outcome.next ((if_pos hr).trans (State.capLevel_deadbolt (s := s.touch at_) level hm))
  · exact congrArg Host.Outcome.next (if_neg (Bool.eq_false_iff.1 hr))
  · have hrail : rail.toNat < s.plumb.samples.length := hl ▸ rail.isLt
    refine ⟨_, congrArg Host.Outcome.next (if_pos hs), ?_, fun r hne => ?_, rfl, rfl⟩
    · exact (getD_setAt _ _ _ _ _).trans (if_pos ⟨rfl, hrail⟩)
    · exact (getD_setAt _ _ _ _ _).trans (if_neg fun h => hne h.1)

end

section
/-!
SUPPORT. What counting leaves of a bank, a channel and the stored words, and what a read delivers (R100 to R103, R127, R172 to R179).
-/

namespace Sys2Proof.Machine

set_option Elab.async false

/-! ### Counts of banks and channels -/

/-- c is b but for the time that its accesses take and what CSTAT counts. -/
def Bank.SameButCounts (b c : Bank) : Prop := c = { b with busyTo := c.busyTo, cstat := c.cstat }

/-- d is c but for its counts and the frames sent. -/
def Channel.SameButCounts (c d : Channel) : Prop :=
  d = { c with counts := d.counts, hist := d.hist, ceCnt := d.ceCnt, ueCnt := d.ueCnt, poisonCnt := d.poisonCnt }

/-- r' is r but for causes, counts and the log. -/
def Regs.SameButCounts (r r' : Regs) : Prop :=
  r' = { r with irqStatus := r'.irqStatus, ceWindow := r'.ceWindow, ceFired := r'.ceFired, mortarCe := r'.mortarCe, mortarUe := r'.mortarUe,
                portCe := r'.portCe, portUe := r'.portUe, fabCe := r'.fabCe, fabUe := r'.fabUe, log := r'.log, overflow := r'.overflow,
                cdcOver := r'.cdcOver, cdcCnt := r'.cdcCnt }

theorem Regs.SameButCounts.trans {b c d : Regs} (h : b.SameButCounts c) (h' : c.SameButCounts d) : b.SameButCounts d := by
  rw [Regs.SameButCounts] at *
  rw [h', h]

theorem Bank.SameButCounts.trans {b c d : Bank} (h : b.SameButCounts c) (h' : c.SameButCounts d) : b.SameButCounts d := by
  rw [Bank.SameButCounts] at *
  rw [h', h]

theorem Channel.SameButCounts.trans {b c d : Channel} (h : b.SameButCounts c) (h' : c.SameButCounts d) : b.SameButCounts d := by
  rw [Channel.SameButCounts] at *
  rw [h', h]

theorem Bank.SameButCounts.physRow {b c : Bank} (h : b.SameButCounts c) (row : Nat) : c.physRow row = b.physRow row := by rw [h]; rfl

/-- t is s but for causes, the log, the crossings of events, and the counts of registers, banks and channels. -/
structure State.Counted (s t : State) : Prop where
  same : s.SameButCounts t
  regs : s.regs.SameButCounts t.regs
  bank : ∀ k, (s.bank k).SameButCounts (t.bank k)
  chan : ∀ c, (s.chan c).SameButCounts (t.chan c)

@[mono] theorem State.Counted.refl (s : State) : s.Counted s := ⟨.refl s, rfl, fun _ => rfl, fun _ => rfl⟩

theorem State.Counted.trans {s t u : State} (h : s.Counted t) (h' : t.Counted u) : s.Counted u :=
  ⟨h.same.trans h'.same, h.regs.trans h'.regs, fun k => (h.bank k).trans (h'.bank k), fun c => (h.chan c).trans (h'.chan c)⟩

@[mono] theorem counted_ite {s t u : State} {c : Prop} [Decidable c] (h : s.Counted t) (h' : s.Counted u) :
    s.Counted (if c then t else u) := by
  split <;> assumption

@[mono] theorem counted_foldl {α : Type} {s t : State} {f : State → α → State} {l : List α} (h : s.Counted t)
    (hf : ∀ a u, s.Counted u → s.Counted (f u a)) : s.Counted (l.foldl f t) := by
  induction l generalizing t with
  | nil => exact h
  | cons a l ih => exact ih (hf a t h)

section
variable {s₀ s : State} (h : s₀.Counted s)
include h

theorem State.Counted.setChan {c : Nat} {x : Channel} (hx : (s.chan c).SameButCounts x) : s₀.Counted (s.setChan c x) where
  same := State.sameButCounts_setChan h.same
  regs := h.regs
  bank := h.bank
  chan i := by
    rw [State.chan_setChan]
    split
    · next hi => exact hi ▸ (h.chan c).trans hx
    · exact h.chan i

theorem State.Counted.setBank {k : Nat} {x : Bank} (hx : (s.bank k).SameButCounts x) : s₀.Counted (s.setBank k x) where
  same := State.sameButCounts_setBank h.same
  regs := h.regs
  bank i := by
    rw [State.bank_setBank]
    split
    · next hi => exact hi ▸ (h.bank k).trans hx
    · exact h.bank i
  chan := h.chan

/-- A change of registers and crossings. -/
theorem State.Counted.lit {regs : Regs} (hr : s.regs.SameButCounts regs) (crossing : Sparse Nat) :
    s₀.Counted { s with regs := regs, crossing := crossing } :=
  ⟨h.same.lit _ _ _ _, h.regs.trans hr, h.bank, h.chan⟩

@[mono] theorem State.counted_irq {i} : s₀.Counted (s.irq i) := h.lit (by rfl) _

@[mono] theorem State.counted_pushLog {src outcome syn agent where_} : s₀.Counted (s.pushLog src outcome syn agent where_) := by
  unfold State.pushLog
  mono
  · exact h.lit (by rfl) _
  · exact h.lit (by rfl) _

@[mono] theorem State.counted_overrun {d} : s₀.Counted (s.overrun d) := by
  unfold State.overrun
  mono
  · exact h.lit (by rfl) _
  · exact h.lit (by rfl) _

@[mono] theorem State.counted_cross {c} {event : State → State} (he : ∀ u, s₀.Counted u → s₀.Counted (event u)) :
    s₀.Counted (s.cross c event) := by
  unfold State.cross
  dsimp only
  mono
  exact h.lit (by rfl) _

@[mono] theorem State.counted_crossIrq {c i} : s₀.Counted (s.crossIrq c i) := by
  unfold State.crossIrq
  mono
  exact fun _ => id

@[mono] theorem State.counted_countCe : s₀.Counted s.countCe := by
  unfold State.countCe
  dsimp only
  mono
  · exact h.lit (by rfl) _
  · exact h.lit (by rfl) _

@[mono] theorem State.counted_siteIrq {site i} : s₀.Counted (s.siteIrq site i) := by
  unfold State.siteIrq
  split <;> mono

@[mono] theorem State.counted_siteCe {site} : s₀.Counted (s.siteCe site) := by
  unfold State.siteCe
  split
  · exact State.counted_cross h fun _ hu => State.counted_countCe (hu.setChan rfl)
  · exact h.setBank rfl
  · exact State.counted_countCe (h.lit (by rfl) _)
  · exact State.counted_cross h fun _ hu => State.counted_countCe (hu.lit (by rfl) _)
  · exact State.counted_cross h fun _ hu => State.counted_countCe (hu.lit (by rfl) _)

@[mono] theorem State.counted_siteUe {site} : s₀.Counted (s.siteUe site) := by
  unfold State.siteUe
  split
  · exact State.counted_cross h fun _ hu => hu.setChan rfl
  · exact h.setBank rfl
  · exact h.lit (by rfl) _
  · exact State.counted_cross h fun _ hu => hu.lit (by rfl) _
  · exact State.counted_cross h fun _ hu => hu.lit (by rfl) _

@[mono] theorem State.counted_sitePoison {site} : s₀.Counted (s.sitePoison site) := by
  unfold State.sitePoison
  split
  · exact State.counted_cross h fun _ hu => hu.setChan rfl
  · exact h.setBank rfl
  · exact h

@[mono] theorem State.counted_account {site w where_ o syn} : s₀.Counted (s.account site w where_ o syn) := by
  unfold State.account
  split <;> mono

@[mono] theorem State.counted_readPlace {w p} : s₀.Counted (s.readPlace w p).2 := State.counted_account h

@[mono] theorem State.counted_readPlaces {w ps} : s₀.Counted (s.readPlaces w ps).2 := by
  induction ps generalizing s with
  | nil => exact h
  | cons p r ih =>
    unfold State.readPlaces
    mono

@[mono] theorem State.counted_sent {c op bank arg} : s₀.Counted (s.sent c op bank arg) := h.setChan rfl

@[mono] theorem State.counted_occupy {k n} : s₀.Counted (s.occupy k n) := h.setBank rfl

@[mono] theorem State.counted_occupyEven {k n} : s₀.Counted (s.occupyEven k n) := h.setBank rfl

@[mono] theorem State.counted_sendPhys {k phys cs} : s₀.Counted (s.sendPhys k phys cs) := by
  unfold State.sendPhys State.sendPre State.sendColumn
  mono
  intros
  mono

@[mono] theorem State.counted_rowAccess {k row cs} : s₀.Counted (s.rowAccess k row cs) := by
  unfold State.rowAccess State.sendRow
  mono

@[mono] theorem State.counted_corbel {k op arg n} : s₀.Counted (s.corbel k op arg n) := by
  unfold State.corbel
  mono

@[mono] theorem State.counted_moveRows {write rows} : s₀.Counted (s.moveRows write rows) := by
  unfold State.moveRows
  mono
  intros
  mono

@[mono] theorem State.counted_countHost {k cs} : s₀.Counted (s.countHost k cs) := h.setChan rfl

end

theorem State.Counted.runs {s t : State} (h : s.Counted t) (d : Nat) : t.runs d = s.runs d := by
  rw [State.runs, h.regs]
  rfl

/-! ### Words that counting leaves -/

section
variable {s t : State} (h : s.SameButCounts t)
include h

theorem State.SameButCounts.stkData (w : Nat) : t.stkData w = s.stkData w := by rw [h]; rfl

theorem State.SameButCounts.stkSyn (w : Nat) : t.stkSyn w = s.stkSyn w := by rw [h]; rfl

theorem State.SameButCounts.word {sp : Space} (w : Nat) (hsp : sp ≠ .pages) : t.word sp w = s.word sp w := by
  cases sp with
  | stack => exact Prod.ext (h.stkData w) (h.stkSyn w)
  | mortar => rw [h]; rfl
  | hasp => rw [h]; rfl
  | pages => exact absurd rfl hsp

theorem State.SameButCounts.ports : t.ports = s.ports := by rw [h]

theorem State.SameButCounts.latches : t.latches = s.latches := by rw [h]

theorem State.SameButCounts.sameMemory : SameMemory s t := fun _ w hsp => h.word w hsp

end

/-- A place of the stack, of Mortar or of a hasp delivers what its word holds. -/
theorem State.peek_congr {s t : State} {p : Place} (hsp : p.space ≠ .pages) (hw : t.word p.space p.word = s.word p.space p.word) :
    t.peek p = s.peek p := by
  have hd : t.placeData p = s.placeData p ∧ t.placeSyn p = s.placeSyn p := by
    cases hc : p.space with
    | pages => exact absurd hc hsp
    | stack | mortar | hasp =>
      simp only [hc, State.word, Prod.mk.injEq] at hw
      simpa only [State.placeData, State.placeSyn, hc] using hw
  simp only [State.peek, State.placeCheck, hd]

theorem State.SameButCounts.peek {s t : State} (h : s.SameButCounts t) {p : Place} (hsp : p.space ≠ .pages) : t.peek p = s.peek p :=
  State.peek_congr hsp (h.word _ hsp)

/-- Reading places delivers what each of them holds: counting changes no word (R172, R173). -/
theorem State.readPlaces_fst (s : State) (w : Who) (ps : List Place) (hsp : ∀ p ∈ ps, p.space ≠ .pages) :
    (s.readPlaces w ps).1 = ps.map s.peek := by
  induction ps generalizing s with
  | nil => rfl
  | cons p r ih =>
    have hcounts : s.SameButCounts (s.readPlace w p).2 := State.sameButCounts_readPlace (.refl s)
    have hr : ((s.readPlace w p).2.readPlaces w r).1 = r.map (s.readPlace w p).2.peek := ih _ fun q hq => hsp q (List.mem_cons_of_mem p hq)
    have hpeek : r.map (s.readPlace w p).2.peek = r.map s.peek :=
      List.map_congr_left fun q hq => hcounts.peek (hsp q (List.mem_cons_of_mem p hq))
    simp only [State.readPlaces, List.map_cons, hr, hpeek]
    rfl

theorem State.Counted.rowPlace {s t : State} (h : s.Counted t) (k row wi : Nat) (detect : Bool) :
    t.rowPlace k row wi detect = s.rowPlace k row wi detect := by
  rw [State.rowPlace, State.stackWordNo, (h.bank k).physRow]
  rfl

theorem State.Counted.linePlaces {s t : State} (h : s.Counted t) (l : Loc) (detect : Bool) : t.linePlaces l detect = s.linePlaces l detect :=
  List.map_congr_left fun _ _ => h.rowPlace _ _ _ _

theorem State.linePlaces_space (s : State) (l : Loc) (detect : Bool) : ∀ p ∈ s.linePlaces l detect, p.space ≠ .pages := by
  simp [State.linePlaces, State.rowPlace]

end Sys2Proof.Machine
end

section
/-!
SUPPORT. What a write of a place, of enabled bytes and of a list of words stores, and what it leaves (R45, R174, R178, R179).
-/

namespace Sys2Proof.Machine

set_option Elab.async false

/-! ### A word that is written -/

theorem Store.word_setWord (m : Store) (w : Nat) (d : BondData) (x : BitVec 16) (i : Nat) :
    ((m.setWord w d x).data i, (m.setWord w d x).syn i) = if i = w then (d, x) else (m.data i, m.syn i) := by
  split
  · next h => rw [h, Store.data_setWord_self, Store.syn_setWord, if_pos rfl]
  · next h => rw [Store.data_setWord_ne _ _ _ _ h, Store.syn_setWord, if_neg h]

theorem State.word_stkSet_self (s : State) (w : Nat) (d : BondData) (x : BitVec 16) : (s.stkSet w d x).word .stack w = (d, x) := by
  unfold State.stkSet
  split
  all_goals
    next hbg => simp [State.word, State.stkData, State.stkSyn, hbg, Store.data_setWord_self, Store.syn_setWord]

/-- A write of a place holds at its word, and leaves every other one. -/
theorem State.word_placeSet (s : State) {p : Place} (d : BondData) (x : BitVec 16) (hp : p.space ≠ .pages) {sp : Space} (hsp : sp ≠ .pages)
    (w : Nat) : (s.placeSet p d x).word sp w = if sp = p.space ∧ w = p.word then (d, x) else s.word sp w := by
  cases hps : p.space with
  | pages => exact absurd hps hp
  | stack =>
    have hset : s.placeSet p d x = s.stkSet p.word d x := by simp only [State.placeSet, hps]
    rw [hset]
    cases sp with
    | pages => exact absurd rfl hsp
    | stack =>
      by_cases hw : w = p.word
      · rw [if_pos ⟨rfl, hw⟩, hw, State.word_stkSet_self]
      · rw [if_neg fun h => hw h.2, State.word_stkSet_ne s d x hw]
    | mortar | hasp =>
      rw [if_neg (fun h => by cases h.1), State.stkSet_frame]
      rfl
  | mortar =>
    have hset : s.placeSet p d x = { s with mortar := s.mortar.setWord p.word d x } := by simp only [State.placeSet, hps]
    rw [hset]
    cases sp with
    | pages => exact absurd rfl hsp
    | mortar => exact (Store.word_setWord _ _ _ _ _).trans (if_congr (by simp) rfl rfl)
    | stack | hasp => exact (if_neg fun h => by cases h.1).symm
  | hasp =>
    have hset : s.placeSet p d x = { s with hasps := s.hasps.setWord p.word d x } := by simp only [State.placeSet, hps]
    rw [hset]
    cases sp with
    | pages => exact absurd rfl hsp
    | hasp => exact (Store.word_setWord _ _ _ _ _).trans (if_congr (by simp) rfl rfl)
    | stack | mortar => exact (if_neg fun h => by cases h.1).symm

theorem State.placeSet_frame (s : State) (p : Place) (d : BondData) (x : BitVec 16) :
    s.placeSet p d x = { s with stack := (s.placeSet p d x).stack, mortar := (s.placeSet p d x).mortar, hasps := (s.placeSet p d x).hasps } := by
  unfold State.placeSet
  split
  · rw [State.stkSet_frame]
  all_goals rfl

/-! ### Accesses that count and store -/

/-- t is s but for counts and the words listed. -/
structure State.Stored (ws : List (Space × Nat)) (s t : State) : Prop where
  counted : s.Counted { t with stack := s.stack, mortar := s.mortar, hasps := s.hasps }
  words : SameMemoryBut ws s t

theorem State.Counted.stored {s t : State} (h : s.Counted t) : State.Stored [] s t where
  counted := by
    have ht : ({ t with stack := s.stack, mortar := s.mortar, hasps := s.hasps } : State) = t := by rw [h.same]
    rw [ht]
    exact h
  words := fun _ w hsp _ => h.same.word w hsp

/-- Counting goes on in the same way where other words have been stored. -/
theorem State.Counted.withStores {s t : State} (h : s.Counted t) (a b c : Store) :
    State.Counted { s with stack := a, mortar := b, hasps := c } { t with stack := a, mortar := b, hasps := c } where
  same := by
    have heq : t = { s with regs := t.regs, chans := t.chans, banks := t.banks, crossing := t.crossing } := h.same
    exact congrArg (fun u : State => { u with stack := a, mortar := b, hasps := c }) heq
  regs := h.regs
  bank := h.bank
  chan := h.chan

theorem State.Stored.trans {ws ws' : List (Space × Nat)} {s t u : State} (h : State.Stored ws s t) (h' : State.Stored ws' t u) :
    State.Stored (ws ++ ws') s u where
  counted := h.counted.trans (h'.counted.withStores s.stack s.mortar s.hasps)
  words := by
    intro sp w hsp hw
    rw [List.mem_append, not_or] at hw
    exact (h'.words sp w hsp hw.2).trans (h.words sp w hsp hw.1)

theorem State.Stored.mono {ws ws' : List (Space × Nat)} {s t : State} (h : State.Stored ws s t) (hsub : ws ⊆ ws') : State.Stored ws' s t :=
  ⟨h.counted, fun sp w hsp hw => h.words sp w hsp fun hm => hw (hsub hm)⟩

section
variable {ws : List (Space × Nat)} {s t : State} (h : State.Stored ws s t)
include h

theorem State.Stored.ports : t.ports = s.ports := h.counted.same.ports

theorem State.Stored.latches : t.latches = s.latches := h.counted.same.latches

theorem State.Stored.rowPlace (k row wi : Nat) (detect : Bool) : t.rowPlace k row wi detect = s.rowPlace k row wi detect :=
  h.counted.rowPlace k row wi detect

theorem State.Stored.linePlaces (l : Loc) (detect : Bool) : t.linePlaces l detect = s.linePlaces l detect :=
  h.counted.linePlaces l detect

/-- A place whose word is none of those listed delivers what it delivered. -/
theorem State.Stored.peek {p : Place} (hsp : p.space ≠ .pages) (hw : (p.space, p.word) ∉ ws) : t.peek p = s.peek p :=
  State.peek_congr hsp (h.words _ _ hsp hw)

end

/-- What a place holds is the word of its store. -/
theorem State.word_of_place (s : State) {p : Place} (hp : p.space ≠ .pages) : s.word p.space p.word = (s.placeData p, s.placeSyn p) := by
  cases hps : p.space with
  | pages => exact absurd hps hp
  | stack | mortar | hasp => simp only [State.word, State.placeData, State.placeSyn, hps]

section
variable (s : State) {p : Place} (hp : p.space ≠ .pages)
include hp

theorem State.stored_placeSet (d : BondData) (x : BitVec 16) : State.Stored [(p.space, p.word)] s (s.placeSet p d x) where
  counted := by
    rw [State.placeSet_frame]
    exact .refl s
  words := by
    intro sp w hsp hw
    rw [State.word_placeSet s d x hp hsp, if_neg]
    simpa using hw

theorem State.place_placeSet (d : BondData) (x : BitVec 16) :
    (s.placeSet p d x).placeData p = d ∧ (s.placeSet p d x).placeSyn p = x := by
  have hw := (State.word_of_place (s.placeSet p d x) hp).symm.trans ((State.word_placeSet s d x hp hp p.word).trans (if_pos ⟨rfl, rfl⟩))
  exact ⟨congrArg Prod.fst hw, congrArg Prod.snd hw⟩

/-- A write of clean data to enabled bytes: the word as R45 and R178 give it, and no other. -/
theorem State.mergePlace_clean (w : Who) (d : BondData) {n : Nat} (h0 : n ≠ 0) (hn : n < 2 ^ 16) :
    State.Stored [(p.space, p.word)] s (s.mergePlace w p d false n) ∧ s.merged (s.mergePlace w p d false n) p d n := by
  have hmod : n % 2 ^ 16 = n := Nat.mod_eq_of_lt hn
  by_cases hwhole : n = 2 ^ 16 - 1
  · have hm : s.mergePlace w p d false n = s.placeSet p d 0 := by
      subst hwhole
      rfl
    rw [hm, State.merged, if_pos hwhole, if_neg fun h => h.1 hwhole]
    exact ⟨s.stored_placeSet hp d 0, s.place_placeSet hp d 0⟩
  · obtain ⟨u, hu, hm⟩ : ∃ u, s.Counted u ∧ s.mergePlace w p d false n =
        u.placeSet p (mergeBytes (s.peek p).1 d n) (if (s.peek p).2 then poisonMask else 0) := by
      simp only [State.mergePlace, hmod, h0, hwhole, ↓reduceIte, State.placeWrite, Bool.or_false]
      refine ⟨_, ?_, rfl⟩
      split
      · exact .refl s
      · exact State.counted_account (.refl s)
      · exact State.counted_pushLog (State.counted_sitePoison (.refl s))
      · exact State.counted_account (.refl s)
    rw [hm, State.merged, if_neg hwhole]
    refine ⟨(hu.stored.trans (u.stored_placeSet hp _ _)).mono (List.Subset.refl _), ?_⟩
    have hplace := u.place_placeSet hp (mergeBytes (s.peek p).1 d n) (if (s.peek p).2 then poisonMask else 0)
    simpa only [hwhole, ne_eq, not_false_eq_true, true_and] using hplace

end

/-- Writes of clean data to the enabled bytes of distinct words: each word as R45 and R178 give it, and no other. -/
theorem State.writeWords_clean (w : Who) (place : Nat → Place) (d : Nat → BondData) (ben : BitVec 128) (is : List Nat)
    (hsp : ∀ i ∈ is, (place i).space ≠ .pages) (hinj : (is.map (fun i => ((place i).space, (place i).word))).Nodup)
    (hben : ∀ i ∈ is, benWord ben i ≠ 0) (s : State) :
    State.Stored (is.map (fun i => ((place i).space, (place i).word))) s (s.writeWords w place ben (is.map (fun i => (i, d i, false)))) ∧
    ∀ i ∈ is, s.merged (s.writeWords w place ben (is.map (fun i => (i, d i, false)))) (place i) (d i) (benWord ben i) := by
  induction is generalizing s with
  | nil => exact ⟨(State.Counted.refl s).stored, fun _ h => absurd h List.not_mem_nil⟩
  | cons i r ih =>
    rw [List.map_cons, List.nodup_cons] at hinj
    simp only [List.forall_mem_cons] at hsp hben ⊢
    have hlt : benWord ben i < 2 ^ 16 := by
      rw [benWord, bits]
      rw [show 16 * i + 15 + 1 - 16 * i = 16 by omega]
      exact Nat.mod_lt _ (by decide)
    obtain ⟨hst, hmerged⟩ := s.mergePlace_clean hsp.1 w (d i) hben.1 hlt
    obtain ⟨hrest, hall⟩ := ih hsp.2 hinj.2 hben.2 (s.mergePlace w (place i) (d i) false (benWord ben i))
    simp only [List.map_cons, State.writeWords]
    refine ⟨hst.trans hrest, ?_, fun j hj => ?_⟩
    · have hword := hrest.words _ _ hsp.1 hinj.1
      rw [State.word_of_place _ hsp.1, State.word_of_place _ hsp.1, Prod.mk.injEq] at hword
      rw [State.merged, hword.1, hword.2]
      exact hmerged
    · have hne : ((place j).space, (place j).word) ∉ [((place i).space, (place i).word)] := by
        intro h
        rw [List.mem_singleton] at h
        exact hinj.1 (List.mem_map.2 ⟨j, hj, h⟩)
      have hpeek := hst.peek (hsp.2 j hj) hne
      have hj' := hall j hj
      rw [State.merged, hpeek] at hj'
      exact hj'

end Sys2Proof.Machine
end

section
/-!
PROOF. READ on a Pintle port (O9): refused, answered with its line, or waiting (R44, R49, R55, R557).
-/

namespace Sys2Proof.Machine

set_option Elab.async false

/-! ### Storage and answers of a port -/

/-- Storage that is the same reads the same. -/
theorem sameMemory_of_stores {s t : State} (hstack : t.stack = s.stack) (hbg : t.bg = s.bg) (hmortar : t.mortar = s.mortar)
    (hhasps : t.hasps = s.hasps) : SameMemory s t := by
  intro sp w hsp
  cases sp with
  | stack => simp only [State.word, State.stkData, State.stkSyn, hstack, hbg]
  | mortar => simp only [State.word, hmortar]
  | hasp => simp only [State.word, hhasps]
  | pages => exact absurd rfl hsp

theorem SameMemory.trans {s t u : State} (h : SameMemory s t) (h' : SameMemory t u) : SameMemory s u :=
  fun sp w hsp => (h' sp w hsp).trans (h sp w hsp)

theorem sameMemory_settle (s : State) (n : Nat) : SameMemory s (s.settle n) := by
  rw [State.settle_frame]
  exact sameMemory_of_stores rfl rfl rfl rfl

theorem sameMemory_upPush_settle (s : State) (n : Nat) (f : UpFlit) : SameMemory s ((s.upPush n f).settle n) :=
  SameMemory.trans (t := s.upPush n f) (sameMemory_of_stores rfl rfl rfl rfl) (sameMemory_settle _ _)

theorem sameMemory_accepted (s : State) (r : PintleReq) : SameMemory s (s.accepted r) := sameMemory_of_stores rfl rfl rfl rfl

theorem State.latches_upPush_settle (s : State) (n : Nat) (f : UpFlit) : ((s.upPush n f).settle n).latches = s.latches := by
  rw [State.settle_frame]
  rfl

/-- A response that follows a state with the ports of the acceptance is the answer of its port. -/
theorem State.answered_upPush_settle {s v : State} {r : PintleReq} (f : UpFlit) (hp : v.ports = (s.accepted r).ports) :
    Answered s ((v.upPush r.port f).settle r.port) r.port f := by
  have hport (q : Nat) : v.port q = (s.accepted r).port q := congrArg (fun m => Sparse.get PintlePort.init m q) hp
  constructor
  · rw [State.upQ_port_settle, State.port_upPush, if_pos rfl, hport, State.upQ_port_accepted]
  · intro q hq
    rw [State.port_settle_ne _ hq, State.port_upPush, if_neg hq, hport, State.port_accepted_ne s r hq]

/-- A ready port answers a request that the accepting state refuses, and nothing else happens. -/
theorem State.pintleTake_refused {s : State} {r : PintleReq} {st : BitVec 3} (hready : s.portReady r.port r.tag)
    (hst : s.reqStatus (s.numbered r) = some st) (hc : r.ctl = true → s.runs 2 = true) :
    ∃ t, s.pintleTake r = t ∧ Answered s t r.port (plainFlit (s.numbered r) st) ∧
      t = { s.countPt with ports := t.ports, seq := s.seq + 1 } := by
  have hperform : (s.accepted r).pintlePerform (s.numbered r) = (s.accepted r).upPush r.port (plainFlit (s.numbered r) st) := by
    rw [State.pintlePerform, show (s.accepted r).reqStatus (s.numbered r) = some st from hst]
    rfl
  exact ⟨_, State.pintleTake_of_performs hready hc hperform, State.answered_accepted_upPush s r _, State.accepted_upPush_frame s r _⟩

/-- An access whose bank does not take it now waits at the end of the bank's queue. -/
theorem State.bankAccess_waits {s : State} {k : Nat} (a : BankAccess) (h : s.bankWaits k = true) : s.bankAccess k a = s.enqueueBank k a :=
  if_pos h

theorem State.bankAccess_serves {s : State} {k : Nat} (a : BankAccess) (h : s.bankWaits k = false) :
    s.bankAccess k a = s.serveRow k ((s.accessLoc a).row, [a]) :=
  if_neg (Bool.eq_false_iff.1 h)

theorem State.queue_enqueueBank (s : State) (k : Nat) (a : BankAccess) : ((s.enqueueBank k a).bank k).queue = (s.bank k).queue ++ [a] := by
  rw [State.enqueueBank, State.bank_setBank_self]

/-- The request of a ready port whose access waits for its bank: it stands in the bank's queue, and no word changes. -/
theorem State.pintleTake_enqueues {s : State} {r : PintleReq} {k : Nat} (hready : s.portReady r.port r.tag)
    (hc : r.ctl = true → s.runs 2 = true)
    (hp : (s.accepted r).pintlePerform (s.numbered r) = (s.accepted r).enqueueBank k (.pintle (s.numbered r))) :
    ∃ t, s.pintleTake r = t ∧ (t.port r.port).upQ = (s.port r.port).upQ ∧ SameMemory s t ∧
      (t.bank k).queue = (s.bank k).queue ++ [.pintle (s.numbered r)] := by
  refine ⟨_, State.pintleTake_of_portReady hready hc, ?_, ?_, ?_⟩
  · rw [State.upQ_port_settle, hp]
    exact State.upQ_port_accepted s r
  · rw [hp]
    exact SameMemory.trans (t := (s.accepted r).enqueueBank k _) (sameMemory_of_stores rfl rfl rfl rfl) (sameMemory_settle _ _)
  · rw [State.settle_frame, hp]
    exact State.queue_enqueueBank _ _ _

/-! ### Lines that a READ delivers -/

/-- What a read of a hasp's word delivers: its stored word, or the status word, or zeros. -/
theorem State.haspWordRead_congr {s t : State} (w : Who) (off : Nat) (hp : t.peek (haspPlace off) = s.peek (haspPlace off))
    (hh : t.mbox.hasps = s.mbox.hasps) : (t.haspWordRead w off).1 = (s.haspWordRead w off).1 := by
  have hhasp (j : Nat) : t.hasp j = s.hasp j := congrArg (fun m => Sparse.get Hasp.init m j) hh
  simp only [State.haspWordRead, hhasp]
  split
  · exact hp
  · split <;> rfl

@[mono] theorem State.counted_haspWordRead {s₀ s : State} {w off} (h : s₀.Counted s) : s₀.Counted (s.haspWordRead w off).2 := by
  unfold State.haspWordRead
  dsimp only
  split
  · exact State.counted_readPlace h
  · split <;> exact h

@[mono] theorem State.counted_readHaspLine {s₀ s : State} {w off is} (h : s₀.Counted s) : s₀.Counted (s.readHaspLine w off is).2 := by
  induction is generalizing s with
  | nil => exact h
  | cons i r ih =>
    unfold State.readHaspLine
    mono

/-- The words of a hasp's line are read in the state before the read: counting changes none of them. -/
theorem State.readHaspLine_fst (s : State) (w : Who) (off : Nat) (is : List Nat) :
    (s.readHaspLine w off is).1 = is.map (fun i => (s.haspWordRead w (off + 16 * i)).1) := by
  induction is generalizing s with
  | nil => rfl
  | cons i r ih =>
    have hcounts : s.SameButCounts (s.haspWordRead w (off + 16 * i)).2 := (State.counted_haspWordRead (.refl s)).same
    have hmbox : (s.haspWordRead w (off + 16 * i)).2.mbox.hasps = s.mbox.hasps := by rw [hcounts]
    have hrest : r.map (fun j => ((s.haspWordRead w (off + 16 * i)).2.haspWordRead w (off + 16 * j)).1) =
        r.map (fun j => (s.haspWordRead w (off + 16 * j)).1) :=
      List.map_congr_left fun j _ => State.haspWordRead_congr w _ (hcounts.peek (p := haspPlace _) (by simp [haspPlace])) hmbox
    simp only [State.readHaspLine, List.map_cons, ih, hrest]

theorem mortarLine_space (off : Nat) : ∀ p ∈ mortarLine off, p.space ≠ .pages := by
  simp [mortarLine, mortarPlace]

@[mono] theorem State.counted_readCtlLine {s₀ s : State} {r} (h : s₀.Counted s) : s₀.Counted (s.readCtlLine r).2 := by
  unfold State.readCtlLine
  split
  · exact h
  · exact State.counted_readHaspLine h
  · exact State.counted_readPlaces h
  · exact h

/-- A line of control space that is read in the state of its acceptance is the line before it. -/
theorem State.readCtlLine_accepted (s : State) (r q : PintleReq) : ((s.accepted r).readCtlLine q).1 = (s.readCtlLine q).1 := by
  unfold State.readCtlLine
  split
  · rfl
  · rw [State.readHaspLine_fst, State.readHaspLine_fst]
    exact List.map_congr_left fun i _ => State.haspWordRead_congr _ _ rfl rfl
  · rw [State.readPlaces_fst _ _ _ (mortarLine_space _), State.readPlaces_fst _ _ _ (mortarLine_space _)]
    rfl
  · exact congrArg (List.map (fun w => (w, false))) (rfl : (s.accepted r).readRegLine _ _ = s.readRegLine _ _)

/-- Fresh words follow from the count of those drawn before. -/
theorem State.freshWords_fst {s t : State} (h : t.free = s.free) (n : Nat) : (t.freshWords n).1 = (s.freshWords n).1 := by
  induction n generalizing s t with
  | zero => rfl
  | succ n ih =>
    have hnext : t.freshWord.2.free = s.freshWord.2.free := congrArg (· + 1) h
    have hword : t.freshWord.1 = s.freshWord.1 := congrArg Config.freeWord h
    simp only [State.freshWords, ih hnext, hword]

theorem State.freshWords_frame (s : State) (n : Nat) : (s.freshWords n).2 = { s with free := (s.freshWords n).2.free } := by
  induction n generalizing s with
  | zero => rfl
  | succ n ih =>
    simp only [State.freshWords]
    rw [ih]
    rfl

/-- Reading a line of the stack draws free words or counts, and does nothing else. -/
theorem State.readStackLine_cases (s : State) (w : Who) (a : Nat) :
    (s.readStackLine w a).2 = { s with free := (s.readStackLine w a).2.free } ∨ s.Counted (s.readStackLine w a).2 := by
  unfold State.readStackLine
  split
  · exact .inl rfl
  · split
    · exact .inl (State.freshWords_frame s 8)
    · exact .inr (State.counted_readPlaces (.refl s))

theorem State.ports_readStackLine (s : State) (w : Who) (a : Nat) : (s.readStackLine w a).2.ports = s.ports := by
  obtain h | h := s.readStackLine_cases w a
  · rw [h]
  · rw [h.same]

theorem State.latches_readStackLine (s : State) (w : Who) (a : Nat) : (s.readStackLine w a).2.latches = s.latches := by
  obtain h | h := s.readStackLine_cases w a
  · rw [h]
  · rw [h.same]

theorem State.sameMemory_readStackLine (s : State) (w : Who) (a : Nat) : SameMemory s (s.readStackLine w a).2 := by
  obtain h | h := s.readStackLine_cases w a
  · rw [h]
    exact sameMemory_of_stores rfl rfl rfl rfl
  · exact h.same.sameMemory

/-- A line of the stack reads the same where its region, its places and their words are the same. -/
theorem State.readStackLine_congr {s t : State} (w : Who) (a : Nat) (hregion : t.regionAt a = s.regionAt a)
    (hundef : t.cofferUndef a = s.cofferUndef a) (hfree : t.free = s.free)
    (hplaces : ∀ l detect, t.linePlaces l detect = s.linePlaces l detect) (hpeek : ∀ p : Place, p.space ≠ .pages → t.peek p = s.peek p) :
    (t.readStackLine w a).1 = (s.readStackLine w a).1 := by
  simp only [State.readStackLine, hregion, hundef]
  split
  · rfl
  · split
    · exact State.freshWords_fst hfree 8
    · rw [hplaces, State.readPlaces_fst _ _ _ (s.linePlaces_space _ _), State.readPlaces_fst _ _ _ (s.linePlaces_space _ _)]
      exact List.map_congr_left fun p hp => hpeek p (s.linePlaces_space _ _ p hp)

/-- A line of the stack reads the same once accesses have been counted. -/
theorem State.Counted.readStackLine_fst {s t : State} (h : s.Counted t) (w : Who) (a : Nat) :
    (t.readStackLine w a).1 = (s.readStackLine w a).1 :=
  State.readStackLine_congr w a (by rw [h.same]; rfl) (by rw [h.same]; rfl) (by rw [h.same]) h.linePlaces fun _ => h.same.peek

/-- A line of the stack that is read in the state of its acceptance is the line before it. -/
theorem State.readStackLine_accepted (s : State) (r : PintleReq) (w : Who) (a : Nat) :
    ((s.accepted r).readStackLine w a).1 = (s.readStackLine w a).1 :=
  State.readStackLine_congr w a rfl rfl rfl (fun _ _ => rfl) fun _ _ => rfl

/-! ### Serving a bank's access -/

/-- An access of a row that moves columns: its frames are sent and counted, then it is performed. -/
theorem State.serveRow_one (s : State) (k row : Nat) (a : BankAccess) :
    ∃ v, s.Counted v ∧ s.serveRow k (row, [a]) = v.serveAccess k a := by
  refine ⟨_, ?_, rfl⟩
  mono

/-- A READ of a stack line whose bank is free is answered with the line as it is delivered. -/
theorem State.serveRow_read {s : State} {r : PintleReq} {k row : Nat} {g : Region} (hop : r.op = 0)
    (hg : s.regionAt r.addr.toNat = some g) :
    ∃ v, s.serveRow k (row, [.pintle r]) = v.upPush r.port (lineFlit r (s.readStackLine r.who r.addr.toNat).1) ∧ v.ports = s.ports ∧
      v.latches = s.latches ∧ SameMemory s v := by
  obtain ⟨v, hv, heq⟩ := s.serveRow_one k row (.pintle r)
  have hvg : v.regionAt r.addr.toNat = some g := by
    rw [hv.same, ← hg]
    rfl
  have hserve : v.serveAccess k (.pintle r) =
      (v.readStackLine r.who r.addr.toNat).2.upPush r.port (lineFlit r (v.readStackLine r.who r.addr.toNat).1) := by
    simp only [State.serveAccess, State.stackServe, hvg, hop, ↓reduceIte]
    rfl
  refine ⟨(v.readStackLine r.who r.addr.toNat).2, ?_, ?_, ?_, ?_⟩
  · rw [heq, hserve, hv.readStackLine_fst]
  · rw [State.ports_readStackLine, hv.same]
  · rw [State.latches_readStackLine, hv.same]
  · exact hv.same.sameMemory.trans (v.sameMemory_readStackLine _ _)

/-- A request that the accepting state does not refuse is performed by the access of its operation. -/
theorem State.pintlePerform_read {s : State} {r : PintleReq} (hok : s.reqStatus r = none) (hop : r.op = 0) : s.pintlePerform r = s.pintleRead r := by
  simp only [State.pintlePerform, hok, hop, ↓reduceIte]

theorem State.pintleRead_ctl {s : State} {r : PintleReq} (hctl : r.ctl = true) :
    s.pintleRead r = (s.readCtlLine r).2.upPush r.port (lineFlit r (s.readCtlLine r).1) := by
  simp only [State.pintleRead, hctl, ↓reduceIte]
  rfl

theorem State.pintleRead_stack {s : State} {r : PintleReq} {g : Region} (hctl : r.ctl = false) (hg : s.regionAt r.addr.toNat = some g) :
    s.pintleRead r = s.bankAccess (g.loc r.addr.toNat).bank (.pintle r) := by
  simp only [State.pintleRead, hctl, Bool.false_eq_true, ↓reduceIte, hg]

/-- What stands behind the port's other requests, once its credits are returned. -/
theorem State.behind_port_settle (s : State) (n i : Nat) : ((s.settle n).port i).behind = (s.port i).behind := by
  obtain h | h := State.settle_cases s n
  · rw [h]
  · rw [h, State.port_setPort]
    split
    · next hi => rw [hi]
    · rfl

/-- A request of control space to a ready port waits while CCLK is stopped (R557). -/
theorem State.pintleTake_stopped {s : State} {r : PintleReq} (h : s.portReady r.port r.tag) (hctl : r.ctl = true) (hr : s.runs 2 = false) :
    ∃ t, s.pintleTake r = t ∧ (t.port r.port).upQ = (s.port r.port).upQ ∧ (t.port r.port).behind = [s.numbered r] ∧
      t = { s.countPt with ports := t.ports, seq := s.seq + 1 } := by
  obtain ⟨-, hlinks, hcredit, htag, hbehind, -⟩ := h
  have htake : (!s.linksRun || (s.port r.port).dnCred == 0) = false := by simp [hlinks]; omega
  have hissue : s.pintleTake r = ((s.accepted r).pintleIssue (s.numbered r)).settle r.port := by
    simp only [State.pintleTake, htake, List.contains_iff_mem, htag]
    rfl
  have hb : ((s.accepted r).port r.port).behind = [] := by simp [State.accepted, hbehind]
  have hblocked : (s.accepted r).blockedBy (s.numbered r) ((s.accepted r).port r.port).behind = true := by
    have hstop : ((s.numbered r).ctl && !(s.accepted r).runs 2) = true := by
      show (r.ctl && !s.runs 2) = true
      rw [hctl, hr]
      rfl
    simp only [State.blockedBy, hstop, Bool.true_or]
  have hwait : (s.accepted r).pintleIssue (s.numbered r) =
      (s.accepted r).setPort r.port { (s.accepted r).port r.port with behind := ((s.accepted r).port r.port).behind ++ [s.numbered r] } :=
    if_pos hblocked
  refine ⟨_, hissue, ?_, ?_, ?_⟩
  · rw [State.upQ_port_settle, hwait, State.port_setPort_self]
    exact State.upQ_port_accepted s r
  · rw [State.behind_port_settle, hwait, State.port_setPort_self, hb]
    rfl
  · rw [hwait]
    exact State.settle_frame _ _

end Sys2Proof.Machine

open Sys2Proof Sys2Proof.Machine

/-- Settles O9: a READ is refused, answered from control space or from its free bank, or stands in a queue. -/
theorem pintleReadsAnswerTheirLine : Obligations.PintleReadsAnswerTheirLine := by
  intro s port ctl addr tag hready r
  let q := bareReq port 0 ctl addr tag
  have take {t : State} (h : s.pintleTake q = t) : exec (.read port ctl addr tag) s = .next t :=
    guard_eq_next.2 ⟨decide_eq_true hready.1, h.symm⟩
  have accept {p : Option (BitVec 3)} (h : s.reqStatus r = p) : (s.accepted q).reqStatus r = p := h
  refine ⟨fun st hst hc => ?refused, fun hok hctl hrun => ?control, fun g hok hctl hg hfree => ?served,
    fun g hok hctl hg hwaits => ?waits, fun hctl hrun => ?stopped⟩
  case refused =>
    obtain ⟨t, ht, h⟩ := State.pintleTake_refused (r := q) hready hst hc
    exact ⟨t, take ht, h⟩
  case control =>
    have hperform := (State.pintlePerform_read (accept hok) rfl).trans (State.pintleRead_ctl (r := r) hctl)
    have hcounted : (s.accepted q).Counted ((s.accepted q).readCtlLine r).2 := State.counted_readCtlLine (.refl _)
    have hports : ((s.accepted q).readCtlLine r).2.ports = (s.accepted q).ports := by rw [hcounted.same]
    rw [State.readCtlLine_accepted] at hperform
    refine ⟨_, take ((State.pintleTake_of_portReady hready fun _ => hrun).trans (congrArg (State.settle · port) hperform)),
      State.answered_upPush_settle (r := q) _ hports, ?_, ?_⟩
    · exact ((sameMemory_accepted s q).trans hcounted.same.sameMemory).trans (sameMemory_upPush_settle _ _ _)
    · exact (State.latches_upPush_settle _ _ _).trans hcounted.same.latches
  case served =>
    have hperform := (State.pintlePerform_read (accept hok) rfl).trans ((State.pintleRead_stack (s := s.accepted q) (r := r) hctl hg).trans
      (State.bankAccess_serves (s := s.accepted q) _ hfree))
    obtain ⟨v, hv, hports, hlatches, hmem⟩ := State.serveRow_read (s := s.accepted q) (r := r) (k := (g.loc addr.toNat).bank)
      (row := ((s.accepted q).accessLoc (.pintle r)).row) rfl hg
    rw [State.readStackLine_accepted] at hv
    refine ⟨_, take ((State.pintleTake_of_portReady hready fun h => absurd h (Bool.eq_false_iff.1 hctl)).trans
      (congrArg (State.settle · port) (hperform.trans hv))), State.answered_upPush_settle (r := q) _ hports, ?_, ?_⟩
    · exact ((sameMemory_accepted s q).trans hmem).trans (sameMemory_upPush_settle _ _ _)
    · exact (State.latches_upPush_settle _ _ _).trans hlatches
  case waits =>
    have hperform := (State.pintlePerform_read (accept hok) rfl).trans ((State.pintleRead_stack (s := s.accepted q) (r := r) hctl hg).trans
      (State.bankAccess_waits (s := s.accepted q) _ hwaits))
    obtain ⟨t, ht, h⟩ := State.pintleTake_enqueues (r := q) hready (fun h => absurd h (Bool.eq_false_iff.1 hctl)) hperform
    exact ⟨t, take ht, h⟩
  case stopped =>
    obtain ⟨t, ht, h⟩ := State.pintleTake_stopped (r := q) hready hctl hrun
    exact ⟨t, take ht, h⟩

end

section
/-!
PROOF. WRITE on a Pintle port (O11): refused, stored in its enabled bytes, or waiting (R44, R45, R54, R178).
-/

namespace Sys2Proof.Machine

variable {s : State} {r : PintleReq}

/-! ### What a WRITE of clean words does -/

theorem State.pintlePerform_write (hok : s.reqStatus r = none) (hop : r.op = 1) : s.pintlePerform r = s.pintleWrite r := by
  simp [State.pintlePerform, hok, hop]

/-- The words of a WRITE that arrive clean, as they go on. -/
def PintleReq.words (r : PintleReq) : List (Nat × BondData × Bool) := (benWords r.ben).map (fun i => (i, lineWord r.data i, false))

theorem State.pintleWrite_ctl (hctl : r.ctl = true) (hclean : cleanLine r.data r.chk (benWords r.ben)) :
    s.pintleWrite r = (s.writeCtlWords r r.words).upPush r.port (plainFlit r ptOkay) := by
  simp only [State.pintleWrite, hctl, ↓reduceIte, State.rxWords_of_cleanLine _ _ _ _ _ hclean, Bool.false_or, Bool.false_and]
  rfl

theorem State.pintleWrite_stack {g : Region} (hctl : r.ctl = false) (hg : s.regionAt r.addr.toNat = some g)
    (hclean : cleanLine r.data r.chk (benWords r.ben)) :
    s.pintleWrite r =
      if r.ben = 0 then s.upPush r.port (plainFlit r ptOkay) else s.bankAccess (g.loc r.addr.toNat).bank (.pintle r) := by
  simp only [State.pintleWrite, hctl, Bool.false_eq_true, ↓reduceIte, hg, State.rxWords_of_cleanLine _ _ _ _ _ hclean]
  rfl

theorem nodup_benWords (ben : BitVec 128) : (benWords ben).Nodup := List.nodup_range.filter _

theorem benWord_ne_zero {ben : BitVec 128} {i : Nat} (h : i ∈ benWords ben) : benWord ben i ≠ 0 := by
  simpa using (List.mem_filter.1 h).2

/-- A WRITE of clean words whose bank is free stores its enabled bytes in its line, and is answered. -/
theorem State.serveRow_write {k row : Nat} {g : Region} (hop : r.op = 1) (hg : s.regionAt r.addr.toNat = some g)
    (hclean : cleanLine r.data r.chk (benWords r.ben)) :
    let p := fun i => s.rowPlace (g.loc r.addr.toNat).bank (g.loc r.addr.toNat).row ((g.loc r.addr.toNat).byte / 128 * 8 + i) g.detect
    ∃ v, s.serveRow k (row, [.pintle r]) = v.upPush r.port (plainFlit r ptOkay) ∧
      State.Stored ((benWords r.ben).map (fun i => (.stack, (p i).word))) s v ∧
      ∀ i ∈ benWords r.ben, s.merged v (p i) (lineWord r.data i) (benWord r.ben i) := by
  intro p
  obtain ⟨v, hv, heq⟩ := s.serveRow_one k row (.pintle r)
  have hvg : v.regionAt r.addr.toNat = some g := by
    rw [hv.same, ← hg]
    rfl
  have hp : (fun i => v.rowPlace (g.loc r.addr.toNat).bank (g.loc r.addr.toNat).row ((g.loc r.addr.toNat).byte / 128 * 8 + i) g.detect) = p :=
    funext fun i => hv.rowPlace _ _ _ _
  have hwords : (benWords r.ben).map (fun i =>
      let x := lineWord r.data i
      let y := (bondCheck g.detect x (bondSyndrome x (lineChk r.chk i))).value x
      (i, y.1, y.2)) = r.words := by
    refine List.map_congr_left fun i hi => ?_
    have hi' : bondSyndrome (lineWord r.data i) (lineChk r.chk i) = 0 := hclean i hi
    simp only [hi', bondCheck_zero]
    rfl
  have hserve : v.serveAccess k (.pintle r) = (v.writeWords r.who p r.ben r.words).upPush r.port (plainFlit r ptOkay) := by
    have h1 : r.op ≠ 0 := by rw [hop]; decide
    simp only [State.serveAccess, State.stackServe, hvg, h1, ↓reduceIte, hwords, hp]
    rfl
  have hinj : ((benWords r.ben).map (fun i => ((p i).space, (p i).word))).Nodup := by
    refine (nodup_benWords r.ben).map fun i j h => ?_
    have hij := (Prod.mk.injEq _ _ _ _ ▸ h).2
    simp only [p, State.rowPlace, State.stackWordNo] at hij
    omega
  obtain ⟨hst, hmerged⟩ := v.writeWords_clean r.who p (lineWord r.data) r.ben (benWords r.ben)
    (fun i _ => by simp [p, State.rowPlace]) hinj (fun i hi => benWord_ne_zero hi)
  refine ⟨_, heq.trans hserve, ?_, ?_⟩
  · exact (hv.stored.trans hst).mono (List.Subset.refl _)
  · intro i hi
    have hi' := hmerged i hi
    rw [State.merged, hv.same.peek (by simp [p, State.rowPlace])] at hi'
    exact hi'

/-- A WRITE of clean words to host scratch stores its enabled bytes. -/
theorem State.writeCtlWords_mortar {o : Nat} {rd wr : Bool} (ht : r.target = .mortar o rd wr) :
    State.Stored ((benWords r.ben).map (fun i => (.mortar, (mortarPlace (o + 16 * i)).word))) s (s.writeCtlWords r r.words) ∧
      ∀ i ∈ benWords r.ben,
        s.merged (s.writeCtlWords r r.words) (mortarPlace (o + 16 * i)) (lineWord r.data i) (benWord r.ben i) := by
  have hinj : ((benWords r.ben).map (fun i => ((mortarPlace (o + 16 * i)).space, (mortarPlace (o + 16 * i)).word))).Nodup := by
    refine (nodup_benWords r.ben).map fun i j h => ?_
    have hij := (Prod.mk.injEq _ _ _ _ ▸ h).2
    simp only [mortarPlace] at hij
    omega
  simp only [State.writeCtlWords, ht]
  exact s.writeWords_clean _ _ (lineWord r.data) r.ben (benWords r.ben) (fun i _ => by simp [mortarPlace]) hinj
    (fun i hi => benWord_ne_zero hi)

/-- A WRITE to registers hands on the line of its words. -/
theorem State.writeCtlWords_reg (ht : r.target.isReg = true) :
    s.writeCtlWords r r.words = s.writeRegLine r.addr.toNat (lineOfChecked r.words) r.ben r.chans := by
  simp only [State.writeCtlWords]
  cases hr : r.target with
  | latch | hasp | mortar | unmapped =>
    rw [hr] at ht
    cases ht
  | global | chan | broadcast | groupAlias | ring => rfl

/-- The line that is handed on holds the enabled words. -/
theorem lineWord_lineOfChecked_words {i : Nat} (hi : i ∈ benWords r.ben) :
    lineWord (lineOfChecked r.words) i = lineWord r.data i := by
  have hlt : i < 8 := List.mem_range.1 (List.mem_filter.1 hi).1
  have hfind : r.words.find? (fun v => v.1 == i) = some (i, lineWord r.data i, false) := by
    rw [PintleReq.words, List.find?_map, Option.map_eq_some_iff]
    refine ⟨i, ?_, rfl⟩
    obtain ⟨j, hj⟩ := Option.isSome_iff_exists.1 (List.find?_isSome (p := fun j => j == i).2 ⟨i, hi, beq_self_eq_true i⟩)
    have hji : j = i := by simpa using List.find?_some hj
    exact hj.trans (congrArg some hji)
  rw [lineOfChecked, lineWord_lineOfWords _ hlt]
  simp only [List.getD_eq_getElem?_getD, List.getElem?_map, List.getElem?_range hlt, Option.map_some, Option.getD_some, hfind]

end Sys2Proof.Machine

open Sys2Proof Sys2Proof.Machine

/-- Settles O11: a WRITE is refused, stored in its bank or in host scratch, handed on to registers or a hasp, or queued. -/
theorem pintleWritesStoreTheirBytes : Obligations.PintleWritesStoreTheirBytes := by
  intro s port ctl addr tag data chk ben hready r c
  let q : PintleReq := { bareReq port 1 ctl addr tag with data := data, chk := chk, ben := ben }
  have take {t : State} (h : s.pintleTake q = t) : exec c s = .next t := guard_eq_next.2 ⟨decide_eq_true hready.1, h.symm⟩
  have accept {p : Option (BitVec 3)} (h : s.reqStatus r = p) : (s.accepted q).reqStatus r = p := h
  have runs (h : ctl = false) : q.ctl = true → s.runs 2 = true := fun h' => absurd h' (Bool.eq_false_iff.1 h)
  have write {v : State} (hok : s.reqStatus r = none) (hc : q.ctl = true → s.runs 2 = true)
      (hv : (s.accepted q).pintleWrite r = v.upPush port (plainFlit r ptOkay)) :
      exec c s = .next ((v.upPush port (plainFlit r ptOkay)).settle port) :=
    take ((State.pintleTake_of_portReady hready hc).trans
      (congrArg (State.settle · port) ((State.pintlePerform_write (accept hok) rfl).trans hv)))
  have stored {v : State} {ws : List (Space × Nat)} (hv : State.Stored ws (s.accepted q) v) :
      SameMemoryBut ws s ((v.upPush port (plainFlit r ptOkay)).settle port) := by
    intro sp w hsp hw
    rw [sameMemory_upPush_settle v port _ sp w hsp, hv.words sp w hsp hw, sameMemory_accepted s q sp w hsp]
  have merged {v : State} {p : Place} {d : BondData} {n : Nat} (hp : p.space ≠ .pages) (h : (s.accepted q).merged v p d n) :
      s.merged ((v.upPush port (plainFlit r ptOkay)).settle port) p d n := by
    have hw := sameMemory_upPush_settle v port (plainFlit r ptOkay) p.space p.word hp
    rw [State.word_of_place _ hp, State.word_of_place _ hp, Prod.mk.injEq] at hw
    rw [State.merged, hw.1, hw.2]
    exact h
  refine ⟨fun st hst hc => ?refused, fun hok hclean => ⟨fun g hctl hg hben hfree => ?served, fun g hctl hg hben hwaits => ?waits,
    fun g hctl hg hben => ?empty, fun hctl hrun => ⟨fun i o ht => ?latch, fun o rd wr ht => ?mortar, fun ht => ?reg, fun o ht => ?hasp⟩⟩⟩
  case refused =>
    obtain ⟨t, ht, h⟩ := State.pintleTake_refused (r := q) hready hst hc
    exact ⟨t, take ht, h⟩
  case served =>
    have hwrite := (State.pintleWrite_stack (s := s.accepted q) (r := r) hctl hg hclean).trans
      ((if_neg hben).trans (State.bankAccess_serves (s := s.accepted q) _ hfree))
    obtain ⟨v, hv, hst, hmerged⟩ := State.serveRow_write (s := s.accepted q) (r := r) (k := (g.loc addr.toNat).bank)
      (row := ((s.accepted q).accessLoc (.pintle r)).row) rfl hg hclean
    exact ⟨_, write hok (runs hctl) (hwrite.trans hv), State.answered_upPush_settle (r := q) _ hst.ports,
      fun i hi => merged (by simp [State.rowPlace]) (hmerged i hi), stored hst, (State.latches_upPush_settle _ _ _).trans hst.latches⟩
  case waits =>
    have hwrite := (State.pintleWrite_stack (s := s.accepted q) (r := r) hctl hg hclean).trans
      ((if_neg hben).trans (State.bankAccess_waits (s := s.accepted q) _ hwaits))
    obtain ⟨t, ht, h⟩ := State.pintleTake_enqueues (r := q) hready (runs hctl) ((State.pintlePerform_write (accept hok) rfl).trans hwrite)
    exact ⟨t, take ht, h⟩
  case empty =>
    have hwrite := (State.pintleWrite_stack (s := s.accepted q) (r := r) hctl hg hclean).trans (if_pos hben)
    exact ⟨_, write hok (runs hctl) hwrite, State.answered_accepted_upPush s q _, State.accepted_upPush_frame s q _⟩
  case latch =>
    have hwrite := State.pintleWrite_ctl (s := s.accepted q) (r := r) hctl hclean
    have hwords : (s.accepted q).writeCtlWords r r.words = s.accepted q := by simp only [State.writeCtlWords, ht]
    rw [hwords] at hwrite
    exact ⟨_, write hok (fun _ => hrun) hwrite, State.answered_accepted_upPush s q _, State.accepted_upPush_frame s q _⟩
  case mortar =>
    have hwrite := State.pintleWrite_ctl (s := s.accepted q) (r := r) hctl hclean
    obtain ⟨hst, hmerged⟩ := State.writeCtlWords_mortar (s := s.accepted q) ht
    exact ⟨_, write hok (fun _ => hrun) hwrite, State.answered_upPush_settle (r := q) _ hst.ports,
      fun i hi => merged (by simp [mortarPlace]) (hmerged i hi), stored hst, (State.latches_upPush_settle _ _ _).trans hst.latches⟩
  case reg =>
    have hwrite := State.pintleWrite_ctl (s := s.accepted q) (r := r) hctl hclean
    rw [State.writeCtlWords_reg ht] at hwrite
    exact ⟨_, fun i hi => lineWord_lineOfChecked_words hi, write hok (fun _ => hrun) hwrite⟩
  case hasp =>
    have hwrite := State.pintleWrite_ctl (s := s.accepted q) (r := r) hctl hclean
    have hwords : (s.accepted q).writeCtlWords r r.words = (s.accepted q).writeHaspWords { r.who with src := 4 } o ben r.words := by
      simp only [State.writeCtlWords, ht]
      rfl
    rw [hwords] at hwrite
    exact write hok (fun _ => hrun) hwrite

end

section
/-!
PROOF. FADD64 and CAS64 on a Pintle port: releases (O12) and acquires (O13) (R54, R404 to R412).
-/

namespace Sys2Proof.Machine

/-! ### Releases of a latch (R404, R407) -/

variable {s : State}

theorem State.latch_wake (s : State) (i j : Nat) : (s.wake i).latch j = s.latch j := rfl

theorem State.wake_frame (s : State) (i : Nat) : ∃ a n, s.wake i = { s with acq := a, regs := { s.regs with ltWiden := n } } := ⟨_, _, rfl⟩

theorem State.latch_release (s : State) (i value scope agent j : Nat) :
    (s.release i value scope agent).latch j = if j = i then latchWord value scope agent else s.latch j :=
  (State.latch_wake _ i j).trans (State.latch_setLatch s i _ j)

theorem State.wake_setLatch_frame (s : State) (i : Nat) (w : BitVec 64) :
    ∃ l a n, (s.setLatch i w).wake i = { s with latches := l, acq := a, regs := { s.regs with ltWiden := n } } := by
  obtain ⟨a, n, h⟩ := State.wake_frame (s.setLatch i w) i
  exact ⟨_, a, n, h⟩

/-- A release changes latches, held acquires and the count of widened scopes. -/
theorem State.release_frame (s : State) (i value scope agent : Nat) :
    ∃ l a n, s.release i value scope agent = { s with latches := l, acq := a, regs := { s.regs with ltWiden := n } } :=
  State.wake_setLatch_frame s i (latchWord value scope agent)

theorem State.atomic_frame (s : State) (isCas : Bool) (i : Nat) (ops : BitVec 128) (agent : Nat) :
    ∃ l a n, s.atomic isCas i ops agent = { s with latches := l, acq := a, regs := { s.regs with ltWiden := n } } := by
  unfold State.atomic
  split
  · exact State.release_frame _ _ _ _ _
  · exact ⟨s.latches, s.acq, s.regs.ltWiden, rfl⟩

/-- The latch after a release atomic: FADD adds to VALUE, CAS stores SWAP where CMP equals it. -/
theorem State.latch_atomic_self (s : State) (isCas : Bool) (i : Nat) (ops : BitVec 128) (agent : Nat) :
    (s.atomic isCas i ops agent).latch i =
      if isCas then (if latchValue (s.latch i) = opLow ops then latchWord (opHigh ops) (opScope ops) agent else s.latch i)
      else latchWord ((latchValue (s.latch i) + opLow ops) % 2 ^ 48) (opScope ops) agent := by
  unfold State.atomic atomicRelease
  cases isCas with
  | false => exact (State.latch_release _ _ _ _ _ _).trans (if_pos rfl)
  | true =>
    simp only [↓reduceIte]
    by_cases hcmp : latchValue (s.latch i) = opLow ops
    · simp only [hcmp, ↓reduceIte]
      exact (State.latch_release _ _ _ _ _ _).trans (if_pos rfl)
    · simp only [hcmp, ↓reduceIte]

theorem State.latch_atomic_ne (s : State) (isCas : Bool) {i j : Nat} (ops : BitVec 128) (agent : Nat) (h : j ≠ i) :
    (s.atomic isCas i ops agent).latch j = s.latch j := by
  unfold State.atomic
  split
  · exact (State.latch_release _ _ _ _ _ _).trans (if_neg h)
  · rfl

/-- A release and its response, after the acceptance: latches, acquires, the count of widened scopes, and the ports. -/
theorem State.released_frame {q : PintleReq} {v : State} {l : Sparse (BitVec 64)} {a : List HeldAcquire} {n : BitVec 32}
    (hv : v = { s.accepted q with latches := l, acq := a, regs := { s.regs with ltWiden := n } }) (port : Nat) (f : UpFlit) :
    (v.upPush port f).settle port =
      { s.countPt with ports := ((v.upPush port f).settle port).ports, seq := s.seq + 1,
                       latches := ((v.upPush port f).settle port).latches, acq := ((v.upPush port f).settle port).acq,
                       regs := { s.regs with ltWiden := ((v.upPush port f).settle port).regs.ltWiden } } := by
  have hf := State.settle_frame (v.upPush port f) port
  generalize (v.upPush port f).settle port = t at hf ⊢
  subst hv
  rw [hf]
  rfl

/-! ### Atomics of a Pintle port -/

variable {r : PintleReq} {i : Nat}

theorem State.pintlePerform_atomic (hok : s.reqStatus r = none) (hop : r.op = 2 ∨ r.op = 3) {o : Nat} (ht : r.target = .latch i o) :
    s.pintlePerform r = s.pintleAtomic r i := by
  have h0 : r.op ≠ 0 ∧ r.op ≠ 1 := by
    obtain h | h := hop <;> rw [h] <;> decide
  simp only [State.pintlePerform, hok, h0, ↓reduceIte, ht]

/-- The operand word of an atomic that arrives clean (R54). -/
theorem State.pintleAtomic_clean (hclean : cleanLine r.data r.chk [0]) :
    s.pintleAtomic r i =
      if atomicRefused (r.op == 3) i (lineWord r.data 0) then s.upPush r.port (plainFlit r ptBadOp)
      else if !(r.op == 3) && opAcq (lineWord r.data 0) then
        s.acquire (.pintle r.port r.tag) i (opScope (lineWord r.data 0)) (opHigh (lineWord r.data 0)) r.at_
      else (s.atomic (r.op == 3) i (lineWord r.data 0) r.port).upPush r.port (wordFlit r (s.latch i)) := by
  have hops : lineWord (lineOfChecked [(0, lineWord r.data 0, false)]) 0 = lineWord r.data 0 := by
    rw [lineOfChecked, lineWord_lineOfWords _ (by decide)]
    rfl
  simp only [State.pintleAtomic, State.rxWords_of_cleanLine _ _ _ _ _ hclean, List.map_cons, List.map_nil, hops, Bool.or_self,
    Bool.false_eq_true, ↓reduceIte]
  rfl

/-! ### Acquires (R410 to R412) -/

theorem State.drained_countWiden (s : State) (scope : Nat) (w : BitVec 64) (m : Matched) : (s.countWiden scope w).drained m = s.drained m := by
  unfold State.countWiden
  split <;> rfl

theorem State.countWiden_frame (s : State) (scope : Nat) (w : BitVec 64) :
    s.countWiden scope w = { s with regs := (s.countWiden scope w).regs } := by
  unfold State.countWiden
  split <;> rfl

section
variable {who : Requester} {scope target at_ : Nat}

/-- An acquire that finds VALUE at or above TARGET in its window: answered, or held until its drain set has completed. -/
theorem State.acquire_matched (hv : target ≤ latchValue (s.latch i)) (hw : s.now < at_ + 200 * s.regs.tmoTicks.toNat) :
    s.acquire who i scope target at_ =
      if s.drained (matchOf scope (s.latch i) s.seq) then (s.countWiden scope (s.latch i)).acqOkay who (s.latch i)
      else { s.countWiden scope (s.latch i) with
        acq := s.acq ++ [{ who := who, latch := i, scope := scope, target := target, until_ := at_ + 200 * s.regs.tmoTicks.toNat,
                           matched := some (matchOf scope (s.latch i) s.seq) }] } := by
  have hseq : (s.countWiden scope (s.latch i)).seq = s.seq := by rw [State.countWiden_frame]
  have hacq : (s.countWiden scope (s.latch i)).acq = s.acq := by rw [State.countWiden_frame]
  simp only [State.acquire, hv, hw, and_self, ↓reduceIte, hseq, hacq, State.drained_countWiden]

/-- An acquire below TARGET is held while fewer than 1,024 are, else it is answered and counted. -/
theorem State.acquire_unmatched (hv : latchValue (s.latch i) < target) :
    s.acquire who i scope target at_ =
      if s.heldCount < 1024 then
        { s with acq := s.acq ++ [{ who := who, latch := i, scope := scope, target := target,
                                    until_ := at_ + 200 * s.regs.tmoTicks.toNat, matched := none }] }
      else ({ s with regs := { s.regs with ltFull := satAdd s.regs.ltFull 1 } } : State).acqOkay who (s.latch i) := by
  have hno : ¬ (target ≤ latchValue (s.latch i) ∧ s.now < at_ + 200 * s.regs.tmoTicks.toNat) := fun h => absurd h.1 (Nat.not_le.2 hv)
  simp only [State.acquire, hno, ↓reduceIte]

end

end Sys2Proof.Machine

open Sys2Proof Sys2Proof.Machine

/-- Settles O12: a refused atomic is its answer; another one is a release of its latch and the old word. -/
theorem pintleAtomicsReleaseALatch : Obligations.PintleAtomicsReleaseALatch := by
  intro s port ctl addr tag data chk isCas hready r c ops
  let q : PintleReq := { bareReq port (if isCas then 3 else 2) ctl addr tag with data := data, chk := chk }
  have take {t : State} (h : s.pintleTake q = t) : exec c s = .next t := by
    cases isCas <;> exact guard_eq_next.2 ⟨decide_eq_true hready.1, h.symm⟩
  have hcas : (r.op == 3) = isCas := by cases isCas <;> rfl
  refine ⟨fun st hst hc => ?refused, fun i hok ht hrun hclean => ?_⟩
  case refused =>
    obtain ⟨t, ht, h⟩ := State.pintleTake_refused (r := q) hready hst hc
    exact ⟨t, take ht, h⟩
  have hop : r.op = 2 ∨ r.op = 3 := by
    cases isCas
    · exact .inl rfl
    · exact .inr rfl
  have hperform := (State.pintlePerform_atomic (s := s.accepted q) hok hop ht).trans (State.pintleAtomic_clean (i := i) hclean)
  rw [hcas] at hperform
  have htake := State.pintleTake_of_portReady (r := q) hready fun _ => hrun
  refine ⟨fun hbad => ?badOp, fun hgood hrel => ?release⟩
  case badOp =>
    refine ⟨_, take (htake.trans (congrArg (State.settle · port) (hperform.trans (if_pos hbad)))),
      State.answered_accepted_upPush s q _, State.accepted_upPush_frame s q _⟩
  case release =>
    have hnoacq : (!isCas && opAcq ops) = false := by
      obtain h | h := hrel
      · rw [h]; rfl
      · rw [h, Bool.and_false]
    have hdo := hperform.trans ((if_neg (Bool.eq_false_iff.1 hgood)).trans (if_neg (Bool.eq_false_iff.1 hnoacq)))
    obtain ⟨l, a, n, hframe⟩ := (s.accepted q).atomic_frame isCas i ops port
    have hport : ((s.accepted q).atomic isCas i ops port).ports = (s.accepted q).ports := by rw [hframe]
    have hlatch (j : Nat) : ((((s.accepted q).atomic isCas i ops port).upPush port (wordFlit r (s.latch i))).settle port).latch j =
        ((s.accepted q).atomic isCas i ops port).latch j :=
      congrArg (fun m => Sparse.get (0 : BitVec 64) m j) (State.latches_upPush_settle _ _ _)
    refine ⟨_, take (htake.trans (congrArg (State.settle · port) hdo)), State.answered_upPush_settle (r := q) _ hport,
      (hlatch i).trans (State.latch_atomic_self _ _ _ _ _), fun j hj => (hlatch j).trans (State.latch_atomic_ne _ _ _ _ hj), ?_⟩
    exact State.released_frame hframe port _

/-- Settles O13: the four outcomes of an acquire in the state of its acceptance. -/
theorem pintleAcquiresHoldOrAnswer : Obligations.PintleAcquiresHoldOrAnswer := by
  intro s port addr tag data chk at_ i hready hrun htmo hclean r u ops m h hok ht hgood hacq
  let q : PintleReq := { bareReq port 2 true addr tag with data := data, chk := chk }
  have take {t : State} (h : (s.touch at_).pintleTake q = t) : exec (.fadd64Acquire port true addr tag data chk at_) s = .next t :=
    guard_eq_next.2 ⟨decide_eq_true hready.1, h.symm⟩
  have hperform := (State.pintlePerform_atomic (s := u) hok (.inl rfl) ht).trans (State.pintleAtomic_clean (i := i) hclean)
  have hdo := hperform.trans ((if_neg (Bool.eq_false_iff.1 hgood)).trans (if_pos (show (!false && opAcq ops) = true from hacq)))
  have htake := State.pintleTake_of_portReady (s := s.touch at_) (r := q) hready fun _ => hrun
  have done {v : State} (hv : u.acquire (.pintle port tag) i (opScope ops) (opHigh ops) r.at_ = v) :
      exec (.fadd64Acquire port true addr tag data chk at_) s = .next (v.settle port) :=
    take (htake.trans (congrArg (State.settle · port) (hdo.trans hv)))
  have hwindow : u.now < r.at_ + 200 * u.regs.tmoTicks.toNat := by
    have htmo' : 0 < u.regs.tmoTicks.toNat := Nat.pos_of_ne_zero fun h0 => htmo (BitVec.eq_of_toNat_eq h0)
    show u.now < u.now + _
    omega
  have answered {v : State} (hv : u.acquire (.pintle port tag) i (opScope ops) (opHigh ops) r.at_ = v.acqOkay (.pintle port tag) (s.latch i))
      (hf : v = { u with regs := v.regs }) :
      ∃ t, exec (.fadd64Acquire port true addr tag data chk at_) s = .next t ∧ t.latches = s.latches ∧ SameMemory s t ∧
        Answered s t port (wordFlit r (s.latch i)) ∧ t.acq = s.acq ∧ t.regs = v.regs := by
    have hset := State.settle_frame (v.upPush port (wordFlit r (s.latch i))) port
    have hports : v.ports = u.ports := by rw [hf]
    refine ⟨_, done hv, ?_, ?_, State.answered_upPush_settle (s := s.touch at_) (r := q) _ hports, ?_, (congrArg State.regs hset).trans rfl⟩
    · exact (State.latches_upPush_settle _ _ _).trans ((congrArg State.latches hf).trans rfl)
    · exact SameMemory.trans (t := v) (by rw [hf]; exact sameMemory_of_stores rfl rfl rfl rfl) (sameMemory_upPush_settle _ _ _)
    · exact (congrArg State.acq hset).trans ((congrArg State.acq hf).trans rfl)
  have held {v : State} {x : Option Matched} (hv : u.acquire (.pintle port tag) i (opScope ops) (opHigh ops) r.at_ = v)
      (hf : v = { u with regs := v.regs, acq := s.acq ++ [h x] }) :
      ∃ t, exec (.fadd64Acquire port true addr tag data chk at_) s = .next t ∧ t.latches = s.latches ∧ SameMemory s t ∧
        t.acq = s.acq ++ [h x] ∧ (t.port port).upQ = (s.port port).upQ := by
    have hset := State.settle_frame v port
    refine ⟨_, done hv, (congrArg State.latches hset).trans ((congrArg State.latches hf).trans rfl), ?_,
      (congrArg State.acq hset).trans ((congrArg State.acq hf).trans rfl), ?_⟩
    · exact SameMemory.trans (t := v) (by rw [hf]; exact sameMemory_of_stores rfl rfl rfl rfl) (sameMemory_settle _ _)
    · rw [State.upQ_port_settle, hf]
      exact State.upQ_port_accepted (s.touch at_) q
  have hwide := u.countWiden_frame (opScope ops) (s.latch i)
  by_cases hle : opHigh ops ≤ latchValue (s.latch i)
  · have hacquire := State.acquire_matched (s := u) (i := i) (who := .pintle port tag) (scope := opScope ops) hle hwindow
    have hnlt := Nat.not_lt.2 hle
    cases hd : u.drained m with
    | true =>
      obtain ⟨t, hexec, hlatch, hmem, hans, hacq', -⟩ := answered (hacquire.trans (if_pos hd)) hwide
      exact ⟨t, hexec, hlatch, hmem, fun _ _ => ⟨hans, hacq'⟩, fun _ h => (nomatch h), fun h => absurd h hnlt, fun h => absurd h hnlt⟩
    | false =>
      obtain ⟨t, hexec, hlatch, hmem, hheld⟩ := held (x := some m) (hacquire.trans (if_neg (Bool.eq_false_iff.1 hd))) (congrArg (fun w : State => { w with acq := s.acq ++ [h (some m)] }) hwide)
      exact ⟨t, hexec, hlatch, hmem, fun _ h => (nomatch h), fun _ _ => hheld, fun h => absurd h hnlt, fun h => absurd h hnlt⟩
  · have hlt := Nat.lt_of_not_le hle
    have hacquire := State.acquire_unmatched (s := u) (i := i) (who := .pintle port tag) (scope := opScope ops) (at_ := r.at_) hlt
    by_cases hfull : s.heldCount < 1024
    · obtain ⟨t, hexec, hlatch, hmem, hheld⟩ := held (x := none) (hacquire.trans (if_pos hfull)) rfl
      exact ⟨t, hexec, hlatch, hmem, fun h => absurd h hle, fun h => absurd h hle, fun _ _ => hheld,
        fun _ h => absurd hfull (Nat.not_lt.2 h)⟩
    · obtain ⟨t, hexec, hlatch, hmem, hans, hacq', hregs⟩ := answered (hacquire.trans (if_neg hfull)) rfl
      exact ⟨t, hexec, hlatch, hmem, fun h => absurd h hle, fun h => absurd h hle, fun _ h => absurd h hfull,
        fun _ _ => ⟨hans, hacq', congrArg Regs.ltFull hregs⟩⟩

end

section
/-!
PROOF. RD_REQ on the fabric port (O17): latch pairs, lines of the Coffer, and nothing else of the stack (R63, R555, R557).
-/

namespace Sys2Proof.Machine

variable {s : State} {src : BitVec 14} {tag : BitVec 10}

theorem exec_rdReq (h : s.fabReady src) (off : BitVec 38) : exec (.rdReq src tag off) s = .next (((s.countFab 1).fabRead src tag off).bump) :=
  congrArg Host.Outcome.next (State.fabricTake_of_ready h 1 tag _)

/-! ### Where an offset of the fabric map lies (R63) -/

theorem inLatchWindow_of_slot {off i : Nat} (hi : i < 8192) (ho : off = 0x3000000000 + 64 * i) : inLatchWindow off = true := by
  simp only [inLatchWindow, Bool.and_eq_true, decide_eq_true_eq]
  omega

theorem inLatchWindow_of_inStack {off : Nat} (h : inStack off = true) : inLatchWindow off = false := by
  have hlt : off < 0x1200000000 := of_decide_eq_true h
  simp only [inLatchWindow, Bool.and_eq_false_iff, decide_eq_false_iff_not]
  omega

/-- A request for latches: now while CCLK runs, and in the crossing while it does not (R555, R557). -/
theorem State.fabLatch_of_runs (h : s.runs 2 = true) (want : FabWant) :
    s.fabLatch src tag want = s.fabCclk { src := src, tag := tag, seq := s.seq, want := want } := if_pos h

theorem State.fabLatch_of_stopped (h : s.runs 2 = false) (want : FabWant) :
    s.fabLatch src tag want =
      { s with fab := { s.fab with crossing := s.fab.crossing ++ [{ src := src, tag := tag, seq := s.seq, want := want }] } } :=
  if_neg (Bool.eq_false_iff.1 h)

/-- RD_REQ of an even latch slot reads its pair. -/
theorem State.fabRead_latch {off : BitVec 38} {i : Nat} (hi : i < 8192) (heven : i % 2 = 0) (ho : off.toNat = 0x3000000000 + 64 * i) :
    s.fabRead src tag off = s.fabLatch src tag (.read i) := by
  have haligned : ¬ off.toNat % 128 ≠ 0 := by omega
  have hslot : (off.toNat - 0x3000000000) / 64 = i := by omega
  simp only [State.fabRead, inLatchWindow_of_slot hi ho, ↓reduceIte, haligned, hslot]

/-- RD_REQ of stack space: the lines of the Coffer, and nothing else. -/
theorem State.fabRead_coffer {off : BitVec 38} {g : Region} (hin : inStack off.toNat = true) (hg : s.regionAt off.toNat = some g)
    (hrole : g.role = 2) (hc : (s.cofferAt off.toNat).isSome = true) :
    s.fabRead src tag off =
      if off.toNat % 128 ≠ 0 then s.errResp src tag fbBadOp
      else s.bankAccess (g.loc off.toNat).bank (.fabricRead src tag off s.seq) := by
  simp only [State.fabRead, inLatchWindow_of_inStack hin, Bool.false_eq_true, ↓reduceIte, hg, hin, hrole, hc, and_self]

theorem State.fabRead_elsewhere {off : BitVec 38} (hin : inStack off.toNat = true)
    (hno : ∀ g, s.regionAt off.toNat = some g → g.role = 2 → s.cofferAt off.toNat = none) :
    s.fabRead src tag off = s.errResp src tag fbAddrErr := by
  simp only [State.fabRead, inLatchWindow_of_inStack hin, Bool.false_eq_true, ↓reduceIte]
  split
  · next g hg =>
    refine if_neg fun h => ?_
    rw [hno g hg h.2.1] at h
    exact Bool.false_ne_true h.2.2
  · rfl

/-! ### A line of the Coffer -/

theorem State.fabRuns_of_fabReady (h : s.fabReady src) : s.fabRuns = true := by
  obtain ⟨ho, -, -⟩ := h
  simp only [State.fabOpen, Bool.and_eq_true] at ho
  simp only [State.fabRuns, Bool.and_eq_true]
  tauto

/-- The response with a line as delivered. -/
def lineOut (src : BitVec 14) (tag : BitVec 10) (vs : List (BondData × Bool)) : FabOut :=
  { vc := true, type := 0x8, dst := src, tag := tag, off := 0, stat := 0, data := (lineOfValues vs).1, chk := (lineOfValues vs).2 }

/-- A fabric read whose bank is free is answered with the line as it is delivered. -/
theorem State.serveRow_fabricRead {k row seq : Nat} {off : BitVec 38} {g : Region} (hg : s.regionAt off.toNat = some g) :
    ∃ regs chans banks crossing free, s.regs.SameButCounts regs ∧ s.serveRow k (row, [.fabricRead src tag off seq]) =
      ({ s with regs := regs, chans := chans, banks := banks, crossing := crossing, free := free } : State).foPush
        (lineOut src tag (s.readStackLine { src := 0, agent := src.toNat } off.toNat).1) := by
  obtain ⟨v, hv, heq⟩ := s.serveRow_one k row (.fabricRead src tag off seq)
  have hvg : (v.regionAt off.toNat).isNone = false := by
    have : v.regionAt off.toNat = some g := by
      rw [hv.same, ← hg]
      rfl
    rw [this]
    rfl
  have hserve : v.serveAccess k (.fabricRead src tag off seq) =
      (v.readStackLine { src := 0, agent := src.toNat } off.toNat).2.foPush
        (lineOut src tag (v.readStackLine { src := 0, agent := src.toNat } off.toNat).1) := by
    simp only [State.serveAccess, hvg, Bool.false_eq_true, ↓reduceIte]
    rfl
  have hframe : ∃ regs chans banks crossing free, s.regs.SameButCounts regs ∧ (v.readStackLine { src := 0, agent := src.toNat } off.toNat).2 =
      { s with regs := regs, chans := chans, banks := banks, crossing := crossing, free := free } := by
    obtain h | h := v.readStackLine_cases { src := 0, agent := src.toNat } off.toNat
    · obtain ⟨regs, chans, banks, crossing, hregs, hsame⟩ : ∃ regs chans banks crossing, s.regs.SameButCounts regs ∧
          v = { s with regs := regs, chans := chans, banks := banks, crossing := crossing } := ⟨_, _, _, _, hv.regs, hv.same⟩
      have hfree := congrArg (fun u : State => { u with free := (v.readStackLine { src := 0, agent := src.toNat } off.toNat).2.free }) hsame
      exact ⟨regs, chans, banks, crossing, _, hregs, h.trans hfree⟩
    · exact ⟨_, _, _, _, s.free, (hv.trans h).regs, (hv.trans h).same⟩
  obtain ⟨regs, chans, banks, crossing, free, hregs, hframe⟩ := hframe
  exact ⟨regs, chans, banks, crossing, free, hregs, heq.trans (hserve.trans (by rw [hv.readStackLine_fst, hframe]))⟩

end Sys2Proof.Machine

open Sys2Proof Sys2Proof.Machine

/-- Settles O17: latch pairs by the crossing, lines of the Coffer by their bank, and refusals. -/
theorem fabricReadsLatchesAndTheCoffer : Obligations.FabricReadsLatchesAndTheCoffer := by
  intro s src tag off hready
  have take {t : State} (h : (s.countFab 1).fabRead src tag off = t) : exec (.rdReq src tag off) s = .next t.bump :=
    (exec_rdReq hready off).trans (by rw [h])
  refine ⟨fun i hi heven ho => ⟨fun hr => ?_, fun hr => ?_⟩, fun g hin hg hrole hc ha => ⟨fun hfree => ?served, fun hwaits => ?waits⟩,
    fun g hin hg hrole hc ha => ?_, fun hin hno => ?_⟩
  · exact take ((State.fabRead_latch hi heven ho).trans (State.fabLatch_of_runs (s := s.countFab 1) hr _))
  · exact take ((State.fabRead_latch hi heven ho).trans (State.fabLatch_of_stopped (s := s.countFab 1) hr _))
  case served =>
    have hread : (s.countFab 1).fabRead src tag off =
        (s.countFab 1).serveRow (g.loc off.toNat).bank (((s.countFab 1).accessLoc (.fabricRead src tag off s.seq)).row, [.fabricRead src tag off s.seq]) :=
      (State.fabRead_coffer (s := s.countFab 1) hin hg hrole hc).trans ((if_neg (not_not.2 ha)).trans (State.bankAccess_serves (s := s.countFab 1) _ hfree))
    obtain ⟨regs, chans, banks, crossing, free, hregs, hv⟩ := State.serveRow_fabricRead (s := s.countFab 1) (src := src) (tag := tag) (seq := s.seq)
      (k := (g.loc off.toNat).bank) (row := ((s.countFab 1).accessLoc (.fabricRead src tag off s.seq)).row) hg
    have hline : ((s.countFab 1).readStackLine { src := 0, agent := src.toNat } off.toNat).1 =
        (s.readStackLine { src := 0, agent := src.toNat } off.toNat).1 :=
      State.readStackLine_congr _ _ rfl rfl rfl (fun _ _ => rfl) fun _ _ => rfl
    rw [hline] at hv
    have hruns : ({ s.countFab 1 with regs := regs, chans := chans, banks := banks, crossing := crossing, free := free } : State).fabRuns =
        true := by
      rw [hregs]
      exact State.fabRuns_of_fabReady hready
    exact ⟨_, _, take (hread.trans (hv.trans (if_pos hruns))), rfl, rfl, rfl, rfl, rfl, rfl, sameMemory_of_stores rfl rfl rfl rfl, rfl, rfl, rfl⟩
  case waits =>
    have hread : (s.countFab 1).fabRead src tag off = (s.countFab 1).enqueueBank (g.loc off.toNat).bank (.fabricRead src tag off s.seq) :=
      (State.fabRead_coffer (s := s.countFab 1) hin hg hrole hc).trans ((if_neg (not_not.2 ha)).trans (State.bankAccess_waits (s := s.countFab 1) _ hwaits))
    exact ⟨_, take hread, rfl, sameMemory_of_stores rfl rfl rfl rfl, State.queue_enqueueBank _ _ _⟩
  · exact take ((State.fabRead_coffer (s := s.countFab 1) hin hg hrole hc).trans (if_pos ha))
  · exact take (State.fabRead_elsewhere (s := s.countFab 1) hin hno)

end

section
/-!
PROOF. FADD and CAS on the fabric port: releases in order (O20) and acquires (O21) (R64, R67, R406 to R416).
-/

namespace Sys2Proof.Machine

variable {s : State} {src : BitVec 14} {tag : BitVec 10}

/-! ### Atomics of the fabric -/

/-- An atomic on a latch slot whose operand word arrives clean, refused by nothing. -/
theorem State.fabAtomic_clean {off i : Nat} {data : BitVec 512} {chk : BitVec 64} {isCas : Bool} (hi : i < 8192)
    (ho : off = 0x3000000000 + 64 * i) (hclean : cleanLine (data.setWidth 1024) (chk.setWidth 128) [0])
    (hgood : atomicRefused isCas i (lineWord (data.setWidth 1024) 0) = false) :
    s.fabAtomic isCas src tag off data chk =
      s.fabLatch src tag (if !isCas && opAcq (lineWord (data.setWidth 1024) 0) then
          .acquire i (opScope (lineWord (data.setWidth 1024) 0)) (opHigh (lineWord (data.setWidth 1024) 0)) s.now
        else .release isCas i (lineWord (data.setWidth 1024) 0)) := by
  have hstack : inStack off = false := decide_eq_false (show ¬ off < 0x1200000000 by omega)
  have haperture : inAperture off = false := by
    simp only [inAperture, Bool.and_eq_false_iff, decide_eq_false_iff_not]
    omega
  have hwindow := inLatchWindow_of_slot hi ho
  have haligned : ¬ off % 64 ≠ 0 := by omega
  have hslot : (off - 0x3000000000) / 64 = i := by omega
  have hops : lineWord (lineOfChecked [(0, lineWord (data.setWidth 1024) 0, false)]) 0 = lineWord (data.setWidth 1024) 0 := by
    rw [lineOfChecked, lineWord_lineOfWords _ (by decide)]
    rfl
  simp only [State.fabAtomic, hstack, haperture, hwindow, haligned, State.rxWords_of_cleanLine _ _ _ _ _ hclean, List.map_cons, List.map_nil, hops,
    hslot, hgood, Bool.or_self, Bool.not_true, Bool.false_eq_true, ↓reduceIte]
  split
  · rfl
  · rfl

/-- What a push leaves of the queue that goes out. -/
theorem State.fo_foPush_congr {t : State} (hfab : t.fab.fo = s.fab.fo) (hruns : t.fabRuns = s.fabRuns) (o : FabOut) :
    (t.foPush o).fab.fo = (s.foPush o).fab.fo := by
  unfold State.foPush
  rw [hruns]
  split
  · exact congrArg (· ++ [o]) hfab
  · exact hfab

theorem State.foPush_frame (s : State) (o : FabOut) :
    ∃ p f, s.foPush o = { s with plumb := p, fab := f } ∧ f.held = s.fab.held ∧ f.crossing = s.fab.crossing := by
  unfold State.foPush
  split
  · exact ⟨_, _, rfl, rfl, rfl⟩
  · exact ⟨s.plumb, _, rfl, rfl, rfl⟩

/-- What a release atomic of the fabric does: its response, its latch, and nothing else of latches, storage and ports. -/
structure State.FabReleases (s t : State) (a : FabAtomic) : Prop where
  fo : t.fab.fo = (s.atomResp a.src a.tag (s.latch a.latch)).fab.fo
  self : t.latch a.latch = if a.isCas then
      (if latchValue (s.latch a.latch) = opLow a.data then latchWord (opHigh a.data) (opScope a.data) 49 else s.latch a.latch)
    else latchWord ((latchValue (s.latch a.latch) + opLow a.data) % 2 ^ 48) (opScope a.data) 49
  others : ∀ j, j ≠ a.latch → t.latch j = s.latch j
  memory : SameMemory s t
  ports : t.ports = s.ports
  held : t.fab.held = s.fab.held

/-- The response with an old latch word. -/
def wordOut (src : BitVec 14) (tag : BitVec 10) (w : BitVec 64) : FabOut :=
  { vc := true, type := 0x9, dst := src, tag := tag, off := 0, stat := 0, data := lineOfWords [w.setWidth 128],
    chk := chkOfWords [bondEncode (w.setWidth 128)] }

theorem State.atomResp_eq (s : State) (src : BitVec 14) (tag : BitVec 10) (w : BitVec 64) : s.atomResp src tag w = s.foPush (wordOut src tag w) :=
  rfl

theorem State.fabReleases_fabPerform (s : State) (a : FabAtomic) : s.FabReleases (s.fabPerform a) a := by
  obtain ⟨l, q, n, hatomic⟩ := s.atomic_frame a.isCas a.latch a.data 49
  have hself := s.latch_atomic_self a.isCas a.latch a.data 49
  have hothers {j : Nat} (hj : j ≠ a.latch) := s.latch_atomic_ne a.isCas a.data 49 hj
  have hdo : s.fabPerform a = (s.atomic a.isCas a.latch a.data 49).foPush (wordOut a.src a.tag (s.latch a.latch)) := rfl
  rw [hdo]
  generalize s.atomic a.isCas a.latch a.data 49 = t at hatomic hself hothers ⊢
  generalize hw : wordOut a.src a.tag (s.latch a.latch) = o
  obtain ⟨p, f, hp, hheld, -⟩ := t.foPush_frame o
  have hlatch (j : Nat) : (t.foPush o).latch j = t.latch j := by rw [hp]; rfl
  have hfab : t.fab = s.fab := by rw [hatomic]
  refine ⟨?_, (hlatch _).trans hself, fun j hj => (hlatch j).trans (hothers hj), ?_, ?_, ?_⟩
  · rw [State.atomResp_eq, hw]
    exact State.fo_foPush_congr (by rw [hfab]) (by rw [hatomic]; rfl) o
  · rw [hp, hatomic]
    exact sameMemory_of_stores rfl rfl rfl rfl
  · rw [hp, hatomic]
  · rw [hp]
    exact hheld.trans (by rw [hfab])

/-! ### The order of held releases (R416) -/

/-- The oldest held release of a node, and what stays once it is taken out. -/
theorem findIdx?_held {pre post : List FabAtomic} {a : FabAtomic} (h : ∀ x ∈ pre, x.src ≠ a.src) :
    (pre ++ a :: post).findIdx? (fun x => x.src == a.src) = some pre.length := by
  rw [List.findIdx?_append, List.findIdx?_eq_none_iff.2 fun x hx => by simpa using h x hx]
  simp [List.findIdx?_cons]

theorem State.heldRelease_oldest {a : FabAtomic} {pre post : List FabAtomic} (hheld : s.fab.held = pre ++ a :: post)
    (hpre : ∀ x ∈ pre, x.src ≠ a.src) (hadded : s.linesAdded a.src a.seq = true) :
    s.heldRelease a.src = ({ s with fab := { s.fab with held := pre ++ post } } : State).fabPerform a := by
  have hget : (pre ++ a :: post)[pre.length]? = some a := by simp
  have hrest : removeAt (pre ++ a :: post) pre.length = pre ++ post := by
    rw [removeAt_eq_eraseIdx, List.eraseIdx_append_of_length_le (Nat.le_refl _), Nat.sub_self]
    rfl
  simp only [State.heldRelease, hheld, findIdx?_held hpre, hget, hadded, ↓reduceIte, hrest]

/-- What a release atomic leaves in a latch word, by its kind and by the release that it makes. -/
theorem latch_atomicRelease (isCas : Bool) (ops : BitVec 128) (w : BitVec 64) :
    (if isCas then (if latchValue w = opLow ops then latchWord (opHigh ops) (opScope ops) 49 else w)
      else latchWord ((latchValue w + opLow ops) % 2 ^ 48) (opScope ops) 49) =
    match atomicRelease isCas ops w with
    | some v => latchWord v (opScope ops) 49
    | none => w := by
  unfold atomicRelease
  cases isCas with
  | false => rfl
  | true => by_cases h : latchValue w = opLow ops <;> simp only [h, ↓reduceIte]

/-- A release atomic that reaches a running CCLK: performed in its turn, or held. -/
theorem State.fabCclk_release {isCas : Bool} {i seq : Nat} {ops : BitVec 128} :
    s.fabCclk { src := src, tag := tag, seq := seq, want := .release isCas i ops } =
      if s.linesAdded src seq && s.fab.held.all (fun h => h.src != src) then
        s.fabPerform { src := src, tag := tag, isCas := isCas, latch := i, data := ops, seq := seq }
      else { s with fab := { s.fab with held := s.fab.held ++
        [{ src := src, tag := tag, isCas := isCas, latch := i, data := ops, seq := seq }] } } := rfl

/-! ### Acquires of the fabric -/

theorem State.fabRuns_countWiden (s : State) (scope : Nat) (w : BitVec 64) : (s.countWiden scope w).fabRuns = s.fabRuns := by
  unfold State.countWiden
  split <;> rfl

/-- An acquire of the fabric that is answered, in a state that is s but for registers and counts. -/
theorem State.answers_peer {v : State} {p : Plumb} {k : Clock} (hf : v = { s with clk := k, plumb := p, regs := v.regs })
    (hruns : v.fabRuns = s.fabRuns) (w : BitVec 64) :
    let t := (v.acqOkay (.peer src tag) w).bump
    t.latches = s.latches ∧ SameMemory s t ∧ t.ports = s.ports ∧ t.fab.fo = (s.atomResp src tag w).fab.fo ∧ t.acq = s.acq ∧
      t.regs = v.regs := by
  obtain ⟨q, f, hp, -, -⟩ := v.foPush_frame (wordOut src tag w)
  have hfo : (v.foPush (wordOut src tag w)).fab.fo = (s.foPush (wordOut src tag w)).fab.fo :=
    State.fo_foPush_congr (s := s) ((congrArg (fun u : State => u.fab.fo) hf).trans rfl) hruns _
  have hdo : v.acqOkay (.peer src tag) w = v.foPush (wordOut src tag w) := rfl
  rw [hdo]
  refine ⟨?_, ?_, ?_, hfo, ?_, ?_⟩
  · rw [hp]
    exact (congrArg State.latches hf).trans rfl
  · rw [hp]
    exact sameMemory_of_stores ((congrArg State.stack hf).trans rfl) ((congrArg State.bg hf).trans rfl) ((congrArg State.mortar hf).trans rfl)
      ((congrArg State.hasps hf).trans rfl)
  · rw [hp]
    exact (congrArg State.ports hf).trans rfl
  · rw [hp]
    exact (congrArg State.acq hf).trans rfl
  · rw [hp]
    rfl

end Sys2Proof.Machine

open Sys2Proof Sys2Proof.Machine

/-- Settles O20: a release is performed, held or in the crossing, and a node's oldest held one is performed in its turn. -/
theorem fabricAtomicsReleaseInOrder : Obligations.FabricAtomicsReleaseInOrder := by
  constructor
  · intro s src tag off data chk i isCas hready hi ho hclean ops c hgood hrel
    have hwant : (!isCas && opAcq ops) = false := by
      obtain h | h := hrel
      · rw [h]; rfl
      · rw [h, Bool.and_false]
    have hdo : exec c s = .next ((s.countFab 1).fabLatch src tag (.release isCas i ops)).bump := by
      have hbody : (s.countFab 1).fabAtomic isCas src tag off.toNat data chk = (s.countFab 1).fabLatch src tag (.release isCas i ops) :=
        (State.fabAtomic_clean hi ho hclean hgood).trans (congrArg _ (if_neg (Bool.eq_false_iff.1 hwant)))
      rw [← hbody]
      cases isCas <;> exact congrArg Host.Outcome.next (State.fabricTake_of_ready hready 1 tag _)
    refine ⟨fun hr hnow => ?_, fun hr hlater => ?_, fun hr => ?_⟩
    · have hperform := (State.fabLatch_of_runs (s := s.countFab 1) (tag := tag) hr (.release isCas i ops)).trans (State.fabCclk_release.trans (if_pos hnow))
      let a : FabAtomic := { src := src, tag := tag, isCas := isCas, latch := i, data := ops, seq := s.seq }
      have h := (s.countFab 1).fabReleases_fabPerform a
      refine ⟨((s.countFab 1).fabPerform a).bump, hdo.trans (by rw [hperform]; rfl), h.fo.trans ?_, h.self, h.others, ?_, h.held⟩
      · exact State.fo_foPush_congr (s := s) (t := s.countFab 1) rfl rfl (wordOut src tag (s.latch i))
      · exact SameMemory.trans (t := s.countFab 1) (sameMemory_of_stores rfl rfl rfl rfl)
          (h.memory.trans (sameMemory_of_stores rfl rfl rfl rfl))
    · have hwait := (State.fabLatch_of_runs (s := s.countFab 1) (tag := tag) hr (.release isCas i ops)).trans
        (State.fabCclk_release.trans (if_neg (Bool.eq_false_iff.1 hlater)))
      exact hdo.trans (by rw [hwait]; rfl)
    · exact hdo.trans (by rw [State.fabLatch_of_stopped (s := s.countFab 1) hr]; rfl)
  · intro s a pre post hserve hrun hheld hpre hadded
    have hdo := State.heldRelease_oldest hheld hpre hadded
    have h := ({ s with fab := { s.fab with held := pre ++ post } } : State).fabReleases_fabPerform a
    have hboth : (s.serving && s.runs 2) = true := by rw [hserve, hrun]; rfl
    refine ⟨_, congrArg Host.Outcome.next ((if_pos hboth).trans hdo), h.held, h.fo.trans ?_, h.self.trans ?_, h.others, ?_, h.ports⟩
    · exact State.fo_foPush_congr (s := s) (t := { s with fab := { s.fab with held := pre ++ post } }) rfl rfl
        (wordOut a.src a.tag (s.latch a.latch))
    · exact latch_atomicRelease a.isCas a.data (s.latch a.latch)
    · exact SameMemory.trans (t := { s with fab := { s.fab with held := pre ++ post } }) (sameMemory_of_stores rfl rfl rfl rfl) h.memory

/-- Settles O21: an acquire of the fabric has the four outcomes of an acquire, or waits in the crossing. -/
theorem fabricAcquiresHoldOrAnswer : Obligations.FabricAcquiresHoldOrAnswer := by
  intro s src tag off data chk at_ i hready htmo hi ho hclean u ops m h hgood hacq
  have hdo : exec (.faddAcquire src tag off data chk at_) s =
      .next ((u.countFab 1).fabLatch src tag (.acquire i (opScope ops) (opHigh ops) u.now)).bump := by
    have hbody : (u.countFab 1).fabAtomic false src tag off.toNat data chk =
        (u.countFab 1).fabLatch src tag (.acquire i (opScope ops) (opHigh ops) u.now) :=
      (State.fabAtomic_clean hi ho hclean hgood).trans (congrArg _ (if_pos (show (!false && opAcq ops) = true from hacq)))
    rw [← hbody]
    exact congrArg Host.Outcome.next (State.fabricTake_of_ready (s := u) hready 1 tag _)
  refine ⟨fun hr => ?stopped, fun hr => ?running⟩
  case stopped =>
    exact hdo.trans (by rw [State.fabLatch_of_stopped (s := u.countFab 1) hr]; rfl)
  case running =>
    have hreach : (u.countFab 1).fabLatch src tag (.acquire i (opScope ops) (opHigh ops) u.now) =
        (u.countFab 1).acquire (.peer src tag) i (opScope ops) (opHigh ops) u.now := State.fabLatch_of_runs (s := u.countFab 1) hr _
    have hwindow : (u.countFab 1).now < u.now + 200 * (u.countFab 1).regs.tmoTicks.toNat := by
      have htmo' : 0 < u.regs.tmoTicks.toNat := Nat.pos_of_ne_zero fun h0 => htmo (BitVec.eq_of_toNat_eq h0)
      show u.now < u.now + 200 * u.regs.tmoTicks.toNat
      omega
    have answered {v : State} (hv : (u.countFab 1).acquire (.peer src tag) i (opScope ops) (opHigh ops) u.now =
        v.acqOkay (.peer src tag) (s.latch i)) (hf : v = { u.countFab 1 with regs := v.regs }) (hruns : v.fabRuns = s.fabRuns) :=
      And.intro (hdo.trans (by rw [hreach, hv])) (State.answers_peer (s := s) (src := src) (tag := tag) hf hruns (s.latch i))
    have held {v : State} {x : Option Matched} (hv : (u.countFab 1).acquire (.peer src tag) i (opScope ops) (opHigh ops) u.now = v)
        (hf : v = { u.countFab 1 with regs := v.regs, acq := s.acq ++ [h x] }) :
        exec (.faddAcquire src tag off data chk at_) s = .next v.bump ∧ v.bump.latches = s.latches ∧ SameMemory s v.bump ∧
          v.bump.ports = s.ports ∧ v.bump.acq = s.acq ++ [h x] ∧ v.bump.fab = s.fab :=
      ⟨hdo.trans (by rw [hreach, hv]), (congrArg State.latches hf).trans rfl,
        sameMemory_of_stores ((congrArg State.stack hf).trans rfl) ((congrArg State.bg hf).trans rfl) ((congrArg State.mortar hf).trans rfl)
          ((congrArg State.hasps hf).trans rfl), (congrArg State.ports hf).trans rfl, (congrArg State.acq hf).trans rfl,
        (congrArg State.fab hf).trans rfl⟩
    have hwide := (u.countFab 1).countWiden_frame (opScope ops) (s.latch i)
    by_cases hle : opHigh ops ≤ latchValue (s.latch i)
    · have hacquire := State.acquire_matched (s := u.countFab 1) (i := i) (who := .peer src tag) (scope := opScope ops) hle hwindow
      have hnlt := Nat.not_lt.2 hle
      cases hd : u.drained m with
      | true =>
        obtain ⟨hexec, hlatch, hmem, hports, hfo, hacq', -⟩ := answered (hacquire.trans (if_pos hd)) hwide (State.fabRuns_countWiden _ _ _)
        exact ⟨_, hexec, hlatch, hmem, hports, fun _ _ => ⟨hfo, hacq'⟩, fun _ h => (nomatch h), fun h => absurd h hnlt, fun h => absurd h hnlt⟩
      | false =>
        obtain ⟨hexec, hlatch, hmem, hports, hheld⟩ := held (x := some m) (hacquire.trans (if_neg (Bool.eq_false_iff.1 hd)))
          (congrArg (fun w : State => { w with acq := s.acq ++ [h (some m)] }) hwide)
        exact ⟨_, hexec, hlatch, hmem, hports, fun _ h => (nomatch h), fun _ _ => hheld, fun h => absurd h hnlt, fun h => absurd h hnlt⟩
    · have hlt := Nat.lt_of_not_le hle
      have hacquire := State.acquire_unmatched (s := u.countFab 1) (i := i) (who := .peer src tag) (scope := opScope ops) (at_ := u.now) hlt
      by_cases hfull : s.heldCount < 1024
      · obtain ⟨hexec, hlatch, hmem, hports, hheld⟩ := held (x := none) (hacquire.trans (if_pos hfull)) rfl
        exact ⟨_, hexec, hlatch, hmem, hports, fun h => absurd h hle, fun h => absurd h hle, fun _ _ => hheld,
          fun _ h => absurd hfull (Nat.not_lt.2 h)⟩
      · obtain ⟨hexec, hlatch, hmem, hports, hfo, hacq', hregs⟩ := answered (hacquire.trans (if_neg hfull)) rfl rfl
        exact ⟨_, hexec, hlatch, hmem, hports, fun h => absurd h hle, fun h => absurd h hle, fun _ h => absurd h hfull,
          fun _ _ => ⟨hfo, hacq', congrArg Regs.ltFull hregs⟩⟩

end

section
/-!
PROOF. Contribution lines on the fabric port (O18): taken, or refused and counted (R274, R275, R279, R555).
-/

namespace Sys2Proof.Machine

/-! ### Lines that arrive clean -/

/-- A line is given by its eight words. -/
theorem line_ext {d e : LineData} (h : ∀ i, i < 8 → lineWord d i = lineWord e i) : d = e := by
  refine BitVec.eq_of_getLsbD_eq fun j hj => ?_
  have bit (x : LineData) : x.getLsbD j = (lineWord x (j / 128)).getLsbD (j % 128) := by
    have hj' : 128 * (j / 128) + j % 128 = j := Nat.div_add_mod j 128
    have hlt : j % 128 < 128 := Nat.mod_lt _ (by decide)
    simp only [lineWord, BitVec.getLsbD_ofNat, Nat.testBit_shiftRight, hj', hlt, decide_true, Bool.true_and]
    rfl
  rw [bit d, bit e, h _ (by omega)]

/-- The eight words of a line make the line. -/
theorem lineOfChecked_words (d : LineData) : lineOfChecked ((List.range 8).map (fun i => (i, lineWord d i, false))) = d := by
  refine line_ext fun i hi => ?_
  rw [lineOfChecked, lineWord_lineOfWords _ hi]
  obtain rfl | rfl | rfl | rfl | rfl | rfl | rfl | rfl :
    i = 0 ∨ i = 1 ∨ i = 2 ∨ i = 3 ∨ i = 4 ∨ i = 5 ∨ i = 6 ∨ i = 7 := by omega
  all_goals rfl

theorem State.fabLine_clean (s : State) (src : BitVec 14) (off : Nat) {d : LineData} {c : LineChk} (h : cleanLine d c (List.range 8)) :
    s.fabLine src off d c = (d, false, s) := by
  simp only [State.fabLine, State.rxWords_of_cleanLine _ _ _ _ _ h, lineOfChecked_words, Bool.or_self]

theorem inLatchWindow_of_intake {off w line : Nat} (h : intakeWindow off = some (w, line)) : inLatchWindow off = false := by
  have hlt : off < 0x2E00000000 := by
    by_contra hge
    simp only [intakeWindow] at h
    repeat rw [if_neg (by omega)] at h
    exact nomatch h
  simp only [inLatchWindow, Bool.and_eq_false_iff, decide_eq_false_iff_not]
  omega

variable {s : State} {src : BitVec 14} {tag : BitVec 10} {off : BitVec 38} {data : LineData} {chk : LineChk} {at_ w line : Nat}

/-- A member's line that arrives clean, at the start of a line of a contribution window. -/
theorem exec_wrLine (h : s.fabReady src) (hclean : cleanLine data chk (List.range 8)) (hw : intakeWindow off.toNat = some (w, line))
    (ha : off.toNat % 128 = 0) :
    exec (.wrLine src tag off data chk at_) s = .next (((s.touch at_).countFab 2).takeLine src tag w line data).bump := by
  have hbody : ((s.touch at_).countFab 2).fabWrite src tag off.toNat data chk = ((s.touch at_).countFab 2).takeLine src tag w line data := by
    simp only [State.fabWrite, inLatchWindow_of_intake hw, Bool.false_eq_true, ↓reduceIte, hw, ha, ne_eq, not_true_eq_false,
      State.fabLine_clean _ _ _ hclean]
  rw [← hbody]
  exact congrArg Host.Outcome.next (State.fabricTake_of_ready (s := s.touch at_) h 2 tag _)

/-! ### A line that is taken (R274, R275, R280) -/

theorem StepSet.mem_takeLine_self {x : StepSet} {c : Nat} {es : List LineElem} {y : Contributor} (h : (c, y) ∈ x.contribs) :
    (c, { y with sum := y.sum + lineSum es, lines := y.lines + 1 }) ∈ (x.takeLine c es).contribs :=
  List.mem_map.2 ⟨(c, y), h, if_pos rfl⟩

theorem StepSet.mem_takeLine_ne {x : StepSet} {c : Nat} {es : List LineElem} {e : Nat × Contributor} (h : e ∈ x.contribs) (hne : e.1 ≠ c) :
    e ∈ (x.takeLine c es).contribs :=
  List.mem_map.2 ⟨e, h, if_neg hne⟩

/-- The state once a line has been taken: its contributor's sum, and its pieces in the staging buffer. -/
def State.lineTaken (s : State) (src : BitVec 14) (b : Bool) (c : Nat) (es : List LineElem) : State :=
  let t := s.forgetDb.setSet b ((s.set b).takeLine c es)
  { t with ctl := { t.ctl with staged := t.ctl.staged ++
    [{ src := src, setB := b, seq := s.seq, pieces := (pieces es).flatMap (s.withMarks b) }] } }

theorem State.takeLine_taken {b : Bool} {c : Nat} {x : Contributor} (hset : s.acceptingSet tag = some b)
    (hc : (s.set b).sender src = some (c, x)) (hx : x.state = .notSealed) (hes : s.lineElems b w line data ≠ []) :
    s.takeLine src tag w line data = s.lineTaken src b c (s.lineElems b w line data) := by
  have hes' : (s.lineElems b w line data).isEmpty = false := by simpa using hes
  simp only [State.takeLine, hset, hc, hx, hes', bne_self_eq_false, Bool.or_self, Bool.false_eq_true, ↓reduceIte]
  cases b <;> rfl

/-! ### A line that is refused (R274, R279) -/

theorem State.overrun_frame (s : State) (d : Nat) : ∃ r, s.overrun d = { s with regs := r } ∧ r.stopped = s.regs.stopped := by
  unfold State.overrun
  dsimp only
  split
  · exact ⟨_, rfl, rfl⟩
  · exact ⟨_, rfl, rfl⟩

/-- An event of registers that a crossing takes, or drops. -/
theorem State.cross_regs_frame (s : State) (c : Nat) {event : State → State}
    (he : ∀ u : State, ∃ r, event u = { u with regs := r } ∧ r.stopped = u.regs.stopped) :
    ∃ r x, s.cross c event = { s with regs := r, crossing := x } ∧ r.stopped = s.regs.stopped := by
  unfold State.cross
  split
  · obtain ⟨r, hr, hst⟩ := he s
    exact ⟨r, s.crossing, hr, hst⟩
  · dsimp only
    split
    · obtain ⟨r, hr, hst⟩ := he { s with crossing := Sparse.set 0 s.crossing c (Sparse.get 0 s.crossing c + 1) }
      exact ⟨r, _, hr, hst⟩
    · obtain ⟨r, hr, hst⟩ := s.overrun_frame 2
      exact ⟨r, s.crossing, hr, hst⟩

theorem State.countStale_frame (s : State) (tag : BitVec 10) :
    ∃ r x, s.countStale tag = { s with regs := r, crossing := x } ∧ r.stopped = s.regs.stopped := by
  refine State.cross_regs_frame s _ fun u => ?_
  split
  · exact ⟨_, rfl, rfl⟩
  · exact ⟨_, rfl, rfl⟩

theorem State.setSet_frame (s : State) (b : Bool) (x : StepSet) :
    ∃ l, s.setSet b x = { s with ctl := l } ∧ (if b then l.setB else l.setA) = x := by
  cases b
  · exact ⟨_, rfl, rfl⟩
  · exact ⟨_, rfl, rfl⟩

theorem State.countStray_frame (s : State) (b : Bool) :
    ∃ r x l, s.countStray b = { s with ctl := l, regs := r, crossing := x } ∧ r.stopped = s.regs.stopped ∧
      (if b then l.setB else l.setA) = { s.set b with stray := satAdd (s.set b).stray 1 } ∧
      (s.runs 2 = true → r = { s.regs with stray := satAdd s.regs.stray 1 }) := by
  obtain ⟨l, hl, hset⟩ := s.setSet_frame b { s.set b with stray := satAdd (s.set b).stray 1 }
  obtain ⟨r, x, hr, hst⟩ := State.cross_regs_frame (s.setSet b { s.set b with stray := satAdd (s.set b).stray 1 }) sourceFab
    (event := fun s => { s with regs := { s.regs with stray := satAdd s.regs.stray 1 } }) fun u => ⟨_, rfl, rfl⟩
  have hdo : s.countStray b = { s.setSet b { s.set b with stray := satAdd (s.set b).stray 1 } with regs := r, crossing := x } := hr
  rw [hl] at hdo hr hst
  refine ⟨r, x, l, hdo, hst, hset, fun hrun => ?_⟩
  exact (congrArg State.regs hr).symm.trans (congrArg State.regs (State.cross_of_runs (s := { s with ctl := l }) hrun _ _))

/-- What a late or stale line counts does not look at the beats of its line. -/
theorem State.regs_countStale_countFab (s : State) (n : Nat) (tag : BitVec 10) :
    ((s.countFab n).countStale tag).regs = (s.countStale tag).regs := by
  by_cases hr : s.runs 2 = true
  · rw [State.countStale, State.countStale, State.cross_of_runs (s := s.countFab n) hr, State.cross_of_runs hr]
    show (if s.lateKey tag = true then _ else _ : State).regs = (if s.lateKey tag = true then _ else _ : State).regs
    split <;> rfl
  · rw [State.countStale, State.countStale, State.cross, State.cross, if_neg (show ¬ (s.countFab n).runs 2 = true from hr), if_neg hr]
    show (if Sparse.get 0 s.crossing sourceFab < 16 then _ else _ : State).regs =
      (if Sparse.get 0 s.crossing sourceFab < 16 then _ else _ : State).regs
    split
    · show (if s.lateKey tag = true then _ else _ : State).regs = (if s.lateKey tag = true then _ else _ : State).regs
      split <;> rfl
    · unfold State.overrun
      dsimp only
      show (if s.regs.cdcOver.getLsbD 2 = true then _ else _ : State).regs = (if s.regs.cdcOver.getLsbD 2 = true then _ else _ : State).regs
      split <;> rfl

/-- A refusal that follows counting: the response, and counts of registers. -/
theorem State.refused_frame {s v : State} {r : Regs} {x : Sparse Nat} {p : Plumb} {k : Clock} {l : StepCtl}
    (hv : v = { s with clk := k, plumb := p, ctl := l, regs := r, crossing := x }) (hst : r.stopped = s.regs.stopped) (src : BitVec 14) (tag : BitVec 10)
    (st : BitVec 3) :
    let t := (v.errResp src tag st).bump
    t.fab.fo = (s.errResp src tag st).fab.fo ∧ SameMemory s t ∧ t.ctl = l ∧ t.regs = r := by
  have hruns : v.fabRuns = s.fabRuns := by
    rw [hv]
    simp only [State.fabRuns, State.runs, hst]
  obtain ⟨q, f, hp, -, -⟩ := v.foPush_frame { vc := true, type := 0xB, dst := src, tag := tag, off := 0, stat := st, data := 0, chk := 0 }
  have hdo : v.errResp src tag st = { v with plumb := q, fab := f } := hp
  refine ⟨?_, ?_, ?_, ?_⟩
  · exact State.fo_foPush_congr (s := s) (t := v) (by rw [hv]) hruns _
  · rw [hdo, hv]
    exact sameMemory_of_stores rfl rfl rfl rfl
  · rw [hdo, hv]
    rfl
  · rw [hdo, hv]
    rfl

end Sys2Proof.Machine

open Sys2Proof Sys2Proof.Machine

/-- Settles O18: a line of an expected contributor is taken, another one is refused and counted. -/
theorem contributionLinesAreTakenOrRefused : Obligations.ContributionLinesAreTakenOrRefused := by
  constructor
  · intro s src tag off data chk at_ w line c b x hready hclean hw ha hset hc hx hes
    refine ⟨_, (exec_wrLine hready hclean hw ha).trans (by rw [State.takeLine_taken (s := (s.touch at_).countFab 2) hset hc hx hes]), ?_⟩
    cases b
    · exact ⟨rfl, sameMemory_of_stores rfl rfl rfl rfl, fun _ => StepSet.mem_takeLine_self, fun _ => StepSet.mem_takeLine_ne, rfl, rfl, rfl⟩
    · exact ⟨rfl, sameMemory_of_stores rfl rfl rfl rfl, fun _ => StepSet.mem_takeLine_self, fun _ => StepSet.mem_takeLine_ne, rfl, rfl, rfl⟩
  · intro s src tag off data chk at_ w line hready hclean hw ha
    have hexec := exec_wrLine (at_ := at_) (tag := tag) hready hclean hw ha
    refine ⟨fun hset => ?_, fun b hset hc => ?_⟩
    · have hdo : ((s.touch at_).countFab 2).takeLine src tag w line data = (((s.touch at_).countFab 2).countStale tag).errResp src tag 5 := by
        have hset' : ((s.touch at_).countFab 2).acceptingSet tag = none := hset
        simp only [State.takeLine, hset']
        rfl
      obtain ⟨r, x, hframe, hst⟩ := ((s.touch at_).countFab 2).countStale_frame tag
      obtain ⟨hfo, hmem, hctl, hregs⟩ := State.refused_frame (s := s) (v := ((s.touch at_).countFab 2).countStale tag) hframe hst src tag 5
      refine ⟨_, hexec.trans (by rw [hdo]), hfo, hmem, hctl, ?_, fun hr => ?_⟩
      · exact hregs.trans ((congrArg State.regs hframe).symm.trans (State.regs_countStale_countFab _ 2 tag))
      · have hev : ((s.touch at_).countFab 2).countStale tag = _ := State.cross_of_runs (s := (s.touch at_).countFab 2) hr _ _
        refine hregs.trans ((congrArg State.regs hframe).symm.trans ((congrArg State.regs hev).trans ?_))
        show (if (s.touch at_).lateKey tag = true then _ else _ : State).regs = _
        split <;> rfl
    · have hdo : ((s.touch at_).countFab 2).takeLine src tag w line data = (((s.touch at_).countFab 2).countStray b).errResp src tag 1 := by
        have hset' : ((s.touch at_).countFab 2).acceptingSet tag = some b := hset
        have hc' : (((s.touch at_).countFab 2).set b).sender src = none := hc
        simp only [State.takeLine, hset', hc']
        rfl
      obtain ⟨r, x, l, hframe, hst, hstray, hrun⟩ := ((s.touch at_).countFab 2).countStray_frame b
      obtain ⟨hfo, hmem, hctl, hregs⟩ := State.refused_frame (s := s) (v := ((s.touch at_).countFab 2).countStray b) hframe hst src tag 1
      refine ⟨_, hexec.trans (by rw [hdo]), hfo, hmem, ?_, fun hr => hregs.trans (hrun hr)⟩
      exact congrArg StepSet.stray ((congrArg (fun c : StepCtl => if b then c.setB else c.setA) hctl).trans hstray)

end

section
/-!
PROOF. Seals (O19): held until the lines before them have been added, judged, and the last one closes the step (R66, R282, R284).
-/

namespace Sys2Proof.Machine

variable {s : State} {src : BitVec 14} {tag : BitVec 10} {off : BitVec 38} {data : LineData} {chk : LineChk} {at_ : Nat} {b : Bool}

/-! ### A seal that is held (R66, R282) -/

/-- The seal that a line of this data makes. -/
def sealOf (src : BitVec 14) (tag : BitVec 10) (data : LineData) (stamp seq : Nat) : HeldSeal :=
  { contrib := field (lineBytes data) 4 2, src := src, tag := tag, checksum := BitVec.ofNat 64 (field (lineBytes data) 16 8),
    lines := BitVec.ofNat 32 (field (lineBytes data) 24 4), stamp := stamp, seq := seq }

theorem State.fabSeal_held (hoff : off.toNat = sealLine) (hclean : cleanLine data chk (List.range 8)) (hset : s.acceptingSet tag = some b)
    (hok : (s.set b).sealOk src tag (lineBytes data) = true) :
    s.fabSeal src tag off.toNat data chk =
      s.setSet b { (s.set b).setState (field (lineBytes data) 4 2) .held with
        seals := (s.set b).seals ++ [sealOf src tag data s.now s.seq] } := by
  have hwindow : inLatchWindow sealLine = false := by decide
  have hrange : ¬ (sealLine < sealLine ∨ sealLine + 128 ≤ sealLine) := by omega
  have htake : s.takeSeal src tag data = s.setSet b { (s.set b).setState (field (lineBytes data) 4 2) .held with
      seals := (s.set b).seals ++ [sealOf src tag data s.now s.seq] } := by
    simp only [State.takeSeal, hset, hok, Bool.not_true, Bool.false_eq_true, ↓reduceIte]
    rfl
  rw [← htake]
  simp only [State.fabSeal, hoff, hwindow, Bool.false_eq_true, ↓reduceIte, hrange, ne_eq, not_true_eq_false,
    State.fabLine_clean _ _ _ hclean]

/-- Every contributor of this number has the state that was set. -/
theorem StepSet.state_setState {x : StepSet} {c : Nat} {st : SealState} {e : Nat × Contributor} (h : e ∈ (x.setState c st).contribs)
    (hc : e.1 = c) : e.2.state = st := by
  obtain ⟨y, -, rfl⟩ := List.mem_map.1 h
  by_cases hy : y.1 = c
  · rw [if_pos hy]
  · rw [if_neg hy] at hc
    exact absurd hc hy

/-! ### A deadline that has come (R284) -/

/-- The step of a set is open and its deadline has come. -/
def State.deadlineDue (s : State) (b : Bool) : Bool :=
  (s.set b).held && (s.set b).state == .opened && decide (200 * (s.set b).deadline.toNat ≤ s.now)

theorem State.deadlineClose_eq (s : State) :
    s.deadlineClose =
      if s.deadlineDue true then (if s.deadlineDue false then s.closeSet false 2 else s).closeSet true 2
      else if s.deadlineDue false then s.closeSet false 2 else s := by
  rfl

theorem State.deadlineDue_closeSet_self (s : State) (b : Bool) (cause : Nat) : (s.closeSet b cause).deadlineDue b = false := by
  have hstate : ((s.closeSet b cause).set b).state = .sealing := by
    rw [State.closeSet, State.set_setSet_self]
  simp [State.deadlineDue, hstate]

theorem State.deadlineDue_closeSet_ne (s : State) {b c : Bool} (h : c ≠ b) (cause : Nat) : (s.closeSet b cause).deadlineDue c = s.deadlineDue c := by
  have hset : (s.closeSet b cause).set c = s.set c := by
    rw [State.closeSet, State.set_setSet, if_neg h]
  have hnow : (s.closeSet b cause).now = s.now := by
    rw [State.closeSet]
    cases b <;> rfl
  rw [State.deadlineDue, hset, hnow]
  rfl

theorem State.deadlineClose_of_not_due (h : ∀ b, s.deadlineDue b = false) : s.deadlineClose = s := by
  rw [State.deadlineClose_eq, h true, h false]
  rfl

/-- Once the steps whose deadline has come are closed, none is due. -/
theorem State.deadlineDue_deadlineClose (s : State) (b : Bool) : s.deadlineClose.deadlineDue b = false := by
  rw [State.deadlineClose_eq]
  have hA := s.deadlineDue_closeSet_self false 2
  cases hdA : s.deadlineDue false <;> cases hdB : s.deadlineDue true <;> cases b <;>
    simp [State.deadlineDue_closeSet_self, State.deadlineDue_closeSet_ne, hdA, hdB]

/-! ### A seal that is released (R66, R282) -/

/-- The set once a seal has been judged. -/
def StepSet.judged (x : StepSet) (h : HeldSeal) (good : Bool) : StepSet :=
  { x.setState h.contrib (if good then .good else .bad) with seals := x.seals.filter (fun y => y != h) }

/-- Every contributor of the set has been judged. -/
def StepSet.allJudged (x : StepSet) : Bool := x.contribs.all (fun e => e.2.state == .good || e.2.state == .bad)

theorem StepSet.allJudged_iff (x : StepSet) : x.allJudged = true ↔ ∀ e ∈ x.contribs, e.2.state = .good ∨ e.2.state = .bad := by
  simp [StepSet.allJudged, List.all_eq_true]

theorem State.releaseSeal_eq {h : HeldSeal} {x : Contributor} (hx : (s.set b).contribs.find? (fun e => e.1 == h.contrib) = some (h.contrib, x)) :
    s.releaseSeal b h =
      let y := (s.set b).judged h (x.sum == h.checksum && x.lines == h.lines)
      let t := (s.setSet b y).sealAck h.src h.tag
      if (s.set b).state = .opened ∧ y.allJudged = true then t.closeSet b 1 else t := by
  simp only [State.releaseSeal, hx]
  rfl

/-- The answer of a seal, once its set is judged. -/
theorem State.answered_sealAck (s : State) (b : Bool) (y : StepSet) (src : BitVec 14) (tag : BitVec 10) :
    let t := (s.setSet b y).sealAck src tag
    t.fab.fo = (s.sealAck src tag).fab.fo ∧ SameMemory s t ∧ t.set b = y ∧ t.set (!b) = s.set (!b) ∧ t.clk.tick = s.clk.tick := by
  obtain ⟨p, f, hp, -, -⟩ := (s.setSet b y).foPush_frame
    { vc := true, type := 0xA, dst := src, tag := tag, off := 0, stat := 0, data := 0, chk := 0 }
  have hdo : (s.setSet b y).sealAck src tag = { s.setSet b y with plumb := p, fab := f } := hp
  refine ⟨?_, ?_, ?_, ?_, ?_⟩
  · exact State.fo_foPush_congr (s := s) (t := s.setSet b y) (by cases b <;> rfl) (by cases b <;> rfl) _
  · rw [hdo]
    cases b <;> exact sameMemory_of_stores rfl rfl rfl rfl
  · rw [hdo]
    cases b <;> rfl
  · rw [hdo]
    cases b <;> rfl
  · rw [hdo]
    cases b <;> rfl

theorem sameMemory_closeSet (s : State) (b : Bool) (cause : Nat) : SameMemory s (s.closeSet b cause) := by
  cases b <;> exact sameMemory_of_stores rfl rfl rfl rfl

/-- SEAL_RELEASE of a state in which no deadline has come releases the oldest seal of the contributor that may be judged. -/
theorem State.sealRelease_of_found {c : Nat} {h : HeldSeal} (hdue : ∀ b, s.deadlineDue b = false)
    (hfind : (s.set b).seals.find? (fun y => y.contrib == c && s.linesAdded y.src y.seq) = some h)
    (hA : b = true → s.ctl.setA.seals.find? (fun y => y.contrib == c && s.linesAdded y.src y.seq) = none) :
    s.sealRelease c = s.releaseSeal b h := by
  have hclose := State.deadlineClose_of_not_due hdue
  cases b with
  | false =>
    simp only [State.sealRelease, hclose, hfind]
  | true =>
    have hA' : (s.set false).seals.find? (fun y => y.contrib == c && s.linesAdded y.src y.seq) = none := hA rfl
    simp only [State.sealRelease, hclose, hfind, hA']

end Sys2Proof.Machine

open Sys2Proof Sys2Proof.Machine

/-- Settles O19: a seal is held in its set, and its release judges it; a deadline that has come closes its step before. -/
theorem sealsWaitForTheirLinesAndClose : Obligations.SealsWaitForTheirLinesAndClose := by
  refine ⟨?held, ?deadline, ?release⟩
  case held =>
    intro s src tag off data chk at_ b hready hclean hoff hset hok
    have hdo := (State.fabricTake_of_ready (s := s.touch at_) hready 2 tag (fun s => s.fabSeal src tag off.toNat data chk)).trans
      (congrArg State.bump (State.fabSeal_held (s := (s.touch at_).countFab 2) (b := b) hoff hclean hset hok))
    refine ⟨_, congrArg Host.Outcome.next hdo, ?_⟩
    cases b
    · exact ⟨rfl, sameMemory_of_stores rfl rfl rfl rfl, rfl, rfl, fun e he hc => StepSet.state_setState he hc, rfl, rfl⟩
    · exact ⟨rfl, sameMemory_of_stores rfl rfl rfl rfl, rfl, rfl, fun e he hc => StepSet.state_setState he hc, rfl, rfl⟩
  case deadline =>
    intro s c hserve
    have hserve' : s.deadlineClose.serving = true := by
      rw [State.deadlineClose_eq]
      cases s.deadlineDue true <;> cases s.deadlineDue false <;> exact hserve
    have htwice : s.deadlineClose.deadlineClose = s.deadlineClose := State.deadlineClose_of_not_due s.deadlineDue_deadlineClose
    refine congrArg Host.Outcome.next ((if_pos hserve).trans (Eq.trans ?_ (if_pos hserve').symm))
    unfold State.sealRelease
    rw [htwice]
  case release =>
    intro s c b h x hserve hdue hfind hA hx
    have hcontrib : h.contrib = c := by
      have := List.find?_some hfind
      simp only [Bool.and_eq_true, beq_iff_eq] at this
      exact this.1
    have hnotDue (b : Bool) : s.deadlineDue b = false := by
      refine Bool.eq_false_iff.2 fun h => ?_
      simp only [State.deadlineDue, Bool.and_eq_true, beq_iff_eq, decide_eq_true_eq] at h
      exact absurd (hdue b h.1.1 h.1.2) (Nat.not_lt.2 h.2)
    subst hcontrib
    have hdo := (State.sealRelease_of_found hnotDue hfind hA).trans (State.releaseSeal_eq hx)
    refine ⟨_, congrArg Host.Outcome.next ((if_pos hserve).trans hdo), ?_⟩
    generalize hgood : (x.sum == h.checksum && x.lines == h.lines) = good
    have hack := State.answered_sealAck s b ((s.set b).judged h good) h.src h.tag
    have hseals : h ∉ ((s.set b).judged h good).seals := fun hmem => by simpa using (List.mem_filter.1 hmem).2
    have hstates : ∀ e ∈ ((s.set b).judged h good).contribs, e.1 = h.contrib →
        e.2.state = if x.sum = h.checksum ∧ x.lines = h.lines then .good else .bad := by
      intro e he hc
      rw [StepSet.state_setState he hc, ← hgood]
      simp only [Bool.and_eq_true, beq_iff_eq]
    dsimp only
    generalize (s.setSet b ((s.set b).judged h good)).sealAck h.src h.tag = t at hack ⊢
    obtain ⟨hfo, hmem, hself, hother, htick⟩ := hack
    split
    · next hall =>
      have hset : (t.closeSet b 1).set b = { (s.set b).judged h good with closed := true, cause := 1, closeTick := t.clk.tick, state := .sealing } := by
        rw [State.closeSet, State.set_setSet_self, hself]
        rfl
      have hfab : (t.closeSet b 1).fab = t.fab := by cases b <;> rfl
      refine ⟨by rw [hfab, hfo], hmem.trans (sameMemory_closeSet t b 1), ?_, by rw [hset]; exact hseals, by rw [hset]; exact hstates, ?_, ?_⟩
      · rw [State.closeSet, State.set_setSet, if_neg (by cases b <;> decide), hother]
      · intro _ _
        rw [hset]
        exact ⟨rfl, rfl, rfl, htick⟩
      · rintro ⟨e, he, hne⟩
        rw [hset] at he
        exact absurd ((StepSet.allJudged_iff _).1 hall.2 e he) (not_or.2 hne)
    · next hall =>
      refine ⟨hfo, hmem, hother, by rw [hself]; exact hseals, by rw [hself]; exact hstates, fun hopen hjudged => ?_, fun _ => by rw [hself]; rfl⟩
      rw [hself] at hjudged
      exact absurd ⟨hopen, (StepSet.allJudged_iff _).2 hjudged⟩ hall

end

section
/-!
PROOF. Responses to Crety's own reads (O22): a line that arrives or is lost is stored at its place or waits (R70 to R73, R151, R358).
-/

namespace Sys2Proof.Machine

set_option Elab.async false

variable {s : State}

/-! ### A list of places that is written -/

theorem State.placeWrite_spec (s : State) {p : Place} (hp : p.space ≠ .pages) (d : BondData) (b : Bool) :
    State.Stored [(p.space, p.word)] s (s.placeWrite p d b) ∧ (s.placeWrite p d b).placeData p = d ∧
      (s.placeWrite p d b).placeSyn p = if b = true then poisonMask else 0 :=
  ⟨s.stored_placeSet hp _ _, s.place_placeSet hp _ _⟩

/-- Distinct places that are written: each holds its word, and no other word changes (R174). -/
theorem State.writePlaces_spec (l : List (Place × BondData × Bool)) (hsp : ∀ e ∈ l, e.1.space ≠ .pages)
    (hinj : (l.map (fun e => (e.1.space, e.1.word))).Nodup) (s : State) :
    State.Stored (l.map (fun e => (e.1.space, e.1.word))) s (s.writePlaces l) ∧
    ∀ e ∈ l, (s.writePlaces l).placeData e.1 = e.2.1 ∧ (s.writePlaces l).placeSyn e.1 = if e.2.2 = true then poisonMask else 0 := by
  induction l generalizing s with
  | nil => exact ⟨(State.Counted.refl s).stored, fun _ h => absurd h List.not_mem_nil⟩
  | cons e r ih =>
    obtain ⟨p, d, b⟩ := e
    rw [List.map_cons, List.nodup_cons] at hinj
    simp only [List.forall_mem_cons] at hsp ⊢
    obtain ⟨hst, hp⟩ := s.placeWrite_spec hsp.1 d b
    obtain ⟨hrest, hall⟩ := ih hsp.2 hinj.2 (s.placeWrite p d b)
    have hword := hrest.words _ _ hsp.1 hinj.1
    rw [State.word_of_place _ hsp.1, State.word_of_place _ hsp.1, Prod.mk.injEq] at hword
    exact ⟨hst.trans hrest, ⟨hword.1.trans hp.1, hword.2.trans hp.2⟩, hall⟩

/-- The words of a line of the stack are distinct. -/
theorem State.nodup_linePlaces (s : State) (l : Loc) (detect : Bool) : ((s.linePlaces l detect).map (fun q => (q.space, q.word))).Nodup := by
  rw [State.linePlaces, List.map_map]
  refine List.nodup_range.map fun i j h => ?_
  have hij := (Prod.mk.injEq _ _ _ _ ▸ h).2
  simp only [State.rowPlace, State.stackWordNo] at hij
  omega

/-! ### An access of a bank that counts no register -/

theorem State.regs_sendPhys (s : State) (k phys : Nat) (cs : List Column) : (s.sendPhys k phys cs).regs = s.regs := by
  have hcols (u : State) : (cs.foldl (fun s c => s.sendColumn k c) u).regs = u.regs := by
    induction cs generalizing u with
    | nil => rfl
    | cons c r ih => exact (ih _).trans rfl
  exact (hcols _).trans rfl

theorem State.regs_rowAccess (s : State) (k row : Nat) (cs : List Column) : (s.rowAccess k row cs).regs = s.regs :=
  s.regs_sendPhys _ _ _

theorem State.regs_countHost (s : State) (k : Nat) (cs : List Column) : (s.countHost k cs).regs = s.regs := rfl

/-- An access of a row: its frames are counted, and no register. -/
theorem State.serveRow_one_regs (s : State) (k row : Nat) (a : BankAccess) :
    ∃ v, s.Counted v ∧ v.regs = s.regs ∧ s.serveRow k (row, [a]) = v.serveAccess k a := by
  refine ⟨_, ?_, ?_, rfl⟩
  · mono
  · simp only [apply_ite State.regs, State.regs_rowAccess, State.regs_countHost, ite_self]

/-! ### The pull that a read belongs to -/

theorem State.pullOf_setPull {p q : Pull} (h : s.pullOf q.hasp = some p) : (s.setPull q).pullOf q.hasp = some q := by
  have hbg : (s.setPull q).mbox.bg = s.mbox.bg.map (fun b => match b with
    | .pull x => if x.hasp = q.hasp then .pull q else b
    | _ => b) := rfl
  unfold State.pullOf at h ⊢
  rw [hbg]
  clear hbg
  generalize s.mbox.bg = l at h
  induction l with
  | nil => exact nomatch h
  | cons b r ih =>
    rw [List.findSome?_cons] at h
    rw [List.map_cons, List.findSome?_cons]
    cases b with
    | pull x =>
      by_cases hx : x.hasp = q.hasp
      · simp only [hx, ↓reduceIte]
      · simp only [hx, ↓reduceIte] at h ⊢
        exact ih h
    | _ => exact ih h

theorem State.regs_writePlaces (l : List (Place × BondData × Bool)) (s : State) : (s.writePlaces l).regs = s.regs := by
  induction l generalizing s with
  | nil => rfl
  | cons e r ih =>
    refine (ih (s.placeWrite e.1 e.2.1 e.2.2)).trans ?_
    rw [State.placeWrite, State.placeSet_frame]

theorem State.Stored.mbox {ws : List (Space × Nat)} {s t : State} (h : State.Stored ws s t) : t.mbox = s.mbox :=
  (congrArg State.mbox h.counted.same).trans rfl

theorem State.Stored.fab {ws : List (Space × Nat)} {s t : State} (h : State.Stored ws s t) : t.fab = s.fab :=
  (congrArg State.fab h.counted.same).trans rfl

theorem sublist_map_fst_zip {α β : Type} (l : List α) (m : List β) : ((List.zip l m).map Prod.fst).Sublist l := by
  induction l generalizing m with
  | nil => exact .slnil
  | cons a r ih =>
    cases m with
    | nil => exact List.nil_sublist _
    | cons b m => exact (ih m).cons_cons a

/-- A line of a pull that its bank takes now: its places hold it, and no other word and no register changes. -/
theorem State.serveRow_line {k row off seq : Nat} {g : Region} (ks : Bool) (vs : List (BondData × Bool)) (hg : s.regionAt off = some g) :
    let ps := s.linePlaces (g.loc off) g.detect
    let t := s.serveRow k (row, [.line ks off vs seq])
    State.Stored (ps.map (fun q => (q.space, q.word))) s t ∧ t.regs = s.regs ∧
      ∀ e ∈ List.zip ps vs, t.placeData e.1 = e.2.1 ∧ t.placeSyn e.1 = if e.2.2 = true then poisonMask else 0 := by
  intro ps t
  obtain ⟨w, hw, hregs, heq⟩ := s.serveRow_one_regs k row (.line ks off vs seq)
  have hwg : w.regionAt off = some g := by
    rw [hw.same, ← hg]
    rfl
  have hserve : w.serveAccess k (.line ks off vs seq) = w.writePlaces (List.zip ps vs) := by
    simp only [State.serveAccess, hwg, hw.linePlaces]
    rfl
  have hsub : ((List.zip ps vs).map (fun e => (e.1.space, e.1.word))).Sublist (ps.map (fun q => (q.space, q.word))) := by
    have hmap := (sublist_map_fst_zip ps vs).map (fun q : Place => (q.space, q.word))
    rwa [List.map_map] at hmap
  obtain ⟨hst, hall⟩ := w.writePlaces_spec (List.zip ps vs) (fun e he => s.linePlaces_space _ _ e.1 (List.of_mem_zip he).1)
    (hsub.nodup (s.nodup_linePlaces _ _))
  have ht : t = w.writePlaces (List.zip ps vs) := heq.trans hserve
  rw [ht]
  exact ⟨(hw.stored.trans hst).mono hsub.subset, (w.regs_writePlaces _).trans hregs, hall⟩

/-! ### A line that arrives, or is lost -/

/-- u is the state once line l of a pull has been taken: it stands at its place or waits, and the pull counts it. -/
def State.TakesLine (s u : State) (o : OutRead) (p : Pull) (l : Nat) (g : Region) (vs : List (BondData × Bool)) (bad : Nat) (late : Bool) : Prop :=
  (∃ q, u.pullOf o.hasp = some q ∧ q.arrived = p.arrived + 1 ∧ q.bad = p.bad + bad ∧ q.timedOut = (p.timedOut || late)) ∧
  (∀ x ∈ u.fab.outbound, x.tag ≠ o.tag) ∧
  (s.bankWaits (g.loc (p.dst + 128 * l)).bank = false →
    (∀ e ∈ List.zip (s.linePlaces (g.loc (p.dst + 128 * l)) g.detect) vs,
      u.placeData e.1 = e.2.1 ∧ u.placeSyn e.1 = if e.2.2 = true then poisonMask else 0) ∧
    SameMemoryBut ((s.linePlaces (g.loc (p.dst + 128 * l)) g.detect).map (fun q => (q.space, q.word))) s u) ∧
  (s.bankWaits (g.loc (p.dst + 128 * l)).bank = true →
    (u.bank (g.loc (p.dst + 128 * l)).bank).queue =
      (s.bank (g.loc (p.dst + 128 * l)).bank).queue ++ [.line false (p.dst + 128 * l) vs s.seq] ∧ SameMemory s u)

/-- The pull once line l has been taken. -/
def Pull.taken (p : Pull) (l : Nat) (vs : List (BondData × Bool)) (late : Bool) : Pull :=
  let bad := vs.any (·.2)
  { p with timedOut := p.timedOut || late, arrived := p.arrived + 1, bad := p.bad + b2n bad,
           firstBad := if bad then some (match p.firstBad with | some f => min f l | none => l) else p.firstBad }

/-- The state in which the read is no longer outbound and its pull has counted the line. -/
def State.lineCounted (s : State) (o : OutRead) (q : Pull) : State :=
  ({ s with fab := { s.fab with outbound := s.fab.outbound.filter (fun x => x.tag != o.tag) } } : State).setPull q

theorem State.outboundDone_line {o : OutRead} {p : Pull} {l : Nat} {g : Region} (hwhat : o.what = .line l) (hp : s.pullOf o.hasp = some p)
    (hg : s.regionAt (p.dst + 128 * l) = some g) (vs : List (BondData × Bool)) (late : Bool) :
    s.outboundDone o vs late = ((s.lineCounted o (p.taken l vs late)).bankAccess (g.loc (p.dst + 128 * l)).bank
      (.line false (p.dst + 128 * l) vs s.seq)).bump := by
  have hp' : ({ s with fab := { s.fab with outbound := s.fab.outbound.filter (fun x => x.tag != o.tag) } } : State).pullOf o.hasp = some p := hp
  have hg' : (s.lineCounted o (p.taken l vs late)).regionAt (p.dst + 128 * l) = some g := hg
  simp only [State.outboundDone, hp', State.pullArrive, hwhat]
  show (s.lineCounted o (p.taken l vs late)).pullWrite _ l vs = _
  simp only [State.pullWrite, hg']
  rfl

theorem State.linePlaces_congr {s t : State} (h : t.banks = s.banks) (l : Loc) (detect : Bool) : t.linePlaces l detect = s.linePlaces l detect := by
  simp only [State.linePlaces, State.rowPlace, State.stackWordNo, State.bank, h]

theorem State.takesLine_outboundDone {v : State} {k : Clock} {b : Plumb} {r : Regs} {x : Sparse Nat} {o : OutRead} {p : Pull} {l : Nat} {g : Region}
    (hf : v = { s with clk := k, plumb := b, regs := r, crossing := x }) (hw : ∀ n, v.bankWaits n = s.bankWaits n)
    (hwhat : o.what = .line l) (hp : s.pullOf o.hasp = some p) (hhasp : p.hasp = o.hasp)
    (hg : s.regionAt (p.dst + 128 * l) = some g) (vs : List (BondData × Bool)) (late : Bool) :
    s.TakesLine (v.outboundDone o vs late) o p l g vs (b2n (vs.any (·.2))) late ∧ (v.outboundDone o vs late).regs = r := by
  have hpv : v.pullOf o.hasp = some p := hf ▸ hp
  have hgv : v.regionAt (p.dst + 128 * l) = some g := hf ▸ hg
  rw [State.outboundDone_line hwhat hpv hgv]
  have hpull : (v.lineCounted o (p.taken l vs late)).pullOf o.hasp = some (p.taken l vs late) := by
    have hown : (p.taken l vs late).hasp = o.hasp := hhasp
    rw [← hown] at hpv ⊢
    exact State.pullOf_setPull hpv
  have hout : ∀ y ∈ (v.lineCounted o (p.taken l vs late)).fab.outbound, y.tag ≠ o.tag := fun y hy => by
    simpa using (List.mem_filter.1 hy).2
  have hmem : SameMemory s (v.lineCounted o (p.taken l vs late)) :=
    sameMemory_of_stores ((congrArg State.stack hf).trans rfl) ((congrArg State.bg hf).trans rfl) ((congrArg State.mortar hf).trans rfl)
      ((congrArg State.hasps hf).trans rfl)
  have hcount : ∃ q, (v.lineCounted o (p.taken l vs late)).pullOf o.hasp = some q ∧ q.arrived = p.arrived + 1 ∧
      q.bad = p.bad + b2n (vs.any (·.2)) ∧ q.timedOut = (p.timedOut || late) := ⟨_, hpull, rfl, rfl, rfl⟩
  cases hwait : s.bankWaits (g.loc (p.dst + 128 * l)).bank with
  | true =>
    rw [State.bankAccess_waits (s := v.lineCounted o (p.taken l vs late)) _ ((hw _).trans hwait)]
    refine ⟨⟨hcount, hout, fun h => absurd (hwait.symm.trans h) (by decide), fun _ => ⟨?_, ?_⟩⟩, ?_⟩
    · have hbanks : v.banks = s.banks := (congrArg State.banks hf).trans rfl
      have hseq : v.seq = s.seq := (congrArg State.seq hf).trans rfl
      refine (State.queue_enqueueBank _ _ _).trans ?_
      show (Sparse.get Bank.init v.banks _).queue ++ _ = _
      rw [hbanks, hseq]
      rfl
    · exact hmem.trans (sameMemory_of_stores rfl rfl rfl rfl)
    · exact (congrArg State.regs hf).trans rfl
  | false =>
    rw [State.bankAccess_serves (s := v.lineCounted o (p.taken l vs late)) _ ((hw _).trans hwait)]
    obtain ⟨hst, hregs, hall⟩ := State.serveRow_line (s := v.lineCounted o (p.taken l vs late)) (k := (g.loc (p.dst + 128 * l)).bank)
      (row := ((v.lineCounted o (p.taken l vs late)).accessLoc (.line false (p.dst + 128 * l) vs v.seq)).row) (seq := v.seq) false vs hgv
    have hps : (v.lineCounted o (p.taken l vs late)).linePlaces (g.loc (p.dst + 128 * l)) g.detect =
        s.linePlaces (g.loc (p.dst + 128 * l)) g.detect := State.linePlaces_congr ((congrArg State.banks hf).trans rfl) _ _
    rw [hps] at hst hall
    generalize (v.lineCounted o (p.taken l vs late)).serveRow _ _ = u at hst hregs hall ⊢
    refine ⟨⟨?_, ?_, fun _ => ⟨hall, fun sp w hsp hne => (hst.words sp w hsp hne).trans (hmem sp w hsp)⟩,
      fun h => absurd (hwait.symm.trans h) (by decide)⟩, ?_⟩
    · obtain ⟨q, hq, hrest⟩ := hcount
      refine ⟨q, Eq.trans ?_ hq, hrest⟩
      exact congrArg (fun m : Mailbox => State.pullOf { s with mbox := m } o.hasp) hst.mbox
    · intro y hy
      exact hout y (by rw [← hst.fab]; exact hy)
    · exact hregs.trans ((congrArg State.regs hf).trans rfl)

/-! ### What the commands do -/

theorem State.bankWaits_congr {v : State} {k : Clock} {b : Plumb} {r : Regs} {x : Sparse Nat}
    (hf : v = { s with clk := k, plumb := b, regs := r, crossing := x }) (hesr : b.esr = s.plumb.esr) (hst : r.stopped = s.regs.stopped)
    (n : Nat) : v.bankWaits n = s.bankWaits n := by
  rw [hf]
  simp only [State.bankWaits, State.bankOpen, State.bankHeld, State.runs, hesr, hst]
  rfl

theorem State.crossIrq_frame (s : State) (c : Nat) (i : Irq) :
    ∃ r x, s.crossIrq c i = { s with regs := r, crossing := x } ∧ r.stopped = s.regs.stopped := by
  obtain ⟨r, x, hr, hst⟩ := State.cross_regs_frame s c (event := id) fun u => ⟨u.regs, rfl, rfl⟩
  refine ⟨_, x, (congrArg (State.irq · i) hr).trans rfl, hst⟩

theorem State.regs_irq_congr {s t : State} (h : t.regs = s.regs) (i : Irq) : (t.irq i).regs = (s.irq i).regs :=
  congrArg (fun r : Regs => { r with irqStatus := r.irqStatus ||| BitVec.ofNat 20 (2 ^ i.bit) }) h

theorem State.regs_overrun_congr {s t : State} (h : t.regs = s.regs) (d : Nat) : (t.overrun d).regs = (s.overrun d).regs := by
  unfold State.overrun
  simp only [h]
  split
  · rfl
  · exact State.regs_irq_congr rfl _

theorem State.regs_crossIrq_congr {s t : State} (hregs : t.regs = s.regs) (hcross : t.crossing = s.crossing) (c : Nat) (i : Irq) :
    (t.crossIrq c i).regs = (s.crossIrq c i).regs := by
  refine State.regs_irq_congr ?_ i
  have hruns : t.runs 2 = s.runs 2 := by rw [State.runs, State.runs, hregs]
  simp only [State.cross, hruns, hcross]
  split
  · exact hregs
  · split
    · exact hregs
    · exact State.regs_overrun_congr hregs 2

theorem State.fabResponse_late {tag : BitVec 10} {use : State → OutRead → State}
    (h : s.fab.outbound.find? (fun o => o.tag == tag && decide (s.now < o.until_)) = none) : s.fabResponse tag use = s.countLate := by
  rw [State.fabResponse, h]

theorem State.fabResponse_outbound {tag : BitVec 10} {use : State → OutRead → State} {o : OutRead}
    (h : s.fab.outbound.find? (fun o => o.tag == tag && decide (s.now < o.until_)) = some o) :
    s.fabResponse tag use = (use s o).pumpPulls pumpFuel := by
  rw [State.fabResponse, h]

/-- A line that arrives clean is taken as it is delivered. -/
theorem State.pullLineIn_clean (s : State) (o : OutRead) {data : LineData} {chk : LineChk} (h : cleanLine data chk (List.range 8)) :
    s.pullLineIn o data chk = s.outboundDone o ((List.range 8).map (fun i => (lineWord data i, false))) false := by
  simp only [State.pullLineIn, State.rxWords_of_cleanLine _ _ _ _ _ h, List.map_map]
  rfl

end Sys2Proof.Machine

open Sys2Proof Sys2Proof.Machine

/-- Settles O22: a line that is answered or lost is taken to its bank, and a late response is counted. -/
theorem pulledLinesAreStored : Obligations.PulledLinesAreStored := by
  intro s tag data chk stat at_ l o p g
  have late (n : Nat) {use : State → OutRead → State} (hr : s.fabRuns = true)
      (hnone : (s.touch at_).fab.outbound.find? (fun x => x.tag == tag && decide ((s.touch at_).now < x.until_)) = none) :
      (Host.Outcome.next (if s.fabRuns = true then ((s.touch at_).countFab n).fabResponse tag use else s) : Host.Outcome State Fault Refusal) =
        .next ((s.touch at_).countFab n).countLate :=
    congrArg Host.Outcome.next ((if_pos hr).trans (State.fabResponse_late (s := (s.touch at_).countFab n) hnone))
  refine ⟨fun hr => ⟨congrArg Host.Outcome.next (if_neg (Bool.eq_false_iff.1 hr)), congrArg Host.Outcome.next (if_neg (Bool.eq_false_iff.1 hr))⟩,
    fun hr hnone => ⟨late 2 hr hnone, late 1 hr hnone, fun hrun n => State.countLate_of_runs (s := (s.touch at_).countFab n) hrun⟩,
    fun hwhat hp hhasp hg => ⟨fun hr hfind => ⟨fun hclean => ?arrived, ?lost⟩, fun hfind => ?timeout⟩⟩
  case arrived =>
    have h := State.takesLine_outboundDone (s := s) (v := (s.touch at_).countFab 2) (o := o) rfl (fun _ => rfl) hwhat hp hhasp hg
      ((List.range 8).map (fun i => (lineWord data i, false))) false
    have hdo := State.fabResponse_outbound (s := (s.touch at_).countFab 2) (use := fun s o => s.pullLineIn o data chk) hfind
    rw [State.pullLineIn_clean _ _ hclean] at hdo
    have hgood : b2n (((List.range 8).map (fun i => (lineWord data i, false))).any (·.2)) = 0 := by
      simp [b2n]
    rw [hgood] at h
    exact ⟨_, congrArg Host.Outcome.next ((if_pos hr).trans hdo), h.1⟩
  case lost =>
    obtain ⟨r, x, hframe, hst⟩ := ((s.touch at_).countFab 1).crossIrq_frame sourceFab .remoteError
    have h := State.takesLine_outboundDone (s := s) (o := o) hframe (State.bankWaits_congr hframe rfl hst) hwhat hp hhasp hg lostPullLine false
    exact ⟨_, congrArg Host.Outcome.next ((if_pos hr).trans (State.fabResponse_outbound (s := (s.touch at_).countFab 1) hfind)), h.1,
      h.2.trans ((congrArg State.regs hframe).symm.trans (State.regs_crossIrq_congr (s := s) (t := (s.touch at_).countFab 1) rfl rfl _ _))⟩
  case timeout =>
    obtain ⟨r, x, hframe, hst⟩ := s.crossIrq_frame sourceFab .remoteTimeout
    have h := State.takesLine_outboundDone (s := s) (o := o) hframe (State.bankWaits_congr hframe rfl hst) hwhat hp hhasp hg lostPullLine true
    have hdo : exec (.remoteTimeout tag) s =
        .next (((s.crossIrq sourceFab .remoteTimeout).outboundDone o lostPullLine true).pumpPulls pumpFuel) := by
      show Host.Outcome.next (match s.fab.outbound.find? (fun o => o.tag == tag && decide (o.until_ ≤ s.now)) with
        | some o => ((s.crossIrq sourceFab .remoteTimeout).outboundDone o lostPullLine true).pumpPulls pumpFuel
        | none => s) = _
      rw [hfind]
    exact ⟨_, hdo, h.1, h.2.trans (congrArg State.regs hframe).symm⟩

end

section
/-!
PROOF. Run control of Warden (O59): the instructions HALT, RESUME, STEP, DB_BKPT and DB_WATCH with and without RUN scope, the halt that
Warden makes, and the hits of comparators (R541, R545 to R547).
-/

namespace Sys2Proof.Machine

/-! ### What leaves the debug port as it is -/

theorem State.Counted.dbg {s t : State} (h : s.Counted t) : t.dbg = s.dbg := by rw [h.same]

@[simp] theorem State.placeWrite_dbg (s : State) (p d b) : (s.placeWrite p d b).dbg = s.dbg := by
  unfold State.placeWrite State.placeSet State.stkSet
  repeat' split
  all_goals rfl

@[simp] theorem State.mergePlace_dbg (s : State) (w p d b ben) : (s.mergePlace w p d b ben).dbg = s.dbg := by
  unfold State.mergePlace
  split
  · rfl
  · split
    · simp
    · dsimp only
      rw [State.placeWrite_dbg]
      refine State.Counted.dbg (s := s) ?_
      split
      · exact .refl _
      · exact State.counted_account (.refl _)
      · exact State.counted_pushLog (State.counted_sitePoison (.refl _))
      · exact State.counted_account (.refl _)

@[simp] theorem State.haspPut_dbg (s : State) (h o bs) : (s.haspPut h o bs).dbg = s.dbg :=
  List.foldlRecOn (motive := fun t : State => t.dbg = s.dbg) _ _ rfl fun _ ht _ _ => (State.mergePlace_dbg _ _ _ _ _ _).trans ht

@[simp] theorem State.answerHasp_dbg (s : State) (h code d bs) : (s.answerHasp h code d bs).dbg = s.dbg := by
  obtain ⟨y, hy⟩ := State.endAnswer_eq ((s.haspPut h 0x840 bs).haspPut h 0x800 (s.header h code d bs.length)) h
  rw [State.answerHasp_eq, hy]
  simp

@[simp] theorem State.sweepBad_dbg (s : State) : s.sweepBad.dbg = s.dbg := by
  obtain ⟨x, hx⟩ := s.sweeps_sweepBad.causes
  rw [hx]

@[simp] theorem State.finish_dbg (s : State) (h st d bs) : (s.finish h st d bs).dbg = s.dbg := by
  unfold State.finish
  dsimp only
  split
  · rfl
  · simp [State.complete]

@[simp] theorem State.foPush_dbg (s : State) (o) : (s.foPush o).dbg = s.dbg := by
  unfold State.foPush
  split <;> rfl

@[simp] theorem State.pullIssue_dbg (s : State) (p what) : (s.pullIssue p what).dbg = s.dbg := by
  unfold State.pullIssue
  dsimp only
  split <;> simp

@[simp] theorem State.releaseNot0_dbg (s : State) (i value scope agent) : (s.releaseNot0 i value scope agent).dbg = s.dbg := by
  unfold State.releaseNot0
  split
  · rfl
  · obtain ⟨l, a, n, h⟩ := s.release_frame i value scope agent
    rw [h]

@[simp] theorem State.pullEnd_dbg (s : State) (p) : (s.pullEnd p).dbg = s.dbg := by
  unfold State.pullEnd
  rw [State.finish_dbg]
  split
  · exact State.releaseNot0_dbg _ _ _ _ _
  · rfl

theorem State.pullNext_dbg {s t : State} {p : Pull} (h : s.pullNext p = some t) : t.dbg = s.dbg := by
  unfold State.pullNext at h
  repeat' split at h
  all_goals
    simp only [Option.some.injEq, reduceCtorEq] at h
  all_goals
    rw [← h]
    simp [State.setPull]

@[simp] theorem State.pumpPulls_dbg (s : State) (n : Nat) : (s.pumpPulls n).dbg = s.dbg := by
  induction n generalizing s with
  | zero => rfl
  | succ n ih =>
    unfold State.pumpPulls
    split
    · rfl
    · split
      · next h =>
        obtain ⟨p, -, hp⟩ := List.exists_of_findSome?_eq_some h
        exact (ih _).trans (State.pullNext_dbg hp)
      · rfl

theorem State.resumeWarden_dbg {s : State} (h : s.dbg.halted = true) : s.resumeWarden.dbg = { s.dbg with halted := false } := by
  rw [State.resumeWarden, if_pos h, State.pumpPulls_dbg, State.sweepBad_dbg]

/-! ### Updates of the test access port -/

variable {s : State} {ir : BitVec 8} {v : Nat}

theorem State.tapCross_of_stopped (h : s.runs 2 = false) :
    s.tapCross ir v = { s.selects ir v with waits := s.waits ++ [.update ir v] } :=
  if_neg ((Bool.not_eq_true _).mpr h)

theorem State.tapCross_of_runs (h : s.runs 2 = true) : s.tapCross ir v = (s.selects ir v).tapUpdate ir.toNat v := if_pos h

/-- Without RUN scope an update of run control only selects its instruction. -/
theorem State.tapCross_without_run (h : s.runs 2 = true) (hd : s.debugOpen 2 = false) (hir : ir = 0x20 ∨ ir = 0x21 ∨ ir = 0x22) :
    s.tapCross ir v = s.selects ir v := by
  have hd' : (s.selects ir v).debugOpen 2 = false := hd
  rw [State.tapCross_of_runs h]
  obtain rfl | rfl | rfl := hir <;> exact if_neg ((Bool.not_eq_true _).mpr hd')

/-- With RUN scope it takes effect. -/
theorem State.tapCross_dbRun (h : s.runs 2 = true) (hd : s.debugOpen 2 = true) :
    s.tapCross 0x20 v = (s.selects 0x20 v).dbRun (BitVec.ofNat 4 v) := (State.tapCross_of_runs h).trans (if_pos hd)

theorem State.tapCross_setBkpt (h : s.runs 2 = true) (hd : s.debugOpen 2 = true) :
    s.tapCross 0x21 v = (s.selects 0x21 v).setBkpt v := (State.tapCross_of_runs h).trans (if_pos hd)

theorem State.tapCross_setWatch (h : s.runs 2 = true) (hd : s.debugOpen 2 = true) :
    s.tapCross 0x22 v = (s.selects 0x22 v).setWatch v := (State.tapCross_of_runs h).trans (if_pos hd)

theorem State.dbRun_halt (h : s.dbg.halted = false) : s.dbRun 1 = { s with dbg := { s.dbg with haltReq := some 1 } } :=
  if_neg ((Bool.not_eq_true _).mpr h)

theorem State.dbRun_step (h : s.dbg.halted = true) :
    s.dbRun 4 = { s with dbg := { s.dbg with haltCause := 2, pc := Config.wardenPc s.free }, free := s.free + 1 } := if_pos h

/-- The comparator that an update of DB_BKPT sets. -/
theorem State.setBkpt_of_reserved (h : bits v 7 4 = 0) : s.setBkpt v = { s with dbg := { s.dbg with
    bkpts := Sparse.set none s.dbg.bkpts (bits v 2 0) (if bit v 3 then some (BitVec.ofNat 32 (bits v 39 8)) else none) } } :=
  if_neg (not_not_intro h)

/-- The comparator that an update of DB_WATCH sets. -/
theorem State.setWatch_of_reserved (h : bits v 7 5 = 0) (h' : bits v 15 12 = 0) (hlo : 2 ≤ bits v 11 8) (hhi : bits v 11 8 ≤ 12) :
    s.setWatch v = { s with dbg := { s.dbg with
      watches := Sparse.set none s.dbg.watches (bits v 1 0) (if bit v 2 then some (BitVec.ofNat 48 v) else none) } } :=
  if_neg (by omega)

/-! ### A hit of a comparator -/

theorem State.haltAt_now {c : BitVec 4} (h : s.recordBusy = false) :
    s.haltAt c = { s with dbg := { s.dbg with halted := true, haltCause := c, haltReq := none } } := if_pos (by simp [h])

theorem State.haltAt_later {c : BitVec 4} (h : s.recordBusy = true) :
    s.haltAt c = { s with dbg := { s.dbg with haltReq := some c } } := if_neg (by simp [h])

theorem State.hit_enabled {c : BitVec 4} {i : Nat} (h : s.dbg.halted = false) :
    s.hit true c i = ({ s with dbg := { s.dbg with hitIndex := BitVec.ofNat 3 i } } : State).haltAt c := if_pos (by simp [h])

end Sys2Proof.Machine

open Sys2Proof Sys2Proof.Machine

/-- Settles O59: each update waits for CCLK, only selects its instruction, or takes effect, as the clock and the scope allow. -/
theorem runControlNeedsItsScope : Obligations.RunControlNeedsItsScope := by
  unfold Obligations.RunControlNeedsItsScope
  refine ⟨?_, ?_, ?_, ?_, ?_, ?_⟩
  · intro s h waits
    have hw : ∀ ir v, s.tapCross ir v = waits ir v := fun _ _ => State.tapCross_of_stopped h
    exact ⟨congrArg _ (hw _ _), congrArg _ (hw _ _), congrArg _ (hw _ _), fun _ => congrArg _ (hw _ _), fun _ => congrArg _ (hw _ _)⟩
  · intro s h hd
    have hrun : ∀ v, s.tapCross 0x20 v = s.selects 0x20 v := fun _ => State.tapCross_without_run h hd (.inl rfl)
    exact ⟨congrArg _ (hrun _), congrArg _ (hrun _), congrArg _ (hrun _),
      fun _ => congrArg _ (State.tapCross_without_run h hd (.inr (.inl rfl))),
      fun _ => congrArg _ (State.tapCross_without_run h hd (.inr (.inr rfl)))⟩
  · intro s h hd dbg
    refine ⟨fun hh => ?_, fun hh => ⟨_, congrArg Host.Outcome.next (State.tapCross_dbRun h hd), ?_⟩, fun hh => ?_, fun v hv => ?_, fun v h1 h2 h3 h4 => ?_⟩
    · exact congrArg Host.Outcome.next ((State.tapCross_dbRun h hd).trans (State.dbRun_halt (s := s.selects 0x20 1) hh))
    · exact State.resumeWarden_dbg (s := s.selects 0x20 2) hh
    · exact congrArg Host.Outcome.next ((State.tapCross_dbRun h hd).trans (State.dbRun_step (s := s.selects 0x20 4) hh))
    · exact ⟨_, congrArg Host.Outcome.next ((State.tapCross_setBkpt h hd).trans (State.setBkpt_of_reserved hv)), rfl,
        Sparse.get_set_self _ _ _ _, fun i hi => Sparse.get_set_ne _ _ _ hi⟩
    · refine ⟨_, congrArg Host.Outcome.next ((State.tapCross_setWatch h hd).trans (State.setWatch_of_reserved h1 h2 h3 h4)), rfl, ?_,
        fun i hi => Sparse.get_set_ne _ _ _ hi⟩
      refine (Sparse.get_set_self _ _ _ _).trans ?_
      rw [BitVec.ofNat_toNat, BitVec.setWidth_eq]
  · intro s c hc
    have hexec : exec .wardenHalted s = .next (if s.recordBusy then s else s.haltAt c) := by
      change Host.Outcome.next (match s.dbg.haltReq with | some c => _ | none => _) = _
      rw [hc]
    refine ⟨fun h => hexec.trans (congrArg _ ?_), fun h => hexec.trans (congrArg _ (if_pos h))⟩
    exact (if_neg (by simp [h])).trans (State.haltAt_now h)
  · intro s v h1 h2 h4
    unfold State.dbRun
    split
    · next h => exact absurd (BitVec.eq_of_toNat_eq h) h1
    · next h => exact absurd (BitVec.eq_of_toNat_eq h) h2
    · next h => exact absurd (BitVec.eq_of_toNat_eq h) h4
    · rfl
  · intro s i hh
    have hnow : ∀ c, s.recordBusy = false → s.hit true c i =
        { s with dbg := { s.dbg with hitIndex := BitVec.ofNat 3 i, halted := true, haltCause := c, haltReq := none } } :=
      fun c h => (State.hit_enabled hh).trans (State.haltAt_now h)
    refine ⟨fun hi he h => ?_, fun hi he h => ?_, fun hi he => ?_, fun hi he h => ?_⟩
    · exact guard_eq_next.2 ⟨decide_eq_true hi, he ▸ (hnow 3 h).symm⟩
    · exact guard_eq_next.2 ⟨decide_eq_true hi, he ▸ ((State.hit_enabled hh).trans (State.haltAt_later h)).symm⟩
    · exact guard_eq_next.2 ⟨decide_eq_true hi, ((congrArg (fun e => s.hit e.isSome 3 i) he).trans (if_neg (nomatch ·))).symm⟩
    · exact guard_eq_next.2 ⟨decide_eq_true hi, he ▸ (hnow 4 h).symm⟩

end

section
/-!
PROOF. Temperature tiers (O37): a read of the sensors decides a higher tier at once and counts cool ticks, and 500 of them lower the next
tier by one (R108, R215, R216).
-/

namespace Sys2Proof.Machine

variable {s : State} {d : Nat} {ts : List (BitVec 16)}

/-- The die after its sensors were read, for the bound `cool` on both temperatures (R215, R216). -/
def Die.sensed (d : Die) (ts : List (BitVec 16)) (want : Nat) (cool : Bool) : Die :=
  { d with sensors := ts, nextTier := max d.nextTier want, read := true,
           below := if decide (0 < d.tier) && cool then (if d.read then d.below else d.below + 1) else 0 }

/-- A read below 110 °C while CCLK runs: the die, the count of early rises and the frame that was sent. -/
theorem State.tierRead_cool (hrun : s.runs 2 = true) (hcool : tooHot ts = false) :
    ∃ (cool : Bool) (n : BitVec 32), s.tierRead d ts =
      (({ s with regs := { s.regs with tierEarly := n } } : State).setDie d ((s.die d).sensed ts
        (tierOf [({ s.die d with sensors := ts } : Die).temp * 2250000, s.predicted { s.die d with sensors := ts }]) cool)).sent (16 * d) 9 0 0 := by
  unfold State.tierRead
  simp only [hcool, Bool.false_and, Bool.false_eq_true, if_false, Bool.and_assoc]
  split
  · rw [State.cross_of_runs (s := s.setDie d _) hrun]
    exact ⟨_, satAdd s.regs.tierEarly 1, rfl⟩
  · exact ⟨_, s.regs.tierEarly, rfl⟩

theorem State.tierLower_of_cool (h : 500 ≤ (s.die d).below) (ht : 0 < (s.die d).tier) (hn : (s.die d).nextTier = (s.die d).tier) :
    s.tierLower d = s.setDie d { s.die d with nextTier := (s.die d).tier - 1, below := 0 } := if_pos ⟨h, ht, hn⟩

theorem State.tierLower_of_early (h : (s.die d).below < 500) : s.tierLower d = s := if_neg fun hc => Nat.not_le.2 h hc.1

theorem State.die_setDie_ne {x : Die} {e : Nat} (h : e ≠ d) : (s.setDie d x).die e = s.die e := (s.die_setDie d x e).trans (if_neg h)

end Sys2Proof.Machine

open Sys2Proof Sys2Proof.Machine

/-- Settles O37: the two commands through `State.tierRead_cool` and `State.tierLower`. -/
theorem tiersRiseAtOnceAndFallSlowly : Obligations.TiersRiseAtOnceAndFallSlowly := by
  unfold Obligations.TiersRiseAtOnceAndFallSlowly
  refine ⟨?_, ?_, ?_⟩
  · intro s d t0 t1 t2 t3 hd hserv hesr h1 h2 hcool x
    obtain ⟨cool, n, hread⟩ := State.tierRead_cool (d := d) h2 hcool
    refine ⟨_, guard_eq_next.2 ⟨decide_eq_true hd, ((if_pos ?_).trans hread).symm⟩, ?_⟩
    · rw [hserv, hesr, h1]
      rfl
    generalize hz : (s.die d).sensed _ _ _ = z
    have hdie : ((({ s with regs := { s.regs with tierEarly := n } } : State).setDie d z).sent (16 * d) 9 0 0).die d = z :=
      State.die_setDie_self _ _ _
    rw [hdie, ← hz]
    refine ⟨rfl, rfl, rfl, fun hr => ?_, rfl, fun ht => ?_, fun e he => State.die_setDie_ne (s := { s with regs := _ }) he, rfl⟩
    · rw [Die.sensed, hr]
      dsimp only
      split
      · exact .inl rfl
      · exact .inr rfl
    · rw [Die.sensed, ht]
      rfl
  · intro s d hd hserv hb ht hn
    have h := State.tierLower_of_cool hb ht hn
    refine ⟨_, guard_eq_next.2 ⟨decide_eq_true hd, ((if_pos ?_).trans h).symm⟩, ?_⟩
    · rw [hserv]
      rfl
    rw [State.die_setDie_self]
    exact ⟨rfl, rfl, rfl, fun e he => State.die_setDie_ne he, rfl⟩
  · intro s d hd hb
    refine guard_eq_next.2 ⟨decide_eq_true hd, ?_⟩
    rw [State.tierLower_of_early hb, ite_self]

end

section
/-!
PROOF. Challenges, responses, lockouts and the ends of a session (O58): each command through the operation of the debug port that it names
(R542 to R544).
-/

namespace Sys2Proof.Machine

variable {s : State}

/-! ### The updates of DB_CHALLENGE and DB_RESPONSE -/

theorem State.tapCross_challenge (hmode : s.start.mode ≠ .reset) (h : s.runs 2 = true) :
    s.tapCross 0x10 1 = (s.selects 0x10 1).challengeRequest :=
  (State.tapCross_of_runs h).trans (if_pos (by simpa [State.selects, bit] using hmode))

theorem State.tapCross_no_challenge (h : s.runs 2 = true) : s.tapCross 0x10 0 = s.selects 0x10 0 := by
  rw [State.tapCross_of_runs h]
  exact if_neg (c := (bit 0 0 && s.start.mode != .reset) = true) (t := (s.selects 0x10 0).challengeRequest) (by simp [bit])

theorem State.tapCross_response (hmode : s.start.mode ≠ .reset) (h : s.runs 2 = true) (r : BitVec 1568) :
    s.tapCross 0x11 r.toNat = (s.selects 0x11 r.toNat).response r := by
  refine (State.tapCross_of_runs h).trans ((if_pos (by simpa [State.selects] using hmode)).trans ?_)
  rw [BitVec.ofNat_toNat, BitVec.setWidth_eq]

theorem State.response_of_busy (h : s.dbg.busy ≠ .idle) (r : BitVec 1568) : s.response r = s := if_pos h

theorem State.response_of_refused (h : s.dbg.busy = .idle) {r : BitVec 1568} (hr : s.responseRefused r = true) :
    s.response r = s.refuseResponse := (if_neg (not_not_intro h)).trans (if_pos hr)

theorem State.response_of_accepted (h : s.dbg.busy = .idle) {r : BitVec 1568} (hr : s.responseRefused r = false) :
    s.response r = { s with dbg := { s.dbg with busy := .verify r } } :=
  (if_neg (not_not_intro h)).trans (if_neg ((Bool.not_eq_true _).mpr hr))

theorem State.lockedOut_iff : s.lockedOut = true ↔ ∃ t, s.dbg.lockout = some t ∧ s.now < t := by
  unfold State.lockedOut
  cases s.dbg.lockout with
  | none => simp
  | some t => simp

/-- What refuses a response (R543, R539). -/
theorem State.responseRefused_iff (r : BitVec 1568) :
    s.responseRefused r = true ↔ (s.dbg.chalReady = false ∨ s.dbg.chalAt + 1000000000 ≤ s.now ∨ s.regs.noUnlock = true ∨
      s.dbg.refused = true ∨ (∃ t0, s.dbg.lockout = some t0 ∧ s.now < t0) ∨ bits r.toNat 31 4 ≠ 0) := by
  simp only [State.responseRefused, Bool.or_eq_true, Bool.not_eq_true', decide_eq_true_eq, State.lockedOut_iff, or_assoc]
  rfl

/-! ### The end of a session -/

/-- A session that ends changes the debug port, and answers requests of the mailbox that Warden has kept. -/
theorem State.endSession_frame (s : State) : ∃ h m r, s.endSession = { s.closeSession with hasps := h, mbox := m, regs := r } := by
  obtain ⟨x, hx⟩ := s.closeSession.sweeps_sweepBad.causes
  exact ⟨_, _, _, hx⟩

/-! ### The draw and the verification -/

/-- A draw that ends outside a start (R542). -/
theorem State.challengeDrawn_eq {bs : List Bool} {w : Bool} (hb : s.dbg.busy = .draw w) (hw : (w && s.sampling) = false)
    (hm : s.start.mode ≠ .starting) :
    s.challengeDrawn bs =
      if ((entropySequence bs).1.rct || (entropySequence bs).1.apt) = true then
        ({ s with dbg := { s.dbg with busy := .idle } } : State).challengeFail (entropySequence bs).1
      else { s with dbg := { s.dbg with busy := .idle, chalReady := true,
                                        challenge := BitVec.ofNat 256 (leNat ((sha384 (entropySequence bs).2).take 32)), chalAt := s.now } } := by
  unfold State.challengeDrawn
  rw [hb]
  refine if_neg ?_
  rw [hw, Bool.false_or, beq_iff_eq]
  exact hm

theorem State.challengeDrawn_of_starting {bs : List Bool} (hm : s.start.mode = .starting) : s.challengeDrawn bs = s := by
  unfold State.challengeDrawn
  split
  · exact if_pos (by rw [hm, Bool.or_eq_true]; exact .inr rfl)
  · rfl

/-- A verification that ends without a refusal (R543). -/
theorem State.verified_eq {r : BitVec 1568} (hm : s.start.mode ≠ .reset) (hb : s.dbg.busy = .verify r) (hr : s.responseRefused r = false) :
    s.verified = if s.unlockOk r = true then
        ({ s with dbg := { s.dbg with busy := .idle, chalReady := false, unlockRes := 1, sessionOn := true,
                                      scope := BitVec.ofNat 4 (bits r.toNat 3 0), sessionTick := s.clk.tick },
                  regs := { s.regs with unlockCnt := satAdd s.regs.unlockCnt 1 } } : State).irq .debug
      else { s with dbg := { s.dbg with busy := .idle, chalReady := false, unlockRes := 2, lockout := some (s.now + lockoutLife) },
                    regs := { s.regs with failCnt := satAdd s.regs.failCnt 1 } } := by
  unfold State.verified
  rw [if_neg hm, hb]
  exact if_neg ((Bool.not_eq_true _).mpr hr)

theorem State.irq_debug_status (s : State) : (s.irq .debug).regs.irqStatus.getLsbD 19 = true := by
  simp [State.irq, Irq.bit]

theorem State.challengeExpire_eq (h : s.dbg.chalReady = true) : s.challengeExpire =
    if s.dbg.chalAt + 1000000000 ≤ s.now then { s with dbg := { s.dbg with chalReady := false } } else s := by
  unfold State.challengeExpire
  simp only [h, Bool.true_and, decide_eq_true_eq]
  rfl

theorem State.lockoutEnd_eq {t : Nat} (h : s.dbg.lockout = some t) :
    s.lockoutEnd = if t ≤ s.now then { s with dbg := { s.dbg with lockout := none } } else s := by
  unfold State.lockoutEnd
  rw [h]

end Sys2Proof.Machine

open Sys2Proof Sys2Proof.Machine

/-- Settles O58: the updates of the port, the ends of a draw, of a challenge, of a verification and of a lockout, and the two ends of a
session. -/
theorem challengesOpenAndEndSessions : Obligations.ChallengesOpenAndEndSessions := by
  unfold Obligations.ChallengesOpenAndEndSessions
  refine ⟨?_, ?_, ?_, ?_, ?_, ?_, ?_, ?_⟩
  · intro s hm h
    refine ⟨?_, congrArg Host.Outcome.next (State.tapCross_no_challenge h), ?_, fun r => State.responseRefused_iff r, ?_⟩
    · intro u
      have hu : exec (.dbChallenge true) s = _ := congrArg Host.Outcome.next (State.tapCross_challenge hm h)
      exact ⟨fun hb => hu.trans (congrArg _ (if_pos hb)), fun hb => hu.trans (congrArg _ (if_neg hb))⟩
    · intro r u
      have hu : exec (.dbResponse r) s = _ := congrArg Host.Outcome.next (State.tapCross_response hm h r)
      refine ⟨fun hb => ?_, fun hb => ⟨fun hr => ?_, fun hr => ?_⟩⟩
      · exact hu.trans (congrArg _ (State.response_of_busy (s := u) hb r))
      · exact hu.trans (congrArg _ (State.response_of_refused (s := u) hb hr))
      · exact hu.trans (congrArg _ (State.response_of_accepted (s := u) hb hr))
    · obtain ⟨x, m, r, he⟩ := s.endSession_frame
      refine ⟨_, congrArg Host.Outcome.next ((if_pos ?_).trans he), rfl, rfl, rfl, rfl, rfl, rfl, rfl, rfl⟩
      rw [h, Bool.and_true]
      exact bne_iff_ne.2 hm
  · intro s h waits
    exact ⟨fun b => congrArg Host.Outcome.next (State.tapCross_of_stopped h), fun r => congrArg Host.Outcome.next (State.tapCross_of_stopped h)⟩
  · exact fun s bs hm => congrArg Host.Outcome.next (State.challengeDrawn_of_starting hm)
  · intro s bs w hb hw hm e
    have hd := State.challengeDrawn_eq (bs := bs) hb hw hm
    refine ⟨fun he => ⟨_, congrArg Host.Outcome.next (hd.trans (if_neg ((Bool.not_eq_true _).mpr he))), rfl, rfl, rfl, rfl, rfl⟩,
      fun he => congrArg Host.Outcome.next (hd.trans (if_pos he))⟩
  · intro s h
    have he : exec .challengeExpiry s = _ := congrArg Host.Outcome.next (State.challengeExpire_eq h)
    exact ⟨fun ht => he.trans (congrArg _ (if_pos ht)), fun ht => he.trans (congrArg _ (if_neg (Nat.not_le.2 ht)))⟩
  · intro s r hm hb hr
    have hv := State.verified_eq hm hb hr
    refine ⟨fun hok => ⟨_, congrArg Host.Outcome.next (hv.trans (if_pos hok)), rfl, rfl, rfl, rfl, rfl, rfl, rfl, ?_, rfl⟩,
      fun hok => ⟨_, congrArg Host.Outcome.next (hv.trans (if_neg ((Bool.not_eq_true _).mpr hok))), rfl, rfl⟩⟩
    exact State.irq_debug_status _
  · intro s t0 h
    have he : exec .lockoutEnd s = _ := congrArg Host.Outcome.next (State.lockoutEnd_eq h)
    exact ⟨fun ht => he.trans (congrArg _ (if_pos ht)), fun ht => he.trans (congrArg _ (if_neg (Nat.not_le.2 ht)))⟩
  · intro s
    obtain ⟨x, m, r, he⟩ := s.endSession_frame
    refine ⟨s.trst, rfl, ?_⟩
    rw [State.trst, he]
    exact ⟨rfl, rfl, rfl, rfl, rfl, rfl, rfl, rfl, rfl, rfl, rfl⟩

end

section
/-!
SUPPORT. What the accesses of the debug port leave of the port itself (R548): all but the result of the access, and the session that a
write of DB_CTRL ends.
-/

namespace Sys2Proof.Machine

theorem foldl_dbg {α : Type} {f : State → α → State} (h : ∀ s a, (f s a).dbg = s.dbg) (s : State) (l : List α) : (l.foldl f s).dbg = s.dbg :=
  List.foldlRecOn (motive := fun t : State => t.dbg = s.dbg) l f rfl fun _ ht a _ => (h _ a).trans ht

variable (s : State)

/-! ### Counted accesses -/

@[simp] theorem State.readPlace_dbg (w p) : (s.readPlace w p).2.dbg = s.dbg := (State.counted_readPlace (.refl s)).dbg

@[simp] theorem State.readPlaces_dbg (w ps) : (s.readPlaces w ps).2.dbg = s.dbg := (State.counted_readPlaces (.refl s)).dbg

@[simp] theorem State.sent_dbg (c op bank arg) : (s.sent c op bank arg).dbg = s.dbg := rfl

@[simp] theorem State.corbel_dbg (k op arg n) : (s.corbel k op arg n).dbg = s.dbg := (State.counted_corbel (.refl s)).dbg

@[simp] theorem State.rowAccess_dbg (k row cs) : (s.rowAccess k row cs).dbg = s.dbg := (State.counted_rowAccess (.refl s)).dbg

@[simp] theorem State.idrLine_dbg (page line) : (s.idrLine page line).dbg = s.dbg := rfl

@[simp] theorem State.moveWords_dbg (write ws) : (s.moveWords write ws).dbg = s.dbg := (State.counted_moveRows (.refl s)).dbg

/-! ### Losses of words that the debug port overwrites -/

@[simp] theorem State.loseRecords_dbg : s.loseRecords.dbg = s.dbg := by
  unfold State.loseRecords
  dsimp only
  refine (foldl_dbg ?_ _ _).trans rfl
  exact fun _ _ => rfl

@[simp] theorem State.loseMortar_dbg (off) : (s.loseMortar off).dbg = s.dbg := by
  unfold State.loseMortar
  dsimp only
  split
  · rfl
  · split
    · rfl
    · refine (foldl_dbg ?_ _ _).trans rfl
      exact fun _ _ => rfl

/-! ### Writes of hasps and rings -/

@[simp] theorem State.doorbell_dbg (h) : (s.doorbell h).dbg = s.dbg := by
  unfold State.doorbell
  dsimp only
  split
  · rfl
  · rw [State.sweepBad_dbg]
    have hread := s.readPlaces_dbg { src := 4, agent := agentWarden } ((List.range 128).map (fun i => haspPlace (haspAt h (16 * i))))
    generalize s.readPlaces _ _ = r at *
    split
    · exact hread
    · exact hread

@[simp] theorem State.haspControl_dbg (h d ben) : (s.haspControl h d ben).dbg = s.dbg := by
  unfold State.haspControl
  dsimp only
  repeat' split
  all_goals simp [State.setHasp]

@[simp] theorem State.haspWordRead_dbg (w off) : (s.haspWordRead w off).2.dbg = s.dbg := by
  unfold State.haspWordRead
  dsimp only
  repeat' split
  all_goals simp

end Sys2Proof.Machine
end

section
/-!
SUPPORT. What an operation on a ring leaves unchanged: all but the rings, the banks, the words that it stores and what is counted (R363 to
R369, R397 to R399).
-/

namespace Sys2Proof.Machine

set_option Elab.async false

/-- t is s but for rings, banks, channels, registers, what crosses into CCLK and stored words. -/
def State.SameButRings (s t : State) : Prop :=
  t = { s with regs := t.regs, chans := t.chans, banks := t.banks, crossing := t.crossing, rings := t.rings, stack := t.stack,
               mortar := t.mortar, hasps := t.hasps }

@[mono] theorem State.SameButRings.refl (s : State) : s.SameButRings s := rfl

@[mono] theorem sameButRings_ite {s t u : State} {c : Prop} [Decidable c] (h : s.SameButRings t) (h' : s.SameButRings u) :
    s.SameButRings (if c then t else u) := by
  split <;> assumption

@[mono] theorem sameButRings_foldl {α : Type} {s t : State} {f : State → α → State} {l : List α} (h : s.SameButRings t)
    (hf : ∀ a u, s.SameButRings u → s.SameButRings (f u a)) : s.SameButRings (l.foldl f t) := by
  induction l generalizing t with
  | nil => exact h
  | cons a l ih => exact ih (hf a t h)

section
variable {s₀ s : State} (h : s₀.SameButRings s)
include h

theorem State.SameButRings.trans {t : State} (h' : s.SameButRings t) : s₀.SameButRings t := by
  unfold State.SameButRings at *
  rw [h', h]

theorem State.SameButRings.counted {t : State} (h' : s.Counted t) : s₀.SameButRings t := by
  refine h.trans ?_
  rw [h'.same]
  exact rfl

@[mono] theorem State.sameButRings_setRing {k x} : s₀.SameButRings (s.setRing k x) := h.trans rfl

@[mono] theorem State.sameButRings_setBank {k x} : s₀.SameButRings (s.setBank k x) := h.trans rfl

@[mono] theorem State.sameButRings_placeWrite {p d b} : s₀.SameButRings (s.placeWrite p d b) := by
  refine h.trans ?_
  rw [State.placeWrite, State.placeSet_frame]
  exact rfl

@[mono] theorem State.sameButRings_crossIrq {c i} : s₀.SameButRings (s.crossIrq c i) := h.counted (State.counted_crossIrq (.refl _))

@[mono] theorem State.sameButRings_readPlace {w p} : s₀.SameButRings (s.readPlace w p).2 := h.counted (State.counted_readPlace (.refl _))

@[mono] theorem State.sameButRings_corbel {k op arg n} : s₀.SameButRings (s.corbel k op arg n) := h.counted (State.counted_corbel (.refl _))

@[mono] theorem State.sameButRings_rowAccess {k row cs} : s₀.SameButRings (s.rowAccess k row cs) :=
  h.counted (State.counted_rowAccess (.refl _))

@[mono] theorem State.sameButRings_moveRows {write rows} : s₀.SameButRings (s.moveRows write rows) :=
  h.counted (State.counted_moveRows (.refl _))

@[mono] theorem State.sameButRings_ringFault {k err seq} : s₀.SameButRings (s.ringFault k err seq) := by
  unfold State.ringFault
  mono

@[mono] theorem State.sameButRings_ringTail {k v} : s₀.SameButRings (s.ringTail k v) := by
  unfold State.ringTail
  dsimp only
  mono

@[mono] theorem State.sameButRings_ringConfig {k off v} : s₀.SameButRings (s.ringConfig k off v) := by
  unfold State.ringConfig
  dsimp only
  mono

@[mono] theorem State.sameButRings_ringEnable {k} : s₀.SameButRings (s.ringEnable k) := by
  unfold State.ringEnable
  dsimp only
  mono
  split <;> mono

@[mono] theorem State.sameButRings_ringStop {k} : s₀.SameButRings (s.ringStop k) := by
  unfold State.ringStop
  dsimp only
  mono

@[mono] theorem State.sameButRings_descAccount {k q} : s₀.SameButRings (s.descAccount k q) := by
  unfold State.descAccount
  dsimp only
  mono
  intros
  mono

@[mono] theorem State.sameButRings_accountImages {k place} : s₀.SameButRings (s.accountImages k place) := by
  unfold State.accountImages State.moveWords
  mono
  intros
  mono

@[mono] theorem State.sameButRings_accountLoad {k place} : s₀.SameButRings (s.accountLoad k place) := by
  have hfold (l : List Nat) : s₀.SameButRings (l.foldl (fun s q => s.descAccount k q) (s.accountImages k place)) :=
    sameButRings_foldl (State.sameButRings_accountImages h) fun _ _ hu => State.sameButRings_descAccount hu
  unfold State.accountLoad
  dsimp only
  split
  · exact sameButRings_ite (State.sameButRings_descAccount (hfold _)) (hfold _)
  · exact hfold _

@[mono] theorem State.sameButRings_loadImages {k place rest} : s₀.SameButRings (s.loadImages k place rest) := by
  unfold State.loadImages State.dropLatch State.sendLoad
  dsimp only
  split <;> mono

@[mono] theorem State.sameButRings_markContexts {k} : s₀.SameButRings (s.markContexts k) := by
  unfold State.markContexts
  mono

@[mono] theorem State.sameButRings_clearSaveValid {k} : s₀.SameButRings (s.clearSaveValid k) := by
  unfold State.clearSaveValid State.moveWords
  dsimp only
  mono
  intros
  mono

@[mono] theorem State.sameButRings_abortNow {k} : s₀.SameButRings (s.abortNow k) := by
  unfold State.abortNow State.sendAbort
  mono

@[mono] theorem State.sameButRings_restoreNow {k} : s₀.SameButRings (s.restoreNow k) := by
  unfold State.restoreNow
  dsimp only
  mono

@[mono] theorem State.sameButRings_ringDue {k} : s₀.SameButRings (s.ringDue k) := by
  unfold State.ringDue
  dsimp only
  mono

@[mono] theorem State.sameButRings_ringRestore {k} : s₀.SameButRings (s.ringRestore k) := by
  unfold State.ringRestore
  dsimp only
  mono

@[mono] theorem State.sameButRings_ringAbort {k} : s₀.SameButRings (s.ringAbort k) := by
  unfold State.ringAbort
  mono

@[mono] theorem State.sameButRings_ringCtrl {k v} : s₀.SameButRings (s.ringCtrl k v) := by
  unfold State.ringCtrl State.ringSave
  dsimp only
  mono

@[mono] theorem State.sameButRings_ringWrite {k off v} : s₀.SameButRings (s.ringWrite k off v) := by
  unfold State.ringWrite State.ringStatusW1c
  split <;> mono

end

end Sys2Proof.Machine
end

section
/-!
PROOF. Debug accesses and repairs (O60): what an access leaves of the port, the words that show its outcome, and the commands DB_ADDR,
DB_DATA, DB_ACCESS_DONE and DB_REPAIR (R541, R548 to R550).
-/

namespace Sys2Proof.Machine

/-! ### The word of an access -/

theorem dbOutcome_dbWord (d : BondData) (c : BitVec 16) {o : Nat} (ho : o < 8) (w : Bool) : dbOutcome (dbWord d c o w) = o := by
  have hd := d.isLt
  have hc := c.isLt
  have hw : b2n w ≤ 1 := by cases w <;> decide
  simp only [dbOutcome, dbWord, bits, BitVec.toNat_ofNat, Nat.shiftRight_eq_div_pow]
  omega

theorem BondOutcome.code_lt (o : BondOutcome) : o.code < 5 := by
  unfold BondOutcome.code
  split <;> decide

/-! ### What an access leaves of the port -/

/-- The addresses and the waiting updates of the port are the same (R548). -/
def Debug.SamePort (d e : Debug) : Prop := e.addr = d.addr ∧ e.accessAddr = d.accessAddr ∧ e.accessNext = d.accessNext

theorem Debug.samePort_of_eq {d e : Debug} (h : e = d) : d.SamePort e := h ▸ ⟨rfl, rfl, rfl⟩

theorem Debug.SamePort.trans {d e f : Debug} (h : d.SamePort e) (h' : e.SamePort f) : d.SamePort f :=
  ⟨h'.1.trans h.1, h'.2.1.trans h.2.1, h'.2.2.trans h.2.2⟩

theorem Debug.samePort_ite {d : Debug} {s t : State} {c : Prop} [Decidable c] (h : d.SamePort s.dbg) (h' : d.SamePort t.dbg) :
    d.SamePort (if c then s else t).dbg := by
  split <;> assumption

variable (s : State)

theorem State.samePort_setResult (r : BitVec 152) : s.dbg.SamePort (s.dbSetResult r).dbg := ⟨rfl, rfl, rfl⟩

theorem State.dbSetResult_dbg (r : BitVec 152) : (s.dbSetResult r).dbg = { s.dbg with result := r } := rfl

/-- The port shows a result whose outcome is not PENDING, and is the same otherwise. -/
def Debug.Shows (d e : Debug) : Prop := ∃ r, e = { d with result := r } ∧ dbOutcome r ≠ 5

theorem Debug.Shows.samePort {d e : Debug} (h : d.Shows e) : d.SamePort e := by
  obtain ⟨r, rfl, -⟩ := h
  exact ⟨rfl, rfl, rfl⟩

theorem State.shows_setResult {s t : State} (ht : t.dbg = s.dbg) (d : BondData) (c : BitVec 16) {o : Nat} (ho : o < 5) (w : Bool) :
    s.dbg.Shows (t.dbSetResult (dbWord d c o w)).dbg := by
  refine ⟨dbWord d c o w, congrArg (fun e : Debug => { e with result := dbWord d c o w }) ht, ?_⟩
  rw [dbOutcome_dbWord d c (by omega)]
  omega

theorem State.placeSet_dbg (p : Place) (d : BondData) (x : BitVec 16) : (s.placeSet p d x).dbg = s.dbg := by
  rw [State.placeSet_frame]

/-- An access of a Bond word shows its result. -/
theorem State.shows_dbBond (p : Place) (u : BitVec 152) : s.dbg.Shows (s.dbBond p u).dbg := by
  unfold State.dbBond
  dsimp only
  split
  · split
    · exact State.shows_setResult (s.placeSet_dbg _ _ _) _ _ (by decide) _
    · exact State.shows_setResult (s.placeWrite_dbg _ _ _) _ _ (by decide) _
  · split
    · exact State.shows_setResult rfl _ _ (BondOutcome.code_lt _) _
    · exact State.shows_setResult (s.readPlace_dbg _ _) _ _ (BondOutcome.code_lt _) _

/-- So does an access of a word that no statement places. -/
theorem State.shows_dbUnlaid (p : Place) (u : BitVec 152) : s.dbg.Shows (s.dbUnlaid p u).dbg := by
  unfold State.dbUnlaid
  split
  · generalize ht : (if s.dbg.space = 0 then _ else _ : State) = t
    have hdbg : t.dbg = s.dbg := by
      rw [← ht]
      repeat' split
      all_goals simp
    rw [← hdbg]
    exact t.shows_dbBond p u
  · split
    · exact s.shows_dbBond p u
    · exact State.shows_setResult (t := (s.freshWord.2).freshWord.2) rfl _ _ (by decide) _

/-- An access that a bank serves. -/
theorem State.shows_serveAccess {u : BitVec 152} (h : s.dbg.access = some u) (k : Nat) (w : Bool) (n : Nat) :
    s.dbg.Shows (s.serveAccess k (.debug w n)).dbg := by
  unfold State.serveAccess
  dsimp only
  rw [h]
  dsimp only
  split
  · exact s.shows_dbUnlaid _ _
  · exact s.shows_dbBond _ _

theorem State.samePort_endSession : s.dbg.SamePort s.endSession.dbg := by
  obtain ⟨h, m, r, he⟩ := s.endSession_frame
  rw [he]
  exact ⟨rfl, rfl, rfl⟩

theorem State.writeLocked_dbg (f : Regs → Regs) : (s.writeLocked f).dbg = s.dbg := by
  unfold State.writeLocked
  split <;> rfl

theorem State.samePort_writeGlobal (off : Nat) (v : BitVec 32) : s.dbg.SamePort (s.writeGlobal off v).dbg := by
  have hsame : s.dbg.SamePort s.dbg := ⟨rfl, rfl, rfl⟩
  have hlocked (f : Regs → Regs) : s.dbg.SamePort (s.writeLocked f).dbg := Debug.samePort_of_eq (s.writeLocked_dbg f)
  have hbegin : s.dbg.SamePort s.fwLoadBegin.dbg := Debug.samePort_ite hsame hsame
  have hword : s.dbg.SamePort (s.fwLoadWord v).dbg := Debug.samePort_ite hsame hsame
  have hstop (t : State) (h : s.dbg.SamePort t.dbg) : s.dbg.SamePort t.fwLoadStop.dbg := Debug.samePort_ite h h
  unfold State.writeGlobal
  dsimp only
  repeat' with_reducible refine Debug.samePort_ite ?_ ?_
  all_goals first
    | exact hsame
    | exact hlocked _
    | exact (hlocked _).trans (State.samePort_endSession _)
    | exact hbegin
    | exact hword
    | exact hstop _ (Debug.samePort_ite hbegin hsame)

theorem State.noteWrite_dbg (off : Nat) : (s.noteWrite off).dbg = s.dbg := by
  unfold State.noteWrite
  split <;> rfl

theorem State.samePort_writeRegTo (off : Nat) (v : BitVec 32) (chans : List Nat) : s.dbg.SamePort (s.writeRegTo off v chans).dbg := by
  have hchans (l : List Nat) (o : Nat) : s.dbg.SamePort (s.writeChans l o v).dbg := by
    refine Debug.samePort_of_eq (foldl_dbg ?_ s l)
    exact fun _ _ => rfl
  unfold State.writeRegTo
  split
  · exact (s.samePort_writeGlobal _ v).trans (Debug.samePort_of_eq (State.noteWrite_dbg _ _))
  · exact ⟨rfl, rfl, rfl⟩
  · exact hchans _ _
  · exact hchans _ _
  · next k o _ =>
    have h : s.SameButRings (s.ringWrite k o v) := State.sameButRings_ringWrite (.refl s)
    rw [h]
    exact ⟨rfl, rfl, rfl⟩
  · exact ⟨rfl, rfl, rfl⟩

theorem State.samePort_dbHaspWrite (o : Nat) (u : BitVec 152) : s.dbg.SamePort (s.dbHaspWrite o u).dbg := by
  unfold State.dbHaspWrite
  dsimp only
  refine Debug.samePort_ite ?_ (Debug.samePort_ite ?_ ?_)
  · exact (Debug.samePort_of_eq (s.haspControl_dbg _ _ _)).trans (State.samePort_setResult _ _)
  · exact (State.shows_setResult (s.placeSet_dbg _ _ _) _ _ (by decide) _).samePort
  · have hmerge := s.mergePlace_dbg dbgWho (haspPlace o) (BitVec.ofNat 128 ((u.setWidth 32).toNat <<< (8 * (o % 16)))) false (15 * 2 ^ (o % 16))
    generalize s.mergePlace _ _ _ _ _ = t at *
    exact (State.shows_setResult hmerge _ _ (by decide) _).samePort

theorem State.samePort_dbHaspRead (o : Nat) : s.dbg.SamePort (s.dbHaspRead o).dbg := by
  unfold State.dbHaspRead
  dsimp only
  refine Debug.samePort_ite (s.samePort_setResult _) (Debug.samePort_ite (s.samePort_setResult _) ?_)
  exact (Debug.samePort_of_eq (s.readPlace_dbg _ _)).trans (State.samePort_setResult _ _)

theorem State.samePort_dbControl (off : Nat) (u : BitVec 152) : s.dbg.SamePort (s.dbControl off u).dbg := by
  unfold State.dbControl
  dsimp only
  split
  · split
    · exact s.samePort_setResult _
    · split
      · exact s.samePort_dbHaspWrite _ _
      · exact (s.samePort_writeRegTo _ _ _).trans (State.samePort_setResult _ _)
  · split
    · exact s.samePort_setResult _
    · exact s.samePort_dbHaspRead _
    · exact s.samePort_setResult _

theorem State.samePort_dbPerform (u : BitVec 152) : s.dbg.SamePort (s.dbPerform u).dbg := by
  unfold State.dbPerform State.dbMortar State.dbPages
  dsimp only
  refine Debug.samePort_ite (s.samePort_setResult _) (Debug.samePort_ite ?_ (Debug.samePort_ite (s.samePort_setResult _) ?_))
  · exact Debug.samePort_ite (s.samePort_dbControl _ _) (Debug.samePort_ite (s.shows_dbUnlaid _ _).samePort (s.shows_dbBond _ _).samePort)
  · refine Debug.samePort_ite (s.samePort_setResult _) (Debug.samePort_ite (s.samePort_setResult _) ?_)
    exact (Debug.samePort_of_eq (s.idrLine_dbg _ _)).trans (State.shows_dbBond _ _ _).samePort

/-! ### The updates of DB_ADDR, DB_DATA and DB_REPAIR -/

variable {s}

theorem State.tapCross_without_scope (h : s.runs 2 = true) {v : Nat} :
    (s.debugOpen 0 = false → s.tapCross 0x30 v = s.selects 0x30 v ∧ s.tapCross 0x31 v = s.selects 0x31 v) ∧
    (s.debugOpen 3 = false → s.tapCross 0x32 v = s.selects 0x32 v) := by
  simp only [State.tapCross_of_runs h]
  exact ⟨fun hd => ⟨if_neg ((Bool.not_eq_true _).mpr hd), if_neg ((Bool.not_eq_true _).mpr hd)⟩,
    fun hd => if_neg ((Bool.not_eq_true _).mpr hd)⟩

theorem State.tapCross_addr (h : s.runs 2 = true) (hd : s.debugOpen 0 = true) (v : BitVec 48) :
    s.tapCross 0x30 v.toNat = { s with dbg := { (s.selects 0x30 v.toNat).dbg with addr := v &&& 0xFFFFFFFFFF07 } } := by
  refine (State.tapCross_of_runs h).trans ((if_pos hd).trans ?_)
  rw [BitVec.ofNat_toNat, BitVec.setWidth_eq]
  rfl

theorem State.tapCross_data (h : s.runs 2 = true) (hd : s.debugOpen 0 = true) (u : BitVec 152) :
    s.tapCross 0x31 u.toNat = (s.selects 0x31 u.toNat).dbStart u := by
  refine (State.tapCross_of_runs h).trans ((if_pos hd).trans ?_)
  rw [BitVec.ofNat_toNat, BitVec.setWidth_eq]

theorem State.tapCross_repair (h : s.runs 2 = true) (hd : s.debugOpen 3 = true) (v : Nat) :
    s.tapCross 0x32 v = (s.selects 0x32 v).dbRepair v := (State.tapCross_of_runs h).trans (if_pos hd)

/-- The port with access u in progress at address a, whose alias selects these channels (R548). -/
def Debug.accessing (d : Debug) (u r : BitVec 152) (a : BitVec 48) (chans : List Nat) : Debug :=
  { d with access := some u, result := r, accessAddr := a, accessChans := chans }

/-- The port with an access that has been accepted, with r as its result for now. -/
def State.dbAccepted (s : State) (u r : BitVec 152) : State :=
  let t : State := { s with dbg := { s.dbg with access := some u, result := r, accessAddr := s.dbg.addr } }
  { t with dbg := { t.dbg with accessChans := t.maskOf t.dbg.offset } }

/-- The channels of a group alias do not depend on the port. -/
theorem State.maskOf_congr {t : State} (h : t.regs = s.regs) (off : Nat) : t.maskOf off = s.maskOf off := by
  unfold State.maskOf State.aliasChans
  rw [h]

theorem State.granted_congr {t : State} (h : t.dbg.sessionOn = s.dbg.sessionOn) (h' : t.dbg.scope = s.dbg.scope) (i : Nat) :
    t.granted i = s.granted i := by
  unfold State.granted
  rw [h, h']

theorem State.dbAccepted_eq (t : State) (hr : t.regs = s.regs) (u r : BitVec 152) :
    t.dbAccepted u r = { t with dbg := t.dbg.accessing u r t.dbg.addr (s.maskOf (bits t.dbg.addr.toNat 47 8)) } := by
  have hmask (v : State) (hr : v.regs = s.regs) (ha : v.dbg.accessAddr = t.dbg.addr) :
      v.maskOf v.dbg.offset = s.maskOf (bits t.dbg.addr.toNat 47 8) := by
    rw [State.maskOf_congr hr, Debug.offset, ha]
  unfold State.dbAccepted
  dsimp only
  rw [hmask { t with dbg := { t.dbg with access := some u, result := r, accessAddr := t.dbg.addr } } hr rfl]
  rfl

/-- The start of an access where none is in progress. -/
theorem State.dbStart_eq (h : s.dbg.access = none) (u : BitVec 152) :
    s.dbStart u = (let t := s.dbAccepted u (dbPending u)
      if bit u.toNat 147 && !t.granted 1 then t.dbSetResult (dbWord 0 0 4 true)
      else if t.dbg.space == 1 && inSpace 1 t.dbg.offset && t.stackServed then
        (t.bankAccess (t.accessLoc (.debug (bit u.toNat 147) t.seq)).bank (.debug (bit u.toNat 147) t.seq)).bump
      else t) := if_neg (by rw [h]; exact Bool.false_ne_true)

/-- The access goes to the stack. -/
theorem State.dbStack_iff (s : State) (D d : Debug) :
    (d.space == 1 && inSpace 1 d.offset && ({ s with dbg := D } : State).stackServed) = true ↔
      d.space = 1 ∧ d.offset < 9216 * slabSize ∧ s.stackServed = true := by
  have hserved : ({ s with dbg := D } : State).stackServed = s.stackServed := rfl
  rw [hserved, Bool.and_eq_true, Bool.and_eq_true, beq_iff_eq, and_assoc]
  refine and_congr_right fun _ => and_congr_left fun _ => ?_
  simp [inSpace]

theorem Debug.place_congr {d e : Debug} (h : e.accessAddr = d.accessAddr) : e.space = d.space ∧ e.offset = d.offset ∧ e.unit = d.unit := by
  unfold Debug.unit Debug.space Debug.offset
  rw [h]
  exact ⟨rfl, rfl, rfl⟩

/-- An access of the stack with the port as D: it waits in its bank's queue. -/
theorem State.debugAccess_waits {D : Debug} {k : Nat} (a : BankAccess) (h : s.bankWaits k = true) :
    let t := (({ s with dbg := D } : State).bankAccess k a).bump
    (t.bank k).queue = (s.bank k).queue ++ [a] ∧ t.dbg = D ∧ (∀ j, j ≠ k → t.bank j = s.bank j) ∧ SameMemory s t := by
  rw [State.bankAccess_waits (s := { s with dbg := D }) a h]
  exact ⟨State.queue_enqueueBank { s with dbg := D } k a, rfl, fun j hj => (State.bank_setBank _ _ _ _).trans (if_neg hj),
    sameMemory_of_stores rfl rfl rfl rfl⟩

/-- Or its bank serves it, and the port shows its result. -/
theorem State.debugAccess_serves {D : Debug} {k : Nat} {u : BitVec 152} (w : Bool) (n : Nat) (hu : D.access = some u) (h : s.bankWaits k = false) :
    D.Shows (({ s with dbg := D } : State).bankAccess k (.debug w n)).bump.dbg := by
  rw [State.bankAccess_serves (s := { s with dbg := D }) _ h]
  obtain ⟨v, hv, heq⟩ := ({ s with dbg := D } : State).serveRow_one k (({ s with dbg := D } : State).accessLoc (.debug w n)).row (.debug w n)
  have hdbg : v.dbg = D := hv.dbg
  rw [heq, ← hdbg]
  exact v.shows_serveAccess (hdbg ▸ hu) k w n

theorem State.dbStart_of_busy (h : s.dbg.access.isSome = true) (u : BitVec 152) :
    s.dbStart u = { s with dbg := { s.dbg with accessNext := s.dbg.accessNext ++ [u] } } := if_pos h

/-! ### The end of an access -/

/-- The address of the port moves on by one unit (R548). -/
theorem Debug.endAccess_addr {d e : Debug} (h : d.SamePort e) :
    bits e.endAccess.addr.toNat 47 8 = (bits d.addr.toNat 47 8 + d.unit) % 2 ^ 40 ∧ bits e.endAccess.addr.toNat 7 0 = bits d.addr.toNat 7 0 := by
  obtain ⟨haddr, hacc, -⟩ := h
  have hunit : e.unit = d.unit := by
    unfold Debug.unit Debug.space Debug.offset
    rw [hacc]
  have hlt := d.addr.isLt
  simp only [Debug.endAccess, haddr, hunit, bits, BitVec.toNat_ofNat, Nat.shiftRight_eq_div_pow]
  omega

/-- The state once the access in progress has ended, before the next one starts. -/
def State.dbEnded (s : State) (u : BitVec 152) : State :=
  let t := if dbOutcome s.dbg.result = 5 then s.dbPerform u else s
  { t with dbg := t.dbg.endAccess }

theorem State.dbEnded_pending (h : dbOutcome s.dbg.result = 5) (u : BitVec 152) :
    s.dbEnded u = { s.dbPerform u with dbg := (s.dbPerform u).dbg.endAccess } :=
  congrArg (fun t : State => ({ t with dbg := t.dbg.endAccess } : State)) (if_pos h)

theorem State.dbEnded_shown (h : dbOutcome s.dbg.result ≠ 5) (u : BitVec 152) : s.dbEnded u = { s with dbg := s.dbg.endAccess } :=
  congrArg (fun t : State => ({ t with dbg := t.dbg.endAccess } : State)) (if_neg h)

/-- An access in progress ends where its bank, the port and its clocks let it. -/
theorem State.dbDone_eq {u : BitVec 152} (h : s.dbg.access = some u) (hq : s.dbQueued = false) (hm : s.start.mode ≠ .reset)
    (h2 : s.runs 2 = true) (h1 : s.dbg.space = 2 → s.runs 1 = true) : s.dbDone = (s.dbEnded u).dbNext := by
  unfold State.dbDone
  rw [h]
  refine if_neg ?_
  simp only [hq, h2, Bool.not_true, Bool.or_false, Bool.false_or, Bool.or_eq_true, beq_iff_eq, Bool.and_eq_true, not_or, not_and,
    Bool.not_eq_true']
  exact ⟨hm, fun hs => by simp [h1 hs]⟩

theorem State.dbNext_of_none (h : s.dbg.accessNext = []) : s.dbNext = s := by
  unfold State.dbNext
  rw [h]

theorem State.dbNext_of_cons {u : BitVec 152} {l : List (BitVec 152)} (h : s.dbg.accessNext = u :: l) :
    s.dbNext = ({ s with dbg := { s.dbg with accessNext := l } } : State).dbStart u := by
  unfold State.dbNext
  rw [h]

/-- A write of a latch is DENIED (R549). -/
theorem State.dbPerform_latch {u : BitVec 152} (hs : s.dbg.space = 0) (hlo : 0x400000 ≤ s.dbg.offset) (hhi : s.dbg.offset < 0x480000)
    (hw : bit u.toNat 147 = true) : s.dbPerform u = s.dbSetResult (dbWord 0 0 4 true) := by
  have ht : ctlTarget (s.dbg.offset / 4 * 4) = .latch ((s.dbg.offset - 0x400000) / 64) (s.dbg.offset / 4 * 4 % 64) := by
    have hoff : s.dbg.offset / 4 * 4 = 0x400000 + 64 * ((s.dbg.offset - 0x400000) / 64) + s.dbg.offset / 4 * 4 % 64 := by omega
    rw [← ctlTarget_latchByte (i := (s.dbg.offset - 0x400000) / 64) (o := s.dbg.offset / 4 * 4 % 64) (by omega) (by omega), ← hoff]
  have hin : inSpace s.dbg.space s.dbg.offset = true := by
    rw [hs, inSpace, Bool.or_eq_true, Bool.or_eq_true, Bool.and_eq_true]
    exact .inl (.inl ⟨rfl, decide_eq_true (by omega)⟩)
  unfold State.dbPerform
  dsimp only
  rw [hin, if_neg (by decide), if_pos hs, if_pos (by omega)]
  unfold State.dbControl
  dsimp only
  rw [if_pos hw, ht]
  exact if_pos rfl

/-! ### Repairs -/

theorem State.dbRepair_of_bad {v : Nat} (hserv : s.serving = true) (hres : s.dbg.repairRes ≠ 1) (hno : s.repairing = none)
    (hbad : bits v 1 0 = 3 ∨ bits v 1 0 = 1 ∧ 9208 ≤ bits v 27 14) : s.dbRepair v = { s with dbg := { s.dbg with repairRes := 6 } } := by
  have hgo : ¬ (s.dbg.repairRes = 1 ∨ s.repairing.isSome = true ∨ bits v 1 0 = 0 ∨ (!(s.serving || s.start.mode == .failed)) = true) := by
    rw [hserv, hno]
    rintro (h | h | h | h)
    · exact hres h
    · exact absurd h (by decide)
    · omega
    · exact absurd h (by simp)
  refine (if_neg hgo).trans (if_pos ?_)
  rcases hbad with h | ⟨h, hrow⟩
  · exact .inl h
  · exact .inr (by rw [if_pos h]; exact hrow)

/-- A soft repair of a row that Crety has. -/
theorem State.dbRepair_soft {v : Nat} (hserv : s.serving = true) (hres : s.dbg.repairRes ≠ 1) (hno : s.repairing = none)
    (hact : bits v 1 0 = 1) (hrow : bits v 27 14 < 9208) :
    s.dbRepair v = ({ s with dbg := { s.dbg with repairRes := 1 } } : State).softBegin none (bits v 13 2) (bits v 27 14) := by
  have hgo : ¬ (s.dbg.repairRes = 1 ∨ s.repairing.isSome = true ∨ bits v 1 0 = 0 ∨ (!(s.serving || s.start.mode == .failed)) = true) := by
    rw [hserv, hno, hact]
    rintro (h | h | h | h)
    · exact hres h
    · exact absurd h (by decide)
    · exact absurd h (by decide)
    · exact absurd h (by simp)
  refine (if_neg hgo).trans ((if_neg ?_).trans (if_pos hact))
  rw [hact, if_pos rfl]
  omega

/-- A bank whose soft entries are all used, and one with a spare to map (R470). -/
theorem State.softBegin_full {bank : Nat} (hasp : Option Nat) (row : Nat) (h : 4 ≤ (s.bank bank).soft.length) :
    s.softBegin hasp bank row = s.repairEnd hasp .repairNoSpare [] := by
  unfold State.softBegin
  dsimp only
  split
  · exact if_pos h
  · rfl

theorem State.softBegin_free {bank sp : Nat} (hasp : Option Nat) (row : Nat) (hsp : (s.bank bank).freeSpare = some sp)
    (h : (s.bank bank).soft.length < 4) :
    s.softBegin hasp bank row = { s.setBank bank { s.bank bank with hold := true } with
      mbox := { s.mbox with bg := s.mbox.bg ++ [.repair hasp false bank row sp 0 false] } } := by
  unfold State.softBegin
  dsimp only
  rw [hsp]
  exact if_neg (Nat.not_le.2 h)

end Sys2Proof.Machine

open Sys2Proof Sys2Proof.Machine

/-- Settles O60: the updates with and without their scope, the end of an access, and the soft repairs. -/
theorem debugAccessesNeedTheirScope : Obligations.DebugAccessesNeedTheirScope := by
  unfold Obligations.DebugAccessesNeedTheirScope
  refine ⟨?_, ?_, ?_, ?_, ?_, ?_⟩
  · intro s h waits
    have hw : ∀ ir v, s.tapCross ir v = waits ir v := fun _ _ => State.tapCross_of_stopped h
    refine ⟨fun _ => congrArg Host.Outcome.next (hw _ _), fun _ => congrArg Host.Outcome.next (hw _ _),
      fun _ => congrArg Host.Outcome.next (hw _ _), congrArg Host.Outcome.next ?_⟩
    unfold State.dbDone
    split
    · rfl
    · exact if_pos (by simp [h])
  · exact fun s h => ⟨fun hd => ⟨fun v => congrArg Host.Outcome.next ((State.tapCross_without_scope h).1 hd).1,
      fun v => congrArg Host.Outcome.next ((State.tapCross_without_scope h).1 hd).2⟩,
      fun hd v => congrArg Host.Outcome.next ((State.tapCross_without_scope h).2 hd)⟩
  · intro s h hd
    refine ⟨fun v => congrArg Host.Outcome.next (State.tapCross_addr h hd v), fun u => ?_⟩
    have hx : exec (.dbData u) s = _ := congrArg Host.Outcome.next (State.tapCross_data h hd u)
    intro sel write d shows
    obtain ⟨D, hD⟩ : ∃ D : Debug, D = sel.accessing u (dbPending u) s.dbg.addr (s.maskOf (bits s.dbg.addr.toNat 47 8)) := ⟨_, rfl⟩
    have hshows : shows 5 write = { s with dbg := D } := by
      rw [hD]
      rfl
    have hgranted : ({ s with dbg := D } : State).granted 1 = s.granted 1 :=
      State.granted_congr (by rw [hD]; rfl) (by rw [hD]; rfl) 1
    have hplace : D.space = d.space ∧ D.offset = d.offset ∧ D.unit = d.unit := Debug.place_congr (by rw [hD]; rfl)
    have hstart : s.dbg.access = none → _ := fun hn => (State.dbStart_eq (s := s.selects 0x31 u.toNat) hn u).trans
      (congrArg (fun t : State => if bit u.toNat 147 && !t.granted 1 then t.dbSetResult (dbWord 0 0 4 true)
        else if t.dbg.space == 1 && inSpace 1 t.dbg.offset && t.stackServed then
          (t.bankAccess (t.accessLoc (.debug (bit u.toNat 147) t.seq)).bank (.debug (bit u.toNat 147) t.seq)).bump
        else t) ((State.dbAccepted_eq (s.selects 0x31 u.toNat) rfl u _).trans (congrArg (fun e : Debug => ({ s with dbg := e } : State)) hD.symm)))
    refine ⟨fun hb => hx.trans (congrArg _ (State.dbStart_of_busy (s := s.selects 0x31 u.toNat) hb u)), fun hn hw hg => ?_, fun hn hgo => ?_⟩
    · refine hx.trans (congrArg _ ((hstart hn).trans ((if_pos ?_).trans ?_)))
      · rw [hgranted, hg, Bool.not_false, Bool.and_true]
        exact hw
      · rw [hD]
        rfl
    have hgo' : ¬ (bit u.toNat 147 && !({ s with dbg := D } : State).granted 1) = true := by
      rw [Bool.and_eq_true, Bool.not_eq_true', hgranted]
      rintro ⟨hw, hg⟩
      rcases hgo with hgo | hgo
      · exact absurd (hgo.symm.trans hw) (by decide)
      · exact absurd (hgo.symm.trans hg) (by decide)
    have hstack : (D.space == 1 && inSpace 1 D.offset && ({ s with dbg := D } : State).stackServed) = true ↔
        d.space = 1 ∧ d.offset < 9216 * slabSize ∧ s.stackServed = true := by
      rw [hplace.1, hplace.2.1]
      exact State.dbStack_iff s D d
    refine ⟨fun hno => ?_, fun hs hoff hserved => ?_⟩
    · refine hx.trans (congrArg _ ((hstart hn).trans ((if_neg hgo').trans ((if_neg fun hc => ?_).trans hshows.symm))))
      obtain ⟨h1, h2, h3⟩ := hstack.1 hc
      rcases hno with hno | hno | hno
      · exact hno h1
      · exact absurd h2 (Nat.not_lt.2 hno)
      · exact absurd (hno.symm.trans h3) (by decide)
    · have hserve := hx.trans (congrArg _ ((hstart hn).trans ((if_neg hgo').trans (if_pos (hstack.2 ⟨hs, hoff, hserved⟩)))))
      rw [hshows]
      intro a k
      refine ⟨fun hw => ⟨_, hserve, State.debugAccess_waits a hw⟩, fun hw => ⟨_, hserve, ?_⟩⟩
      obtain ⟨r, hr, hout⟩ := State.debugAccess_serves (D := D) (u := u) write s.seq (by rw [hD]; rfl) hw
      rw [hr]
      refine ⟨?_, ?_, hout, ?_⟩ <;> rw [hD]
      · rfl
      · rfl
      · rfl
  · intro s u hu hq hm h2 h1 moved
    have hdone : exec .dbAccessDone s = .next (s.dbEnded u).dbNext := congrArg Host.Outcome.next (State.dbDone_eq hu hq hm h2 h1)
    refine ⟨fun hp hnext => ?_, fun hp hnext => ?_, fun v l hnext hp => ?_⟩
    · have hsame := s.samePort_dbPerform u
      have hend : (s.dbEnded u).dbNext = _ := (congrArg State.dbNext (State.dbEnded_pending hp u)).trans
        (State.dbNext_of_none (s := { s.dbPerform u with dbg := (s.dbPerform u).dbg.endAccess }) (hsame.2.2.trans hnext))
      refine ⟨_, hdone.trans (congrArg _ hend), rfl, rfl, Debug.endAccess_addr hsame, fun hs hlo hhi hw => ?_⟩
      rw [State.dbPerform_latch hs hlo hhi hw]
      generalize dbWord 0 0 4 true = w
      exact ⟨rfl, rfl⟩
    · have hend : (s.dbEnded u).dbNext = _ := (congrArg State.dbNext (State.dbEnded_shown hp u)).trans
        (State.dbNext_of_none (s := { s with dbg := s.dbg.endAccess }) hnext)
      exact ⟨_, hdone.trans (congrArg _ hend), rfl, rfl, Debug.endAccess_addr ⟨rfl, rfl, rfl⟩, rfl⟩
    · have hend : (s.dbEnded u).dbNext = _ := (congrArg State.dbNext (State.dbEnded_shown hp u)).trans
        (State.dbNext_of_cons (s := { s with dbg := s.dbg.endAccess }) hnext)
      exact ⟨_, hdone.trans (congrArg _ hend), rfl, rfl, Debug.endAccess_addr (d := s.dbg) (e := s.dbg) ⟨rfl, rfl, rfl⟩⟩
  · intro s hm
    refine congrArg Host.Outcome.next ?_
    unfold State.dbDone
    split
    · rfl
    · exact if_pos (by simp [hm])
  · intro s v h hd hserv hres hno dbg bank row
    have hx : exec (.dbRepair v) s = _ := congrArg Host.Outcome.next (State.tapCross_repair h hd v.toNat)
    refine ⟨fun hbad => hx.trans (congrArg _ (State.dbRepair_of_bad (s := s.selects 0x32 v.toNat) hserv hres hno hbad)),
      fun hact hrow hfull => ?_, fun sp hact hrow hsp hroom => ?_⟩
    · have hsoft : exec (.dbRepair v) s = _ := hx.trans (congrArg _ (State.dbRepair_soft (s := s.selects 0x32 v.toNat) hserv hres hno hact hrow))
      refine ⟨_, hsoft.trans (congrArg _ (State.softBegin_full (s := { s.selects 0x32 v.toNat with dbg := { dbg with repairRes := 1 } }) none row hfull)), rfl, rfl⟩
    · have hsoft : exec (.dbRepair v) s = _ := hx.trans (congrArg _ (State.dbRepair_soft (s := s.selects 0x32 v.toNat) hserv hres hno hact hrow))
      exact ⟨_, hsoft.trans (congrArg _ (State.softBegin_free (s := { s.selects 0x32 v.toNat with dbg := { dbg with repairRes := 1 } }) none row hsp hroom)), rfl, rfl, State.bank_setBank_self _ _ _,
        fun j hj => (State.bank_setBank _ _ _ _).trans (if_neg hj), rfl⟩

end

section
/-!
PROOF. Rings that are stopped (O53). The statement fails in a state whose soft entry names a spare that the bank does not have: its row then
lies in the next bank, where an ABORT clears the VALID bits of the save area.
-/

namespace Sys2Proof.Machine

/-- Crety serves; the save area of ring 0 is row 200, which a soft entry of bank 0 maps to spare 40. -/
def spareBeyondBank : State :=
  { State.reset with
    start := { State.reset.start with mode := .serving },
    regions := [(0, some { first := 200, slabs := 16, placed := true, defer := false, role := 0, detect := false })],
    rings := [(0, { State.reset.ring 0 with save := 400 })],
    banks := [(0, { State.reset.bank 0 with soft := [(0, (200, 40))] })] }

theorem spareBeyondBank_serves : spareBeyondBank.serving = true ∧ spareBeyondBank.runs 2 = true ∧ spareBeyondBank.bankOpen 0 = true := by
  decide +kernel

/-- The ABORT of ring 0 takes time of bank 1. -/
theorem spareBeyondBank_abort_takes_bank_one :
    (spareBeyondBank.bank 1).busyTo = 0 ∧ ((spareBeyondBank.ringAbort 0).bank 1).busyTo ≠ 0 := by
  decide +kernel

theorem exec_ringAbort {s : State} {k : Nat} (hk : k < 4096) (hs : s.serving = true) (h2 : s.runs 2 = true) :
    exec (.ringAbort k) s = .next (s.ringAbort k) := by
  refine guard_eq_next.2 ⟨decide_eq_true hk, (if_pos ?_).symm⟩
  rw [hs, h2, Bool.and_self]

end Sys2Proof.Machine

open Sys2Proof Sys2Proof.Machine

/-- Refutes O53: an ABORT whose save area lies in a row that is mapped beyond the 32 spares accesses the next bank. -/
theorem not_ringsAreConfiguredAndStopped : ¬ Obligations.RingsAreConfiguredAndStopped := by
  unfold Obligations.RingsAreConfiguredAndStopped
  rintro ⟨-, h⟩
  obtain ⟨hs, h2, hopen⟩ := spareBeyondBank_serves
  obtain ⟨-, -, -, -, -, -, -, -, habort⟩ := h spareBeyondBank 0 (by decide) hs h2
  obtain ⟨t, ht, -, -, -, hother, -, -⟩ := habort hopen
  rw [exec_ringAbort (by decide) hs h2] at ht
  obtain ⟨hbefore, hafter⟩ := spareBeyondBank_abort_takes_bank_one
  rw [Host.Outcome.next.inj ht, hother 1 (by decide)] at hafter
  exact hafter hbefore

end

section
/-!
SUPPORT. What a ring sees of the state: its registers, the regions, the rows of its bank and the words of the stores; and the operations
that leave this as it is (R365, R395 to R399).
-/

namespace Sys2Proof.Machine

set_option Elab.async false

/-- The registers of a ring that place its array, its save area and its descriptors. -/
def Ring.area (r : Ring) : BitVec 11 × BitVec 4 × BitVec 48 × BitVec 32 × BitVec 15 := (r.base, r.logSz, r.head, r.tail, r.save)

/-- Ring k sees in t what it sees in s. -/
structure State.SeesRing (k : Nat) (s t : State) : Prop where
  area : (t.ring k).area = (s.ring k).area
  regions : t.regions = s.regions
  rows : ∀ row, (t.bank k).physRow row = (s.bank k).physRow row
  memory : SameMemory s t

@[mono] theorem State.SeesRing.refl (k : Nat) (s : State) : s.SeesRing k s := ⟨rfl, rfl, fun _ => rfl, fun _ _ _ => rfl⟩

section
variable {k : Nat} {s t u : State}

theorem State.SeesRing.trans (h : s.SeesRing k t) (h' : t.SeesRing k u) : s.SeesRing k u :=
  ⟨h'.area.trans h.area, h'.regions.trans h.regions, fun row => (h'.rows row).trans (h.rows row), h.memory.trans h'.memory⟩

theorem State.Counted.rings (h : s.Counted t) : t.rings = s.rings := by rw [h.same]

theorem State.Counted.seesRing (h : s.Counted t) : s.SeesRing k t where
  area := by rw [State.ring, h.rings]; rfl
  regions := by rw [h.same]
  rows row := (h.bank k).physRow row
  memory := h.same.sameMemory

theorem State.seesRing_setRing {j : Nat} {x : Ring} (hx : x.area = (s.ring j).area) : s.SeesRing k (s.setRing j x) where
  area := by
    rw [State.ring_setRing]
    split
    · next h => rw [hx, h]
    · rfl
  regions := rfl
  rows _ := rfl
  memory _ _ _ := sameMemory_of_stores rfl rfl rfl rfl _ _ ‹_›

theorem State.seesRing_setBank {j : Nat} {x : Bank} (hx : ∀ row, x.physRow row = (s.bank j).physRow row) : s.SeesRing k (s.setBank j x) where
  area := rfl
  regions := rfl
  rows row := by
    rw [State.bank_setBank]
    split
    · next h => rw [hx, h]
    · rfl
  memory := sameMemory_of_stores rfl rfl rfl rfl

theorem State.seesRing_markContexts (s : State) (j : Nat) : s.SeesRing k (s.markContexts j) := State.seesRing_setBank fun _ => rfl

theorem State.seesRing_dropLatch (s : State) (j : Nat) : s.SeesRing k (s.dropLatch j) := State.seesRing_setBank fun _ => rfl

end

section
variable {k : Nat} {s t : State} (h : s.SeesRing k t)
include h

theorem State.SeesRing.regionAtSlab (n : Nat) : t.regionAtSlab n = s.regionAtSlab n := by
  unfold State.regionAtSlab State.regionList
  rw [h.regions]

theorem State.SeesRing.ringRegion (a n : Nat) : t.ringRegion a n = s.ringRegion a n := by
  unfold State.ringRegion
  rw [h.regionAtSlab]

theorem State.SeesRing.ringPlace (a : Nat) : t.ringPlace k a = s.ringPlace k a := by
  unfold State.ringPlace State.rowPlace State.stackWordNo
  rw [h.regionAtSlab, h.rows]

theorem State.SeesRing.saveAt : (t.ring k).saveAt = (s.ring k).saveAt := by
  have harea := h.area
  simp only [Ring.area, Prod.mk.injEq] at harea
  rw [Ring.saveAt, harea.2.2.2.2, Ring.saveAt]

theorem State.SeesRing.saveAreaPlace (i : Nat) : t.saveAreaPlace k i = s.saveAreaPlace k i := by
  rw [State.saveAreaPlace, h.saveAt, h.ringPlace, State.saveAreaPlace]

theorem State.SeesRing.peek {p : Place} (hp : p.space ≠ .pages) : t.peek p = s.peek p := State.peek_congr hp (h.memory _ _ hp)

theorem State.SeesRing.descLine (q : Nat) : t.descLine k q = s.descLine k q := by
  have harea := h.area
  simp only [Ring.area, Prod.mk.injEq] at harea
  obtain ⟨hbase, hlog, -, -, -⟩ := harea
  have hpeek (a : Nat) : t.peek (s.ringPlace k a) = s.peek (s.ringPlace k a) := h.peek nofun
  simp only [State.descLine, Ring.arrayAt, Ring.slots, hbase, hlog, h.ringPlace, hpeek]

theorem State.SeesRing.readImage {place : Nat → Place} (hp : ∀ i, (place i).space ≠ .pages) : t.readImage k place = s.readImage k place := by
  have harea := h.area
  simp only [Ring.area, Prod.mk.injEq] at harea
  obtain ⟨-, -, hhead, htail, -⟩ := harea
  have hpeek (i : Nat) : t.peek (place i) = s.peek (place i) := h.peek (hp i)
  simp only [State.readImage, Ring.head32, Ring.owed, hhead, htail, hpeek, h.descLine]
  rfl

theorem State.SeesRing.descErr (d : Desc) : t.descErr d = s.descErr d := by
  have hrange : t.badRange d = s.badRange d := by
    unfold State.badRange
    rw [funext₂ h.ringRegion]
  unfold State.descErr
  rw [hrange]

end

theorem State.saveAreaPlace_space (s : State) (k i : Nat) : (s.saveAreaPlace k i).space = .stack := rfl

/-! ### Reads of the area -/

section
variable {s₀ s : State} (h : s₀.Counted s)
include h

@[mono] theorem State.counted_descAccount {k q} : s₀.Counted (s.descAccount k q) := by
  unfold State.descAccount
  mono
  intros
  mono

@[mono] theorem State.counted_accountImages {k place} : s₀.Counted (s.accountImages k place) := by
  unfold State.accountImages State.moveWords
  mono
  intros
  mono

@[mono] theorem State.counted_accountLoad {k place} : s₀.Counted (s.accountLoad k place) := by
  have hfold (l : List Nat) : s₀.Counted (l.foldl (fun s q => s.descAccount k q) (s.accountImages k place)) :=
    counted_foldl (State.counted_accountImages h) fun _ _ hu => State.counted_descAccount hu
  unfold State.accountLoad
  dsimp only
  split
  · exact counted_ite (State.counted_descAccount (hfold _)) (hfold _)
  · exact hfold _

@[mono] theorem State.counted_sendLoad {k ctx} : s₀.Counted (s.sendLoad k ctx) := State.counted_corbel h

@[mono] theorem State.counted_sendSave {k ctx} : s₀.Counted (s.sendSave k ctx) := State.counted_corbel h

@[mono] theorem State.counted_sendDesc {k ctx} : s₀.Counted (s.sendDesc k ctx) := State.counted_corbel h

@[mono] theorem State.counted_moveWords {write ws} : s₀.Counted (s.moveWords write ws) := State.counted_moveRows h

end

/-! ### A fault -/

/-- A fault of ring k sets its registers and raises the interrupt; nothing else that a ring sees changes (R368). -/
theorem State.ringFault_spec (s : State) (k : Nat) (err : BitVec 4) (seq : BitVec 32) :
    (s.ringFault k err seq).ring k = { s.ring k with state := .fault, err := err, errSeq := seq } ∧
    (∀ j, j ≠ k → (s.ringFault k err seq).ring j = s.ring j) ∧ (s.ringFault k err seq).regs.irqStatus.getLsbD 5 = true ∧
    SameMemory s (s.ringFault k err seq) ∧ (s.ringFault k err seq).latches = s.latches := by
  have hc : (s.setRing k { s.ring k with state := .fault, err := err, errSeq := seq }).Counted (s.ringFault k err seq) :=
    State.counted_crossIrq (.refl _)
  have hrings := hc.rings
  refine ⟨?_, fun j hj => ?_, ?_, ?_, ?_⟩
  · rw [State.ring, hrings]
    exact State.ring_setRing_self _ _ _
  · rw [State.ring, hrings]
    exact (State.ring_setRing _ _ _ _).trans (if_neg hj)
  · simp [State.ringFault, State.crossIrq, State.irq, Irq.bit]
  · exact SameMemory.trans (sameMemory_of_stores rfl rfl rfl rfl) hc.same.sameMemory
  · exact hc.same.latches

end Sys2Proof.Machine
end

section
/-!
PROOF. Contexts of ring work that are saved and restored (O54): the words of the two images, and the descriptors that loaded images give
(R397 to R399).
-/

namespace Sys2Proof.Machine

theorem sameMemory_setRing (s : State) (k : Nat) (x : Ring) : SameMemory s (s.setRing k x) := sameMemory_of_stores rfl rfl rfl rfl

theorem State.placeData_setRing (s : State) (k : Nat) (x : Ring) (p : Place) : (s.setRing k x).placeData p = s.placeData p := rfl

/-! ### The save area -/

/-- The words of a save area follow each other. -/
theorem State.word_saveAreaPlace (s : State) (k : Nat) {i : Nat} (hi : i < 64) :
    (s.saveAreaPlace k i).word = (s.saveAreaPlace k 0).word + i := by
  have hrow : ((s.ring k).save.toNat * 1024 + 16 * i) / 2048 = ((s.ring k).save.toNat * 1024 + 16 * 0) / 2048 := by omega
  simp only [State.saveAreaPlace, State.ringPlace, State.rowPlace, State.stackWordNo, Ring.saveAt, hrow]
  omega

/-- Word i of an image, and whether it is written poisoned (R395). -/
def imageWord (f : Option InFlight) (i : Nat) : BondData := BitVec.ofNat 128 (leNat (((imageBytes f).drop (16 * i)).take 16))

def imageWordBad (f : Option InFlight) (i : Nat) : Bool := f.elim false (·.rowBad) && i == 12

/-- The words of an image at its places. -/
def imageWrites (place : Nat → Place) (f : Option InFlight) : List (Place × BondData × Bool) :=
  (List.range 24).map (fun i => (place i, imageWord f i, imageWordBad f i))

theorem State.writePlaces_map {α : Type} (g : α → Place × BondData × Bool) (l : List α) (s : State) :
    s.writePlaces (l.map g) = l.foldl (fun s i => s.placeWrite (g i).1 (g i).2.1 (g i).2.2) s := by
  induction l generalizing s with
  | nil => rfl
  | cons a l ih => exact ih _

theorem State.writePlaces_append (l m : List (Place × BondData × Bool)) (s : State) : s.writePlaces (l ++ m) = (s.writePlaces l).writePlaces m := by
  induction l generalizing s with
  | nil => rfl
  | cons e l ih => exact ih _

theorem State.putImage_eq (s : State) (place : Nat → Place) (f : Option InFlight) : s.putImage place f = s.writePlaces (imageWrites place f) := by
  unfold imageWrites
  rw [State.writePlaces_map]
  cases f <;> rfl

/-- Both images in the save area of ring k. -/
def State.saveWrites (s : State) (k : Nat) : List (Place × BondData × Bool) :=
  imageWrites (s.saveAreaPlace k) ((s.ring k).inContext 2) ++ imageWrites (fun i => s.saveAreaPlace k (32 + i)) ((s.ring k).inContext 3)

theorem State.saveWrites_space (s : State) (k : Nat) : ∀ e ∈ s.saveWrites k, e.1.space ≠ .pages := by
  simp only [State.saveWrites, imageWrites, List.mem_append, List.mem_map]
  rintro e (⟨i, -, rfl⟩ | ⟨i, -, rfl⟩) <;> exact nofun

theorem State.saveWrites_words (s : State) (k : Nat) :
    (s.saveWrites k).map (fun e => (e.1.space, e.1.word)) =
      (List.range 24).map (fun i => (Space.stack, (s.saveAreaPlace k i).word)) ++
        (List.range 24).map (fun i => (Space.stack, (s.saveAreaPlace k (32 + i)).word)) := by
  simp only [State.saveWrites, imageWrites, List.map_append, List.map_map]
  rfl

theorem State.saveWrites_nodup (s : State) (k : Nat) : ((s.saveWrites k).map (fun e => (e.1.space, e.1.word))).Nodup := by
  have hlow : ∀ i ∈ List.range 24, (s.saveAreaPlace k i).word = (s.saveAreaPlace k 0).word + i :=
    fun i hi => s.word_saveAreaPlace k (by rw [List.mem_range] at hi; omega)
  have hhigh : ∀ i ∈ List.range 24, (s.saveAreaPlace k (32 + i)).word = (s.saveAreaPlace k 0).word + (32 + i) :=
    fun i hi => s.word_saveAreaPlace k (by rw [List.mem_range] at hi; omega)
  rw [s.saveWrites_words]
  refine List.Nodup.append (List.nodup_range.map_on fun i hi j hj h => ?_) (List.nodup_range.map_on fun i hi j hj h => ?_) ?_
  · have heq := (Prod.mk.injEq _ _ _ _ ▸ h).2
    rw [hlow i hi, hlow j hj] at heq
    omega
  · have heq := (Prod.mk.injEq _ _ _ _ ▸ h).2
    rw [hhigh i hi, hhigh j hj] at heq
    omega
  · simp only [List.disjoint_left, List.mem_map]
    rintro e ⟨i, hi, rfl⟩ ⟨j, hj, h⟩
    have heq := (Prod.mk.injEq _ _ _ _ ▸ h).2
    rw [hlow i hi, hhigh j hj] at heq
    rw [List.mem_range] at hi
    omega

/-- What the images leave, and what their words hold (R398). -/
theorem State.putImages_spec (s : State) (k : Nat) :
    SameMemoryBut ((s.saveWrites k).map (fun e => (e.1.space, e.1.word))) s (s.putImages k (s.saveAreaPlace k)) ∧
    (s.putImages k (s.saveAreaPlace k)).rings = s.rings ∧
    ∀ i, i < 24 → (s.putImages k (s.saveAreaPlace k)).placeData (s.saveAreaPlace k i) = imageWord ((s.ring k).inContext 2) i ∧
      (s.putImages k (s.saveAreaPlace k)).placeData (s.saveAreaPlace k (32 + i)) = imageWord ((s.ring k).inContext 3) i := by
  have heq : ∃ ws, s.putImages k (s.saveAreaPlace k) = (s.writePlaces (s.saveWrites k)).moveWords true ws := by
    refine ⟨stackWords (imagePlaces (s.saveAreaPlace k)), ?_⟩
    rw [State.putImages, State.putImage_eq, State.putImage_eq, ← State.writePlaces_append]
    rfl
  obtain ⟨ws, heq⟩ := heq
  obtain ⟨hst, hall⟩ := s.writePlaces_spec _ (s.saveWrites_space k) (s.saveWrites_nodup k)
  have hc : (s.writePlaces (s.saveWrites k)).Counted (s.putImages k (s.saveAreaPlace k)) := heq ▸ State.counted_moveWords (.refl _)
  refine ⟨fun sp w hsp hw => (hc.same.word w hsp).trans (hst.words sp w hsp hw), ?_, ?_⟩
  · exact hc.rings.trans (by rw [← hst.counted.rings])
  · have hdata : ∀ e ∈ s.saveWrites k, (s.putImages k (s.saveAreaPlace k)).placeData e.1 = e.2.1 := by
      intro e he
      have hword := hc.same.word e.1.word (s.saveWrites_space k e he)
      rw [State.word_of_place _ (s.saveWrites_space k e he), State.word_of_place _ (s.saveWrites_space k e he), Prod.mk.injEq] at hword
      exact hword.1.trans (hall e he).1
    exact fun i hi => ⟨hdata (s.saveAreaPlace k i, imageWord _ i, imageWordBad _ i) (List.mem_append_left _ (List.mem_map.2 ⟨i, List.mem_range.2 hi, rfl⟩)),
      hdata (s.saveAreaPlace k (32 + i), imageWord _ i, imageWordBad _ i)
        (List.mem_append_right _ (List.mem_map.2 ⟨i, List.mem_range.2 hi, rfl⟩))⟩

/-! ### Images that are loaded -/

/-- With nothing in flight every loaded descriptor is in flight again, alone or behind the one of number RG_HEAD (R399). -/
theorem Ring.mem_resume {r : Ring} (hr : r.flight = []) (first : BitVec 512) {imgs : List InFlight} (hlen : imgs.length ≤ 2) :
    (∀ f ∈ imgs, f ∈ r.resume first imgs) ∧
    ∀ f ∈ r.resume first imgs, f ∈ imgs ∨ f = { InFlight.at_ r.head.toNat first with done := true } := by
  have hknown : ∀ x, r.known x = x := fun x => by simp [Ring.known, hr]
  have hfound : ∀ f, f ∈ r.found imgs ↔ f ∈ imgs := by
    intro f
    have hmap : imgs.map r.known = imgs := (List.map_congr_left fun x _ => hknown x).trans (List.map_id imgs)
    simp only [Ring.found, hr, List.filter_nil, List.append_nil, hmap]
    rw [List.take_of_length_le (by rw [List.length_mergeSort]; exact hlen), List.mem_mergeSort]
  unfold Ring.resume
  split
  · refine ⟨fun f hf => List.mem_cons_of_mem _ ((hfound f).2 hf), fun f hf => ?_⟩
    rw [List.mem_cons, hknown, hfound] at hf
    exact hf.symm
  · exact ⟨fun f hf => (hfound f).2 hf, fun f hf => .inl ((hfound f).1 hf)⟩

/-- A RESTORE whose two images pass their checks. -/
theorem State.loadImages_okay (s : State) (k : Nat) (rest : List InFlight) {a b : Option InFlight} {place : Nat → Place}
    (hp : ∀ i, (place i).space ≠ .pages) (ha : s.readImage k place = some a) (hb : s.readImage k (fun i => place (32 + i)) = some b) :
    ∃ v, s.SeesRing k v ∧ v.rings = s.rings ∧
      s.loadImages k place rest = v.setRing k { s.ring k with flight := (s.ring k).resume (s.descLine k (s.ring k).head.toNat).1 (a.toList ++ b.toList) } := by
  have hc : s.Counted (s.accountLoad k place) := State.counted_accountLoad (.refl s)
  have hs : s.SeesRing k (s.accountLoad k place) := hc.seesRing
  have hv := hs.trans ((State.counted_sendLoad (k := k) (ctx := 3) (State.counted_sendLoad (k := k) (ctx := 2) (.refl _))).seesRing.trans
    (State.seesRing_dropLatch _ k))
  have hrings : ((((s.accountLoad k place).sendLoad k 2).sendLoad k 3).dropLatch k).rings = s.rings :=
    (State.counted_sendLoad (k := k) (ctx := 3) (State.counted_sendLoad (k := k) (ctx := 2) hc)).rings
  refine ⟨_, hv, hrings, ?_⟩
  unfold State.loadImages
  dsimp only
  rw [hs.readImage hp, hs.readImage fun i => hp (32 + i), ha, hb]
  dsimp only
  generalize (((s.accountLoad k place).sendLoad k 2).sendLoad k 3).dropLatch k = v at *
  have hring : v.ring k = s.ring k := by rw [State.ring, hrings, State.ring]
  rw [hring, hv.descLine]

/-- One whose image fails its checks. -/
theorem State.loadImages_bad (s : State) (k : Nat) (rest : List InFlight) {place : Nat → Place} (hp : ∀ i, (place i).space ≠ .pages)
    (h : s.readImage k place = none ∨ s.readImage k (fun i => place (32 + i)) = none) :
    ∃ v, s.SeesRing k v ∧ v.rings = s.rings ∧
      s.loadImages k place rest = (v.setRing k { s.ring k with flight := rest }).ringFault k errBadDesc (s.ring k).head32 := by
  have hc : s.Counted (s.accountLoad k place) := State.counted_accountLoad (.refl s)
  have hs : s.SeesRing k (s.accountLoad k place) := hc.seesRing
  refine ⟨_, hs, hc.rings, ?_⟩
  unfold State.loadImages
  dsimp only
  have hring : (s.accountLoad k place).ring k = s.ring k := by rw [State.ring, hc.rings, State.ring]
  rw [hs.readImage hp, hs.readImage fun i => hp (32 + i), hring]
  split
  · next ha hb => rcases h with h | h <;> simp_all
  · rfl

theorem State.ring_markContexts (s : State) (k j : Nat) : (s.markContexts k).ring j = s.ring j := rfl

/-! ### The commands -/

section
variable {s : State} {k : Nat} (hk : k < 4096) (hs : s.serving = true)
include hk hs

theorem exec_ringSave (h2 : s.runs 2 = true) : exec (.ringSave k) s = .next (s.ringSave k) := by
  refine guard_eq_next.2 ⟨decide_eq_true hk, (if_pos ?_).symm⟩
  rw [hs, h2, Bool.and_self]

theorem exec_ringRestore (h2 : s.runs 2 = true) : exec (.ringRestore k) s = .next (s.ringRestore k) := by
  refine guard_eq_next.2 ⟨decide_eq_true hk, (if_pos ?_).symm⟩
  rw [hs, h2, Bool.and_self]

theorem exec_ringSaveDone (he : s.plumb.esr = false) (h1 : s.runs 1 = true) : exec (.ringSaveDone k) s = .next (s.ringSaveDone k) := by
  refine guard_eq_next.2 ⟨decide_eq_true hk, (if_pos ?_).symm⟩
  rw [hs, he, h1]
  rfl

omit hs in
theorem exec_ringSaveDone_idle (h : s.ringSaveDone k = s) : exec (.ringSaveDone k) s = .next s := by
  refine guard_eq_next.2 ⟨decide_eq_true hk, ?_⟩
  rw [h, ite_self]

end

section
variable {s : State} {k : Nat}

theorem State.ringSaveDone_idle (h : (s.ring k).saving = false ∨ (s.ring k).aborting = true ∨ s.bankOpen k = false) : s.ringSaveDone k = s := by
  refine if_pos ?_
  simpa [Bool.or_eq_true, or_assoc] using h

/-- A SAVE at a boundary writes its images, or faults (R398). -/
theorem State.ringSaveDone_eq (h1 : (s.ring k).saving = true) (h2 : (s.ring k).aborting = false) (h3 : s.bankOpen k = true) :
    s.ringSaveDone k =
      if (s.ringRegion (s.ring k).saveAt 1024).isSome = true then
        let t := ((s.sendSave k 2).sendSave k 3).putImages k (s.saveAreaPlace k)
        t.setRing k { t.ring k with saving := false, state := .saved, live := false }
      else (s.setRing k { s.ring k with saving := false }).ringFault k errRange (s.ring k).head32 := by
  refine if_neg ?_
  rw [h1, h2, h3]
  exact Bool.false_ne_true

theorem State.ringRestore_idle (h1 : (s.ring k).state ≠ .stopped) (h2 : (s.ring k).state ≠ .saved) : s.ringRestore k = s := by
  refine if_neg ?_
  rw [Bool.or_eq_true, beq_iff_eq, beq_iff_eq]
  rintro (h | h)
  · exact h1 h
  · exact h2 h

theorem State.ringRestore_eq (h : (s.ring k).state = .stopped ∨ (s.ring k).state = .saved) :
    s.ringRestore k = (s.setRing k { s.ring k with loading := true }).ringDue k := by
  refine if_pos ?_
  rw [Bool.or_eq_true, beq_iff_eq, beq_iff_eq]
  exact h

theorem State.ringDue_shut (h : s.bankOpen k = false) : s.ringDue k = s := if_pos (by rw [h]; rfl)

/-- At a boundary a RESTORE loads its images, or faults (R399). -/
theorem State.ringDue_restores (h : s.bankOpen k = true) (ha : (s.ring k).aborting = false) (hl : (s.ring k).loading = true) :
    s.ringDue k = s.restoreNow k := by
  refine (if_neg (by rw [h]; exact Bool.false_ne_true)).trans ?_
  have habort : (if (s.ring k).aborting then s.abortNow k else s) = s := if_neg (by rw [ha]; exact Bool.false_ne_true)
  dsimp only
  rw [habort, if_pos hl]

/-- A fault of ring k whose registers have just been set to x. -/
theorem State.faults_setRing (s : State) (k : Nat) {x : Ring} (err : BitVec 4) (seq : BitVec 32) :
    let t := (s.setRing k x).ringFault k err seq
    t.ring k = { x with state := .fault, err := err, errSeq := seq } ∧ t.regs.irqStatus.getLsbD 5 = true ∧
      (∀ j, j ≠ k → t.ring j = s.ring j) ∧ SameMemory s t := by
  obtain ⟨hself, hother, hirq, hmem, -⟩ := (s.setRing k x).ringFault_spec k err seq
  rw [State.ring_setRing_self] at hself
  exact ⟨hself, hirq, fun j hj => (hother j hj).trans ((State.ring_setRing _ _ _ _).trans (if_neg hj)),
    SameMemory.trans (sameMemory_of_stores rfl rfl rfl rfl) hmem⟩

end

end Sys2Proof.Machine

open Sys2Proof Sys2Proof.Machine

/-- Settles O54: SAVE and its images, RESTORE and the images that it loads, and the faults of both. -/
theorem ringsAreSavedAndRestored : Obligations.RingsAreSavedAndRestored := by
  unfold Obligations.RingsAreSavedAndRestored
  intro s k hk hs h2 r place word faulted
  refine ⟨exec_ringSave hk hs h2, fun h => exec_ringSaveDone_idle hk (State.ringSaveDone_idle h), fun hsave habort hopen hesr h1 => ⟨fun hr => ?_, fun hr => ?_⟩,
    fun h h' => (exec_ringRestore hk hs h2).trans (congrArg _ (State.ringRestore_idle h h')), fun hstate => ⟨fun hshut => ?_, fun hopen habort => ?_⟩⟩
  · have hx := (exec_ringSaveDone hk hs hesr h1).trans (congrArg _ ((State.ringSaveDone_eq hsave habort hopen).trans (if_pos hr)))
    have hc : s.Counted ((s.sendSave k 2).sendSave k 3) := State.counted_sendSave (State.counted_sendSave (.refl s))
    have hsees : s.SeesRing k ((s.sendSave k 2).sendSave k 3) := hc.seesRing
    generalize (s.sendSave k 2).sendSave k 3 = u at *
    have hplace : u.saveAreaPlace k = place := funext hsees.saveAreaPlace
    have hring (j : Nat) : u.ring j = s.ring j := by rw [State.ring, hc.rings, State.ring]
    obtain ⟨hmem, hrings, hwords⟩ := u.putImages_spec k
    rw [State.saveWrites_words, hplace] at hmem
    rw [hplace] at hrings hwords
    have hput (j : Nat) : (u.putImages k place).ring j = s.ring j := by rw [State.ring, hrings]; exact hring j
    refine ⟨_, hx, ?_, ?_, ?_, ?_⟩
    · rw [State.ring_setRing_self, hput]
    · intro j hj
      rw [State.ring_setRing, if_neg hj, hput]
    · intro i hi
      obtain ⟨hlow, hhigh⟩ := hwords i hi
      rw [hring] at hlow hhigh
      rw [State.placeData_setRing, State.placeData_setRing]
      exact ⟨hlow, hhigh⟩
    · intro sp w hsp hw
      have hset := sameMemory_setRing (u.putImages k place) k { s.ring k with saving := false, state := .saved, live := false } sp w hsp
      rw [← hput] at hset
      exact hset.trans ((hmem sp w hsp hw).trans (hsees.memory sp w hsp))
  · have hx := (exec_ringSaveDone hk hs hesr h1).trans (congrArg _ ((State.ringSaveDone_eq hsave habort hopen).trans (if_neg (by rw [hr]; exact nofun))))
    exact ⟨_, hx, State.faults_setRing s k errRange _⟩
  · exact (exec_ringRestore hk hs h2).trans (congrArg _ ((State.ringRestore_eq hstate).trans (State.ringDue_shut hshut)))
  · intro r' first
    have hload : (s.setRing k { r with loading := true }).ring k = { r with loading := true } := State.ring_setRing_self _ _ _
    have hdue := State.ringDue_restores (s := s.setRing k { r with loading := true }) (k := k) hopen (by rw [hload]; exact habort) (by rw [hload])
    have hx : exec (.ringRestore k) s = .next ((s.setRing k { r with loading := true }).restoreNow k) :=
      (exec_ringRestore hk hs h2).trans (congrArg _ ((State.ringRestore_eq hstate).trans hdue))
    have hsees : s.SeesRing k ((s.setRing k { r with loading := true }).setRing k r') :=
      (State.seesRing_setRing (x := { r with loading := true }) rfl).trans (State.seesRing_setRing (x := r') (by rw [hload]; rfl))
    have hself : ((s.setRing k { r with loading := true }).setRing k r').ring k = r' := State.ring_setRing_self _ _ _
    have hother (j : Nat) (hj : j ≠ k) : ((s.setRing k { r with loading := true }).setRing k r').ring j = s.ring j := by
      rw [State.ring_setRing, if_neg hj, State.ring_setRing, if_neg hj]
    have hnow : (s.setRing k { r with loading := true }).restoreNow k = (let u := (s.setRing k { r with loading := true }).setRing k r'
        if (u.ringRegion r.saveAt 1024).isSome then (u.loadImages k (u.saveAreaPlace k) r.flight).markContexts k
        else u.ringFault k errRange r.head32) := by
      unfold State.restoreNow
      rw [hload]
      rfl
    generalize (s.setRing k { r with loading := true }).setRing k r' = u at *
    rw [hnow] at hx
    dsimp only at hx
    rw [hsees.ringRegion, funext hsees.saveAreaPlace] at hx
    have hspace : ∀ i, (place i).space ≠ .pages := fun i => nofun
    have hfaults (v : State) (hv : u.SeesRing k v) (hrings : v.rings = u.rings) (x : Ring) (err : BitVec 4) (seq : BitVec 32) :
        ((v.setRing k x).ringFault k err seq).ring k = { x with state := .fault, err := err, errSeq := seq } ∧
        ((v.setRing k x).ringFault k err seq).regs.irqStatus.getLsbD 5 = true ∧
        (∀ j, j ≠ k → ((v.setRing k x).ringFault k err seq).ring j = s.ring j) ∧ SameMemory s ((v.setRing k x).ringFault k err seq) := by
      obtain ⟨h1, h2, h3, h4⟩ := v.faults_setRing k (x := x) err seq
      exact ⟨h1, h2, fun j hj => (h3 j hj).trans ((congrArg (Sparse.get Ring.init · j) hrings).trans (hother j hj)),
        hsees.memory.trans (hv.memory.trans h4)⟩
    refine ⟨fun hr => ⟨fun a b ha hb => ?_, fun hbad => ?_⟩, fun hr => ?_⟩
    · obtain ⟨v, hv, hrings, hdone⟩ := u.loadImages_okay k r.flight hspace ((hsees.readImage hspace).trans ha)
        ((hsees.readImage fun i => hspace (32 + i)).trans hb)
      rw [hself, hsees.descLine] at hdone
      refine ⟨_, hx.trans (congrArg _ ((if_pos hr).trans (congrArg (State.markContexts · k) hdone))), ?_, fun hflight => ?_, fun j hj => ?_, ?_⟩
      · exact State.ring_setRing_self _ _ _
      · have hlen : (a.toList ++ b.toList).length ≤ 2 := by cases a <;> cases b <;> simp
        obtain ⟨hall, honly⟩ := Ring.mem_resume (r := r) hflight first hlen
        rw [State.ring_markContexts, State.ring_setRing_self]
        refine ⟨fun f hf => hall f ?_, fun f hf => ?_⟩
        · rcases hf with rfl | rfl <;> simp
        · have hmem := honly f hf
          rw [List.mem_append, Option.mem_toList, Option.mem_toList, or_assoc] at hmem
          exact hmem
      · exact (State.ring_setRing _ _ _ _).trans ((if_neg hj).trans ((congrArg (Sparse.get Ring.init · j) hrings).trans (hother j hj)))
      · exact hsees.memory.trans (hv.memory.trans (SameMemory.trans (sameMemory_setRing _ _ _) (State.seesRing_markContexts (k := k) _ k).memory))
    · obtain ⟨v, hv, hrings, hdone⟩ := u.loadImages_bad k r.flight hspace
        (hbad.imp (hsees.readImage hspace).trans (hsees.readImage fun i => hspace (32 + i)).trans)
      rw [hself] at hdone
      refine ⟨_, hx.trans (congrArg _ ((if_pos hr).trans (congrArg (State.markContexts · k) hdone))), ?_⟩
      obtain ⟨h1, h2, h3, h4⟩ := hfaults v hv hrings { r' with flight := r.flight } errBadDesc r'.head32
      exact ⟨h1, h2, h3, h4.trans (State.seesRing_markContexts (k := k) _ k).memory⟩
    · refine ⟨_, hx.trans (congrArg _ (if_neg (by rw [hr]; exact nofun))), ?_⟩
      obtain ⟨h1, h2, h3, h4, -⟩ := u.ringFault_spec k errRange r.head32
      rw [hself] at h1
      exact ⟨h1, h3, fun j hj => (h2 j hj).trans (hother j hj), hsees.memory.trans h4⟩

end

section
/-!
PROOF. Descriptors that start and retire (O55): how the read, the checks, the start and the retirement change the ring, and that they change
no other ring, no word and, but for a release, no latch (R363 to R370).
-/

namespace Sys2Proof.Machine

/-! ### What becomes of a ring -/

/-- Ring k becomes x; every other ring, every word and every latch stays. -/
structure State.RingBecomes (k : Nat) (x : Ring) (s t : State) : Prop where
  ring : t.ring k = x
  others : ∀ j, j ≠ k → t.ring j = s.ring j
  memory : SameMemory s t
  latches : t.latches = s.latches

section
variable {k : Nat} {x : Ring} {s t u : State}

theorem State.Counted.ringBecomes (h : s.Counted t) : State.RingBecomes k (s.ring k) s t where
  ring := congrArg (Sparse.get Ring.init · k) h.rings
  others j _ := congrArg (Sparse.get Ring.init · j) h.rings
  memory := h.same.sameMemory
  latches := h.same.latches

theorem State.RingBecomes.counted (h : State.RingBecomes k x s t) (hc : t.Counted u) : State.RingBecomes k x s u where
  ring := (congrArg (Sparse.get Ring.init · k) hc.rings).trans h.ring
  others j hj := (congrArg (Sparse.get Ring.init · j) hc.rings).trans (h.others j hj)
  memory := h.memory.trans hc.same.sameMemory
  latches := hc.same.latches.trans h.latches

theorem State.RingBecomes.setRing (h : State.RingBecomes k x s t) (y : Ring) : State.RingBecomes k y s (t.setRing k y) where
  ring := State.ring_setRing_self _ _ _
  others j hj := (State.ring_setRing _ _ _ _).trans ((if_neg hj).trans (h.others j hj))
  memory := h.memory.trans (sameMemory_setRing _ _ _)
  latches := h.latches

theorem State.RingBecomes.markContexts (h : State.RingBecomes k x s t) : State.RingBecomes k x s (t.markContexts k) where
  ring := h.ring
  others := h.others
  memory := h.memory.trans (sameMemory_of_stores rfl rfl rfl rfl)
  latches := h.latches

theorem State.RingBecomes.ringFault (h : State.RingBecomes k x s t) (err : BitVec 4) (seq : BitVec 32) :
    State.RingBecomes k { x with state := .fault, err := err, errSeq := seq } s (t.ringFault k err seq) := by
  rw [State.ringFault, h.ring]
  exact (h.setRing _).counted (State.counted_crossIrq (.refl _))

theorem State.ringFault_irq (s : State) (k : Nat) (err : BitVec 4) (seq : BitVec 32) :
    (s.ringFault k err seq).regs.irqStatus.getLsbD 5 = true := by
  obtain ⟨-, -, h, -⟩ := s.ringFault_spec k err seq
  exact h

/-- A descriptor whose check failed with nothing ahead of it faults the ring. -/
theorem State.RingBecomes.descFail_first (h : State.RingBecomes k x s t) (hx : x.flight = []) (q : Nat) (e : BitVec 4) :
    State.RingBecomes k { x with fetched := none, state := .fault, err := e, errSeq := BitVec.ofNat 32 q } s (t.descFail k q e) ∧
      (t.descFail k q e).regs.irqStatus.getLsbD 5 = true := by
  have heq : t.descFail k q e = (t.setRing k { x with fetched := none }).ringFault k e (BitVec.ofNat 32 q) := by
    unfold State.descFail
    rw [h.ring]
    refine if_pos ?_
    rw [State.ring_setRing_self, hx]
    rfl
  rw [heq]
  exact ⟨(h.setRing { x with fetched := none }).ringFault e _, State.ringFault_irq _ _ _ _⟩

/-- Behind another one its code is kept. -/
theorem State.RingBecomes.descFail_next (h : State.RingBecomes k x s t) {f : InFlight} (hx : x.flight = [f]) (q : Nat) (e : BitVec 4) :
    State.RingBecomes k { x with fetched := none, failed := some e } s (t.descFail k q e) := by
  have heq : t.descFail k q e = (t.setRing k { x with fetched := none }).setRing k { x with fetched := none, failed := some e } := by
    unfold State.descFail
    rw [h.ring]
    refine (if_neg ?_).trans ?_
    · rw [State.ring_setRing_self, hx]
      exact Bool.false_ne_true
    · rw [State.ring_setRing_self]
  rw [heq]
  exact (h.setRing _).setRing _

theorem State.RingBecomes.descSend (h : State.RingBecomes k x s t) (q : Nat) (desc : BitVec 512) :
    State.RingBecomes k { x with fetched := none, forcedQ := if x.flight.isEmpty then none else x.forcedQ, flight := x.flight ++ [InFlight.at_ q desc] }
      s (t.descSend k q desc) := by
  have hsent := h.counted (State.counted_sendDesc (k := k) (ctx := 2 + q % 2) (.refl t))
  unfold State.descSend
  dsimp only
  rw [hsent.ring]
  exact hsent.setRing _

/-! ### The start -/

/-- The next descriptor is read, unless it has been, and the read is counted (R365). -/
theorem State.descFetch_counted (s : State) (k q : Nat) : s.Counted (s.descFetch k q).2 := by
  unfold State.descFetch
  dsimp only
  split
  · split
    · exact .refl s
    · exact State.counted_descAccount (.refl s)
  · exact State.counted_descAccount (.refl s)

section
variable {q : Nat} {line : BitVec 512 × Bool} {v : State} (hready : s.descReady k = true)
  (hq : q = (s.ring k).head.toNat + (s.ring k).flight.length) (hline : (s.descFetch k q).1 = line) (hv : (s.descFetch k q).2 = v)
include hready hq hline hv

/-- A descriptor that is read uncorrectable or poisoned. -/
theorem State.descStart_unread (hbad : line.2 = true) : s.descStart k = v.descFail k q errBadDesc := by
  subst hline hv hq
  unfold State.descStart
  rw [hready, Bool.not_true, if_neg Bool.false_ne_true]
  exact if_pos hbad

variable (hread : line.2 = false)
include hread

/-- One that fails its checks. -/
theorem State.descStart_refused {e : BitVec 4} (herr : v.descErr (Desc.of line.1) = some e) : s.descStart k = v.descFail k q e := by
  subst hline hv hq
  unfold State.descStart
  rw [hready, Bool.not_true, if_neg Bool.false_ne_true]
  dsimp only
  rw [if_neg ((Bool.not_eq_true _).mpr hread), herr]

variable (herr : v.descErr (Desc.of line.1) = none)
include herr

/-- One with nothing ahead of it. -/
theorem State.descStart_first (hflight : (v.ring k).flight = []) : s.descStart k = v.descSend k q line.1 := by
  subst hline hv hq
  unfold State.descStart
  rw [hready, Bool.not_true, if_neg Bool.false_ne_true]
  dsimp only
  rw [if_neg ((Bool.not_eq_true _).mpr hread), herr, hflight]
  rfl

/-- One behind another: held back for WAIT, or for a conflict, or started (R366). -/
theorem State.descStart_next {f : InFlight} (hflight : (v.ring k).flight = [f]) :
    s.descStart k =
      if (Desc.of line.1).wait then v.setRing k { v.ring k with fetched := some (q, line) }
      else if descConflict (Desc.of f.desc) (Desc.of line.1) then
        if (v.ring k).forcedQ == some q then v.setRing k { v.ring k with fetched := some (q, line) }
        else v.setRing k { v.ring k with fetched := some (q, line), forcedQ := some q, orderForced := true, forced := satAdd (v.ring k).forced 1 }
      else v.descSend k q line.1 := by
  subst hline hv hq
  unfold State.descStart
  rw [hready, Bool.not_true, if_neg Bool.false_ne_true]
  dsimp only
  rw [if_neg ((Bool.not_eq_true _).mpr hread), herr, hflight]
  rfl

end

theorem exec_descriptorStart (hk : k < 4096) (hs : s.serving = true) (hd : s.dbg.halted = false) (he : s.plumb.esr = false)
    (h1 : s.runs 1 = true) : exec (.descriptorStart k) s = .next ((s.descStart k).markContexts k) := by
  refine guard_eq_next.2 ⟨decide_eq_true hk, (if_pos ?_).symm⟩
  rw [hs, hd, he, h1]
  rfl

theorem State.descStart_unready (h : s.descReady k = false) : s.descStart k = s := if_pos (by rw [h]; rfl)

/-! ### The retirement -/

theorem exec_descriptorRetire (hk : k < 4096) (hs : s.serving = true) (h1 : s.runs 1 = true) :
    exec (.descriptorRetire k) s = .next (s.descRetire k) := by
  refine guard_eq_next.2 ⟨decide_eq_true hk, (if_pos ?_).symm⟩
  rw [hs, h1]
  rfl

/-- Registers of ring r once its oldest descriptor f has retired (R367, R370). -/
def Ring.retired (r : Ring) (f : InFlight) : Ring :=
  { r with head := r.head + 1, flight := r.flight.drop 1, poisoned := r.poisoned || f.poison,
           poisonCnt := if f.poison then satAdd r.poisonCnt 1 else r.poisonCnt }

/-- The release of descriptor d, as ring k performs it with RG_HEAD at head (R367). -/
def State.descRelease (s : State) (k head : Nat) (d : Desc) : State :=
  if d.relKind = 1 then s.releaseNot0 (d.rel % 2 ^ 13) head d.scope (64 + k)
  else if d.relKind = 2 then s.releaseNot0 (d.rel % 2 ^ 13) (latchValue (s.latch (d.rel % 2 ^ 13)) + 1) d.scope (64 + k)
  else s

theorem State.retireOne_eq (s : State) (k : Nat) (f : InFlight) :
    s.retireOne k f =
      let t := (s.setRing k ((s.ring k).retired f)).descRelease k ((s.ring k).head + 1).toNat (Desc.of f.desc)
      if (Desc.of f.desc).irqFlag then t.crossIrq (k / 16) .ringDone else t := rfl

/-- The one descriptor in flight retires, or waits. -/
theorem State.descRetire_one {f : InFlight} (hret : (s.ring k).retires = true) (hflight : (s.ring k).flight = [f])
    (hcan : s.retirable f = true) (hempty : ((s.retireOne k f).ring k).flight = []) :
    s.descRetire k = ((s.retireOne k f).ringSettle k).markContexts k := by
  unfold State.descRetire
  simp only [hret, hflight, hcan, hempty, Bool.not_true, Bool.false_eq_true, ↓reduceIte, List.length_nil, List.length_singleton, Nat.zero_lt_one]

theorem State.descRetire_waits {f : InFlight} (hret : (s.ring k).retires = true) (hflight : (s.ring k).flight = [f])
    (hcan : s.retirable f = false) : s.descRetire k = s.markContexts k := by
  have hsettle : s.ringSettle k = s := if_pos (by rw [hflight]; rfl)
  unfold State.descRetire
  simp only [hret, hflight, hcan, Bool.not_true, Bool.false_eq_true, ↓reduceIte, Nat.lt_irrefl, hsettle]

/-- The ring goes on as it is: no failure is kept, and nothing tells it to stop (R363, R368). -/
theorem State.ringSettle_idle (hfail : (s.ring k).failed = none) (hrun : (s.ring k).state ≠ .running ∨ (s.ring k).enable = true) :
    s.ringSettle k = s := by
  unfold State.ringSettle
  dsimp only
  rw [hfail]
  split
  · rfl
  · refine if_neg ?_
    rw [Bool.and_eq_true, beq_iff_eq, Bool.not_eq_true']
    rintro ⟨h, h'⟩
    rcases hrun with hrun | hrun
    · exact hrun h
    · exact absurd (h'.symm.trans hrun) Bool.false_ne_true

theorem State.releaseNot0_frame (s : State) (i value scope agent : Nat) :
    ∃ l a n m, s.releaseNot0 i value scope agent = { s with latches := l, acq := a, regs := { s.regs with ltWiden := n, ltDenied := m } } := by
  unfold State.releaseNot0
  split
  · exact ⟨_, _, _, _, rfl⟩
  · obtain ⟨l, a, n, h⟩ := s.release_frame i value scope agent
    exact ⟨l, a, n, s.regs.ltDenied, h⟩

theorem State.latch_releaseNot0 (s : State) (i value scope agent j : Nat) :
    (s.releaseNot0 i value scope agent).latch j = if j = i ∧ i ≠ 0 then latchWord value scope agent else s.latch j := by
  unfold State.releaseNot0
  split
  · next h => exact (if_neg fun hc => hc.2 h).symm
  · next h =>
    rw [State.latch_release]
    simp only [h, ne_eq, not_false_eq_true, and_true]

/-- A release changes latches, held acquires and two counts. -/
theorem State.descRelease_frame (s : State) (k head : Nat) (d : Desc) :
    ∃ l a n m, s.descRelease k head d = { s with latches := l, acq := a, regs := { s.regs with ltWiden := n, ltDenied := m } } := by
  unfold State.descRelease
  split
  · exact s.releaseNot0_frame _ _ _ _
  · split
    · exact s.releaseNot0_frame _ _ _ _
    · exact ⟨s.latches, s.acq, s.regs.ltWiden, s.regs.ltDenied, rfl⟩

/-- What a release leaves of the latches and of LT_DENIED (R367, R405). -/
theorem State.descRelease_spec (s : State) (k head : Nat) (d : Desc) :
    let l := d.rel % 2 ^ 13
    let t := s.descRelease k head d
    (d.relKind = 1 → l ≠ 0 → t.latch l = latchWord head d.scope (64 + k)) ∧
    (d.relKind = 2 → l ≠ 0 → t.latch l = latchWord (latchValue (s.latch l) + 1) d.scope (64 + k)) ∧
    (∀ i, (i ≠ l ∨ l = 0 ∨ d.relKind = 0) → t.latch i = s.latch i) ∧
    ((d.relKind = 1 ∨ d.relKind = 2) → l = 0 → t.regs.ltDenied = satAdd s.regs.ltDenied 1) := by
  intro l t
  refine ⟨fun h hl => ?_, fun h hl => ?_, fun i hi => ?_, fun h hl => ?_⟩
  · have ht : t = s.releaseNot0 l head d.scope (64 + k) := if_pos h
    rw [ht, State.latch_releaseNot0, if_pos ⟨rfl, hl⟩]
  · have ht : t = s.releaseNot0 l (latchValue (s.latch l) + 1) d.scope (64 + k) :=
      (if_neg (by rw [h]; decide)).trans (if_pos h)
    rw [ht, State.latch_releaseNot0, if_pos ⟨rfl, hl⟩]
  · have hne : d.relKind ≠ 0 → ¬ (i = l ∧ l ≠ 0) := fun h0 hc => by
      rcases hi with hi | hi | hi
      · exact hi hc.1
      · exact hc.2 hi
      · exact h0 hi
    simp only [t, State.descRelease]
    split
    · next h => rw [State.latch_releaseNot0, if_neg (hne (by rw [h]; decide))]
    · split
      · next h => rw [State.latch_releaseNot0, if_neg (hne (by rw [h]; decide))]
      · rfl
  · have hden (value scope : Nat) : (s.releaseNot0 l value scope (64 + k)).regs.ltDenied = satAdd s.regs.ltDenied 1 := by
      rw [State.releaseNot0, if_pos hl]
    rcases h with h | h
    · have ht : t = s.releaseNot0 l head d.scope (64 + k) := if_pos h
      rw [ht, hden]
    · have ht : t = s.releaseNot0 l (latchValue (s.latch l) + 1) d.scope (64 + k) :=
        (if_neg (by rw [h]; decide)).trans (if_pos h)
      rw [ht, hden]

end

end Sys2Proof.Machine

open Sys2Proof Sys2Proof.Machine

/-- Settles O55: each branch of a start through what becomes of the ring, and a retirement through its release. -/
theorem descriptorsStartAndRetireInOrder : Obligations.DescriptorsStartAndRetireInOrder := by
  unfold Obligations.DescriptorsStartAndRetireInOrder
  refine ⟨fun s k hk hh => ?_, fun s k hk hs hd he h1 => ?_, fun s k hk h1 => ?_, fun s k hk hs h1 => ?_⟩
  · refine guard_eq_next.2 ⟨decide_eq_true hk, (if_neg ?_).symm⟩
    rw [hh]
    simp
  · intro r q line d becomes
    have hx := exec_descriptorStart hk hs hd he h1
    have hline : (s.descFetch k q).1 = line := by
      unfold State.descFetch
      dsimp only [line]
      cases (s.ring k).fetched with
      | none => rfl
      | some f => exact apply_ite Prod.fst _ _ _
    have hv := s.descFetch_counted k q
    generalize hfetch : (s.descFetch k q).2 = v at hv
    have hr : State.RingBecomes k r s v := hv.ringBecomes
    have herr : v.descErr d = s.descErr d := hv.seesRing (k := k) |>.descErr d
    have hto (r' : Ring) (u : State) (hu : s.descStart k = u) (h : State.RingBecomes k r' s u) : becomes r' := by
      obtain ⟨h1, h2, h3, h4⟩ := h.markContexts
      exact ⟨_, hx.trans (congrArg (fun t : State => Host.Outcome.next (t.markContexts k)) hu), h1, h2, h3, h4⟩
    refine ⟨fun hno => ?_, fun hready => ⟨fun hflight => ⟨fun hread hok => ?_, fun e he => ?_⟩, fun f hflight => ⟨fun e he => ?_, fun hread hok => ?_⟩⟩⟩
    · refine ⟨_, hx.trans (congrArg (fun t : State => Host.Outcome.next (t.markContexts k)) (State.descStart_unready hno)), rfl, fun j hj => ?_⟩
      exact (State.bank_setBank _ _ _ _).trans (if_neg hj)
    · have hstart := State.descStart_first hready rfl hline hfetch hread (herr.trans hok) (hr.ring ▸ hflight)
      refine hto _ _ hstart ?_
      have hsend := hr.descSend q line.1
      rw [hflight] at hsend
      exact hsend
    · have hfails : ∃ u, s.descStart k = u ∧ u = v.descFail k q e := by
        refine ⟨_, rfl, ?_⟩
        rcases he with ⟨hbad, rfl⟩ | ⟨hread, hsome⟩
        · exact State.descStart_unread hready rfl hline hfetch hbad
        · exact State.descStart_refused hready rfl hline hfetch hread (herr.trans hsome)
      obtain ⟨u, hstart, rfl⟩ := hfails
      obtain ⟨hbec, hirq⟩ := hr.descFail_first hflight q e
      obtain ⟨h1, h2, h3, -⟩ := hbec.markContexts
      exact ⟨_, hx.trans (congrArg (fun t : State => Host.Outcome.next (t.markContexts k)) hstart), h1, hirq, h2, h3⟩
    · have hfails : s.descStart k = v.descFail k q e := by
        rcases he with ⟨hbad, rfl⟩ | ⟨hread, hsome⟩
        · exact State.descStart_unread hready rfl hline hfetch hbad
        · exact State.descStart_refused hready rfl hline hfetch hread (herr.trans hsome)
      exact hto _ _ hfails (hr.descFail_next hflight q e)
    · have hstart := State.descStart_next hready rfl hline hfetch hread (herr.trans hok) (hr.ring ▸ hflight)
      rw [hr.ring] at hstart
      refine ⟨fun hw => ?_, fun hw hc => ?_, fun hw hc => ⟨fun hq => ?_, fun hq => ?_⟩⟩
      · exact hto _ _ (hstart.trans (if_pos hw)) (hr.setRing _)
      · refine hto _ _ (hstart.trans ((if_neg ((Bool.not_eq_true _).mpr hw)).trans (if_neg ((Bool.not_eq_true _).mpr hc)))) ?_
        have hsend := hr.descSend q line.1
        rw [hflight] at hsend
        exact hsend
      · exact hto _ _ (hstart.trans ((if_neg ((Bool.not_eq_true _).mpr hw)).trans ((if_pos hc).trans (if_pos (beq_iff_eq.2 hq))))) (hr.setRing _)
      · exact hto _ _ (hstart.trans ((if_neg ((Bool.not_eq_true _).mpr hw)).trans ((if_pos hc).trans (if_neg (mt beq_iff_eq.1 hq))))) (hr.setRing _)
  · refine guard_eq_next.2 ⟨decide_eq_true hk, (if_neg ?_).symm⟩
    rw [h1]
    simp
  · intro r
    have hx := exec_descriptorRetire hk hs h1
    refine ⟨fun hno => hx.trans (congrArg _ (if_pos (by rw [hno]; rfl))), fun f hret hflight hfail hrun => ?_⟩
    intro d l
    refine ⟨fun hdone hcan => ?_, fun hwait => ?_⟩
    · have hretirable : s.retirable f = true := by
        rw [State.retirable, hdone, Bool.true_and, Bool.or_eq_true, beq_iff_eq]
        exact hcan
      have hspec := (s.setRing k (r.retired f)).descRelease_spec k (r.head + 1).toNat d
      have hframe := (s.setRing k (r.retired f)).descRelease_frame k (r.head + 1).toNat d
      have hone : s.retireOne k f = if d.irqFlag = true then
          ((s.setRing k (r.retired f)).descRelease k (r.head + 1).toNat d).crossIrq (k / 16) .ringDone
        else (s.setRing k (r.retired f)).descRelease k (r.head + 1).toNat d := rfl
      generalize (s.setRing k (r.retired f)).descRelease k (r.head + 1).toNat d = u at *
      have hcw : u.Counted (s.retireOne k f) := by
        rw [hone]
        exact counted_ite (State.counted_crossIrq (.refl u)) (.refl u)
      have hirq : d.irqFlag = true → (s.retireOne k f).regs.irqStatus.getLsbD 4 = true := fun h => by
        rw [hone, if_pos h]
        simp [State.crossIrq, State.irq, Irq.bit]
      have hretire := State.descRetire_one hret hflight hretirable
      generalize s.retireOne k f = w at *
      obtain ⟨lt, a, n, m, hu⟩ := hframe
      have hurings : u.rings = (s.setRing k (r.retired f)).rings := (congrArg State.rings hu).trans rfl
      have humem : SameMemory s u := by
        rw [hu]
        exact sameMemory_of_stores rfl rfl rfl rfl
      have hring : w.ring k = r.retired f :=
        (congrArg (Sparse.get Ring.init · k) (hcw.rings.trans hurings)).trans (State.ring_setRing_self _ _ _)
      have hempty : (w.ring k).flight = [] := by rw [hring, Ring.retired, hflight]; rfl
      have hidle : w.ringSettle k = w := State.ringSettle_idle (by rw [hring]; exact hfail) (by rw [hring]; exact hrun)
      have hlatch (i : Nat) : w.latch i = u.latch i := congrArg (Sparse.get 0 · i) hcw.same.latches
      have hdenied : w.regs.ltDenied = u.regs.ltDenied := by rw [hcw.regs]
      obtain ⟨h1, h2, hkeep, hzero⟩ := hspec
      refine ⟨_, hx.trans (congrArg _ ((hretire hempty).trans (congrArg (State.markContexts · k) hidle))), ?_, fun j hj => ?_, ?_,
        fun h hl => (hlatch l).trans (h1 h hl), fun h hl => (hlatch l).trans (h2 h hl), fun i hi => (hlatch i).trans (hkeep i hi),
        fun h hl => hdenied.trans (hzero h hl), hirq⟩
      · exact hring.trans (by rw [Ring.retired, hflight]; rfl)
      · exact (congrArg (Sparse.get Ring.init · j) (hcw.rings.trans hurings)).trans ((State.ring_setRing _ _ _ _).trans (if_neg hj))
      · exact humem.trans (hcw.same.sameMemory.trans (sameMemory_of_stores rfl rfl rfl rfl))
    · have hretirable : s.retirable f = false := by
        rw [State.retirable]
        rcases hwait with h | ⟨h, h2⟩
        · rw [h, Bool.false_and]
        · rw [h2, Bool.or_false, beq_eq_false_iff_ne.2 h, Bool.and_false]
      obtain ⟨h1, -, h3, h4⟩ := (State.Counted.ringBecomes (k := k) (.refl s)).markContexts
      exact ⟨_, hx.trans (congrArg _ (State.descRetire_waits hret hflight hretirable)), h1, h4, h3⟩

end


section

/-!
PROOF. An alert (R105, R106). Three writes of one channel follow each other: its count, its sticky bit, and the frames as
they go out again; the counts cross into CCLK as the events of every channel do (R555, R556).
-/

namespace Sys2Proof.Machine

/-- The history of a channel after PARCLR and the ignored frames, which are sent in the order in which they were (R106). -/
theorem take_append_take {α : Type} (a b : List α) (n : Nat) : (a ++ b.take n).take n = (a ++ b).take n := by
  rw [List.take_append, List.take_append, List.take_take]
  congr 2
  omega

/-- An event that finds its crossing full while CCLK is stopped is dropped (R556). -/
theorem State.cross_of_full {s : State} {c : Nat} (h : s.runs 2 = false) (hn : 16 ≤ Sparse.get 0 s.crossing c)
    (event : State → State) : s.cross c event = s.overrun 2 := by
  rw [State.cross, if_neg (by simp [h]), if_neg (Nat.not_lt.2 hn)]

/-- What an overrun of domain `d` sets: its sticky bit and its count (R537). -/
theorem State.overrun_counts (s : State) {d : Nat} (hd : d < 5) :
    ∃ r, s.overrun d = { s with regs := r } ∧ r.stopped = s.regs.stopped ∧ r.cdcOver.getLsbD d = true ∧
      Sparse.get 0 r.cdcCnt d = satAdd (Sparse.get 0 s.regs.cdcCnt d) 1 := by
  have hbit : (s.regs.cdcOver ||| BitVec.ofNat 5 (2 ^ d)).getLsbD d = true := by
    rw [BitVec.getLsbD_or, BitVec.getLsbD_ofNat, Nat.testBit_two_pow_self, decide_eq_true hd]
    exact Bool.or_true _
  have hcnt : Sparse.get 0 (Sparse.set 0 s.regs.cdcCnt d (satAdd (Sparse.get 0 s.regs.cdcCnt d) 1)) d
      = satAdd (Sparse.get 0 s.regs.cdcCnt d) 1 := Sparse.get_set_self ..
  unfold State.overrun
  dsimp only
  split
  · exact ⟨_, rfl, rfl, hbit, hcnt⟩
  · exact ⟨_, rfl, rfl, hbit, hcnt⟩

theorem exec_alertPulse {s : State} {chan : Nat} (hk : chan < 256) (hm : s.start.mode ≠ .reset) (h1 : s.runs 1 = true)
    (ignored : Nat) : exec (.alertPulse chan ignored) s = .next (s.alertPulse chan ignored) := by
  refine guard_eq_next.2 ⟨decide_eq_true hk, (if_neg ?_).symm⟩
  simp [hm, h1]

/-- PARCLR, and the frames `again` after it (R106). -/
def State.reissue (s : State) (c : Nat) (again : List (BitVec 48)) : State :=
  let s := s.sent c 0x0B 0 0
  s.setChan c { s.chan c with hist := (again ++ (s.chan c).hist).take 16 }

/-- A reissue writes its channel: the counts of its frames and the history, and no other field (R106). -/
theorem State.reissue_spec (s : State) (c : Nat) (again : List (BitVec 48)) :
    s.SameButChans (s.reissue c again) ∧ (∀ i, i ≠ c → (s.reissue c again).chan i = s.chan i) ∧
      ((s.reissue c again).chan c).caparCnt = (s.chan c).caparCnt ∧ ((s.reissue c again).chan c).err = (s.chan c).err ∧
      ((s.reissue c again).chan c).hist = (again ++ BitVec.ofNat 48 (0x0B * 2 ^ 42) :: (s.chan c).hist).take 16 := by
  unfold State.reissue State.sent
  simp only [State.chan_setChan_self]
  refine ⟨(s.sameButChans_setChan _ _).trans (State.sameButChans_setChan _ _ _), fun i hi => ?_, trivial, trivial, take_append_take _ _ _⟩
  rw [State.chan_setChan, if_neg hi, State.chan_setChan, if_neg hi]

/-- An alert whose two counts CCLK takes at once (R105, R106). -/
theorem State.alertPulse_of_runs {s : State} (h2 : s.runs 2 = true) (c ignored : Nat) :
    s.alertPulse c ignored =
      ((s.setChan c { s.chan c with caparCnt := satAdd (s.chan c).caparCnt 1 }).setChan c
        { (s.setChan c { s.chan c with caparCnt := satAdd (s.chan c).caparCnt 1 }).chan c with
          err := ((s.setChan c { s.chan c with caparCnt := satAdd (s.chan c).caparCnt 1 }).chan c).err ||| 1 }).reissue c
        ((s.frames c).take ignored) := by
  have h2' : (s.setChan c { s.chan c with caparCnt := satAdd (s.chan c).caparCnt 1 }).runs 2 = true := h2
  unfold State.alertPulse
  dsimp only
  rw [State.cross_of_runs h2, State.cross_of_runs h2', List.reverse_reverse]
  rfl

/-- An alert whose two counts are dropped: the frames go out again all the same (R106, R556). -/
theorem State.alertPulse_of_full {s : State} {c : Nat} (h2 : s.runs 2 = false) (hn : 16 ≤ Sparse.get 0 s.crossing c)
    (ignored : Nat) : ∃ r, s.alertPulse c ignored = ({ s with regs := r } : State).reissue c ((s.frames c).take ignored) ∧
      r.cdcOver.getLsbD 2 = true ∧ Sparse.get 0 r.cdcCnt 2 = satAdd (satAdd (Sparse.get 0 s.regs.cdcCnt 2) 1) 1 := by
  obtain ⟨r, hr, hst, -, hcnt⟩ := s.overrun_counts (d := 2) (by decide)
  have h2' : (s.overrun 2).runs 2 = false := by
    rw [hr]
    exact (congrArg (fun x : BitVec 5 => !x.getLsbD 2) hst).trans h2
  obtain ⟨r', hr', -, hover, hcnt'⟩ := (s.overrun 2).overrun_counts (d := 2) (by decide)
  have htwice : (s.overrun 2).overrun 2 = { s with regs := r' } := hr'.trans (by rw [hr])
  have hfull : 16 ≤ Sparse.get 0 (s.overrun 2).crossing c := by
    rw [hr]
    exact hn
  have hsum : Sparse.get 0 (s.overrun 2).regs.cdcCnt 2 = satAdd (Sparse.get 0 s.regs.cdcCnt 2) 1 := by
    rw [hr]
    exact hcnt
  refine ⟨r', ?_, hover, hcnt'.trans (congrArg (satAdd · 1) hsum)⟩
  unfold State.alertPulse
  dsimp only
  rw [State.cross_of_full h2 hn, State.cross_of_full h2' hfull, htwice, List.reverse_reverse]
  rfl

end Sys2Proof.Machine

open Sys2Proof Sys2Proof.Machine

/-- Settles O32: one channel is written, by the count, the bit and the frames sent again; the counts are dropped where the
crossing is full. -/
theorem alertsAreCountedAndReissued : Obligations.AlertsAreCountedAndReissued := by
  unfold Obligations.AlertsAreCountedAndReissued
  refine ⟨fun s c ignored hk hm h1 h2 => ?_, fun s c ignored hk h1 => ?_, fun s c ignored hk hm h1 h2 hn => ?_⟩
  · have hx := exec_alertPulse hk hm h1 ignored
    rw [s.alertPulse_of_runs h2] at hx
    generalize hu : s.setChan c { s.chan c with caparCnt := satAdd (s.chan c).caparCnt 1 } = u at hx
    have hc : u.chan c = { s.chan c with caparCnt := satAdd (s.chan c).caparCnt 1 } := by rw [← hu, State.chan_setChan_self]
    have hne : ∀ i, i ≠ c → u.chan i = s.chan i := fun i hi => by rw [← hu, State.chan_setChan, if_neg hi]
    have hsu : s.SameButChans u := hu ▸ s.sameButChans_setChan c _
    obtain ⟨hsame, hother, hcnt, herr, hhist⟩ :=
      (u.setChan c { u.chan c with err := (u.chan c).err ||| 1 }).reissue_spec c ((s.frames c).take ignored)
    rw [State.chan_setChan_self] at hcnt herr hhist
    have hall := (hsu.trans (u.sameButChans_setChan c _)).trans hsame
    have hcap : (u.chan c).caparCnt = satAdd (s.chan c).caparCnt 1 := by rw [hc]
    have hbit : (u.chan c).err = (s.chan c).err := by rw [hc]
    have hold : (u.chan c).hist = (s.chan c).hist := by rw [hc]
    refine ⟨_, hx, hcnt.trans hcap, herr.trans (congrArg (· ||| 1) hbit), hhist.trans ?_, fun i hi => ?_, hall⟩
    · rw [← hold]
    rw [hother i hi, State.chan_setChan, if_neg hi, hne i hi]
  · refine guard_eq_next.2 ⟨decide_eq_true hk, (if_pos (.inr ?_)).symm⟩
    simp [h1]
  · obtain ⟨r, hr, hover, hcdc⟩ := s.alertPulse_of_full h2 hn ignored
    have hx := exec_alertPulse hk hm h1 ignored
    obtain ⟨hsame, hother, hcnt, herr, -⟩ := ({ s with regs := r } : State).reissue_spec c ((s.frames c).take ignored)
    rw [← hr] at hsame hother hcnt herr
    rw [State.SameButChans] at hsame
    refine ⟨_, hx, hcnt, herr, ?_, ?_, hother, ?_⟩
    · rw [hsame]
      exact hover
    · rw [hsame]
      exact hcdc
    · rw [hsame]
      exact sameMemory_of_stores rfl rfl rfl rfl

end


section

/-!
PROOF. The refresh that is owed (R209 to R212). An accrual is one write of the bank's accumulator and its owed count, and of
the channel's count of rises where the count comes to 8; what follows it reads the state that these writes leave.
-/

namespace Sys2Proof.Machine

/-- The tier whose step an accrual takes (R210, R558). -/
def State.accrualTier (s : State) (k : Nat) : Nat := if s.runs 4 then (s.die (k / 256)).tier else 2

/-- The bank after an accrual, before it refreshes (R209). -/
def State.accrued (s : State) (k : Nat) : Bank :=
  let b := s.bank k
  let r := accrue b.acc.toNat b.owed (tierStep (s.accrualTier k))
  { b with acc := BitVec.ofNat 16 r.1, owed := r.2, refs := if s.runs 4 then b.refs else 0 }

/-- The writes of an accrual: the bank, and the count of a rise to 8 (R209, R212). -/
def State.accrualWrites (s : State) (k : Nat) : State :=
  let t := s.setBank k (s.accrued k)
  if (s.bank k).owed < 8 ∧ (s.accrued k).owed = 8 then t.countFull k else t

theorem State.accrual_eq (s : State) (k : Nat) : s.accrual k = (s.accrualWrites k).afterAccrual k := rfl

/-- The moment of an accrual within the tick. -/
def State.accrualMoment (s : State) (k : Nat) : State := if s.runs 4 then s.touch (12 * (k % 16)) else s

theorem State.accrualMoment_frame (s : State) (k : Nat) :
    ∃ c, s.accrualMoment k = { s with clk := c } ∧ c.openPhase = s.clk.openPhase := by
  unfold State.accrualMoment
  split
  · exact ⟨_, rfl, rfl⟩
  · exact ⟨_, rfl, rfl⟩

theorem exec_refreshAccrual {s : State} {k : Nat} (hk : k < 4096) (hl : s.chanLive (k / 16) = true) :
    exec (.refreshAccrual k) s = .next (((s.accrualMoment k).accrualWrites k).afterAccrual k).goOn :=
  guard_eq_next.2 ⟨decide_eq_true hk, (if_pos hl).symm⟩

theorem State.accrued_owed (s : State) (k : Nat) : (s.accrued k).owed =
    min 8 ((s.bank k).owed + ((s.bank k).acc.toNat + tierStep (s.accrualTier k)) / 16000) := rfl

theorem State.accrued_acc (s : State) (k : Nat) :
    (s.accrued k).acc.toNat = ((s.bank k).acc.toNat + tierStep (s.accrualTier k)) % 16000 := by
  refine (BitVec.toNat_ofNat _ _).trans (Nat.mod_eq_of_lt ?_)
  exact Nat.lt_trans (Nat.mod_lt _ (by decide)) (by decide)

theorem State.countFull_of_runs {s : State} (h : s.runs 2 = true) (k : Nat) : s.countFull k =
    s.setChan (k / 16) { s.chan (k / 16) with refFull := satAdd (s.chan (k / 16)).refFull 1 } := State.cross_of_runs h _ _

/-- A rise to 8 with CCLK running is counted at once in REF_FULL_CNT (R212). -/
theorem State.accrualWrites_of_full {s : State} {k : Nat} (h2 : s.runs 2 = true) (ho : (s.bank k).owed < 8)
    (hf : (s.accrued k).owed = 8) : s.accrualWrites k =
      (s.setBank k (s.accrued k)).setChan (k / 16)
        { s.chan (k / 16) with refFull := satAdd (s.chan (k / 16)).refFull 1 } :=
  (if_pos ⟨ho, hf⟩).trans (State.countFull_of_runs (s := s.setBank k (s.accrued k)) h2 k)

theorem State.accrualWrites_of_not_full {s : State} {k : Nat} (h : ¬ ((s.bank k).owed < 8 ∧ (s.accrued k).owed = 8)) :
    s.accrualWrites k = s.setBank k (s.accrued k) := if_neg h

theorem State.bank_accrualWrites {s : State} (h2 : s.runs 2 = true) (k j : Nat) :
    (s.accrualWrites k).bank j = if j = k then s.accrued k else s.bank j := by
  by_cases h : (s.bank k).owed < 8 ∧ (s.accrued k).owed = 8
  · rw [State.accrualWrites_of_full h2 h.1 h.2]
    exact State.bank_setBank ..
  · rw [State.accrualWrites_of_not_full h]
    exact State.bank_setBank ..

/-- A course in progress takes no refresh before its next boundary (R203). -/
theorem State.afterAccrual_of_course {s : State} {k : Nat} (h : (s.bank k).course.isSome = true) : s.afterAccrual k = s :=
  if_pos h

/-- With fewer than 8 owed and neither the open phase nor a stop of REFCLK, nothing follows an accrual (R204, R558). -/
theorem State.afterAccrual_of_few {s : State} {k : Nat} (hc : (s.bank k).course = none) (ho : (s.bank k).owed < 8)
    (hp : s.clk.openPhase = false) (h4 : s.runs 4 = true) : s.afterAccrual k = s := by
  unfold State.afterAccrual
  rw [if_neg (by simp [hc]), if_neg (Nat.not_le.2 ho), if_neg (by simp [hp, h4])]

end Sys2Proof.Machine

open Sys2Proof Sys2Proof.Machine

/-- Settles O35: the writes of an accrual, and the cases of what follows them. -/
theorem refreshIsOwedByTheTier : Obligations.RefreshIsOwedByTheTier := by
  unfold Obligations.RefreshIsOwedByTheTier
  intro s k hk hl h2
  dsimp only
  have hx := exec_refreshAccrual hk hl
  obtain ⟨c, hm, hopen⟩ := s.accrualMoment_frame k
  rw [hm] at hx
  generalize hv : ({ s with clk := c } : State) = v at hx
  have hbank : ∀ j, v.bank j = s.bank j := fun j => hv ▸ rfl
  have h2v : v.runs 2 = true := hv ▸ h2
  have h4v : v.runs 4 = s.runs 4 := hv ▸ rfl
  have hchan : ∀ j, v.chan j = s.chan j := fun j => hv ▸ rfl
  have hopenv : v.clk.openPhase = s.clk.openPhase := hv ▸ hopen
  have htier : v.accrualTier k = if s.runs 4 then (s.die (k / 256)).tier else 2 := hv ▸ rfl
  have howed := v.accrued_owed k
  have hacc := v.accrued_acc k
  rw [htier, hbank] at howed hacc
  have hb : (v.accrualWrites k).bank k = v.accrued k := (State.bank_accrualWrites h2v k k).trans (if_pos rfl)
  refine ⟨v.accrualWrites k, hx, (congrArg Bank.owed hb).trans howed, (congrArg (·.acc.toNat) hb).trans hacc, ?_, ?_, ?_, ?_, ?_, ?_⟩
  · rw [hb, ← hbank]
    rfl
  · intro j hj
    rw [State.bank_accrualWrites h2v, if_neg hj, hbank]
  · intro ho hf
    rw [← hbank] at ho
    rw [State.accrualWrites_of_full h2v ho (howed.trans hf), State.chan_setChan_self, hchan]
    exact ⟨rfl, hv ▸ rfl⟩
  · intro h
    have hno : ¬ ((v.bank k).owed < 8 ∧ (v.accrued k).owed = 8) := by
      rw [hbank, howed]
      omega
    rw [State.accrualWrites_of_not_full hno]
    exact hv ▸ rfl
  · intro hc
    refine State.afterAccrual_of_course ?_
    rw [hb]
    rw [← hbank] at hc
    exact hc
  · intro hc ho hp h4
    refine State.afterAccrual_of_few ?_ ?_ ?_ ?_
    · rw [hb]
      rw [← hbank] at hc
      exact hc
    · rw [hb, howed]
      exact ho
    all_goals
      by_cases h : (v.bank k).owed < 8 ∧ (v.accrued k).owed = 8
    · rw [State.accrualWrites_of_full h2v h.1 h.2]
      exact hopenv.trans hp
    · rw [State.accrualWrites_of_not_full h]
      exact hopenv.trans hp
    · rw [State.accrualWrites_of_full h2v h.1 h.2]
      exact h4v.trans h4
    · rw [State.accrualWrites_of_not_full h]
      exact h4v.trans h4

end


section

/-!
PROOF. The patrols (R181 to R184). A visit is a fold over the eight words of a line, which are distinct: what a word delivers is
counted, and one that is corrected is written back right, which is no change of another word.
-/

namespace Sys2Proof.Machine

/-- What the visit of a line leaves of the word of a place: the corrected data where it was correctable, else the word as it was
(R182). -/
def State.Patrolled (s t : State) (p : Place) : Prop :=
  (∀ d, s.placeCheck p = .corrected d → t.holds p d) ∧
    ((∀ d, s.placeCheck p ≠ .corrected d) → t.placeData p = s.placeData p ∧ t.placeSyn p = s.placeSyn p)

/-- A place of which the word stays holds what it held. -/
theorem State.place_congr {s t : State} {p : Place} (hp : p.space ≠ .pages)
    (h : t.word p.space p.word = s.word p.space p.word) : t.placeData p = s.placeData p ∧ t.placeSyn p = s.placeSyn p := by
  rw [State.word_of_place _ hp, State.word_of_place _ hp, Prod.mk.injEq] at h
  exact h

theorem State.placeCheck_congr {s t : State} {p : Place} (hp : p.space ≠ .pages)
    (h : t.word p.space p.word = s.word p.space p.word) : t.placeCheck p = s.placeCheck p := by
  obtain ⟨hd, hx⟩ := State.place_congr hp h
  rw [State.placeCheck, hd, hx, State.placeCheck]

/-- `Patrolled` speaks of one word in each of its states. -/
theorem State.Patrolled.congr {s s' t t' : State} {p : Place} (hp : p.space ≠ .pages)
    (hs : s'.word p.space p.word = s.word p.space p.word) (ht : t'.word p.space p.word = t.word p.space p.word)
    (h : State.Patrolled s t p) : State.Patrolled s' t' p := by
  obtain ⟨hsd, hsx⟩ := State.place_congr hp hs
  obtain ⟨htd, htx⟩ := State.place_congr hp ht
  have hc := State.placeCheck_congr hp hs
  unfold State.Patrolled State.holds
  rw [hc, hsd, hsx, htd, htx]
  exact h

theorem State.patrolWord_spec (s : State) {p : Place} (hp : p.space ≠ .pages) :
    State.Stored [(p.space, p.word)] s (s.patrolWord p) ∧ State.Patrolled s (s.patrolWord p) p := by
  have hacc : s.Counted (s.account p.site patrolWho p.where_ (s.placeCheck p) (s.placeSyn p)) := State.counted_account (.refl s)
  unfold State.patrolWord
  dsimp only
  generalize s.account p.site patrolWho p.where_ (s.placeCheck p) (s.placeSyn p) = u at hacc
  cases ho : s.placeCheck p with
  | corrected d =>
    obtain ⟨hst, hd, hx⟩ := u.placeWrite_spec hp d false
    refine ⟨(hacc.stored.trans hst).mono (List.Subset.refl _), fun d' hd' => ?_, fun h => absurd ho (h d)⟩
    rw [ho, BondOutcome.corrected.injEq] at hd'
    exact hd' ▸ ⟨hd, hx⟩
  | clean | poison | uncorrectable =>
    refine ⟨hacc.stored.mono (List.nil_subset _), fun d hd => ?_, fun _ => State.place_congr hp (hacc.same.word _ hp)⟩
    exact nomatch ho.symm.trans hd

/-- The visit of distinct words. -/
theorem State.patrolWords_spec (ps : List Place) (hsp : ∀ p ∈ ps, p.space ≠ .pages)
    (hinj : (ps.map (fun p => (p.space, p.word))).Nodup) (s : State) :
    State.Stored (ps.map (fun p => (p.space, p.word))) s (ps.foldl (fun s p => s.patrolWord p) s) ∧
      ∀ p ∈ ps, State.Patrolled s (ps.foldl (fun s p => s.patrolWord p) s) p := by
  induction ps generalizing s with
  | nil => exact ⟨(State.Counted.refl s).stored, fun _ h => absurd h List.not_mem_nil⟩
  | cons p r ih =>
    rw [List.map_cons, List.nodup_cons] at hinj
    simp only [List.forall_mem_cons] at hsp ⊢
    obtain ⟨hst, hp⟩ := s.patrolWord_spec hsp.1
    obtain ⟨hrest, hall⟩ := ih hsp.2 hinj.2 (s.patrolWord p)
    refine ⟨hst.trans hrest, hp.congr hsp.1 rfl (hrest.words _ _ hsp.1 hinj.1), fun q hq => ?_⟩
    have hne : (q.space, q.word) ∉ [(p.space, p.word)] := by
      intro hmem
      rw [List.mem_singleton] at hmem
      exact hinj.1 (hmem ▸ List.mem_map_of_mem hq)
    exact (hall q hq).congr (hsp.2 q hq) (hst.words _ _ (hsp.2 q hq) hne).symm rfl

theorem Bank.SameButCounts.patrol {b c : Bank} (h : b.SameButCounts c) : c.patrol = b.patrol :=
  (congrArg Bank.patrol h).trans rfl

theorem State.SameButCounts.ctl {s t : State} (h : s.SameButCounts t) : t.ctl = s.ctl := (congrArg State.ctl h).trans rfl

theorem State.Stored.mortarPatrol {ws : List (Space × Nat)} {s t : State} (h : State.Stored ws s t) :
    t.regs.mortarPatrol = s.regs.mortarPatrol := (congrArg Regs.mortarPatrol h.counted.regs).trans rfl

theorem State.Stored.ctl {ws : List (Space × Nat)} {s t : State} (h : State.Stored ws s t) : t.ctl = s.ctl :=
  (congrArg State.ctl h.counted.same).trans rfl

/-! ### The lines of the two patrols -/

theorem State.patrolPlaces_space (s : State) (k n : Nat) : ∀ p ∈ s.patrolPlaces k n, p.space ≠ .pages := by
  intro p hp
  obtain ⟨i, -, rfl⟩ := List.mem_map.1 hp
  exact nofun

theorem State.patrolPlaces_nodup (s : State) (k n : Nat) : ((s.patrolPlaces k n).map (fun p => (p.space, p.word))).Nodup := by
  rw [State.patrolPlaces, List.map_map]
  refine List.nodup_range.map fun i j h => ?_
  have hij := (Prod.mk.injEq _ _ _ _ ▸ h).2
  simp only [State.rowPlace, State.stackWordNo] at hij
  omega

theorem State.Counted.patrolPlaces {s t : State} (h : s.Counted t) (k n : Nat) : t.patrolPlaces k n = s.patrolPlaces k n := by
  have hreg : t.regionAtSlab (n / 16) = s.regionAtSlab (n / 16) := by rw [h.same]; rfl
  rw [State.patrolPlaces, hreg]
  exact List.map_congr_left fun _ _ => h.rowPlace _ _ _ _

theorem mortarLine_nodup (off : Nat) : ((mortarLine off).map (fun p => (p.space, p.word))).Nodup := by
  rw [mortarLine, List.map_map]
  refine List.nodup_range.map fun i j h => ?_
  have hij := (Prod.mk.injEq _ _ _ _ ▸ h).2
  simp only [mortarPlace] at hij
  omega

@[mono] theorem State.counted_patrolRow {s₀ s : State} {k n : Nat} (h : s₀.Counted s) : s₀.Counted (s.patrolRow k n) := by
  unfold State.patrolRow State.sendRow
  mono

/-! ### The visit of a line of the stack (R181, R182) -/

section
variable {s : State} {k : Nat}

theorem exec_patrolTurn (hk : k < 4096) (hs : s.serving = true) : exec (.patrolTurn k) s = .next (s.patrolTurn k) :=
  guard_eq_next.2 ⟨decide_eq_true hk, (if_pos hs).symm⟩

theorem State.patrolTurn_of_off (h : s.regs.scrubOn = 0) : s.patrolTurn k = s := if_pos h

theorem State.patrolTurn_of_course (h : s.regs.scrubOn ≠ 0) (hc : (s.bank k).course.isSome = true) :
    s.patrolTurn k = s.setBank k { s.bank k with patrolDue := true } := (if_neg h).trans (if_pos hc)

theorem State.patrolTurn_of_idle (h : s.regs.scrubOn ≠ 0) (hc : (s.bank k).course = none) : s.patrolTurn k = s.patrolAccess k :=
  (if_neg h).trans (if_neg (by simp [hc]))

/-- The marks of a turn hold no bank. -/
theorem State.bankHeld_patrolDue (s : State) (k : Nat) (b : Bool) :
    (s.setBank k { s.bank k with patrolDue := b }).bankHeld k = s.bankHeld k := by
  unfold State.bankHeld
  rw [State.bank_setBank_self]
  rfl

theorem State.patrolAccess_skips (h : s.bankHeld k = true ∨ 4 ≤ (s.bank k).owed ∨ 95 * 16 < (s.die (k / 256)).temp) :
    s.patrolAccess k = s.setBank k { s.bank k with patrolDue := false } := by
  refine if_pos ?_
  rw [State.bankHeld_patrolDue]
  simp only [Bool.or_eq_true, decide_eq_true_eq, or_assoc]
  exact h

/-- The bank while its patrol is on the line: the turn is taken, and the next line is the one after it. -/
def Bank.visited (b : Bank) : Bank := { b with patrolDue := false, patrol := (b.patrol + 1) % bankLines }

theorem State.patrolAccess_visits (hh : s.bankHeld k = false) (ho : (s.bank k).owed < 4) (ht : (s.die (k / 256)).temp ≤ 95 * 16) :
    ∃ u : State, (∀ j, u.bank j = if j = k then (s.bank k).visited else s.bank j) ∧ s.SameButCounts u ∧
      s.patrolAccess k = (u.patrolRow k ((s.bank k).patrol % bankLines)).patrolLine k ((s.bank k).patrol % bankLines) := by
  generalize hv : s.setBank k { s.bank k with patrolDue := false } = v
  have hb : ∀ j, v.bank j = if j = k then { s.bank k with patrolDue := false } else s.bank j := by
    subst hv
    exact State.bank_setBank s k _
  have hheld : v.bankHeld k = false := hv ▸ (s.bankHeld_patrolDue k false).trans hh
  have hgo : ¬ (v.bankHeld k || decide (4 ≤ (s.bank k).owed) || decide (95 * 16 < (v.die (k / 256)).temp)) = true := by
    have hd : v.die (k / 256) = s.die (k / 256) := hv ▸ rfl
    rw [hheld, hd, decide_eq_false (Nat.not_le.2 ho), decide_eq_false (not_lt.2 ht)]
    exact nofun
  refine ⟨v.setBank k { v.bank k with patrol := ((s.bank k).patrol + 1) % bankLines }, fun j => ?_, hv ▸ State.sameButCounts_setBank (State.sameButCounts_setBank (.refl s)), ?_⟩
  · rw [State.bank_setBank, hb, if_pos rfl, hb]
    split
    · rfl
    · rfl
  · unfold State.patrolAccess
    dsimp only
    rw [hv, if_neg hgo]

end

/-! ### The turn of Mortar (R183, R184) -/

theorem State.mortarPending_congr {s t : State} (hp : t.ports = s.ports) (hd : t.dbg = s.dbg) (n : Nat) :
    t.mortarPending n = s.mortarPending n := by
  rw [State.mortarPending, hp, hd, State.mortarPending]

theorem State.Stored.dbg {ws : List (Space × Nat)} {s t : State} (h : State.Stored ws s t) : t.dbg = s.dbg :=
  (congrArg State.dbg h.counted.same).trans rfl

/-- What is delivered at Mortar is counted in registers: no bank has a count of it. -/
theorem State.banks_account_mortar (s : State) (w : Who) (n : Nat) (o : BondOutcome) (syn : BitVec 16) :
    (s.account .mortar w n o syn).banks = s.banks := by
  have hce (u : State) : u.countCe.banks = u.banks := by
    unfold State.countCe
    dsimp only
    split
    · rfl
    · rfl
  have hlog (u : State) (a b : Nat) (c : BitVec 16) (d e : Nat) : (u.pushLog a b c d e).banks = u.banks := by
    unfold State.pushLog
    split
    · rfl
    · split
      · rfl
      · rfl
  cases o with
  | clean | poison => rfl
  | corrected d =>
    unfold State.account
    dsimp only
    split
    · exact (hlog _ _ _ _ _ _).trans (hce _)
    · exact hce _
  | uncorrectable => exact (hlog _ _ _ _ _ _).trans rfl

theorem State.banks_patrolWord_mortar (s : State) {p : Place} (hp : p.site = .mortar) : (s.patrolWord p).banks = s.banks := by
  unfold State.patrolWord
  dsimp only
  rw [hp]
  split
  · unfold State.placeWrite
    rw [State.placeSet_frame]
    exact s.banks_account_mortar _ _ _ _
  · exact s.banks_account_mortar _ _ _ _

theorem mortarLine_site (off : Nat) : ∀ p ∈ mortarLine off, p.site = .mortar := by
  intro p hp
  obtain ⟨i, -, rfl⟩ := List.mem_map.1 hp
  rfl

/-- The words of Mortar's turn, while a request to the line waits and while none does (R184). -/
theorem State.mortarWords_eq (n : Nat) (ps : List Place) (s : State) (hsp : ∀ p ∈ ps, p.space ≠ .pages) :
    ps.foldl (fun s p =>
      if s.mortarPending n then s.account p.site patrolWho p.where_ (s.placeCheck p) (s.placeSyn p) else s.patrolWord p) s =
    if s.mortarPending n then ps.foldl (fun s p => s.account p.site patrolWho p.where_ (s.placeCheck p) (s.placeSyn p)) s
    else ps.foldl (fun s p => s.patrolWord p) s := by
  induction ps generalizing s with
  | nil => exact (ite_self s).symm
  | cons p r ih =>
    rw [List.forall_mem_cons] at hsp
    rw [List.foldl_cons, ih _ hsp.2]
    by_cases h : s.mortarPending n = true
    · have hc : s.Counted (s.account p.site patrolWho p.where_ (s.placeCheck p) (s.placeSyn p)) := State.counted_account (.refl s)
      have h' := (State.mortarPending_congr hc.stored.ports hc.dbg n).trans h
      rw [if_pos h, if_pos h', if_pos h, List.foldl_cons]
    · have hst := (s.patrolWord_spec hsp.1).1
      have h' : ¬ (s.patrolWord p).mortarPending n = true := (State.mortarPending_congr hst.ports hst.dbg n).symm ▸ h
      rw [if_neg h, if_neg h', if_neg h, List.foldl_cons]

/-- Mortar's turn leaves the banks as they are. -/
theorem State.banks_mortarWords (f : State → Place → State) (ps : List Place) (hf : ∀ s, ∀ p ∈ ps, (f s p).banks = s.banks) (s : State) :
    (ps.foldl f s).banks = s.banks := by
  induction ps generalizing s with
  | nil => rfl
  | cons p r ih => exact (ih (fun u q hq => hf u q (List.mem_cons_of_mem _ hq)) _).trans (hf s p List.mem_cons_self)

theorem exec_mortarPatrol {s : State} (hs : s.serving = true) (h4 : s.runs 4 = true) (h2 : s.runs 2 = true) :
    exec .mortarPatrol s = .next s.mortarTurn :=
  congrArg Host.Outcome.next (if_pos (by rw [hs, h4, h2]; rfl))

end Sys2Proof.Machine

open Sys2Proof Sys2Proof.Machine

/-- Settles O38: a turn is skipped, or is a visit of the eight words of a line. -/
theorem patrolsWriteBackWhatTheyCorrect : Obligations.PatrolsWriteBackWhatTheyCorrect := by
  unfold Obligations.PatrolsWriteBackWhatTheyCorrect
  refine ⟨fun s k hk hs hon => ⟨fun hc => ?_, fun hc hskip => ?_, fun hc hh ho ht => ?_⟩, fun s k hk hoff => ?_, fun s hs h2 => ?_,
    fun s hs h4 h2 => ?_⟩
  · rw [exec_patrolTurn hk hs, State.patrolTurn_of_course hon hc]
  · rw [exec_patrolTurn hk hs, State.patrolTurn_of_idle hon hc, State.patrolAccess_skips hskip]
  · intro ps
    obtain ⟨u, hbank, hu, hvisit⟩ := State.patrolAccess_visits hh ho ht
    have hx := exec_patrolTurn hk hs
    rw [State.patrolTurn_of_idle hon hc, hvisit] at hx
    generalize hn : (s.bank k).patrol % bankLines = n at hx
    have hrow : u.Counted (u.patrolRow k n) := State.counted_patrolRow (.refl u)
    have hps : u.patrolPlaces k n = s.patrolPlaces k n := by
      have hsame (i : Nat) : (u.bank i).physRow = (s.bank i).physRow := by
        rw [hbank]
        split
        · next h => exact h ▸ rfl
        · rfl
      have hreg : u.regionAtSlab = s.regionAtSlab := by rw [hu]; rfl
      unfold State.patrolPlaces State.rowPlace State.stackWordNo
      rw [hsame, hreg]
    have hword : ∀ sp w, sp ≠ .pages → u.word sp w = s.word sp w := fun sp w hsp => hu.word w hsp
    obtain ⟨hst, hall⟩ := State.patrolWords_spec (s.patrolPlaces k n) (s.patrolPlaces_space k n) (s.patrolPlaces_nodup k n)
      (u.patrolRow k n)
    rw [State.patrolLine, hrow.patrolPlaces, hps] at hx
    have hps' : ps = s.patrolPlaces k n := congrArg (s.patrolPlaces k) hn
    rw [hps']
    refine ⟨_, hx, ?_, fun p hp => ?_, fun sp w hsp hw => ?_, ?_, ?_⟩
    · calc _ = ((u.patrolRow k n).bank k).patrol := (hst.counted.bank k).patrol
        _ = (u.bank k).patrol := (hrow.bank k).patrol
        _ = ((s.bank k).patrol + 1) % bankLines := congrArg Bank.patrol ((hbank k).trans (if_pos rfl))
    · have hsp := s.patrolPlaces_space k n p hp
      exact (hall p hp).congr hsp ((hrow.same.word _ hsp).trans (hword _ _ hsp)).symm rfl
    · rw [hst.words sp w hsp hw, hrow.same.word w hsp, hword sp w hsp]
    · rw [hst.latches, hrow.stored.latches, hu]
    · exact hst.ctl.trans (hrow.same.ctl.trans hu.ctl)
  · refine guard_eq_next.2 ⟨decide_eq_true hk, ?_⟩
    rw [State.patrolTurn_of_off hoff, ite_self]
  · exact congrArg Host.Outcome.next (if_neg (by simp [h2]))
  · intro n
    have hx := exec_mortarPatrol hs h4 h2
    generalize hv : ({ s with regs := { s.regs with mortarPatrol := (n + 1) % mortarLines } } : State) = v
    have hturn : s.mortarTurn = if s.mortarPending n then
          (mortarLine (128 * n)).foldl (fun s p => s.account p.site patrolWho p.where_ (s.placeCheck p) (s.placeSyn p)) v
        else (mortarLine (128 * n)).foldl (fun s p => s.patrolWord p) v := by
      have hpend : v.mortarPending n = s.mortarPending n := hv ▸ rfl
      rw [← hpend, ← State.mortarWords_eq n _ v (mortarLine_space _), ← hv]
      rfl
    have hports : v.ports = s.ports := hv ▸ rfl
    have hbanks : v.banks = s.banks := hv ▸ rfl
    have hpat : v.regs.mortarPatrol = (n + 1) % mortarLines := hv ▸ rfl
    have hsv : s.SameButCounts v := hv ▸ rfl
    rw [hturn] at hx
    clear_value n
    cases hp : s.mortarPending n with
    | true =>
      rw [if_pos hp] at hx
      have hc : v.Counted ((mortarLine (128 * n)).foldl
          (fun s p => s.account p.site patrolWho p.where_ (s.placeCheck p) (s.placeSyn p)) v) :=
        counted_foldl (.refl v) fun _ _ hu => State.counted_account hu
      refine ⟨_, hx, hc.stored.mortarPatrol.trans hpat, hc.stored.ports.trans hports, ?_, fun _ sp w hsp => ?_, nofun⟩
      · refine (State.banks_mortarWords _ _ (fun u p hp => ?_) v).trans hbanks
        rw [mortarLine_site _ p hp]
        exact u.banks_account_mortar _ _ _ _
      · rw [hc.same.word w hsp, hsv.word w hsp]
    | false =>
      rw [hp, if_neg nofun] at hx
      obtain ⟨hst, hall⟩ := State.patrolWords_spec (mortarLine (128 * n)) (mortarLine_space _) (mortarLine_nodup _) v
      refine ⟨_, hx, hst.mortarPatrol.trans hpat, hst.ports.trans hports, ?_, nofun,
        fun _ => ⟨fun p hp => ?_, fun sp w hsp hw => ?_⟩⟩
      · exact (State.banks_mortarWords _ _ (fun u p hp => u.banks_patrolWord_mortar (mortarLine_site _ p hp)) v).trans hbanks
      · have hsp := mortarLine_space _ p hp
        exact State.Patrolled.congr (s' := s) hsp (hsv.word _ hsp).symm rfl (hall p hp)
      · rw [hst.words sp w hsp hw, hsv.word w hsp]

end


section

/-!
PROOF. Clocks (R89, R528, R557): the check of FCLK, the DVFS handshake, and clocks that stop and run again.
-/

namespace Sys2Proof.Machine

/-! ### Which clocks run -/

theorem getLsbD_or_two_pow {w : Nat} (x : BitVec w) {d : Nat} (hd : d < w) (e : Nat) :
    (x ||| BitVec.ofNat w (2 ^ d)).getLsbD e = (x.getLsbD e || decide (d = e)) := by
  rw [BitVec.getLsbD_or, BitVec.getLsbD_ofNat, Nat.testBit_two_pow]
  by_cases h : d = e
  · subst h
    simp [hd]
  · simp [h]

theorem getLsbD_and_not_two_pow {w : Nat} (x : BitVec w) {d e : Nat} (he : e < w) :
    (x &&& ~~~ BitVec.ofNat w (2 ^ d)).getLsbD e = (x.getLsbD e && !decide (d = e)) := by
  rw [BitVec.getLsbD_and, BitVec.getLsbD_not, BitVec.getLsbD_ofNat, Nat.testBit_two_pow, decide_eq_true he, Bool.true_and,
    Bool.true_and]

/-! ### A clock that stops (R528, R557) -/

theorem State.stopRef_frame (s : State) : ∃ cs, s.stopRef =
    { s with chans := cs, plumb := { s.plumb with allow := 0, ksAllow := 0, tickFlags := s.plumb.tickFlags ||| 1 } } := by
  have h := State.sameButChans_foldl_setChan (fun s c => { s.chan c with allow := 0 }) (s.chans.map (·.1)) s
  rw [State.SameButChans] at h
  unfold State.stopRef
  dsimp only
  rw [h]
  exact ⟨_, rfl⟩

/-- The registers of clock `d` as it stops. -/
def Regs.stopsClock (r : Regs) (d : Nat) : Regs :=
  { r with stopped := r.stopped ||| BitVec.ofNat 5 (2 ^ d), stoppedSeen := r.stoppedSeen ||| BitVec.ofNat 5 (2 ^ d),
           irqStatus := r.irqStatus ||| BitVec.ofNat 20 (2 ^ 15) }

/-- A clock stops: its bits and the cause are set, and with REFCLK no unit is allowed (R528, R559). -/
theorem State.stopClock_spec (s : State) (d : Nat) : ∃ cs p, s.stopClock d = { s with regs := s.regs.stopsClock d, chans := cs, plumb := p } ∧
    (d ≠ 4 → p = s.plumb) ∧ (d = 4 → p.allow = 0 ∧ p.ksAllow = 0) := by
  by_cases hd : d = 4
  · obtain ⟨cs, hcs⟩ := (s.mapRegs (fun r =>
      { r with stopped := r.stopped ||| BitVec.ofNat 5 (2 ^ d), stoppedSeen := r.stoppedSeen ||| BitVec.ofNat 5 (2 ^ d) })).stopRef_frame
    unfold State.stopClock
    dsimp only
    rw [if_pos hd, hcs]
    exact ⟨_, _, rfl, fun h => absurd hd h, fun _ => ⟨rfl, rfl⟩⟩
  · unfold State.stopClock
    dsimp only
    rw [if_neg hd]
    exact ⟨s.chans, s.plumb, rfl, fun _ => rfl, fun h => absurd h hd⟩

theorem State.stopClock_shows (s : State) {d : Nat} (hd : d < 5) : (s.stopClock d).runs d = false ∧
    (s.stopClock d).regs.stoppedSeen.getLsbD d = true ∧ (s.stopClock d).regs.irqStatus.getLsbD 15 = true ∧
    (∀ e, e < 5 → e ≠ d → (s.stopClock d).runs e = s.runs e) ∧ SameMemory s (s.stopClock d) ∧ (d ≠ 4 → (s.stopClock d).plumb = s.plumb) ∧
    (d = 4 → (s.stopClock d).plumb.allow = 0 ∧ (s.stopClock d).plumb.ksAllow = 0) := by
  obtain ⟨cs, p, heq, hkeep, hnone⟩ := s.stopClock_spec d
  rw [heq]
  have hstopped (e : Nat) : (s.regs.stopsClock d).stopped.getLsbD e = (s.regs.stopped.getLsbD e || decide (d = e)) :=
    getLsbD_or_two_pow _ hd e
  refine ⟨?_, ?_, ?_, fun e _ he => ?_, sameMemory_of_stores rfl rfl rfl rfl, hkeep, hnone⟩
  · exact (congrArg (!·) (hstopped d)).trans (by simp)
  · exact (getLsbD_or_two_pow s.regs.stoppedSeen hd d).trans (by simp)
  · exact (getLsbD_or_two_pow s.regs.irqStatus (by decide : 15 < 20) 15).trans (by simp)
  · exact (congrArg (!·) (hstopped e)).trans (by simp [State.runs, Ne.symm he])

section
variable {s : State} {d : Nat}

theorem exec_clockStopped (hd : d < 5) : exec (.clockStopped d) s = .next (s.clockStopped d) :=
  guard_eq_next.2 ⟨decide_eq_true hd, rfl⟩

theorem State.clockStopped_of_not_mayStop (h : s.mayStop d = false) : s.clockStopped d = s := if_pos (by rw [h]; rfl)

theorem State.clockStopped_of_known (h : s.mayStop d = true) (hf : d = 3 → s.clk.fclkRan ≠ none) : s.clockStopped d = s.stopClock d := by
  unfold State.clockStopped
  rw [if_neg (by simp [h]), if_neg fun hn => hf hn.1 hn.2]

/-- Before the first check a free value tells whether FCLK has run (log 53). -/
theorem State.clockStopped_of_unknown (h : s.mayStop 3 = true) (hf : s.clk.fclkRan = none) : s.clockStopped 3 =
    if Config.fclkRan s.free then ({ s with free := s.free + 1, clk := { s.clk with fclkRan := some true } } : State).stopClock 3
    else { s with free := s.free + 1 } := by
  unfold State.clockStopped
  rw [if_neg (by simp [h]), if_pos ⟨rfl, hf⟩]

theorem State.mayStop_of_no_fclk (h : s.clk.fclkRan = some false) : s.mayStop 3 = false := by
  simp [State.mayStop, h]

/-! ### A clock that runs again (R557) -/

theorem exec_clockRestart (hd : d < 5) : exec (.clockRestart d) s = .next (s.clockRestart d) :=
  guard_eq_next.2 ⟨decide_eq_true hd, rfl⟩

theorem State.clockRestart_of_waits (h : s.runs d = true ∨ s.runs (watcher d) = false) : s.clockRestart d = s := by
  refine if_pos ?_
  rcases h with h | h
  · rw [h]
    rfl
  · rw [h, Bool.not_false, Bool.or_true]

end

/-- The state in which clock `d` runs again. -/
def State.restarted (s : State) (d : Nat) : State :=
  { s with regs := { s.regs with stopped := s.regs.stopped &&& ~~~ BitVec.ofNat 5 (2 ^ d) } }

theorem State.runs_restarted (s : State) (d : Nat) {e : Nat} (he : e < 5) : (s.restarted d).runs e = (s.runs e || decide (d = e)) :=
  (congrArg (!·) (getLsbD_and_not_two_pow s.regs.stopped he)).trans (by rw [Bool.not_and, Bool.not_not]; rfl)

/-- Every bank owes 8 REFpb after a stop of SCLK (R557): a bank that owed fewer is counted full. -/
theorem State.oweFull_of_few {s : State} {k : Nat} (ho : (s.bank k).owed < 8) (h2 : s.runs 2 = true) :
    ∃ u : State, s.oweFull k = u.afterAccrual k ∧ (u.bank k).owed = 8 ∧
      (u.chan (k / 16)).refFull = satAdd (s.chan (k / 16)).refFull 1 := by
  have hfull := State.countFull_of_runs (s := s.setBank k { s.bank k with owed := 8 }) h2 k
  refine ⟨(s.setBank k { s.bank k with owed := 8 }).countFull k, ?_, ?_, ?_⟩
  · unfold State.oweFull
    dsimp only
    rw [if_pos ho]
  · rw [hfull]
    have hb := State.bank_setBank_self s k { s.bank k with owed := 8 }
    exact congrArg Bank.owed hb
  · rw [hfull, State.chan_setChan_self]
    rfl

/-! ### The DVFS handshake (R89) -/

/-- Each of the links settles; nothing but the ports is written. -/
theorem State.settles_frame (ns : List Nat) (s : State) :
    ns.foldl (fun s n => s.settle n) s = { s with ports := (ns.foldl (fun s n => s.settle n) s).ports } := by
  induction ns generalizing s with
  | nil => rfl
  | cons n r ih => rw [List.foldl_cons, ih, s.settle_frame n]

theorem State.port_settles_of_not_mem {ns : List Nat} {p : Nat} (h : p ∉ ns) (s : State) :
    (ns.foldl (fun s n => s.settle n) s).port p = s.port p := by
  induction ns generalizing s with
  | nil => rfl
  | cons n r ih =>
    rw [List.mem_cons, not_or] at h
    rw [List.foldl_cons, ih h.2, State.port_settle_ne s h.1]

/-- A link that withholds nothing has its credits back, once (R42). -/
theorem State.port_settle_of_free {s : State} {p : Nat} (h : s.withholds (s.port p) = false) :
    (s.settle p).port p = { s.port p with dnCred := 32 } := by
  unfold State.settle
  dsimp only
  rw [h, if_neg nofun, State.port_setPort_self]

theorem State.withholds_settle (s : State) (n p : Nat) : (s.settle n).withholds ((s.settle n).port p) = s.withholds (s.port p) := by
  by_cases hn : p = n
  · subst hn
    rw [State.port_settle_self, s.settle_frame p]
    rfl
  · rw [State.port_settle_ne s hn, s.settle_frame n]
    rfl

theorem State.port_settles {ns : List Nat} {s : State} {p : Nat} (hp : p ∈ ns) (h : s.withholds (s.port p) = false) :
    (ns.foldl (fun s n => s.settle n) s).port p = { s.port p with dnCred := 32 } := by
  induction ns generalizing s with
  | nil => exact absurd hp List.not_mem_nil
  | cons n r ih =>
    rw [List.foldl_cons]
    have h' := (s.withholds_settle n p).trans h
    by_cases hr : p ∈ r
    · rw [ih hr h']
      by_cases hn : p = n
      · subst hn
        rw [State.port_settle_self]
      · rw [State.port_settle_ne s hn]
    · obtain rfl : p = n := (List.mem_cons.1 hp).resolve_right hr
      rw [State.port_settles_of_not_mem hr, State.port_settle_of_free h]

theorem exec_aclkHoldFall {s : State} (h : s.clk.hold = true) (pt : BitVec 2) : exec (.aclkHoldFall pt) s = .next
    (({ s with clk := { s.clk with hold := false, idle := false, pt := if s.clk.idle then pt else s.clk.pt } } : State).settleAll.goOn) :=
  congrArg Host.Outcome.next (if_neg (by simp [h]))

/-! ### The check of FCLK (R465, R571) -/

theorem State.fclkRecheck_of_down {s : State} (hd : s.start.fabricDown = true) (hm : s.start.mode ≠ .reset) (fclk : Option Bool) :
    s.fclkRecheck fclk =
      let t : State := { s with clk := { s.clk with fclkRan := some (fclk.isSome || s.clk.fclkRan == some true) } }
      if fclk = some true then
        (({ t with fab := { t.fab with up := true }, start := { t.start with fabricDown := false } } : State).foFlush).pumpPulls pumpFuel
      else t := by
  refine if_neg ?_
  simp [hd, hm]

end Sys2Proof.Machine

open Sys2Proof Sys2Proof.Machine

/-- Settles O31: each clock has its stop and its restart; the handshake settles every link. -/
theorem clocksAreFollowed : Obligations.ClocksAreFollowed := by
  unfold Obligations.ClocksAreFollowed
  refine ⟨fun s hd hm => ⟨?_, ?_, ?_⟩, fun s h => ?_, fun s hs hf => ⟨fun hc => ?_, fun hc => ?_⟩, fun s hm => ?_, fun s h => ?_,
    fun s h => ?_, fun s pt h => ?_, fun s d hd hs hf => ?_, fun s d hd hs => ?_, fun s d hd h => ?_, fun s d hd h hw => ?_,
    fun s l h => ?_, fun s k _ ho h2 => State.oweFull_of_few ho h2⟩
  · exact congrArg Host.Outcome.next ((State.fclkRecheck_of_down hd hm (some true)).trans (if_pos rfl))
  · exact congrArg Host.Outcome.next ((State.fclkRecheck_of_down hd hm (some false)).trans (if_neg nofun))
  · exact congrArg Host.Outcome.next ((State.fclkRecheck_of_down hd hm none).trans (if_neg nofun))
  · rw [exec_clockStopped (by decide), State.clockStopped_of_not_mayStop (State.mayStop_of_no_fclk h)]
  · rw [exec_clockStopped (by decide), State.clockStopped_of_unknown hs hf, hc, if_neg nofun]
  · have hx := exec_clockStopped (s := s) (d := 3) (by decide)
    rw [State.clockStopped_of_unknown hs hf, if_pos hc] at hx
    refine ⟨_, hx, (State.stopClock_shows _ (by decide)).1, ?_⟩
    obtain ⟨cs, p, heq, -, -⟩ := ({ s with free := s.free + 1, clk := { s.clk with fclkRan := some true } } : State).stopClock_spec 3
    rw [heq]
  · exact congrArg Host.Outcome.next (if_neg hm)
  · exact congrArg Host.Outcome.next (if_pos h)
  · exact congrArg Host.Outcome.next (if_neg (by simp [h]))
  · have hx := exec_aclkHoldFall h pt
    generalize hu : ({ s with clk := { s.clk with hold := false, idle := false, pt := if s.clk.idle then pt else s.clk.pt } } : State) = u
      at hx
    have hfr : u.settleAll = { u with ports := u.settleAll.ports } := State.settles_frame _ u
    refine ⟨u.settleAll, hx, ?_, ?_, fun p hp hdb hdk hfl hdup hbusy => ?_⟩
    · rw [hfr, ← hu]
    · rw [hfr, ← hu]
    · have hport : u.port p = s.port p := hu ▸ rfl
      have hfree : u.withholds (u.port p) = false := by
        rw [hport, ← hu]
        simp [State.withholds, hdup, hbusy, hdb, hdk, hfl]
      exact (State.port_settles (List.mem_range.2 hp) hfree).trans (by rw [hport])
  · have hx := exec_clockStopped (s := s) hd
    rw [State.clockStopped_of_known hs hf] at hx
    exact ⟨_, hx, s.stopClock_shows hd⟩
  · rw [exec_clockStopped hd, State.clockStopped_of_not_mayStop hs]
  · rw [exec_clockRestart hd, State.clockRestart_of_waits h]
  · intro u
    refine ⟨(s.runs_restarted d hd).trans (by simp), fun e he hne => (s.runs_restarted d he).trans (by simp [Ne.symm hne]), ?_⟩
    have hgo : ¬ (s.runs d || !s.runs (watcher d)) = true := by simp [h, hw]
    exact guard_eq_next.2 ⟨decide_eq_true hd, (if_neg hgo).symm⟩
  · unfold State.capArrives
    rw [h]
    rfl

end


section

/-!
PROOF. Writes of registers by their access codes (R45, R76, R516, R519, R535).
-/

namespace Sys2Proof.Machine

/-! ### Global registers -/

theorem clampNat_eq {lo hi : Nat} (h : lo ≤ hi) (x : Nat) : clampNat lo hi x = max lo (min hi x) := by
  unfold clampNat
  split
  · omega
  · split
    · omega
    · omega

/-- Outside a start a write to a global register is the write of its field alone (R518). -/
theorem State.writeReg_global {s : State} {off : Nat} (hoff : off < 0x10000) (h : s.start.mode ≠ .starting ∨ imageOffset off = false)
    (hkeep : (s.writeGlobal off v).start = s.start) : s.writeReg off v = s.writeGlobal off v := by
  unfold State.writeReg State.writeRegTo
  rw [ctlTarget, if_pos hoff]
  refine if_neg ?_
  rw [hkeep]
  rcases h with h | h
  · simp [h]
  · simp [h]

theorem State.writeLocked_open {s : State} (h : s.regs.lock = false) (f : Regs → Regs) :
    s.writeLocked f = { s with regs := f s.regs } := if_neg (by simp [h])

section
variable (s : State) (v : BitVec 32)

theorem State.writeReg_irqStatus :
    s.writeReg 0x0028 v = { s with regs := { s.regs with irqStatus := s.regs.irqStatus &&& ~~~ v.setWidth 20 } } :=
  State.writeReg_global (by decide) (.inr rfl) rfl

theorem State.writeReg_stale : s.writeReg 0x3010 v = { s with regs := { s.regs with stale := if v = 0 then 0 else s.regs.stale } } :=
  State.writeReg_global (by decide) (.inr rfl) rfl

theorem State.writeReg_logStatus : s.writeReg 0x3004 0x100 = { s with regs := { s.regs with log := [], overflow := false } } :=
  State.writeReg_global (by decide) (.inr rfl) rfl

variable {s}

theorem State.writeReg_rmtTmo (h : s.start.mode ≠ .starting) : s.writeReg 0x0030 v =
    { s with regs := { s.regs with rmtTmo := BitVec.ofNat 16 (max 50 (min 25000 (v.toNat % 65536))) } } :=
  (State.writeReg_global (off := 0x0030) (by decide) (.inl h) rfl).trans
    (congrArg (fun n => ({ s with regs := { s.regs with rmtTmo := BitVec.ofNat 16 n } } : State)) (clampNat_eq (by decide) _))

theorem State.writeReg_scrubInt (h : s.start.mode ≠ .starting) (hl : s.regs.lock = false) :
    s.writeReg 0x0034 v = { s with regs := { s.regs with scrubInt := v.setWidth 16 } } := by
  have hw : s.writeGlobal 0x0034 v = { s with regs := { s.regs with scrubInt := lo16 v } } :=
    State.writeLocked_open hl fun r => { r with scrubInt := lo16 v }
  exact (State.writeReg_global (by decide) (.inl h) (by rw [hw])).trans hw

end

/-! ### The control port -/

theorem State.ctWrite_refused {s : State} {off : Nat} (h : s.ctRefused (ctlTarget (off / 4 * 4)) true = true) (v : BitVec 32) :
    s.ctWrite off v = { s with ct := { s.ct with last := some { rdata := 0, err := true } } } := if_pos h

/-- A command of the control port that is open writes by `ctWrite`. -/
theorem exec_ctWrite {s : State} {c : Instr} {off : BitVec 27} {v : BitVec 32} (hopen : s.ctOpen = true)
    (hc : c = .registerWrite off v ∨ c = .controlPortWrite off v) : exec c s = .next (s.ctWrite off.toNat v) := by
  rcases hc with rfl | rfl
  · exact execRegisterWrite_open hopen off v
  · exact execControlPortWrite_open hopen off v

/-- A word at a global register's offset is written as the register, and answered. -/
theorem State.ctWrite_register {s : State} (hopen : s.ctOpen = true) {off at_ : Nat} (hat : off / 4 * 4 = at_) (hlt : at_ < 0x10000)
    (v : BitVec 32) : s.ctWrite off v =
      { s.writeReg at_ v with ct := { (s.writeReg at_ v).ct with last := some { rdata := 0, err := false } } } := by
  have haligned : at_ / 4 * 4 = at_ := by omega
  have hsame : s.ctWrite off v = s.ctWrite at_ v := by
    unfold State.ctWrite
    rw [haligned, hat]
  exact hsame.trans (State.ctWrite_global hopen haligned hlt v)

/-- What a control-port write of a global register answers and changes, where the register's write changes registers only. -/
theorem exec_ctWrite_register {s : State} {c : Instr} {off : BitVec 27} {v : BitVec 32} {at_ : Nat} {r : Regs} (hopen : s.ctOpen = true)
    (hc : c = .registerWrite off v ∨ c = .controlPortWrite off v) (hat : off.toNat / 4 * 4 = at_) (hlt : at_ < 0x10000)
    (hw : s.writeReg at_ v = { s with regs := r }) : ∃ t, exec c s = .next t ∧
      t.ct = { s.ct with last := some { rdata := 0, err := false } } ∧ t = { s with ct := t.ct, regs := r } := by
  have hx := exec_ctWrite hopen hc
  rw [State.ctWrite_register hopen hat hlt, hw] at hx
  exact ⟨_, hx, rfl, rfl⟩

theorem ctlTarget_hostScratch {a : Nat} (h : 0x2000000 ≤ a) (h' : a < 0x3000000) : ctlTarget a = .mortar (a - 0x2000000) true true := by
  unfold ctlTarget
  iterate 13 rw [if_neg (by omega)]
  rw [if_pos h']

/-- A control-port write of host scratch merges its four bytes into their word (R45, R178). -/
theorem State.ctWrite_hostScratch {s : State} (hs : s.serving = true) {off : Nat} (h : 0x2000000 ≤ off / 4 * 4)
    (h' : off / 4 * 4 < 0x3000000) (v : BitVec 32) : s.ctWrite off v =
      let t := s.mergePlace ctWho (mortarPlace (off / 4 * 4 - 0x2000000)) (BitVec.ofNat 128 (v.toNat <<< (8 * (off / 4 * 4 % 16)))) false
        (15 * 2 ^ (off / 4 * 4 % 16))
      { t with ct := { t.ct with last := some { rdata := 0, err := false } } } := by
  have hok : s.ctRefused (.mortar (off / 4 * 4 - 0x2000000) true true) true = false := by
    simp [State.ctRefused, State.serves, hs]
  unfold State.ctWrite
  dsimp only
  rw [ctlTarget_hostScratch h h', hok, if_neg nofun]

theorem State.ct_mergePlace (s : State) (w : Who) (p : Place) (d : BondData) (b : Bool) (n : Nat) :
    (s.mergePlace w p d b n).ct = s.ct := by
  have hcount {u : State} (hu : s.Counted u) (x : BondData) (y : Bool) : (u.placeWrite p x y).ct = s.ct := by
    rw [State.placeWrite, State.placeSet_frame, hu.same]
  unfold State.mergePlace
  dsimp only
  split
  · rfl
  · split
    · exact hcount (.refl s) _ _
    · refine hcount ?_ _ _
      split
      · exact .refl s
      · exact State.counted_account (.refl s)
      · exact State.counted_pushLog (State.counted_sitePoison (.refl s))
      · exact State.counted_account (.refl s)

/-! ### Aliases (R138, R535) -/

theorem State.writeChans_frame (s : State) (cs : List Nat) (o : Nat) (v : BitVec 32) : s.SameButChans (s.writeChans cs o v) :=
  State.sameButChans_foldl_setChan (fun s c => (s.chan c).write o v) cs s

theorem State.chan_writeChans {cs : List Nat} (hcs : cs.Nodup) (s : State) (o : Nat) (v : BitVec 32) (c : Nat) :
    (s.writeChans cs o v).chan c = if c ∈ cs then (s.chan c).write o v else s.chan c := by
  induction cs generalizing s with
  | nil => rfl
  | cons d r ih =>
    rw [List.nodup_cons] at hcs
    refine (ih hcs.2 (s.writeChan o v d)).trans ?_
    rw [State.writeChan, State.chan_setChan]
    by_cases hd : c = d
    · subst hd
      rw [if_neg hcs.1, if_pos rfl, if_pos List.mem_cons_self]
    · rw [if_neg hd]
      exact if_congr (by rw [List.mem_cons, or_iff_right hd]) rfl rfl

theorem ctlTarget_broadcast {a : Nat} (h : a / 0x1000 = 0x200) : ctlTarget a = .broadcast (a % 0x1000) := by
  unfold ctlTarget
  iterate 3 rw [if_neg (by omega)]
  rw [if_pos (by omega)]

theorem ctlTarget_groupAlias {a g : Nat} (hg : g < 16) (h : a / 0x1000 = 0x210 + g) : ctlTarget a = .groupAlias g (a % 0x1000) := by
  have hgrp : (a - 0x210000) / 0x1000 = g := by omega
  unfold ctlTarget
  iterate 5 rw [if_neg (by omega)]
  rw [if_pos (by omega), hgrp]

section
variable {s : State} {off : BitVec 27}

theorem exec_channelAliasWrite (hs : s.serving = true) (h2 : s.runs 2 = true)
    (h : (∃ o, ctlTarget off.toNat = .broadcast o) ∨ ∃ g o, ctlTarget off.toNat = .groupAlias g o) (v : BitVec 32) :
    exec (.channelAliasWrite off v) s = .next (s.writeReg (off.toNat / 4 * 4) v) := by
  have hgo : (s.serving && s.runs 2) = true := by rw [hs, h2]; rfl
  refine congrArg Host.Outcome.next ?_
  obtain ⟨o, ho⟩ | ⟨g, o, ho⟩ := h
  · rw [ho]
    exact if_pos hgo
  · rw [ho]
    exact if_pos hgo

/-- With CCLK stopped no register is written (R557). -/
theorem exec_channelAliasWrite_of_stopped (h2 : s.runs 2 = false) (v : BitVec 32) : exec (.channelAliasWrite off v) s = .next s := by
  have hno : ¬ (s.serving && s.runs 2) = true := by simp [h2]
  refine congrArg Host.Outcome.next ?_
  split
  · exact if_neg hno
  · exact if_neg hno
  · rfl

end

theorem State.writeReg_broadcast (s : State) {a : Nat} (h : a / 0x1000 = 0x200) (v : BitVec 32) :
    s.writeReg a v = s.writeChans (List.range 256) (a % 0x1000) v := by
  rw [State.writeReg, State.writeRegTo, ctlTarget_broadcast h]
  rfl

theorem State.writeReg_groupAlias (s : State) {a g : Nat} (hg : g < 16) (h : a / 0x1000 = 0x210 + g) (v : BitVec 32) :
    s.writeReg a v = s.writeChans (s.aliasChans g) (a % 0x1000) v := by
  rw [State.writeReg, State.maskOf, State.writeRegTo, ctlTarget_groupAlias hg h]

end Sys2Proof.Machine

open Sys2Proof Sys2Proof.Machine

/-- Settles O57: each write is refused, or is that of its field, of its word, or of the channels it selects. -/
theorem registersFollowTheirAccessCodes : Obligations.RegistersFollowTheirAccessCodes := by
  unfold Obligations.RegistersFollowTheirAccessCodes
  refine ⟨fun s off v c hopen hc => ?_, fun s hm h2 => ?_, fun s off v c h2 hmem => ?_, fun s off v hs h2 => ?_⟩
  · intro at_ done onlyRegs
    refine ⟨fun href => ?_, fun hm => ⟨fun hat => ?_, fun hat => ?_, fun hat => ?_, fun hl hat => ?_, fun hl hat => ?_⟩, fun hs hlo hhi => ?_⟩
    · rw [exec_ctWrite hopen hc, State.ctWrite_refused href]
    · exact exec_ctWrite_register hopen hc hat (by decide) (s.writeReg_irqStatus v)
    · exact exec_ctWrite_register hopen hc hat (by decide) (s.writeReg_stale v)
    · exact exec_ctWrite_register hopen hc hat (by decide) (State.writeReg_rmtTmo v hm)
    · have hlt : at_ < 0x10000 := by
        simp only [List.mem_cons, List.not_mem_nil, or_false] at hat
        omega
      exact exec_ctWrite_register hopen hc rfl hlt (State.writeReg_rwl_locked hat hm hl v)
    · exact exec_ctWrite_register hopen hc hat (by decide) (State.writeReg_scrubInt v hm hl)
    · have hx := exec_ctWrite hopen hc
      rw [State.ctWrite_hostScratch hs hlo hhi] at hx
      have hrem : at_ % 16 ≤ 12 := by omega
      have hn : 15 * 2 ^ (at_ % 16) < 2 ^ 16 := by
        have := Nat.pow_le_pow_right (show 0 < 2 by decide) hrem
        omega
      obtain ⟨hst, hmerged⟩ := s.mergePlace_clean (p := mortarPlace (at_ - 0x2000000)) nofun ctWho
        (BitVec.ofNat 128 (v.toNat <<< (8 * (at_ % 16)))) (Nat.mul_ne_zero (by decide) (Nat.two_pow_pos _).ne') hn
      exact ⟨_, hx, congrArg (fun x : ControlPort => { x with last := some { rdata := 0, err := false } }) (s.ct_mergePlace _ _ _ _ _),
        hmerged, hst.words, hst.ctl, hst.latches⟩
  · have hx : exec .erLogClear s = .next (s.writeReg 0x3004 0x100) :=
      congrArg Host.Outcome.next (if_pos (by simp [State.serves, hm, h2]))
    rw [hx, s.writeReg_logStatus]
  · have hshut : s.ctOpen = false := by simp [State.ctOpen, h2]
    simp only [List.mem_cons, List.not_mem_nil, or_false] at hmem
    obtain rfl | rfl | rfl | rfl | rfl | rfl := hmem
    case inr.inr.inr.inl => exact exec_channelAliasWrite_of_stopped h2 v
    · exact congrArg Host.Outcome.next (if_neg (by simp [h2]))
    · exact congrArg Host.Outcome.next (if_neg (by simp [h2]))
    · exact congrArg Host.Outcome.next (if_neg (by simp [h2]))
    · exact congrArg Host.Outcome.next (if_neg (by simp [hshut]))
    · exact congrArg Host.Outcome.next (if_neg (by simp [hshut]))
  · intro o
    have haligned : ∀ n, off.toNat / 0x1000 = n → off.toNat / 4 * 4 / 0x1000 = n := fun n h => by omega
    have hrem : off.toNat / 4 * 4 % 0x1000 = o := by omega
    refine ⟨fun hb => ?_, fun g hg hb => ?_⟩
    · have hx := exec_channelAliasWrite hs h2 (.inl ⟨_, ctlTarget_broadcast hb⟩) v
      rw [s.writeReg_broadcast (haligned _ hb), hrem] at hx
      have hchan := State.chan_writeChans (cs := List.range 256) List.nodup_range s o v
      refine ⟨_, hx, fun c hc => ?_, fun c hc => ?_, s.writeChans_frame _ _ _⟩
      · rw [hchan, if_pos (List.mem_range.2 hc)]
      · rw [hchan, if_neg (by simpa using hc)]
    · have hx := exec_channelAliasWrite hs h2 (.inr ⟨_, _, ctlTarget_groupAlias hg hb⟩) v
      rw [s.writeReg_groupAlias hg (haligned _ hb), hrem] at hx
      have hchan := State.chan_writeChans (cs := s.aliasChans g) (List.nodup_range.filter _) s o v
      exact ⟨_, hx, fun c hc => (hchan c).trans (if_pos hc), fun c hc => (hchan c).trans (if_neg hc), s.writeChans_frame _ _ _⟩

end


section

/-!
PROOF. A line of the Lintel record that waits behind a fuse which is being programmed (R347). While it waits, the channels of
both copies stay out of self-refresh, also the one whose own bank programs nothing; so a command that should leave every other
trained channel in self-refresh (R117, R468) does not.
-/

namespace Sys2Proof.Machine

/-- Bank 0, of the record's copy 0, programs a fuse, and a line of that copy waits for it; channel 128, of copy 1, is trained. -/
def lineBehindFuse : State :=
  { State.reset with
    chans := [(0, { Channel.init with fprogHold := true }), (128, { Channel.init with trained := true })],
    banks := [(0, { Bank.init with hold := true })],
    ctl := { State.reset.ctl with lintel := [{ copy := false, bytes := [], seq := 0 }] } }

/-- The same in the deadbolt sequence. -/
def lineBehindFuseInSag : State :=
  { lineBehindFuse with start := { lineBehindFuse.start with mode := .deadbolt } }

/-- The same in the third cold start, which waits for an image that has not come. -/
def lineBehindFuseInStart : State :=
  { lineBehindFuse with start := { lineBehindFuse.start with mode := .starting, wait := .image, kind := .cold, seqCold := 2, fwWait := 0 } }

theorem lineBehindFuse_awake_after_dboltDone :
    (lineBehindFuseInSag.chan 128).trained = true ∧ (lineBehindFuseInSag.chan 128).fprogHold = false ∧
      (lineBehindFuseInSag.dboltDone.chan 128).sref = false := by decide +kernel

theorem lineBehindFuse_waits_for_image :
    lineBehindFuseInStart.imageWaits = true ∧ lineBehindFuseInStart.loadEnds ≤ lineBehindFuseInStart.now ∧
      lineBehindFuseInStart.start.loadState ≠ 2 ∧ lineBehindFuseInStart.start.kind = .cold ∧
      lineBehindFuseInStart.start.seqCold = 2 := by decide +kernel

theorem lineBehindFuse_awake_after_failedStart :
    (lineBehindFuseInStart.chan 128).trained = true ∧ (lineBehindFuseInStart.chan 128).fprogHold = false ∧
      ((lineBehindFuseInStart.fwWaitExpiry []).chan 128).sref = false := by decide +kernel

end Sys2Proof.Machine

open Sys2Proof Sys2Proof.Machine

/-- Refutes O27: while a line of the record waits behind a fuse of its bank, the channel of the other copy stays out of self-refresh. -/
theorem not_supplyEventsFollowTheRails : ¬ Obligations.SupplyEventsFollowTheRails := by
  unfold Obligations.SupplyEventsFollowTheRails
  rintro ⟨h, -⟩
  obtain ⟨t, ht, -, -, -, -, -, -, hchans, -⟩ := h lineBehindFuseInSag (.inl rfl)
  obtain ⟨htrained, hfree, hawake⟩ := lineBehindFuse_awake_after_dboltDone
  have hsref := (hchans 128 (by decide)).2.1 htrained hfree
  have hx : exec .dboltDone lineBehindFuseInSag = .next lineBehindFuseInSag.dboltDone := rfl
  rw [← Host.Outcome.next.inj (hx.symm.trans ht), hawake] at hsref
  exact Bool.false_ne_true hsref

/-- Refutes O29: while a line of the record waits behind a fuse of its bank, a third cold failure leaves the channel of the other copy
out of self-refresh. -/
theorem not_startWaitsEndInTheirCauses : ¬ Obligations.StartWaitsEndInTheirCauses := by
  unfold Obligations.StartWaitsEndInTheirCauses
  rintro ⟨-, h, -⟩
  obtain ⟨hwaits, hends, hload, hkind, hseq⟩ := lineBehindFuse_waits_for_image
  obtain ⟨t, ht, -, -, -, -, hchans⟩ := h lineBehindFuseInStart [] hwaits hends hload hkind hseq
  obtain ⟨htrained, hfree, hawake⟩ := lineBehindFuse_awake_after_failedStart
  have hsref := hchans 128 (by decide) htrained hfree
  have hx : exec (.fwWaitExpiry []) lineBehindFuseInStart = .next (lineBehindFuseInStart.fwWaitExpiry []) := rfl
  rw [← Host.Outcome.next.inj (hx.symm.trans ht), hawake] at hsref
  exact Bool.false_ne_true hsref

end


section

/-!
PROOF. The end of a start (R88, R436, R444, R489). A cold start writes its record; then the fields of the start, Plumb, and the
answer of the command that a restart served follow one another, and each leaves the fields of the others.
-/

namespace Sys2Proof.Machine

/-! ### The parts of START_COMPLETE -/

/-- The records of a start that ends: a cold start's new image, and the mark of the spill record. -/
def State.startRecord (s : State) : State :=
  let u := if s.start.kind = .cold then s.configChanged else s
  if u.start.spill.valid then u.wroteRecord else u

/-- The fields of a start that ends, with what phase 12 finds of FCLK (R88, R489, R571). -/
def State.portsUp (s : State) (fclk : Option Bool) : State :=
  let t := s.start
  let up := s.fab.up || fclk == some true
  { s with
    clk := { s.clk with up := true, fclkRan := some (fclk.isSome || s.clk.fclkRan == some true) },
    dbWords := [],
    fab := { s.fab with up := up },
    start := { t with mode := .serving, phase := 0, lastKind := t.kind.code, fabricDown := !up,
                      forceCold := t.forceCold && t.kind != .cold, spill := { t.spill with copy0 := false, copy1 := false },
                      heldSpill := false, vddsFlag := false, afterReset := false, written := [], sagInStart := false } }

theorem exec_startComplete {s : State} (hm : s.start.mode = .starting) (hw : s.start.wait = .ports) (hp : s.start.phase = 12)
    (fclk : Option Bool) : exec (.startComplete fclk) s =
      .next (((s.startRecord.portsUp fclk).plumbStart.endActivate).irq .startDone).foFlush := by
  refine congrArg Host.Outcome.next (if_neg ?_)
  simp [hm, hw, hp]

/-! ### The record of a cold start -/

theorem State.wroteRecord_frame (s : State) : ∃ cs fb n, s.wroteRecord = { s with chans := cs, frameBase := fb, dbWords := [], free := n } := by
  have h := State.sameButChans_foldl_setChan (fun s c => { s.chan c with hist := [] }) (s.forgetDb.chans.map (·.1)) s.forgetDb
  rw [State.SameButChans] at h
  unfold State.wroteRecord State.freeFrames
  rw [h]
  exact ⟨_, _, _, rfl⟩

/-- The frames that are forgotten count as they did. -/
theorem State.counts_wroteRecord (s : State) (c : Nat) : (s.wroteRecord.chan c).counts = (s.chan c).counts := by
  have hfold (l : List Nat) (u : State) :
      ((l.foldl (fun s c => s.setChan c { s.chan c with hist := [] }) u).chan c).counts = (u.chan c).counts := by
    induction l generalizing u with
    | nil => rfl
    | cons d r ih =>
      rw [List.foldl_cons, ih, State.chan_setChan]
      split
      · next h => exact h ▸ rfl
      · rfl
  exact hfold _ _

/-- What a line of the record leaves, written or waiting (R345, R347). -/
structure State.PutsLine (s t : State) : Prop where
  start : t.start = s.start
  fab : t.fab = s.fab
  mbox : t.mbox = s.mbox
  latches : t.latches = s.latches

theorem State.PutsLine.trans {s t u : State} (h : s.PutsLine t) (h' : t.PutsLine u) : s.PutsLine u :=
  ⟨h'.start.trans h.start, h'.fab.trans h.fab, h'.mbox.trans h.mbox, h'.latches.trans h.latches⟩

theorem State.putsLine_lintelPut (s : State) (copy : Bool) (epoch : Nat) : s.PutsLine (s.lintelPut copy epoch) := by
  unfold State.lintelPut
  dsimp only
  split
  · have hframe := (s.putsCopy_lintelIssue (copy := copy) (s.lintelBytes epoch)).frame
    exact ⟨by rw [hframe], by rw [hframe], by rw [hframe], by rw [hframe]⟩
  · exact ⟨rfl, rfl, rfl, rfl⟩

/-- The state in which a new configuration takes its number and the number of its record (R346). -/
def State.configNoted (s : State) : State :=
  ({ s.wroteRecord with ctl := { s.ctl with cfgSeq := s.ctl.cfgSeq + 1 },
                        start := { s.start with cfgLost0 := false, cfgLost1 := false } } : State).lintelSeq

theorem State.configNoted_frame (s : State) : ∃ cs fb n, s.configNoted =
    { s with chans := cs, frameBase := fb, dbWords := [], free := n, start := { s.start with cfgLost0 := false, cfgLost1 := false },
             ctl := { s.ctl with cfgSeq := s.ctl.cfgSeq + 1, seq := s.ctl.seq + 1 } } := by
  obtain ⟨cs, fb, n, h⟩ := s.wroteRecord_frame
  unfold State.configNoted
  rw [h]
  exact ⟨cs, fb, n, rfl⟩

theorem State.configChanged_eq (s : State) : s.configChanged =
    (s.configNoted.lintelPut false s.configNoted.ctl.epoch.toNat).lintelPut true s.configNoted.ctl.epoch.toNat := by
  obtain ⟨cs, fb, n, h⟩ := s.wroteRecord_frame
  unfold State.configChanged State.lintelWrite State.configNoted
  rw [h]

theorem State.putsLine_configChanged (s : State) : s.configNoted.PutsLine s.configChanged := by
  rw [State.configChanged_eq]
  exact (State.putsLine_lintelPut _ _ _).trans (State.putsLine_lintelPut _ _ _)

/-- During a start the banks of the record take its lines at once. -/
theorem State.lintelOpen_of_not_serving {s : State} (h : s.serving = false) (copy : Bool) : s.lintelOpen none copy = true := by
  simp [State.lintelOpen, h]

/-- A record of a start, with no line before it: its two copies, and no other word (R346). -/
theorem State.writesCopies_configChanged {s : State} (hm : s.start.mode = .starting) (hl : s.ctl.lintel = []) :
    s.configNoted.WritesCopies s.configChanged := by
  obtain ⟨cs, fb, n, hn⟩ := s.configNoted_frame
  have hserv : s.configNoted.serving = false := by
    rw [hn, State.serving, hm]
    rfl
  rw [State.configChanged_eq]
  refine State.writesCopies_lintelPut ?_ (State.lintelOpen_of_not_serving hserv _) (State.lintelOpen_of_not_serving hserv _) _
  rw [hn]
  exact hl

/-! ### What the records leave -/

section
variable (s : State)

theorem State.start_startRecord : ∃ a b, s.startRecord.start = { s.start with cfgLost0 := a, cfgLost1 := b } := by
  have hcold : ∃ a b, (if s.start.kind = .cold then s.configChanged else s).start = { s.start with cfgLost0 := a, cfgLost1 := b } := by
    split
    · obtain ⟨cs, fb, n, hn⟩ := s.configNoted_frame
      rw [s.putsLine_configChanged.start, hn]
      exact ⟨_, _, rfl⟩
    · exact ⟨s.start.cfgLost0, s.start.cfgLost1, rfl⟩
  unfold State.startRecord
  generalize (if s.start.kind = .cold then s.configChanged else s) = u at hcold
  dsimp only
  split
  · rw [State.wroteRecord_start]
    exact hcold
  · exact hcold

/-- The mark of the spill record changes no word and no step. -/
theorem State.startRecord_frame : ∃ cs fb ws n, s.startRecord =
    { (if s.start.kind = .cold then s.configChanged else s) with chans := cs, frameBase := fb, dbWords := ws, free := n } := by
  unfold State.startRecord
  generalize (if s.start.kind = .cold then s.configChanged else s) = u
  dsimp only
  split
  · obtain ⟨cs, fb, n, h⟩ := u.wroteRecord_frame
    exact ⟨cs, fb, [], n, h⟩
  · exact ⟨u.chans, u.frameBase, u.dbWords, u.free, rfl⟩

end

/-! ### The command that a restart served (R478) -/

/-- What the answer of the command leaves: Plumb, the clocks, the ports, what was counted, and the start but for its firmware. -/
structure State.EndsCommand (s t : State) : Prop where
  plumb : t.plumb = s.plumb
  clk : t.clk = s.clk
  fab : t.fab = s.fab
  dies : t.dies = s.dies
  counts : ∀ c, (t.chan c).counts = (s.chan c).counts
  start : ∃ a b c, t.start = { s.start with calib := a, stagedOk := b, activate := c }

theorem State.EndsCommand.refl (s : State) : s.EndsCommand s := ⟨rfl, rfl, rfl, rfl, fun _ => rfl, s.start.calib, s.start.stagedOk, s.start.activate, rfl⟩

theorem State.EndsCommand.trans {s t u : State} (h : s.EndsCommand t) (h' : t.EndsCommand u) : s.EndsCommand u where
  plumb := h'.plumb.trans h.plumb
  clk := h'.clk.trans h.clk
  fab := h'.fab.trans h.fab
  dies := h'.dies.trans h.dies
  counts c := (h'.counts c).trans (h.counts c)
  start := by
    obtain ⟨a, b, c, h⟩ := h.start
    obtain ⟨a', b', c', h'⟩ := h'.start
    exact ⟨a', b', c', by rw [h', h]⟩

theorem State.SameButAnswers.endsCommand {s t : State} (h : s.SameButAnswers t) : s.EndsCommand t := by
  rw [State.SameButAnswers] at h
  rw [h]
  exact ⟨rfl, rfl, rfl, rfl, fun _ => rfl, s.start.calib, s.start.stagedOk, s.start.activate, rfl⟩

/-- Other requests that the restart met are aborted (R501). -/
theorem State.endsCommand_aborts (hs : List Nat) (code : Nat) (hcode : code < 2 ^ 16) (s : State) :
    s.EndsCommand (hs.foldl (fun s j => s.answerHasp j code 0 []) s) := by
  induction hs generalizing s with
  | nil => exact .refl s
  | cons j r ih => exact ((s.answers_answerHasp j 0 (bs := []) hcode (by decide)).frame.endsCommand).trans (ih _)

theorem State.endsCommand_complete (s : State) (h d : Nat) (st : MStatus) {bs : List Byte} (hlen : bs.length < 16) :
    s.EndsCommand (s.complete h st.code d bs) :=
  (s.completes_complete h d st hlen).frame.endsCommand

theorem State.endsCommand_finish (s : State) (h d : Nat) (st : MStatus) {bs : List Byte} (hlen : bs.length < 16) :
    s.EndsCommand (s.finish h st d bs) := by
  unfold State.finish
  dsimp only
  split
  · exact State.SameButAnswers.endsCommand rfl
  · exact s.endsCommand_complete h _ st hlen

theorem State.endsCommand_putCalib (s : State) (f : Calib → Calib) : s.EndsCommand (s.putCalib f) := by
  have hcounts := s.counts_wroteRecord
  obtain ⟨cs, fb, n, h⟩ := s.wroteRecord_frame
  unfold State.putCalib
  rw [h] at hcounts ⊢
  exact ⟨rfl, rfl, rfl, rfl, hcounts, _, s.start.stagedOk, s.start.activate, rfl⟩

theorem State.activateBytes_length (s : State) : s.activateBytes.length < 16 := by
  simp [State.activateBytes, leBytes]

theorem State.endsCommand_endActivate (s : State) : s.EndsCommand s.endActivate := by
  have hset (u : State) (b : Bool) (a : Option Nat) : u.EndsCommand { u with start := { u.start with stagedOk := b, activate := a } } :=
    ⟨rfl, rfl, rfl, rfl, fun _ => rfl, u.start.calib, b, a, rfl⟩
  unfold State.endActivate
  split
  · exact .refl s
  · next h _ =>
    dsimp only
    generalize (List.range 16).filter (fun j => j != h && ((s.hasp j).state == .pending || (s.hasp j).state == .running)) = hs
    refine (s.endsCommand_aborts hs MStatus.aborted.code (by decide)).trans ?_
    generalize hs.foldl (fun s j => s.answerHasp j MStatus.aborted.code 0 []) s = u
    split
    · exact ((hset u false none).trans (State.endsCommand_putCalib _ _)).trans
        (State.endsCommand_finish _ h 0 .okay (State.activateBytes_length _))
    · exact (hset u u.start.stagedOk none).trans (State.endsCommand_finish _ h 0 .fwReverted (bs := []) (by decide))

theorem State.endActivate_of_none {s : State} (h : s.start.activate = none) : s.endActivate = s := by
  unfold State.endActivate
  rw [h]

/-! ### What a start used is not counted (R436, R444) -/

theorem State.counts_zeroed (l : List Nat) (s : State) (c : Nat) (h : c ∈ l ∨ (s.chan c).counts = .zero) :
    ((l.foldl (fun s c => s.setChan c { s.chan c with counts := .zero }) s).chan c).counts = .zero := by
  induction l generalizing s with
  | nil => exact h.resolve_left List.not_mem_nil
  | cons d r ih =>
    rw [List.foldl_cons]
    refine ih _ ?_
    rw [State.chan_setChan]
    by_cases hd : c = d
    · rw [if_pos hd]
      exact .inr rfl
    · rw [if_neg hd]
      exact h.imp_left fun hm => (List.mem_cons.1 hm).resolve_left hd

theorem State.act_zeroed (l : List Nat) (s : State) (d : Nat) (h : d ∈ l ∨ (s.die d).act = 0) :
    ((l.foldl (fun s d => s.setDie d { s.die d with act := 0 }) s).die d).act = 0 := by
  induction l generalizing s with
  | nil => exact h.resolve_left List.not_mem_nil
  | cons e r ih =>
    rw [List.foldl_cons]
    refine ih _ ?_
    rw [State.die_setDie]
    by_cases he : d = e
    · rw [if_pos he]
      exact .inr rfl
    · rw [if_neg he]
      exact h.imp_left fun hm => (List.mem_cons.1 hm).resolve_left he

/-- A key that a map does not hold reads as the default. -/
theorem Sparse.get_of_not_mem {α : Type} {d : α} {m : Sparse α} {k : Nat} (h : k ∉ m.map Prod.fst) : Sparse.get d m k = d := by
  induction m with
  | nil => rfl
  | cons e r ih =>
    rw [List.map_cons, List.mem_cons, not_or] at h
    exact (if_neg h.1).trans (ih h.2)

theorem State.sameButDies_foldl_setDie (f : State → Nat → Die) (l : List Nat) (s : State) :
    l.foldl (fun s d => s.setDie d (f s d)) s = { s with dies := (l.foldl (fun s d => s.setDie d (f s d)) s).dies } := by
  induction l generalizing s with
  | nil => rfl
  | cons d r ih => exact (ih _).trans rfl

theorem State.startUse_spec (s : State) : ∃ cs ds,
    s.startUse = { s with chans := cs, dies := ds, plumb := { s.plumb with ksUsed := 0, ksParams := 0, ptBeats := 0, fbBeats := 0 } } ∧
      (∀ c, (s.startUse.chan c).counts = .zero) ∧ (∀ d, (s.startUse.die d).act = 0) := by
  have hdies := State.sameButDies_foldl_setDie (fun s d => { s.die d with act := 0 }) (s.dies.map (·.1)) s
  have hact (d : Nat) := State.act_zeroed (s.dies.map (·.1)) s d <| by
    by_cases h : d ∈ s.dies.map (·.1)
    · exact .inl h
    · exact .inr (congrArg Die.act (Sparse.get_of_not_mem h))
  unfold State.startUse
  generalize (s.dies.map (·.1)).foldl (fun s d => s.setDie d { s.die d with act := 0 }) s = u at hdies hact
  have hchans := State.sameButChans_foldl_setChan (fun s c => { s.chan c with counts := .zero }) (u.chans.map (·.1)) u
  have hcounts (c : Nat) := State.counts_zeroed (u.chans.map (·.1)) u c <| by
    by_cases h : c ∈ u.chans.map (·.1)
    · exact .inl h
    · exact .inr (congrArg Channel.counts (Sparse.get_of_not_mem h))
  unfold State.zeroUse
  generalize (u.chans.map (·.1)).foldl (fun s c => s.setChan c { s.chan c with counts := .zero }) u = v at hchans hcounts
  rw [State.SameButChans] at hchans
  have hdie : ∀ d, v.die d = u.die d := fun d => by
    rw [hchans]
    rfl
  have hv : v = { s with chans := v.chans, dies := u.dies } := by rw [hchans, hdies]
  have hplumb : v.plumb = s.plumb := by rw [hv]
  refine ⟨v.chans, u.dies, ?_, hcounts, fun d => (congrArg Die.act (hdie d)).trans (hact d)⟩
  unfold State.mapPlumb
  rw [hplumb, hv]

/-- Plumb as it counts from the end of a start (R436, R444). -/
def Plumb.started (p : Plumb) : Plumb :=
  { p with wattsOn := p.watts, capsOn := p.caps, allow := 0, ksAllow := 0, ksUsed := 0, esr := false, tickFlags := 0,
           hostLast := 0, samples := [none, none, none, none], w1s := .none, w60 := .none, hist1s := [], hist60 := [],
           sum1s := .first, sum60 := .first, due1s := none, due60 := none, last500 := [] }

/-- The bucket is full where a ceiling is in force (R436). -/
def Plumb.fullBucket (p : Plumb) : Plumb :=
  { p with level := match p.ceil with
      | some w => ((8 * ceilEnergy w : Nat) : Int)
      | none => p.level }

theorem Plumb.level_fullBucket {p : Plumb} {w : Nat} (h : p.ceil = some w) : p.fullBucket.level = ((8 * ceilEnergy w : Nat) : Int) := by
  unfold Plumb.fullBucket
  rw [h]

theorem Plumb.ceil_fullBucket (p : Plumb) : p.fullBucket.ceil = p.ceil := rfl

theorem State.plumbStart_eq (s : State) :
    s.plumbStart = (s.startUse.mapPlumb fun p => p.started.fullBucket).tickFlags := rfl

/-- Plumb, the channels and the dies as they count from the end of a start. -/
theorem State.plumbStart_spec (s : State) : ∃ cs ds p, s.plumbStart = { s with chans := cs, dies := ds, plumb := p } ∧
    p.allow = 0 ∧ p.esr = false ∧ p.ksUsed = 0 ∧ (∀ w, p.ceil = some w → p.level = ((8 * ceilEnergy w : Nat) : Int)) ∧
    (∀ c, (s.plumbStart.chan c).counts = .zero) ∧ (∀ d, (s.plumbStart.die d).act = 0) := by
  obtain ⟨cs, ds, hu, hcounts, hact⟩ := s.startUse_spec
  have heq := s.plumbStart_eq
  refine ⟨cs, ds, s.plumbStart.plumb, ?_, ?_, ?_, ?_, fun w hw => ?_, hcounts, hact⟩
  · rw [heq, hu]
    rfl
  · rw [heq]
    rfl
  · rw [heq]
    rfl
  · rw [heq]
    rfl
  · rw [heq] at hw ⊢
    exact Plumb.level_fullBucket hw

/-! ### The state that serves -/

theorem State.foFlush_frame (s : State) : ∃ n f, s.foFlush =
    { s with plumb := { s.plumb with fbBeats := n }, fab := f } ∧ f.up = s.fab.up := by
  unfold State.foFlush
  split
  · exact ⟨_, _, rfl, rfl⟩
  · exact ⟨s.plumb.fbBeats, s.fab, rfl, rfl⟩

/-- The state in which Crety serves, from the one that ends the restart's command. -/
def State.servesNow (s : State) : State := (s.irq .startDone).foFlush

/-- The start-done cause, and what waited for the fabric, are the last of a start (R528, R571). -/
theorem State.servesNow_frame (s : State) : ∃ n f, s.servesNow =
    { s with regs := { s.regs with irqStatus := s.regs.irqStatus ||| BitVec.ofNat 20 (2 ^ 0) },
             plumb := { s.plumb with fbBeats := n }, fab := f } ∧ f.up = s.fab.up := by
  obtain ⟨n, f, h, hup⟩ := (s.irq .startDone).foFlush_frame
  exact ⟨n, f, h, hup⟩

/-- What the records of a start leave for its ports. -/
theorem State.fab_startRecord (s : State) : s.startRecord.fab = s.fab := by
  obtain ⟨cs, fb, ws, n, h⟩ := s.startRecord_frame
  rw [h]
  split
  · obtain ⟨cs, fb, n, hn⟩ := s.configNoted_frame
    exact s.putsLine_configChanged.fab.trans (by rw [hn])
  · rfl

/-- A start that served no command ends with the mailbox, the latches, the steps and the memory that its records leave. -/
theorem State.startRecord_keeps (s : State) : s.startRecord.mbox = s.mbox ∧ s.startRecord.latches = s.latches ∧
    (s.start.kind ≠ .cold → SameMemory s s.startRecord ∧ s.startRecord.ctl = s.ctl) := by
  obtain ⟨cs, fb, ws, n, h⟩ := s.startRecord_frame
  rw [h]
  by_cases hk : s.start.kind = .cold
  · rw [if_pos hk]
    obtain ⟨cs', fb', n', hn⟩ := s.configNoted_frame
    have hput := s.putsLine_configChanged
    exact ⟨hput.mbox.trans (by rw [hn]), hput.latches.trans (by rw [hn]), fun h => absurd hk h⟩
  · rw [if_neg hk]
    exact ⟨rfl, rfl, fun _ => ⟨sameMemory_of_stores rfl rfl rfl rfl, rfl⟩⟩

/-- A cold start writes its record and no other word (R346). -/
theorem State.startRecord_cold {s : State} (hm : s.start.mode = .starting) (hk : s.start.kind = .cold) (hl : s.ctl.lintel = []) :
    s.startRecord.ctl = { s.ctl with cfgSeq := s.ctl.cfgSeq + 1, seq := s.ctl.seq + 1 } ∧
      SameMemoryBut ((s.lintelLine false ++ s.lintelLine true).map (fun p => (p.space, p.word))) s s.startRecord := by
  obtain ⟨cs, fb, ws, n, h⟩ := s.startRecord_frame
  obtain ⟨cs', fb', n', hn⟩ := s.configNoted_frame
  have hw := State.writesCopies_configChanged hm hl
  have hline : ∀ c, s.configNoted.lintelLine c = s.lintelLine c := fun c => by
    rw [hn]
    rfl
  have hmem : SameMemory s s.configNoted := by
    rw [hn]
    exact sameMemory_of_stores rfl rfl rfl rfl
  have hrec : SameMemory s.configChanged s.startRecord := by
    rw [h, if_pos hk]
    exact sameMemory_of_stores rfl rfl rfl rfl
  refine ⟨?_, fun sp w hsp hout => ?_⟩
  · rw [h, if_pos hk]
    exact hw.ctl.trans (by rw [hn])
  · rw [hrec sp w hsp, ← hmem sp w hsp]
    cases sp with
    | pages => exact absurd rfl hsp
    | mortar => simp only [State.word, hw.mortar]
    | hasp => simp only [State.word, hw.hasps]
    | stack =>
      refine hw.word w fun c p hp hpw => hout ?_
      rw [hline] at hp
      have hspace : p.space = .stack := by
        obtain ⟨i, -, rfl⟩ := List.mem_map.1 hp
        rfl
      refine List.mem_map.2 ⟨p, List.mem_append.2 ?_, by rw [hspace, hpw]⟩
      cases c with
      | false => exact .inl hp
      | true => exact .inr hp

end Sys2Proof.Machine

open Sys2Proof Sys2Proof.Machine

/-- Settles O30: the record, the fields of the start, Plumb and the answer of a restart, each of which leaves the rest. -/
theorem startCompleteBringsThePortsUp : Obligations.StartCompleteBringsThePortsUp := by
  unfold Obligations.StartCompleteBringsThePortsUp
  intro s fclk hm hw hp
  have hx : exec (.startComplete fclk) s = .next (s.startRecord.portsUp fclk).plumbStart.endActivate.servesNow :=
    exec_startComplete hm hw hp fclk
  obtain ⟨a, b, hstart⟩ := s.start_startRecord
  obtain ⟨cs, ds, p, hv, hallow, hesr, hused, hlevel, hcounts, hact⟩ := (s.startRecord.portsUp fclk).plumbStart_spec
  have hends := (s.startRecord.portsUp fclk).plumbStart.endsCommand_endActivate
  have hnone : s.start.activate = none → (s.startRecord.portsUp fclk).plumbStart.endActivate = (s.startRecord.portsUp fclk).plumbStart := by
    intro h
    refine State.endActivate_of_none ?_
    rw [hv]
    exact (congrArg Start.activate hstart).trans h
  generalize hpe : (s.startRecord.portsUp fclk).plumbStart = w at hx hv hcounts hact hends hnone
  generalize w.endActivate = e at hx hends hnone
  obtain ⟨n, f, ht, hup⟩ := e.servesNow_frame
  obtain ⟨x, y, z, hestart⟩ := hends.start
  have hts : e.servesNow.start = { (s.startRecord.portsUp fclk).start with calib := x, stagedOk := y, activate := z } := by
    rw [ht]
    exact hestart.trans (by rw [hv])
  have htp : e.servesNow.plumb = { p with fbBeats := n } := by
    rw [ht, hends.plumb, hv]
  have hfabUp : f.up = (s.fab.up || fclk == some true) := by
    rw [hup, hends.fab, hv, ← s.fab_startRecord]
    rfl
  refine ⟨_, hx, ?_, ?_, ?_, ?_, ?_, ?_, ?_, ?_, ?_, ?_, ?_, ?_, ?_, fun c => ?_, fun d => ?_, fun l hl => ?_, fun hn => ?_⟩
  · rw [State.serving, hts]
    rfl
  · rw [ht]
    exact (congrArg Clock.up hends.clk).trans (by rw [hv]; rfl)
  · rw [hts]
    rfl
  · rw [hts]
    have hkind : s.startRecord.start.kind = s.start.kind := by rw [hstart]
    exact congrArg StartKind.code hkind
  · rw [hts]
    rfl
  · rw [hts]
    rfl
  · rw [hts]
    rfl
  · rw [ht]
    exact hfabUp
  · rw [hts, ← s.fab_startRecord]
    rfl
  · rw [ht]
    exact (getLsbD_or_two_pow e.regs.irqStatus (by decide : 0 < 20) 0).trans (by simp)
  · rw [htp]
    exact hallow
  · rw [htp]
    exact hesr
  · rw [htp]
    exact hused
  · rw [ht]
    exact (hends.counts c).trans (hcounts c)
  · rw [ht]
    exact (congrArg (fun m : Sparse Die => (Sparse.get Die.init m d).act) hends.dies).trans (hact d)
  · rw [htp] at hl ⊢
    exact hlevel l hl
  · obtain ⟨hmbox, hlatch, hwarm⟩ := s.startRecord_keeps
    have hte : ∃ r pl, e.servesNow = { s.startRecord.portsUp fclk with chans := cs, dies := ds, regs := r, plumb := pl, fab := f } := by
      rw [ht, hnone hn, hv]
      exact ⟨_, _, rfl⟩
    obtain ⟨r, pl, hte⟩ := hte
    have hmem : SameMemory s.startRecord e.servesNow := by
      rw [hte]
      exact sameMemory_of_stores rfl rfl rfl rfl
    refine ⟨?_, ?_, fun hk => ⟨(hwarm hk).1.trans hmem, ?_⟩, fun hk hl => ⟨?_, fun sp q hsp hout => ?_⟩⟩
    · rw [hte]
      exact hmbox
    · rw [hte]
      exact hlatch
    · rw [hte]
      exact (hwarm hk).2
    · rw [hte]
      exact (State.startRecord_cold hm hk hl).1
    · exact (hmem sp q hsp).trans ((State.startRecord_cold hm hk hl).2 sp q hsp hout)

end


section

/-!
SUPPORT. Commands of the mailbox that go on running, and what the end of a command leaves of the background (R499, R500).
-/

namespace Sys2Proof.Machine

section
variable {s t u : State} {h : Nat}

/-! ### The background under answers -/

/-- An answer leaves the commands in the background, and the part of the mailbox that it does not speak of. -/
structure State.KeepsBg (s t : State) : Prop where
  bg : t.mbox.bg = s.mbox.bg
  after : t.mbox.after = s.mbox.after

theorem State.KeepsBg.refl (s : State) : s.KeepsBg s := ⟨rfl, rfl⟩

theorem State.KeepsBg.trans (h : s.KeepsBg t) (h' : t.KeepsBg u) : s.KeepsBg u :=
  ⟨h'.bg.trans h.bg, h'.after.trans h.after⟩

theorem State.mbox_haspPut (s : State) (h o : Nat) (bs : List Byte) : (s.haspPut h o bs).mbox = s.mbox := by
  have hstep (u : State) (p : Place) (d : BondData) (n : Nat) (w : Who) : (u.mergePlace w p d false n).mbox = u.mbox := by
    have hcount {v : State} (hv : u.Counted v) (x : BondData) (y : Bool) : (v.placeWrite p x y).mbox = u.mbox := by
      rw [State.placeWrite, State.placeSet_frame, hv.same]
    unfold State.mergePlace
    dsimp only
    split
    · rfl
    · split
      · exact hcount (.refl u) _ _
      · refine hcount ?_ _ _
        split
        · exact .refl u
        · exact State.counted_account (.refl u)
        · exact State.counted_pushLog (State.counted_sitePoison (.refl u))
        · exact State.counted_account (.refl u)
  unfold State.haspPut
  induction List.range (ceilDiv bs.length 16) generalizing s with
  | nil => rfl
  | cons i r ih =>
    rw [List.foldl_cons, ih]
    exact hstep _ _ _ _ _

theorem State.keepsBg_answerHasp (s : State) (h code d : Nat) (bs : List Byte) : s.KeepsBg (s.answerHasp h code d bs) := by
  obtain ⟨y, hy⟩ := ((s.haspPut h 0x840 bs).haspPut h 0x800 (s.header h code d bs.length)).endAnswer_eq h
  have hm := (State.mbox_haspPut (s.haspPut h 0x840 bs) h 0x800 (s.header h code d bs.length)).trans (s.mbox_haspPut h 0x840 bs)
  rw [State.answerHasp_eq, hy]
  generalize (s.haspPut h 0x840 bs).haspPut h 0x800 (s.header h code d bs.length) = u at hm
  have hans (m : Mailbox) : (m.answered h (s.hasp h)).bg = m.bg ∧ (m.answered h (s.hasp h)).after = m.after := by
    unfold Mailbox.answered
    exact ⟨rfl, rfl⟩
  have hb : (u.mbox.answered h (s.hasp h)).bg = s.mbox.bg := (hans _).1.trans (congrArg Mailbox.bg hm)
  have hf : (u.mbox.answered h (s.hasp h)).after = s.mbox.after := (hans _).2.trans (congrArg Mailbox.after hm)
  exact ⟨hb, hf⟩

theorem State.keepsBg_sweepUpTo (n : Nat) (s : State) : s.KeepsBg (s.sweepUpTo n) := by
  induction n generalizing s with
  | zero => exact .refl s
  | succ n ih =>
    rw [State.sweepUpTo]
    split
    · next h' st' _ =>
      have hset (x : Hasp) : s.KeepsBg (s.setHasp h' x) := ⟨rfl, rfl⟩
      exact (hset _).trans ((State.keepsBg_answerHasp _ _ _ _ _).trans (ih _))
    · exact .refl s

theorem State.keepsBg_sweepBad (s : State) : s.KeepsBg s.sweepBad := s.keepsBg_sweepUpTo 16

theorem State.keepsBg_complete (s : State) (h code d : Nat) (bs : List Byte) : s.KeepsBg (s.complete h code d bs) :=
  (s.keepsBg_answerHasp h code d bs).trans (State.keepsBg_sweepBad _)

theorem State.bg_finish (s : State) (h : Nat) (st : MStatus) (d : Nat) (bs : List Byte) : (s.finish h st d bs).mbox.bg = s.mbox.bg := by
  unfold State.finish
  dsimp only
  split
  · rfl
  · exact (s.keepsBg_complete h _ _ bs).bg

/-! ### A command whose body has run -/

theorem State.hidePart_frame (s : State) (h : Nat) (old : State) :
    ∃ st bf, s.hidePart h old = { s with mbox := { s.mbox with sets := st, before := bf } } := by
  unfold State.hidePart
  split
  · split
    · exact ⟨_, s.mbox.before, rfl⟩
    · exact ⟨s.mbox.sets, _, rfl⟩
  · exact ⟨s.mbox.sets, s.mbox.before, rfl⟩

theorem State.pay_begin (s : State) (h lo n : Nat) : ((s.begin_ h).hasp h).pay lo n = (s.hasp h).pay lo n := by
  rw [State.hasp_begin_self]
  rfl

theorem State.payload_begin (s : State) (h lo n : Nat) : ((s.begin_ h).hasp h).payload lo n = (s.hasp h).payload lo n := by
  rw [State.hasp_begin_self]
  rfl

/-- What is hidden of a command and the answers after it leave of the state that its body has left. -/
structure State.RunsOn (h : Nat) (b t : State) : Prop where
  causes : b.SameButCauses t
  keeps : b.KeepsBg t
  self : (b.hasp h).state ≠ .pending → t.hasp h = b.hasp h
  other : ∀ j, b.badStatus j = none → t.hasp j = b.hasp j
  storage : ∀ j, b.badStatus j = none → SameHasp j b.hasps t.hasps
  active : ∀ j, b.badStatus j = none → (t.mbox.active = some j ↔ b.mbox.active = some j)
  quiet : b.noneBad → ∃ st bf, t = { b with mbox := { b.mbox with sets := st, before := bf } }

theorem State.runsOn_runCommand {op : Nat} (hturn : s.turn h op) (body : State → State) :
    State.RunsOn h (body (s.begin_ h)) (s.runCommand h op body) := by
  rw [State.runCommand_turn hturn]
  generalize body (s.begin_ h) = b
  obtain ⟨st, bf, hide⟩ := b.hidePart_frame h (s.begin_ h)
  rw [hide]
  generalize hv : ({ b with mbox := { b.mbox with sets := st, before := bf } } : State) = v
  have hhasp : ∀ j, v.hasp j = b.hasp j := fun j => hv ▸ rfl
  have hbad : ∀ j, v.badStatus j = b.badStatus j := fun j => State.badStatus_congr (hhasp j)
  have hs := v.sweeps_sweepBad
  refine ⟨?_, ?_, fun hp => ?_, fun j hj => ?_, fun j hj => ?_, fun j hj => ?_, fun hn => ⟨st, bf, ?_⟩⟩
  · exact State.SameButCauses.trans (hv ▸ b.sameButCauses_of_mbox _) hs.causes
  · exact State.KeepsBg.trans (hv ▸ ⟨rfl, rfl⟩) v.keepsBg_sweepBad
  · exact (hs.hasp h (State.badStatus_of_state_ne (by rw [hhasp]; exact hp))).trans (hhasp h)
  · exact (hs.hasp j ((hbad j).trans hj)).trans (hhasp j)
  · have hst := hs.storage j ((hbad j).trans hj)
    have hb : v.hasps = b.hasps := hv ▸ rfl
    rw [hb] at hst
    exact hst
  · refine (hs.active j ((hbad j).trans hj)).trans ?_
    have ha : v.mbox.active = b.mbox.active := hv ▸ rfl
    rw [ha]
  · rw [State.sweepBad_of_noneBad fun j => (hbad j).trans (hn j), ← hv]

/-- A body that runs on, and leaves the words and the other hasps: so does the command. -/
theorem State.RunsOn.sameMemoryButHasp {b : State} (hr : State.RunsOn h b t) (hmem : SameMemory s b)
    (hhasp : ∀ j, j ≠ h → b.hasp j = s.hasp j) : SameMemoryButHasp h s t := by
  intro sp w hsp hq
  rw [← hmem sp w hsp]
  by_cases h' : sp = .hasp
  · subst h'
    have hquiet := hq rfl
    have hsame := hr.storage (w / 256) ((State.badStatus_congr (hhasp _ hquiet.1)).trans hquiet.2)
    exact Prod.ext (hsame.data rfl) (hsame.2 w rfl)
  · exact hr.causes.sameButAnswers.word h' hsp w

/-- With no failing request the command changes no word. -/
theorem State.RunsOn.sameMemory {b : State} (hr : State.RunsOn h b t) (hmem : SameMemory s b)
    (hhasp : ∀ j, j ≠ h → b.hasp j = s.hasp j) (hrun : (b.hasp h).state ≠ .pending) (hn : s.noneBad) : SameMemory s t := by
  have hnb : b.noneBad := fun j => by
    by_cases hj : j = h
    · subst hj
      exact State.badStatus_of_state_ne hrun
    · exact (State.badStatus_congr (hhasp j hj)).trans (hn j)
  obtain ⟨st, bf, heq⟩ := hr.quiet hnb
  rw [heq]
  exact fun sp w hsp => hmem sp w hsp

end

end Sys2Proof.Machine

end

section

/-!
SUPPORT. Responses of whole words: their payload, their length and their DETAIL (R494, R496).
-/

namespace Sys2Proof.Machine

/-! ### Numbers that bytes spell -/

theorem leNat_append (a b : List Byte) : leNat (a ++ b) = leNat a + 256 ^ a.length * leNat b := by
  induction a with
  | nil => simp [leNat]
  | cons x r ih =>
    rw [List.cons_append, leNat, leNat, ih, List.length_cons, Nat.pow_succ]
    ring

/-- The number that bytes [lo, lo + n) of a list spell, as bits of the number that the list spells. -/
theorem bits_leNat_append {a b c : List Byte} {hi lo : Nat} (hlo : lo = 8 * a.length) (hhi : hi + 1 - lo = 8 * b.length) :
    bits (leNat (a ++ (b ++ c))) hi lo = leNat b := by
  have ha := leNat_lt a
  have hb := leNat_lt b
  have hpow (n : Nat) : 2 ^ (8 * n) = 256 ^ n := by rw [Nat.pow_mul]
  rw [bits, hhi, hlo, Nat.shiftRight_eq_div_pow, hpow, hpow, leNat_append, leNat_append, Nat.add_mul_div_left _ _ (Nat.pow_pos (by decide)),
    Nat.div_eq_of_lt ha, Nat.zero_add, Nat.add_mul_mod_self_left, Nat.mod_eq_of_lt hb]

/-! ### Runs of whole words -/

/-- The bytes from a word on, n whole words of them, written one word after the other. -/
def Store.putRun (m : Store) (w : Nat) (bs : List Byte) (n : Nat) : Store :=
  (List.range n).foldl (fun m i => m.setWord (w + i) (BitVec.ofNat 128 (leNat ((bs.drop (16 * i)).take 16))) 0) m

theorem Store.putRun_succ (m : Store) (w : Nat) (bs : List Byte) (n : Nat) : m.putRun w bs (n + 1) =
    (m.putRun w bs n).setWord (w + n) (BitVec.ofNat 128 (leNat ((bs.drop (16 * n)).take 16))) 0 := by
  rw [Store.putRun, List.range_succ, List.foldl_append]
  rfl

theorem Store.byte_setWord_part (m : Store) {w a : Nat} {bs : List Byte} (x : BitVec 16) (hlen : bs.length = 16) (h : a / 16 = w) :
    (m.setWord w (BitVec.ofNat 128 (leNat bs)) x).byte a = bs.getD (a % 16) 0 := by
  have hlt : leNat bs < 2 ^ 128 := lt_of_lt_of_eq (leNat_lt bs) (by rw [hlen]; rfl)
  have hle : leBytes 16 (leNat bs) = bs := hlen ▸ leBytes_leNat bs
  rw [Store.setWord, Store.byte_setSyn, Store.byte_setBytes, BitVec.toNat_ofNat, Nat.mod_eq_of_lt hlt, hle, if_pos (by omega)]
  exact congrArg (fun i => bs.getD i 0) (by omega)

theorem Store.byte_putRun (m : Store) (w : Nat) (bs : List Byte) {n : Nat} (hlen : 16 * n ≤ bs.length) (a : Nat) :
    (m.putRun w bs n).byte a = if 16 * w ≤ a ∧ a < 16 * (w + n) then bs.getD (a - 16 * w) 0 else m.byte a := by
  induction n with
  | zero =>
    rw [if_neg (by omega)]
    rfl
  | succ n ih =>
    rw [Store.putRun_succ]
    by_cases ha : a / 16 = w + n
    · have hpart : ((bs.drop (16 * n)).take 16).length = 16 := by rw [List.length_take, List.length_drop]; omega
      have hi : a % 16 < 16 := Nat.mod_lt _ (by decide)
      have hsum : 16 * n + a % 16 = a - 16 * w := by omega
      rw [Store.byte_setWord_part _ _ hpart ha, if_pos (by omega), List.getD_eq_getElem _ _ (by omega), List.getD_eq_getElem _ _ (by omega)]
      simp only [List.getElem_take, List.getElem_drop, hsum]
    · rw [Store.byte_setWord_ne _ _ _ _ ha, ih (by omega)]
      exact if_congr (by omega) rfl rfl

theorem SameHasp.putRun {j : Nat} (m : Store) {w n : Nat} (bs : List Byte) (h : ∀ i, i < n → (w + i) / 256 ≠ j) :
    SameHasp j m (m.putRun w bs n) := by
  induction n with
  | zero => exact SameHasp.refl j m
  | succ n ih =>
    rw [Store.putRun_succ]
    exact (ih fun i hi => h i (Nat.lt_succ_of_lt hi)).trans (SameHasp.setWord _ _ _ (h n (Nat.lt_succ_self n)))

/-- Whole words into hasp storage are that run of words, and nothing is counted for them. -/
theorem State.haspPut_words (s : State) {h o n : Nat} {bs : List Byte} (ho : o % 16 = 0) (hlen : bs.length = 16 * n) :
    s.haspPut h o bs = { s with hasps := s.hasps.putRun (haspAt h o / 16) bs n } := by
  have hn : ceilDiv bs.length 16 = n := by rw [ceilDiv]; omega
  have hstep (u : State) (i : Nat) (hi : i < n) :
      (let part := (bs.drop (16 * i)).take 16
       u.mergePlace { src := 4, agent := agentWarden } (haspPlace (haspAt h (o + 16 * i))) (BitVec.ofNat 128 (leNat part)) false (2 ^ part.length - 1)) =
      { u with hasps := u.hasps.setWord (haspAt h o / 16 + i) (BitVec.ofNat 128 (leNat ((bs.drop (16 * i)).take 16))) 0 } := by
    have hpart : ((bs.drop (16 * i)).take 16).length = 16 := by rw [List.length_take, List.length_drop]; omega
    have hword : haspAt h (o + 16 * i) / 16 = haspAt h o / 16 + i := by rw [haspAt, haspAt]; omega
    dsimp only
    rw [hpart, State.mergePlace_hasp_whole, hword]
  have hrun : ∀ k, k ≤ n → (List.range k).foldl (fun u i =>
      let part := (bs.drop (16 * i)).take 16
      u.mergePlace { src := 4, agent := agentWarden } (haspPlace (haspAt h (o + 16 * i))) (BitVec.ofNat 128 (leNat part)) false (2 ^ part.length - 1)) s =
      { s with hasps := s.hasps.putRun (haspAt h o / 16) bs k } := by
    intro k hk
    induction k with
    | zero => rfl
    | succ k ih =>
      rw [List.range_succ, List.foldl_append, ih (by omega), List.foldl_cons, List.foldl_nil, hstep _ _ (by omega), Store.putRun_succ]
  rw [State.haspPut, hn]
  exact hrun n (Nat.le_refl n)

/-! ### A response of whole words -/

/-- The header and the payload of a response, as they stand in the storage of hasp h (R496). -/
structure Store.Holds (m : Store) (h code d : Nat) (bs : List Byte) : Prop where
  status : bits (m.data (haspAt h 0x800 / 16)).toNat 31 16 = code
  len : bits (m.data (haspAt h 0x800 / 16)).toNat 63 32 = bs.length
  detail : bits (m.data (haspAt h 0x810 / 16)).toNat 63 0 = d
  bytes : m.bytes (haspAt h 0x840) bs.length = bs

theorem Store.bytes_of_byte {m : Store} {a : Nat} {bs : List Byte} (h : ∀ i, i < bs.length → m.byte (a + i) = bs.getD i 0) :
    m.bytes a bs.length = bs := by
  refine List.ext_getElem (by rw [Store.bytes, List.length_map, List.length_range]) fun i hi hi' => ?_
  simp only [Store.bytes, List.getElem_map, List.getElem_range, h i hi', List.getD_eq_getElem _ _ hi']

theorem Store.toNat_data_of_bytes {m : Store} {w : Nat} {bs : List Byte} (hlen : bs.length = 16) (h : m.bytes (16 * w) bs.length = bs) :
    (m.data w).toNat = leNat bs := by
  rw [hlen] at h
  rw [Store.data, h, BitVec.toNat_ofNat]
  exact Nat.mod_eq_of_lt (lt_of_lt_of_eq (leNat_lt bs) (by rw [hlen]; rfl))

/-- The first word of a header: opcode, status, length and SEQ; the second: DETAIL and the tick. -/
theorem State.header_split (s : State) (h code d n : Nat) : ∃ r, s.header h code d n =
    (bytesOf (s.hasp h).req 0 2 ++ (leBytes 2 code ++ (leBytes 4 n ++ bytesOf (s.hasp h).req 8 8))) ++
      (([] ++ (leBytes 8 d ++ leBytes 8 s.clk.tick.toNat)) ++ r) := by
  refine ⟨List.replicate 32 0, ?_⟩
  simp only [State.header, List.append_assoc, List.nil_append]

theorem State.holds_haspPut (s : State) {h code d : Nat} {bs : List Byte} {n : Nat} (hcode : code < 2 ^ 16) (hd : d < 2 ^ 64)
    (hlen : bs.length = 16 * n) (hmax : bs.length ≤ 1984) :
    ∃ m, (s.haspPut h 0x840 bs).haspPut h 0x800 (s.header h code d bs.length) = { s with hasps := m } ∧ m.Holds h code d bs ∧
      ∀ j, j ≠ h → SameHasp j s.hasps m := by
  have hhead := s.header_length h code d bs.length
  obtain ⟨r, hsplit⟩ := s.header_split h code d bs.length
  rw [s.haspPut_words rfl hlen, State.haspPut_words _ (n := 4) rfl hhead]
  generalize s.header h code d bs.length = hdr at hhead hsplit
  set m := s.hasps.putRun (haspAt h 0x840 / 16) bs n with hm
  have hword : ∀ i, i < 64 → (m.putRun (haspAt h 0x800 / 16) hdr 4).byte (haspAt h 0x800 + i) = hdr.getD i 0 := by
    intro i hi
    have hb : 16 * (haspAt h 0x800 / 16) = haspAt h 0x800 := by rw [haspAt]; omega
    rw [Store.byte_putRun _ _ _ hhead.ge, if_pos (by omega), hb, Nat.add_sub_cancel_left]
  have hdata : ∀ (k : Nat) (part : List Byte), part.length = 16 → k < 4 → (∀ i, i < 16 → hdr.getD (16 * k + i) 0 = part.getD i 0) →
      ((m.putRun (haspAt h 0x800 / 16) hdr 4).data (haspAt h (0x800 + 16 * k) / 16)).toNat = leNat part := by
    intro k part hp hk hpart
    refine Store.toNat_data_of_bytes hp (Store.bytes_of_byte fun i hi => ?_)
    have hb : 16 * (haspAt h (0x800 + 16 * k) / 16) + i = haspAt h 0x800 + (16 * k + i) := by rw [haspAt, haspAt]; omega
    rw [hb, hword _ (by omega), hpart i (by omega)]
  set p0 := bytesOf (s.hasp h).req 0 2 ++ (leBytes 2 code ++ (leBytes 4 bs.length ++ bytesOf (s.hasp h).req 8 8)) with hp0
  set p1 := ([] ++ (leBytes 8 d ++ leBytes 8 s.clk.tick.toNat) : List Byte) with hp1
  have hl0 : p0.length = 16 := by simp [hp0, bytesOf_length, leBytes_length]
  have hl1 : p1.length = 16 := by simp [hp1, leBytes_length]
  have h0 := hdata 0 p0 hl0 (by decide) fun i hi => by
    rw [hsplit, List.getD_append _ _ _ _ (by omega)]
    exact congrArg (fun i => p0.getD i 0) (by omega)
  have h1 := hdata 1 p1 hl1 (by decide) fun i hi => by
    rw [hsplit, List.getD_append_right _ _ _ _ (by omega), List.getD_append _ _ _ _ (by omega), hl0]
    exact congrArg (fun i => p1.getD i 0) (by omega)
  refine ⟨_, rfl, ⟨?_, ?_, ?_, ?_⟩, fun j hj => ?_⟩
  · rw [h0, bits_leNat_append (by rw [bytesOf_length]) (by rw [leBytes_length]), leNat_leBytes]
    exact Nat.mod_eq_of_lt hcode
  · rw [h0, hp0, ← List.append_assoc, bits_leNat_append (by simp [bytesOf_length, leBytes_length]) (by rw [leBytes_length]), leNat_leBytes]
    exact Nat.mod_eq_of_lt (by omega)
  · rw [h1, hp1, bits_leNat_append (hi := 63) (lo := 0) rfl (by rw [leBytes_length]), leNat_leBytes]
    exact Nat.mod_eq_of_lt hd
  · refine Store.bytes_of_byte fun i hi => ?_
    have hb : 16 * (haspAt h 0x840 / 16) = haspAt h 0x840 := by rw [haspAt]; omega
    have hlo : haspAt h 0x840 = 16 * (haspAt h 0x800 / 16 + 4) := by rw [haspAt, haspAt]; omega
    rw [Store.byte_putRun _ _ _ hhead.ge, if_neg (by omega), hm, Store.byte_putRun _ _ _ hlen.ge, if_pos (by omega), hb, Nat.add_sub_cancel_left]
  · refine (SameHasp.putRun _ _ fun i hi => ?_).trans (SameHasp.putRun _ _ fun i hi => ?_)
    · rw [haspAt]; omega
    · rw [haspAt]; omega

/-- The command of hasp h has been answered: status, length, DETAIL and payload, and every other hasp without a failing request is as it
was. -/
structure State.Answered (s t : State) (h : Nat) (st : MStatus) (d : Nat) (bs : List Byte) : Prop where
  causes : s.SameButCauses t
  done : t.done h st
  holds : t.hasps.Holds h st.code d bs
  hasp : ∀ j, s.haspQuiet h j → t.hasp j = s.hasp j
  storage : ∀ j, s.haspQuiet h j → SameHasp j s.hasps t.hasps

section
variable {s t u : State} {h d : Nat} {st : MStatus} {bs : List Byte}

theorem Store.Holds.of_same {m n : Store} {code : Nat} (hm : m.Holds h code d bs) (hlen : bs.length ≤ 1984) (hs : SameHasp h m n) :
    n.Holds h code d bs where
  status := by
    rw [hs.data (by rw [haspAt]; omega)]
    exact hm.status
  len := by
    rw [hs.data (by rw [haspAt]; omega)]
    exact hm.len
  detail := by
    rw [hs.data (by rw [haspAt]; omega)]
    exact hm.detail
  bytes := by
    rw [hs.bytes (by rw [haspAt]; omega) (by rw [haspAt]; omega)]
    exact hm.bytes

theorem State.Answered.sweeps (hc : s.Answered t h st d bs) (hlen : bs.length ≤ 1984) (hs : t.Sweeps u) : s.Answered u h st d bs := by
  obtain ⟨hstate, -, hqueue, hactive⟩ := hc.done
  have hnone : t.badStatus h = none := State.badStatus_of_state_ne (by rw [hstate]; decide)
  have hquiet : ∀ j, s.haspQuiet h j → t.badStatus j = none := fun j hj => (State.badStatus_congr (hc.hasp j hj)).trans hj.2
  have hh := hc.holds.of_same hlen (hs.storage h hnone)
  exact {
    causes := hc.causes.trans hs.causes
    done := ⟨by rw [hs.hasp h hnone, hstate], hh.status, fun hmem => hqueue (hs.queue h hmem), by rwa [Ne, hs.active h hnone]⟩
    holds := hh
    hasp := fun j hj => (hs.hasp j (hquiet j hj)).trans (hc.hasp j hj)
    storage := fun j hj => (hc.storage j hj).trans (hs.storage j (hquiet j hj)) }

theorem State.answered_complete (s : State) (h : Nat) (st : MStatus) (hd : d < 2 ^ 64) (hlen : bs.length % 16 = 0) (hmax : bs.length ≤ 1984) :
    s.Answered (s.complete h st.code d bs) h st d bs := by
  obtain ⟨m, hput, hholds, hother⟩ := s.holds_haspPut (h := h) (n := bs.length / 16) st.code_lt hd (by omega) hmax
  refine State.Answered.sweeps ?_ hmax (State.sweeps_sweepBad _)
  rw [State.answerHasp_eq, hput]
  obtain ⟨y, hy⟩ := ({ s with hasps := m } : State).endAnswer_eq h
  rw [hy]
  refine ⟨⟨y, rfl⟩, ⟨?_, hholds.status, ?_, ?_⟩, hholds, fun j hj => ?_, fun j hj => hother j hj.1⟩
  · simp only [State.hasp, Mailbox.answered, Sparse.get_set_self, Hasp.ended]
  · simp only [Mailbox.answered]
    simp
  · simp only [Mailbox.answered]
    split
    · exact nofun
    · assumption
  · simp only [State.hasp, Mailbox.answered, Sparse.get_set_ne _ _ _ hj.1]

theorem State.answered_finish (s : State) (h : Nat) (st : MStatus) (hd : d < 2 ^ 64) (hlen : bs.length % 16 = 0) (hmax : bs.length ≤ 1984)
    (hnow : ¬(st = .okay ∧ s.recordWaits h = true)) :
    s.Answered (s.finish h st d bs) h st (if st = .badField ∧ (s.hasp h).level ≠ 3 then d else 0) bs := by
  simp only [State.finish, if_neg hnow]
  refine s.answered_complete h st ?_ hlen hmax
  split
  · exact hd
  · decide

theorem State.Answered.of_mbox {m : Mailbox} (hc : State.Answered { s with mbox := m } t h st d bs)
    (hm : ∀ j, j ≠ h → ({ s with mbox := m } : State).hasp j = s.hasp j) : s.Answered t h st d bs := by
  have hquiet : ∀ j, s.haspQuiet h j → ({ s with mbox := m } : State).haspQuiet h j :=
    fun j hj => ⟨hj.1, (State.badStatus_congr (hm j hj.1)).trans hj.2⟩
  exact {
    causes := (s.sameButCauses_of_mbox m).trans hc.causes
    done := hc.done
    holds := hc.holds
    hasp := fun j hj => (hc.hasp j (hquiet j hj)).trans (hm j hj.1)
    storage := fun j hj => hc.storage j (hquiet j hj) }

theorem State.Answered.of_begin (hc : (s.begin_ h).Answered t h st d bs) : s.Answered t h st d bs :=
  State.Answered.of_mbox (m := (s.begin_ h).mbox) hc fun _ hj => s.hasp_begin_ne hj

/-- A command that its own part answers: nothing is hidden, and other requests may be answered after it. -/
theorem State.answered_runCommand {op : Nat} (hturn : s.turn h op) {body : State → State} (hlen : bs.length ≤ 1984)
    (hc : u.Answered (body (s.begin_ h)) h st d bs) : u.Answered (s.runCommand h op body) h st d bs := by
  obtain ⟨-, -, -, hactive⟩ := hc.done
  rw [State.runCommand_turn hturn, State.hidePart, if_neg hactive]
  exact hc.sweeps hlen (State.sweeps_sweepBad _)

/-- A request that checks 3 to 5 of R497 refuse is answered with the status, and DETAIL from level 4 on (R514). -/
theorem State.answered_runCommand_refused {op : Nat} {body : State → State} (hready : s.ready h op = true)
    (hpre : (s.begin_ h).preChecks h = some (st, d)) (hst : st ≠ .okay) (hd : d < 2 ^ 64) :
    s.Answered (s.runCommand h op body) h st (if st = .badField ∧ s.ctl.compat ≠ 3 then d else 0) [] := by
  have hfin := (s.begin_ h).answered_finish (bs := []) h st hd rfl (by decide) fun hok => hst hok.1
  rw [State.hasp_begin_self] at hfin
  simp only [State.runCommand, hready, if_true, hpre]
  exact hfin.of_begin

theorem State.runCommand_notReady {op : Nat} (h0 : s.ready h op = false) (body : State → State) : s.runCommand h op body = s := by
  simp [State.runCommand, h0]

theorem State.Answered.sameMemoryButHasp (hc : s.Answered t h st d bs) : SameMemoryButHasp h s t :=
  sameMemoryButHasp_of_storage hc.causes.sameButAnswers hc.storage

end

end Sys2Proof.Machine

end

section

/-!
PROOF. O44: doorbells copy requests (R493, R495), and requests that checks 3 to 5 of R497 refuse have no other effect.
-/

namespace Sys2Proof.Machine

section
variable {s t : State} {h : Nat}

/-! ### Requests as they are copied -/

theorem mem_zip_range {bs : List Byte} {e : Nat × Byte} : e ∈ List.zip (List.range bs.length) bs ↔ bs[e.1]? = some e.2 := by
  rw [List.mem_iff_getElem?]
  constructor
  · rintro ⟨i, hi⟩
    rw [List.getElem?_zip_eq_some] at hi
    obtain ⟨h1, h2⟩ := hi
    obtain ⟨hlt, h1⟩ := List.getElem?_eq_some_iff.1 h1
    rw [List.getElem_range] at h1
    rwa [← h1]
  · intro he
    obtain ⟨hlt, -⟩ := List.getElem?_eq_some_iff.1 he
    exact ⟨e.1, List.getElem?_zip_eq_some.2 ⟨List.getElem?_range hlt, he⟩⟩

/-- The sparse map of a list of bytes holds its bytes. -/
theorem bytesOf_toSparse (bs : List Byte) (lo n : Nat) : bytesOf (toSparse bs) lo n = (List.range n).map (fun i => bs.getD (lo + i) 0) := by
  refine List.map_congr_left fun i _ => ?_
  cases hf : (toSparse bs).find? (fun e => e.1 == lo + i) with
  | some e =>
    have hmem := List.mem_filter.1 (List.mem_of_find?_eq_some hf)
    have hi : e.1 = lo + i := by simpa using List.find?_some hf
    have hb := mem_zip_range.1 hmem.1
    rw [hi] at hb
    simp only [List.getD_eq_getElem?_getD, hb, Option.getD_some]
  | none =>
    cases hb : bs[lo + i]? with
    | none => simp only [List.getD_eq_getElem?_getD, hb, Option.getD_none]
    | some b =>
      have h0 : b = 0 := by
        by_contra hne
        have hmem : (lo + i, b) ∈ toSparse bs := List.mem_filter.2 ⟨mem_zip_range.2 hb, by simpa using hne⟩
        exact absurd (List.find?_eq_none.1 hf _ hmem) (by simp)
      simp only [List.getD_eq_getElem?_getD, hb, Option.getD_some, h0]

theorem Store.length_bytes (m : Store) (a n : Nat) : (m.bytes a n).length = n := by rw [Store.bytes, List.length_map, List.length_range]

theorem Store.leBytes_data (m : Store) (w : Nat) : leBytes 16 (m.data w).toNat = m.bytes (16 * w) 16 := by
  rw [Store.toNat_data_of_bytes (bs := m.bytes (16 * w) 16) (m.length_bytes _ _) (by rw [Store.length_bytes])]
  have hb := leBytes_leNat (m.bytes (16 * w) 16)
  rwa [Store.length_bytes] at hb

theorem Store.bytes_add (m : Store) (a n k : Nat) : m.bytes a (n + k) = m.bytes a n ++ m.bytes (a + n) k := by
  rw [Store.bytes, List.range_add, List.map_append, List.map_map]
  exact congrArg (m.bytes a n ++ ·) (List.map_congr_left fun i _ => congrArg m.byte (Nat.add_assoc a n i).symm)

theorem Store.flatten_bytes (m : Store) (a k n : Nat) :
    ((List.range n).map (fun i => m.bytes (a + k * i) k)).flatten = m.bytes a (k * n) := by
  induction n with
  | zero => rfl
  | succ n ih =>
    rw [List.range_succ, List.map_append, List.flatten_append, ih, Nat.mul_succ, Store.bytes_add]
    simp

theorem Store.getD_bytes (m : Store) (a : Nat) {n i : Nat} (hi : i < n) : (m.bytes a n).getD i 0 = m.byte (a + i) := by
  rw [List.getD_eq_getElem _ _ (by rwa [Store.length_bytes])]
  simp only [Store.bytes, List.getElem_map, List.getElem_range]

/-- The 128 words of a request, as they are read. -/
def requestPlaces (h : Nat) : List Place := (List.range 128).map (fun i => haspPlace (haspAt h (16 * i)))

theorem State.readPlaces_clean (w : Who) {ps : List Place} (hc : ∀ p ∈ ps, s.placeCheck p = .clean) : (s.readPlaces w ps).2 = s := by
  induction ps with
  | nil => rfl
  | cons p r ih =>
    have hread : (s.readPlace w p).2 = s := by rw [State.readPlace, hc p List.mem_cons_self]; rfl
    have hr := ih fun q hq => hc q (List.mem_cons_of_mem p hq)
    simp only [State.readPlaces, hread]
    exact hr

/-- The bytes of a request that reads clean. -/
theorem State.read_request (w : Who) (hsyn : ∀ i, i < 128 → s.hasps.syn (256 * h + i) = 0) :
    (s.readPlaces w (requestPlaces h)).2 = s ∧
    (((s.readPlaces w (requestPlaces h)).1.map (fun v => leBytes 16 v.1.toNat)).flatten = s.hasps.bytes (haspAt h 0) 2048) ∧
    (s.readPlaces w (requestPlaces h)).1.any (·.2) = false := by
  have hword : ∀ i, i < 128 → haspAt h (16 * i) / 16 = 256 * h + i := fun i _ => by rw [haspAt]; omega
  have hcheck : ∀ i, i < 128 → s.placeCheck (haspPlace (haspAt h (16 * i))) = .clean := by
    intro i hi
    have h0 : s.placeSyn (haspPlace (haspAt h (16 * i))) = 0 := (congrArg s.hasps.syn (hword i hi)).trans (hsyn i hi)
    rw [State.placeCheck, h0]
    rfl
  have hpeek : ∀ i, i < 128 → s.peek (haspPlace (haspAt h (16 * i))) = (s.hasps.data (256 * h + i), false) := by
    intro i hi
    rw [State.peek, hcheck i hi]
    exact Prod.ext (congrArg s.hasps.data (hword i hi)) rfl
  have hfst : (s.readPlaces w (requestPlaces h)).1 = (List.range 128).map (fun i => (s.hasps.data (256 * h + i), false)) := by
    rw [State.readPlaces_fst s w _ (by simp [requestPlaces, haspPlace]), requestPlaces, List.map_map]
    exact List.map_congr_left fun i hi => hpeek i (List.mem_range.1 hi)
  refine ⟨State.readPlaces_clean w ?_, ?_, ?_⟩
  · simp only [requestPlaces, List.mem_map, List.mem_range]
    rintro p ⟨i, hi, rfl⟩
    exact hcheck i hi
  · rw [hfst, List.map_map, ← Store.flatten_bytes _ _ 16 128]
    refine congrArg List.flatten (List.map_congr_left fun i _ => ?_)
    exact (Store.leBytes_data _ _).trans (congrArg (fun a => s.hasps.bytes a 16) (by rw [haspAt]; omega))
  · rw [hfst]
    simp

/-- A request that a doorbell has copied clean. -/
def State.copied (s : State) (h : Nat) : Hasp :=
  { s.hasp h with state := .pending, progress := 0, req := toSparse (s.hasps.bytes (haspAt h 0) 2048), reqOk := true, stamp := s.now }

/-- The state once the request is in the order of acceptance (R495, R499). -/
def State.rung (s : State) (h : Nat) : State :=
  if isQuery (s.copied h).opcode then s.setHasp h (s.copied h) else (s.setHasp h (s.copied h)).enqueue h

theorem State.doorbell_clean (hp : (s.hasp h).state ≠ .pending) (hr : (s.hasp h).state ≠ .running)
    (hsyn : ∀ i, i < 128 → s.hasps.syn (256 * h + i) = 0) : s.doorbell h = (s.rung h).sweepBad := by
  obtain ⟨hsame, hbytes, hok⟩ := s.read_request { src := 4, agent := agentWarden } hsyn
  rw [requestPlaces] at hsame hbytes hok
  simp only [State.doorbell, hp, hr, or_self, if_false, hsame, hbytes, hok, Bool.not_false]
  rfl

theorem State.opcode_copied (s : State) (h : Nat) : (s.copied h).opcode = leNat (s.hasps.bytes (haspAt h 0) 2) := by
  rw [Hasp.opcode, State.copied]
  simp only [bytesOf_toSparse, field, List.drop_zero]
  refine congrArg leNat ?_
  rw [List.take_of_length_le (by simp)]
  exact List.map_congr_left fun i hi => (Store.getD_bytes _ _ (by have := List.mem_range.1 hi; omega)).trans (congrArg s.hasps.byte (by omega))

theorem State.payload_copied (s : State) (h : Nat) {lo n : Nat} (hn : lo + n ≤ 1984) :
    (s.copied h).payload lo n = s.hasps.bytes (haspAt h (0x40 + lo)) n := by
  rw [Hasp.payload, State.copied]
  simp only [bytesOf_toSparse]
  refine List.map_congr_left fun i hi => ?_
  have hi := List.mem_range.1 hi
  exact (Store.getD_bytes _ _ (by omega)).trans (congrArg s.hasps.byte (by rw [haspAt, haspAt]; omega))

/-! ### Requests in the order of acceptance -/

theorem State.enqueue_frame (s : State) (h : Nat) : ∃ q, s.enqueue h = { s with mbox := { s.mbox with queue := q } } ∧ h ∈ q ∧
    (∀ j ∈ s.mbox.queue, j ∈ q) ∧ (s.mbox.queue = [] → q = [h]) := by
  refine ⟨_, rfl, by simp, fun j hj => ?_, fun h0 => by rw [h0]; rfl⟩
  simp only [List.mem_append, List.mem_filter, List.mem_singleton, hj, true_and]
  rcases Bool.eq_false_or_eq_true
    (decide ((s.hasp j).stamp < (s.hasp h).stamp) || ((s.hasp j).stamp == (s.hasp h).stamp && decide (j < h))) with hb | hb <;> simp [hb]

theorem State.rung_frame (s : State) (h : Nat) : ∃ q, s.rung h = { s.setHasp h (s.copied h) with mbox := { (s.setHasp h (s.copied h)).mbox with queue := q } } ∧
    (isQuery (s.copied h).opcode = true → q = s.mbox.queue) ∧
    (isQuery (s.copied h).opcode = false → h ∈ q ∧ (∀ j ∈ s.mbox.queue, j ∈ q) ∧ (s.mbox.queue = [] → q = [h])) := by
  rw [State.rung]
  split
  · next hq => exact ⟨s.mbox.queue, rfl, fun _ => rfl, fun hn => absurd (hq.symm.trans hn) (by decide)⟩
  · next hq =>
    obtain ⟨q, heq, hin, hall, hone⟩ := (s.setHasp h (s.copied h)).enqueue_frame h
    exact ⟨q, heq, fun hy => absurd hy hq, fun _ => ⟨hin, hall, hone⟩⟩

theorem State.hasp_rung (s : State) (h j : Nat) : (s.rung h).hasp j = if j = h then s.copied h else s.hasp j := by
  obtain ⟨q, heq, -⟩ := s.rung_frame h
  rw [heq]
  exact (s.hasp_setHasp h (s.copied h) j).trans rfl

theorem State.badStatus_rung_self {op : Nat} (hop : (s.copied h).opcode = op) :
    (s.rung h).badStatus h = if op = 0 ∨ 0x15 < op then some .badOpcode else none := by
  have hh := s.hasp_rung h h
  rw [if_pos rfl] at hh
  rw [State.badStatus, hh]
  refine (if_pos rfl).trans ?_
  rw [Hasp.firstChecks, hop]
  exact if_neg (by decide : ¬(!true) = true)

theorem State.badStatus_rung_ne {j : Nat} (hj : j ≠ h) : (s.rung h).badStatus j = s.badStatus j := by
  refine State.badStatus_congr ?_
  rw [State.hasp_rung, if_neg hj]

theorem State.noneBad_rung {op : Nat} (hop : (s.copied h).opcode = op) (h0 : op ≠ 0) (hmax : op ≤ 0x15) (hn : s.noneBad) : (s.rung h).noneBad := by
  intro j
  by_cases hj : j = h
  · subst hj
    rw [State.badStatus_rung_self hop, if_neg (by omega)]
  · rw [State.badStatus_rung_ne hj, hn]

theorem isQuery_eq_false {op : Nat} (h : op = 0 ∨ 0x15 < op) : isQuery op = false := by
  simp only [isQuery, Bool.or_eq_false_iff, beq_eq_false_iff_ne]
  omega

/-- Of the requests that wait, the copied one alone fails, and its turn has not come. -/
theorem State.sweepBad_rung_later {op : Nat} (hop : (s.copied h).opcode = op) (hbad : op = 0 ∨ 0x15 < op) (hn : s.noneBad)
    (hlater : s.dbg.halted = true ∨ s.mbox.active.isSome = true) : (s.rung h).sweepBad = s.rung h := by
  obtain ⟨q, heq, -⟩ := s.rung_frame h
  have hquery : (List.range 16).find? (fun j => isQuery ((s.rung h).hasp j).opcode && ((s.rung h).badStatus j).isSome) = none := by
    refine List.find?_eq_none.2 fun j _ => ?_
    by_cases hj : j = h
    · subst hj
      rw [State.hasp_rung, if_pos rfl, hop, isQuery_eq_false hbad]
      simp
    · rw [State.badStatus_rung_ne hj, hn]
      simp
  have hnext : (s.rung h).nextBad = none := by
    rw [State.nextBad, hquery]
    have hd : (s.rung h).dbg.halted = s.dbg.halted := by rw [heq]; rfl
    have ha : (s.rung h).mbox.active = s.mbox.active := by rw [heq]; rfl
    rw [hd, ha]
    rcases hlater with hl | hl <;> simp [hl]
  rw [State.sweepBad, State.sweepUpTo, hnext]

theorem State.done_sweeps {st : MStatus} (hd : s.done h st) (hs : s.Sweeps t) : t.done h st := by
  obtain ⟨hstate, hstatus, hqueue, hactive⟩ := hd
  have hnone : s.badStatus h = none := State.badStatus_of_state_ne (by rw [hstate]; decide)
  refine ⟨by rw [hs.hasp h hnone, hstate], ?_, fun hmem => hqueue (hs.queue h hmem), by rwa [Ne, hs.active h hnone]⟩
  rw [State.respStatus, (hs.storage h hnone).data (by rw [haspAt]; omega)]
  exact hstatus

theorem State.done_answerHasp (s : State) (h d : Nat) (st : MStatus) : (s.answerHasp h st.code d []).done h st := by
  obtain ⟨-, -, hstate, -, hstatus, -, -, hqueue, hactive⟩ := s.answers_answerHasp h d st.code_lt (bs := []) (by decide)
  refine ⟨hstate, hstatus, by simp [hqueue], ?_⟩
  rw [hactive]
  split
  · exact nofun
  · assumption

/-- Of the requests that wait, the copied one alone fails, and nothing is before it: it is answered (log 22). -/
theorem State.done_sweepBad_rung {op : Nat} (hop : (s.copied h).opcode = op) (hbad : op = 0 ∨ 0x15 < op) (hn : s.noneBad)
    (hs : s.serving = true) (hr : s.runs 2 = true) (hd : s.dbg.halted = false) (ha : s.mbox.active = none) (hq : s.mbox.queue = []) :
    (s.rung h).sweepBad.done h .badOpcode := by
  obtain ⟨q, heq, -, hserial⟩ := s.rung_frame h
  obtain ⟨-, -, hone⟩ := hserial (hop ▸ isQuery_eq_false hbad)
  have hquery : (List.range 16).find? (fun j => isQuery ((s.rung h).hasp j).opcode && ((s.rung h).badStatus j).isSome) = none := by
    refine List.find?_eq_none.2 fun j _ => ?_
    by_cases hj : j = h
    · subst hj
      rw [State.hasp_rung, if_pos rfl, hop, isQuery_eq_false hbad]
      simp
    · rw [State.badStatus_rung_ne hj, hn]
      simp
  have hself := State.badStatus_rung_self (s := s) hop
  rw [if_pos hbad] at hself
  have hnext : (s.rung h).nextBad = some (h, .badOpcode) := by
    rw [State.nextBad, hquery]
    have e1 : (s.rung h).dbg.halted = false := by rw [heq]; exact hd
    have e2 : (s.rung h).serving = true := by rw [heq]; exact hs
    have e3 : (s.rung h).runs 2 = true := by rw [heq]; exact hr
    have e4 : (s.rung h).mbox.active = none := by rw [heq]; exact ha
    have e5 : (s.rung h).mbox.queue = [h] := by rw [heq]; exact hone hq
    simp [e1, e2, e3, e4, e5, hself]
  rw [State.sweepBad, State.sweepUpTo, hnext]
  exact State.done_sweeps (State.done_answerHasp _ h 0 .badOpcode) (State.sweeps_sweepUpTo 15 _)

/-- What a doorbell leaves of the state, but for requests that are answered with it. -/
theorem State.sameMemory_rung (s : State) (h : Nat) : SameMemory s (s.rung h) := by
  obtain ⟨q, heq, -⟩ := s.rung_frame h
  rw [heq]
  exact sameMemory_of_stores rfl rfl rfl rfl

/-! ### Requests that are refused -/

/-- The reserved bits of a payload end in the request area (R505). -/
theorem Hasp.reserved_le (x : Hasp) : ∀ e ∈ x.reserved, e.1 + e.2.1 ≤ 4112 := by
  have hlt : x.pay 2 1 < 256 := lt_of_lt_of_eq (leNat_lt _) (by simp [Hasp.payload, bytesOf_length])
  unfold Hasp.reserved
  split <;> simp
  intro a ha
  omega

theorem Hasp.reservedAt_lt {x : Hasp} {o : Nat} (h : x.reservedAt = some o) : o < 2 ^ 64 := by
  simp only [Hasp.reservedAt, List.findSome?_eq_some_iff] at h
  obtain ⟨l, e, l', hl, he, -⟩ := h
  obtain ⟨a, i, b, hi, ho, -⟩ := he
  have hin : i < e.2.1 := List.mem_range.1 (hi ▸ by simp)
  have ho : e.1 + i = o := by
    split at ho
    · exact absurd ho nofun
    · exact Option.some.inj ho
  have hmem : e ∈ [(2, 1, 0xFE), (3, 1, 0xFF), (16, 48, 0xFF)] ++ x.reserved.map (fun e => (e.1 + 0x40, e.2.1, e.2.2)) := hl ▸ by simp
  have hle : e.1 + e.2.1 ≤ 4176 := by
    rcases List.mem_append.1 hmem with hm | hm
    · simp only [List.mem_cons, List.not_mem_nil, or_false] at hm
      rcases hm with rfl | rfl | rfl <;> simp
    · obtain ⟨f, hf, rfl⟩ := List.mem_map.1 hm
      have := x.reserved_le f hf
      simp only
      omega
  omega

theorem State.preChecks_spec {st : MStatus} {d : Nat} (hpre : s.preChecks h = some (st, d)) : st ≠ .okay ∧ d < 2 ^ 64 := by
  simp only [State.preChecks] at hpre
  split at hpre
  · obtain ⟨rfl, rfl⟩ := Prod.mk.inj (Option.some.inj hpre)
    exact ⟨nofun, by decide⟩
  · split at hpre
    · next o ho =>
      obtain ⟨rfl, rfl⟩ := Prod.mk.inj (Option.some.inj hpre)
      exact ⟨nofun, Hasp.reservedAt_lt ho⟩
    · split at hpre
      · obtain ⟨rfl, rfl⟩ := Prod.mk.inj (Option.some.inj hpre)
        exact ⟨nofun, by decide⟩
      · exact absurd hpre nofun

/-- The rows of the mailbox run their part as a command does, where no record write is in flight (R503). -/
theorem exec_mailboxRow {c : Instr} {op : Nat} (hh : h < 16)
    (hc : (c, op) ∈ mailboxRows h ∨ op = 0x14 ∧ ∃ n x y envs, c = .fwActivate h n x y envs) (hb : s.recordBusy = false) :
    ∃ body, exec c s = .next (s.runCommand h op body) := by
  have hw : s.ctl.writing.isSome = false := by
    rw [State.recordBusy, Bool.or_eq_false_iff] at hb
    exact hb.1
  have hguard {t : State} (body : State → State) (ht : t = s.runCommand h op body) :
      ∃ body, guard (decide (h < 16)) t = .next (s.runCommand h op body) := by
    refine ⟨body, ?_⟩
    rw [ht]
    exact guard_eq_next.2 ⟨decide_eq_true hh, rfl⟩
  rcases hc with hc | ⟨rfl, n, x, y, envs, rfl⟩
  · simp only [mailboxRows, List.mem_cons, Prod.mk.injEq, List.not_mem_nil, or_false] at hc
    rcases hc with ⟨rfl, rfl⟩ | ⟨rfl, rfl⟩ | ⟨rfl, rfl⟩ | ⟨rfl, rfl⟩ | ⟨rfl, rfl⟩ | ⟨rfl, rfl⟩ | ⟨rfl, rfl⟩ | ⟨rfl, rfl⟩ | ⟨rfl, rfl⟩ |
      ⟨rfl, rfl⟩ | ⟨rfl, rfl⟩ | ⟨rfl, rfl⟩ | ⟨rfl, rfl⟩ | ⟨rfl, rfl⟩ | ⟨rfl, rfl⟩ | ⟨rfl, rfl⟩ | ⟨rfl, rfl⟩ | ⟨rfl, rfl⟩ | ⟨rfl, rfl⟩
    case inr.inr.inr.inr.inl => exact hguard _ (if_neg (by rw [hw]; decide))
    case inr.inr.inr.inr.inr.inr.inr.inr.inr.inl => exact hguard _ (if_neg (by rw [hb]; decide))
    all_goals exact hguard _ rfl
  · exact hguard _ rfl

end

end Sys2Proof.Machine

open Sys2Proof Sys2Proof.Machine

/-- Settles O44: a doorbell copies what reads clean, and the request is answered only in its turn; a refused one is answered alone. -/
theorem mailboxRequestsAreChecked : Obligations.MailboxRequestsAreChecked := by
  have refused {s t : State} {h d : Nat} {st : MStatus} {e : Nat} (hc : s.Answered t h st (if st = .badField ∧ e ≠ 3 then d else 0) []) :
      t.done h st ∧ t.respLen h = 0 ∧ t.respDetail h = (if st = .badField ∧ e ≠ 3 then d else 0) ∧ SameMemoryButHasp h s t :=
    ⟨hc.done, hc.holds.len, hc.holds.detail, hc.sameMemoryButHasp⟩
  refine ⟨fun s h at_ hh hs hr => ?_, fun s h at_ hh hs hr => ?_, fun s h op c hh hc hb => ?_, fun s h at_ hh => ?_⟩
  · refine guard_eq_next.2 ⟨decide_eq_true hh, ?_⟩
    rw [if_neg (by rw [hs]; decide), if_neg (by rw [hr]; decide)]
    rfl
  · have hexec : exec (.haspDoorbell h at_) s = .next ((s.touch at_).doorbell h) := by
      refine guard_eq_next.2 ⟨decide_eq_true hh, ?_⟩
      rw [if_neg (by rw [hs]; decide), if_pos hr]
    refine ⟨fun hbusy => ?_, fun hp hru hsyn => ?_⟩
    · rw [hexec, State.doorbell]
      exact congrArg Host.Outcome.next (if_pos hbusy)
    · have hbell := State.doorbell_clean (s := s.touch at_) hp hru hsyn
      have hop : ((s.touch at_).copied h).opcode = leNat (s.hasps.bytes (haspAt h 0) 2) := State.opcode_copied _ h
      obtain ⟨q, heq, hquery, hserial⟩ := (s.touch at_).rung_frame h
      rw [hop] at hquery hserial
      rw [hexec, hbell]
      refine ⟨fun h0 hmax => ?_, fun h0 hmax hn => ?_, fun hbad hn => ⟨fun hd ha hq => ?_, fun hlater => ?_⟩⟩
      · have hself := State.badStatus_rung_self (s := s.touch at_) hop
        rw [if_neg (by omega)] at hself
        have hsame := (State.sweeps_sweepBad _).hasp h hself
        rw [State.hasp_rung, if_pos rfl] at hsame
        exact ⟨_, rfl, by rw [hsame]; rfl, by rw [hsame]; exact hop, by rw [hsame]; rfl⟩
      · have hn' : (s.touch at_).noneBad := fun j => hn j
        have hself := (s.touch at_).hasp_rung h h
        rw [if_pos rfl] at hself
        rw [State.sweepBad_of_noneBad (State.noneBad_rung hop h0 hmax hn')]
        refine ⟨_, rfl, by rw [hself]; rfl, by rw [hself]; rfl, by rw [hself]; exact hop, by rw [hself]; rfl, fun lo n hl => ?_, fun hq => ?_,
          fun hq => ?_, fun j hj => ?_, ?_, ?_⟩
        · rw [hself]
          exact State.payload_copied _ h hl
        · rw [heq]
          exact hquery hq
        · rw [heq]
          exact ⟨(hserial hq).1, (hserial hq).2.1⟩
        · rw [State.hasp_rung, if_neg hj]
          rfl
        · exact (s.touch at_).sameMemory_rung h
        · rw [heq]
          rfl
      · exact ⟨_, rfl, State.done_sweepBad_rung hop hbad (fun j => hn j) hs hr hd ha hq⟩
      · rw [State.sweepBad_rung_later hop hbad (fun j => hn j) hlater]
        refine ⟨_, rfl, ?_, ?_, (s.touch at_).sameMemory_rung h⟩
        · rw [State.hasp_rung, if_pos rfl]
          rfl
        · rw [heq]
          exact (hserial (isQuery_eq_false hbad)).1
  · obtain ⟨body, hexec⟩ := exec_mailboxRow hh hc hb
    rw [hexec]
    refine ⟨fun h0 => congrArg Host.Outcome.next (State.runCommand_notReady h0 body), fun st d hready hpre => ?_⟩
    obtain ⟨hst, hd⟩ := State.preChecks_spec hpre
    have hc := State.answered_runCommand_refused (body := body) hready hpre hst hd
    obtain ⟨hdone, hlen, hdet, hmem⟩ := refused hc
    exact ⟨_, rfl, hdone, hlen, hdet, hmem, hc.causes.eq⟩
  · have hexec (body : State → State) (hbody : body = fun s => s.pullStart h) :
        exec (.pullReplica h at_) s = .next ((s.touch at_).runCommand h 0x0D body) := by
      subst hbody
      exact guard_eq_next.2 ⟨decide_eq_true hh, rfl⟩
    rw [hexec _ rfl]
    refine ⟨fun h0 => congrArg Host.Outcome.next (State.runCommand_notReady h0 _), fun st d hready hpre => ?_⟩
    obtain ⟨hst, hd⟩ := State.preChecks_spec hpre
    have hc := State.answered_runCommand_refused (body := fun s => s.pullStart h) hready hpre hst hd
    obtain ⟨hdone, hlen, hdet, hmem⟩ := refused hc
    exact ⟨_, rfl, hdone, hlen, hdet, hmem, hc.causes.eq⟩

end

section

/-!
PROOF. O45: queries and SET_BUDGET answer from the state and change only their hasp (R499, R508, R510, R511).
-/

namespace Sys2Proof.Machine

section
variable {s t : State} {h : Nat}

/-! ### What a query shows -/

/-- What queries see does not depend on the mailbox's hasps and queue. -/
theorem State.asSeen_begin (s : State) (h : Nat) : (s.begin_ h).asSeen = { s.asSeen with mbox := (s.begin_ h).mbox } := by
  have hfold (m : Mailbox) (l : List (Bool × StepSet)) (u : State) : l.foldl (fun s e => s.setSet e.1 e.2) { u with mbox := m } =
      { l.foldl (fun s e => s.setSet e.1 e.2) u with mbox := m } := by
    induction l generalizing u with
    | nil => rfl
    | cons e l ih =>
      have hset : ({ u with mbox := m } : State).setSet e.1 e.2 = { u.setSet e.1 e.2 with mbox := m } := by
        cases e.1 <;> rfl
      rw [List.foldl_cons, List.foldl_cons, hset, ih]
  exact hfold (s.begin_ h).mbox s.mbox.sets s

theorem State.infoBytes_congr {u v : State} {m : Mailbox} (hb : m.before = u.mbox.before) (hs : v.asSeen = { u.asSeen with mbox := m })
    (hv : v = { u with mbox := m }) : v.infoBytes = u.infoBytes := by
  have hheld (n : Nat) : v.asSeen.heldBytes n = u.asSeen.heldBytes n := by rw [hs]; rfl
  unfold State.infoBytes
  rw [hheld, hheld]
  subst hv
  dsimp only
  rw [hb]
  rfl

theorem State.infoBytes_begin (s : State) (h : Nat) : (s.begin_ h).infoBytes = s.infoBytes :=
  State.infoBytes_congr (m := (s.begin_ h).mbox) rfl (s.asSeen_begin h) rfl

theorem State.report_begin (s : State) (h : Nat) : (s.begin_ h).asSeen.reportSet = s.asSeen.reportSet ∧
    (s.begin_ h).asSeen.reportPage0 = s.asSeen.reportPage0 ∧ (s.begin_ h).asSeen.reportGroup = s.asSeen.reportGroup := by
  rw [State.asSeen_begin]
  exact ⟨rfl, rfl, rfl⟩

/-! ### Lengths of responses -/

theorem length_flatten_const {k : Nat} {L : List (List Byte)} (hk : ∀ l ∈ L, l.length = k) : L.flatten.length = k * L.length := by
  induction L with
  | nil => rfl
  | cons l L ih =>
    rw [List.flatten_cons, List.length_append, hk l List.mem_cons_self, ih fun l' hl => hk l' (List.mem_cons_of_mem l hl), List.length_cons]
    ring

theorem State.length_heldBytes (s : State) (n : Nat) : (s.heldBytes n).length = 10 := by
  unfold State.heldBytes
  split <;> simp [leBytes_length]

theorem State.length_infoBytes (s : State) : s.infoBytes.length = 256 := by
  have hcoef (f : Nat → BitVec 16) : ((List.range 4).map (fun i => leBytes 2 (f i).toNat)).flatten.length = 8 :=
    length_flatten_const (k := 2) (by simp only [List.forall_mem_map, leBytes_length, implies_true])
  unfold State.infoBytes
  dsimp only
  simp only [List.length_append, leBytes_length, State.length_heldBytes, List.length_replicate, List.length_cons, List.length_nil]
  split
  · simp only [List.length_replicate]
  · simp only [List.length_append, hcoef]

theorem State.length_reportPage0 (s : State) (b : Bool) : (s.reportPage0 b).length = 1216 := by
  unfold State.reportPage0
  dsimp only
  simp only [List.length_append, leBytes_length, List.length_replicate, List.length_cons, List.length_nil, List.length_map, List.length_range]

theorem State.length_reportGroup (s : State) (b : Bool) (g : Nat) : (s.reportGroup b g).length = 64 := by
  unfold State.reportGroup
  dsimp only
  split <;> simp only [List.length_append, leBytes_length, List.length_replicate, List.length_cons, List.length_nil]

theorem PlRecord.length_bytes (r : PlRecord) : r.bytes.length = 48 := by
  have hsensed : ((List.range 4).map (fun i => leBytes 4 (r.sensed.getD i 0))).flatten.length = 16 :=
    length_flatten_const (k := 4) (by simp only [List.forall_mem_map, leBytes_length, implies_true])
  simp only [PlRecord.bytes, List.length_append, leBytes_length, List.length_cons, List.length_nil, hsensed]

theorem Plumb.length_page_bytes (p : Plumb) (n : Nat) :
    ((p.page n).map PlRecord.bytes).flatten.length = 48 * (if n = 2 then 16 else 32) := by
  rw [length_flatten_const (k := 48) (by simp only [List.forall_mem_map, PlRecord.length_bytes, implies_true])]
  simp only [List.length_map, Plumb.page, List.length_range]

/-- The 16 group parts of a report page, each in its place. -/
theorem Store.bytes_of_flatten {m : Store} {a k n : Nat} {f : Nat → List Byte} (hlen : ∀ i, (f i).length = k)
    (hb : m.bytes a ((List.range n).map f).flatten.length = ((List.range n).map f).flatten) {i : Nat} (hi : i < n) : m.bytes (a + k * i) k = f i := by
  rw [length_flatten_const (k := k) (by simp only [List.forall_mem_map, hlen, implies_true]), List.length_map, List.length_range,
    ← Store.flatten_bytes] at hb
  have hlists : (List.range n).map (fun i => m.bytes (a + k * i) k) = (List.range n).map f := by
    refine List.eq_iff_flatten_eq.2 ⟨hb, ?_⟩
    rw [List.map_map, List.map_map]
    exact List.map_congr_left fun j _ => (m.length_bytes _ _).trans (hlen j).symm
  exact List.map_inj_left.1 hlists i (List.mem_range.2 hi)

/-! ### Queries -/

theorem State.recordWaits_of_query {u : State} (h0 : isQuery (u.hasp h).opcode = true) (st : MStatus) :
    ¬(st = .okay ∧ u.recordWaits h = true) := by
  rintro ⟨-, hw⟩
  simp [State.recordWaits, h0] at hw

theorem State.opcode_begin {op : Nat} (hturn : s.turn h op) : ((s.begin_ h).hasp h).opcode = op := by
  rw [State.hasp_begin_self]
  exact s.opcode_of_turn hturn

/-- A query whose own part gives a response of whole words is answered with it. -/
theorem State.answered_query {op : Nat} {st : MStatus} {d : Nat} {bs : List Byte} {body : State → State} (hturn : s.turn h op)
    (hq : isQuery op = true) (hbody : body (s.begin_ h) = (s.begin_ h).finish h st d bs) (hd : d < 2 ^ 64) (hlen : bs.length % 16 = 0)
    (hmax : bs.length ≤ 1984) :
    s.Answered (s.runCommand h op body) h st (if st = .badField ∧ s.ctl.compat ≠ 3 then d else 0) bs := by
  have hop := State.opcode_begin hturn
  have hfin := (s.begin_ h).answered_finish h st hd hlen hmax (State.recordWaits_of_query (by rw [hop]; exact hq) st)
  have hlev : ((s.begin_ h).hasp h).level = s.ctl.compat := by rw [State.hasp_begin_self]
  rw [hlev, ← hbody] at hfin
  exact (State.answered_runCommand hturn hmax hfin.of_begin)

end

end Sys2Proof.Machine

open Sys2Proof Sys2Proof.Machine

/-- Settles O45: each query is its response alone, of whole words, whose bytes are those that the state gives. -/
theorem queriesAndBudgetsAnswer : Obligations.QueriesAndBudgetsAnswer := by
  refine ⟨fun s h => ⟨fun hturn => ?_, fun hturn => ⟨fun hp => ?_, fun hp hn => ?_, fun b hb hp => ?_, fun b p hb hp hlt => ?_⟩,
    fun hturn => ⟨fun hp => ?_, fun hp => ?_⟩, fun hturn hl => ?_⟩, fun s r hs => ⟨fun hdue => ?_, fun hdue => ?_⟩⟩
  · have hc := State.answered_query (body := fun s => s.finish h .okay 0 s.infoBytes) (bs := s.infoBytes) hturn rfl
      (by rw [State.infoBytes_begin]) (by decide) (by rw [State.length_infoBytes]) (by rw [State.length_infoBytes]; decide)
    exact ⟨_, guard_eq_next.2 ⟨decide_eq_true hturn.1, rfl⟩, hc.done, hc.holds.len.trans s.length_infoBytes, hc.holds.bytes,
      hc.sameMemoryButHasp, hc.causes.eq⟩
  · obtain ⟨hset, hpage, hgroup⟩ := s.report_begin h
    have hc := State.answered_query (st := .badField) (bs := []) (d := fieldAt 8) (body := fun s => s.getStepReport h) hturn rfl
      (by rw [State.getStepReport, State.pay_begin]; exact if_pos hp) (by decide) rfl (by decide)
    exact ⟨_, guard_eq_next.2 ⟨decide_eq_true hturn.1, rfl⟩, hc.done, hc.sameMemoryButHasp, hc.causes.eq⟩
  · obtain ⟨hset, hpage, hgroup⟩ := s.report_begin h
    have hc := State.answered_query (st := .badStep) (bs := []) (d := 0) (body := fun s => s.getStepReport h) hturn rfl
      (by rw [State.getStepReport, State.pay_begin, State.pay_begin, hset]; rw [if_neg (by omega), hn]) (by decide) rfl (by decide)
    exact ⟨_, guard_eq_next.2 ⟨decide_eq_true hturn.1, rfl⟩, hc.done, hc.sameMemoryButHasp, hc.causes.eq⟩
  · obtain ⟨hset, hpage, hgroup⟩ := s.report_begin h
    have hc := State.answered_query (st := .okay) (bs := s.asSeen.reportPage0 b) (d := 0) (body := fun s => s.getStepReport h) hturn rfl
      (by
        rw [State.getStepReport, State.pay_begin, State.pay_begin, hset, hpage]
        rw [if_neg (by omega), hb]
        exact if_pos hp) (by decide) (by rw [State.length_reportPage0]) (by rw [State.length_reportPage0]; decide)
    exact ⟨_, guard_eq_next.2 ⟨decide_eq_true hturn.1, rfl⟩, hc.done, hc.holds.bytes, hc.sameMemoryButHasp, hc.causes.eq⟩
  · obtain ⟨hset, hpage, hgroup⟩ := s.report_begin h
    have hlen : (((List.range 16).map (fun i => s.asSeen.reportGroup b (16 * p + i))).flatten).length = 1024 :=
      (length_flatten_const (k := 64) (by simp only [List.forall_mem_map, State.length_reportGroup, implies_true])).trans
        (by rw [List.length_map, List.length_range])
    have hc := State.answered_query (st := .okay) (bs := ((List.range 16).map (fun i => s.asSeen.reportGroup b (16 * p + i))).flatten) (d := 0)
      (body := fun s => s.getStepReport h) hturn rfl
      (by
        rw [State.getStepReport, State.pay_begin, State.pay_begin, hset, hgroup]
        rw [if_neg (by omega), hb, hp]
        exact if_neg (Nat.succ_ne_zero p)) (by decide) (by rw [hlen]) (by rw [hlen]; decide)
    refine ⟨_, guard_eq_next.2 ⟨decide_eq_true hturn.1, rfl⟩, hc.done, hc.holds.len.trans hlen, fun i hi => ?_, hc.sameMemoryButHasp, hc.causes.eq⟩
    have ha : haspAt h (0x840 + 64 * i) = haspAt h 0x840 + 64 * i := by rw [haspAt, haspAt]; omega
    rw [ha]
    exact Store.bytes_of_flatten (fun i => State.length_reportGroup _ _ _) hc.holds.bytes hi
  · have hlen := s.plumb.length_page_bytes ((s.hasp h).pay 0 1)
    have hmod : (48 * (if (s.hasp h).pay 0 1 = 2 then 16 else 32)) % 16 = 0 := by split <;> rfl
    have hmax : 48 * (if (s.hasp h).pay 0 1 = 2 then 16 else 32) ≤ 1984 := by split <;> decide
    have hc := State.answered_query (st := .okay) (bs := ((s.plumb.page ((s.hasp h).pay 0 1)).map PlRecord.bytes).flatten) (d := 0)
      (body := fun s => s.getPlumb h) hturn rfl
      (by
        rw [State.getPlumb, State.pay_begin]
        exact if_neg (by omega)) (by decide) (by rw [hlen, hmod]) (by rw [hlen]; exact hmax)
    exact ⟨_, guard_eq_next.2 ⟨decide_eq_true hturn.1, rfl⟩, hc.done, hc.holds.bytes, hc.sameMemoryButHasp, hc.causes.eq⟩
  · have hc := State.answered_query (st := .badField) (bs := []) (d := fieldAt 0) (body := fun s => s.getPlumb h) hturn rfl
      (by rw [State.getPlumb, State.pay_begin]; exact if_pos hp) (by decide) rfl (by decide)
    exact ⟨_, guard_eq_next.2 ⟨decide_eq_true hturn.1, rfl⟩, hc.done, hc.sameMemoryButHasp, hc.causes.eq⟩
  · set u : State := s.mapPlumb (fun p => { p with
      watts := clampWatts (BitVec.ofNat 8 ((s.hasp h).pay 0 1)),
      caps := (List.range 15).map (fun i => clampCap (BitVec.ofNat 8 ((s.hasp h).pay (i + 1) 1))) }) with hu
    have hbody : (let x := (s.begin_ h).hasp h
        ((s.begin_ h).mapPlumb (fun p => { p with
          watts := clampWatts (BitVec.ofNat 8 (x.pay 0 1)),
          caps := (List.range 15).map (fun i => clampCap (BitVec.ofNat 8 (x.pay (i + 1) 1))) })).finish h .okay 0 []) =
        (u.begin_ h).finish h .okay 0 [] := by
      dsimp only
      simp only [State.pay_begin]
      rfl
    have hc : u.Completes (s.runCommand h 0x0E (fun s =>
        let x := s.hasp h
        (s.mapPlumb (fun p => { p with
          watts := clampWatts (BitVec.ofNat 8 (x.pay 0 1)),
          caps := (List.range 15).map (fun i => clampCap (BitVec.ofNat 8 (x.pay (i + 1) 1))) })).finish h .okay 0 [])) h .okay [] := by
      refine State.completes_runCommand hturn (by decide) ?_
      rw [hbody]
      exact (State.completes_finish (u.begin_ h) h 0 (by decide) fun _ => hl).of_begin
    obtain ⟨x, hx⟩ := hc.causes rfl
    refine ⟨_, guard_eq_next.2 ⟨decide_eq_true hturn.1, rfl⟩, hc.done, ?_, fun i hi => ?_, ?_, hc.sameMemoryButHasp, ?_⟩
    · rw [hx, hu]
      rfl
    · rw [hx, hu]
      simp only [State.mapPlumb, List.getElem?_map, List.getElem?_range hi, Option.map_some]
    · rw [hx, hu]
      rfl
    · rw [hx, hu]
      rfl
  · refine congrArg Host.Outcome.next ((if_pos hs).trans ?_)
    simp only [State.writeWindow, hdue]
    rfl
  · refine congrArg Host.Outcome.next ((if_pos hs).trans ?_)
    simp only [State.writeWindow, hdue]
    rfl

end

section

/-!
PROOF. What a unit leaves in its row latch goes out before emergency self-refresh is entered (R20, R447), and with it every port goes on
(R49): a host request that has become free is performed then, also a write of PL_THERM, whose COOL_TICKS is the one in force when the
time of the entry is set.
-/

namespace Sys2Proof.Machine

/-- A write of zeros to PL_THERM, which waits behind nothing any more. -/
def coolTicksWrite : PintleReq :=
  { port := 0, op := 1, ctl := true, addr := 0x2000, tag := 0, data := 0, chk := 0, ben := 0xF <<< 0x20, at_ := 0, chans := [], seq := 0 }

/-- Crety serves, a unit has left its results in the row latch of bank 0, and port 0 still holds that write. -/
def writeBehindTake : State :=
  { State.reset with
    start := { State.reset.start with mode := .serving },
    banks := [(0, { Bank.init with queue := [.take 0 [] 0] })],
    ports := [(0, { PintlePort.init with behind := [coolTicksWrite] })] }

/-- What lies in Plumb and in the clocks is the same in both. -/
def State.SamePlumb (s t : State) : Prop := t.plumb = s.plumb ∧ t.clk = s.clk

theorem State.samePlumb_foldl {α : Type} {f : State → α → State} (hf : ∀ u a, State.SamePlumb u (f u a)) (l : List α) (s : State) :
    s.SamePlumb (l.foldl f s) := by
  induction l generalizing s with
  | nil => exact ⟨rfl, rfl⟩
  | cons a l ih => exact ⟨(ih _).1.trans (hf s a).1, (ih _).2.trans (hf s a).2⟩

theorem State.SamePlumb.trans {s t u : State} (h : s.SamePlumb t) (h' : t.SamePlumb u) : s.SamePlumb u := ⟨h'.1.trans h.1, h'.2.trans h.2⟩

theorem State.samePlumb_sent (s : State) (c op bank arg : Nat) : s.SamePlumb (s.sent c op bank arg) := ⟨rfl, rfl⟩

theorem State.samePlumb_payRefresh (s : State) (k : Nat) : s.SamePlumb (s.payRefresh k) := by
  have hset (x : Bank) : s.SamePlumb (s.setBank k x) := ⟨rfl, rfl⟩
  unfold State.payRefresh
  dsimp only
  split
  · exact ⟨rfl, rfl⟩
  · exact (hset _).trans (State.samePlumb_foldl (f := fun s _ => s.sent (k / 16) 5 k 0) (fun u _ => u.samePlumb_sent _ _ _ _) _ _)

theorem State.samePlumb_srefChan (s : State) (c : Nat) : s.SamePlumb (s.srefChan c) := by
  have hset (u : State) (x : Channel) : u.SamePlumb (u.setChan c x) := ⟨rfl, rfl⟩
  unfold State.srefChan
  split
  · exact ⟨rfl, rfl⟩
  · have hpay := State.samePlumb_foldl (f := fun s b => s.payRefresh (16 * c + b)) (fun u b => u.samePlumb_payRefresh _) (List.range 16) s
    generalize (List.range 16).foldl (fun s b => s.payRefresh (16 * c + b)) s = u at hpay
    exact (hpay.trans (hset u _)).trans (State.samePlumb_sent _ _ _ _ _)

theorem State.samePlumb_enterSref (s : State) : s.SamePlumb s.enterSref := State.samePlumb_foldl State.samePlumb_srefChan _ s

theorem State.samePlumb_emptyContexts (s : State) : s.SamePlumb s.emptyContexts :=
  State.samePlumb_foldl (fun u k => by split <;> exact ⟨rfl, rfl⟩) _ s

/-- The state as the channels enter self-refresh. -/
def State.esrSaved (s : State) : State :=
  let s := s.endCourses
  let s := s.waitingBanks.foldl (fun s k => s.serveTakes k) s
  ((s.lintelForce.endWrites writeFuel).saveRings).saveContexts

/-- The time of the entry is set from what stands in Plumb as the channels enter self-refresh. -/
theorem State.esrUntil_enterEsr (s : State) (c : Nat) :
    (s.enterEsr c).plumb.esrUntil = s.esrSaved.clk.tick + s.esrSaved.plumb.coolTicks.setWidth 64 := by
  have hs := s.esrSaved.samePlumb_enterSref
  have he := s.esrSaved.enterSref.samePlumb_emptyContexts
  have hcross (u : State) : (u.crossIrq c .thermEsr).plumb = u.plumb := by
    have hc : (u.cross c id).plumb = u.plumb := by
      unfold State.cross
      dsimp only
      split
      · rfl
      · split
        · rfl
        · unfold State.overrun
          dsimp only
          split <;> rfl
    exact hc
  have heq : s.enterEsr c = ((s.esrSaved.enterSref.emptyContexts).mapPlumb (fun p =>
      { p with esr := true, esrUntil := s.esrSaved.enterSref.emptyContexts.clk.tick + p.coolTicks.setWidth 64, esrCnt := satAdd p.esrCnt 1,
               tickFlags := p.tickFlags ||| 16 })).crossIrq c .thermEsr := by
    rw [State.enterEsr, State.esrSaved]
  rw [heq, hcross, ← hs.1, ← hs.2, ← he.1, ← he.2]
  generalize s.esrSaved.enterSref.emptyContexts = u
  rfl

theorem writeBehindTake_trips : writeBehindTake.serving = true ∧ writeBehindTake.runs 1 = true ∧ writeBehindTake.runs 2 = true ∧
    writeBehindTake.start.mode ≠ .reset ∧ writeBehindTake.plumb.esr = false := by decide +kernel

/-- The same once die 15 has tripped. -/
def writeBehindTakeTripped : State :=
  (writeBehindTake.cross 255 (fun s => s.setChan 255 { s.chan 255 with err := (s.chan 255).err ||| 2 })).dieTrips (255 / 16)

theorem coolTicks_writeBehindTakeTripped : writeBehindTakeTripped.serving = true ∧ writeBehindTakeTripped.plumb.esr = false ∧
    writeBehindTakeTripped.esrSaved.clk.tick + writeBehindTakeTripped.esrSaved.plumb.coolTicks.setWidth 64 ≠
      writeBehindTake.clk.tick + writeBehindTake.plumb.coolTicks.setWidth 64 := by decide +kernel

theorem esrUntil_writeBehindTake : (writeBehindTake.thermTrip 255).plumb.esrUntil ≠
    writeBehindTake.clk.tick + writeBehindTake.plumb.coolTicks.setWidth 64 := by
  obtain ⟨hserves, hesr, hne⟩ := coolTicks_writeBehindTakeTripped
  have hx : writeBehindTake.thermTrip 255 = writeBehindTakeTripped.enterEsr 255 := by
    rw [State.thermTrip, ← writeBehindTakeTripped]
    exact if_pos (Bool.and_eq_true_iff.2 ⟨hserves, congrArg not hesr⟩)
  rw [hx, State.esrUntil_enterEsr]
  exact hne

end Sys2Proof.Machine

open Sys2Proof Sys2Proof.Machine

/-- Refutes O33: the entry into emergency self-refresh takes COOL_TICKS after the host's write has changed it. -/
theorem not_selfRefreshHoldsUntilCool : ¬ Obligations.SelfRefreshHoldsUntilCool := by
  rintro ⟨-, h, -⟩
  obtain ⟨hserves, hruns1, hruns2, hmode, hesr⟩ := writeBehindTake_trips
  obtain ⟨t, ht, -, -, henters, -⟩ := h writeBehindTake 255 (by decide : 255 < 256) hmode hruns1 hruns2
  obtain ⟨-, -, -, huntil, -⟩ := henters hserves hesr
  have hx : exec (.thermTrip 255) writeBehindTake = .next (writeBehindTake.thermTrip 255) := by
    refine guard_eq_next.2 ⟨rfl, ?_⟩
    rw [if_neg hmode, if_pos hruns1]
  rw [← Host.Outcome.next.inj (hx.symm.trans ht)] at huntil
  exact esrUntil_writeBehindTake huntil

end

section

/-!
PROOF. O50: pulls and scrub passes run in the background (R185, R357, R500, R510).
-/

namespace Sys2Proof.Machine

section
variable {s t u : State} {h : Nat} {st : MStatus} {bs : List Byte}

/-! ### Payloads of any length -/

theorem getD_eq_of_bytes {m : Store} {a n : Nat} {bs : List Byte} (h : m.bytes a n = bs) {i : Nat} (hi : i < n) : m.byte (a + i) = bs.getD i 0 := by
  rw [← h, Store.getD_bytes m a hi]

/-- Bytes at the beginning of a word are stored from there on: no other hasp changes, and nothing before them. -/
theorem State.haspPut_spec (s : State) (h : Nat) {o : Nat} (bs : List Byte) (ho : o % 16 = 0) (hmax : o + bs.length ≤ 4096) :
    ∃ m r, s.haspPut h o bs = { s with hasps := m, regs := r } ∧ m.bytes (haspAt h o) bs.length = bs ∧
      (∀ j, j ≠ h → SameHasp j s.hasps m) ∧ (bs = [] → r = s.regs) := by
  set n := bs.length / 16 with hn
  have hb : 16 * (haspAt h o / 16) = haspAt h o := by rw [haspAt]; omega
  have hfull : 16 * n ≤ bs.length := by omega
  have hbyte := Store.byte_putRun s.hasps (haspAt h o / 16) bs hfull
  have hrun : ∀ i, i < 16 * n → (s.hasps.putRun (haspAt h o / 16) bs n).byte (haspAt h o + i) = bs.getD i 0 := by
    intro i hi
    rw [hbyte, if_pos (by omega), hb, Nat.add_sub_cancel_left]
  have hother : ∀ j, j ≠ h → SameHasp j s.hasps (s.hasps.putRun (haspAt h o / 16) bs n) := fun j hj =>
    SameHasp.putRun _ _ fun i hi => by rw [haspAt]; omega
  have hput (bs' : List Byte) : ∀ k, 16 * k ≤ bs'.length → (List.range k).foldl (fun u i =>
      let part := (bs'.drop (16 * i)).take 16
      u.mergePlace { src := 4, agent := agentWarden } (haspPlace (haspAt h (o + 16 * i))) (BitVec.ofNat 128 (leNat part)) false (2 ^ part.length - 1)) s =
      { s with hasps := s.hasps.putRun (haspAt h o / 16) bs' k } := by
    intro k hk
    have hl : ((bs'.take (16 * k))).length = 16 * k := by rw [List.length_take]; omega
    have hp := s.haspPut_words (h := h) (n := k) ho hl
    have hc : ceilDiv (bs'.take (16 * k)).length 16 = k := by rw [hl, ceilDiv]; omega
    have hpart : ∀ i, i < k → ((bs'.take (16 * k)).drop (16 * i)).take 16 = (bs'.drop (16 * i)).take 16 := by
      intro i hi
      rw [List.drop_take, List.take_take]
      exact congrArg (fun n => (bs'.drop (16 * i)).take n) (by omega)
    have hruns : s.hasps.putRun (haspAt h o / 16) (bs'.take (16 * k)) k = s.hasps.putRun (haspAt h o / 16) bs' k := by
      unfold Store.putRun
      refine List.foldl_ext _ _ _ fun m i hi => ?_
      rw [hpart i (List.mem_range.1 hi)]
    rw [hruns, State.haspPut, hc] at hp
    rw [← hp]
    refine List.foldl_ext _ _ _ fun u i hi => ?_
    rw [hpart i (List.mem_range.1 hi)]
  by_cases hmod : bs.length % 16 = 0
  · have hlen : bs.length = 16 * n := by omega
    refine ⟨_, s.regs, s.haspPut_words ho hlen, Store.bytes_of_byte fun i hi => hrun i (by omega), hother, fun _ => rfl⟩
  · have hc : ceilDiv bs.length 16 = n + 1 := by rw [ceilDiv]; omega
    have hlast : ((bs.drop (16 * n)).take 16) = bs.drop (16 * n) := List.take_of_length_le (by rw [List.length_drop]; omega)
    have hlen : (bs.drop (16 * n)).length = bs.length % 16 := by rw [List.length_drop]; omega
    obtain ⟨old, x, r, hpart⟩ := State.mergePlace_hasp_part { s with hasps := s.hasps.putRun (haspAt h o / 16) bs n }
      { src := 4, agent := agentWarden } (haspAt h (o + 16 * n)) (BitVec.ofNat 128 (leNat (bs.drop (16 * n)))) (n := (bs.drop (16 * n)).length)
      (by omega) (by omega)
    have hw : haspAt h (o + 16 * n) / 16 = haspAt h o / 16 + n := by rw [haspAt, haspAt]; omega
    have hall : s.haspPut h o bs = { s with
        hasps := (s.hasps.putRun (haspAt h o / 16) bs n).setWord (haspAt h o / 16 + n)
          (mergeBytes old (BitVec.ofNat 128 (leNat (bs.drop (16 * n)))) (2 ^ (bs.drop (16 * n)).length - 1)) x,
        regs := r } := by
      rw [State.haspPut, hc, List.range_succ, List.foldl_append, hput bs n hfull, List.foldl_cons, List.foldl_nil]
      dsimp only
      rw [hlast, hpart, hw]
    refine ⟨_, r, hall, Store.bytes_of_byte fun i hi => ?_, fun j hj => (hother j hj).trans (SameHasp.setWord _ _ _ ?_), ?_⟩
    · by_cases hin : i < 16 * n
      · rw [Store.byte_setWord_ne _ _ _ _ (by omega), hrun i hin]
      · have hbs := Store.bytes_setWord_mergeBytes (s.hasps.putRun (haspAt h o / 16) bs n) (haspAt h o / 16 + n) old x
          (bs := bs.drop (16 * n)) (by omega)
        have hi' := getD_eq_of_bytes hbs (i := i - 16 * n) (by omega)
        have ha : 16 * (haspAt h o / 16 + n) + (i - 16 * n) = haspAt h o + i := by omega
        rw [ha] at hi'
        rw [hi', List.getD_eq_getElem _ _ (by omega), List.getD_eq_getElem _ _ hi, List.getElem_drop]
        exact getElem_congr_idx (by omega)
    · rw [haspAt]; omega
    · rintro rfl
      exact absurd rfl hmod

theorem State.stores_haspPut_of_le (s : State) (h d : Nat) {code : Nat} (hcode : code < 2 ^ 16) (hlen : bs.length ≤ 1984) :
    s.Stores ((s.haspPut h 0x840 bs).haspPut h 0x800 (s.header h code d bs.length)) h code bs := by
  obtain ⟨m, r, hput, hbytes, hother, hregs⟩ := s.haspPut_spec h (o := 0x840) bs rfl (by omega)
  rw [hput]
  obtain ⟨n, hput', hdata, hpast, hother'⟩ := State.haspPut_header { s with hasps := m, regs := r } h (s.header_length h code d bs.length)
  rw [hput']
  refine ⟨rfl, hregs, ?_, ?_, fun j hj => (hother j hj).trans (hother' j hj)⟩
  · rw [State.respStatus, hdata]
    exact s.bits_header h d bs.length hcode
  · refine Eq.trans (List.map_congr_left fun i _ => ?_) hbytes
    exact hpast _ (Nat.le_add_right _ _)

theorem State.Completes.sweeps_of_le (hc : s.Completes t h st bs) (hlen : bs.length ≤ 1984) (hs : t.Sweeps u) : s.Completes u h st bs := by
  have hquiet : ∀ j, s.haspQuiet h j → t.badStatus j = none := fun j hj => (State.badStatus_congr (hc.hasp j hj)).trans hj.2
  have hnone : t.badStatus h = none := State.badStatus_of_state_ne (by rw [hc.done.1]; decide)
  refine ⟨hc.frame.trans hs.causes.sameButAnswers, fun h0 => (hc.causes h0).trans hs.causes, State.done_sweeps hc.done hs, ?_,
    fun j hj => (hs.hasp j (hquiet j hj)).trans (hc.hasp j hj), fun j hj => (hc.storage j hj).trans (hs.storage j (hquiet j hj))⟩
  rw [State.respBytes, (hs.storage h hnone).bytes (by rw [haspAt]; omega) (by rw [haspAt]; omega)]
  exact hc.bytes

/-- The end of a command with a payload of any length that the response area holds. -/
theorem State.completes_complete_of_le (s : State) (h d : Nat) (st : MStatus) (hlen : bs.length ≤ 1984) :
    s.Completes (s.complete h st.code d bs) h st bs := by
  obtain ⟨hframe, hregs, hstatus, hbytes, hstorage⟩ := s.stores_haspPut_of_le h d st.code_lt hlen
  refine State.Completes.sweeps_of_le ?_ hlen (State.sweeps_sweepBad _)
  rw [State.answerHasp_eq]
  generalize (s.haspPut h 0x840 bs).haspPut h 0x800 (s.header h st.code d bs.length) = u at *
  obtain ⟨y, hy⟩ := u.endAnswer_eq h
  rw [hy]
  obtain ⟨m, r, rfl⟩ : ∃ m r, u = { s with hasps := m, regs := r } := ⟨_, _, hframe⟩
  refine ⟨?_, ?_, ⟨?_, hstatus, ?_, ?_⟩, hbytes, fun j hj => ?_, fun j hj => hstorage j hj.1⟩
  · rw [State.SameButAnswers]
  · intro h0
    have hr : r = s.regs := hregs h0
    subst hr
    exact ⟨y, rfl⟩
  · simp only [State.hasp, Mailbox.answered, Sparse.get_set_self, Hasp.ended]
  · simp only [Mailbox.answered]
    simp
  · simp only [Mailbox.answered]
    split
    · exact nofun
    · assumption
  · simp only [State.hasp, Mailbox.answered, Sparse.get_set_ne _ _ _ hj.1]

/-- A background command ends at once (R499). -/
theorem State.recordWaits_of_background (h0 : isBackground (s.hasp h).opcode = true) (st : MStatus) : ¬(st = .okay ∧ s.recordWaits h = true) := by
  rintro ⟨-, hw⟩
  simp [State.recordWaits, h0] at hw

theorem State.completes_finish_background (s : State) (h d : Nat) (st : MStatus) (hlen : bs.length ≤ 1984)
    (hb : isBackground (s.hasp h).opcode = true) : s.Completes (s.finish h st d bs) h st bs := by
  simp only [State.finish, if_neg (State.recordWaits_of_background hb st)]
  exact s.completes_complete_of_le h _ st hlen

/-! ### PULL_REPLICA -/

/-- The pull that a request names. -/
def Hasp.pull (x : Hasp) (h : Nat) : Pull :=
  { hasp := h, node := BitVec.ofNat 14 (x.pay 0 2), off := x.pay 8 8, lines := x.pay 32 4, latch := x.pay 2 2,
    ver := BitVec.ofNat 64 (x.pay 16 8), k := x.pay 6 1, dst := x.pay 24 8, done := x.pay 4 2, phase := 0,
    next := 0, arrived := 0, bad := 0, firstBad := none, seen := 0, timedOut := false, ended := 0 }

/-- What a running request has copied does not depend on its control words. -/
theorem State.pay_eq_begin (s : State) (h : Nat) : ((s.begin_ h).hasp h).pay = (s.hasp h).pay := by
  funext lo n
  exact s.pay_begin h lo n

theorem State.pullBad_begin (s : State) (h at_ : Nat) : ((s.touch at_).begin_ h).pullBad (((s.touch at_).begin_ h).hasp h) = s.pullBad (s.hasp h) := by
  have hm : ((s.touch at_).begin_ h).member = s.member := rfl
  have hd : ((s.touch at_).begin_ h).dataRange = s.dataRange := rfl
  unfold State.pullBad
  rw [State.pay_eq_begin, hm, hd]
  rfl

/-- A request whose fields are in range becomes a pull, and the pulls go on. -/
theorem State.pullStart_of_good {u : State} (hgood : u.pullBad (u.hasp h) = none) :
    u.pullStart h = ({ u with mbox := { u.mbox with bg := u.mbox.bg ++ [.pull ((u.hasp h).pull h)] } } : State).pumpPulls pumpFuel := by
  unfold State.pullStart
  dsimp only
  rw [hgood]
  rfl

/-! ### Scrub passes -/

/-- A scrub pass. -/
def Background.isScrub : Background → Bool
  | .scrub _ _ _ _ _ _ _ _ _ _ _ => true
  | _ => false

/-- The state in which a START_SCRUB runs on. -/
def State.scrubbing (s : State) (h : Nat) : State :=
  { s with mbox := { s.mbox with bg := s.mbox.bg ++ [.scrub h ((s.hasp h).pay 0 2) ((s.hasp h).pay 2 2) ((s.hasp h).pay 4 2) 0 0 0 0 0
    (s.clk.tick.toNat + (s.hasp h).pay 4 2) (s.clk.tick.toNat + 500)] } }

theorem State.scrubStart_busy (hr : (s.hasp h).pay 0 2 + (s.hasp h).pay 2 2 ≤ slabLimit) (hi : (s.hasp h).pay 4 2 ≠ 0)
    (hb : s.mbox.bg.any Background.isScrub = true) : s.scrubStart h = s.finish h .engineBusy 0 [] := by
  unfold State.scrubStart
  exact (if_neg (Nat.not_lt.2 hr)).trans ((if_neg hi).trans (if_pos hb))

theorem State.scrubStart_runs (hr : (s.hasp h).pay 0 2 + (s.hasp h).pay 2 2 ≤ slabLimit) (hi : (s.hasp h).pay 4 2 ≠ 0)
    (hb : s.mbox.bg.any Background.isScrub = false) (hn : (s.hasp h).pay 2 2 ≠ 0) : s.scrubStart h = s.scrubbing h := by
  unfold State.scrubStart
  exact (if_neg (Nat.not_lt.2 hr)).trans ((if_neg hi).trans ((if_neg (by rw [← Bool.not_eq_true] at hb; exact hb)).trans (if_neg hn)))

theorem exec_pullReplica (hh : h < 16) (at_ : Nat) :
    exec (.pullReplica h at_) s = .next ((s.touch at_).runCommand h 0x0D (fun s => s.pullStart h)) :=
  guard_eq_next.2 ⟨decide_eq_true hh, rfl⟩

theorem exec_startScrub (hh : h < 16) : exec (.startScrub h) s = .next (s.runCommand h 0x10 (fun s => s.scrubStart h)) :=
  guard_eq_next.2 ⟨decide_eq_true hh, rfl⟩

/-- A refusal of a serial command that is no success, or of a background command, ends it (R497). -/
theorem State.answered_body {op : Nat} {d : Nat} {body : State → State} (hturn : s.turn h op)
    (hbody : body (s.begin_ h) = (s.begin_ h).finish h st d []) (hd : d < 2 ^ 64) (hst : st ≠ .okay) :
    s.Answered (s.runCommand h op body) h st (if st = .badField ∧ s.ctl.compat ≠ 3 then d else 0) [] := by
  have hfin := (s.begin_ h).answered_finish (bs := []) h st hd rfl (by decide) fun hok => hst hok.1
  have hlev : ((s.begin_ h).hasp h).level = s.ctl.compat := by rw [State.hasp_begin_self]
  rw [hlev, ← hbody] at hfin
  exact State.answered_runCommand hturn (by decide) hfin.of_begin

theorem State.bg_runCommand {op : Nat} {body : State → State} (hturn : s.turn h op) :
    (s.runCommand h op body).mbox.bg = (body (s.begin_ h)).mbox.bg := (State.runsOn_runCommand hturn body).keeps.bg

theorem State.pullBad_lt {x : Hasp} {o : Nat} (hb : s.pullBad x = some o) : fieldAt o < 2 ^ 64 := by
  have ho : o ≤ 32 := by
    simp only [State.pullBad] at hb
    repeat' split at hb
    all_goals simp_all
    all_goals omega
  rw [fieldAt]
  omega

theorem State.pullStart_of_bad {u : State} {o : Nat} (hb : u.pullBad (u.hasp h) = some o) :
    u.pullStart h = u.finish h .badField (fieldAt o) [] := by
  unfold State.pullStart
  dsimp only
  rw [hb]

/-- The visit of a line by a pass (R182, R183): as the patrol's. -/
theorem State.scrubVisit_spec (s : State) (k n : Nat) :
    State.Stored ((s.patrolPlaces k n).map (fun p => (p.space, p.word))) s ((s.patrolRow k n).patrolLine k n) ∧
      ∀ p ∈ s.patrolPlaces k n, State.Patrolled s ((s.patrolRow k n).patrolLine k n) p := by
  have hrow : s.Counted (s.patrolRow k n) := State.counted_patrolRow (.refl s)
  have hst := State.patrolWords_spec (s.patrolPlaces k n) (s.patrolPlaces_space k n) (s.patrolPlaces_nodup k n) (s.patrolRow k n)
  rw [State.patrolLine, hrow.patrolPlaces]
  refine ⟨(hrow.stored.trans hst.1).mono (fun _ h => h), fun p hp => ?_⟩
  exact (hst.2 p hp).congr (s.patrolPlaces_space k n p hp) (hrow.same.word _ (s.patrolPlaces_space k n p hp)).symm rfl

theorem State.find?_scrub {b : Background} {l : List Background} (hbg : s.mbox.bg = b :: l) (hb : b.isScrub = true) :
    s.mbox.bg.find? Background.isScrub = some b := by
  rw [hbg, List.find?_cons_of_pos hb]

/-- The pass after a visit that was not its last. -/
def State.scrubNext (s : State) (h : Nat) (x : Hasp) (b : Background) : State :=
  { s.setHasp h x with mbox := { (s.setHasp h x).mbox with bg := s.mbox.bg.map (fun c => if c.isScrub then b else c) } }

theorem map_isScrub {b c : Background} {l : List Background} (hb : b.isScrub = true) (hl : ∀ b ∈ l, b.isScrub = false) :
    (b :: l).map (fun b => if b.isScrub then c else b) = c :: l := by
  rw [List.map_cons, if_pos hb]
  refine congrArg (c :: ·) ?_
  calc l.map (fun b => if b.isScrub then c else b) = l.map id := List.map_congr_left fun b hbl => if_neg (by rw [hl b hbl]; decide)
    _ = l := List.map_id l

theorem isScrub_eq_false {b : Background} (hb : ∀ a1 a2 a3 a4 a5 a6 a7 a8 a9 a10 a11, b ≠ .scrub a1 a2 a3 a4 a5 a6 a7 a8 a9 a10 a11) :
    b.isScrub = false := by
  cases b with
  | scrub a1 a2 a3 a4 a5 a6 a7 a8 a9 a10 a11 => exact absurd rfl (hb a1 a2 a3 a4 a5 a6 a7 a8 a9 a10 a11)
  | pull p => rfl
  | export_ => rfl
  | repair => rfl

/-- The turn of a pass, when its next line is due and its bank can be visited. -/
theorem State.scrubTurn_visits {h first slabs interval n ce ue po visited due rep : Nat} {l : List Background}
    (hbg : s.mbox.bg = .scrub h first slabs interval n ce ue po visited due rep :: l) (hdue : due ≤ s.clk.tick.toNat)
    (hheld : s.bankHeld (scrubAt first n).1 = false) (hcourse : (s.bank (scrubAt first n).1).course = none)
    (howed : (s.bank (scrubAt first n).1).owed < 4) (htemp : (s.die ((scrubAt first n).1 / 256)).temp ≤ 95 * 16) :
    s.scrubTurn =
      let k := (scrubAt first n).1
      let o := s.lineOutcomes (s.patrolPlaces k (scrubAt first n).2)
      let t := (s.patrolRow k (scrubAt first n).2).patrolLine k (scrubAt first n).2
      if n + 1 = scrubLines slabs then
        (t.dropBg Background.isScrub).finish h .okay 0 (scrubBytes (ce + o.1) (ue + o.2.1) (po + o.2.2) (visited + 1))
      else t.scrubNext h { t.hasp h with progress := BitVec.ofNat 16 ((visited + 1) * 65536 / scrubLines slabs) }
        (.scrub h first slabs interval (n + 1) (ce + o.1) (ue + o.2.1) (po + o.2.2) (visited + 1) (t.clk.tick.toNat + interval) rep) := by
  have hfind := State.find?_scrub hbg rfl
  have hgo : ¬ (decide (s.clk.tick.toNat < due) || s.bankHeld (scrubAt first n).1 || (s.bank (scrubAt first n).1).course.isSome ||
      decide (4 ≤ (s.bank (scrubAt first n).1).owed) || decide (95 * 16 < (s.die ((scrubAt first n).1 / 256)).temp)) = true := by
    rw [hheld, hcourse, decide_eq_false (Nat.not_lt.2 hdue), decide_eq_false (Nat.not_le.2 howed), decide_eq_false (not_lt.2 htemp)]
    exact nofun
  unfold State.scrubTurn
  split
  · next heq =>
    cases Option.some.inj (hfind.symm.trans heq)
    exact if_neg hgo
  · next hne => exact absurd hfind (hne _ _ _ _ _ _ _ _ _ _ _)

theorem State.scrubTurn_early {h first slabs interval n ce ue po visited due rep : Nat} {l : List Background}
    (hbg : s.mbox.bg = .scrub h first slabs interval n ce ue po visited due rep :: l) (hdue : s.clk.tick.toNat < due) : s.scrubTurn = s := by
  have hfind := State.find?_scrub hbg rfl
  unfold State.scrubTurn
  split
  · next heq =>
    cases Option.some.inj (hfind.symm.trans heq)
    exact if_pos (by simp [hdue])
  · rfl

theorem scrubBytes_length (a b c d : Nat) : (scrubBytes a b c d).length = 24 := by
  simp [scrubBytes, leBytes_length]

/-- What a pass shows of its counts, and what it leaves. -/
theorem State.scrubReport_spec {h first slabs interval n ce ue po visited due rep : Nat} {l : List Background}
    (hbg : s.mbox.bg = .scrub h first slabs interval n ce ue po visited due rep :: l) :
    (s.clk.tick.toNat < rep → s.scrubReport = s) ∧
    (rep ≤ s.clk.tick.toNat → ∃ bg, s.scrubReport =
      { s.haspPut h 0x840 (scrubBytes ce ue po visited) with
        mbox := { (s.haspPut h 0x840 (scrubBytes ce ue po visited)).mbox with bg := bg } }) := by
  have hfind := State.find?_scrub hbg rfl
  unfold State.scrubReport
  split
  · next heq =>
    cases Option.some.inj (hfind.symm.trans heq)
    exact ⟨fun hlt => if_pos hlt, fun hle => ⟨_, if_neg (Nat.not_lt.2 hle)⟩⟩
  · next hne => exact absurd hfind (hne _ _ _ _ _ _ _ _ _ _ _)

end

end Sys2Proof.Machine

open Sys2Proof Sys2Proof.Machine

/-- Settles O50: a pull and a pass join the background; a turn of the pass is a visit of the patrol, and its counts go to the payload. -/
theorem pullsAndScrubsRunInTheBackground : Obligations.PullsAndScrubsRunInTheBackground := by
  refine ⟨fun s h at_ hturn => ⟨fun hgood => ?_, fun o hbad => ?_⟩, fun s h hturn => ?_,
    fun s h first slabs interval n ce ue po visited due rep l hruns hh hbg => ⟨fun hdue hheld hcourse howed htemp => ?_, fun hdue => ?_,
      fun hrep => ?_, fun hrep => ?_⟩⟩
  · have hgood' : ((s.touch at_).begin_ h).pullBad (((s.touch at_).begin_ h).hasp h) = none := (s.pullBad_begin h at_).trans hgood
    have hx := exec_pullReplica (s := s) hturn.1 at_
    rw [State.runCommand_turn hturn, State.pullStart_of_good hgood'] at hx
    have hpay : (((s.touch at_).begin_ h).hasp h).pull h = (s.hasp h).pull h := by
      rw [Hasp.pull, State.pay_eq_begin]
      rfl
    have hrun : (((s.touch at_).begin_ h).hasp h).state = .running := by rw [State.hasp_begin_self]
    have hbg : ((s.touch at_).begin_ h).mbox.bg = s.mbox.bg := rfl
    have hmem : SameMemory s ((s.touch at_).begin_ h) := sameMemory_of_stores rfl rfl rfl rfl
    rw [hpay] at hx
    generalize (s.touch at_).begin_ h = v at hx hrun hbg hmem
    exact ⟨_, _, _, hx, congrArg (· ++ [_]) hbg, rfl, rfl, rfl, rfl, rfl, rfl, rfl, rfl, rfl, rfl, hrun, fun sp w hsp => hmem sp w hsp⟩
  · have hbad' : ((s.touch at_).begin_ h).pullBad (((s.touch at_).begin_ h).hasp h) = some o := (s.pullBad_begin h at_).trans hbad
    have hbody := State.pullStart_of_bad hbad'
    have hc := State.answered_body (body := fun s => s.pullStart h) hturn hbody (State.pullBad_lt hbad) nofun
    have hbg := (State.bg_runCommand (body := fun s => s.pullStart h) hturn).trans ((congrArg (fun u : State => u.mbox.bg) hbody).trans
      (State.bg_finish _ _ _ _ _))
    refine ⟨_, exec_pullReplica hturn.1 at_, hc.done, ?_, hbg, hc.sameMemoryButHasp⟩
    refine hc.holds.detail.trans ?_
    simp only [true_and]
    rfl
  · intro x isScrub hr hi
    have hx := exec_startScrub (s := s) hturn.1
    have hany : (fun b : Background => isScrub b) = Background.isScrub := by
      funext b
      cases b <;> rfl
    have hany' : s.mbox.bg.any isScrub = s.mbox.bg.any Background.isScrub := by rw [← hany]
    rw [hany']
    have hpay : ((s.begin_ h).hasp h).pay = (s.hasp h).pay := s.pay_eq_begin h
    refine ⟨fun hb => ?_, fun hb hn => ?_⟩
    · have hbody : (s.begin_ h).scrubStart h = (s.begin_ h).finish h .engineBusy 0 [] :=
        State.scrubStart_busy (by rw [hpay]; exact hr) (by rw [hpay]; exact hi) hb
      have hc := State.answered_body (body := fun s => s.scrubStart h) hturn hbody (by decide) nofun
      have hbg := (State.bg_runCommand (body := fun s => s.scrubStart h) hturn).trans ((congrArg (fun u : State => u.mbox.bg) hbody).trans
        (State.bg_finish _ _ _ _ _))
      exact ⟨_, hx, hc.done, hbg⟩
    · have hbody : (s.begin_ h).scrubStart h = (s.begin_ h).scrubbing h :=
        State.scrubStart_runs (by rw [hpay]; exact hr) (by rw [hpay]; exact hi) hb (by rw [hpay]; exact hn)
      have hrun := State.runsOn_runCommand hturn (fun s => s.scrubStart h)
      have hself : ((s.begin_ h).hasp h).state = .running := by rw [State.hasp_begin_self]
      have hne : ∀ j, j ≠ h → ((s.begin_ h).scrubbing h).hasp j = s.hasp j := fun j hj => s.hasp_begin_ne hj
      have hmem : SameMemory s ((s.begin_ h).scrubbing h) := sameMemory_of_stores rfl rfl rfl rfl
      have hrun' : (((s.begin_ h).scrubbing h).hasp h).state = .running := hself
      have hbg : ((s.begin_ h).scrubbing h).mbox.bg = s.mbox.bg ++ [.scrub h (x.pay 0 2) (x.pay 2 2) (x.pay 4 2) 0 0 0 0 0
          (s.clk.tick.toNat + x.pay 4 2) (s.clk.tick.toNat + 500)] := by
        rw [State.scrubbing, hpay]
        rfl
      have hctl : ((s.begin_ h).scrubbing h).ctl = s.ctl := rfl
      have hframe : (s.begin_ h).scrubbing h = { s with mbox := ((s.begin_ h).scrubbing h).mbox } := rfl
      rw [hbody] at hrun
      generalize (s.begin_ h).scrubbing h = b at hrun hself hne hmem hrun' hbg hctl hframe
      refine ⟨_, hx, ?_, hrun.keeps.bg.trans hbg, hrun.causes.sameButAnswers.ctl.trans hctl, hrun.sameMemoryButHasp hmem hne, fun hn => ?_⟩
      · rw [hrun.self (by rw [hrun']; exact nofun), hrun']
      · have hnb : b.noneBad := fun j => by
          by_cases hj : j = h
          · subst hj
            exact State.badStatus_of_state_ne (by rw [hrun']; exact nofun)
          · exact (State.badStatus_congr (hne j hj)).trans (hn j)
        obtain ⟨st, bf, heq⟩ := hrun.quiet hnb
        rw [heq, hframe]
  · have hx : exec .scrubTurn s = .next s.scrubTurn := congrArg Host.Outcome.next (if_pos hruns)
    rw [State.scrubTurn_visits hbg hdue hheld hcourse howed htemp] at hx
    obtain ⟨hst, hall⟩ := s.scrubVisit_spec (scrubAt first n).1 (scrubAt first n).2
    have hsp := s.patrolPlaces_space (scrubAt first n).1 (scrubAt first n).2
    have hmbox := hst.mbox
    have hclk : ((s.patrolRow (scrubAt first n).1 (scrubAt first n).2).patrolLine (scrubAt first n).1 (scrubAt first n).2).clk = s.clk :=
      (congrArg State.clk hst.counted.same).trans rfl
    refine ⟨fun hn hl => ?_, fun hn hop => ?_⟩
    · rw [if_neg hn] at hx
      generalize (s.patrolRow (scrubAt first n).1 (scrubAt first n).2).patrolLine (scrubAt first n).1 (scrubAt first n).2 = t at *
      refine ⟨_, hx, fun p hp => hall p hp, fun sp w hsp' hw => hst.words sp w hsp' hw, ?_⟩
      rw [State.scrubNext, hclk]
      change t.mbox.bg.map _ = _
      rw [hmbox, hbg, map_isScrub rfl fun b hb => isScrub_eq_false (hl b hb)]
      rfl
    · rw [if_pos hn] at hx
      generalize (s.patrolRow (scrubAt first n).1 (scrubAt first n).2).patrolLine (scrubAt first n).1 (scrubAt first n).2 = t at *
      have hop' : isBackground ((t.dropBg Background.isScrub).hasp h).opcode = true := by
        have hh : t.hasp h = s.hasp h := congrArg (fun m : Mailbox => Sparse.get Hasp.init m.hasps h) hmbox
        exact (congrArg (fun x : Hasp => isBackground x.opcode) hh).trans hop
      have hc := State.completes_finish_background (t.dropBg Background.isScrub) h 0 .okay
        (bs := scrubBytes (ce + (s.lineOutcomes (s.patrolPlaces (scrubAt first n).1 (scrubAt first n).2)).1)
          (ue + (s.lineOutcomes (s.patrolPlaces (scrubAt first n).1 (scrubAt first n).2)).2.1)
          (po + (s.lineOutcomes (s.patrolPlaces (scrubAt first n).1 (scrubAt first n).2)).2.2) (visited + 1))
        (by rw [scrubBytes_length]; decide) hop'
      refine ⟨_, hx, fun p hp => ?_, hc.done, hc.bytes⟩
      have hstack : p.space = .stack := by
        obtain ⟨i, -, rfl⟩ := List.mem_map.1 hp
        rfl
      refine (hall p hp).congr (s' := s) (hsp p hp) rfl ?_
      rw [hc.frame.word (by rw [hstack]; exact nofun) (hsp p hp)]
      rfl
  · refine congrArg Host.Outcome.next ((if_pos hruns).trans ?_)
    exact State.scrubTurn_early hbg hdue
  · obtain ⟨bg, heq⟩ := (State.scrubReport_spec hbg).2 hrep
    obtain ⟨m, r, hput, hbytes, hother, -⟩ := s.haspPut_spec h (o := 0x840) (scrubBytes ce ue po visited) rfl (by rw [scrubBytes_length]; decide)
    rw [hput] at heq
    refine ⟨_, (congrArg Host.Outcome.next (if_pos hruns)).trans (congrArg Host.Outcome.next heq), hbytes, ?_, rfl⟩
    exact sameMemoryButHasp_of_storage rfl fun j hj => hother j hj.1
  · refine congrArg Host.Outcome.next ((if_pos hruns).trans ?_)
    exact (State.scrubReport_spec hbg).1 hrep

end

section

/-!
SUPPORT. What the Keystone engine's accesses leave (R176, R198, R203, R320): counts, row latches, the groups and the words that it writes.
-/

namespace Sys2Proof.Machine

set_option Elab.async false

/-! ### Counts, words, groups -/

/-- c is b but for the time that its accesses take, what CSTAT counts, and its row latches. -/
def Bank.SameButLatch (b c : Bank) : Prop := c = { b with busyTo := c.busyTo, cstat := c.cstat, rowLat := c.rowLat }

theorem Bank.SameButLatch.trans {b c d : Bank} (h : b.SameButLatch c) (h' : c.SameButLatch d) : b.SameButLatch d := by
  rw [Bank.SameButLatch] at *
  rw [h', h]

/-- t is s but for counts, row latches, the words, the groups and what the engine has spent; no cause falls. -/
structure State.Works (s t : State) : Prop where
  same : t = { s with regs := t.regs, chans := t.chans, banks := t.banks, crossing := t.crossing, plumb := t.plumb, groups := t.groups,
                      stack := t.stack, mortar := t.mortar, hasps := t.hasps, free := t.free }
  stopped : t.regs.stopped = s.regs.stopped
  rises : ∀ i, s.regs.irqStatus.getLsbD i = true → t.regs.irqStatus.getLsbD i = true
  bank : ∀ k, (s.bank k).SameButLatch (t.bank k)
  chan : ∀ c, (s.chan c).SameButCounts (t.chan c)

@[mono] theorem State.Works.refl (s : State) : s.Works s := ⟨rfl, rfl, fun _ => id, fun _ => rfl, fun _ => rfl⟩

theorem State.Works.trans {s t u : State} (h : s.Works t) (h' : t.Works u) : s.Works u where
  same := by rw [h'.same, h.same]
  stopped := h'.stopped.trans h.stopped
  rises i hi := h'.rises i (h.rises i hi)
  bank k := (h.bank k).trans (h'.bank k)
  chan c := (h.chan c).trans (h'.chan c)

@[mono] theorem works_ite {s t u : State} {c : Prop} [Decidable c] (h : s.Works t) (h' : s.Works u) : s.Works (if c then t else u) := by
  split <;> assumption

@[mono] theorem works_foldl {α : Type} {s t : State} {f : State → α → State} {l : List α} (h : s.Works t)
    (hf : ∀ a u, s.Works u → s.Works (f u a)) : s.Works (l.foldl f t) := by
  induction l generalizing t with
  | nil => exact h
  | cons a l ih => exact ih (hf a t h)

section
variable {s₀ s : State} (h : s₀.Works s)
include h

theorem State.Works.setChan {c : Nat} {x : Channel} (hx : (s.chan c).SameButCounts x) : s₀.Works (s.setChan c x) :=
  h.trans ⟨rfl, rfl, fun _ => id, fun _ => rfl, fun i => by
    rw [State.chan_setChan]
    split
    · next hi => exact hi ▸ hx
    · rfl⟩

theorem State.Works.setBank {k : Nat} {x : Bank} (hx : (s.bank k).SameButLatch x) : s₀.Works (s.setBank k x) :=
  h.trans ⟨rfl, rfl, fun _ => id, fun i => by
    rw [State.bank_setBank]
    split
    · next hi => exact hi ▸ hx
    · rfl, fun _ => rfl⟩

/-- A change of counting registers and crossings. -/
theorem State.Works.lit {regs : Regs} (hs : regs.stopped = s.regs.stopped) (hi : regs.irqStatus = s.regs.irqStatus) (crossing : Sparse Nat) :
    s₀.Works { s with regs := regs, crossing := crossing } :=
  h.trans ⟨rfl, hs, fun i hi' => (congrArg (BitVec.getLsbD · i) hi).trans hi', fun _ => rfl, fun _ => rfl⟩

@[mono] theorem State.works_irq {i} : s₀.Works (s.irq i) :=
  h.trans ⟨rfl, rfl, fun j hj => by simp [State.irq, hj], fun _ => rfl, fun _ => rfl⟩

@[mono] theorem State.works_pushLog {src outcome syn agent where_} : s₀.Works (s.pushLog src outcome syn agent where_) := by
  unfold State.pushLog
  mono
  · exact h.lit (by rfl) (by rfl) _
  · exact h.lit (by rfl) (by rfl) _

@[mono] theorem State.works_overrun {d} : s₀.Works (s.overrun d) := by
  unfold State.overrun
  mono
  · exact h.lit (by rfl) (by rfl) _
  · exact h.lit (by rfl) (by rfl) _

@[mono] theorem State.works_cross {c} {event : State → State} (he : ∀ u, s₀.Works u → s₀.Works (event u)) : s₀.Works (s.cross c event) := by
  unfold State.cross
  dsimp only
  mono
  exact h.lit (by rfl) (by rfl) _

@[mono] theorem State.works_crossIrq {c i} : s₀.Works (s.crossIrq c i) := by
  unfold State.crossIrq
  mono
  exact fun _ => id

@[mono] theorem State.works_countCe : s₀.Works s.countCe := by
  unfold State.countCe
  dsimp only
  mono
  · exact h.lit (by rfl) (by rfl) _
  · exact h.lit (by rfl) (by rfl) _

@[mono] theorem State.works_siteIrq {site i} : s₀.Works (s.siteIrq site i) := by
  unfold State.siteIrq
  split <;> mono

@[mono] theorem State.works_siteCe {site} : s₀.Works (s.siteCe site) := by
  unfold State.siteCe
  split
  · exact State.works_cross h fun _ hu => State.works_countCe (hu.setChan rfl)
  · exact h.setBank rfl
  · exact State.works_countCe (h.lit (by rfl) (by rfl) _)
  · exact State.works_cross h fun _ hu => State.works_countCe (hu.lit (by rfl) (by rfl) _)
  · exact State.works_cross h fun _ hu => State.works_countCe (hu.lit (by rfl) (by rfl) _)

@[mono] theorem State.works_siteUe {site} : s₀.Works (s.siteUe site) := by
  unfold State.siteUe
  split
  · exact State.works_cross h fun _ hu => hu.setChan rfl
  · exact h.setBank rfl
  · exact h.lit (by rfl) (by rfl) _
  · exact State.works_cross h fun _ hu => hu.lit (by rfl) (by rfl) _
  · exact State.works_cross h fun _ hu => hu.lit (by rfl) (by rfl) _

@[mono] theorem State.works_sitePoison {site} : s₀.Works (s.sitePoison site) := by
  unfold State.sitePoison
  split
  · exact State.works_cross h fun _ hu => hu.setChan rfl
  · exact h.setBank rfl
  · exact h

@[mono] theorem State.works_account {site w where_ o syn} : s₀.Works (s.account site w where_ o syn) := by
  unfold State.account
  split <;> mono

@[mono] theorem State.works_statePoison {site w where_} : s₀.Works (s.statePoison site w where_) := by
  have hcount (u : State) (hu : s₀.Works u) : s₀.Works { u with regs := { u.regs with statePoison := satAdd u.regs.statePoison 1 } } :=
    hu.lit (by rfl) (by rfl) _
  unfold State.statePoison
  dsimp only
  split <;> mono

@[mono] theorem State.works_readPlace {w p} : s₀.Works (s.readPlace w p).2 := State.works_account h

@[mono] theorem State.works_accountWords {who ps} : s₀.Works (s.accountWords who ps) := by
  unfold State.accountWords
  mono
  intros
  mono

@[mono] theorem State.works_sent {c op bank arg} : s₀.Works (s.sent c op bank arg) := h.setChan rfl

@[mono] theorem State.works_occupy {k n} : s₀.Works (s.occupy k n) := h.setBank rfl

@[mono] theorem State.works_occupyEven {k n} : s₀.Works (s.occupyEven k n) := h.setBank rfl

@[mono] theorem State.works_sendPhys {k phys cs} : s₀.Works (s.sendPhys k phys cs) := by
  unfold State.sendPhys State.sendPre State.sendColumn
  mono
  intros
  mono

@[mono] theorem State.works_moveRows {write rows} : s₀.Works (s.moveRows write rows) := by
  unfold State.moveRows
  mono
  intros
  mono

theorem State.Works.freed (n : Nat) : s₀.Works { s with free := n } := h.trans ⟨rfl, rfl, fun _ => id, fun _ => rfl, fun _ => rfl⟩

@[mono] theorem State.works_fillLatch {k one use data} : s₀.Works (s.fillLatch k one use data) := by
  unfold State.fillLatch
  exact State.Works.freed (h.setBank (by rfl)) _

@[mono] theorem State.works_latchOut {k data} : s₀.Works (s.latchOut k data) := by
  unfold State.latchOut
  dsimp only
  mono
  intro j u hu
  refine State.works_occupyEven ?_
  mono
  intros
  mono

@[mono] theorem State.works_doReach {r} : s₀.Works (s.doReach r) := by
  unfold State.doReach
  split <;> mono

theorem State.Works.plumb (p : Plumb) : s₀.Works { s with plumb := p } := h.trans ⟨rfl, rfl, fun _ => id, fun _ => rfl, fun _ => rfl⟩

@[mono] theorem State.works_placeWrite {p d b} : s₀.Works (s.placeWrite p d b) := by
  unfold State.placeWrite
  rw [State.placeSet_frame]
  exact h.trans ⟨rfl, rfl, fun _ => id, fun _ => rfl, fun _ => rfl⟩

@[mono] theorem State.works_setGroup {g x} : s₀.Works (s.setGroup g x) := h.trans ⟨rfl, rfl, fun _ => id, fun _ => rfl, fun _ => rfl⟩

@[mono] theorem State.works_flush {who role own known l} : s₀.Works (s.flush who role own known l).1 := by
  induction l generalizing s with
  | nil => exact h
  | cons e l ih =>
    unfold State.flush
    dsimp only
    mono

@[mono] theorem State.works_deriveWeights {n g v} : s₀.Works (s.deriveWeights n g v) := by
  unfold State.deriveWeights
  mono

@[mono] theorem State.works_restoreCoffer {ns} : s₀.Works (s.restoreCoffer ns) := by
  unfold State.restoreCoffer
  mono
  intro n u hu
  split <;> mono

/-- An access of the engine that goes. -/
theorem State.works_ksAccess {plan cost task} (hgo : s.goes plan cost = true) :
    s₀.Works (s.ksAccess plan cost task).1 := by
  unfold State.ksAccess State.ksMove
  rw [if_pos hgo]
  refine works_foldl ?_ fun r u hu => State.works_doReach hu
  exact (h.plumb _).plumb _

@[mono] theorem State.works_clearIntake {b} : s₀.Works (s.clearIntake b) := by
  unfold State.clearIntake
  split
  · exact h.trans ⟨rfl, rfl, fun _ => id, fun _ => rfl, fun _ => rfl⟩
  · mono
    intro e u hu
    dsimp only
    mono
    intros
    mono

end

/-! ### What they leave -/

section
variable {s t : State} (h : s.Works t)
include h

theorem State.Works.ctl : t.ctl = s.ctl := by rw [h.same]

theorem State.Works.mbox : t.mbox = s.mbox := by rw [h.same]

theorem State.Works.latches : t.latches = s.latches := by rw [h.same]

/-- The banks of the record take its lines as before. -/
theorem State.Works.lintelOpen (c : Bool) : t.lintelOpen none c = s.lintelOpen none c := by
  have hb := h.bank (lintelBank c)
  have hc := h.chan (lintelBank c / 16)
  have hstart : t.start = s.start := by rw [h.same]
  rw [Bank.SameButLatch] at hb
  rw [Channel.SameButCounts] at hc
  simp only [State.lintelOpen, State.serving, State.runs, State.mayRefresh, State.chanLive, State.fuseHeld, hstart, h.stopped]
  rw [hb, hc]
  rfl

theorem State.Works.recordReady (hs : s.recordReady) : t.recordReady := by
  obtain ⟨hw, hl, h0, h1⟩ := hs
  refine ⟨?_, ?_, (h.lintelOpen _).trans h0, (h.lintelOpen _).trans h1⟩ <;> rw [h.ctl] <;> assumption

end

/-! ### An access that waits -/

/-- t is s but for its channels, its banks and the free values. -/
def State.SameButUnits (s t : State) : Prop := t = { s with chans := t.chans, banks := t.banks, free := t.free }

@[mono] theorem State.SameButUnits.refl (s : State) : s.SameButUnits s := rfl

theorem State.SameButUnits.trans {s t u : State} (h : s.SameButUnits t) (h' : t.SameButUnits u) : s.SameButUnits u := by
  rw [State.SameButUnits] at *
  rw [h', h]

@[mono] theorem sameButUnits_foldl {α : Type} {s t : State} {f : State → α → State} {l : List α} (h : s.SameButUnits t)
    (hf : ∀ a u, s.SameButUnits u → s.SameButUnits (f u a)) : s.SameButUnits (l.foldl f t) := by
  induction l generalizing t with
  | nil => exact h
  | cons a l ih => exact ih (hf a t h)

section
variable {s₀ s : State} (h : s₀.SameButUnits s)
include h

@[mono] theorem State.sameButUnits_sent {c op bank arg} : s₀.SameButUnits (s.sent c op bank arg) := h.trans rfl

@[mono] theorem State.sameButUnits_occupy {k n} : s₀.SameButUnits (s.occupy k n) := h.trans rfl

@[mono] theorem State.sameButUnits_occupyEven {k n} : s₀.SameButUnits (s.occupyEven k n) := h.trans rfl

@[mono] theorem State.sameButUnits_moveRows {write rows} : s₀.SameButUnits (s.moveRows write rows) := by
  unfold State.moveRows
  mono
  intro e u hu
  refine State.sameButUnits_occupy ?_
  unfold State.sendPhys State.sendPre State.sendColumn
  mono
  intros
  mono

@[mono] theorem State.sameButUnits_fillLatch {k one use data} : s₀.SameButUnits (s.fillLatch k one use data) := h.trans rfl

@[mono] theorem State.sameButUnits_latchOut {k data} : s₀.SameButUnits (s.latchOut k data) := by
  unfold State.latchOut
  dsimp only
  mono
  intro j u hu
  refine State.sameButUnits_occupyEven ?_
  mono
  intros
  mono

@[mono] theorem State.sameButUnits_doReach {r} : s₀.SameButUnits (s.doReach r) := by
  unfold State.doReach
  split <;> mono

end

/-- What an access issues at once changes units; what it queues, their queues. -/
theorem State.issue_frame (s : State) (id : Nat) (plan : List Reach) : ∃ cs bs n q,
    s.issue id plan = { s with chans := cs, banks := bs, free := n, seq := q } := by
  have hdo : s.SameButUnits ((plan.filter (fun r => s.bankFree r.bank)).foldl (fun t r => t.doReach r) s) :=
    sameButUnits_foldl (.refl s) fun r u hu => State.sameButUnits_doReach hu
  unfold State.issue
  generalize (plan.filter (fun r => s.bankFree r.bank)).foldl (fun t r => t.doReach r) s = v at hdo
  rw [hdo]
  generalize v.chans = cs, v.banks = bs, v.free = n
  generalize plan.filter (fun r => !s.bankFree r.bank) = l
  have hq (l : List Reach) (bs : Sparse Bank) (q : Nat) : ∃ bs' q',
      l.foldl (fun t r => t.queueReach id r) { s with chans := cs, banks := bs, free := n, seq := q } =
        { s with chans := cs, banks := bs', free := n, seq := q' } := by
    induction l generalizing bs q with
    | nil => exact ⟨bs, q, rfl⟩
    | cons r l ih => exact ih _ _
  obtain ⟨bs', q', heq⟩ := hq l bs s.seq
  exact ⟨cs, bs', n, q', heq⟩

/-- An access of the engine that cannot go leaves its work item (R203, R437). -/
theorem State.ksAccess_waits (s : State) {plan : List Reach} {cost : Nat} (task : KsTask) (hgo : s.goes plan cost = false) :
    (s.ksAccess plan cost task).2 = true ∧ ∃ cs bs n q p i, i.task = task ∧ (s.ksAccess plan cost task).1 =
      { s with chans := cs, banks := bs, free := n, seq := q, plumb := p, ctl := { s.ctl with items := s.ctl.items ++ [i] } } := by
  unfold State.ksAccess State.ksMove
  rw [if_neg (by rw [hgo]; exact Bool.false_ne_true)]
  obtain ⟨cs, bs, n, q, heq⟩ := State.issue_frame (((s.ksSpend (min cost (s.ksRest / 4 * 4))).countParams
    (if cost = 0 then 0 else 0 * min cost (s.ksRest / 4 * 4) / cost)).bump) s.seq (splitPlan (cost - min cost (s.ksRest / 4 * 4)) plan).1
  dsimp only
  rw [heq]
  refine ⟨rfl, cs, bs, n, q, _, _, ?_, rfl⟩
  rfl

end Sys2Proof.Machine
end

section

/-!
SUPPORT. What an ABANDON and a record leave of the steps (R332, R344 to R347).
-/

namespace Sys2Proof.Machine

variable {s t u : State}

/-! ### What keeps the gates of the record's banks -/

/-- What decides in t whether a bank takes a line of the record is as in s. -/
structure State.SameGates (s t : State) : Prop where
  start : t.start = s.start
  stopped : t.regs.stopped = s.regs.stopped
  bank : ∀ k, (t.bank k).course = (s.bank k).course ∧ (t.bank k).hold = (s.bank k).hold ∧ (t.bank k).owed = (s.bank k).owed ∧
    (t.bank k).refs = (s.bank k).refs
  chan : ∀ c, (t.chan c).sref = (s.chan c).sref ∧ (t.chan c).trained = (s.chan c).trained ∧ (t.chan c).fprogHold = (s.chan c).fprogHold

theorem State.SameGates.trans (h : s.SameGates t) (h' : t.SameGates u) : s.SameGates u where
  start := h'.start.trans h.start
  stopped := h'.stopped.trans h.stopped
  bank k := by
    obtain ⟨h1, h2, h3, h4⟩ := h.bank k
    obtain ⟨h1', h2', h3', h4'⟩ := h'.bank k
    exact ⟨h1'.trans h1, h2'.trans h2, h3'.trans h3, h4'.trans h4⟩
  chan c := by
    obtain ⟨h1, h2, h3⟩ := h.chan c
    obtain ⟨h1', h2', h3'⟩ := h'.chan c
    exact ⟨h1'.trans h1, h2'.trans h2, h3'.trans h3⟩

theorem State.Works.sameGates (h : s.Works t) : s.SameGates t where
  start := by rw [h.same]
  stopped := h.stopped
  bank k := by
    have hb := h.bank k
    rw [Bank.SameButLatch] at hb
    rw [hb]
    exact ⟨rfl, rfl, rfl, rfl⟩
  chan c := by
    have hc := h.chan c
    rw [Channel.SameButCounts] at hc
    rw [hc]
    exact ⟨rfl, rfl, rfl⟩

/-- Eight owed REFpb may be issued whatever waits for the bank. -/
theorem Bank.lintelTakes (b : Bank) : (decide (b.owed < 8) || (decide (1 ≤ b.owed) && decide (b.refs < 2) &&
    (decide (8 ≤ b.owed) || b.queue.all (fun a => !b.waited.contains a.seq)))) = (decide (b.owed < 8) || decide (b.refs < 2)) := by
  by_cases h : b.owed < 8
  · simp [h]
  · have h8 : 8 ≤ b.owed := Nat.le_of_not_lt h
    have h1 : 1 ≤ b.owed := le_trans (by decide) h8
    simp [h, h8, h1]

theorem State.SameGates.lintelOpen (h : s.SameGates t) (c : Bool) : t.lintelOpen none c = s.lintelOpen none c := by
  obtain ⟨h1, h2, h3, h4⟩ := h.bank (lintelBank c)
  obtain ⟨h5, h6, h7⟩ := h.chan (lintelBank c / 16)
  have hdec (s : State) (k : Nat) : (decide ((s.bank k).owed < 8) || s.mayRefresh k) = (decide ((s.bank k).owed < 8) ||
      (decide ((s.bank k).refs < 2) && s.chanLive (k / 16) && !s.fuseHeld k)) := by
    have hk := (s.bank k).lintelTakes
    by_cases h : (s.bank k).owed < 8
    · simp [h]
    · simp only [decide_eq_false h, Bool.false_or] at hk ⊢
      rw [State.mayRefresh, Bank.mayRefresh, hk]
  simp only [State.lintelOpen, hdec]
  simp only [State.serving, State.runs, State.chanLive, State.fuseHeld, h.start, h.stopped, h1, h2, h3, h4, h5, h6, h7]

/-! ### Abandoning a step -/

/-- t is s but for the queues of banks, the groups, the responses to the fabric and the steps; no cause falls. -/
structure State.Spoils (s t : State) : Prop where
  frame : t = { s with banks := t.banks, groups := t.groups, fab := t.fab, plumb := t.plumb, ctl := t.ctl, regs := t.regs }
  steps : t.ctl = { s.ctl with items := t.ctl.items, debt := t.ctl.debt, debtAll := t.ctl.debtAll, staged := t.ctl.staged,
                               setA := t.ctl.setA, setB := t.ctl.setB }
  bank : ∀ k, t.bank k = { s.bank k with queue := (t.bank k).queue }
  stopped : t.regs.stopped = s.regs.stopped
  rises : ∀ i, s.regs.irqStatus.getLsbD i = true → t.regs.irqStatus.getLsbD i = true

theorem State.Spoils.refl (s : State) : s.Spoils s := ⟨rfl, rfl, fun _ => rfl, rfl, fun _ => id⟩

theorem State.Spoils.trans (h : s.Spoils t) (h' : t.Spoils u) : s.Spoils u where
  frame := by rw [h'.frame, h.frame]
  steps := by rw [h'.steps, h.steps]
  bank k := by rw [h'.bank, h.bank]
  stopped := h'.stopped.trans h.stopped
  rises i hi := h'.rises i (h.rises i hi)

theorem State.Spoils.sameGates (h : s.Spoils t) : s.SameGates t where
  start := by rw [h.frame]
  stopped := h.stopped
  bank k := by
    rw [h.bank]
    exact ⟨rfl, rfl, rfl, rfl⟩
  chan c := by
    have hc : t.chans = s.chans := by rw [h.frame]
    have hc' : t.chan c = s.chan c := congrArg (fun m : Sparse Channel => Sparse.get _ m c) hc
    rw [hc']
    exact ⟨rfl, rfl, rfl⟩

theorem State.spoils_foldl {α : Type} {f : State → α → State} (l : List α) (s : State) (hf : ∀ (u : State) a, u.Spoils (f u a)) :
    s.Spoils (l.foldl f s) := by
  induction l generalizing s with
  | nil => exact .refl s
  | cons a l ih => exact (hf s a).trans (ih _)

theorem State.spoils_setGroup (s : State) (n : Nat) (g : Option Group) : s.Spoils (s.setGroup n g) :=
  ⟨rfl, rfl, fun _ => rfl, rfl, fun _ => id⟩

theorem State.spoils_setSet (s : State) (b : Bool) (x : StepSet) : s.Spoils (s.setSet b x) := by
  cases b <;> exact ⟨rfl, rfl, fun _ => rfl, rfl, fun _ => id⟩

theorem State.spoils_irq (s : State) (i : Irq) : s.Spoils (s.irq i) :=
  ⟨rfl, rfl, fun _ => rfl, rfl, fun j hj => by simp [State.irq, hj]⟩

theorem State.spoils_errResp (s : State) (src : BitVec 14) (tag : BitVec 10) (st : BitVec 3) : s.Spoils (s.errResp src tag st) := by
  unfold State.errResp State.foPush
  split <;> exact ⟨rfl, rfl, fun _ => rfl, rfl, fun _ => id⟩

theorem State.set_errResp (s : State) (src : BitVec 14) (tag : BitVec 10) (st : BitVec 3) (c : Bool) : (s.errResp src tag st).set c = s.set c := by
  unfold State.errResp State.foPush
  split <;> rfl

/-- Of the accesses that wait for banks those that keep tells stay. -/
def State.filterQueues (s : State) (keep : BankAccess → Bool) : State :=
  (s.banks.map (·.1)).foldl (fun s k => s.setBank k { s.bank k with queue := (s.bank k).queue.filter keep }) s

theorem State.filterQueues_frame (s : State) (keep : BankAccess → Bool) : ∃ bs, s.filterQueues keep = { s with banks := bs } ∧
    ∀ k, ∃ q, ({ s with banks := bs } : State).bank k = { s.bank k with queue := q } := by
  unfold State.filterQueues
  generalize s.banks.map (·.1) = l
  induction l generalizing s with
  | nil => exact ⟨s.banks, rfl, fun k => ⟨_, rfl⟩⟩
  | cons j l ih =>
    obtain ⟨bs, heq, hq⟩ := ih (s.setBank j { s.bank j with queue := (s.bank j).queue.filter keep })
    refine ⟨bs, heq, fun k => ?_⟩
    obtain ⟨q, hk⟩ := hq k
    refine ⟨q, hk.trans ?_⟩
    rw [State.bank_setBank]
    split
    · next h => exact h ▸ rfl
    · rfl

/-- An access that is of no work item that pick tells. -/
def State.staysQueued (s : State) (pick : KsTask → Bool) (a : BankAccess) : Bool :=
  match a.item with
  | some i => !((s.ctl.items.filter (fun i => pick i.task)).map (·.id)).contains i
  | none => true

theorem State.dropTasks_eq (s : State) (pick : KsTask → Bool) : ∃ d da, s.dropTasks pick = { s.filterQueues (s.staysQueued pick) with
    ctl := { (s.filterQueues (s.staysQueued pick)).ctl with
      items := (s.filterQueues (s.staysQueued pick)).ctl.items.filter (fun i => !pick i.task), debt := d, debtAll := da } } :=
  ⟨_, _, rfl⟩

theorem State.spoils_dropTasks (s : State) (pick : KsTask → Bool) :
    s.Spoils (s.dropTasks pick) ∧ ∀ c, (s.dropTasks pick).set c = s.set c := by
  obtain ⟨d, da, heq⟩ := s.dropTasks_eq pick
  obtain ⟨bs, hf, hq⟩ := s.filterQueues_frame (s.staysQueued pick)
  rw [hf] at heq
  rw [heq]
  refine ⟨⟨rfl, rfl, fun k => ?_, rfl, fun _ => id⟩, fun c => by cases c <;> rfl⟩
  obtain ⟨q, hk⟩ := hq k
  have hk' : ({ s with banks := bs, ctl := { s.ctl with items := s.ctl.items.filter (fun i => !pick i.task), debt := d, debtAll := da } } :
      State).bank k = { s.bank k with queue := q } := hk
  rw [hk']

theorem State.spoils_spoilRun (s : State) (b : Bool) : s.Spoils (s.spoilRun b) ∧ ∀ c, (s.spoilRun b).set c = s.set c := by
  unfold State.spoilRun
  split
  · exact s.spoils_dropTasks _
  · unfold State.spoilSafe
    obtain ⟨hd, hset⟩ := s.spoils_dropTasks KsTask.ofRun
    generalize s.dropTasks KsTask.ofRun = v at hd hset
    generalize s.groupList = l
    have hfold : v.Spoils (l.foldl (fun s e => if e.2.lean then s else s.setGroup e.1 (some { e.2 with undef := true, cofUndef := true })) v) ∧
        ∀ c, (l.foldl (fun s e => if e.2.lean then s else s.setGroup e.1 (some { e.2 with undef := true, cofUndef := true })) v).set c = v.set c := by
      clear hset hd
      induction l generalizing v with
      | nil => exact ⟨.refl v, fun _ => rfl⟩
      | cons e l ih =>
        rw [List.foldl_cons]
        split
        · exact ih v
        · obtain ⟨h1, h2⟩ := ih (v.setGroup e.1 (some { e.2 with undef := true, cofUndef := true }))
          exact ⟨(v.spoils_setGroup _ _).trans h1, fun c => (h2 c).trans (by cases c <;> rfl)⟩
    exact ⟨hd.trans hfold.1, fun c => (hfold.2 c).trans (hset c)⟩

/-- The intake of a step ends: its seals are answered, and what its contributors hold (R66). -/
theorem State.spoils_dropIntake (s : State) (b : Bool) : s.Spoils (s.dropIntake b) ∧
    ∀ c, ∃ sl cs, (s.dropIntake b).set c = if c = b then { s.set b with seals := sl, contribs := cs } else s.set c := by
  have hfold (l : List HeldSeal) (u : State) : u.Spoils (l.foldl (fun s h => s.errResp h.src h.tag fbNotReady) u) ∧
      ∀ c, (l.foldl (fun s h => s.errResp h.src h.tag fbNotReady) u).set c = u.set c := by
    induction l generalizing u with
    | nil => exact ⟨.refl u, fun _ => rfl⟩
    | cons x l ih =>
      obtain ⟨h1, h2⟩ := ih (u.errResp x.src x.tag fbNotReady)
      exact ⟨(u.spoils_errResp _ _ _).trans h1, fun c => (h2 c).trans (u.set_errResp _ _ _ c)⟩
  unfold State.dropIntake
  dsimp only
  obtain ⟨h1, h2⟩ := hfold (s.set b).seals s
  generalize (s.set b).seals.foldl (fun s h => s.errResp h.src h.tag fbNotReady) s = v at h1 h2
  generalize hx : ({ s.set b with seals := [], contribs := (s.set b).contribs.map (fun e =>
    if e.2.state = .held then (e.1, { e.2 with state := .notSealed }) else e) } : StepSet) = x
  have h3 := v.spoils_setSet b x
  have h4 := v.set_setSet b x
  generalize v.setSet b x = w at h3 h4
  refine ⟨(h1.trans h3).trans ⟨rfl, rfl, fun _ => rfl, rfl, fun _ => id⟩, fun c => ⟨x.seals, x.contribs, ?_⟩⟩
  have hset : ({ w with ctl := { w.ctl with staged := w.ctl.staged.filter (fun l => l.setB != b) } } : State).set c = w.set c := by
    cases c <;> rfl
  rw [hset, h4, h2, ← hx]

/-- The step of a set is ABANDONED; its seal record stands. -/
structure StepSet.Abandons (x y : StepSet) : Prop where
  state : y.state = .abandoned
  held : y.held = false
  verdict : y.verdict = none
  rec0 : y.rec0 = x.rec0
  rec1 : y.rec1 = x.rec1

/-- Steps 1 and 2 of R332 leave the other step, and end this one. -/
theorem State.spoils_abandonSet (s : State) (b : Bool) : s.Spoils (s.abandonSet b) ∧ (s.set b).Abandons ((s.abandonSet b).set b) ∧
    (s.abandonSet b).set (!b) = s.set (!b) ∧ (s.abandonSet b).regs.irqStatus.getLsbD 2 = true := by
  unfold State.abandonSet
  dsimp only
  have hrun : s.Spoils (if (s.set b).state = .updating then s.spoilRun b else s) ∧
      ∀ c, (if (s.set b).state = .updating then s.spoilRun b else s).set c = s.set c := by
    split
    · exact s.spoils_spoilRun b
    · exact ⟨.refl s, fun _ => rfl⟩
  generalize (if (s.set b).state = .updating then s.spoilRun b else s) = v at hrun
  obtain ⟨h1, h2⟩ := hrun
  obtain ⟨h3, h4⟩ := v.spoils_dropIntake b
  generalize v.dropIntake b = w at h3 h4
  unfold State.freezeLow
  dsimp only
  generalize hx : ({ w.set b with groups := (w.set b).groups.map (fun e => (e.1, match w.group e.1 with
    | some g => { e.2 with low := g.low }
    | none => e.2)) } : StepSet) = x
  have h5 := w.spoils_setSet b x
  have h6 := w.set_setSet b x
  generalize w.setSet b x = y at h5 h6
  have h7 := y.spoils_setSet b { y.set b with state := .abandoned, held := false, verdict := none, run := none }
  have h8 := y.set_setSet b { y.set b with state := .abandoned, held := false, verdict := none, run := none }
  generalize y.setSet b { y.set b with state := .abandoned, held := false, verdict := none, run := none } = z at h7 h8
  have hset (c : Bool) : (z.irq .stepEvent).set c = z.set c := by cases c <;> rfl
  obtain ⟨sl, cs, hb⟩ := h4 b
  obtain ⟨_, _, hnb⟩ := h4 (!b)
  have hne : (!b) ≠ b := by cases b <;> decide
  rw [if_pos rfl, h2] at hb
  rw [if_neg hne, h2] at hnb
  refine ⟨(((h1.trans h3).trans h5).trans h7).trans (z.spoils_irq _), ?_, ?_, ?_⟩
  · rw [hset, h8, if_pos rfl, h6, if_pos rfl, ← hx, hb]
    exact ⟨rfl, rfl, rfl, rfl, rfl⟩
  · rw [hset, h8, if_neg hne, h6, if_neg hne, hnb]
  · simp [State.irq, Irq.bit]

end Sys2Proof.Machine
end

section

/-!
PROOF. Steps open and take verdicts (O48): OPEN_STEP, VERDICT with ABANDON, and the end of a verdict's record (R271 to R273, R327 to R332).
-/

namespace Sys2Proof.Machine

variable {s t u : State} {h : Nat} {b : Bool}

/-! ### What leaves the steps as they are -/

/-- t has the steps, the epoch and the latches of s, and no cause has fallen. -/
structure State.KeepsSteps (s t : State) : Prop where
  sets : ∀ c, t.set c = s.set c
  epoch : t.ctl.epoch = s.ctl.epoch
  latches : t.latches = s.latches
  rises : ∀ i, s.regs.irqStatus.getLsbD i = true → t.regs.irqStatus.getLsbD i = true

theorem State.KeepsSteps.refl (s : State) : s.KeepsSteps s := ⟨fun _ => rfl, rfl, rfl, fun _ => id⟩

theorem State.KeepsSteps.trans (h : s.KeepsSteps t) (h' : t.KeepsSteps u) : s.KeepsSteps u where
  sets c := (h'.sets c).trans (h.sets c)
  epoch := h'.epoch.trans h.epoch
  latches := h'.latches.trans h.latches
  rises i hi := h'.rises i (h.rises i hi)

theorem State.set_congr {c : Bool} (h : t.ctl.setA = s.ctl.setA) (h' : t.ctl.setB = s.ctl.setB) : t.set c = s.set c := by
  cases c
  · exact h
  · exact h'

theorem State.Works.keepsSteps (h : s.Works t) : s.KeepsSteps t where
  sets c := State.set_congr (by rw [h.ctl]) (by rw [h.ctl])
  epoch := by rw [h.ctl]
  latches := h.latches
  rises := h.rises

theorem State.SameButCauses.keepsSteps (h : s.SameButCauses t) : s.KeepsSteps t := by
  obtain ⟨x, h⟩ := h
  rw [h]
  exact ⟨fun c => by cases c <;> rfl, rfl, rfl, fun i hi => by simp [hi]⟩

theorem State.keepsSteps_wroteRecord (s : State) : s.KeepsSteps s.wroteRecord := by
  obtain ⟨cs, fb, n, heq⟩ := s.wroteRecord_frame
  rw [heq]
  exact ⟨fun c => by cases c <;> rfl, rfl, rfl, fun _ => id⟩

theorem State.keepsSteps_finish (s : State) (h : Nat) : s.KeepsSteps (s.finish h .okay 0 []) := by
  unfold State.finish
  dsimp only
  split
  · exact ⟨fun c => by cases c <;> rfl, rfl, rfl, fun _ => id⟩
  · exact ((s.completes_complete (bs := []) h _ .okay (by decide)).causes rfl).keepsSteps

/-! ### A line of the record -/

theorem State.rises_lintelIssue (s : State) (copy : Bool) (bs : List Byte) (i : Nat) (hi : s.regs.irqStatus.getLsbD i = true) :
    (s.lintelIssue copy bs).regs.irqStatus.getLsbD i = true := by
  have hput (n : Nat) (u : State) (hu : u.regs.irqStatus.getLsbD i = true) : (u.lintelPutBytes copy bs n).regs.irqStatus.getLsbD i = true := by
    induction n generalizing u with
    | zero => simp [State.lintelPutBytes, State.irq, hu]
    | succ n ih =>
      unfold State.lintelPutBytes
      dsimp only
      generalize hv : ((u.rowAccess (lintelBank copy) 9208 [lintelColumn true]).putLine (u.lintelLine copy) bs).rowAccess (lintelBank copy) 9208
        [lintelColumn false] = v
      have hregs : v.regs = u.regs := by
        rw [← hv, State.regs_rowAccess, State.putLine, State.regs_writePlaces, State.regs_rowAccess]
      have hv' : v.regs.irqStatus.getLsbD i = true := by rw [hregs]; exact hu
      split
      · exact hv'
      · exact ih v hv'
  unfold State.lintelIssue
  refine hput 4 _ ?_
  unfold State.fullRefresh
  split
  · exact hi
  · exact hi

/-- A line of the record is written, or waits: what it leaves (R345, R347). -/
structure State.PutsOrWaits (copy : Bool) (s t : State) : Prop where
  ctl : t.ctl = { s.ctl with lintel := t.ctl.lintel }
  mbox : t.mbox = s.mbox
  mortar : t.mortar = s.mortar
  hasps : t.hasps = s.hasps
  latches : t.latches = s.latches
  word : ∀ w, (∀ p ∈ s.lintelLine copy, p.word ≠ w) → t.word .stack w = s.word .stack w
  rises : ∀ i, s.regs.irqStatus.getLsbD i = true → t.regs.irqStatus.getLsbD i = true

theorem State.lintelPut_waits {copy : Bool} (hwait : s.ctl.lintel ≠ [] ∨ s.lintelOpen none copy = false) (epoch : Nat) :
    s.lintelPut copy epoch = ({ s with ctl := { s.ctl with
      lintel := s.ctl.lintel ++ [{ copy := copy, bytes := s.lintelBytes epoch, seq := s.seq }] } } : State).bump := by
  unfold State.lintelPut
  dsimp only
  rw [if_neg]
  rw [Bool.and_eq_true, List.isEmpty_iff, not_and, Bool.not_eq_true]
  obtain h | h := hwait
  · exact fun h' => absurd h' h
  · exact fun _ => h

theorem State.putsOrWaits_lintelPut (s : State) (copy : Bool) (epoch : Nat) : State.PutsOrWaits copy s (s.lintelPut copy epoch) := by
  by_cases hgo : s.ctl.lintel = [] ∧ s.lintelOpen none copy = true
  · rw [State.lintelPut_now hgo.1 hgo.2]
    have hp := s.putsCopy_lintelIssue (copy := copy) (s.lintelBytes epoch)
    have hr := s.rises_lintelIssue copy (s.lintelBytes epoch)
    generalize s.lintelIssue copy (s.lintelBytes epoch) = v at hp hr
    have hf := hp.frame
    have hctl : v.ctl = s.ctl := by rw [hf]
    refine ⟨?_, ?_, ?_, ?_, ?_, hp.word, hr⟩
    · rw [hctl]
    all_goals rw [hf]
  · rw [State.lintelPut_waits (by
      by_cases hl : s.ctl.lintel = []
      · exact .inr (Bool.eq_false_iff.2 fun h => hgo ⟨hl, h⟩)
      · exact .inl hl)]
    exact ⟨rfl, rfl, rfl, rfl, rfl, fun _ _ => rfl, fun _ => id⟩

theorem State.PutsOrWaits.keepsSteps {copy : Bool} (h : State.PutsOrWaits copy s t) : s.KeepsSteps t where
  sets c := State.set_congr (by rw [h.ctl]) (by rw [h.ctl])
  epoch := by rw [h.ctl]
  latches := h.latches
  rises := h.rises

theorem State.keepsSteps_lintelWrite (s : State) : s.KeepsSteps s.lintelWrite := by
  have h0 : s.KeepsSteps s.lintelSeq := ⟨fun c => by cases c <;> rfl, rfl, rfl, fun _ => id⟩
  exact (h0.trans (State.putsOrWaits_lintelPut _ _ _).keepsSteps).trans (State.putsOrWaits_lintelPut _ _ _).keepsSteps

/-- A command that runs on, and leaves the words outside the record: so does the command. -/
theorem State.RunsOn.sameMemoryButRecord {v : State} (hr : State.RunsOn h v t)
    (hstack : ∀ w, (∀ c, ∀ p ∈ s.lintelLine c, p.word ≠ w) → v.word .stack w = s.word .stack w)
    (hmortar : v.mortar = s.mortar) (hhasps : v.hasps = s.hasps) (hhasp : ∀ j, j ≠ h → v.hasp j = s.hasp j) : SameMemoryButRecord h s t := by
  intro sp w hsp hq hw
  cases sp with
  | pages => exact absurd rfl hsp
  | stack => exact (hr.causes.sameButAnswers.word (by decide) hsp w).trans (hstack w (hw rfl))
  | mortar =>
    refine (hr.causes.sameButAnswers.word (by decide) hsp w).trans ?_
    simp only [State.word, hmortar]
  | hasp =>
    have hquiet := hq rfl
    have hsame := hr.storage (w / 256) ((State.badStatus_congr (hhasp _ hquiet.1)).trans hquiet.2)
    have hv : v.word .hasp w = s.word .hasp w := by simp only [State.word, hhasps]
    have ht : t.word .hasp w = v.word .hasp w := Prod.ext (hsame.data rfl) (hsame.2 w rfl)
    exact ht.trans hv

/-! ### OPEN_STEP -/

theorem State.Counted.ctabBad (hc : s.Counted t) (vs : List (BondData × Bool)) (n : Nat) : t.ctabBad vs n = s.ctabBad vs n := by
  have hm : t.member = s.member := by
    funext n
    have hregs := hc.regs
    rw [Regs.SameButCounts] at hregs
    have hn : t.nodeId = s.nodeId := by rw [hc.same]
    simp only [State.member, hn]
    rw [hregs]
  simp only [State.ctabBad, hm]

theorem mortarPlace_space (o : Nat) : (mortarPlace o).space = .mortar := rfl

/-- OPEN_STEP with its checks met (R272, R273). -/
theorem State.openStep_opens (hinc : s.importIncomplete = false)
    (hfree : (s.ctl.setA.inIntake || s.ctl.setB.inIntake || (s.ctl.setA.held && s.ctl.setB.held)) = false)
    (hbad : s.openBad (s.hasp h) = none)
    (hct : s.ctabBad ((ctabPlaces ((s.hasp h).pay 16 4)).map s.peek) ((s.hasp h).pay 20 2) = none)
    (hstep : (s.hasp h).pay 0 8 = s.ctl.epoch.toNat + s.heldSteps.length) :
    ∃ v, s.Counted v ∧ s.openStep h = (((v.setSet (bit ((s.hasp h).pay 24 1) 0)
      (s.openedStep (s.hasp h) (ctabExpected (ctabEntries ((ctabPlaces ((s.hasp h).pay 16 4)).map s.peek))))).newWork false).bump).holdSerial h := by
  have hspace : ∀ p ∈ ctabPlaces ((s.hasp h).pay 16 4), p.space ≠ .pages := by
    intro p hp
    obtain ⟨i, -, rfl⟩ := List.mem_map.1 hp
    rw [mortarPlace_space]
    decide
  have hfst := s.readPlaces_fst { src := 4, agent := agentWarden } (ctabPlaces ((s.hasp h).pay 16 4)) hspace
  have hcnt : s.Counted (s.readPlaces { src := 4, agent := agentWarden } (ctabPlaces ((s.hasp h).pay 16 4))).2 := State.counted_readPlaces (.refl s)
  unfold State.openStep
  dsimp only
  rw [if_neg (by rw [hinc]; exact Bool.false_ne_true), if_neg (by rw [hfree]; exact Bool.false_ne_true), hbad]
  dsimp only
  generalize s.readPlaces { src := 4, agent := agentWarden } (ctabPlaces ((s.hasp h).pay 16 4)) = r at hfst hcnt
  obtain ⟨vs, v⟩ := r
  dsimp only at hfst hcnt ⊢
  rw [hfst, hcnt.ctabBad, hct]
  have hctl : v.ctl = s.ctl := by rw [hcnt.same]
  have hheld : v.heldSteps = s.heldSteps := by simp only [State.heldSteps, hctl]
  have hopened : ∀ x ex, v.openedStep x ex = s.openedStep x ex := fun x ex => by
    rw [hcnt.same]
    rfl
  dsimp only
  rw [if_neg (by rw [hctl, hheld]; exact fun hne => hne hstep), hopened]
  exact ⟨v, hcnt, rfl⟩

theorem State.newWork_frame (s : State) (ctx1 : Bool) : ∃ bs, s.newWork ctx1 = { s with banks := bs } := by
  unfold State.newWork
  dsimp only
  generalize s.banks.map (·.1) = l
  induction l generalizing s with
  | nil => exact ⟨s.banks, rfl⟩
  | cons k l ih =>
    obtain ⟨bs, heq⟩ := ih (s.setBank k { s.bank k with passed := if ctx1 = true then ((s.bank k).passed.1, 0) else (0, (s.bank k).passed.2) })
    exact ⟨bs, heq⟩

/-- The state of a step that has been opened, with the set's number and the mailbox held. -/
theorem State.opened_frame (v : State) (b : Bool) (x : StepSet) (h : Nat) :
    ∃ bs, ((((v.setSet b x).newWork false).bump).holdSerial h) =
      { v with banks := bs, ctl := (v.setSet b x).ctl, seq := v.seq + 1, mbox := { v.mbox with active := some h } } := by
  obtain ⟨bs, heq⟩ := (v.setSet b x).newWork_frame false
  rw [heq]
  refine ⟨bs, ?_⟩
  cases b <;> rfl

theorem exec_openStep (hturn : s.turn h 0x08) : exec (.openStep h) s = .next (s.runCommand h 0x08 (fun s => s.openStep h)) :=
  guard_eq_next.2 ⟨decide_eq_true hturn.1, rfl⟩

/-! ### VERDICT and ABANDON -/

/-- Step 5 of R332 marks the seal record invalid in both copies. -/
theorem State.abandonLast_spec (s : State) (b : Bool) : ∃ v, s.KeepsSteps v ∧ v.ctl = s.ctl ∧ v.mbox = s.mbox ∧
    s.abandonLast b = v.setSet b { s.set b with rec0 := false, rec1 := false } := by
  have hw : s.wroteRecord.Works (s.wroteRecord.clearIntake b) := State.works_clearIntake (.refl _)
  obtain ⟨cs, fb, n, heq⟩ := s.wroteRecord_frame
  have hk := s.keepsSteps_wroteRecord.trans hw.keepsSteps
  have hctl : (s.wroteRecord.clearIntake b).ctl = s.ctl := by rw [hw.ctl, heq]
  have hmbox : (s.wroteRecord.clearIntake b).mbox = s.mbox := by rw [hw.mbox, heq]
  refine ⟨_, hk, hctl, hmbox, ?_⟩
  unfold State.abandonLast
  dsimp only
  rw [hk.sets]

/-- A step that is at its end: but for its seal record, y is x. -/
def StepSet.SameButRecord (x y : StepSet) : Prop := y = { x with rec0 := y.rec0, rec1 := y.rec1 }

/-- What steps 3 to 5 of R332 leave: the steps but for their seal records, the epoch, the latches and the causes. -/
structure State.Abandons (b later : Bool) (s t : State) : Prop where
  this : (s.set b).SameButRecord (t.set b)
  other : if later then (s.set (!b)).SameButRecord (t.set (!b)) else t.set (!b) = s.set (!b)
  epoch : t.ctl.epoch = s.ctl.epoch
  latches : t.latches = s.latches
  rises : ∀ i, s.regs.irqStatus.getLsbD i = true → t.regs.irqStatus.getLsbD i = true

theorem State.KeepsSteps.abandons (h : s.KeepsSteps t) (b later : Bool) : s.Abandons b later t where
  this := by
    rw [h.sets]
    rfl
  other := by
    rw [h.sets]
    split <;> rfl
  epoch := h.epoch
  latches := h.latches
  rises := h.rises

theorem State.Abandons.trans {later : Bool} (h : s.Abandons b later t) (h' : t.Abandons b later u) : s.Abandons b later u where
  this := by
    have h1 := h.this
    have h2 := h'.this
    rw [StepSet.SameButRecord] at *
    rw [h2, h1]
  other := by
    have h1 := h.other
    have h2 := h'.other
    split at h1
    · next hl =>
      rw [if_pos hl] at h2 ⊢
      rw [StepSet.SameButRecord] at *
      rw [h2, h1]
    · next hl =>
      rw [if_neg hl] at h2 ⊢
      exact h2.trans h1
  epoch := h'.epoch.trans h.epoch
  latches := h'.latches.trans h.latches
  rises i hi := h'.rises i (h.rises i hi)

theorem State.abandons_abandonLast (s : State) (b later : Bool) : s.Abandons b later (s.abandonLast b) ∧
    (later = true → s.Abandons b later (s.abandonLast (!b))) := by
  have hset (c d : Bool) : (s.abandonLast c).set d = if d = c then { s.set c with rec0 := false, rec1 := false } else s.set d := by
    obtain ⟨v, hk, -, -, heq⟩ := s.abandonLast_spec c
    rw [heq, State.set_setSet, hk.sets]
  have hrest (c : Bool) : (s.abandonLast c).ctl.epoch = s.ctl.epoch ∧ (s.abandonLast c).latches = s.latches ∧
      ∀ i, s.regs.irqStatus.getLsbD i = true → (s.abandonLast c).regs.irqStatus.getLsbD i = true := by
    obtain ⟨v, hk, -, -, heq⟩ := s.abandonLast_spec c
    have hs := v.spoils_setSet c { s.set c with rec0 := false, rec1 := false }
    rw [heq]
    refine ⟨?_, ?_, fun i hi => hs.rises i (hk.rises i hi)⟩
    · rw [hs.steps]
      exact hk.epoch
    · rw [hs.frame]
      exact hk.latches
  have hne : (!b) ≠ b := by cases b <;> decide
  refine ⟨⟨?_, ?_, (hrest b).1, (hrest b).2.1, (hrest b).2.2⟩, fun hl => ⟨?_, ?_, (hrest _).1, (hrest _).2.1, (hrest _).2.2⟩⟩
  · rw [hset, if_pos rfl]
    rfl
  · rw [hset, if_neg hne]
    split <;> rfl
  · rw [hset, if_neg hne.symm]
    rfl
  · rw [hl, if_pos rfl, hset, if_pos rfl]
    rfl

theorem State.abandons_abandonEnd (s : State) (h : Nat) (b later : Bool) : s.Abandons b later (s.abandonEnd h b later) := by
  unfold State.abandonEnd
  dsimp only
  refine State.Abandons.trans ?_ ((State.keepsSteps_finish _ _).abandons _ _)
  have h1 := (s.abandons_abandonLast b later).1
  split
  · next hl => exact h1.trans (((s.abandonLast b).abandons_abandonLast b later).2 hl)
  · exact h1

/-- Step 5 ends in a completion, with the seal record of the step invalid. -/
theorem State.abandonEnd_finishes (s : State) (h : Nat) (b later : Bool) : ∃ v : State, s.abandonEnd h b later = v.finish h .okay 0 [] ∧
    v.ctl.lintel = s.ctl.lintel ∧ v.ctl.seq = s.ctl.seq ∧ (v.set b).rec0 = false ∧ (v.set b).rec1 = false := by
  have hlast (s : State) (c : Bool) : (s.abandonLast c).ctl.lintel = s.ctl.lintel ∧ (s.abandonLast c).ctl.seq = s.ctl.seq ∧
      ∀ d, (s.abandonLast c).set d = if d = c then { s.set c with rec0 := false, rec1 := false } else s.set d := by
    obtain ⟨v, hk, hctl, -, heq⟩ := s.abandonLast_spec c
    have hs := (v.spoils_setSet c { s.set c with rec0 := false, rec1 := false }).steps
    rw [heq]
    refine ⟨?_, ?_, fun d => ?_⟩
    · rw [hs, hctl]
    · rw [hs, hctl]
    · rw [State.set_setSet, hk.sets]
  have hne : b ≠ !b := by cases b <;> decide
  obtain ⟨h1, h2, h3⟩ := hlast s b
  obtain ⟨h1', h2', h3'⟩ := hlast (s.abandonLast b) (!b)
  have hb := h3 b
  rw [if_pos rfl] at hb
  refine ⟨_, rfl, ?_⟩
  split
  · rw [h1', h2', h1, h2, h3', if_neg hne, hb]
    exact ⟨rfl, rfl, rfl, rfl⟩
  · rw [h1, h2, hb]
    exact ⟨rfl, rfl, rfl, rfl⟩

theorem State.abandons_abandonRest (s : State) (h : Nat) (b : Bool) (ns : List Nat) (later clears : Bool) :
    s.Abandons b later (s.abandonRest h b ns later clears) := by
  have hw : s.KeepsSteps (s.restoreCoffer ns) := (State.works_restoreCoffer (.refl s)).keepsSteps
  have hl : s.KeepsSteps (if clears then (s.restoreCoffer ns).lintelWrite else s.restoreCoffer ns) := by
    split
    · exact hw.trans (State.keepsSteps_lintelWrite _)
    · exact hw
  unfold State.abandonRest
  dsimp only
  generalize (if clears then (s.restoreCoffer ns).lintelWrite else s.restoreCoffer ns) = v at hl
  refine (hl.abandons b later).trans ?_
  split
  · exact State.abandons_abandonEnd _ _ _ _
  · have hk : v.KeepsSteps ((v.addTask (.abandoned h b later)).holdSerial h) := ⟨fun c => by cases c <;> rfl, rfl, rfl, fun _ => id⟩
    exact hk.abandons b later

/-- Where a record can be written now, steps 3 to 5 go through. -/
theorem State.abandonRest_ends (hready : s.recordReady) (h : Nat) (b : Bool) (ns : List Nat) (later clears : Bool) :
    ∃ v : State, s.abandonRest h b ns later clears = v.finish h .okay 0 [] ∧ v.ctl.lintel = [] ∧
      v.ctl.seq = (if clears then s.ctl.seq + 1 else s.ctl.seq) ∧ (v.set b).rec0 = false ∧ (v.set b).rec1 = false := by
  have hw : s.Works (s.restoreCoffer ns) := State.works_restoreCoffer (.refl s)
  have hr := hw.recordReady hready
  have hctl := hw.ctl
  have ⟨_, hlines, _⟩ := hr
  unfold State.abandonRest
  dsimp only
  generalize s.restoreCoffer ns = w at hr hctl hlines
  have hw' : (if clears then w.lintelWrite else w).ctl.lintel = [] ∧
      (if clears then w.lintelWrite else w).ctl.seq = (if clears then s.ctl.seq + 1 else s.ctl.seq) := by
    cases clears
    · exact ⟨hlines, by rw [← hctl]; rfl⟩
    · have hc := (State.writesCopies_lintelWrite hr).ctl
      simp only [if_true]
      rw [hc]
      exact ⟨hlines, by rw [← hctl]; rfl⟩
  generalize (if clears then w.lintelWrite else w) = v at hw'
  obtain ⟨hv, hq⟩ := hw'
  rw [hv, List.isEmpty_nil, if_pos rfl]
  obtain ⟨x, h1, h2, h3, h4, h5⟩ := v.abandonEnd_finishes h b later
  exact ⟨x, h1, h2.trans hv, h3.trans hq, h4, h5⟩

/-- The state after steps 1 and 2 of R332 for the step and, where it goes with it, the one after it. -/
def State.abandonBoth (s : State) (b later : Bool) : State :=
  if later then (s.abandonSet b).abandonSet (!b) else s.abandonSet b

theorem State.abandonBoth_spec (s : State) (b later : Bool) : s.Spoils (s.abandonBoth b later) ∧
    (s.set b).Abandons ((s.abandonBoth b later).set b) ∧
    (if later then (s.set (!b)).Abandons ((s.abandonBoth b later).set (!b)) else (s.abandonBoth b later).set (!b) = s.set (!b)) ∧
    (s.abandonBoth b later).regs.irqStatus.getLsbD 2 = true := by
  obtain ⟨h1, h2, h3, h4⟩ := s.spoils_abandonSet b
  cases later
  · exact ⟨h1, h2, h3, h4⟩
  · obtain ⟨h1', h2', h3', h4'⟩ := (s.abandonSet b).spoils_abandonSet (!b)
    rw [Bool.not_not] at h3'
    rw [h3] at h2'
    refine ⟨h1.trans h1', ?_, h2', h4'⟩
    have hb : (s.abandonBoth b true).set b = (s.abandonSet b).set b := h3'
    rw [hb]
    exact h2

theorem State.abandonCmd_eq (s : State) (h : Nat) (b : Bool) :
    let later := (s.set (!b)).held && (s.set (!b)).step == (s.set b).step + 1
    let clears := later && (s.set (!b)).verdict.isSome
    let acc := (s.abandonBoth b later).deriveAll (s.takenGroups b)
    let x := (s.abandonBoth b later).ksAccess (rowPlan acc) ((acc.map (fun a => ksSectorsOf a.2)).sum) (.derive h b (s.takenGroups b) later clears)
    s.abandonCmd h b = if x.2 then x.1.holdSerial h else x.1.abandonRest h b (s.takenGroups b) later clears := rfl

/-- What an ABANDON leaves, whether it goes through or waits. -/
theorem State.abandons_abandonCmd (s : State) (h : Nat) (b : Bool) :
    let later := (s.set (!b)).held && (s.set (!b)).step == (s.set b).step + 1
    (s.abandonBoth b later).Abandons b later (s.abandonCmd h b) := by
  intro later
  rw [State.abandonCmd_eq]
  generalize s.takenGroups b = ns
  generalize (later && (s.set (!b)).verdict.isSome) = clears
  generalize s.abandonBoth b later = u
  generalize (u.deriveAll ns).map (fun a => ksSectorsOf a.2) = costs
  generalize rowPlan (u.deriveAll ns) = plan
  cases hgo : u.goes plan costs.sum with
  | true =>
    have hx : (u.ksAccess plan costs.sum (.derive h b ns later clears)).2 = false := u.ksMove_goes _ _ _ _ hgo
    have hw : u.Works (u.ksAccess plan costs.sum (.derive h b ns later clears)).1 := State.works_ksAccess (.refl u) hgo
    rw [hx, if_neg Bool.false_ne_true]
    exact (hw.keepsSteps.abandons b later).trans (State.abandons_abandonRest _ _ _ _ _ _)
  | false =>
    obtain ⟨hx, cs, bs, n, q, p, i, -, heq⟩ := u.ksAccess_waits (.derive h b ns later clears) hgo
    rw [hx, if_pos rfl, heq]
    apply State.KeepsSteps.abandons
    constructor
    · intro c
      cases c <;> rfl
    · rfl
    · rfl
    · exact fun _ => id

theorem exec_verdict (hturn : s.turn h 0x0A) (hbusy : s.recordBusy = false) :
    exec (.verdict h) s = .next (s.runCommand h 0x0A (fun s => s.verdictCmd h)) :=
  guard_eq_next.2 ⟨decide_eq_true hturn.1, (if_neg (by rw [hbusy]; exact Bool.false_ne_true)).symm⟩

/-- The state with the verdict of hasp h on the step of set b, and the number of its record (R329, R346). -/
def State.verdictGiven (s : State) (h : Nat) (b : Bool) : State :=
  (s.setSet b { s.set b with verdict := some ((s.set b).given ((s.hasp h).pay 8 1 % 4) (BitVec.ofNat 32 ((s.hasp h).pay 12 4))
    (BitVec.ofNat 8 ((s.hasp h).pay 9 1))) }).lintelSeq

/-- The state in which copy 0 of a verdict's record is written, or waits, and the mailbox is held (R330). -/
def State.verdictWritten (s : State) (h : Nat) (b : Bool) : State :=
  ({ s.lintelPut false s.ctl.epoch.toNat with ctl := { (s.lintelPut false s.ctl.epoch.toNat).ctl with writing := some (.verdict h b) } } :
    State).holdSerial h

theorem State.verdictStatus_ne_okay {kind : Nat} {st : MStatus} (hs : s.verdictStatus b kind = some st) : st ≠ .okay := by
  unfold State.verdictStatus at hs
  dsimp only at hs
  split at hs
  · cases hs
    decide
  · split at hs
    · cases hs
    · split at hs <;> cases hs
      decide
    · split at hs <;> cases hs
      decide
    · cases hs
      decide

section
variable (hset : s.heldSet ((s.hasp h).pay 0 8) = some b)
include hset

/-- A second verdict on a step (R329, R331). -/
theorem State.verdictCmd_again {w : Verdict} (hw : (s.set b).verdict = some w)
    (hk : (s.hasp h).pay 8 1 % 4 < 2 ∧ (f32IsFin (BitVec.ofNat 32 ((s.hasp h).pay 12 4)) && f32Lt 0 (BitVec.ofNat 32 ((s.hasp h).pay 12 4))) = true ∨
      (s.hasp h).pay 8 1 % 4 = 2) :
    s.verdictCmd h = s.finish h (if (s.hasp h).pay 8 1 % 4 ≠ 2 ∧ w = (s.set b).given ((s.hasp h).pay 8 1 % 4)
      (BitVec.ofNat 32 ((s.hasp h).pay 12 4)) (BitVec.ofNat 8 ((s.hasp h).pay 9 1)) then .okay else .verdictDone) 0 [] := by
  unfold State.verdictCmd
  dsimp only
  rw [if_neg (by omega), if_neg, hset]
  · dsimp only
    rw [hw]
    dsimp only
    split <;> rfl
  · obtain ⟨-, hc⟩ | h2 := hk
    · rw [hc]
      simp
    · exact fun hne => hne.1 h2

/-- A COMMIT or COMMIT_MASKED that R328 refuses. -/
theorem State.verdictCmd_refused {st : MStatus} (hw : (s.set b).verdict = none) (hk : (s.hasp h).pay 8 1 % 4 < 2)
    (hc : (f32IsFin (BitVec.ofNat 32 ((s.hasp h).pay 12 4)) && f32Lt 0 (BitVec.ofNat 32 ((s.hasp h).pay 12 4))) = true)
    (hst : s.verdictStatus b ((s.hasp h).pay 8 1 % 4) = some st) : s.verdictCmd h = s.finish h st 0 [] := by
  unfold State.verdictCmd
  dsimp only
  rw [if_neg (by omega), if_neg (by rw [hc]; simp), hset]
  dsimp only
  rw [hw]
  dsimp only
  rw [if_neg (by omega), hst]

/-- A COMMIT or COMMIT_MASKED that is recorded (R330). -/
theorem State.verdictCmd_recorded (hw : (s.set b).verdict = none) (hk : (s.hasp h).pay 8 1 % 4 < 2)
    (hc : (f32IsFin (BitVec.ofNat 32 ((s.hasp h).pay 12 4)) && f32Lt 0 (BitVec.ofNat 32 ((s.hasp h).pay 12 4))) = true)
    (hst : s.verdictStatus b ((s.hasp h).pay 8 1 % 4) = none) : s.verdictCmd h = (s.verdictGiven h b).verdictWritten h b := by
  unfold State.verdictCmd
  dsimp only
  rw [if_neg (by omega), if_neg (by rw [hc]; simp), hset]
  dsimp only
  rw [hw]
  dsimp only
  rw [if_neg (by omega), hst]
  rfl

/-- An ABANDON. -/
theorem State.verdictCmd_abandon (hw : (s.set b).verdict = none) (hk : (s.hasp h).pay 8 1 % 4 = 2) : s.verdictCmd h = s.abandonCmd h b := by
  unfold State.verdictCmd
  dsimp only
  rw [if_neg (by omega), if_neg (fun hne => hne.1 hk), hset]
  dsimp only
  rw [hw]
  dsimp only
  rw [if_pos hk]

end

end Sys2Proof.Machine
end

section

/-!
PROOF. Steps open and take verdicts (O48): the clauses of the statement.
-/

namespace Sys2Proof.Machine

variable {s t u : State} {h : Nat} {b : Bool}

theorem State.openBad_congr {x y : Hasp} (hp : x.pay = y.pay) : s.openBad x = s.openBad y := by
  simp only [State.openBad, hp]

theorem State.openedStep_congr {x y : Hasp} (hp : x.pay = y.pay) (ex : List (Nat × BitVec 14)) : s.openedStep x ex = s.openedStep y ex := by
  simp only [State.openedStep, hp]

/-- OPEN_STEP, from the state in which it begins to the one that it leaves. -/
theorem State.runsOn_openStep (hturn : s.turn h 0x08) (hinc : s.importIncomplete = false)
    (hfree : (s.ctl.setA.inIntake || s.ctl.setB.inIntake || (s.ctl.setA.held && s.ctl.setB.held)) = false)
    (hbad : s.openBad (s.hasp h) = none)
    (hct : s.ctabBad ((ctabPlaces ((s.hasp h).pay 16 4)).map s.peek) ((s.hasp h).pay 20 2) = none)
    (hstep : (s.hasp h).pay 0 8 = s.ctl.epoch.toNat + s.heldSteps.length) :
    ∃ v t, (s.begin_ h).Counted v ∧ exec (.openStep h) s = .next t ∧ State.RunsOn h ((((v.setSet (bit ((s.hasp h).pay 24 1) 0)
      (s.openedStep (s.hasp h) (ctabExpected (ctabEntries ((ctabPlaces ((s.hasp h).pay 16 4)).map s.peek))))).newWork false).bump).holdSerial h) t := by
  have hpay := s.pay_eq_begin h
  have hopen : ∀ ex, (s.begin_ h).openedStep ((s.begin_ h).hasp h) ex = s.openedStep (s.hasp h) ex := fun ex =>
    (State.openedStep_congr hpay ex).trans rfl
  have hbad' : (s.begin_ h).openBad ((s.begin_ h).hasp h) = none := (State.openBad_congr hpay).trans hbad
  have hr := State.runsOn_runCommand hturn (fun s => s.openStep h)
  obtain ⟨v, hc, hbody⟩ := State.openStep_opens (s := s.begin_ h) (h := h) hinc hfree hbad' (by rw [hpay]; exact hct) (by rw [hpay]; exact hstep)
  rw [hpay, hopen] at hbody
  rw [hbody] at hr
  exact ⟨v, _, hc, exec_openStep hturn, hr⟩

theorem stepOpens (s : State) (h : Nat) (hturn : s.turn h 0x08) (hinc : s.importIncomplete = false)
    (hfree : (s.ctl.setA.inIntake || s.ctl.setB.inIntake || (s.ctl.setA.held && s.ctl.setB.held)) = false)
    (hbad : s.openBad (s.hasp h) = none)
    (hct : s.ctabBad ((ctabPlaces ((s.hasp h).pay 16 4)).map s.peek) ((s.hasp h).pay 20 2) = none)
    (hstep : (s.hasp h).pay 0 8 = s.ctl.epoch.toNat + s.heldSteps.length) :
    ∃ t, exec (.openStep h) s = .next t ∧
      t.set (bit ((s.hasp h).pay 24 1) 0) = s.openedStep (s.hasp h) (ctabExpected (ctabEntries ((ctabPlaces ((s.hasp h).pay 16 4)).map s.peek))) ∧
      t.set (!bit ((s.hasp h).pay 24 1) 0) = s.set (!bit ((s.hasp h).pay 24 1) 0) ∧
      t.mbox.active = some h ∧ (t.hasp h).state = .running ∧ t.ctl.epoch = s.ctl.epoch ∧ SameMemoryButHasp h s t ∧
      (s.noneBad → SameMemory s t) ∧ t.latches = s.latches ∧ t.groups = s.groups := by
  obtain ⟨v, t, hc, hx, hr⟩ := State.runsOn_openStep hturn hinc hfree hbad hct hstep
  generalize s.openedStep (s.hasp h) (ctabExpected (ctabEntries ((ctabPlaces ((s.hasp h).pay 16 4)).map s.peek))) = y at hr ⊢
  generalize bit ((s.hasp h).pay 24 1) 0 = b at hr ⊢
  have hself := s.hasp_begin_self h
  have hother : ∀ j, j ≠ h → (s.begin_ h).hasp j = s.hasp j := fun j hj => s.hasp_begin_ne hj
  have hmem : SameMemory s (s.begin_ h) := sameMemory_of_stores rfl rfl rfl rfl
  have hsets : ∀ c, (s.begin_ h).set c = s.set c := fun _ => rfl
  have hepoch : (s.begin_ h).ctl.epoch = s.ctl.epoch := rfl
  have hlat : (s.begin_ h).latches = s.latches := rfl
  have hgrp : (s.begin_ h).groups = s.groups := rfl
  generalize s.begin_ h = w at hc hself hother hmem hsets hepoch hlat hgrp
  have hvset := v.set_setSet b y
  have hvepoch : (v.setSet b y).ctl.epoch = v.ctl.epoch := by cases b <;> rfl
  obtain ⟨bs, hframe⟩ := v.opened_frame b y h
  rw [hframe] at hr
  have hvmem : SameMemory s v := hmem.trans hc.same.sameMemory
  have hvmbox : v.mbox = w.mbox := by rw [hc.same]
  have hvctl : v.ctl = w.ctl := by rw [hc.same]
  have hvlat : v.latches = w.latches := by rw [hc.same]
  have hvgrp : v.groups = w.groups := by rw [hc.same]
  have hvhasps : v.mbox.hasps = w.mbox.hasps := by rw [hvmbox]
  obtain ⟨z, hz⟩ : ∃ z : State, z =
      { v with banks := bs, ctl := (v.setSet b y).ctl, seq := v.seq + 1, mbox := { v.mbox with active := some h } } := ⟨_, rfl⟩
  rw [← hz] at hr
  have hk := hr.causes.keepsSteps
  have hhasp : ∀ j, z.hasp j = w.hasp j := fun j => by
    rw [hz]
    exact congrArg (fun m => Sparse.get Hasp.init m j) hvhasps
  have hrun : (z.hasp h).state = .running := by rw [hhasp, hself]
  have hset' : ∀ c, z.set c = (v.setSet b y).set c := fun c => by
    rw [hz]
    cases c <;> rfl
  have hmem' : SameMemory s z := hvmem.trans (sameMemory_of_stores (by rw [hz]) (by rw [hz]) (by rw [hz]) (by rw [hz]))
  have hactive : z.mbox.active = some h := by rw [hz]
  have hepoch' : z.ctl.epoch = s.ctl.epoch := by
    rw [← hepoch, ← hvctl, hz]
    exact hvepoch
  have hlat' : z.latches = s.latches := by rw [hz, ← hlat, ← hvlat]
  have hgrp' : z.groups = s.groups := by rw [hz, ← hgrp, ← hvgrp]
  clear hz hframe
  have hnp : (z.hasp h).state ≠ .pending := by rw [hrun]; exact nofun
  have hne : (!b) ≠ b := by cases b <;> decide
  have hzother : ∀ j, j ≠ h → z.hasp j = s.hasp j := fun j hj => (hhasp j).trans (hother j hj)
  refine ⟨t, hx, ?_, ?_, (hr.active h (State.badStatus_of_state_ne hnp)).2 hactive, ?_, hk.epoch.trans hepoch',
    hr.sameMemoryButHasp hmem' hzother, hr.sameMemory hmem' hzother hnp, hk.latches.trans hlat', ?_⟩
  · rw [hk.sets, hset', hvset, if_pos rfl]
  · rw [hk.sets, hset', hvset, if_neg hne]
    exact (State.set_congr (by rw [hvctl]) (by rw [hvctl])).trans (hsets _)
  · rw [hr.self hnp, hrun]
  · obtain ⟨x, hcause⟩ := hr.causes
    rw [hcause]
    exact hgrp'

/-! ### VERDICT -/

/-- A command that only answers. -/
theorem State.completes_body {op : Nat} {st : MStatus} {d : Nat} {bs : List Byte} {body : State → State} (hturn : s.turn h op)
    (hbody : body (s.begin_ h) = (s.begin_ h).finish h st d bs) (hlen : bs.length < 16) (hnow : st = .okay → s.ctl.lintel = []) :
    s.Completes (s.runCommand h op body) h st bs := by
  refine State.completes_runCommand hturn hlen ?_
  rw [hbody]
  exact ((s.begin_ h).completes_finish h d hlen hnow).of_begin

theorem State.lintel_of_not_busy (hbusy : s.recordBusy = false) : s.ctl.lintel = [] := by
  rw [State.recordBusy, Bool.or_eq_false_iff, Bool.not_eq_false', List.isEmpty_iff] at hbusy
  exact hbusy.2

/-- A verdict that is only answered. -/
theorem verdictAnswers {st : MStatus} (hturn : s.turn h 0x0A) (hbusy : s.recordBusy = false)
    (hbody : (s.begin_ h).verdictCmd h = (s.begin_ h).finish h st 0 []) :
    ∃ t, exec (.verdict h) s = .next t ∧ t.done h st ∧ t.ctl = s.ctl ∧ t.groups = s.groups ∧ SameMemoryButHasp h s t := by
  have hc := State.completes_body (body := fun s => s.verdictCmd h) hturn hbody (by decide) fun _ => State.lintel_of_not_busy hbusy
  refine ⟨_, exec_verdict hturn hbusy, hc.done, hc.frame.ctl, ?_, hc.sameMemoryButHasp⟩
  rw [hc.frame]

/-- A verdict that is recorded: what the state in which its record is written, or waits, holds. -/
theorem State.verdictWritten_spec (s : State) (h : Nat) (b : Bool) (v : Verdict) (hv : v = (s.set b).given ((s.hasp h).pay 8 1 % 4)
      (BitVec.ofNat 32 ((s.hasp h).pay 12 4)) (BitVec.ofNat 8 ((s.hasp h).pay 9 1))) :
    ∃ z, z = (s.verdictGiven h b).verdictWritten h b ∧ z.set b = { s.set b with verdict := some v } ∧ z.set (!b) = s.set (!b) ∧
      z.ctl.writing = some (.verdict h b) ∧ z.ctl.seq = s.ctl.seq + 1 ∧ z.ctl.epoch = s.ctl.epoch ∧ z.mbox = { s.mbox with active := some h } ∧
      z.mortar = s.mortar ∧ z.hasps = s.hasps ∧
      (∀ w, (∀ c, ∀ p ∈ s.lintelLine c, p.word ≠ w) → z.word .stack w = s.word .stack w) := by
  have hgiven : s.verdictGiven h b = (s.setSet b { s.set b with verdict := some v }).lintelSeq := by rw [hv]; rfl
  have hne : (!b) ≠ b := by cases b <;> decide
  have hg : (s.verdictGiven h b).set b = { s.set b with verdict := some v } ∧ (s.verdictGiven h b).set (!b) = s.set (!b) ∧
      (s.verdictGiven h b).ctl.seq = s.ctl.seq + 1 ∧ (s.verdictGiven h b).ctl.epoch = s.ctl.epoch ∧ (s.verdictGiven h b).mbox = s.mbox ∧
      (s.verdictGiven h b).mortar = s.mortar ∧ (s.verdictGiven h b).hasps = s.hasps ∧ (s.verdictGiven h b).lintelLine = s.lintelLine ∧
      (∀ w, (s.verdictGiven h b).word .stack w = s.word .stack w) := by
    rw [hgiven]
    cases b <;> exact ⟨rfl, rfl, rfl, rfl, rfl, rfl, rfl, rfl, fun _ => rfl⟩
  obtain ⟨h1, h2, h3, h4, h5, h6, h7, h8, h9⟩ := hg
  generalize s.verdictGiven h b = g at h1 h2 h3 h4 h5 h6 h7 h8 h9
  have hp := State.putsOrWaits_lintelPut g false g.ctl.epoch.toNat
  have hk := hp.keepsSteps
  have hz : g.verdictWritten h b = ({ g.lintelPut false g.ctl.epoch.toNat with
    ctl := { (g.lintelPut false g.ctl.epoch.toNat).ctl with writing := some (.verdict h b) } } : State).holdSerial h := rfl
  generalize g.lintelPut false g.ctl.epoch.toNat = l at hp hk hz
  rw [hz]
  refine ⟨_, rfl, ?_, ?_, rfl, ?_, ?_, ?_, ?_, ?_, fun w hw => ?_⟩
  · refine (State.set_congr rfl rfl : _ = l.set b).trans ?_
    rw [hk.sets, h1]
  · refine (State.set_congr rfl rfl : _ = l.set (!b)).trans ?_
    rw [hk.sets, h2]
  · refine Eq.trans ?_ h3
    rw [State.holdSerial]
    dsimp only
    rw [hp.ctl]
  · exact hk.epoch.trans h4
  · rw [← h5, ← hp.mbox]
    rfl
  · exact hp.mortar.trans h6
  · exact hp.hasps.trans h7
  · refine (?_ : _ = l.word .stack w).trans ((hp.word w ?_).trans (h9 w))
    · rfl
    · rw [h8]
      exact hw false

theorem verdictRecords (hturn : s.turn h 0x0A) (hbusy : s.recordBusy = false) (v : Verdict)
    (hv : v = (s.set b).given ((s.hasp h).pay 8 1 % 4) (BitVec.ofNat 32 ((s.hasp h).pay 12 4)) (BitVec.ofNat 8 ((s.hasp h).pay 9 1)))
    (hbody : (s.begin_ h).verdictCmd h = ((s.begin_ h).verdictGiven h b).verdictWritten h b) :
    ∃ t, exec (.verdict h) s = .next t ∧ t.set b = { s.set b with verdict := some v } ∧ t.ctl.writing = some (.verdict h b) ∧
      t.mbox.active = some h ∧ t.ctl.seq = s.ctl.seq + 1 ∧ t.set (!b) = s.set (!b) ∧ t.ctl.epoch = s.ctl.epoch ∧
      SameMemoryButRecord h s t := by
  have hr := State.runsOn_runCommand hturn (fun s => s.verdictCmd h)
  rw [hbody] at hr
  obtain ⟨z, hz, h1, h2, h3, h4, h5, h6, h7, h8, h9⟩ := (s.begin_ h).verdictWritten_spec h b v (by rw [s.pay_eq_begin]; exact hv)
  rw [← hz] at hr
  have hzhasp : ∀ j, z.hasp j = (s.begin_ h).hasp j := fun j => by
    rw [State.hasp, h6]
    rfl
  have hrun : (z.hasp h).state ≠ .pending := by
    rw [hzhasp, s.hasp_begin_self]
    exact nofun
  have hactive : z.mbox.active = some h := by rw [h6]
  have hk := hr.causes.keepsSteps
  obtain ⟨x, hx⟩ := hr.causes
  have hctl : (s.runCommand h 0x0A fun s => s.verdictCmd h).ctl = z.ctl := by rw [hx]
  refine ⟨_, exec_verdict hturn hbusy, ?_, ?_, (hr.active h (State.badStatus_of_state_ne hrun)).2 hactive, ?_, ?_, ?_, ?_⟩
  · exact (hk.sets b).trans h1
  · rw [hctl, h3]
  · rw [hctl, h4]
    rfl
  · exact (hk.sets _).trans h2
  · rw [hctl, h5]
    rfl
  · exact hr.sameMemoryButRecord (s := s) h9 h7 h8 fun j hj => (hzhasp j).trans (s.hasp_begin_ne hj)

/-! ### ABANDON -/

theorem State.tasked_of_mem {i : KsItem} {task : KsTask} (hi : i ∈ s.ctl.items) (ht : i.task = task) : s.tasked task = true :=
  List.any_eq_true.2 ⟨i, hi, by rw [ht]; exact beq_self_eq_true task⟩

/-- An ABANDON that goes through. -/
theorem State.abandonCmd_ends (s : State) (h : Nat) (b : Bool) {later clears : Bool} {ns : List Nat} {u : State}
    (hlater : later = ((s.set (!b)).held && (s.set (!b)).step == (s.set b).step + 1)) (hclears : clears = (later && (s.set (!b)).verdict.isSome))
    (hns : ns = s.takenGroups b) (hu : u = s.abandonBoth b later) (hready : u.recordReady)
    (hgo : u.goes (rowPlan (u.deriveAll ns)) (((u.deriveAll ns).map (fun a => ksSectorsOf a.2)).sum) = true) :
    ∃ v : State, s.abandonCmd h b = v.finish h .okay 0 [] ∧ v.ctl.lintel = [] ∧
      v.ctl.seq = (if clears then u.ctl.seq + 1 else u.ctl.seq) ∧ (v.set b).rec0 = false ∧ (v.set b).rec1 = false := by
  have heq := s.abandonCmd_eq h b
  dsimp only at heq
  rw [← hlater, ← hclears, ← hns, ← hu] at heq
  have hx := u.ksMove_goes (rowPlan (u.deriveAll ns)) _ 0 (.derive h b ns later clears) hgo
  have hw : u.Works (u.ksAccess (rowPlan (u.deriveAll ns)) (((u.deriveAll ns).map (fun a => ksSectorsOf a.2)).sum) (.derive h b ns later clears)).1 :=
    State.works_ksAccess (.refl u) hgo
  have hx' : (u.ksAccess (rowPlan (u.deriveAll ns)) (((u.deriveAll ns).map (fun a => ksSectorsOf a.2)).sum) (.derive h b ns later clears)).2 = false := hx
  rw [hx', if_neg Bool.false_ne_true] at heq
  obtain ⟨v, h1, h2, h3, h4⟩ := State.abandonRest_ends (hw.recordReady hready) h b ns later clears
  rw [hw.ctl] at h3
  exact ⟨v, heq.trans h1, h2, h3, h4⟩

/-- An ABANDON that waits. -/
theorem State.abandonCmd_waits (s : State) (h : Nat) (b : Bool) {later clears : Bool} {ns : List Nat} {u : State}
    (hlater : later = ((s.set (!b)).held && (s.set (!b)).step == (s.set b).step + 1)) (hclears : clears = (later && (s.set (!b)).verdict.isSome))
    (hns : ns = s.takenGroups b) (hu : u = s.abandonBoth b later)
    (hgo : u.goes (rowPlan (u.deriveAll ns)) (((u.deriveAll ns).map (fun a => ksSectorsOf a.2)).sum) = false) :
    ∃ z, z = s.abandonCmd h b ∧ z.tasked (.derive h b ns later clears) = true ∧ (∀ c, z.set c = u.set c) ∧ z.ctl.seq = u.ctl.seq ∧
      z.mbox = { u.mbox with active := some h } ∧ SameMemory u z := by
  have heq := s.abandonCmd_eq h b
  dsimp only at heq
  rw [← hlater, ← hclears, ← hns, ← hu] at heq
  obtain ⟨hx, cs, bs, n, q, p, i, hi, hf⟩ := u.ksAccess_waits (.derive h b ns later clears) hgo
  rw [hx, if_pos rfl, hf] at heq
  refine ⟨_, rfl, ?_⟩
  rw [heq]
  refine ⟨State.tasked_of_mem (List.mem_append_right _ (List.mem_singleton_self i)) hi, fun c => ?_, rfl, rfl, ?_⟩
  · cases c <;> rfl
  · exact sameMemory_of_stores rfl rfl rfl rfl

theorem stepAbandons (hturn : s.turn h 0x0A) (hbusy : s.recordBusy = false) {later clears : Bool} {ns : List Nat} {u : State}
    (hlater : later = ((s.set (!b)).held && (s.set (!b)).step == (s.set b).step + 1)) (hclears : clears = (later && (s.set (!b)).verdict.isSome))
    (hns : ns = s.takenGroups b) (hu : u = (s.begin_ h).abandonBoth b later)
    (hbody : (s.begin_ h).verdictCmd h = (s.begin_ h).abandonCmd h b) :
    ∃ t, exec (.verdict h) s = .next t ∧ (t.set b).state = .abandoned ∧ (t.set b).held = false ∧ (t.set b).verdict = none ∧
      (later = true → (t.set (!b)).state = .abandoned ∧ (t.set (!b)).held = false) ∧ (later = false → t.set (!b) = s.set (!b)) ∧
      t.regs.irqStatus.getLsbD 2 = true ∧ t.ctl.epoch = s.ctl.epoch ∧ t.latches = s.latches ∧
      (u.goes (rowPlan (u.deriveAll ns)) (((u.deriveAll ns).map (fun a => ksSectorsOf a.2)).sum) = true → s.recordReady →
        t.done h .okay ∧ (t.set b).rec0 = false ∧ (t.set b).rec1 = false ∧ t.ctl.seq = (if clears then s.ctl.seq + 1 else s.ctl.seq)) ∧
      (u.goes (rowPlan (u.deriveAll ns)) (((u.deriveAll ns).map (fun a => ksSectorsOf a.2)).sum) = false →
        t.mbox.active = some h ∧ t.tasked (.derive h b ns later clears) = true ∧ (t.set b).rec0 = (s.set b).rec0 ∧
        (t.set b).rec1 = (s.set b).rec1 ∧ t.ctl.seq = s.ctl.seq ∧ SameMemoryButHasp h s t) := by
  have hlater' : later = (((s.begin_ h).set (!b)).held && ((s.begin_ h).set (!b)).step == ((s.begin_ h).set b).step + 1) := hlater
  have hclears' : clears = (later && ((s.begin_ h).set (!b)).verdict.isSome) := hclears
  have hns' : ns = (s.begin_ h).takenGroups b := hns
  have hsets : ∀ c, (s.begin_ h).set c = s.set c := fun _ => rfl
  have hepoch : (s.begin_ h).ctl.epoch = s.ctl.epoch := rfl
  have hseq : (s.begin_ h).ctl.seq = s.ctl.seq := rfl
  have hlat : (s.begin_ h).latches = s.latches := rfl
  have hmem : SameMemory s (s.begin_ h) := sameMemory_of_stores rfl rfl rfl rfl
  have hself := s.hasp_begin_self h
  have hother : ∀ j, j ≠ h → (s.begin_ h).hasp j = s.hasp j := fun j hj => s.hasp_begin_ne hj
  have hready : s.recordReady → (s.begin_ h).recordReady := id
  have hend : ∀ v : State, v.ctl.lintel = [] → (s.begin_ h).abandonCmd h b = v.finish h .okay 0 [] →
      v.Completes (s.runCommand h 0x0A fun s => s.verdictCmd h) h .okay [] := fun v hv heq => by
    refine State.completes_runCommand hturn (by decide) ?_
    rw [hbody, heq]
    exact v.completes_finish h 0 (by decide) fun _ => hv
  obtain ⟨hsp, h1, h2, h3⟩ := (s.begin_ h).abandonBoth_spec b later
  have hab := (s.begin_ h).abandons_abandonCmd h b
  dsimp only at hab
  have hends := (s.begin_ h).abandonCmd_ends h b hlater' hclears' hns' hu
  have hwaits := (s.begin_ h).abandonCmd_waits h b hlater' hclears' hns' hu
  rw [← hlater', ← hu] at hab
  rw [← hu] at hsp h1 h2 h3
  have hr := State.runsOn_runCommand hturn (fun s => s.verdictCmd h)
  rw [hbody] at hr
  have hx := exec_verdict hturn hbusy
  generalize s.runCommand h 0x0A (fun s => s.verdictCmd h) = t at hend hr hx
  have hall := hab.trans (hr.causes.keepsSteps.abandons b later)
  have hueq : u.ctl.epoch = s.ctl.epoch ∧ u.ctl.seq = s.ctl.seq ∧ u.latches = s.latches := by
    refine ⟨?_, ?_, ?_⟩
    · rw [hsp.steps]
      exact hepoch
    · rw [hsp.steps]
      exact hseq
    · rw [hsp.frame]
      exact hlat
  have hthis := hall.this
  have hoth := hall.other
  rw [StepSet.SameButRecord] at hthis
  refine ⟨t, hx, ?_, ?_, ?_, fun hl => ?_, fun hl => ?_, hall.rises 2 h3, hall.epoch.trans hueq.1, hall.latches.trans hueq.2.2,
    fun hgo hrec => ?_, fun hgo => ?_⟩
  · rw [hthis]
    exact h1.state
  · rw [hthis]
    exact h1.held
  · rw [hthis]
    exact h1.verdict
  · rw [if_pos hl] at hoth h2
    rw [StepSet.SameButRecord] at hoth
    rw [hoth]
    exact ⟨h2.state, h2.held⟩
  · rw [if_neg (by rw [hl]; exact Bool.false_ne_true)] at hoth h2
    exact (hoth.trans h2).trans (hsets _)
  · have hg := hsp.sameGates
    obtain ⟨hwr, hli, ho0, ho1⟩ := hready hrec
    have hur : u.recordReady := by
      refine ⟨?_, ?_, (hg.lintelOpen _).trans ho0, (hg.lintelOpen _).trans ho1⟩ <;> rw [hsp.steps] <;> assumption
    obtain ⟨v, hv, hvl, hvs, hv0, hv1⟩ := hends hur hgo
    have hc := hend v hvl hv
    have hk := (hc.causes rfl).keepsSteps
    refine ⟨hc.done, ?_, ?_, ?_⟩
    · rw [hk.sets, hv0]
    · rw [hk.sets, hv1]
    · rw [hc.frame.ctl, hvs, hueq.2.1]
  · obtain ⟨z, hz, htask, hzset, hzseq, hzm, hzmem⟩ := hwaits hgo
    rw [← hz] at hr
    have hzhasp : ∀ j, z.hasp j = (s.begin_ h).hasp j := fun j => by
      rw [State.hasp, hzm, hsp.frame]
      rfl
    have hrun : (z.hasp h).state ≠ .pending := by
      rw [hzhasp, hself]
      exact nofun
    have hk := hr.causes.keepsSteps
    have hctl := hr.causes.sameButAnswers.ctl
    have humem : SameMemory (s.begin_ h) u := by
      refine sameMemory_of_stores ?_ ?_ ?_ ?_ <;> rw [hsp.frame]
    refine ⟨(hr.active h (State.badStatus_of_state_ne hrun)).2 (by rw [hzm]), ?_, ?_, ?_, ?_,
      hr.sameMemoryButHasp ((hmem.trans humem).trans hzmem) fun j hj => (hzhasp j).trans (hother j hj)⟩
    · rw [State.tasked, hctl]
      exact htask
    · rw [hk.sets, hzset, h1.rec0, hsets]
    · rw [hk.sets, hzset, h1.rec1, hsets]
    · rw [hctl, hzseq, hueq.2.1]

/-! ### The end of the record -/

theorem exec_verdictRecorded (hruns : s.wardenRuns = true) (hw : s.ctl.writing = some (.verdict h b)) :
    exec .verdictRecorded s = .next s.recordDone := by
  refine congrArg Host.Outcome.next ?_
  rw [hw]
  exact if_pos hruns

theorem State.recordDone_again (ht : s.tasked .recordEnd = true) : s.recordDone = s := by
  unfold State.recordDone
  rw [ht, Bool.or_true, if_pos rfl]

theorem State.recordDone_eq (hw : s.ctl.writing = some (.verdict h b)) (ht : s.tasked .recordEnd = false) :
    s.recordDone = if (s.lintelPut true s.ctl.epoch.toNat).ctl.lintel.isEmpty then (s.lintelPut true s.ctl.epoch.toNat).recordFinish
      else (s.lintelPut true s.ctl.epoch.toNat).addTask .recordEnd := by
  have hcopy : s.lintelCopy1 = s.lintelPut true s.ctl.epoch.toNat := by
    unfold State.lintelCopy1
    rw [hw]
  unfold State.recordDone
  rw [ht, hw, hcopy]
  rfl

/-- Copy 1 of a verdict's record that waits (R347). -/
theorem recordWaitsForItsBank (hruns : s.wardenRuns = true) (hw : s.ctl.writing = some (.verdict h b)) (ht : s.tasked .recordEnd = false)
    (hwait : s.ctl.lintel ≠ [] ∨ s.lintelOpen none true = false) :
    ∃ t, exec .verdictRecorded s = .next t ∧ t.set b = s.set b ∧ t.mbox = s.mbox ∧ SameMemory s t ∧
      t.ctl.lintel = s.ctl.lintel ++ [{ copy := true, bytes := s.lintelBytes s.ctl.epoch.toNat, seq := s.seq }] ∧
      t.tasked .recordEnd = true := by
  have hx := exec_verdictRecorded hruns hw
  have hdone := State.recordDone_eq hw ht
  rw [State.lintelPut_waits hwait] at hdone
  have hempty : (({ s with ctl := { s.ctl with lintel := s.ctl.lintel ++ [{ copy := true, bytes := s.lintelBytes s.ctl.epoch.toNat, seq := s.seq }] } } :
      State).bump).ctl.lintel.isEmpty = false := by
    refine Bool.eq_false_iff.2 fun hl => ?_
    exact absurd (List.isEmpty_iff.1 hl) (List.append_ne_nil_of_right_ne_nil _ (List.cons_ne_nil _ _))
  rw [hempty, if_neg Bool.false_ne_true] at hdone
  rw [hdone] at hx
  refine ⟨_, hx, State.set_congr rfl rfl, rfl, sameMemory_of_stores rfl rfl rfl rfl, rfl, ?_⟩
  exact State.tasked_of_mem (List.mem_append_right _ (List.mem_singleton_self _)) rfl

/-- Copy 1 of a verdict's record that is written: VERDICT completes (R330). -/
theorem recordEndsAVerdict (hruns : s.wardenRuns = true) (hw : s.ctl.writing = some (.verdict h b)) (hrun : (s.set b).run = none)
    (ht : s.tasked .recordEnd = false) (hl : s.ctl.lintel = []) (hopen : s.lintelOpen none true = true) :
    ∃ t, exec .verdictRecorded s = .next t ∧ t.ctl.writing = none ∧ t.done h .okay ∧ t.set b = s.set b ∧ t.set (!b) = s.set (!b) ∧
      t.latches = s.latches := by
  have hx := exec_verdictRecorded hruns hw
  have hdone := State.recordDone_eq hw ht
  have hp := (s.putsOrWaits_lintelPut true s.ctl.epoch.toNat).keepsSteps
  have hctl : (s.lintelPut true s.ctl.epoch.toNat).ctl = s.ctl := by
    rw [State.lintelPut_now hl hopen, (s.putsCopy_lintelIssue (copy := true) _).frame]
  generalize s.lintelPut true s.ctl.epoch.toNat = v at hdone hp hctl
  rw [hctl, hl, List.isEmpty_nil, if_pos rfl] at hdone
  rw [hdone] at hx
  have hdrop : ∀ c, v.dropRecordEnd.set c = v.set c := fun c => by cases c <;> rfl
  have hwriting : v.dropRecordEnd.ctl.writing = some (.verdict h b) := by
    refine Eq.trans ?_ hw
    rw [← hctl]
    rfl
  have hlines : v.dropRecordEnd.ctl.lintel = [] := by
    refine Eq.trans ?_ hl
    rw [← hctl]
    rfl
  have hlat : v.dropRecordEnd.latches = s.latches := hp.latches
  have hfin : v.recordFinish = ({ v.dropRecordEnd with ctl := { v.dropRecordEnd.ctl with writing := none } } : State).finish h .okay 0 [] := by
    have hf := ({ v.dropRecordEnd with ctl := { v.dropRecordEnd.ctl with writing := none } } : State).keepsSteps_finish h
    have hset : (({ v.dropRecordEnd with ctl := { v.dropRecordEnd.ctl with writing := none } } : State).finish h .okay 0 []).set b = s.set b := by
      rw [hf.sets]
      exact (State.set_congr rfl rfl : _ = v.dropRecordEnd.set b).trans ((hdrop b).trans (hp.sets b))
    unfold State.recordFinish
    dsimp only
    rw [hwriting]
    dsimp only
    split
    · unfold State.afterVerdict
      dsimp only
      rw [hset, hrun]
    · rfl
  rw [hfin] at hx
  have hc := ({ v.dropRecordEnd with ctl := { v.dropRecordEnd.ctl with writing := none } } : State).completes_finish (bs := []) h 0 (st := .okay)
    (by decide) fun _ => hlines
  have hset : ∀ c, ({ v.dropRecordEnd with ctl := { v.dropRecordEnd.ctl with writing := none } } : State).set c = s.set c := fun c =>
    (State.set_congr rfl rfl : _ = v.dropRecordEnd.set c).trans ((hdrop c).trans (hp.sets c))
  have hk := (hc.causes rfl).keepsSteps
  refine ⟨_, hx, ?_, hc.done, (hk.sets _).trans (hset _), (hk.sets _).trans (hset _), hk.latches.trans hlat⟩
  rw [hc.frame.ctl]

end Sys2Proof.Machine

open Sys2Proof Sys2Proof.Machine

/-- Settles O48: a step opens in its set; a verdict is recorded, refused or answered; an ABANDON ends its step; the record ends VERDICT. -/
theorem stepsOpenAndTakeVerdicts : Obligations.StepsOpenAndTakeVerdicts := by
  refine ⟨fun s h hturn hinc hfree hbad hct hstep => stepOpens s h hturn hinc hfree hbad hct hstep, fun s h b hturn hbusy hset => ?_,
    fun s h b hruns hw => ⟨fun ht => ?_, fun ht hwait => recordWaitsForItsBank hruns hw ht hwait⟩,
    fun s h b hruns _ hw hrun ht hl hopen => recordEndsAVerdict hruns hw hrun ht hl hopen⟩
  · have hpay := s.pay_eq_begin h
    have hset' : (s.begin_ h).heldSet (((s.begin_ h).hasp h).pay 0 8) = some b := by rw [hpay]; exact hset
    refine ⟨fun hk hc => ⟨fun hv hst => ?_, fun st hv hst => ?_, fun w hv => ?_⟩, fun hk hv => ?_, fun w hk hv => ?_⟩
    · exact verdictRecords hturn hbusy _ rfl
        (State.verdictCmd_recorded hset' hv (by rw [hpay]; exact hk) (by rw [hpay]; exact hc) (by rw [hpay]; exact hst))
    · exact verdictAnswers hturn hbusy
        (State.verdictCmd_refused hset' hv (by rw [hpay]; exact hk) (by rw [hpay]; exact hc) (by rw [hpay]; exact hst))
    · have hbody := State.verdictCmd_again hset' hv (.inl ⟨by rw [hpay]; exact hk, by rw [hpay]; exact hc⟩)
      rw [hpay] at hbody
      obtain ⟨t, hx, hk'⟩ := verdictAnswers hturn hbusy hbody
      refine ⟨t, hx, ?_⟩
      rw [← if_congr (and_iff_right (ne_of_lt hk)) rfl rfl]
      exact hk'
    · exact stepAbandons hturn hbusy rfl rfl rfl rfl (State.verdictCmd_abandon hset' hv (by rw [hpay]; exact hk))
    · have hbody := State.verdictCmd_again hset' hv (.inr (by rw [hpay]; exact hk))
      rw [hpay, if_neg (fun h => h.1 hk)] at hbody
      exact verdictAnswers hturn hbusy hbody
  · refine (exec_verdictRecorded hruns hw).trans ?_
    rw [State.recordDone_again ht]

end

section

/-!
SUPPORT. Bytes that are gathered word by word and flushed (R174, R177, R179): what the words then hold.
-/

namespace Sys2Proof.Machine

set_option Elab.async false

variable {s t u : State}

/-! ### Gathering bytes -/

/-- A byte for a place: its index in the word, whether it is poisoned, and whether the rest of the word keeps its poison. -/
structure ByteWrite where
  place : Place
  at_   : Nat
  byte  : Byte
  bad   : Bool
  keep  : Bool

/-- The bytes of a list, gathered. -/
def gather (m : Sparse WordWrite) (l : List ByteWrite) : Sparse WordWrite :=
  l.foldl (fun m x => addByte m x.place x.at_ x.byte x.bad x.keep) m

theorem gather_append (m : Sparse WordWrite) (l l' : List ByteWrite) : gather m (l ++ l') = gather (gather m l) l' := List.foldl_append

/-- The byte enables of bytes for one word. -/
def maskOf (l : List ByteWrite) : Nat := l.foldl (fun n x => n ||| 2 ^ x.at_) 0

/-- The data of bytes for one word. -/
def dataOf (l : List ByteWrite) : Nat := l.foldl (fun n x => n ||| x.byte.toNat <<< (8 * x.at_)) 0

/-- The bytes of a list for word k. -/
def bytesFor (l : List ByteWrite) (k : Nat) : List ByteWrite := l.filter (fun x => x.place.word == k)

/-- The write of a word for which bytes are gathered; the first of them names the place. -/
def wordWrite (x : ByteWrite) (l : List ByteWrite) : WordWrite :=
  { place := x.place, mask := maskOf l, data := dataOf l, bad := l.any (·.bad), keep := x.keep }

/-- In a rising map every key lies above the bound. -/
theorem Sparse.rising_lt {α : Type} {lo : Nat} {m : Sparse α} (hm : Sparse.rising (some lo) m = true) : ∀ e ∈ m, lo < e.1 := by
  induction m generalizing lo with
  | nil => exact fun e he => absurd he List.not_mem_nil
  | cons a r ih =>
    rw [Sparse.rising_cons_iff] at hm
    intro e he
    have ha := hm.1 lo rfl
    obtain rfl | he := List.mem_cons.1 he
    · exact ha
    · exact lt_trans ha (ih hm.2 e he)

theorem Sparse.mem_put {α : Type} (k : Nat) (v : α) (lo : Option Nat) (m : Sparse α) (hm : Sparse.rising lo m = true) (e : Nat × α) :
    e ∈ Sparse.put k v m ↔ e = (k, v) ∨ e.1 ≠ k ∧ e ∈ m := by
  induction m generalizing lo with
  | nil => simp [Sparse.put]
  | cons a r ih =>
    obtain ⟨k', v'⟩ := a
    rw [Sparse.rising_cons_iff] at hm
    have hlater : ∀ e ∈ r, k' < e.1 := fun e he => Sparse.rising_lt hm.2 e he
    by_cases h1 : k < k'
    · simp only [Sparse.put, h1, if_true, List.mem_cons]
      constructor
      · rintro (rfl | rfl | he)
        · exact .inl rfl
        · exact .inr ⟨by simp; omega, .inl rfl⟩
        · exact .inr ⟨by have := hlater e he; omega, .inr he⟩
      · rintro (rfl | ⟨-, rfl | he⟩)
        · exact .inl rfl
        · exact .inr (.inl rfl)
        · exact .inr (.inr he)
    · by_cases h2 : k = k'
      · subst h2
        simp only [Sparse.put, lt_irrefl, if_false, if_true, List.mem_cons]
        constructor
        · rintro (rfl | he)
          · exact .inl rfl
          · exact .inr ⟨by have := hlater e he; omega, .inr he⟩
        · rintro (rfl | ⟨hne, rfl | he⟩)
          · exact .inl rfl
          · exact absurd rfl hne
          · exact .inr he
      · simp only [Sparse.put, h1, h2, if_false, List.mem_cons, ih _ hm.2]
        constructor
        · rintro (rfl | rfl | ⟨hne, he⟩)
          · exact .inr ⟨by simpa using Ne.symm h2, .inl rfl⟩
          · exact .inl rfl
          · exact .inr ⟨hne, .inr he⟩
        · rintro (rfl | ⟨hne, rfl | he⟩)
          · exact .inr (.inl rfl)
          · exact .inl rfl
          · exact .inr (.inr ⟨hne, he⟩)

/-- What a rising map holds at a key is what is read there. -/
theorem Sparse.get_of_mem {α : Type} {d : α} {lo : Option Nat} {m : Sparse α} (hm : Sparse.rising lo m = true) {k : Nat} {v : α}
    (h : (k, v) ∈ m) : Sparse.get d m k = v := by
  induction m generalizing lo with
  | nil => exact absurd h List.not_mem_nil
  | cons a r ih =>
    rw [Sparse.rising_cons_iff] at hm
    obtain rfl | h := List.mem_cons.1 h
    · simp [Sparse.get]
    · have hlt := Sparse.rising_lt hm.2 _ h
      have hne : a.1 ≠ k := by simp only at hlt; omega
      have hget : Sparse.get d (a :: r) k = Sparse.get d r k := by
        obtain ⟨k', v'⟩ := a
        simp only at hne
        simp [Sparse.get, Ne.symm hne]
      rw [hget]
      exact ih hm.2 h

theorem Sparse.key_unique {α : Type} {lo : Option Nat} {m : Sparse α} (hm : Sparse.rising lo m = true) {k : Nat} {v v' : α}
    (h : (k, v) ∈ m) (h' : (k, v') ∈ m) : v = v' :=
  (Sparse.get_of_mem (d := v) hm h).symm.trans (Sparse.get_of_mem hm h')

/-- A gathered map is rising, and holds for each word the write of its bytes. -/
structure Gathers (l : List ByteWrite) (m : Sparse WordWrite) : Prop where
  rising : Sparse.rising none m = true
  mem : ∀ k w, (k, w) ∈ m ↔ ∃ x r, bytesFor l k = x :: r ∧ w = wordWrite x (x :: r)

theorem maskOf_append (l : List ByteWrite) (x : ByteWrite) : maskOf (l ++ [x]) = maskOf l ||| 2 ^ x.at_ := by
  rw [maskOf, List.foldl_append]
  rfl

theorem dataOf_append (l : List ByteWrite) (x : ByteWrite) : dataOf (l ++ [x]) = dataOf l ||| x.byte.toNat <<< (8 * x.at_) := by
  rw [dataOf, List.foldl_append]
  rfl

/-- One more byte. -/
theorem Gathers.add {l : List ByteWrite} {m : Sparse WordWrite} (h : Gathers l m) (x : ByteWrite) :
    Gathers (l ++ [x]) (addByte m x.place x.at_ x.byte x.bad x.keep) := by
  unfold addByte
  dsimp only
  have hfor (k : Nat) : bytesFor (l ++ [x]) k = bytesFor l k ++ if x.place.word = k then [x] else [] := by
    rw [bytesFor, List.filter_append, bytesFor]
    by_cases hk : x.place.word = k <;> simp [hk]
  have hnew : ∀ w, w = wordWrite ((bytesFor l x.place.word).headD x) (bytesFor l x.place.word ++ [x]) →
      { Sparse.get { place := x.place, mask := 0, data := 0, bad := false, keep := x.keep } m x.place.word with
        mask := (Sparse.get { place := x.place, mask := 0, data := 0, bad := false, keep := x.keep } m x.place.word).mask ||| 2 ^ x.at_,
        data := (Sparse.get { place := x.place, mask := 0, data := 0, bad := false, keep := x.keep } m x.place.word).data |||
          x.byte.toNat <<< (8 * x.at_),
        bad := (Sparse.get { place := x.place, mask := 0, data := 0, bad := false, keep := x.keep } m x.place.word).bad || x.bad } = w := by
    rintro w rfl
    cases hl : bytesFor l x.place.word with
    | nil =>
      have hget : Sparse.get { place := x.place, mask := 0, data := 0, bad := false, keep := x.keep } m x.place.word =
          { place := x.place, mask := 0, data := 0, bad := false, keep := x.keep } := by
        refine Sparse.get_of_not_mem fun hk => ?_
        obtain ⟨⟨k, w⟩, hm, hk⟩ := List.mem_map.1 hk
        obtain rfl : k = x.place.word := hk
        obtain ⟨y, r, hy, -⟩ := (h.mem _ _).1 hm
        rw [hl] at hy
        cases hy
      rw [hget]
      simp [wordWrite, maskOf, dataOf]
    | cons y r =>
      have hmem := (h.mem x.place.word _).2 ⟨y, r, hl, rfl⟩
      rw [Sparse.get_of_mem h.rising hmem]
      have hm := maskOf_append (y :: r) x
      have hd := dataOf_append (y :: r) x
      rw [wordWrite, wordWrite]
      simp only [List.headD_cons, hm, hd, List.any_append, List.any_cons, List.any_nil, Bool.or_false]
  refine ⟨Sparse.rising_put _ _ none m (fun l hl => by cases hl) h.rising, fun k w => ?_⟩
  rw [Sparse.mem_put _ _ none m h.rising, hnew _ rfl, hfor, h.mem]
  by_cases hk : x.place.word = k
  · subst hk
    rw [if_pos rfl]
    constructor
    · rintro (heq | ⟨hne, -⟩)
      · cases hl : bytesFor l x.place.word with
        | nil =>
          rw [hl] at heq
          exact ⟨x, [], rfl, (Prod.mk.inj heq).2⟩
        | cons y r =>
          rw [hl] at heq
          exact ⟨y, r ++ [x], rfl, (Prod.mk.inj heq).2⟩
      · exact absurd rfl hne
    · rintro ⟨y, r, hy, rfl⟩
      refine .inl (Prod.ext rfl ?_)
      cases hl : bytesFor l x.place.word with
      | nil =>
        rw [hl] at hy
        cases hy
        rfl
      | cons z q =>
        rw [hl] at hy
        cases hy
        rfl
  · rw [if_neg hk, List.append_nil]
    constructor
    · rintro (heq | ⟨-, hm⟩)
      · exact absurd (Prod.mk.inj heq).1.symm hk
      · exact hm
    · exact fun hm => .inr ⟨fun h' => hk h'.symm, hm⟩

theorem gathers_gather (l : List ByteWrite) : Gathers l (gather [] l) := by
  induction l using List.reverseRecOn with
  | nil => exact ⟨rfl, fun k w => ⟨fun h => absurd h List.not_mem_nil, fun ⟨x, r, h, _⟩ => by cases h⟩⟩
  | append_singleton l x ih =>
    rw [gather_append]
    exact ih.add x

/-! ### Bytes of a word write -/

theorem bit_eq_testBit (x i : Nat) : bit x i = x.testBit i := by
  rw [bit, Nat.testBit_eq_decide_div_mod_eq, Nat.shiftRight_eq_div_pow]
  exact beq_eq_decide _ _

theorem testBit_maskOf (l : List ByteWrite) (i : Nat) : (maskOf l).testBit i = l.any (fun x => x.at_ == i) := by
  induction l using List.reverseRecOn with
  | nil => simp [maskOf]
  | append_singleton l x ih =>
    rw [maskOf_append, Nat.testBit_or, ih, List.any_append, Nat.testBit_two_pow]
    simp [beq_eq_decide]

theorem testBit_dataOf (l : List ByteWrite) (i : Nat) :
    (dataOf l).testBit i = l.any (fun x => x.at_ == i / 8 && x.byte.toNat.testBit (i % 8)) := by
  induction l using List.reverseRecOn with
  | nil => simp [dataOf]
  | append_singleton l x ih =>
    have hx : (x.byte.toNat <<< (8 * x.at_)).testBit i = (x.at_ == i / 8 && x.byte.toNat.testBit (i % 8)) := by
      rw [Nat.testBit_shiftLeft]
      by_cases hat : x.at_ = i / 8
      · have hle : 8 * x.at_ ≤ i := by omega
        have hsub : i - 8 * x.at_ = i % 8 := by omega
        rw [hsub, decide_eq_true hle, ← hat, beq_self_eq_true]
      · have hfalse : (x.at_ == i / 8) = false := by simpa using hat
        rw [hfalse, Bool.false_and]
        by_cases hle : 8 * x.at_ ≤ i
        · have hbig : 8 ≤ i - 8 * x.at_ := by omega
          have hlt : x.byte.toNat < 2 ^ (i - 8 * x.at_) :=
            lt_of_lt_of_le x.byte.isLt (Nat.pow_le_pow_right (by decide) hbig)
          rw [Nat.testBit_lt_two_pow hlt, Bool.and_false]
        · simp [hle]
    rw [dataOf_append, Nat.testBit_or, ih, List.any_append, hx]
    simp

/-- A byte of a merged word. -/
theorem byte_mergeBytes (old new : BondData) (ben : Nat) {i : Nat} (hi : i < 16) :
    (mergeBytes old new ben).toNat >>> (8 * i) % 256 = (if bit ben i then new.toNat >>> (8 * i) else old.toNat >>> (8 * i)) % 256 := by
  have hlt := leNat_lt ((List.range 16).map (mergedByte old new ben))
  rw [List.length_map, List.length_range] at hlt
  have hval : (mergeBytes old new ben).toNat = leNat ((List.range 16).map (mergedByte old new ben)) :=
    (BitVec.toNat_ofNat _ _).trans (Nat.mod_eq_of_lt hlt)
  have hbyte := congrArg BitVec.toNat (leNat_byte ((List.range 16).map (mergedByte old new ben)) i)
  rw [BitVec.toNat_ofNat] at hbyte
  rw [hval]
  refine hbyte.trans ?_
  rw [List.getD_eq_getElem _ _ (by rw [List.length_map, List.length_range]; exact hi), List.getElem_map, List.getElem_range, mergedByte,
    BitVec.toNat_ofNat]

/-! ### Flushing -/

theorem State.sameButCounts_statePoison (s : State) (site : Site) (w : Who) (where_ : Nat) : s.SameButCounts (s.statePoison site w where_) := by
  unfold State.statePoison
  dsimp only
  refine State.sameButCounts_siteIrq (State.sameButCounts_pushLog ?_)
  split
  · exact State.sameButCounts_cross (.refl s) fun u hu => hu.lit _ _ _ _
  · exact (State.SameButCounts.refl s).lit _ _ _ _

/-- The data of a word in which a write is merged. -/
def State.mergedWord (s : State) (w : WordWrite) : BondData := mergeBytes (s.peek w.place).1 (BitVec.ofNat 128 w.data) w.mask

/-- A write leaves its word poisoned (R179). -/
def State.spoilsWord (s : State) (w : WordWrite) : Bool :=
  w.bad || (!(w.mask % 2 ^ 16 == 2 ^ 16 - 1) && w.keep && (s.peek w.place).2)

/-- What the word of a write holds once it is flushed. -/
def State.flushed (s : State) (w : WordWrite) : BondData × BitVec 16 := (s.mergedWord w, if s.spoilsWord w then poisonMask else 0)

/-- The writes are for words of the stack, each under the number of its word. -/
def OfStack (l : List (Nat × WordWrite)) : Prop := ∀ e ∈ l, e.2.place.space = .stack ∧ e.2.place.word = e.1

theorem State.flushed_congr {w : WordWrite} (hs : w.place.space = .stack) (h : t.word .stack w.place.word = s.word .stack w.place.word) :
    t.flushed w = s.flushed w := by
  have hp : t.peek w.place = s.peek w.place := State.peek_congr (by rw [hs]; decide) (by rw [hs]; exact h)
  rw [State.flushed, State.mergedWord, State.spoilsWord, hp]
  rfl

/-- t is s but for counts and the words of the stack. -/
def State.SameButStack (s t : State) : Prop :=
  t = { s with regs := t.regs, chans := t.chans, banks := t.banks, crossing := t.crossing, stack := t.stack }

theorem State.SameButStack.trans (h : s.SameButStack t) (h' : t.SameButStack u) : s.SameButStack u := by
  rw [State.SameButStack] at *
  rw [h', h]

theorem State.SameButCounts.sameButStack (h : s.SameButCounts t) : s.SameButStack t := by
  rw [State.SameButStack, h]

theorem State.sameButStack_stkSet (s : State) (w : Nat) (d : BondData) (x : BitVec 16) : s.SameButStack (s.stkSet w d x) := by
  rw [State.SameButStack, State.stkSet_frame]

/-- One write. -/
theorem State.flush_cons (who : Who) (role own : Bool) (known : Nat → Bool) (k : Nat) (w : WordWrite) (l : List (Nat × WordWrite))
    (hs : w.place.space = .stack) :
    ∃ v : State, (s.flush who role own known ((k, w) :: l)).1 = (v.flush who role own known l).1 ∧
      v.word .stack w.place.word = s.flushed w ∧ (∀ i, i ≠ w.place.word → v.word .stack i = s.word .stack i) ∧
      s.SameButStack v := by
  have hsp : w.place.space ≠ .pages := by rw [hs]; decide
  rw [State.flush]
  dsimp only
  have hread : s.SameButCounts (if (w.mask % 2 ^ 16 == 2 ^ 16 - 1 || known w.place.word) = true then s
      else (s.readPlace (w.place.readBy who own).2 (w.place.readBy who own).1).2) := by
    split
    · exact .refl s
    · exact State.sameButCounts_readPlace (.refl s)
  generalize (if (w.mask % 2 ^ 16 == 2 ^ 16 - 1 || known w.place.word) = true then s
      else (s.readPlace (w.place.readBy who own).2 (w.place.readBy who own).1).2) = v at hread
  have hdata : mergeBytes (s.peek w.place).1 (BitVec.ofNat 128 w.data) w.mask = s.mergedWord w := rfl
  have hbad : (w.bad || (!(w.mask % 2 ^ 16 == 2 ^ 16 - 1) && w.keep && (s.peek w.place).2)) = s.spoilsWord w := rfl
  rw [hdata, hbad]
  have hput : ∀ i, (v.placeWrite w.place (s.mergedWord w) (s.spoilsWord w)).word .stack i =
      if i = w.place.word then s.flushed w else s.word .stack i := fun i => by
    rw [State.placeWrite, State.word_placeSet _ _ _ hsp (by decide), hs]
    by_cases hi : i = w.place.word
    · rw [if_pos ⟨rfl, hi⟩, if_pos hi]
      rfl
    · rw [if_neg fun h => hi h.2, if_neg hi]
      exact hread.word i (by decide)
  have hframe : s.SameButStack (v.placeWrite w.place (s.mergedWord w) (s.spoilsWord w)) := by
    have hset : v.placeWrite w.place (s.mergedWord w) (s.spoilsWord w) =
        v.stkSet w.place.word (s.mergedWord w) (if s.spoilsWord w then poisonMask else 0) := by
      simp only [State.placeWrite, State.placeSet, hs]
    rw [hset]
    exact hread.sameButStack.trans (v.sameButStack_stkSet _ _ _)
  generalize v.placeWrite w.place (s.mergedWord w) (s.spoilsWord w) = x at hput hframe
  have hpois : x.SameButCounts (if (s.spoilsWord w && role) = true then x.statePoison w.place.site who w.place.where_ else x) := by
    split
    · exact x.sameButCounts_statePoison _ _ _
    · exact .refl x
  generalize (if (s.spoilsWord w && role) = true then x.statePoison w.place.site who w.place.where_ else x) = y at hpois
  have hyw : ∀ i, y.word .stack i = if i = w.place.word then s.flushed w else s.word .stack i := fun i =>
    (hpois.word i (by decide)).trans (hput i)
  refine ⟨y, rfl, ?_, fun i hi => ?_, hframe.trans hpois.sameButStack⟩
  · rw [hyw, if_pos rfl]
  · rw [hyw, if_neg hi]

/-- Flushed words hold their writes, and every other word stays. -/
theorem State.words_flush (who : Who) (role own : Bool) (known : Nat → Bool) (l : List (Nat × WordWrite)) (hl : OfStack l)
    (hnd : (l.map Prod.fst).Nodup) (s : State) :
    (∀ e ∈ l, (s.flush who role own known l).1.word .stack e.1 = s.flushed e.2) ∧
    (∀ i, i ∉ l.map Prod.fst → (s.flush who role own known l).1.word .stack i = s.word .stack i) ∧
    s.SameButStack (s.flush who role own known l).1 := by
  induction l generalizing s with
  | nil => exact ⟨fun e he => absurd he List.not_mem_nil, fun _ _ => rfl, rfl⟩
  | cons a l ih =>
    obtain ⟨k, w⟩ := a
    obtain ⟨hs, hk⟩ := hl _ List.mem_cons_self
    simp only at hs hk
    rw [List.map_cons, List.nodup_cons] at hnd
    obtain ⟨v, heq, h1, h2, h3⟩ := State.flush_cons (s := s) who role own known k w l hs
    obtain ⟨i1, i2, i3⟩ := ih (fun e he => hl e (List.mem_cons_of_mem _ he)) hnd.2 v
    rw [heq]
    refine ⟨fun e he => ?_, fun i hi => ?_, h3.trans i3⟩
    · obtain rfl | he := List.mem_cons.1 he
      · exact (i2 k hnd.1).trans (hk ▸ h1)
      · obtain ⟨hes, hek⟩ := hl e (List.mem_cons_of_mem _ he)
        have hne : e.1 ≠ k := fun h' => hnd.1 (List.mem_map.2 ⟨e, he, h'⟩)
        refine (i1 e he).trans (State.flushed_congr hes ?_)
        rw [hek]
        exact h2 _ (by rw [hk]; exact hne)
    · rw [List.map_cons, List.mem_cons, not_or] at hi
      exact (i2 i hi.2).trans (h2 i (by rw [hk]; exact hi.1))

theorem Sparse.nodup_keys {α : Type} {lo : Option Nat} {m : Sparse α} (hm : Sparse.rising lo m = true) : (m.map Prod.fst).Nodup := by
  induction m generalizing lo with
  | nil => exact List.nodup_nil
  | cons a r ih =>
    rw [Sparse.rising_cons_iff] at hm
    rw [List.map_cons, List.nodup_cons]
    refine ⟨fun h => ?_, ih hm.2⟩
    obtain ⟨e, he, hk⟩ := List.mem_map.1 h
    exact absurd (Sparse.rising_lt hm.2 e he) (by omega)

/-! ### Flushing what was gathered -/

/-- The writes of bytes for places of the stack. -/
theorem ofStack_gather {l : List ByteWrite} (hl : ∀ x ∈ l, x.place.space = .stack) : OfStack (gather [] l) := by
  intro e he
  obtain ⟨x, r, hx, hw⟩ := ((gathers_gather l).mem e.1 e.2).1 he
  have hmem : x ∈ bytesFor l e.1 := by rw [hx]; exact List.mem_cons_self
  obtain ⟨hin, hk⟩ := List.mem_filter.1 hmem
  rw [hw]
  exact ⟨hl x hin, (by simpa using hk : x.place.word = e.1)⟩

theorem mem_keys_gather {l : List ByteWrite} {k : Nat} : k ∈ (gather [] l).map Prod.fst ↔ ∃ x ∈ l, x.place.word = k := by
  constructor
  · intro h
    obtain ⟨⟨k', w⟩, hm, rfl⟩ := List.mem_map.1 h
    obtain ⟨x, r, hx, -⟩ := ((gathers_gather l).mem _ _).1 hm
    have hmem : x ∈ bytesFor l k' := by rw [hx]; exact List.mem_cons_self
    obtain ⟨hin, hk⟩ := List.mem_filter.1 hmem
    exact ⟨x, hin, by simpa using hk⟩
  · rintro ⟨x, hx, rfl⟩
    have hmem : x ∈ bytesFor l x.place.word := List.mem_filter.2 ⟨hx, beq_self_eq_true _⟩
    cases hl : bytesFor l x.place.word with
    | nil => rw [hl] at hmem; exact absurd hmem List.not_mem_nil
    | cons y r => exact List.mem_map.2 ⟨_, ((gathers_gather l).mem _ _).2 ⟨y, r, hl, rfl⟩, rfl⟩

/-- What a flush of bytes for the stack leaves: each byte that alone is for its place stands there, and every other word stays. -/
structure State.Flushes (l : List ByteWrite) (s t : State) : Prop where
  written : ∀ x ∈ l, ∃ y r, bytesFor l x.place.word = y :: r ∧ t.word .stack x.place.word = s.flushed (wordWrite y (y :: r))
  other : ∀ i, (∀ x ∈ l, x.place.word ≠ i) → t.word .stack i = s.word .stack i
  same : s.SameButStack t

theorem State.flushes_flush (who : Who) (role own : Bool) (known : Nat → Bool) {l : List ByteWrite} (hl : ∀ x ∈ l, x.place.space = .stack)
    (s : State) : State.Flushes l s (s.flush who role own known (gather [] l)).1 := by
  have hg := gathers_gather l
  obtain ⟨h1, h2, h3⟩ := State.words_flush who role own known _ (ofStack_gather hl) (Sparse.nodup_keys hg.rising) s
  generalize (s.flush who role own known (gather [] l)).1 = t at h1 h2 h3 ⊢
  refine ⟨fun x hx => ?_, fun i hi => h2 i fun hm => ?_, h3⟩
  · have hmem : x ∈ bytesFor l x.place.word := List.mem_filter.2 ⟨hx, beq_self_eq_true _⟩
    cases hf : bytesFor l x.place.word with
    | nil => rw [hf] at hmem; exact absurd hmem List.not_mem_nil
    | cons y r =>
      have hin := (hg.mem x.place.word (wordWrite y (y :: r))).2 ⟨y, r, hf, rfl⟩
      exact ⟨y, r, rfl, h1 (x.place.word, wordWrite y (y :: r)) hin⟩
  · obtain ⟨x, hx, hk⟩ := mem_keys_gather.1 hm
    exact hi x hx hk

/-! ### What is read afterwards -/

theorem bondCheck_poison (detect : Bool) (d : BondData) : bondCheck detect d poisonMask = .poison := by
  cases detect <;> rfl

/-- A clean or poisoned word is delivered with its data (R174, R179). -/
theorem State.peek_of_word {p : Place} {d : BondData} {b : Bool} (hs : p.space = .stack)
    (h : t.word .stack p.word = (d, if b then poisonMask else 0)) : t.peek p = (d, b) := by
  have hw := (t.word_of_place (p := p) (by rw [hs]; decide)).symm
  rw [hs, h] at hw
  obtain ⟨h1, h2⟩ := Prod.mk.inj hw
  unfold State.peek State.placeCheck
  rw [h1, h2]
  cases b
  · rw [if_neg Bool.false_ne_true, bondCheck_zero]
    rfl
  · rw [if_pos rfl, bondCheck_poison]
    rfl

section
variable {l : List ByteWrite} (h : State.Flushes l s t)
include h

/-- A bit of a word for which bytes are gathered: it is set where one of the bytes for its place has it. -/
theorem State.Flushes.testBit {x : ByteWrite} (hx : x ∈ l) (hat : x.at_ < 16) {p : Place} (hs : p.space = .stack) (hp : p.word = x.place.word) {j : Nat}
    (hj : j < 8) : ((t.peek p).1.toNat >>> (8 * x.at_)).testBit j =
      (bytesFor l x.place.word).any (fun z => z.at_ == x.at_ && z.byte.toNat.testBit j) := by
  obtain ⟨y, r, hf, hw⟩ := h.written x hx
  rw [← hp] at hw
  rw [State.peek_of_word hs hw]
  have hmem : x ∈ bytesFor l x.place.word := List.mem_filter.2 ⟨hx, beq_self_eq_true _⟩
  rw [hf] at hmem ⊢
  have hbit : bit (wordWrite y (y :: r)).mask x.at_ = true := by
    rw [bit_eq_testBit, wordWrite, testBit_maskOf]
    exact List.any_eq_true.2 ⟨x, hmem, beq_self_eq_true _⟩
  have hbyte := byte_mergeBytes (s.peek (wordWrite y (y :: r)).place).1 (BitVec.ofNat 128 (wordWrite y (y :: r)).data) (wordWrite y (y :: r)).mask hat
  rw [hbit, if_pos rfl, BitVec.toNat_ofNat] at hbyte
  have hbits := congrArg (fun n => n.testBit j) hbyte
  have h256 : (256 : Nat) = 2 ^ 8 := rfl
  have hb : 8 * x.at_ + j < 128 := by omega
  simp only [h256, Nat.testBit_mod_two_pow, Nat.testBit_shiftRight, decide_eq_true hj, decide_eq_true hb, Bool.true_and] at hbits
  have hdiv : (8 * x.at_ + j) / 8 = x.at_ := by omega
  have hmod : (8 * x.at_ + j) % 8 = j := by omega
  rw [Nat.testBit_shiftRight, State.mergedWord, hbits, wordWrite, testBit_dataOf, hdiv, hmod]

/-- A byte that alone is for its place is delivered, whichever place names the word. -/
theorem State.Flushes.byte_of_unique {x : ByteWrite} (hx : x ∈ l) (hat : x.at_ < 16)
    (hone : ∀ z ∈ l, z.place.word = x.place.word → z.at_ = x.at_ → z.byte = x.byte) {p : Place} (hs : p.space = .stack) (hp : p.word = x.place.word) :
    (t.peek p).1.toNat >>> (8 * x.at_) % 256 = x.byte.toNat := by
  apply Nat.eq_of_testBit_eq
  intro j
  have h256 : (256 : Nat) = 2 ^ 8 := rfl
  rw [h256, Nat.testBit_mod_two_pow]
  by_cases hj : j < 8
  · rw [decide_eq_true hj, Bool.true_and, h.testBit hx hat hs hp hj]
    have hmem : x ∈ bytesFor l x.place.word := List.mem_filter.2 ⟨hx, beq_self_eq_true _⟩
    cases hb : x.byte.toNat.testBit j with
    | true => exact List.any_eq_true.2 ⟨x, hmem, by simp [hb]⟩
    | false =>
      refine List.any_eq_false.2 fun z hz => ?_
      obtain ⟨hzl, hzw⟩ := List.mem_filter.1 hz
      rw [Bool.and_eq_true, beq_iff_eq, not_and]
      intro hza
      rw [hone z hzl (by simpa using hzw) hza, hb]
      exact Bool.false_ne_true
  · have hlt : x.byte.toNat < 2 ^ j := lt_of_lt_of_le x.byte.isLt (Nat.pow_le_pow_right (by decide) (by omega : 8 ≤ j))
    rw [Nat.testBit_lt_two_pow hlt, decide_eq_false hj, Bool.false_and]

theorem State.Flushes.byte (hap : (l.map (fun x => 16 * x.place.word + x.at_)).Nodup) (hat : ∀ x ∈ l, x.at_ < 16) {x : ByteWrite} (hx : x ∈ l)
    {p : Place} (hs : p.space = .stack) (hp : p.word = x.place.word) : (t.peek p).1.toNat >>> (8 * x.at_) % 256 = x.byte.toNat :=
  h.byte_of_unique hx (hat x hx) (fun z hz hw ha => by rw [List.inj_on_of_nodup_map hap hz hx (by rw [hw, ha])]) hs hp

/-- A word whose bytes are poisoned as the word was stays as it was poisoned or not. -/
theorem State.Flushes.poison_eq {x : ByteWrite} (hx : x ∈ l) (hdet : ∀ z ∈ l, z.place.space = .stack ∧ z.place.detect = x.place.detect) {b : Bool}
    (hold : (s.peek x.place).2 = b) (hall : ∀ z ∈ l, z.place.word = x.place.word → z.bad = b)
    {p : Place} (hs : p.space = .stack) (hp : p.word = x.place.word) : (t.peek p).2 = b := by
  obtain ⟨y, r, hf, hw⟩ := h.written x hx
  have hin : ∀ z ∈ y :: r, z ∈ l ∧ z.place.word = x.place.word := fun z hz => by
    rw [← hf] at hz
    obtain ⟨hzl, hzw⟩ := List.mem_filter.1 hz
    exact ⟨hzl, by simpa using hzw⟩
  obtain ⟨hyl, hyw⟩ := hin y List.mem_cons_self
  have hpeek : s.peek y.place = s.peek x.place := by
    simp only [State.peek, State.placeCheck, State.placeData, State.placeSyn, (hdet y hyl).1, (hdet y hyl).2, (hdet x hx).1, hyw]
  rw [← hp] at hw
  rw [State.peek_of_word hs hw]
  have hany : (y :: r).any (·.bad) = b := by
    cases hb : b with
    | true => exact List.any_eq_true.2 ⟨y, List.mem_cons_self, by rw [hall y hyl hyw, hb]⟩
    | false =>
      refine List.any_eq_false.2 fun z hz => ?_
      rw [hall z (hin z hz).1 (hin z hz).2, hb]
      exact Bool.false_ne_true
  rw [State.spoilsWord, wordWrite, hany, hpeek, hold]
  cases b <;> simp

/-- A byte that is poisoned leaves its word poisoned. -/
theorem State.Flushes.poisoned {x : ByteWrite} (hx : x ∈ l) (hb : x.bad = true) {p : Place} (hs : p.space = .stack) (hp : p.word = x.place.word) :
    (t.peek p).2 = true := by
  obtain ⟨y, r, hf, hw⟩ := h.written x hx
  rw [← hp] at hw
  rw [State.peek_of_word hs hw]
  have hmem : x ∈ bytesFor l x.place.word := List.mem_filter.2 ⟨hx, beq_self_eq_true _⟩
  rw [hf] at hmem
  have hbad : (wordWrite y (y :: r)).bad = true := List.any_eq_true.2 ⟨x, hmem, hb⟩
  rw [State.spoilsWord, hbad, Bool.true_or]

theorem State.Flushes.word {sp : Space} {i : Nat} (hsp : sp ≠ .pages) (hi : (sp, i) ∉ l.map (fun x => (Space.stack, x.place.word))) :
    t.word sp i = s.word sp i := by
  cases sp with
  | pages => exact absurd rfl hsp
  | stack => exact h.other i fun x hx hw => hi (List.mem_map.2 ⟨x, hx, by rw [hw]⟩)
  | mortar | hasp =>
    rw [h.same]
    rfl

end

/-- The bytes that addBytes gathers. -/
def State.byteWrites (s : State) (loc : Nat → Loc) (off : Nat) (bad keep : Bool) (bs : List Byte) : List ByteWrite :=
  (List.range bs.length).map (fun o =>
    { place := s.locPlace (loc (off + o)) false, at_ := (loc (off + o)).byte % 16, byte := bs.getD o 0, bad := bad, keep := keep })

theorem State.byteWrites_cons (s : State) (loc : Nat → Loc) (off : Nat) (bad keep : Bool) (b : Byte) (bs : List Byte) :
    s.byteWrites loc off bad keep (b :: bs) =
      { place := s.locPlace (loc off) false, at_ := (loc off).byte % 16, byte := b, bad := bad, keep := keep } ::
        s.byteWrites loc (off + 1) bad keep bs := by
  rw [State.byteWrites, List.length_cons, List.range_succ_eq_map, List.map_cons, List.map_map]
  refine congrArg (List.cons _) (List.map_congr_left fun o _ => ?_)
  have ho : off + (o + 1) = off + 1 + o := by omega
  simp only [Function.comp, Nat.succ_eq_add_one, ho, List.getD_cons_succ]

theorem State.addBytes_eq (s : State) (loc : Nat → Loc) (m : Sparse WordWrite) (off : Nat) (bad keep : Bool) (bs : List Byte) :
    s.addBytes loc m off bad keep bs = gather m (s.byteWrites loc off bad keep bs) := by
  induction bs generalizing m off with
  | nil => rfl
  | cons b bs ih =>
    rw [State.byteWrites_cons, State.addBytes]
    exact ih _ _

/-- Gathering in rounds is gathering all. -/
theorem foldl_gather {α : Type} (f : Sparse WordWrite → α → Sparse WordWrite) (w : α → List ByteWrite) (l : List α) (m : Sparse WordWrite)
    (hf : ∀ m a, a ∈ l → f m a = gather m (w a)) : l.foldl f m = gather m (l.flatMap w) := by
  induction l generalizing m with
  | nil => rfl
  | cons a l ih =>
    rw [List.foldl_cons, List.flatMap_cons, gather_append, hf m a List.mem_cons_self]
    exact ih _ fun m b hb => hf m b (List.mem_cons_of_mem _ hb)

end Sys2Proof.Machine
end

section

/-!
SUPPORT. Words that are zeroed (R273, R294), and what a record of the configuration leaves (R345, R346).
-/

namespace Sys2Proof.Machine

variable {s t u : State}

/-! ### Zeros -/

/-- The store without the words that p tells. -/
def Store.without (m : Store) (p : Nat → Bool) : Store :=
  { cells := m.cells.filter (fun e => !p (e.1 / 16)), synd := m.synd.filter (fun e => !p e.1) }

theorem Sparse.get_filter_key {α : Type} (d : α) (q : Nat → Bool) (m : Sparse α) (k : Nat) :
    Sparse.get d (m.filter (fun e => q e.1)) k = if q k then Sparse.get d m k else d := by
  induction m with
  | nil => simp [Sparse.get]
  | cons e r ih =>
    obtain ⟨k', v⟩ := e
    by_cases hq : q k' = true
    · rw [List.filter_cons_of_pos (p := fun e : Nat × α => q e.1) hq]
      by_cases hk : k = k'
      · subst hk
        simp [Sparse.get, hq]
      · simp only [Sparse.get, hk, if_false]
        exact ih
    · rw [List.filter_cons_of_neg (p := fun e : Nat × α => q e.1) hq, ih]
      by_cases hk : k = k'
      · subst hk
        rw [if_neg hq, if_neg hq]
      · simp [Sparse.get, hk]

theorem Store.word_without (m : Store) (p : Nat → Bool) (w : Nat) :
    ((m.without p).data w, (m.without p).syn w) = if p w then (0, 0) else (m.data w, m.syn w) := by
  have hbyte : (m.without p).bytes (16 * w) 16 = if p w then List.replicate 16 0 else m.bytes (16 * w) 16 := by
    have hb (i : Nat) (hi : i < 16) : (m.without p).byte (16 * w + i) = if p w then 0 else m.byte (16 * w + i) := by
      have hw : (16 * w + i) / 16 = w := by omega
      have h := Sparse.get_filter_key (0 : Byte) (fun a => !p (a / 16)) m.cells (16 * w + i)
      simp only [hw] at h
      refine h.trans ?_
      cases p w <;> rfl
    rw [Store.bytes]
    split
    · next hp =>
      refine List.eq_replicate_iff.2 ⟨by rw [List.length_map, List.length_range], fun b hbm => ?_⟩
      obtain ⟨i, hi, rfl⟩ := List.mem_map.1 hbm
      rw [hb i (List.mem_range.1 hi), if_pos hp]
    · next hp =>
      refine List.map_congr_left fun i hi => ?_
      rw [hb i (List.mem_range.1 hi), if_neg hp]
  have hsyn : (m.without p).syn w = if p w then 0 else m.syn w := by
    have h := Sparse.get_filter_key (0 : BitVec 16) (fun a => !p a) m.synd w
    refine h.trans ?_
    cases p w <;> rfl
  rw [Store.data, hbyte, hsyn]
  split
  · rfl
  · rfl

/-- The words that Z tells are zeroed, and nothing else is changed. -/
structure State.Zeroes (Z : Nat → Prop) (s t : State) : Prop where
  frame : t = { s with stack := t.stack }
  zero : ∀ w, Z w → t.word .stack w = (0, 0)
  other : ∀ w, ¬ Z w → t.word .stack w = s.word .stack w

theorem State.zeroes_none (s : State) : State.Zeroes (fun _ => False) s s := ⟨rfl, fun _ h => h.elim, fun _ _ => rfl⟩

theorem State.Zeroes.trans {Z Z' : Nat → Prop} (h : State.Zeroes Z s t) (h' : State.Zeroes Z' t u) : State.Zeroes (fun w => Z w ∨ Z' w) s u where
  frame := by rw [h'.frame, h.frame]
  zero w hw := by
    by_cases hz : Z' w
    · exact h'.zero w hz
    · exact (h'.other w hz).trans (h.zero w (hw.resolve_right hz))
  other w hw := (h'.other w fun hz => hw (.inr hz)).trans (h.other w fun hz => hw (.inl hz))

theorem State.Zeroes.congr {Z Z' : Nat → Prop} (h : State.Zeroes Z s t) (hZ : ∀ w, Z w ↔ Z' w) : State.Zeroes Z' s t :=
  ⟨h.frame, fun w hw => h.zero w ((hZ w).2 hw), fun w hw => h.other w fun hz => hw ((hZ w).1 hz)⟩

theorem State.zeroes_foldl {α : Type} {f : State → α → State} {Z : α → Nat → Prop} (l : List α)
    (hf : ∀ (u : State) a, u = { s with stack := u.stack } → State.Zeroes (Z a) u (f u a)) : State.Zeroes (fun w => ∃ a ∈ l, Z a w) s (l.foldl f s) := by
  have hgen (l : List α) (u : State) (hu : u = { s with stack := u.stack }) : State.Zeroes (fun w => ∃ a ∈ l, Z a w) u (l.foldl f u) := by
    induction l generalizing u with
    | nil => exact (State.zeroes_none u).congr fun w => ⟨False.elim, fun ⟨a, ha, _⟩ => absurd ha List.not_mem_nil⟩
    | cons a l ih =>
      have h1 := hf u a hu
      have h2 := ih (f u a) (by rw [h1.frame, hu])
      exact (h1.trans h2).congr fun w => by simp
  exact hgen l s rfl

theorem State.zeroes_stkSet (s : State) (w : Nat) : State.Zeroes (· = w) s (s.stkSet w 0 0) where
  frame := s.stkSet_frame w 0 0
  zero i hi := by rw [hi, State.word_stkSet_self]
  other i hi := s.word_stkSet_ne 0 0 hi

/-- A filter of the store, where unlisted words read as zero. -/
theorem State.zeroes_without (hbg : s.bg = 0) (p : Nat → Bool) : State.Zeroes (fun w => p w = true) s { s with stack := s.stack.without p } where
  frame := rfl
  zero w hw := by
    have h := s.stack.word_without p w
    rw [if_pos hw] at h
    simpa [State.word, State.stkData, State.stkSyn, hbg] using h
  other w hw := by
    have h := s.stack.word_without p w
    rw [if_neg hw] at h
    simpa [State.word, State.stkData, State.stkSyn, hbg] using h

/-- The word at a row of a bank, whose row is one of the bank's physical rows. -/
theorem State.stackWordNo_split (s : State) (k row : Nat) {j : Nat} (hp : (s.bank k).physRow row < 9248) (hj : j < 128) :
    16 * s.stackWordNo k row j / bankBytes = k ∧ 16 * s.stackWordNo k row j % bankBytes / 2048 = (s.bank k).physRow row := by
  rw [State.stackWordNo]
  simp only [bankBytes] at *
  omega

theorem Bank.physRow_mem {b : Bank} {row : Nat} (h : b.physRow row ≠ row) : (row, b.physRow row - 9216) ∈ b.remaps ∧ 9216 ≤ b.physRow row := by
  unfold Bank.physRow at *
  rw [Bank.remaps, List.mem_append]
  split at h
  · next e he =>
    have hm := List.mem_of_find?_eq_some he
    have hr : e.2.1 = row := by simpa using List.find?_some he
    refine ⟨.inl (List.mem_map.2 ⟨e, hm, ?_⟩), Nat.le_add_right _ _⟩
    rw [Nat.add_sub_cancel_left, ← hr]
  · next hsoft =>
    split at h
    · next e he =>
      have hm := List.mem_reverse.1 (List.mem_of_find?_eq_some he)
      have hr : e.1 = row := by simpa using List.find?_some he
      refine ⟨.inr ?_, Nat.le_add_right _ _⟩
      rw [Nat.add_sub_cancel_left, ← hr]
      exact hm
    · exact absurd rfl h

/-- Word w stands in a row that is the physical one of a row of the slabs. -/
def State.inSlabs (s : State) (first n w : Nat) : Bool := s.physIn (16 * w / bankBytes) (16 * w % bankBytes / 2048) first n

/-- The zeros of slabs: of the words of their rows, and of no others (R294). -/
theorem State.zeroes_zeroSlabs (s : State) (first n : Nat) : ∃ Z, State.Zeroes Z s (s.zeroSlabs first n) ∧
    (∀ w, Z w → ∃ k i j, i < n ∧ j < 128 ∧ w = s.stackWordNo k (first + i) j) ∧
    (∀ k i j, k < 4096 → first + i < 9216 → (s.bank k).physRow (first + i) < 9248 → i < n → j < 128 → Z (s.stackWordNo k (first + i) j)) := by
  by_cases hbg : s.bg = 0
  · have hstore : s.zeroSlabs first n = { s with stack := s.stack.without (s.inSlabs first n) } := by
      unfold State.zeroSlabs
      rw [if_pos hbg]
      have hcell : ∀ e : Host.Cell, (!s.physIn (e.1 / bankBytes) (e.1 % bankBytes / 2048) first n) =
          !s.physIn (16 * (e.1 / 16) / bankBytes) (16 * (e.1 / 16) % bankBytes / 2048) first n := by
        intro e
        have h1 : e.1 / bankBytes = 16 * (e.1 / 16) / bankBytes := by
          simp only [bankBytes]
          omega
        have h2 : e.1 % bankBytes / 2048 = 16 * (e.1 / 16) % bankBytes / 2048 := by
          simp only [bankBytes]
          omega
        rw [h1, h2]
      simp only [Store.without, hcell, State.inSlabs]
    rw [hstore]
    refine ⟨_, State.zeroes_without hbg _, fun w hw => ?_, fun k i j hk hr hp hi hj => ?_⟩
    · unfold State.inSlabs State.physIn at hw
      have hlt : 16 * w % bankBytes / 2048 < 9248 := by
        simp only [bankBytes]
        omega
      have hnum : ∀ r, (s.bank (16 * w / bankBytes)).physRow r = 16 * w % bankBytes / 2048 → first ≤ r → r < first + n →
          ∃ k i j, i < n ∧ j < 128 ∧ w = s.stackWordNo k (first + i) j := by
        intro r hr h1 h2
        refine ⟨16 * w / bankBytes, r - first, w % 128, by omega, by omega, ?_⟩
        have hfi : first + (r - first) = r := by omega
        rw [hfi, State.stackWordNo, hr]
        simp only [bankBytes]
        omega
      dsimp only at hw
      split at hw
      · simp only [Bool.and_eq_true, decide_eq_true_eq, beq_iff_eq] at hw
        exact hnum _ hw.2 hw.1.1 hw.1.2
      · obtain ⟨e, -, he⟩ := List.any_eq_true.1 hw
        simp only [Bool.and_eq_true, decide_eq_true_eq, beq_iff_eq] at he
        exact hnum e.1 he.2 he.1.2.1 he.1.2.2
    · obtain ⟨h1, h2⟩ := s.stackWordNo_split k (first + i) hp hj
      rw [State.inSlabs, h1, h2]
      unfold State.physIn
      dsimp only
      by_cases hsame : (s.bank k).physRow (first + i) = first + i
      · rw [hsame, if_pos hr]
        simp [hi, hsame]
      · obtain ⟨hm, hge⟩ := Bank.physRow_mem hsame
        rw [if_neg (by omega)]
        exact List.any_eq_true.2 ⟨_, hm, by simp [hi]⟩
  · have hfold : s.zeroSlabs first n = (List.range 4096).foldl (fun s k => (List.range n).foldl (fun s r => (List.range 128).foldl (fun s w =>
        s.stkSet (s.stackWordNo k (first + r) w) 0 0) s) s) s := if_neg hbg
    rw [hfold]
    have hno (u : State) (hu : u = { s with stack := u.stack }) (k row j : Nat) : u.stackWordNo k row j = s.stackWordNo k row j := by
      rw [hu]
      rfl
    refine ⟨_, State.zeroes_foldl (Z := fun k w => ∃ r ∈ List.range n, ∃ j ∈ List.range 128, w = s.stackWordNo k (first + r) j) _ fun u k hu => ?_,
      fun w hw => ?_, fun k i j hk hr hp hi hj => ?_⟩
    · refine State.zeroes_foldl (Z := fun r w => ∃ j ∈ List.range 128, w = s.stackWordNo k (first + r) j) _ fun v r hv => ?_
      refine State.zeroes_foldl (Z := fun j w => w = s.stackWordNo k (first + r) j) _ fun x j hx => ?_
      rw [hno x (by rw [hx, hv, hu])]
      exact x.zeroes_stkSet _
    · obtain ⟨k, -, r, hr, j, hj, rfl⟩ := hw
      exact ⟨k, r, j, List.mem_range.1 hr, List.mem_range.1 hj, rfl⟩
    · exact ⟨k, List.mem_range.2 hk, i, List.mem_range.2 hi, j, List.mem_range.2 hj, rfl⟩

/-- The zeros of lines of a region. -/
theorem State.zeroes_zeroLines (s : State) (r : Region) (a n : Nat) :
    State.Zeroes (fun w => ∃ i ∈ List.range n, ∃ p ∈ s.linePlaces (r.loc (a + 128 * i)) false, w = p.word) s (s.zeroLines r a n) := by
  refine State.zeroes_foldl (Z := fun i w => ∃ p ∈ s.linePlaces (r.loc (a + 128 * i)) false, w = p.word) _ fun u i hu => ?_
  have hline : u.linePlaces (r.loc (a + 128 * i)) false = s.linePlaces (r.loc (a + 128 * i)) false := by
    rw [hu]
    rfl
  rw [hline]
  have hstack : ∀ p ∈ s.linePlaces (r.loc (a + 128 * i)) false, p.space = .stack := by
    intro p hp
    obtain ⟨j, -, rfl⟩ := List.mem_map.1 hp
    rfl
  generalize s.linePlaces (r.loc (a + 128 * i)) false = ps at hstack
  have hgen (ps : List Place) (hps : ∀ p ∈ ps, p.space = .stack) (v : State) :
      State.Zeroes (fun w => ∃ p ∈ ps, w = p.word) v (ps.foldl (fun s p => s.placeWrite p 0 false) v) := by
    induction ps generalizing v with
    | nil => exact (State.zeroes_none v).congr fun w => ⟨False.elim, fun ⟨p, hp, _⟩ => absurd hp List.not_mem_nil⟩
    | cons p ps ih =>
      have hset : v.placeWrite p 0 false = v.stkSet p.word 0 0 := by
        simp only [State.placeWrite, State.placeSet, hps p List.mem_cons_self]
        rfl
      rw [List.foldl_cons, hset]
      exact ((v.zeroes_stkSet p.word).trans (ih (fun q hq => hps q (List.mem_cons_of_mem _ hq)) _)).congr fun w => by simp
  exact hgen ps hstack u

/-! ### Where the rows of a bank stand -/

/-- Every row of every bank stands in the physical row in which it stood: no repair has been made or lost. -/
def State.SameRows (s t : State) : Prop := ∀ k row, (t.bank k).physRow row = (s.bank k).physRow row

namespace State.SameRows

theorem trans (h : s.SameRows t) (h' : t.SameRows u) : s.SameRows u := fun k row => (h' k row).trans (h k row)

theorem of_banks (h : t.banks = s.banks) : s.SameRows t := fun k row => congrArg (fun bs => (Sparse.get Bank.init bs k).physRow row) h

theorem setBank (k : Nat) {x : Bank} (hx : ∀ row, x.physRow row = (s.bank k).physRow row) : s.SameRows (s.setBank k x) := by
  intro i row
  rw [State.bank_setBank]
  split
  · next h => rw [hx, h]
  · rfl

theorem rowPlace (h : s.SameRows t) (k row j : Nat) (detect : Bool) : t.rowPlace k row j detect = s.rowPlace k row j detect := by
  simp only [State.rowPlace, State.stackWordNo, h k row]

theorem rowAccess (s : State) (k row : Nat) (cs : List Column) : s.SameRows (s.rowAccess k row cs) := by
  have hsent : s.SameRows (s.sendRow k row cs) := by
    refine of_banks ?_
    have hcols (u : State) : (cs.foldl (fun s c => s.sendColumn k c) u).banks = u.banks := by
      induction cs generalizing u with
      | nil => rfl
      | cons c r ih => exact ih _
    exact hcols _
  exact hsent.trans (setBank k fun _ => rfl)

theorem placeWrite (s : State) (p : Place) (d : BondData) (b : Bool) : s.SameRows (s.placeWrite p d b) := by
  unfold State.placeWrite State.placeSet
  refine of_banks ?_
  split
  · rw [State.stkSet_frame]
  · rfl
  · rfl
  · rfl

theorem putLine (s : State) (ps : List Place) (bs : List Byte) : s.SameRows (s.putLine ps bs) := by
  unfold State.putLine
  generalize (List.zip _ ps).map _ = l
  induction l generalizing s with
  | nil => exact fun _ _ => rfl
  | cons e r ih => exact (placeWrite s e.1 e.2.1 e.2.2).trans (ih _)

theorem fullRefresh (s : State) (k : Nat) : s.SameRows (s.fullRefresh k) := by
  unfold State.fullRefresh
  split
  · have h1 := setBank (s := s) k (x := { (s.bank k).refreshed 1 with refs := ((s.bank k).refreshed 1).refs + 1, waited := (((s.bank k).refreshed 1).queue.filter (·.host)).map (·.seq) })
      fun _ => rfl
    exact h1.trans ((setBank k fun _ => rfl : State.SameRows _ (State.occupy _ k refCycles)).trans (of_banks rfl))
  · exact fun _ _ => rfl

theorem lintelPutBytes (n : Nat) (s : State) (copy : Bool) (bs : List Byte) : s.SameRows (s.lintelPutBytes copy bs n) := by
  induction n generalizing s with
  | zero => exact of_banks rfl
  | succ n ih =>
    have h1 := ((rowAccess s (lintelBank copy) 9208 [lintelColumn true]).trans (putLine _ (s.lintelLine copy) bs)).trans
      (rowAccess _ (lintelBank copy) 9208 [lintelColumn false])
    simp only [State.lintelPutBytes]
    split
    · exact h1
    · exact h1.trans (ih _)

theorem lintelIssue (s : State) (copy : Bool) (bs : List Byte) : s.SameRows (s.lintelIssue copy bs) :=
  (fullRefresh s _).trans (lintelPutBytes 4 _ copy bs)

end State.SameRows

/-! ### Records that can be written now -/

/-- A record in both copies: t is s but for the record's number, its lines, and what is told of them. -/
structure State.Records (s t : State) : Prop where
  frame : t = { s with ctl := t.ctl, stack := t.stack, banks := t.banks, chans := t.chans, regs := t.regs, start := t.start,
                       frameBase := t.frameBase, dbWords := t.dbWords, free := t.free }
  rows : s.SameRows t
  word : ∀ w, (∀ c, ∀ p ∈ s.lintelLine c, p.word ≠ w) → t.word .stack w = s.word .stack w

theorem State.records_lintelWrite (hready : s.recordReady) :
    s.Records s.lintelWrite ∧ s.lintelWrite.ctl = { s.ctl with seq := s.ctl.seq + 1 } := by
  obtain ⟨-, hlines, hopen0, hopen1⟩ := hready
  have hw : s.lintelWrite = (s.lintelSeq.lintelPut false s.lintelSeq.ctl.epoch.toNat).lintelPut true s.lintelSeq.ctl.epoch.toNat := rfl
  rw [hw]
  have hlines' : s.lintelSeq.ctl.lintel = [] := hlines
  have hopen0' : s.lintelSeq.lintelOpen none false = true := hopen0
  have hopen1' : s.lintelSeq.lintelOpen none true = true := hopen1
  have hctl : s.lintelSeq.ctl = { s.ctl with seq := s.ctl.seq + 1 } := rfl
  have hline : s.lintelSeq.lintelLine = s.lintelLine := rfl
  have hframe : s.lintelSeq = { s with ctl := s.lintelSeq.ctl } := rfl
  have hword : ∀ w, s.lintelSeq.word .stack w = s.word .stack w := fun _ => rfl
  have hrows : s.SameRows s.lintelSeq := .of_banks rfl
  generalize s.lintelSeq = q at hlines' hopen0' hopen1' hctl hline hframe hword hrows
  rw [State.lintelPut_now hlines' hopen0']
  have h0 := q.putsCopy_lintelIssue (copy := false) (q.lintelBytes q.ctl.epoch.toNat)
  have hr0 := State.SameRows.lintelIssue q false (q.lintelBytes q.ctl.epoch.toNat)
  generalize q.lintelIssue false (q.lintelBytes q.ctl.epoch.toNat) = v at h0 hr0
  have hvctl : v.ctl = q.ctl := by rw [h0.frame]
  rw [State.lintelPut_now (by rw [hvctl, hlines']) (by rw [h0.lintelOpen, hopen1'])]
  have h1 := v.putsCopy_lintelIssue (copy := true) (v.lintelBytes q.ctl.epoch.toNat)
  have hr1 := State.SameRows.lintelIssue v true (v.lintelBytes q.ctl.epoch.toNat)
  generalize v.lintelIssue true (v.lintelBytes q.ctl.epoch.toNat) = u at h1 hr1
  have huctl : u.ctl = v.ctl := by rw [h1.frame]
  refine ⟨⟨?_, hrows.trans (hr0.trans hr1), fun w hw => ?_⟩, (huctl.trans hvctl).trans hctl⟩
  · rw [h1.frame, h0.frame, hframe]
  · rw [← hline] at hw
    refine ((h1.word w ?_).trans (h0.word w (hw false))).trans (hword w)
    rw [h0.line]
    exact hw true

/-- Frames that are forgotten leave the gates of the record's banks. -/
theorem State.sameGates_wroteRecord (s : State) : s.SameGates s.wroteRecord where
  start := by
    obtain ⟨cs, fb, n, h⟩ := s.wroteRecord_frame
    rw [h]
  stopped := by
    obtain ⟨cs, fb, n, h⟩ := s.wroteRecord_frame
    rw [h]
  bank k := by
    obtain ⟨cs, fb, n, h⟩ := s.wroteRecord_frame
    rw [h]
    exact ⟨rfl, rfl, rfl, rfl⟩
  chan c := by
    have hfold (l : List Nat) (u : State) : ∀ c, ((l.foldl (fun s c => s.setChan c { s.chan c with hist := [] }) u).chan c).sref = (u.chan c).sref ∧
        ((l.foldl (fun s c => s.setChan c { s.chan c with hist := [] }) u).chan c).trained = (u.chan c).trained ∧
        ((l.foldl (fun s c => s.setChan c { s.chan c with hist := [] }) u).chan c).fprogHold = (u.chan c).fprogHold := by
      induction l generalizing u with
      | nil => exact fun _ => ⟨rfl, rfl, rfl⟩
      | cons d r ih =>
        intro c
        obtain ⟨h1, h2, h3⟩ := ih (u.setChan d { u.chan d with hist := [] }) c
        rw [List.foldl_cons, h1, h2, h3, State.chan_setChan]
        split
        · next h => exact h ▸ ⟨rfl, rfl, rfl⟩
        · exact ⟨rfl, rfl, rfl⟩
    exact hfold (s.chans.map (·.1)) s.forgetDb c

theorem State.records_configChanged (hready : s.recordReady) :
    s.Records s.configChanged ∧ s.configChanged.ctl = { s.ctl with cfgSeq := s.ctl.cfgSeq + 1, seq := s.ctl.seq + 1 } := by
  have hg := s.sameGates_wroteRecord
  obtain ⟨cs, fb, n, hwr⟩ := s.wroteRecord_frame
  obtain ⟨hwriting, hlines, hopen0, hopen1⟩ := hready
  obtain ⟨q, hq⟩ : ∃ q : State, q =
      { s.wroteRecord with ctl := { s.ctl with cfgSeq := s.ctl.cfgSeq + 1 },
                           start := { s.start with cfgLost0 := false, cfgLost1 := false } } := ⟨_, rfl⟩
  have hopen (c : Bool) : q.lintelOpen none c = s.lintelOpen none c := by
    refine Eq.trans ?_ (hg.lintelOpen c)
    rw [hq, hwr]
    rfl
  have hqr : q.recordReady := by
    refine ⟨?_, ?_, (hopen _).trans hopen0, (hopen _).trans hopen1⟩
    · rw [hq]
      exact hwriting
    · rw [hq]
      exact hlines
  have hconf : s.configChanged = q.lintelWrite := by rw [hq]; rfl
  obtain ⟨⟨hf, hrows, hw⟩, hctl⟩ := State.records_lintelWrite hqr
  rw [hconf]
  generalize q.lintelWrite = t at hf hrows hw hctl
  rw [hwr] at hq
  refine ⟨⟨?_, State.SameRows.trans (.of_banks (by rw [hq])) hrows, fun w hl => ?_⟩, ?_⟩
  · rw [hf, hq]
  · have hline : q.lintelLine = s.lintelLine := by rw [hq]; rfl
    have hqw : q.word .stack w = s.word .stack w := by rw [hq]; rfl
    rw [← hline] at hl
    exact (hw w hl).trans hqw
  · rw [hctl, hq]

/-- A record leaves the words of Mortar and of hasp storage. -/
theorem State.Records.mortar (h : s.Records t) : t.mortar = s.mortar := by rw [h.frame]

theorem State.Records.hasps (h : s.Records t) : t.hasps = s.hasps := by rw [h.frame]

theorem State.Records.mbox (h : s.Records t) : t.mbox = s.mbox := by rw [h.frame]

theorem State.Records.groups (h : s.Records t) : t.groups = s.groups := by rw [h.frame]

theorem State.Records.regions (h : s.Records t) : t.regions = s.regions := by rw [h.frame]

theorem State.Records.latches (h : s.Records t) : t.latches = s.latches := by rw [h.frame]

/-- A command whose body leaves the words outside the record, and then answers. -/
theorem sameMemoryButRecord_of_answer {h : Nat} (hc : SameMemoryButHasp h t u)
    (hstack : ∀ w, (∀ c, ∀ p ∈ s.lintelLine c, p.word ≠ w) → t.word .stack w = s.word .stack w)
    (hmortar : t.mortar = s.mortar) (hhasps : t.hasps = s.hasps) (hhasp : ∀ j, j ≠ h → t.hasp j = s.hasp j) : SameMemoryButRecord h s u := by
  intro sp w hsp hq hw
  have hsame : u.word sp w = t.word sp w := hc sp w hsp fun h' =>
    ⟨(hq h').1, (State.badStatus_congr (hhasp _ (hq h').1)).trans (hq h').2⟩
  refine hsame.trans ?_
  cases sp with
  | pages => exact absurd rfl hsp
  | stack => exact hstack w (hw rfl)
  | mortar => simp only [State.word, hmortar]
  | hasp => simp only [State.word, hhasps]

end Sys2Proof.Machine
end

section

/-!
PROOF. The configuration (O46): a new group's zeros and RLAST (R294, R315).
-/

namespace Sys2Proof.Machine

variable {s t u : State} {h n : Nat}

/-- The rows whose RLAST a new group has, and the value of each (R294, R315). -/
def Group.rlastLocs (g : Group) (pl : Bool) : List Loc :=
  if g.sparse then (List.range g.pRows).map (fun u => g.arrLoc pl .rlast 0 u) else []

def Group.rlastBytes (g : Group) : List Byte := leBytes 4 ((g.start.toNat + 2 ^ 64 - 1) % 2 ^ 32)

/-- The bytes that a new group's RLAST gathers. -/
def State.rlastWrites (s : State) (g : Group) : List ByteWrite :=
  (g.rlastLocs (s.gPlaced g)).flatMap (fun l => s.byteWrites (fun i => { l with byte := l.byte + i }) 0 false false g.rlastBytes)

theorem State.initRlast_eq (s : State) (g : Group) : ∃ v, s.initRlast g = v ∧ (g.sparse = false → v = s) ∧
    (g.sparse = true → v = (s.flush { src := 0, agent := agentWarden } true false (fun _ => false) (gather [] (s.rlastWrites g))).1) := by
  refine ⟨_, rfl, fun hs => ?_, fun hs => ?_⟩
  · rw [State.initRlast, hs]
    rfl
  · rw [State.initRlast, hs]
    dsimp only
    rw [foldl_gather _ (fun u => s.byteWrites (fun i => { g.arrLoc (s.gPlaced g) .rlast 0 u with byte := (g.arrLoc (s.gPlaced g) .rlast 0 u).byte + i })
      0 false false (leBytes 4 ((g.start.toNat + 2 ^ 64 - 1) % 2 ^ 32))) _ _ fun m u _ => State.addBytes_eq s _ m _ _ _ _]
    rw [State.rlastWrites, Group.rlastLocs, hs, if_pos rfl, List.flatMap_map]
    rfl

theorem State.stack_rlastWrites (s : State) (g : Group) : ∀ x ∈ s.rlastWrites g, x.place.space = .stack := by
  intro x hx
  obtain ⟨l, -, hx⟩ := List.mem_flatMap.1 hx
  obtain ⟨o, -, rfl⟩ := List.mem_map.1 hx
  rfl

theorem State.at_rlastWrites {g : Group} {x : ByteWrite} (hx : x ∈ s.rlastWrites g) : x.at_ < 16 := by
  obtain ⟨l, -, hx⟩ := List.mem_flatMap.1 hx
  obtain ⟨o, -, rfl⟩ := List.mem_map.1 hx
  exact Nat.mod_lt _ (by decide)

theorem State.flushes_initRlast (s : State) (g : Group) : State.Flushes (s.rlastWrites g) s (s.initRlast g) := by
  obtain ⟨v, hv, hno, hyes⟩ := s.initRlast_eq g
  rw [hv]
  cases hs : g.sparse with
  | false =>
    have hnil : s.rlastWrites g = [] := by
      rw [State.rlastWrites, Group.rlastLocs, hs]
      rfl
    rw [hnil, hno hs]
    exact ⟨fun x hx => absurd hx List.not_mem_nil, fun _ _ => rfl, rfl⟩
  | true =>
    rw [hyes hs]
    exact State.flushes_flush _ _ _ _ (s.stack_rlastWrites g) s

/-- The places of the gathered bytes, as the statement names them. -/
theorem State.map_rlastWrites (s : State) (g : Group) {α : Type} (f : Nat → Nat → α) :
    (s.rlastWrites g).map (fun x => f x.place.word x.at_) =
      ((g.rlastLocs (s.gPlaced g)).flatMap (fun l => l.span 4)).map (fun l => f (s.locPlace l false).word (l.byte % 16)) := by
  rw [State.rlastWrites, List.map_flatMap, List.map_flatMap]
  refine List.flatMap_congr fun l _ => ?_
  rw [State.byteWrites, Loc.span, List.map_map, List.map_map, Group.rlastBytes, leBytes_length]
  refine List.map_congr_left fun o _ => ?_
  simp only [Function.comp, Nat.zero_add]

/-! ### A group that is made -/

/-- The bytes of the rows of a new group's RLAST. -/
def Group.rlastSpan (g : Group) (pl : Bool) : List Loc := (g.rlastLocs pl).flatMap (fun l => l.span 4)

/-- The words of a new group's Coffer area. -/
def State.cofferArea (s : State) (g : Group) (cr : Region) : List Nat :=
  (List.range g.cofferLines).flatMap (fun i => (s.linePlaces (cr.loc (g.coffer + 128 * i)) false).map (·.word))

/-- Word w stands in slab i of the group's, in bank k. -/
def State.slabHolds (s : State) (g : Group) (k i j w : Nat) : Prop := i < g.slabs ∧ j < 128 ∧ w = s.stackWordNo k (g.slab + i) j

/-- Word w is one of the record's. -/
def State.recordWord (s : State) (w : Nat) : Prop := ∃ c, ∃ p ∈ s.lintelLine c, p.word = w

/-- What the creation of a group leaves (R294). -/
structure State.Creates (n : Nat) (g : Group) (cr : Region) (s t : State) : Prop where
  ctl : t.ctl = { s.ctl with cfgSeq := s.ctl.cfgSeq + 1, seq := s.ctl.seq + 1 }
  mbox : t.mbox = s.mbox
  regions : t.regions = s.regions
  latches : t.latches = s.latches
  hasps : t.hasps = s.hasps
  mortar : t.mortar = s.mortar.zero (schedAt n) 1024
  groups : t.groups = (s.setGroup n (some g)).groups
  slab : ∀ k i j w, k < 4096 → g.slab + i < 9216 → (s.bank k).physRow (g.slab + i) < 9248 → s.slabHolds g k i j w →
    (.stack, w) ∉ s.wordsOf (g.rlastSpan (s.gPlaced g)) → ¬ s.recordWord w → t.word .stack w = (0, 0)
  coffer : ∀ w ∈ s.cofferArea g cr, ¬ s.recordWord w → t.word .stack w = (0, 0)
  rlast : s.apart (g.rlastSpan (s.gPlaced g)) →
    (∀ e ∈ s.wordsOf (g.rlastSpan (s.gPlaced g)), e.2 ∉ s.cofferArea g cr ∧ ¬ s.recordWord e.2) →
    ∀ l ∈ g.rlastLocs (s.gPlaced g), t.reads l g.rlastBytes
  other : ∀ w, (¬ ∃ k i j, s.slabHolds g k i j w) → (.stack, w) ∉ s.wordsOf (g.rlastSpan (s.gPlaced g)) → w ∉ s.cofferArea g cr →
    ¬ s.recordWord w → t.word .stack w = s.word .stack w

/-- The state of a new group before its record. -/
def State.created (s : State) (n : Nat) (g : Group) (cr : Region) : State :=
  ((((s.zeroSlabs g.slab g.slabs).setGroup n (some g)).initRlast g).putSchedule n []).zeroLines cr g.coffer g.cofferLines

theorem State.createNow_eq (s : State) (h n : Nat) (g : Group) (cr : Region) :
    s.createNow h n g cr = (s.created n g cr).configChanged.finish h .okay 0 g.response := rfl

theorem State.Works.stackWordNo (h : s.Works t) (k row j : Nat) : t.stackWordNo k row j = s.stackWordNo k row j := by
  have hb := h.bank k
  rw [Bank.SameButLatch] at hb
  rw [State.stackWordNo, State.stackWordNo, hb]
  rfl

theorem State.Works.rowPlace (h : s.Works t) (k row j : Nat) (detect : Bool) : t.rowPlace k row j detect = s.rowPlace k row j detect := by
  simp only [State.rowPlace, h.stackWordNo]

theorem State.works_initRlast {s₀ : State} (h : s₀.Works s) {g : Group} : s₀.Works (s.initRlast g) := by
  unfold State.initRlast
  split
  · exact h
  · exact State.works_flush h

/-- An empty table is the zeros alone. -/
theorem State.putSchedule_nil (s : State) (n : Nat) : s.putSchedule n [] = { s with mortar := s.mortar.zero (schedAt n) 1024 } := by
  have hnone : ceilDiv (schedAt n + 0) 16 - schedAt n / 16 = 0 := by
    simp only [ceilDiv, schedAt]
    omega
  have hfresh (m : Store) : m.writeFresh (schedAt n) [] = m := by
    unfold Store.writeFresh
    rw [List.length_nil, hnone]
    rfl
  rw [State.putSchedule, hfresh]

theorem State.creates_created (hready : s.recordReady) (n : Nat) (g : Group) (cr : Region) : State.Creates n g cr s (s.created n g cr).configChanged := by
  obtain ⟨Z, hz, hzin, hzall⟩ := s.zeroes_zeroSlabs g.slab g.slabs
  unfold State.created
  generalize s.zeroSlabs g.slab g.slabs = s1 at hz
  obtain ⟨s2, hs2⟩ : ∃ s2, s2 = s1.setGroup n (some g) := ⟨_, rfl⟩
  rw [← hs2]
  have h2frame : s2 = { s with stack := s2.stack, groups := (s.setGroup n (some g)).groups } := by
    rw [hs2, hz.frame]
    rfl
  have h2word : ∀ w, s2.word .stack w = s1.word .stack w := fun w => by
    rw [hs2]
    rfl
  have hfl := s2.flushes_initRlast g
  have hwk : s2.Works (s2.initRlast g) := State.works_initRlast (.refl s2)
  generalize s2.initRlast g = s3 at hfl hwk
  have h3 := hfl.same
  have hloc2 : ∀ l, s2.locPlace l false = s.locPlace l false := fun l => by
    rw [h2frame]
    rfl
  have hpl : s2.gPlaced g = s.gPlaced g := by
    rw [h2frame]
    rfl
  have hlast : ∀ w, (.stack, w) ∉ s.wordsOf (g.rlastSpan (s.gPlaced g)) → s3.word .stack w = s2.word .stack w := fun w hw => by
    refine hfl.word (by decide) fun hm => hw ?_
    have hmap := s2.map_rlastWrites g fun w _ => (Space.stack, w)
    rw [hmap, hpl] at hm
    simp only [hloc2] at hm
    exact hm
  rw [State.putSchedule_nil]
  obtain ⟨s4, hs4⟩ : ∃ s4 : State, s4 = { s3 with mortar := s3.mortar.zero (schedAt n) 1024 } := ⟨_, rfl⟩
  rw [← hs4]
  have h4word : ∀ w, s4.word .stack w = s3.word .stack w := fun w => by
    rw [hs4]
    rfl
  have hrow : ∀ k row j d, s4.rowPlace k row j d = s.rowPlace k row j d := fun k row j d => by
    have h43 : s4.rowPlace k row j d = s3.rowPlace k row j d := by
      rw [hs4]
      rfl
    refine h43.trans ((hwk.rowPlace k row j d).trans ?_)
    rw [h2frame]
    rfl
  have hlines : ∀ l, s4.linePlaces l false = s.linePlaces l false := fun l => by
    simp only [State.linePlaces, hrow]
  have hz5 := s4.zeroes_zeroLines cr g.coffer g.cofferLines
  generalize s4.zeroLines cr g.coffer g.cofferLines = s5 at hz5
  have harea : ∀ w, (∃ i ∈ List.range g.cofferLines, ∃ p ∈ s4.linePlaces (cr.loc (g.coffer + 128 * i)) false, w = p.word) ↔ w ∈ s.cofferArea g cr := by
    intro w
    simp only [State.cofferArea, hlines, List.mem_flatMap, List.mem_map]
    exact ⟨fun ⟨i, hi, p, hp, he⟩ => ⟨i, hi, p, hp, he.symm⟩, fun ⟨i, hi, p, hp, he⟩ => ⟨i, hi, p, hp, he.symm⟩⟩
  have hz5' := hz5.congr harea
  clear hz5
  have h5row : ∀ k row j d, s5.rowPlace k row j d = s.rowPlace k row j d := fun k row j d => by
    refine Eq.trans ?_ (hrow k row j d)
    rw [hz5'.frame]
    rfl
  have h5frame : s5 = { s with regs := s3.regs, chans := s3.chans, banks := s3.banks, crossing := s3.crossing, stack := s5.stack,
                               groups := (s.setGroup n (some g)).groups, mortar := s.mortar.zero (schedAt n) 1024 } := by
    rw [hz5'.frame, hs4, h3, h2frame]
  have hgates : s.SameGates s5 := by
    have h1 : s.SameGates s2 := by
      rw [h2frame]
      exact ⟨rfl, rfl, fun _ => ⟨rfl, rfl, rfl, rfl⟩, fun _ => ⟨rfl, rfl, rfl⟩⟩
    refine h1.trans (hwk.sameGates.trans ?_)
    have h53 : s5 = { s3 with mortar := s5.mortar, stack := s5.stack } := by
      rw [hz5'.frame, hs4]
    rw [h53]
    exact ⟨rfl, rfl, fun _ => ⟨rfl, rfl, rfl, rfl⟩, fun _ => ⟨rfl, rfl, rfl⟩⟩
  have hready5 : s5.recordReady := by
    obtain ⟨hw, hl, h0, h1⟩ := hready
    refine ⟨?_, ?_, (hgates.lintelOpen _).trans h0, (hgates.lintelOpen _).trans h1⟩
    · rw [h5frame]
      exact hw
    · rw [h5frame]
      exact hl
  obtain ⟨hrec, hctl⟩ := State.records_configChanged hready5
  generalize s5.configChanged = t at hrec hctl
  have htword : ∀ w, ¬ s.recordWord w → t.word .stack w = s5.word .stack w := fun w hw => by
    refine hrec.word w fun c p hp he => hw ⟨c, p, ?_, he⟩
    simpa only [State.lintelLine, h5row] using hp
  have htother : ∀ w, w ∉ s.cofferArea g cr → ¬ s.recordWord w → t.word .stack w = s3.word .stack w := fun w hc hw =>
    (htword w hw).trans ((hz5'.other w hc).trans (h4word w))
  refine ⟨?_, ?_, ?_, ?_, ?_, ?_, ?_, fun k i j w hk hr hp hs hl hw => ?_, fun w hc hw => (htword w hw).trans (hz5'.zero w hc),
    fun hap hout l hl => ?_, fun w hs hl hc hw => ?_⟩
  · rw [hctl, h5frame]
  · rw [hrec.mbox, h5frame]
  · rw [hrec.regions, h5frame]
  · rw [hrec.latches, h5frame]
  · rw [hrec.hasps, h5frame]
  · rw [hrec.mortar, h5frame]
  · rw [hrec.groups, h5frame]
  · by_cases hc : w ∈ s.cofferArea g cr
    · exact (htword w hw).trans (hz5'.zero w hc)
    · obtain ⟨hi, hj, rfl⟩ := hs
      exact (htother _ hc hw).trans ((hlast _ hl).trans ((h2word _).trans (hz.zero _ (hzall k i j hk hr hp hi hj))))
  · intro o ho
    rw [Group.rlastBytes, leBytes_length] at ho
    have hmem : { l with byte := l.byte + o } ∈ g.rlastSpan (s.gPlaced g) :=
      List.mem_flatMap.2 ⟨l, hl, List.mem_map.2 ⟨o, List.mem_range.2 ho, rfl⟩⟩
    obtain ⟨hc, hrw⟩ := hout _ (List.mem_map.2 ⟨_, hmem, rfl⟩)
    have hword := htother _ hc hrw
    have hplace : t.locPlace { l with byte := l.byte + o } false = s.locPlace { l with byte := l.byte + o } false :=
      (hrec.rows.rowPlace _ _ _ _).trans (h5row _ _ _ _)
    have hx : { place := s2.locPlace { l with byte := l.byte + o } false, at_ := (l.byte + o) % 16, byte := g.rlastBytes.getD o 0,
                bad := false, keep := false } ∈ s2.rlastWrites g := by
      refine List.mem_flatMap.2 ⟨l, by rw [hpl]; exact hl, List.mem_map.2 ⟨o, ?_, ?_⟩⟩
      · rw [Group.rlastBytes, leBytes_length]
        exact List.mem_range.2 ho
      · rw [Nat.zero_add]
    have hdup : ((s2.rlastWrites g).map (fun x => 16 * x.place.word + x.at_)).Nodup := by
      rw [s2.map_rlastWrites g fun w i => 16 * w + i, hpl]
      simp only [hloc2]
      exact hap
    have hread := hfl.byte hdup (fun x hx => State.at_rlastWrites hx) hx (p := s.locPlace { l with byte := l.byte + o } false) rfl
      (by rw [hloc2])
    rw [State.peekNat, hplace, State.peek_congr (show Space.stack ≠ Space.pages by decide) hword]
    exact hread
  · refine (htother w hc hw).trans ((hlast w hl).trans ((h2word w).trans (hz.other w fun h => hs ?_)))
    obtain ⟨k, i, j, hi, hj, he⟩ := hzin w h
    exact ⟨k, i, j, hi, hj, he⟩

end Sys2Proof.Machine
end

section

/-!
PROOF. The configuration is set and recorded (O46).
-/

namespace Sys2Proof.Machine

variable {s t u v : State} {h n op : Nat} {bs : List Byte} {body : State → State}

/-! ### What a configuration command leaves -/

/-- A body that answers OKAY where no line of a record waits. -/
theorem State.answered_body_now (hturn : s.turn h op) (hbody : body (s.begin_ h) = v.finish h .okay 0 bs) (hlines : v.ctl.lintel = [])
    (hlen : bs.length % 16 = 0) (hmax : bs.length ≤ 1984) : v.Answered (s.runCommand h op body) h .okay 0 bs := by
  refine State.answered_runCommand hturn hmax ?_
  rw [hbody]
  have hnow : ¬(MStatus.okay = .okay ∧ v.recordWaits h = true) := by
    rintro ⟨-, hw⟩
    simp [State.recordWaits, hlines] at hw
  have hfin := v.answered_finish h .okay (d := 0) (by decide) hlen hmax hnow
  simpa using hfin

/-- A command has answered OKAY with bytes, and leaves what v holds but for its answer. -/
structure State.Configures (h : Nat) (bs : List Byte) (s v t : State) : Prop where
  done : t.done h .okay
  bytes : t.respBytes h bs
  ctl : t.ctl = v.ctl
  latches : t.latches = v.latches
  groups : t.groups = v.groups
  regions : t.regions = v.regions
  mortar : t.mortar = v.mortar
  word : ∀ w, t.word .stack w = v.word .stack w
  peek : ∀ l n, t.peekNat l n = v.peekNat l n
  memory : (∀ w, (∀ c, ∀ p ∈ s.lintelLine c, p.word ≠ w) → v.word .stack w = s.word .stack w) → v.mortar = s.mortar → SameMemoryButRecord h s t

theorem State.configures_body (hturn : s.turn h op) (hbody : body (s.begin_ h) = v.finish h .okay 0 bs) (hlines : v.ctl.lintel = [])
    (hlen : bs.length % 16 = 0) (hmax : bs.length ≤ 1984) (hmbox : v.mbox = (s.begin_ h).mbox) (hhasps : v.hasps = s.hasps) :
    State.Configures h bs s v (s.runCommand h op body) := by
  have hc := State.answered_body_now hturn hbody hlines hlen hmax
  generalize s.runCommand h op body = t at hc
  have hsame := hc.sameMemoryButHasp
  have hbytes := hc.holds.bytes
  obtain ⟨x, hx⟩ := hc.causes
  refine ⟨hc.done, hbytes, ?_, ?_, ?_, ?_, ?_, ?_, ?_, fun hstack hmortar => ?_⟩
  · rw [hx]
  · rw [hx]
  · rw [hx]
  · rw [hx]
  · rw [hx]
  · intro w
    rw [hx]
    rfl
  · intro l n
    rw [hx]
    rfl
  · refine sameMemoryButRecord_of_answer hsame hstack hmortar hhasps fun j hj => ?_
    refine Eq.trans ?_ (s.hasp_begin_ne hj)
    exact congrArg (fun m : Mailbox => Sparse.get Hasp.init m.hasps j) hmbox

/-- A change of the regions, groups or schedules that is recorded: u holds it before its record. -/
theorem State.configures_recorded (hturn : s.turn h op) (hbody : body (s.begin_ h) = u.configChanged.finish h .okay 0 bs) (hready : u.recordReady)
    (hlen : bs.length % 16 = 0) (hmax : bs.length ≤ 1984) (hmbox : u.mbox = (s.begin_ h).mbox) (hhasps : u.hasps = s.hasps) :
    u.Records u.configChanged ∧ u.configChanged.ctl = { u.ctl with cfgSeq := u.ctl.cfgSeq + 1, seq := u.ctl.seq + 1 } ∧
      State.Configures h bs s u.configChanged (s.runCommand h op body) := by
  obtain ⟨hrec, hctl⟩ := State.records_configChanged hready
  refine ⟨hrec, hctl, State.configures_body hturn hbody ?_ hlen hmax (hrec.mbox.trans hmbox) (hrec.hasps.trans hhasps)⟩
  rw [hctl]
  exact hready.2.1

/-- A command that a status refuses. -/
theorem refusesAndKeeps {st : MStatus} {c : Instr} (hturn : s.turn h op) (hx : exec c s = .next (s.runCommand h op body))
    (hbody : body (s.begin_ h) = (s.begin_ h).finish h st 0 []) (hst : st ≠ .okay) :
    ∃ t, exec c s = .next t ∧ t.done h st ∧ SameMemoryButHasp h s t ∧ t.ctl = s.ctl ∧ t.regions = s.regions ∧ t.groups = s.groups := by
  have hc := State.completes_body hturn hbody (by decide) fun hok => absurd hok hst
  refine ⟨_, hx, hc.done, hc.sameMemoryButHasp, hc.frame.ctl, ?_, ?_⟩
  · rw [hc.frame]
  · rw [hc.frame]

/-! ### The commands -/

theorem exec_setCompat (hh : h < 16) : exec (.setCompat h) s = .next (s.runCommand h 0x02 (fun s => s.setCompat h)) :=
  guard_eq_next.2 ⟨decide_eq_true hh, rfl⟩

theorem exec_defineRegion (hh : h < 16) : exec (.defineRegion h) s = .next (s.runCommand h 0x03 (fun s => s.defineRegion h)) :=
  guard_eq_next.2 ⟨decide_eq_true hh, rfl⟩

theorem exec_defineGroup (hh : h < 16) : exec (.defineGroup h) s = .next (s.runCommand h 0x04 (fun s => s.defineGroup h)) :=
  guard_eq_next.2 ⟨decide_eq_true hh, rfl⟩

theorem exec_loadSchedule (hh : h < 16) (hw : s.ctl.writing = none) :
    exec (.loadSchedule h) s = .next (s.runCommand h 0x05 (fun s => s.loadSchedule h)) := by
  refine guard_eq_next.2 ⟨decide_eq_true hh, ?_⟩
  rw [hw]
  rfl

theorem State.recordReady_begin (hready : s.recordReady) (h : Nat) : (s.begin_ h).recordReady := hready

/-! ### SET_COMPAT -/

theorem State.setCompat_busy (hlvl : (s.hasp h).pay 0 1 = 3 ∨ (s.hasp h).pay 0 1 = 4) (hrev : (s.hasp h).pay 1 1 = 2 ∨ (s.hasp h).pay 1 1 = 3)
    (hb : s.holdsStep = true) : s.setCompat h = s.finish h .stepBusy 0 [] := by
  unfold State.setCompat
  dsimp only
  rw [if_neg (by omega), if_neg (by omega), if_pos hb]

theorem State.setCompat_sets (hready : s.recordReady) (hlvl : (s.hasp h).pay 0 1 = 3 ∨ (s.hasp h).pay 0 1 = 4)
    (hrev : (s.hasp h).pay 1 1 = 2 ∨ (s.hasp h).pay 1 1 = 3) (hb : s.holdsStep = false) (hmin : s.start.run.cmin.toNat ≤ (s.hasp h).pay 0 1)
    (hmax : (s.hasp h).pay 0 1 ≤ s.start.run.cmax.toNat) (hn3 : ¬((s.hasp h).pay 1 1 = 3 ∧ ((s.hasp h).pay 0 1 = 3 ∨ s.numMax < 3)))
    (hn2 : ¬((s.hasp h).pay 1 1 = 2 ∧ s.groupList.any (fun e => e.2.needsN3) = true)) :
    s.setCompat h = (s.applyCompat h).lintelWrite.finish h .okay 0 [] ∧ (s.applyCompat h).Records (s.applyCompat h).lintelWrite ∧
      (s.applyCompat h).lintelWrite.ctl = { (s.applyCompat h).ctl with seq := s.ctl.seq + 1 } := by
  have hready' : (s.applyCompat h).recordReady := hready
  obtain ⟨hrec, hctl⟩ := State.records_lintelWrite hready'
  refine ⟨?_, hrec, hctl⟩
  have hl : (s.applyCompat h).lintelWrite.ctl.lintel = [] := by
    rw [hctl]
    exact hready.2.1
  unfold State.setCompat
  dsimp only
  rw [if_neg (by omega), if_neg (by omega), if_neg (by rw [hb]; exact Bool.false_ne_true), if_neg (by omega), if_neg hn3, if_neg hn2, if_pos (by rw [hl]; rfl)]

/-! ### DEFINE_REGION -/

theorem State.regionBad_congr {x y : Hasp} (hp : x.pay = y.pay) : s.regionBad x = s.regionBad y := by
  simp only [State.regionBad, hp]

theorem Hasp.regionOf_congr {x y : Hasp} (hp : x.pay = y.pay) : x.regionOf = y.regionOf := by
  simp only [Hasp.regionOf, hp]

theorem State.defineRegion_busy (hbad : s.regionBad (s.hasp h) = none) (hb : s.holdsStep = true) :
    s.defineRegion h = s.finish h .stepBusy 0 [] := by
  simp only [State.defineRegion, hbad, hb, if_true]

theorem State.defineRegion_sets (hbad : s.regionBad (s.hasp h) = none) (hb : s.holdsStep = false) (hex : s.exporting = false)
    (hring : s.ringBusy = false)
    (hold : ∀ r, s.region ((s.hasp h).pay 0 1) = some r → (∀ b ∈ s.mbox.bg, b.touches r = false) ∧
      ∀ e ∈ s.groupList, e.2.stReg ≠ (s.hasp h).pay 0 1 ∧ e.2.cfReg ≠ (s.hasp h).pay 0 1)
    (hnew : ∀ r, (s.hasp h).regionOf = some r → s.regionOverlaps ((s.hasp h).pay 0 1) r = false) :
    s.defineRegion h = (s.setRegion ((s.hasp h).pay 0 1) (s.hasp h).regionOf).configChanged.finish h .okay 0 [] := by
  have hbg : (match s.region ((s.hasp h).pay 0 1) with | some r => s.mbox.bg.any (·.touches r) | none => false) = false := by
    cases hr : s.region ((s.hasp h).pay 0 1) with
    | none => rfl
    | some r => exact List.any_eq_false.2 fun b hb => by rw [(hold r hr).1 b hb]; exact Bool.false_ne_true
  have hgr : ((s.region ((s.hasp h).pay 0 1)).isSome && s.groupList.any (fun e => e.2.stReg == (s.hasp h).pay 0 1 || e.2.cfReg == (s.hasp h).pay 0 1)) =
      false := by
    cases hr : s.region ((s.hasp h).pay 0 1) with
    | none => rfl
    | some r =>
      refine List.any_eq_false.2 fun e he => ?_
      obtain ⟨h1, h2⟩ := (hold r hr).2 e he
      simp [h1, h2]
  have hov : (match (s.hasp h).regionOf with | some r => s.regionOverlaps ((s.hasp h).pay 0 1) r | none => false) = false := by
    cases hr : (s.hasp h).regionOf with
    | none => rfl
    | some r => exact hnew r hr
  unfold State.defineRegion
  dsimp only
  rw [hbad]
  dsimp only
  refine (if_neg (by rw [hb]; exact Bool.false_ne_true)).trans ((if_neg (by rw [hex]; exact Bool.false_ne_true)).trans ?_)
  refine (if_neg fun h' => Bool.false_ne_true (hbg.symm.trans h')).trans ((if_neg ?_).trans (if_neg fun h' => Bool.false_ne_true (hov.symm.trans h')))
  rw [hgr, hring]
  exact Bool.false_ne_true

/-! ### DEFINE_GROUP -/

theorem bytesOf_drop_take (m : List (Nat × Byte)) (lo a n k : Nat) (hk : a + k ≤ n) : ((bytesOf m lo n).drop a).take k = bytesOf m (lo + a) k := by
  refine List.ext_getElem ?_ fun i h1 h2 => ?_
  · simp only [bytesOf, List.length_take, List.length_drop, List.length_map, List.length_range]
    omega
  · simp only [bytesOf, List.getElem_take, List.getElem_drop, List.getElem_map, List.getElem_range, Nat.add_assoc]

/-- A field of the entry is the payload's. -/
theorem Hasp.field_payload (x : Hasp) {a k : Nat} (hk : a + k ≤ 64) : field (x.payload 0 64) a k = x.pay a k := by
  rw [field, Hasp.pay, Hasp.payload, bytesOf_drop_take _ _ _ _ _ hk]
  rfl

/-- The entry that a request gives, and its number. -/
def Hasp.entry (x : Hasp) : Group := Group.ofBytes (x.payload 0 64)

theorem State.entry_begin (s : State) (h : Nat) : ((s.begin_ h).hasp h).entry = (s.hasp h).entry := by
  rw [Hasp.entry, State.payload_begin]
  rfl

theorem State.defineGroup_busy (hn : (s.hasp h).entry.n ≠ 0) (hbad : s.groupBad (s.hasp h).entry ((s.hasp h).pay 12 2) = none)
    (hb : s.holdsStep = true) : s.defineGroup h = s.finish h .stepBusy 0 [] := by
  rw [← Hasp.field_payload (s.hasp h) (by decide)] at hbad
  rw [Hasp.entry] at hn hbad
  simp only [State.defineGroup, if_neg hn, hbad, hb, if_true]

theorem State.defineGroup_deletes (hn : (s.hasp h).entry.n = 0) (hle : (s.hasp h).pay 12 2 ≤ 2047) (hsome : (s.group ((s.hasp h).pay 12 2)).isSome = true)
    (hbad : deleteBad ((s.hasp h).payload 0 64) = none) (hb : s.holdsStep = false) (hex : s.exporting = false) :
    s.defineGroup h = (s.setGroup ((s.hasp h).pay 12 2) none).configChanged.finish h .okay 0 [] := by
  rw [← Hasp.field_payload (s.hasp h) (by decide)] at *
  rw [Hasp.entry] at hn
  have hgo : ¬(2047 < field ((s.hasp h).payload 0 64) 12 2 ∨ (s.group (field ((s.hasp h).payload 0 64) 12 2)).isNone = true) := by
    rw [Option.isNone_eq_false_iff.2 hsome]
    exact fun h' => h'.elim (by omega) Bool.false_ne_true
  simp only [State.defineGroup, if_pos hn, if_neg hgo, hbad, hb, hex, Bool.false_eq_true, if_false]

theorem State.defineGroup_same (hn : (s.hasp h).entry.n ≠ 0) (hbad : s.groupBad (s.hasp h).entry ((s.hasp h).pay 12 2) = none)
    (hb : s.holdsStep = false) (hex : s.exporting = false) {o : Group} (hg : s.group ((s.hasp h).pay 12 2) = some o)
    (hre : (s.hasp h).entry.retunes o = false) : s.defineGroup h = s.finish h .groupExists 0 [] := by
  rw [← Hasp.field_payload (s.hasp h) (by decide)] at *
  rw [Hasp.entry] at hn hbad hre
  simp only [State.defineGroup, if_neg hn, hbad, hb, hex, hg, hre, Bool.false_eq_true, if_false]

/-- The group with the fields that a retune changes (R293). -/
def Group.retuned (o g : Group) : Group :=
  { o with beta1 := g.beta1, beta2 := g.beta2, eps := g.eps, lambda := g.lambda, clipD := g.clipD, eLsb := g.eLsb, rnd := g.rnd, flags := g.flags }

theorem State.defineGroup_retunes (hn : (s.hasp h).entry.n ≠ 0) (hbad : s.groupBad (s.hasp h).entry ((s.hasp h).pay 12 2) = none)
    (hb : s.holdsStep = false) (hex : s.exporting = false) {o : Group} (hg : s.group ((s.hasp h).pay 12 2) = some o)
    (hre : (s.hasp h).entry.retunes o = true) :
    s.defineGroup h = (s.setGroup ((s.hasp h).pay 12 2) (some (o.retuned (s.hasp h).entry))).configChanged.finish h .okay 0
      (o.retuned (s.hasp h).entry).response := by
  rw [← Hasp.field_payload (s.hasp h) (by decide)] at *
  rw [Hasp.entry] at *
  simp only [State.defineGroup, if_neg hn, hbad, hb, hex, hg, hre, Bool.false_eq_true, if_false, if_true]
  rfl

theorem Group.length_response (g : Group) : g.response.length = 32 := by
  simp only [Group.response, List.length_append, leBytes_length]

/-! ### A new group -/

/-- The group that a definition makes (R294). -/
def State.newGroup (s : State) (g : Group) (placed : Bool) (slab cof base : Nat) : Group :=
  { g with start := s.ctl.epoch, low := s.ctl.epoch, base := base, slab := slab, slabs := g.needSlabs placed, coffer := cof, wRnd := g.rnd,
           wSeed := s.ctl.seed }

theorem State.defineGroup_creates (hn : (s.hasp h).entry.n ≠ 0) (hbad : s.groupBad (s.hasp h).entry ((s.hasp h).pay 12 2) = none)
    (hb : s.holdsStep = false) (hex : s.exporting = false) (hg : s.group ((s.hasp h).pay 12 2) = none) {sr cr : Region} {slab cof base : Nat}
    (hsr : s.region (s.hasp h).entry.stReg = some sr) (hcr : s.region (s.hasp h).entry.cfReg = some cr)
    (hslab : s.fitSlabs (s.hasp h).entry sr = some slab) (hcof : s.fitCoffer (s.hasp h).entry cr = some cof)
    (hbase : s.fitBase (s.hasp h).entry = some base) (hpool : s.mortarPoolUsed + (s.hasp h).entry.mortarPool ≤ 0x3000000)
    (hsys : s.sysPoolUsed + (s.hasp h).entry.sysPool ≤ 26 * 2 ^ 20) :
    s.defineGroup h = if (s.zeroPlan (s.newGroup (s.hasp h).entry sr.placed slab cof base) cr).isEmpty
      then s.createNow h ((s.hasp h).pay 12 2) (s.newGroup (s.hasp h).entry sr.placed slab cof base) cr
      else (s.ksAccess (s.zeroPlan (s.newGroup (s.hasp h).entry sr.placed slab cof base) cr) 0 (.create h)).1.holdSerial h := by
  have hroom : s.groupRoom (s.hasp h).entry = some (s.newGroup (s.hasp h).entry sr.placed slab cof base, cr) := by
    simp only [State.groupRoom, hsr, hcr, hslab, hcof, hbase]
    exact if_neg (by omega)
  rw [← Hasp.field_payload (s.hasp h) (by decide)] at *
  rw [Hasp.entry] at *
  simp only [State.defineGroup, if_neg hn, hbad, hb, hex, hg, State.createGroup, hroom, Bool.false_eq_true, if_false]

theorem le_foldl_add {α : Type} (f : α → Nat) (l : List α) (n : Nat) : n ≤ l.foldl (fun t a => t + f a) n := by
  induction l generalizing n with
  | nil => exact Nat.le_refl _
  | cons a l ih => exact (Nat.le_add_right _ _).trans (ih _)

theorem le_foldl_add_of_mem {α : Type} (f : α → Nat) {l : List α} {a : α} (ha : a ∈ l) (n : Nat) : f a ≤ l.foldl (fun t a => t + f a) n := by
  induction l generalizing n with
  | nil => exact absurd ha List.not_mem_nil
  | cons b l ih =>
    obtain rfl | ha := List.mem_cons.1 ha
    · exact (Nat.le_add_left _ _).trans (le_foldl_add f l _)
    · exact ih ha _

theorem Group.layElems_pos (g : Group) (hn : g.n ≠ 0) (pl : Bool) : 0 < g.layElems pl := by
  unfold Group.layElems
  split
  · have hw : 0 < g.width := by
      unfold Group.width
      split
      · decide
      · omega
    have hrow : ∀ u, u < g.pRows → 0 < g.rowLen u := by
      intro u hu
      have hlt : u * g.width < g.n := by
        have h1 : (u + 1) * g.width ≤ g.n + g.width - 1 := (Nat.le_div_iff_mul_le hw).1 hu
        have h2 := Nat.add_one_mul u g.width
        omega
      rw [Group.rowLen]
      omega
    have hp : 0 < g.pRows := Nat.div_pos (by omega) hw
    have hlay : 4096 * (g.layRows pl - 1) < g.pRows := by
      rw [Group.layRows, if_pos ‹_›]
      simp only [ceilDiv]
      omega
    exact Nat.lt_of_lt_of_le (hrow _ hlay) (Nat.le_add_left _ _)
  · omega

theorem Group.needSlabs_pos (g : Group) (hn : g.n ≠ 0) (pl : Bool) : 0 < g.needSlabs pl := by
  have hmem : (Arr.acc, 0) ∈ g.arrays := by
    simp [Group.arrays]
  have hle := le_foldl_add_of_mem (fun e : Arr × Nat => roundUp 128 (g.arrBytes pl e.1)) hmem 0
  have hpos : 0 < roundUp 128 (g.arrBytes pl .acc) := by
    have h8 : g.arrBytes pl .acc = 8 * g.layElems pl := rfl
    have := g.layElems_pos hn pl
    rw [h8, roundUp]
    omega
  have htot : 0 < g.totalBytes pl := Nat.lt_of_lt_of_le hpos hle
  rw [Group.needSlabs, ceilDiv]
  cases pl
  · exact Nat.div_pos (by simp only [Bool.false_eq_true, if_false]; omega) (by decide)
  · exact Nat.div_pos (by simp only [if_true]; omega) (by decide)

/-- Zeroing that must reach a bank which does not take it now waits. -/
theorem State.zeroPlan_waits {g : Group} {cr : Region} (hg : 0 < g.slabs) (hp : s.zeroPlan g cr ≠ []) : s.goes (s.zeroPlan g cr) 0 = false := by
  obtain ⟨r, hr⟩ := List.exists_mem_of_ne_nil _ hp
  obtain ⟨k, hk, -⟩ := List.mem_flatMap.1 hr
  obtain ⟨hmem, hfree⟩ := List.mem_filter.1 hk
  have hrow : Reach.row true k ((s.bank k).physRow (g.slab + 0)) ((List.range 16).map (4 * ·)) ∈ s.zeroPlan g cr :=
    List.mem_flatMap.2 ⟨k, hk, List.mem_append_left _ (List.mem_map.2 ⟨0, List.mem_range.2 hg, rfl⟩)⟩
  rw [State.goes, Bool.and_eq_false_iff]
  refine .inr (List.all_eq_false.2 ⟨_, hrow, ?_⟩)
  intro h'
  rw [show (Reach.row true k ((s.bank k).physRow (g.slab + 0)) ((List.range 16).map (4 * ·))).bank = k from rfl] at h'
  rw [h'] at hfree
  exact absurd hfree (by decide)

end Sys2Proof.Machine
end

section

/-!
PROOF. The configuration is set and recorded (O46): schedules, and the clauses of the statement.
-/

namespace Sys2Proof.Machine

variable {s t u v : State} {h n op : Nat} {bs : List Byte} {body : State → State}

/-! ### Schedule tables -/

theorem Store.word_zero (m : Store) (n w : Nat) (hw : w < schedAt n / 16 ∨ schedAt n / 16 + 64 ≤ w) :
    (m.zero (schedAt n) 1024).data w = m.data w ∧ (m.zero (schedAt n) 1024).syn w = m.syn w := by
  obtain ⟨q, hq⟩ : ∃ q, schedAt n = 16 * q := ⟨0x100000 + 0x40 * n, by rw [schedAt]; omega⟩
  rw [hq] at hw ⊢
  constructor
  · have hbyte (i : Nat) (hi : i < 16) : (m.zero (16 * q) 1024).byte (16 * w + i) = m.byte (16 * w + i) := by
      have h := Sparse.get_filter_key (0 : Byte) (fun a => decide (a < 16 * q ∨ 16 * q + 1024 ≤ a)) m.cells (16 * w + i)
      refine h.trans (if_pos (decide_eq_true ?_))
      omega
    have hbytes : (m.zero (16 * q) 1024).bytes (16 * w) 16 = m.bytes (16 * w) 16 :=
      List.map_congr_left fun i hi => hbyte i (List.mem_range.1 hi)
    rw [Store.data, Store.data, hbytes]
  · have h := Sparse.get_filter_key (0 : BitVec 16) (fun a => decide (16 * a + 15 < 16 * q ∨ 16 * q + 1024 ≤ 16 * a)) m.synd w
    refine h.trans (if_pos (decide_eq_true ?_))
    omega

theorem Store.writeFresh_eq (m : Store) (a : Nat) (bs : List Byte) : ∀ i, (m.writeFresh a bs).byte i = (m.setBytes a bs).byte i := by
  intro i
  unfold Store.writeFresh
  dsimp only
  generalize m.setBytes a bs = x
  generalize List.range _ = l
  induction l generalizing x with
  | nil => rfl
  | cons j l ih => exact ih _

/-- A run of bytes is read back. -/
theorem Store.bytes_writeFresh (m : Store) (a : Nat) (bs : List Byte) : (m.writeFresh a bs).bytes a bs.length = bs := by
  refine Store.bytes_of_byte fun i hi => ?_
  rw [Store.writeFresh_eq, Store.byte_setBytes, if_pos (by omega), Nat.add_sub_cancel_left]

theorem Store.word_writeFresh (m : Store) (a : Nat) (bs : List Byte) {w : Nat} (hw : w < a / 16 ∨ ceilDiv (a + bs.length) 16 ≤ w) :
    (m.writeFresh a bs).data w = m.data w ∧ (m.writeFresh a bs).syn w = m.syn w := by
  rw [ceilDiv] at hw
  constructor
  · have hbytes : (m.writeFresh a bs).bytes (16 * w) 16 = m.bytes (16 * w) 16 := by
      refine List.map_congr_left fun i hi => ?_
      have hi := List.mem_range.1 hi
      rw [Store.writeFresh_eq, Store.byte_setBytes, if_neg (by omega)]
    rw [Store.data, Store.data, hbytes]
  · unfold Store.writeFresh
    dsimp only
    have hfold (l : List Nat) (x : Store) (hl : ∀ i ∈ l, a / 16 + i ≠ w) :
        (l.foldl (fun m i => m.setSyn (a / 16 + i) 0) x).syn w = x.syn w := by
      induction l generalizing x with
      | nil => rfl
      | cons j l ih =>
        rw [List.foldl_cons, ih _ fun i hi => hl i (List.mem_cons_of_mem _ hi), Store.syn_setSyn, if_neg (hl j List.mem_cons_self).symm]
    rw [hfold _ _ fun i hi => ?_, Store.syn_setBytes]
    have hi := List.mem_range.1 hi
    rw [ceilDiv] at hi
    omega

theorem Hasp.length_knotBytes (x : Hasp) : x.knotBytes.length = 16 * x.pay 2 1 := by
  have hall : ∀ j, ((x.payload (16 + 16 * j) 8 ++ leBytes 4 (if x.pay (24 + 16 * j) 4 = 0x80000000 then 0 else x.pay (24 + 16 * j) 4) ++
      ([0, 0, 0, 0] : List Byte)) : List Byte).length = 16 := by
    intro j
    simp [Hasp.payload, bytesOf, leBytes_length]
  unfold Hasp.knotBytes
  dsimp only
  rw [List.length_flatten, List.map_map]
  generalize x.pay 2 1 = k
  induction k with
  | zero => rfl
  | succ k ih =>
    rw [List.range_succ, List.map_append, List.sum_append, ih]
    have h1 := hall k
    simp only [List.map_cons, List.map_nil, List.sum_cons, List.sum_nil, Function.comp, h1]
    omega

theorem State.scheduleBad_none {x : Hasp} (h : s.scheduleBad x = none) : x.pay 2 1 ≤ 64 := by
  unfold State.scheduleBad at h
  dsimp only at h
  split at h
  · exact absurd h nofun
  · split at h
    · exact absurd h nofun
    · omega

theorem State.scheduleBad_congr {x y : Hasp} (hp : x.pay = y.pay) : s.scheduleBad x = s.scheduleBad y := by
  simp only [State.scheduleBad, hp]

theorem Hasp.knotBytes_begin (s : State) (h : Nat) : ((s.begin_ h).hasp h).knotBytes = (s.hasp h).knotBytes := by
  unfold Hasp.knotBytes
  dsimp only
  rw [s.pay_eq_begin h]
  simp only [State.payload_begin]

theorem State.loadSchedule_loads (hbad : s.scheduleBad (s.hasp h) = none) {g : Group} (hg : s.group ((s.hasp h).pay 0 2) = some g) :
    s.loadSchedule h = ((s.putSchedule ((s.hasp h).pay 0 2) (s.hasp h).knotBytes).setGroup ((s.hasp h).pay 0 2)
      (some { g with knots := (s.hasp h).pay 2 1 })).configChanged.finish h .okay 0 [] := by
  simp only [State.loadSchedule, hbad, hg]

end Sys2Proof.Machine
end

section

/-!
PROOF. The configuration is set and recorded (O46): the clauses of the statement.
-/

namespace Sys2Proof.Machine

variable {s t u v : State} {h n op : Nat} {bs : List Byte} {body : State → State}

/-- The command of hasp h ended OKAY with one new record; the steps, the epoch and the latches are as they were. -/
def State.okays (h : Nat) (s t : State) : Prop :=
  t.done h .okay ∧ t.ctl.seq = s.ctl.seq + 1 ∧ t.ctl.epoch = s.ctl.epoch ∧ t.ctl.setA = s.ctl.setA ∧ t.ctl.setB = s.ctl.setB ∧ t.latches = s.latches

/-- A change that is recorded leaves the rest of the control state. -/
theorem State.Configures.okays (hc : State.Configures h bs s v t) (hctl : v.ctl = { s.ctl with cfgSeq := s.ctl.cfgSeq + 1, seq := s.ctl.seq + 1 })
    (hlat : v.latches = s.latches) : s.okays h t ∧ t.ctl.cfgSeq = s.ctl.cfgSeq + 1 := by
  have ht := hc.ctl.trans hctl
  refine ⟨⟨hc.done, ?_, ?_, ?_, ?_, hc.latches.trans hlat⟩, ?_⟩ <;> rw [ht]

theorem compatIsSet (hready : s.recordReady) (hturn : s.turn h 0x02) (hlvl : (s.hasp h).pay 0 1 = 3 ∨ (s.hasp h).pay 0 1 = 4)
    (hrev : (s.hasp h).pay 1 1 = 2 ∨ (s.hasp h).pay 1 1 = 3) (hb : s.holdsStep = false) (hmin : s.start.run.cmin.toNat ≤ (s.hasp h).pay 0 1)
    (hmax : (s.hasp h).pay 0 1 ≤ s.start.run.cmax.toNat) (hn3 : ¬((s.hasp h).pay 1 1 = 3 ∧ ((s.hasp h).pay 0 1 = 3 ∨ s.numMax < 3)))
    (hn2 : ¬((s.hasp h).pay 1 1 = 2 ∧ s.groupList.any (fun e => e.2.needsN3) = true)) :
    ∃ t, exec (.setCompat h) s = .next t ∧ s.okays h t ∧ t.ctl.compat = (s.hasp h).pay 0 1 ∧ t.ctl.numRev = (s.hasp h).pay 1 1 ∧
      t.ctl.cfgSeq = s.ctl.cfgSeq ∧ t.regions = s.regions ∧ t.groups = s.groups ∧ SameMemoryButRecord h s t := by
  have hpay := s.pay_eq_begin h
  obtain ⟨hbody, hrec, hctl⟩ := State.setCompat_sets (s := s.begin_ h) (h := h) (s.recordReady_begin hready h) (by rw [hpay]; exact hlvl)
    (by rw [hpay]; exact hrev) hb (by rw [hpay]; exact hmin) (by rw [hpay]; exact hmax) (by rw [hpay]; exact hn3) (by rw [hpay]; exact hn2)
  have hc := State.configures_body (body := fun s => s.setCompat h) hturn hbody (by rw [hctl]; exact hready.2.1) (by decide) (by decide)
    hrec.mbox hrec.hasps
  have hlat := hrec.latches
  have hreg := hrec.regions
  have hgrp := hrec.groups
  have hmor := hrec.mortar
  have hword := hrec.word
  generalize ((s.begin_ h).applyCompat h).lintelWrite = v at hctl hc hlat hreg hgrp hmor hword
  have happ : ((s.begin_ h).applyCompat h).ctl = { s.ctl with compat := (s.hasp h).pay 0 1, numRev := (s.hasp h).pay 1 1 } := by
    rw [State.applyCompat, hpay]
    rfl
  have hseq : (s.begin_ h).ctl.seq = s.ctl.seq := rfl
  rw [happ, hseq] at hctl
  have ht := hc.ctl.trans hctl
  refine ⟨_, exec_setCompat hturn.1, ⟨hc.done, ?_, ?_, ?_, ?_, hc.latches.trans hlat⟩, ?_, ?_, ?_, hc.regions.trans hreg, hc.groups.trans hgrp,
    hc.memory hword hmor⟩
  all_goals rw [ht]

/-- A request that begins changes its hasp and the queue. -/
theorem State.begin_frame (s : State) (h : Nat) : s.begin_ h = { s with mbox := (s.begin_ h).mbox } := rfl

theorem regionIsDefined (hready : s.recordReady) (hturn : s.turn h 0x03) (hbad : s.regionBad (s.hasp h) = none) (hb : s.holdsStep = false)
    (hex : s.exporting = false) (hring : s.ringBusy = false)
    (hold : ∀ r, s.region ((s.hasp h).pay 0 1) = some r → (∀ b ∈ s.mbox.bg, b.touches r = false) ∧
      ∀ e ∈ s.groupList, e.2.stReg ≠ (s.hasp h).pay 0 1 ∧ e.2.cfReg ≠ (s.hasp h).pay 0 1)
    (hnew : ∀ r, (s.hasp h).regionOf = some r → s.regionOverlaps ((s.hasp h).pay 0 1) r = false) :
    ∃ t, exec (.defineRegion h) s = .next t ∧ s.okays h t ∧ t.region ((s.hasp h).pay 0 1) = (s.hasp h).regionOf ∧
      (∀ i, i ≠ (s.hasp h).pay 0 1 → t.region i = s.region i) ∧ t.groups = s.groups ∧ t.ctl.cfgSeq = s.ctl.cfgSeq + 1 ∧
      SameMemoryButRecord h s t := by
  have hpay := s.pay_eq_begin h
  have hbody := State.defineRegion_sets (s := s.begin_ h) (h := h) ((State.regionBad_congr hpay).trans hbad)
    (by rw [s.begin_frame h]; exact hb) (by rw [s.begin_frame h]; exact hex) (by rw [s.begin_frame h]; exact hring) (by rw [hpay]; exact hold) (by rw [hpay, Hasp.regionOf_congr hpay]; exact hnew)
  rw [hpay, Hasp.regionOf_congr hpay] at hbody
  have hu : (s.begin_ h).setRegion ((s.hasp h).pay 0 1) (s.hasp h).regionOf =
      { s with mbox := (s.begin_ h).mbox, regions := (s.setRegion ((s.hasp h).pay 0 1) (s.hasp h).regionOf).regions } := by
    have hf := s.begin_frame h
    generalize s.begin_ h = v at hf ⊢
    generalize v.mbox = m at hf ⊢
    rw [hf]
    rfl
  generalize (s.begin_ h).setRegion ((s.hasp h).pay 0 1) (s.hasp h).regionOf = u at hbody hu
  obtain ⟨hrec, hctl, hc⟩ := State.configures_recorded (body := fun s => s.defineRegion h) hturn hbody (by rw [hu]; exact hready) (by decide) (by decide)
    (by rw [hu]) (by rw [hu])
  have hreg := hrec.regions
  have hgrp := hrec.groups
  have hlat := hrec.latches
  have hmor := hrec.mortar
  have hword := hrec.word
  generalize u.configChanged = v at hctl hc hreg hgrp hlat hmor hword
  rw [hu] at hctl hreg hgrp hlat hmor hword
  obtain ⟨hok, hseq⟩ := hc.okays hctl hlat
  have hget : ∀ i, State.region (s.runCommand h 0x03 fun s => s.defineRegion h) i = (s.setRegion ((s.hasp h).pay 0 1) (s.hasp h).regionOf).region i :=
    fun i => congrArg (fun r => Sparse.get none r i) (hc.regions.trans hreg)
  refine ⟨_, exec_defineRegion hturn.1, hok, ?_, fun i hi => ?_, hc.groups.trans hgrp, hseq, hc.memory hword hmor⟩
  · rw [hget, State.region_setRegion_self]
  · rw [hget, State.region_setRegion, if_neg hi]

/-- What a change of group n leaves beside the group: the other groups and the regions. -/
theorem groupIsRecorded (hready : s.recordReady) (hturn : s.turn h 0x04) (x : Option Group)
    (hbody : (s.begin_ h).defineGroup h = ((s.begin_ h).setGroup n x).configChanged.finish h .okay 0 bs)
    (hlen : bs.length % 16 = 0) (hmax : bs.length ≤ 1984) :
    ∃ t, exec (.defineGroup h) s = .next t ∧ s.okays h t ∧ t.group n = x ∧ t.respBytes h bs ∧
      ((∀ i, i ≠ n → t.group i = s.group i) ∧ t.regions = s.regions ∧ t.ctl.cfgSeq = s.ctl.cfgSeq + 1) ∧ SameMemoryButRecord h s t := by
  obtain ⟨hrec, hctl, hc⟩ := State.configures_recorded (body := fun s => s.defineGroup h)
    (u := (s.begin_ h).setGroup n x) hturn hbody hready hlen hmax rfl rfl
  have hreg := hrec.regions
  have hgrp := hrec.groups
  have hlat := hrec.latches
  have hmor := hrec.mortar
  have hword := hrec.word
  generalize ((s.begin_ h).setGroup n x).configChanged = v at hctl hc hreg hgrp hlat hmor hword
  obtain ⟨hok, hseq⟩ := hc.okays hctl hlat
  have hget : ∀ i, State.group (s.runCommand h 0x04 fun s => s.defineGroup h) i = (s.setGroup n x).group i :=
    fun i => congrArg (fun g => Sparse.get none g i) (hc.groups.trans hgrp)
  refine ⟨_, exec_defineGroup hturn.1, hok, ?_, hc.bytes, ⟨fun i hi => ?_, hc.regions.trans hreg, hseq⟩, hc.memory hword hmor⟩
  · rw [hget, State.group_setGroup_self]
  · rw [hget, State.group_setGroup, if_neg hi]

/-- A new group whose zeros reach only banks that take them now. -/
theorem groupIsCreated (hready : s.recordReady) (hturn : s.turn h 0x04) (g : Group) (cr : Region) {pl : Bool} (hpl : s.gPlaced g = pl)
    (hbody : (s.begin_ h).defineGroup h = (s.begin_ h).createNow h n g cr) :
    ∃ t, exec (.defineGroup h) s = .next t ∧ s.okays h t ∧ t.group n = some g ∧ t.respBytes h g.response ∧
      ((∀ i, i ≠ n → t.group i = s.group i) ∧ t.regions = s.regions ∧ t.ctl.cfgSeq = s.ctl.cfgSeq + 1) ∧
      t.mortar = s.mortar.zero (schedAt n) 1024 ∧
      (∀ k i j w, k < 4096 → g.slab + i < 9216 → (s.bank k).physRow (g.slab + i) < 9248 → s.slabHolds g k i j w →
        (.stack, w) ∉ s.wordsOf (g.rlastSpan pl) → ¬ s.recordWord w → t.word .stack w = (0, 0)) ∧
      (∀ w ∈ s.cofferArea g cr, ¬ s.recordWord w → t.word .stack w = (0, 0)) ∧
      (s.apart (g.rlastSpan pl) → (∀ e ∈ s.wordsOf (g.rlastSpan pl), e.2 ∉ s.cofferArea g cr ∧ ¬ s.recordWord e.2) →
        ∀ l ∈ g.rlastLocs pl, t.reads l g.rlastBytes) ∧
      (∀ w, (¬ ∃ k i j, s.slabHolds g k i j w) → (.stack, w) ∉ s.wordsOf (g.rlastSpan pl) → w ∉ s.cofferArea g cr → ¬ s.recordWord w →
        t.word .stack w = s.word .stack w) := by
  subst hpl
  have hcr := State.creates_created (s.recordReady_begin hready h) n g cr
  rw [State.createNow_eq] at hbody
  have hlen := g.length_response
  have hc := State.configures_body (body := fun s => s.defineGroup h) hturn hbody (by rw [hcr.ctl]; exact hready.2.1) (by omega) (by omega)
    hcr.mbox hcr.hasps
  obtain ⟨hok, hseq⟩ := hc.okays hcr.ctl hcr.latches
  have hx := exec_defineGroup (s := s) hturn.1
  generalize ((s.begin_ h).created n g cr).configChanged = v at hcr hc
  generalize s.runCommand h 0x04 (fun s => s.defineGroup h) = t at *
  have hget : ∀ i, t.group i = (s.setGroup n (some g)).group i := fun i => congrArg (fun g => Sparse.get none g i) (hc.groups.trans hcr.groups)
  refine ⟨t, hx, hok, (hget _).trans (State.group_setGroup_self _ _ _), hc.bytes,
    ⟨fun i hi => (hget i).trans ((State.group_setGroup _ _ _ _).trans (if_neg hi)), hc.regions.trans hcr.regions, hseq⟩, hc.mortar.trans hcr.mortar,
    fun k i j w hk hr hp hh hl hw => (hc.word w).trans (hcr.slab k i j w hk hr hp hh hl hw),
    fun w hw hn => (hc.word w).trans (hcr.coffer w hw hn), fun hap hout l hl o ho => ?_,
    fun w hs hl hw hn => (hc.word w).trans (hcr.other w hs hl hw hn)⟩
  rw [hc.peek]
  exact hcr.rlast hap hout l hl o ho

/-- A new group whose zeros must wait for a bank. -/
theorem groupWaits (hturn : s.turn h 0x04) (plan : List Reach) (hgo : (s.begin_ h).goes plan 0 = false)
    (hbody : (s.begin_ h).defineGroup h = ((s.begin_ h).ksAccess plan 0 (.create h)).1.holdSerial h) :
    ∃ t, exec (.defineGroup h) s = .next t ∧ (t.hasp h).state = .running ∧ t.tasked (.create h) = true ∧ t.groups = s.groups ∧
      t.regions = s.regions ∧ SameMemoryButHasp h s t := by
  have hr := State.runsOn_runCommand hturn (fun s => s.defineGroup h)
  have hself := s.hasp_begin_self h
  have hother : ∀ j, j ≠ h → (s.begin_ h).hasp j = s.hasp j := fun j hj => s.hasp_begin_ne hj
  have hmem : SameMemory s (s.begin_ h) := sameMemory_of_stores rfl rfl rfl rfl
  have hgrp : (s.begin_ h).groups = s.groups := rfl
  have hreg : (s.begin_ h).regions = s.regions := rfl
  have hx := exec_defineGroup (s := s) hturn.1
  generalize s.runCommand h 0x04 (fun s => s.defineGroup h) = t at hr hx
  rw [hbody] at hr
  clear hbody
  generalize s.begin_ h = w at *
  obtain ⟨-, cs, bs, n, q, p, i, hi, hf⟩ := w.ksAccess_waits (.create h) hgo
  rw [hf] at hr
  obtain ⟨z, hz⟩ : ∃ z : State, 
      z = State.holdSerial { w with chans := cs, banks := bs, free := n, seq := q, plumb := p, ctl := { w.ctl with items := w.ctl.items ++ [i] } } h :=
    ⟨_, rfl⟩
  rw [← hz] at hr
  have hhasp : ∀ j, z.hasp j = w.hasp j := fun j => by
    rw [hz]
    rfl
  have hrun : (z.hasp h).state = .running := by rw [hhasp, hself]
  have hmem' : SameMemory s z := hmem.trans (sameMemory_of_stores (by rw [hz]; rfl) (by rw [hz]; rfl) (by rw [hz]; rfl) (by rw [hz]; rfl))
  have hitems : z.ctl.items = w.ctl.items ++ [i] := by
    rw [hz]
    rfl
  have hzg : z.groups = s.groups := by
    rw [hz]
    exact hgrp
  have hzr : z.regions = s.regions := by
    rw [hz]
    exact hreg
  clear hz
  have hnp : (z.hasp h).state ≠ .pending := by rw [hrun]; exact nofun
  obtain ⟨x, hcause⟩ := hr.causes
  refine ⟨t, hx, ?_, ?_, ?_, ?_, hr.sameMemoryButHasp hmem' fun j hj => (hhasp j).trans (hother j hj)⟩
  · rw [hr.self hnp, hrun]
  · refine State.tasked_of_mem ?_ hi
    rw [hcause]
    dsimp only
    rw [hitems]
    exact List.mem_append_right _ (List.mem_singleton_self i)
  · rw [hcause]
    exact hzg
  · rw [hcause]
    exact hzr

/-- A schedule that a request puts in its place, with its group. -/
theorem State.begin_putSchedule (s : State) (h n : Nat) (bs : List Byte) (x : Option Group) : ((s.begin_ h).putSchedule n bs).setGroup n x =
    { s with mbox := (s.begin_ h).mbox, groups := (s.setGroup n x).groups, mortar := (s.mortar.zero (schedAt n) 1024).writeFresh (schedAt n) bs } := by
  have hf := s.begin_frame h
  generalize s.begin_ h = v at hf ⊢
  generalize v.mbox = m at hf ⊢
  rw [hf]
  rfl

theorem scheduleIsLoaded (hready : s.recordReady) (hturn : s.turn h 0x05) (hbad : s.scheduleBad (s.hasp h) = none) {g : Group}
    (hg : s.group ((s.hasp h).pay 0 2) = some g) :
    ∃ t, exec (.loadSchedule h) s = .next t ∧ s.okays h t ∧ t.group ((s.hasp h).pay 0 2) = some { g with knots := (s.hasp h).pay 2 1 } ∧
      (∀ i, i ≠ (s.hasp h).pay 0 2 → t.group i = s.group i) ∧ t.ctl.cfgSeq = s.ctl.cfgSeq + 1 ∧
      t.mortar.bytes (schedAt ((s.hasp h).pay 0 2)) (16 * (s.hasp h).pay 2 1) = (s.hasp h).knotBytes ∧
      (∀ w, (w < schedAt ((s.hasp h).pay 0 2) / 16 ∨ schedAt ((s.hasp h).pay 0 2) / 16 + 64 ≤ w) → t.word .mortar w = s.word .mortar w) ∧
      (∀ w, (∀ c, ∀ p ∈ s.lintelLine c, p.word ≠ w) → t.word .stack w = s.word .stack w) := by
  have hpay := s.pay_eq_begin h
  have hbody := State.loadSchedule_loads (s := s.begin_ h) (h := h) ((State.scheduleBad_congr hpay).trans hbad) (g := g) (by rw [hpay]; exact hg)
  rw [hpay, Hasp.knotBytes_begin] at hbody
  have hlen := (s.hasp h).length_knotBytes
  have hk := State.scheduleBad_none hbad
  have hx := exec_loadSchedule (s := s) hturn.1 hready.1
  generalize (s.hasp h).knotBytes = bs at hbody hlen ⊢
  generalize (s.hasp h).pay 0 2 = n at hbody ⊢
  generalize (s.hasp h).pay 2 1 = k at hbody hlen hk ⊢
  have hu := s.begin_putSchedule h n bs (some { g with knots := k })
  generalize ((s.begin_ h).putSchedule n bs).setGroup n (some { g with knots := k }) = u at hbody hu
  have hugrp : u.groups = (s.setGroup n (some { g with knots := k })).groups := by rw [hu]
  have huctl : u.ctl = s.ctl := by rw [hu]
  have hulat : u.latches = s.latches := by rw [hu]
  have humor : u.mortar = (s.mortar.zero (schedAt n) 1024).writeFresh (schedAt n) bs := by rw [hu]
  have hframe : u = { s with mbox := u.mbox, groups := u.groups, mortar := u.mortar } := by rw [hu]
  have huline : ∀ c, u.lintelLine c = s.lintelLine c := fun c => by rw [hframe]; rfl
  have huword : ∀ w, u.word .stack w = s.word .stack w := fun w => by rw [hframe]; rfl
  have hur : u.recordReady := by rw [hframe]; exact hready
  have hum : u.mbox = (s.begin_ h).mbox := by rw [hu]
  have huh : u.hasps = s.hasps := by rw [hu]
  clear hu hframe
  obtain ⟨hrec, hctl, hc⟩ := State.configures_recorded (body := fun s => s.loadSchedule h) hturn hbody hur (by decide) (by decide) hum huh
  have hgrp := hrec.groups
  have hlat := hrec.latches
  have hmor := hrec.mortar
  have hword := hrec.word
  generalize u.configChanged = v at hctl hc hgrp hlat hmor hword
  rw [huctl] at hctl
  obtain ⟨hok, hseq⟩ := hc.okays hctl (hlat.trans hulat)
  have hget : ∀ i, State.group (s.runCommand h 0x05 fun s => s.loadSchedule h) i = (s.setGroup n (some { g with knots := k })).group i :=
    fun i => congrArg (fun g => Sparse.get none g i) (hc.groups.trans (hgrp.trans hugrp))
  have hm : State.mortar (s.runCommand h 0x05 fun s => s.loadSchedule h) = (s.mortar.zero (schedAt n) 1024).writeFresh (schedAt n) bs :=
    hc.mortar.trans (hmor.trans humor)
  refine ⟨_, hx, hok, ?_, fun i hi => ?_, hseq, ?_, fun w hw => ?_, fun w hw => (hc.word w).trans ((hword w ?_).trans (huword w))⟩
  · rw [hget, State.group_setGroup_self]
  · rw [hget, State.group_setGroup, if_neg hi]
  · rw [hm, ← hlen]
    exact Store.bytes_writeFresh _ _ _
  · obtain ⟨h1, h2⟩ := s.mortar.word_zero n w hw
    have hout : w < schedAt n / 16 ∨ ceilDiv (schedAt n + bs.length) 16 ≤ w := by
      rw [hlen, ceilDiv, schedAt] at *
      omega
    obtain ⟨h3, h4⟩ := (s.mortar.zero (schedAt n) 1024).word_writeFresh (schedAt n) bs hout
    simp only [State.word, hm, h3, h4, h1, h2]
  · simp only [huline]
    exact hw

end Sys2Proof.Machine

open Sys2Proof Sys2Proof.Machine

/-- Settles O46: SET_COMPAT, DEFINE_REGION, DEFINE_GROUP and LOAD_SCHEDULE are set and recorded, or refused with nothing changed. -/
theorem configurationIsSetAndRecorded : Obligations.ConfigurationIsSetAndRecorded := by
  intro s h hready x busy ok
  have hpay := s.pay_eq_begin h
  have hentry := s.entry_begin h
  refine ⟨fun hturn hlvl hrev => ⟨fun hb => ?_, fun hb hmin hmax hn3 hn2 => compatIsSet hready hturn hlvl hrev hb hmin hmax hn3 hn2⟩,
    fun hturn hbad => ⟨fun hb => ?_, fun hb hex hring hold hnew => regionIsDefined hready hturn hbad hb hex hring hold hnew⟩,
    fun hturn => ⟨fun hn hbad hb => ?_, fun hn hle hsome hbad hb hex => ?_, fun o hn hbad hb hex hg => ⟨fun hre => ?_, fun hre => ?_⟩,
      fun sr cr slab cof base hn hbad hb hex hg hsr hcr hslab hcof hbase hpool hsys => ?_⟩,
    fun hturn hbad g hg => scheduleIsLoaded hready hturn hbad hg⟩
  · exact refusesAndKeeps hturn (exec_setCompat hturn.1) (State.setCompat_busy (s := s.begin_ h) (by rw [hpay]; exact hlvl) (by rw [hpay]; exact hrev) hb) nofun
  · exact refusesAndKeeps hturn (exec_defineRegion hturn.1) (State.defineRegion_busy (s := s.begin_ h) ((State.regionBad_congr hpay).trans hbad) hb) nofun
  · exact refusesAndKeeps hturn (exec_defineGroup hturn.1) (State.defineGroup_busy (s := s.begin_ h) (by rw [hentry]; exact hn)
      (by rw [hentry, hpay]; exact hbad) hb) nofun
  · have hbody := State.defineGroup_deletes (s := s.begin_ h) (h := h) (by rw [hentry]; exact hn) (by rw [hpay]; exact hle)
      (by rw [hpay]; exact hsome) (by rw [State.payload_begin]; exact hbad) hb hex
    rw [hpay] at hbody
    obtain ⟨t, hx, hok, hgr, -, hfr, hmem⟩ := groupIsRecorded hready hturn _ hbody (by decide) (by decide)
    exact ⟨t, hx, hok, hgr, hfr, hmem⟩
  · have hbody := State.defineGroup_retunes (s := s.begin_ h) (h := h) (by rw [hentry]; exact hn) (by rw [hentry, hpay]; exact hbad) hb hex
      (by rw [hpay]; exact hg) (by rw [hentry]; exact hre)
    rw [hpay, hentry] at hbody
    exact groupIsRecorded hready hturn _ hbody (by rw [Group.length_response]) (by rw [Group.length_response]; decide)
  · obtain ⟨t, hx, hd, hm, -, -, hgr⟩ := refusesAndKeeps hturn (exec_defineGroup hturn.1) (State.defineGroup_same (s := s.begin_ h)
      (by rw [hentry]; exact hn) (by rw [hentry, hpay]; exact hbad) hb hex (by rw [hpay]; exact hg) (by rw [hentry]; exact hre)) nofun
    exact ⟨t, hx, hd, hm, hgr⟩
  · have hbody := State.defineGroup_creates (s := s.begin_ h) (h := h) (by rw [hentry]; exact hn) (by rw [hentry, hpay]; exact hbad) hb hex
      (by rw [hpay]; exact hg) (by rw [hentry]; exact hsr) (by rw [hentry]; exact hcr) (by rw [hentry]; exact hslab) (by rw [hentry]; exact hcof)
      (by rw [hentry]; exact hbase) (by rw [hentry]; exact hpool) (by rw [hentry]; exact hsys)
    rw [hpay, hentry] at hbody
    intro g' rows last cofs line holds
    have hg' : (s.begin_ h).newGroup x.entry sr.placed slab cof base = g' := rfl
    have hreg : s.region g'.stReg = some sr := hsr
    have hslabs : g'.slabs = x.entry.needSlabs sr.placed := rfl
    have hslab' : g'.slab = slab := rfl
    have hstart : g'.start = s.ctl.epoch := rfl
    rw [hg'] at hbody
    clear_value g'
    subst hslab'
    rw [← hstart]
    have hpl : s.gPlaced g' = sr.placed := by
      rw [State.gPlaced, hreg]
    refine ⟨fun hplan => groupIsCreated hready hturn g' cr hpl (hbody.trans (if_pos (List.isEmpty_iff.2 hplan))), fun hplan => ?_⟩
    exact groupWaits hturn _ (State.zeroPlan_waits (s := s.begin_ h) (by rw [hslabs]; exact x.entry.needSlabs_pos hn sr.placed) hplan)
      (hbody.trans (if_neg fun he => hplan (List.isEmpty_iff.1 he)))
end

section

/-!
PROOF. Contributions are added in a clear set (O39): the writes of a piece.
-/

namespace Sys2Proof.Machine

variable {s t u : State} {g : Group} {b : Bool} {p : Piece}

/-! ### Numbers of eight bytes -/

theorem testBit_leBytes (n v i j : Nat) (hi : i < n) (hj : j < 8) : ((leBytes n v).getD i 0).toNat.testBit j = v.testBit (8 * i + j) := by
  induction n generalizing v i with
  | zero => omega
  | succ n ih =>
    cases i with
    | zero =>
      rw [leBytes, List.getD_cons_zero, BitVec.toNat_ofNat, Nat.testBit_mod_two_pow, decide_eq_true hj, Bool.true_and, Nat.mul_zero, Nat.zero_add]
    | succ i =>
      have h256 : (256 : Nat) = 2 ^ 8 := rfl
      have hsum : 8 * (i + 1) + j = 8 * i + j + 8 := by omega
      rw [leBytes, List.getD_cons_succ, ih _ _ (by omega), h256, Nat.testBit_div_two_pow, hsum]

/-- A number whose eight bytes are those of another. -/
theorem shiftRight_of_leBytes {x v q : Nat} (h : ∀ i, i < 8 → x >>> (8 * (q + i)) % 256 = ((leBytes 8 v).getD i 0).toNat) :
    x >>> (8 * q) % 2 ^ (8 * 8) = v % 2 ^ 64 := by
  apply Nat.eq_of_testBit_eq
  intro j
  rw [Nat.testBit_mod_two_pow, Nat.testBit_mod_two_pow, Nat.testBit_shiftRight]
  by_cases hj : j < 64
  · have hb := congrArg (fun n => n.testBit (j % 8)) (h (j / 8) (by omega))
    have h256 : (256 : Nat) = 2 ^ 8 := rfl
    have hlt : j % 8 < 8 := Nat.mod_lt _ (by decide)
    have hpos : 8 * (q + j / 8) + j % 8 = 8 * q + j := by omega
    have hpos' : 8 * (j / 8) + j % 8 = j := by omega
    simp only [h256, Nat.testBit_mod_two_pow, Nat.testBit_shiftRight, decide_eq_true hlt, Bool.true_and] at hb
    rw [testBit_leBytes 8 v (j / 8) (j % 8) (by omega) hlt, hpos, hpos'] at hb
    rw [hb, decide_eq_true hj]
  · rw [decide_eq_false hj, Bool.false_and, Bool.false_and]

/-! ### The marks of a piece -/

/-- A mark that is added to the ones of its byte. -/
def addMark (m : List (Loc × Nat)) (l : Loc) (bt : Nat) : List (Loc × Nat) :=
  if m.any (fun e => e.1 == l) then m.map (fun e => if e.1 = l then (l, e.2 ||| bt) else e) else m ++ [(l, bt)]

theorem mem_addMark (m : List (Loc × Nat)) (l : Loc) (bt : Nat) : ∃ e ∈ addMark m l bt, e.1 = l ∧ ∀ j, bt.testBit j = true → e.2.testBit j = true := by
  unfold addMark
  split
  · next h =>
    obtain ⟨e, he, hl⟩ := List.any_eq_true.1 h
    have hl : e.1 = l := by simpa using hl
    refine ⟨(l, e.2 ||| bt), List.mem_map.2 ⟨e, he, by rw [if_pos hl]⟩, rfl, fun j hj => ?_⟩
    rw [Nat.testBit_or, hj, Bool.or_true]
  · exact ⟨(l, bt), List.mem_append_right _ (List.mem_singleton_self _), rfl, fun _ => id⟩

theorem addMark_keeps {m : List (Loc × Nat)} {e : Loc × Nat} (he : e ∈ m) (l : Loc) (bt : Nat) :
    ∃ e' ∈ addMark m l bt, e'.1 = e.1 ∧ ∀ j, e.2.testBit j = true → e'.2.testBit j = true := by
  unfold addMark
  split
  · refine ⟨_, List.mem_map.2 ⟨e, he, rfl⟩, ?_⟩
    split
    · next hl =>
      refine ⟨hl.symm, fun j hj => ?_⟩
      rw [Nat.testBit_or, hj, Bool.true_or]
    · exact ⟨rfl, fun _ => id⟩
  · exact ⟨e, List.mem_append_left _ he, rfl, fun _ => id⟩

theorem addMark_from {m : List (Loc × Nat)} {l : Loc} {bt : Nat} {e : Loc × Nat} (he : e ∈ addMark m l bt) : e.1 = l ∨ ∃ e' ∈ m, e'.1 = e.1 := by
  unfold addMark at he
  split at he
  · obtain ⟨e', he', rfl⟩ := List.mem_map.1 he
    split
    · exact .inl rfl
    · exact .inr ⟨e', he', rfl⟩
  · obtain he | he := List.mem_append.1 he
    · exact .inr ⟨e, he, rfl⟩
    · rw [List.mem_singleton.1 he]
      exact .inl rfl

/-- The marks of a list of elements, gathered by the bytes of the bitmap. -/
def marksOf {α : Type} (loc : α → Loc) (bt : α → Nat) (l : List α) (m : List (Loc × Nat)) : List (Loc × Nat) :=
  l.foldl (fun m a => addMark m (loc a) (2 ^ bt a)) m

section
variable {α : Type} (loc : α → Loc) (bt : α → Nat)

theorem marksOf_keeps (l : List α) {m : List (Loc × Nat)} {e : Loc × Nat} (he : e ∈ m) :
    ∃ e' ∈ marksOf loc bt l m, e'.1 = e.1 ∧ ∀ j, e.2.testBit j = true → e'.2.testBit j = true := by
  induction l generalizing m e with
  | nil => exact ⟨e, he, rfl, fun _ => id⟩
  | cons a l ih =>
    obtain ⟨e1, he1, hl1, hb1⟩ := addMark_keeps he (loc a) (2 ^ bt a)
    obtain ⟨e2, he2, hl2, hb2⟩ := ih he1
    exact ⟨e2, he2, hl2.trans hl1, fun j hj => hb2 j (hb1 j hj)⟩

/-- Every mark is among those of its byte. -/
theorem mem_marksOf {l : List α} {a : α} (ha : a ∈ l) (m : List (Loc × Nat)) : ∃ e ∈ marksOf loc bt l m, e.1 = loc a ∧ e.2.testBit (bt a) = true := by
  induction l generalizing m with
  | nil => exact absurd ha List.not_mem_nil
  | cons c l ih =>
    obtain rfl | ha := List.mem_cons.1 ha
    · obtain ⟨e1, he1, hl1, hb1⟩ := mem_addMark m (loc a) (2 ^ bt a)
      obtain ⟨e2, he2, hl2, hb2⟩ := marksOf_keeps loc bt l he1
      exact ⟨e2, he2, hl2.trans hl1, hb2 _ (hb1 _ (Nat.testBit_two_pow_self))⟩
    · exact ih ha _

theorem marksOf_from {l : List α} {m : List (Loc × Nat)} {e : Loc × Nat} (he : e ∈ marksOf loc bt l m) :
    (∃ a ∈ l, e.1 = loc a) ∨ ∃ e' ∈ m, e'.1 = e.1 := by
  induction l generalizing m with
  | nil => exact .inr ⟨e, he, rfl⟩
  | cons a l ih =>
    obtain ⟨c, hc, hl⟩ | ⟨e', he', hl⟩ := ih he
    · exact .inl ⟨c, List.mem_cons_of_mem _ hc, hl⟩
    · obtain h | ⟨e2, he2, hl2⟩ := addMark_from he'
      · exact .inl ⟨a, List.mem_cons_self, hl.symm.trans h⟩
      · exact .inr ⟨e2, he2, hl2.trans hl⟩

end

/-! ### The writes -/

/-- Where an element's accumulator of a set stands, and the byte of its bitmap bit. -/
def State.accLoc (s : State) (g : Group) (b : Bool) (a : Addend) : Loc := g.arrLoc (s.gPlaced g) .acc (b2n b) a.elem

def State.nfLoc (s : State) (g : Group) (b : Bool) (a : Addend) : Loc := g.arrLoc (s.gPlaced g) .nf (b2n b) a.elem

/-- The elements whose values a piece adds. -/
def Piece.sums (p : Piece) : List Addend := if p.marksOnly then [] else p.adds

/-- The marks of a piece, by the bytes of the bitmap. -/
def State.pieceMarks (s : State) (g : Group) (b : Bool) (p : Piece) : List (Loc × Nat) :=
  marksOf (s.nfLoc g b) (fun a => g.nfBit (s.gPlaced g) a.elem) (s.marksHere b p) []

/-- Bytes that stand one after the other from a location on. -/
def State.spanWrites (s : State) (l : Loc) (bad : Bool) (bs : List Byte) : List ByteWrite :=
  s.byteWrites (fun i => { l with byte := l.byte + i }) 0 bad true bs

def State.sumWrites (s : State) (g : Group) (b : Bool) (a : Addend) : List ByteWrite :=
  s.spanWrites (s.accLoc g b a) (s.peekNat (s.accLoc g b a) 8).2 (leBytes 8 (((s.peekNat (s.accLoc g b a) 8).1 + a.value.toNat) % 2 ^ 64))

def State.markWrites (s : State) (e : Loc × Nat) : List ByteWrite :=
  s.spanWrites e.1 (s.peekNat e.1 1).2 [BitVec.ofNat 8 ((s.peekNat e.1 1).1 ||| e.2)]

def State.pieceWrites (s : State) (g : Group) (b : Bool) (p : Piece) : List ByteWrite :=
  p.sums.flatMap (s.sumWrites g b) ++ (s.pieceMarks g b p).flatMap s.markWrites

/-- The words that a piece reads before it is added. -/
def State.pieceWords (s : State) (g : Group) (b : Bool) (p : Piece) : Sparse Place :=
  (s.marksHere b p).foldl (fun m a => s.addWord m (s.nfLoc g b a)) (p.sums.foldl (fun m a => s.addWord m (s.accLoc g b a)) [])

/-- A piece is added by one flush of its writes, after its words have been read. -/
theorem State.addPiece_eq {a0 : Addend} {r : List Addend} (ha : p.adds = a0 :: r) (hg : s.group a0.group = some g) (b : Bool) :
    ∃ (u : State) (known : Nat → Bool), s.SameButCounts u ∧ s.Works u ∧
      s.addPiece b p = (u.flush { src := 1, agent := 64 + p.bank } true true known (gather [] (s.pieceWrites g b p))).1 := by
  have hsums (m : Sparse WordWrite) (l : List Addend) : l.foldl (fun m a =>
      s.addBytes (fun i => { s.accLoc g b a with byte := (s.accLoc g b a).byte + i }) m 0 (s.peekNat (s.accLoc g b a) 8).2 true
        (leBytes 8 (((s.peekNat (s.accLoc g b a) 8).1 + a.value.toNat) % 2 ^ 64))) m = gather m (l.flatMap (s.sumWrites g b)) :=
    foldl_gather _ _ l m fun m a _ => s.addBytes_eq _ m _ _ _ _
  have hmarks (m : Sparse WordWrite) (l : List (Loc × Nat)) : l.foldl (fun m e =>
      s.addBytes (fun i => { e.1 with byte := e.1.byte + i }) m 0 (s.peekNat e.1 1).2 true [BitVec.ofNat 8 ((s.peekNat e.1 1).1 ||| e.2)]) m =
        gather m (l.flatMap s.markWrites) :=
    foldl_gather _ _ l m fun m e _ => s.addBytes_eq _ m _ _ _ _
  have hread (l : List (Nat × Place)) (u : State) (hu : s.SameButCounts u) :
      s.SameButCounts (l.foldl (fun s e => (s.readPlace { src := 1, agent := 64 + p.bank } { e.2 with site := .unit p.bank }).2) u) :=
    sameButCounts_foldl hu fun _ _ hv => State.sameButCounts_readPlace hv
  have hworks (l : List (Nat × Place)) (u : State) (hu : s.Works u) :
      s.Works (l.foldl (fun s e => (s.readPlace { src := 1, agent := 64 + p.bank } { e.2 with site := .unit p.bank }).2) u) :=
    works_foldl hu fun _ _ hv => State.works_readPlace hv
  unfold State.addPiece
  rw [ha]
  dsimp only
  rw [hg]
  dsimp only
  refine ⟨_, fun w => (s.pieceWords g b p).any (fun e => e.1 == w), hread (s.pieceWords g b p) s (.refl s),
    hworks (s.pieceWords g b p) s (.refl s), ?_⟩
  have hadds : p.sums = if p.marksOnly then [] else a0 :: r := by rw [Piece.sums, ha]
  rw [State.pieceWrites, gather_append, ← hsums, ← hmarks, State.pieceWords, hadds]
  rfl

/-! ### What the words hold then -/

theorem State.mem_spanWrites {l : Loc} {bad : Bool} {bs : List Byte} {x : ByteWrite} :
    x ∈ s.spanWrites l bad bs ↔ ∃ i, i < bs.length ∧
      x = { place := s.locPlace { l with byte := l.byte + i } false, at_ := (l.byte + i) % 16, byte := bs.getD i 0, bad := bad, keep := true } := by
  unfold State.spanWrites State.byteWrites
  rw [List.mem_map]
  constructor
  · rintro ⟨i, hi, rfl⟩
    refine ⟨i, List.mem_range.1 hi, ?_⟩
    rw [Nat.zero_add]
  · rintro ⟨i, hi, rfl⟩
    refine ⟨i, List.mem_range.2 hi, ?_⟩
    rw [Nat.zero_add]

/-- The place of an eighth of a word is the one that its first byte has. -/
theorem State.locPlace_add {l : Loc} (h8 : l.byte % 8 = 0) {i : Nat} (hi : i < 8) :
    s.locPlace { l with byte := l.byte + i } false = s.locPlace l false := by
  have hdiv : (l.byte + i) / 16 = l.byte / 16 := by omega
  rw [State.locPlace, State.locPlace, hdiv]

/-- The elements of a piece whose accumulators are aligned. -/
def State.aligned (s : State) (g : Group) (b : Bool) (p : Piece) : Prop := ∀ a ∈ p.sums, (s.accLoc g b a).byte % 8 = 0

/-- Byte i of an element's accumulator, and a byte of the bitmap. -/
def State.sumWrite (s : State) (g : Group) (b : Bool) (a : Addend) (i : Nat) : ByteWrite where
  place := s.locPlace (s.accLoc g b a) false
  at_ := ((s.accLoc g b a).byte + i) % 16
  byte := (leBytes 8 (((s.peekNat (s.accLoc g b a) 8).1 + a.value.toNat) % 2 ^ 64)).getD i 0
  bad := (s.peek (s.locPlace (s.accLoc g b a) false)).2
  keep := true

def State.markWrite (s : State) (e : Loc × Nat) : ByteWrite where
  place := s.locPlace e.1 false
  at_ := e.1.byte % 16
  byte := BitVec.ofNat 8 ((s.peekNat e.1 1).1 ||| e.2)
  bad := (s.peek (s.locPlace e.1 false)).2
  keep := true

/-- A write of a piece: of a byte of an accumulator, or of a byte of the bitmap. -/
theorem State.mem_pieceWrites (hal : s.aligned g b p) {x : ByteWrite} (hx : x ∈ s.pieceWrites g b p) :
    (∃ a ∈ p.sums, ∃ i, i < 8 ∧ x = s.sumWrite g b a i) ∨
      (∃ e ∈ s.pieceMarks g b p, ∃ a ∈ s.marksHere b p, e.1 = s.nfLoc g b a ∧ x = s.markWrite e) := by
  obtain hx | hx := List.mem_append.1 hx
  · obtain ⟨a, ha, hx⟩ := List.mem_flatMap.1 hx
    obtain ⟨i, hi, rfl⟩ := State.mem_spanWrites.1 hx
    rw [leBytes_length] at hi
    refine .inl ⟨a, ha, i, hi, ?_⟩
    rw [State.locPlace_add (hal a ha) hi]
    rfl
  · obtain ⟨e, he, hx⟩ := List.mem_flatMap.1 hx
    obtain ⟨i, hi, rfl⟩ := State.mem_spanWrites.1 hx
    obtain rfl : i = 0 := by simpa using hi
    obtain ⟨a, ha, hl⟩ | ⟨e', he', -⟩ := marksOf_from _ _ he
    · exact .inr ⟨e, he, a, ha, hl, rfl⟩
    · exact absurd he' List.not_mem_nil

theorem State.sum_mem_pieceWrites (hal : s.aligned g b p) {a : Addend} (ha : a ∈ p.sums) {i : Nat} (hi : i < 8) :
    s.sumWrite g b a i ∈ s.pieceWrites g b p := by
  refine List.mem_append_left _ (List.mem_flatMap.2 ⟨a, ha, State.mem_spanWrites.2 ⟨i, by rw [leBytes_length]; exact hi, ?_⟩⟩)
  rw [State.locPlace_add (hal a ha) hi]
  rfl

theorem State.mark_mem_pieceWrites {e : Loc × Nat} (he : e ∈ s.pieceMarks g b p) :
    s.markWrite e ∈ s.pieceWrites g b p :=
  List.mem_append_right _ (List.mem_flatMap.2 ⟨e, he, State.mem_spanWrites.2 ⟨0, Nat.zero_lt_one, rfl⟩⟩)

/-- What every write of a piece has: a place of the stack, and the poison of its word. -/
theorem State.pieceWrites_poison (hal : s.aligned g b p) {x : ByteWrite} (hx : x ∈ s.pieceWrites g b p) :
    x.place.space = .stack ∧ x.place.detect = false ∧ x.bad = (s.peek x.place).2 := by
  obtain ⟨a, -, i, -, rfl⟩ | ⟨e, -, a, -, -, rfl⟩ := State.mem_pieceWrites hal hx
  · exact ⟨rfl, rfl, rfl⟩
  · exact ⟨rfl, rfl, rfl⟩

/-- The words in which the piece's elements and marks stand. -/
def State.pieceTouches (s : State) (g : Group) (b : Bool) (p : Piece) : List (Space × Nat) :=
  p.sums.map (fun a => (.stack, (s.locPlace (s.accLoc g b a) false).word)) ++
    (s.marksHere b p).map (fun a => (.stack, (s.locPlace (s.nfLoc g b a) false).word))

theorem State.mem_pieceTouches (hal : s.aligned g b p) {x : ByteWrite} (hx : x ∈ s.pieceWrites g b p) :
    (Space.stack, x.place.word) ∈ s.pieceTouches g b p := by
  obtain ⟨a, ha, i, -, rfl⟩ | ⟨e, -, a, ha, hl, rfl⟩ := State.mem_pieceWrites hal hx
  · exact List.mem_append_left _ (List.mem_map.2 ⟨a, ha, rfl⟩)
  · exact List.mem_append_right _ (List.mem_map.2 ⟨a, ha, by rw [State.markWrite, hl]⟩)

/-- A piece that is added (R276, R278, R179). -/
structure State.Adds (g : Group) (b : Bool) (p : Piece) (s t : State) : Prop where
  sum : ∀ a ∈ p.sums, t.peekNat (s.accLoc g b a) 8 = (((s.peekNat (s.accLoc g b a) 8).1 + a.value.toNat) % 2 ^ 64, (s.peekNat (s.accLoc g b a) 8).2)
  mark : ∀ a ∈ s.marksHere b p, bit (t.peekNat (s.nfLoc g b a) 1).1 (g.nfBit (s.gPlaced g) a.elem) = true ∧
    (t.peekNat (s.nfLoc g b a) 1).2 = (s.peekNat (s.nfLoc g b a) 1).2
  other : SameMemoryBut (s.pieceTouches g b p) s t
  ctl : t.ctl = s.ctl

theorem State.adds_addPiece {a0 : Addend} {r : List Addend} (ha : p.adds = a0 :: r) (hg : s.group a0.group = some g) (hal : s.aligned g b p)
    (hdup : (p.sums.map (fun a => 2 * (s.locPlace (s.accLoc g b a) false).word + (s.accLoc g b a).byte % 16 / 8)).Nodup)
    (hap : ∀ a ∈ p.sums, ∀ a' ∈ s.marksHere b p, (s.locPlace (s.nfLoc g b a') false).word ≠ (s.locPlace (s.accLoc g b a) false).word) :
    State.Adds g b p s (s.addPiece b p) := by
  obtain ⟨u, known, hcu, hwu, heq⟩ := s.addPiece_eq ha hg b
  have hpoison := fun x (hx : x ∈ s.pieceWrites g b p) => State.pieceWrites_poison hal hx
  have hfl := State.flushes_flush { src := 1, agent := 64 + p.bank } true true known (fun x hx => (hpoison x hx).1) u
  have hw : s.Works (s.addPiece b p) := by
    rw [heq]
    exact State.works_flush hwu
  rw [← heq] at hfl
  generalize s.addPiece b p = t at hfl hw
  have hloc : ∀ l, t.locPlace l false = s.locPlace l false := fun l => hw.rowPlace _ _ _ _
  have hat : ∀ x ∈ s.pieceWrites g b p, x.at_ < 16 := by
    intro x hx
    obtain ⟨a, -, i, -, rfl⟩ | ⟨e, -, a, -, -, rfl⟩ := State.mem_pieceWrites hal hx <;> exact Nat.mod_lt _ (by decide)
  have hsame : ∀ x ∈ s.pieceWrites g b p, (t.peek x.place).2 = (s.peek x.place).2 := by
    intro x hx
    obtain ⟨hs, hd, -⟩ := hpoison x hx
    refine hfl.poison_eq hx (fun z hz => ⟨(hpoison z hz).1, (hpoison z hz).2.1.trans hd.symm⟩) (congrArg Prod.snd (hcu.peek (by rw [hs]; decide))) (fun z hz hzw => ?_) hs rfl
    obtain ⟨hzs, hzd, hzb⟩ := hpoison z hz
    rw [hzb]
    simp only [State.peek, State.placeCheck, State.placeData, State.placeSyn, hzs, hzd, hs, hd, hzw]
  refine ⟨fun a hmem => Prod.ext ?_ ?_, fun a hmem => ?_, fun sp w hsp hout => ?_, hw.ctl⟩
  · rw [State.peekNat, hloc]
    refine (shiftRight_of_leBytes (v := ((s.peekNat (s.accLoc g b a) 8).1 + a.value.toNat) % 2 ^ 64) fun i hi => ?_).trans (Nat.mod_mod _ _)
    have hx := State.sum_mem_pieceWrites hal hmem hi
    have h8 := hal a hmem
    have hadd : (s.accLoc g b a).byte % 16 + i = ((s.accLoc g b a).byte + i) % 16 := by omega
    rw [hadd]
    refine hfl.byte_of_unique hx (hat _ hx) (fun z hz hzw hza => ?_) rfl rfl
    obtain ⟨a', ha', j, hj, rfl⟩ | ⟨e, -, a', ha', hl, rfl⟩ := State.mem_pieceWrites hal hz
    · have h8' := hal a' ha'
      have hword : (s.locPlace (s.accLoc g b a') false).word = (s.locPlace (s.accLoc g b a) false).word := hzw
      have hpos : ((s.accLoc g b a').byte + j) % 16 = ((s.accLoc g b a).byte + i) % 16 := hza
      obtain rfl := List.inj_on_of_nodup_map hdup ha' hmem (by rw [hword]; omega)
      obtain rfl : j = i := by omega
      rfl
    · refine absurd ?_ (hap a hmem a' ha')
      rw [← hl]
      exact hzw
  · have hx := State.sum_mem_pieceWrites hal hmem (i := 0) (by decide)
    rw [State.peekNat, hloc]
    exact hsame _ hx
  · obtain ⟨e, he, hl, hb⟩ := mem_marksOf (s.nfLoc g b) (fun a => g.nfBit (s.gPlaced g) a.elem) hmem []
    have hx := State.mark_mem_pieceWrites he
    have hlt : g.nfBit (s.gPlaced g) a.elem < 8 := Nat.mod_lt _ (by decide)
    rw [← hl, State.peekNat, hloc, bit_eq_testBit]
    refine ⟨?_, hsame _ hx⟩
    have hbits := hfl.testBit hx (hat _ hx) rfl rfl hlt
    have h256 : 2 ^ (8 * 1) = 2 ^ 8 := rfl
    rw [h256, Nat.testBit_mod_two_pow, decide_eq_true hlt, Bool.true_and]
    refine hbits.trans (List.any_eq_true.2 ⟨_, List.mem_filter.2 ⟨hx, beq_self_eq_true _⟩, ?_⟩)
    rw [beq_self_eq_true, Bool.true_and, State.markWrite, BitVec.toNat_ofNat, Nat.testBit_mod_two_pow, decide_eq_true hlt, Bool.true_and,
      Nat.testBit_or, hb, Bool.or_true]
  · refine (hfl.word hsp fun hm => hout ?_).trans (hcu.word w hsp)
    obtain ⟨x, hx, hxw⟩ := List.mem_map.1 hm
    rw [← hxw]
    exact State.mem_pieceTouches hal hx

end Sys2Proof.Machine
end

section

/-!
PROOF. Contributions are added in a clear set (O39): the clear of a set, and the clauses of the statement.
-/

namespace Sys2Proof.Machine

variable {s t u : State} {h : Nat} {b : Bool}

/-- The words of a set, where they are listed. -/
def State.setWords (s : State) (b : Bool) : List Loc :=
  s.groupList.flatMap (fun e => e.2.arrWords (s.gPlaced e.2) .acc (b2n b) ++ e.2.arrWords (s.gPlaced e.2) .nf (b2n b))

theorem State.zeroes_clearIntake_listed (hbg : s.bg = 0) (b : Bool) : State.Zeroes (fun w => s.inSet b w = true) s (s.clearIntake b) := by
  have heq : s.clearIntake b = { s with stack := s.stack.without (s.inSet b) } := by
    unfold State.clearIntake
    rw [if_pos hbg]
    rfl
  rw [heq]
  exact State.zeroes_without hbg _

theorem State.zeroes_clearIntake (hbg : s.bg ≠ 0) (b : Bool) :
    State.Zeroes (fun w => ∃ l ∈ s.setWords b, w = (s.locPlace l false).word) s (s.clearIntake b) := by
  have heq : s.clearIntake b = s.groupList.foldl (fun s e =>
      (e.2.arrWords (s.gPlaced e.2) .acc (b2n b) ++ e.2.arrWords (s.gPlaced e.2) .nf (b2n b)).foldl (fun s l =>
        s.placeWrite (s.locPlace l false) 0 false) s) s := by
    unfold State.clearIntake
    rw [if_neg hbg]
  have hone : ∀ (v : State) (l : Loc), v = { s with stack := v.stack } →
      State.Zeroes (fun w => w = (s.locPlace l false).word) v (v.placeWrite (v.locPlace l false) 0 false) := fun v l hv => by
    have hl : v.locPlace l false = s.locPlace l false := by
      rw [hv]
      rfl
    rw [hl]
    exact v.zeroes_stkSet _
  rw [heq]
  refine (State.zeroes_foldl (s := s)
    (Z := fun e w => ∃ l ∈ e.2.arrWords (s.gPlaced e.2) .acc (b2n b) ++ e.2.arrWords (s.gPlaced e.2) .nf (b2n b), w = (s.locPlace l false).word)
    s.groupList fun u e hu => ?_).congr fun w => ?_
  · have hpl : u.gPlaced e.2 = s.gPlaced e.2 := by
      rw [hu]
      rfl
    rw [hpl]
    refine State.zeroes_foldl (s := u) (Z := fun l w => w = (s.locPlace l false).word) _ fun v l hv => hone v l ?_
    rw [hv, hu]
  · simp only [State.setWords, List.mem_flatMap]
    exact ⟨fun ⟨e, he, l, hl, hw⟩ => ⟨l, ⟨e, he, hl⟩, hw⟩, fun ⟨l, ⟨e, he, hl⟩, hw⟩ => ⟨e, he, l, hl, hw⟩⟩

/-- The clear of OPEN_STEP has ended: the set is clear and its command answered (R273). -/
theorem setIsCleared (hactive : s.mbox.active = some h) (hruns : s.wardenRuns = true) (hop : (s.hasp h).opcode = 8) (hswept : s.swept = true)
    (hlines : s.ctl.lintel = []) {Z : Nat → Prop}
    (hz : State.Zeroes Z s (s.clearIntake (bit ((s.hasp h).pay 24 1) 0))) :
    ∃ t, exec .setClearDone s = .next t ∧ (t.set (bit ((s.hasp h).pay 24 1) 0)).clear = true ∧ t.done h .okay ∧
      t.set (!bit ((s.hasp h).pay 24 1) 0) = s.set (!bit ((s.hasp h).pay 24 1) 0) ∧
      (∀ w, Z w → t.word .stack w = (0, 0)) ∧ (∀ w, ¬ Z w → t.word .stack w = s.word .stack w) := by
  have hx : exec .setClearDone s = .next ((((s.clearIntake (bit ((s.hasp h).pay 24 1) 0)).setSet (bit ((s.hasp h).pay 24 1) 0)
      { (s.clearIntake (bit ((s.hasp h).pay 24 1) 0)).set (bit ((s.hasp h).pay 24 1) 0) with clear := true }).newWork false).finish h .okay 0 []) := by
    refine congrArg Host.Outcome.next ?_
    rw [hactive]
    exact if_pos (by rw [hruns, hop, hswept]; rfl)
  refine ⟨_, hx, ?_⟩
  clear hx
  generalize bit ((s.hasp h).pay 24 1) 0 = b at hz ⊢
  generalize s.clearIntake b = v at hz ⊢
  have hctl : v.ctl = s.ctl := by rw [hz.frame]
  have hne : (!b) ≠ b := by cases b <;> decide
  obtain ⟨bs, hf⟩ := (v.setSet b { v.set b with clear := true }).newWork_frame false
  have hset := v.set_setSet b { v.set b with clear := true }
  have hlin : (v.setSet b { v.set b with clear := true }).ctl.lintel = v.ctl.lintel := by cases b <;> rfl
  have hword : ∀ w, (v.setSet b { v.set b with clear := true }).word .stack w = v.word .stack w := fun w => by cases b <;> rfl
  generalize v.setSet b { v.set b with clear := true } = x at hf hset hlin hword
  rw [hf]
  obtain ⟨y, hy⟩ : ∃ y : State, y = { x with banks := bs } := ⟨_, rfl⟩
  have hyc : y.ctl = x.ctl := by rw [hy]
  have hyw : ∀ w, y.word .stack w = x.word .stack w := fun w => by rw [hy]; rfl
  rw [← hy]
  have hc := y.completes_finish (bs := []) h 0 (st := .okay) (by decide) fun _ => by rw [hyc, hlin, hctl, hlines]
  have hsets : ∀ c, (y.finish h .okay 0 []).set c = x.set c := fun c => by
    have hcc := hc.frame.ctl.trans hyc
    exact State.set_congr (by rw [hcc]) (by rw [hcc])
  have hwords : ∀ w, (y.finish h .okay 0 []).word .stack w = v.word .stack w := fun w =>
    (hc.frame.word (by decide) (by decide) w).trans ((hyw w).trans (hword w))
  refine ⟨?_, hc.done, ?_, fun w hw => (hwords w).trans (hz.zero w hw), fun w hw => (hwords w).trans (hz.other w hw)⟩
  · rw [hsets, hset, if_pos rfl]
  · rw [hsets, hset, if_neg hne]
    exact State.set_congr (by rw [hctl]) (by rw [hctl])

theorem exec_accumContrib {k : Nat} (hk : k < 4096) (hs : s.serving = true) (h1 : s.runs 1 = true) {n : Nat}
    (hcourse : (s.bank k).course = some { ctx := 0, len := n }) : exec (.accumContrib k) s = .next (s.accumContrib k) :=
  guard_eq_next.2 ⟨decide_eq_true hk, by rw [hs, h1, hcourse]; rfl⟩

/-- Without a course of context 0, or a piece that stands in the row latch, nothing is added. -/
theorem exec_accumContrib_idle {k : Nat} (hk : k < 4096)
    (hidle : (∀ c, (s.bank k).course = some c → c.ctx ≠ 0) ∨ s.accumContrib k = s) : exec (.accumContrib k) s = .next s := by
  refine guard_eq_next.2 ⟨decide_eq_true hk, ?_⟩
  obtain hno | hsame := hidle
  · refine (if_neg ?_).symm
    cases hc : (s.bank k).course with
    | none => simp
    | some c =>
      have h0 : (c.ctx == 0) = false := by simpa using hno c hc
      dsimp only
      rw [h0, Bool.and_false]
      exact Bool.false_ne_true
  · rw [hsame]
    exact (ite_self s).symm

end Sys2Proof.Machine

open Sys2Proof Sys2Proof.Machine

/-- Settles O39: by the bytes that a piece's flush gathers, and by the words that the clear of a set zeroes. -/
theorem contributionsAreAddedInAClearSet : Obligations.ContributionsAreAddedInAClearSet := by
  refine ⟨fun s k l p rest a0 r g n hk hs h1 hcourse htake hfed hadds hg => ?_, fun s k hk hno => exec_accumContrib_idle hk (.inl hno),
    fun s k l p rest hk htake hfed => exec_accumContrib_idle hk (.inr ?_), fun s h hactive hh hruns hop hswept hlines => ?_,
    fun s h hactive hop hswept => ?_⟩
  · intro acc nf word sums marks hal hdup hap
    have hx := exec_accumContrib hk hs h1 hcourse
    have heq : s.accumContrib k = ({ s with ctl := { s.ctl with staged := rest } } : State).addPiece l.setB p := by
      simp only [State.accumContrib, htake, hfed, if_true]
    obtain ⟨u, hu⟩ : ∃ u : State, u = { s with ctl := { s.ctl with staged := rest } } := ⟨_, rfl⟩
    rw [heq, ← hu] at hx
    have hacc : u.accLoc g l.setB = acc := by rw [hu]; rfl
    have hnf : u.nfLoc g l.setB = nf := by rw [hu]; rfl
    have hplace : ∀ x, u.locPlace x false = s.locPlace x false := fun x => by rw [hu]; rfl
    have hmarks : u.marksHere l.setB p = marks := by rw [hu]; rfl
    have hpeek : ∀ x i, u.peekNat x i = s.peekNat x i := fun x i => by rw [hu]; rfl
    have hpl : u.gPlaced g = s.gPlaced g := by rw [hu]; rfl
    have hug : u.group a0.group = some g := by rw [hu]; exact hg
    have hmem : ∀ sp w, u.word sp w = s.word sp w := fun sp w => by rw [hu]; cases sp <;> rfl
    have hadd := State.adds_addPiece hadds hug (b := l.setB) (by unfold State.aligned; rw [hacc]; exact hal)
      (by simp only [hacc, hplace]; exact hdup) (by simp only [hacc, hnf, hplace, hmarks]; exact hap)
    refine ⟨_, hx, ?_, fun a ha => ?_, fun a ha => ?_, fun sp w hsp hout => ?_⟩
    · rw [hadd.ctl, hu]
    · have h' := hadd.sum a ha
      rw [hacc, hpeek] at h'
      exact h'
    · have h' := hadd.mark a (by rw [hmarks]; exact ha)
      rw [hnf, hpeek, hpl] at h'
      exact h'
    · refine (hadd.other sp w hsp ?_).trans (hmem sp w)
      unfold State.pieceTouches
      simp only [hacc, hnf, hplace, hmarks]
      exact hout
  · simp only [State.accumContrib, htake, hfed, Bool.false_eq_true, if_false]
  · intro b
    by_cases hbg : s.bg = 0
    · obtain ⟨t, hx, hclear, hdone, hset, hz, ho⟩ := setIsCleared hactive hruns hop hswept hlines (State.zeroes_clearIntake_listed hbg b)
      exact ⟨t, hx, hclear, hdone, hset, fun _ => ⟨fun w hw => Prod.mk.inj (hz w hw),
        fun w hw => Prod.mk.inj (ho w (by rw [hw]; exact Bool.false_ne_true))⟩, fun hn => absurd hbg hn⟩
    · obtain ⟨t, hx, hclear, hdone, hset, hz, ho⟩ := setIsCleared hactive hruns hop hswept hlines (State.zeroes_clearIntake hbg b)
      refine ⟨t, hx, hclear, hdone, hset, fun h0 => absurd h0 hbg, fun _ => ⟨fun l hl => Prod.mk.inj (hz _ ⟨l, hl, rfl⟩), fun w hw => ?_⟩⟩
      exact Prod.mk.inj (ho w fun ⟨l, hl, he⟩ => hw l hl he.symm)
  · refine congrArg Host.Outcome.next ?_
    rw [hactive]
    exact if_neg (by rw [hop, hswept, Bool.and_false]; exact Bool.false_ne_true)
end

section

/-!
PROOF. Steps close and are scanned (O40).
-/

namespace Sys2Proof.Machine

variable {s t u : State} {b : Bool}

/-! ### An access that goes -/

/-- What an access of the engine leaves that goes: time, units' latches and the budget's counts move. -/
theorem State.ksAccess_goes (s : State) {plan : List Reach} {cost : Nat} (task : KsTask) (hgo : s.goes plan cost = true) :
    (s.ksAccess plan cost task).2 = false ∧ ∃ cs bs n p, (s.ksAccess plan cost task).1 = { s with chans := cs, banks := bs, free := n, plumb := p } := by
  unfold State.ksAccess State.ksMove
  rw [if_pos hgo]
  refine ⟨rfl, ?_⟩
  have h := sameButUnits_foldl (l := plan) (f := fun t r => t.doReach r) (State.SameButUnits.refl ((s.ksSpend cost).countParams 0))
    fun r v hv => State.sameButUnits_doReach hv
  rw [h]
  exact ⟨_, _, _, _, rfl⟩

/-! ### DEADLINE_CLOSE -/

theorem State.deadlineDue_iff (s : State) (b : Bool) :
    s.deadlineDue b = true ↔ (s.set b).held = true ∧ (s.set b).state = .opened ∧ 200 * (s.set b).deadline.toNat ≤ s.now := by
  simp only [State.deadlineDue, Bool.and_eq_true, beq_iff_eq, decide_eq_true_eq, and_assoc]

/-- A set as the deadline leaves it. -/
def State.deadlineSet (s : State) (b : Bool) : StepSet :=
  if s.deadlineDue b then { s.set b with closed := true, cause := 2, closeTick := (s.set b).deadline, state := .sealing } else s.set b

theorem State.deadlineClose_sets (s : State) :
    s.deadlineClose = { s with ctl := { s.ctl with setA := s.deadlineSet false, setB := s.deadlineSet true } } := by
  rw [State.deadlineClose_eq, State.deadlineSet, State.deadlineSet]
  cases s.deadlineDue true <;> cases s.deadlineDue false <;> rfl

/-! ### The scan -/

/-- What a scan of set b leaves: the set's sums and reports, and what reads count. -/
structure State.Scans (b : Bool) (s t : State) : Prop where
  same : t = { s with regs := t.regs, chans := t.chans, banks := t.banks, crossing := t.crossing, ctl := t.ctl }
  other : t.set (!b) = s.set (!b)
  set : ∃ sc po fm gs, t.set b = { s.set b with scan := sc, poisonAcc := po, firstMarked := fm, groups := gs }

theorem State.Scans.refl (b : Bool) (s : State) : s.Scans b s := ⟨rfl, rfl, _, _, _, _, rfl⟩

theorem State.Scans.trans (h : State.Scans b s t) (h' : State.Scans b t u) : State.Scans b s u where
  same := by rw [h'.same, h.same]
  other := h'.other.trans h.other
  set := by
    obtain ⟨sc, po, fm, gs, he⟩ := h.set
    obtain ⟨sc', po', fm', gs', he'⟩ := h'.set
    exact ⟨sc', po', fm', gs', by rw [he', he]⟩

theorem State.SameButCounts.scans (h : s.SameButCounts t) (b : Bool) : State.Scans b s t := by
  have hctl : t.ctl = s.ctl := by rw [h]
  have hset : ∀ c, t.set c = s.set c := fun c => State.set_congr (by rw [hctl]) (by rw [hctl])
  refine ⟨?_, hset _, _, _, _, _, hset b⟩
  rw [h]

theorem State.scans_foldl {α : Type} {f : State → α → State} (hf : ∀ u a, State.Scans b u (f u a)) (l : List α) (s : State) :
    State.Scans b s (l.foldl f s) := by
  induction l generalizing s with
  | nil => exact .refl b s
  | cons a l ih => exact (hf s a).trans (ih _)

/-- A change of the set's sums and reports. -/
theorem State.scans_setSet (s : State) (b : Bool) (sc : BitVec 64) (po : BitVec 32) (fm : Option (Nat × Nat)) (gs : Sparse GroupReport) :
    State.Scans b s (s.setSet b { s.set b with scan := sc, poisonAcc := po, firstMarked := fm, groups := gs }) := by
  have hne : (!b) ≠ b := by cases b <;> decide
  refine ⟨?_, ?_, sc, po, fm, gs, ?_⟩
  · cases b <;> rfl
  · rw [State.set_setSet, if_neg hne]
  · rw [State.set_setSet, if_pos rfl]

theorem State.scans_scanAccount (s : State) (b : Bool) (ps : Sparse Place) : State.Scans b s (s.scanAccount ps).2 := by
  have hgen (l : List (Nat × Place)) (x : Nat × State) (hx : s.SameButCounts x.2) :
      s.SameButCounts (l.foldl (fun (x : Nat × State) e =>
        let k := e.2.word / (bankBytes / 16)
        let r := x.2.readPlace { src := 1, agent := 64 + k } { e.2 with site := .unit k }
        (x.1 + b2n r.1.2, r.2)) x).2 := by
    induction l generalizing x with
    | nil => exact hx
    | cons e l ih => exact ih _ (State.sameButCounts_readPlace hx)
  exact (hgen ps (0, s) (.refl s)).scans b

theorem State.scans_scanInto (s : State) (b : Bool) (n : Nat) (g : Group) : State.Scans b s (s.scanInto b n g) := by
  have ha := s.scans_scanAccount b (s.scanWords b g)
  unfold State.scanInto
  dsimp only
  exact ha.trans (State.scans_setSet _ b _ _ _ _)

theorem State.scans_readKnots (s : State) (b : Bool) : State.Scans b s s.readKnots :=
  State.scans_foldl (fun _ _ => (State.sameButCounts_readPlaces (.refl _)).scans b) _ s

section
variable {s₀ s : State} (h : s₀.SameButCounts s)
include h

@[mono] theorem State.sameButCounts_addChan {c ce ue po} : s₀.SameButCounts (s.addChan c ce ue po) := by
  unfold State.addChan
  exact sameButCounts_foldl (sameButCounts_foldl (sameButCounts_foldl h fun _ _ hv => State.sameButCounts_siteCe hv)
    fun _ _ hv => State.sameButCounts_siteUe hv) fun _ _ hv => State.sameButCounts_sitePoison hv

theorem State.sameButCounts_cstat {k} : s₀.SameButCounts (s.cstat k) := by
  unfold State.cstat
  dsimp only
  mono
  intro u hu
  mono

end

theorem State.scans_scanReports (s : State) (b : Bool) : State.Scans b s s.scanReports := by
  refine State.scans_foldl (fun u e => ?_) _ s
  unfold State.unitReport
  split
  · exact .refl b u
  · exact (State.sameButCounts_cstat (.refl u)).scans b

/-- A set as its scan begins. -/
def StepSet.scanned (x : StepSet) : StepSet :=
  { x with arrival := x.contribs.foldl (fun a e => a + e.2.sum) 0, scan := 0, poisonAcc := 0, firstMarked := none }

/-- The state in which the result of a scan is formed: its sums are in. -/
def State.summed (s : State) (b : Bool) : State :=
  let s := s.setSet b (s.set b).scanned
  ((s.groupList.foldl (fun s e => s.scanInto b e.1 e.2) s).readKnots).scanReports.wroteRecord

theorem State.sealScan_eq (s : State) (b : Bool) : ∃ scalars, s.sealScan b = ((s.summed b).setSet b { (s.summed b).set b with
    result := ((s.summed b).set b).resultOf, state := .isSealed, rec0 := true, rec1 := true, scalars := scalars }).irq .stepEvent := ⟨_, rfl⟩

theorem State.summed_spec (s : State) (b : Bool) : SameMemory s (s.summed b) ∧ (s.summed b).latches = s.latches ∧ (s.summed b).set (!b) = s.set (!b) ∧
    ∃ sc po fm gs, (s.summed b).set b = { (s.set b).scanned with scan := sc, poisonAcc := po, firstMarked := fm, groups := gs } := by
  have hne : (!b) ≠ b := by cases b <;> decide
  have hset := s.set_setSet b (s.set b).scanned
  have hmem : SameMemory s (s.setSet b (s.set b).scanned) := by cases b <;> exact sameMemory_of_stores rfl rfl rfl rfl
  have hlat : (s.setSet b (s.set b).scanned).latches = s.latches := by cases b <;> rfl
  unfold State.summed
  dsimp only
  generalize s.setSet b (s.set b).scanned = v at hset hmem hlat
  have hscan := ((State.scans_foldl (fun u (e : Nat × Group) => State.scans_scanInto u b e.1 e.2) v.groupList v).trans
    (State.scans_readKnots _ b)).trans (State.scans_scanReports _ b)
  generalize (v.groupList.foldl (fun s e => s.scanInto b e.1 e.2) v).readKnots.scanReports = w at hscan
  obtain ⟨cs, fb, n, hw⟩ := w.wroteRecord_frame
  have hwset : ∀ c, w.wroteRecord.set c = w.set c := fun c => State.set_congr (by rw [hw]) (by rw [hw])
  have hwmem : SameMemory w w.wroteRecord := sameMemory_of_stores (by rw [hw]) (by rw [hw]) (by rw [hw]) (by rw [hw])
  have hwlat : w.wroteRecord.latches = w.latches := by rw [hw]
  have hvmem : SameMemory v w :=
    sameMemory_of_stores (by rw [hscan.same]) (by rw [hscan.same]) (by rw [hscan.same]) (by rw [hscan.same])
  have hvlat : w.latches = v.latches := by rw [hscan.same]
  obtain ⟨sc, po, fm, gs, hx⟩ := hscan.set
  refine ⟨(hmem.trans hvmem).trans hwmem, (hwlat.trans hvlat).trans hlat, ?_, sc, po, fm, gs, ?_⟩
  · rw [hwset, hscan.other, hset, if_neg hne]
  · rw [hwset, hx, hset, if_pos rfl]

/-- The result as the statement orders it (R286). -/
theorem StepSet.resultOf_eq (x : StepSet) : x.resultOf =
    if x.cause = 2 ∧ (∃ e ∈ x.contribs, e.2.state = .notSealed) then .incomplete
    else if (∃ e ∈ x.contribs, e.2.state = .bad) ∨ x.stray ≠ 0 ∨ x.scan ≠ x.arrival ∨ x.poisonAcc ≠ 0 then .invalid
    else if x.nonfin ≠ 0 then .nonfinite
    else if x.overr ≠ 0 then .overrange
    else .isSealed := by
  simp only [StepSet.resultOf, List.any_eq_true, beq_iff_eq, Bool.or_eq_true, bne_iff_ne, or_assoc]

theorem setIsScanned (s : State) (b : Bool) : let t := s.sealScan b
    (t.set b).state = .isSealed ∧ (t.set b).rec0 = true ∧ (t.set b).rec1 = true ∧
      (t.set b).arrival = (s.set b).contribs.foldl (fun a e => a + e.2.sum) 0 ∧
      (t.set b).result = (
        if (s.set b).cause = 2 ∧ (∃ e ∈ (s.set b).contribs, e.2.state = .notSealed) then .incomplete
        else if (∃ e ∈ (s.set b).contribs, e.2.state = .bad) ∨ (s.set b).stray ≠ 0 ∨ (t.set b).scan ≠ (t.set b).arrival ∨
          (t.set b).poisonAcc ≠ 0 then .invalid
        else if (s.set b).nonfin ≠ 0 then .nonfinite
        else if (s.set b).overr ≠ 0 then .overrange
        else .isSealed) ∧
      t.regs.irqStatus.getLsbD 2 = true ∧ t.set (!b) = s.set (!b) ∧ SameMemory s t ∧ t.latches = s.latches := by
  have hne : (!b) ≠ b := by cases b <;> decide
  obtain ⟨scalars, heq⟩ := s.sealScan_eq b
  obtain ⟨hmem, hlat, hother, sc, po, fm, gs, hset⟩ := s.summed_spec b
  intro t
  have ht : t = s.sealScan b := rfl
  rw [heq] at ht
  clear_value t
  generalize s.summed b = v at *
  have hres := StepSet.resultOf_eq (v.set b)
  generalize (v.set b).resultOf = res at hres ht
  have hv := v.set_setSet b { v.set b with result := res, state := .isSealed, rec0 := true, rec1 := true, scalars := scalars }
  have hvmem : SameMemory v (v.setSet b { v.set b with result := res, state := .isSealed, rec0 := true, rec1 := true, scalars := scalars }) := by
    cases b <;> exact sameMemory_of_stores rfl rfl rfl rfl
  have hvlat : (v.setSet b { v.set b with result := res, state := .isSealed, rec0 := true, rec1 := true, scalars := scalars }).latches = v.latches := by
    cases b <;> rfl
  generalize v.setSet b { v.set b with result := res, state := .isSealed, rec0 := true, rec1 := true, scalars := scalars } = w at *
  have htset : ∀ c, t.set c = w.set c := fun c => by
    rw [ht]
    cases c <;> rfl
  have hself : t.set b = { v.set b with result := res, state := .isSealed, rec0 := true, rec1 := true, scalars := scalars } := by
    rw [htset, hv, if_pos rfl]
  refine ⟨?_, ?_, ?_, ?_, ?_, ?_, ?_, ?_, ?_⟩
  · rw [hself]
  · rw [hself]
  · rw [hself]
  · rw [hself, hset]
    rfl
  · rw [hself, hres, hset]
    rfl
  · rw [ht]
    have hbit : (w.regs.irqStatus ||| BitVec.ofNat 20 (2 ^ Irq.stepEvent.bit)).getLsbD 2 = true := by
      rw [BitVec.getLsbD_or]
      exact Bool.or_eq_true_iff.2 (.inr (by decide))
    exact hbit
  · rw [htset, hv, if_neg hne, hother]
  · refine (hmem.trans hvmem).trans ?_
    rw [ht]
    exact sameMemory_of_stores rfl rfl rfl rfl
  · rw [ht]
    exact hvlat.trans hlat

theorem exec_sealScanDone (hruns : s.wardenRuns = true) (hready : s.scanReady b = true) (hfirst : b = true → s.scanReady false = false) :
    exec .sealScanDone s = .next (s.scanDone b) := by
  refine congrArg Host.Outcome.next ?_
  rw [hruns]
  cases b with
  | false =>
    rw [hready]
    rfl
  | true =>
    rw [hready, hfirst rfl]
    rfl

/-- What waits of an access of the engine, as the statements say it. -/
theorem State.waits_ksAccess (s : State) {plan : List Reach} {cost : Nat} (task : KsTask) (hgo : s.goes plan cost = false) :
    (s.ksAccess plan cost task).2 = true ∧ Waits s (s.ksAccess plan cost task).1 task ∧
      (∀ c, (s.ksAccess plan cost task).1.set c = s.set c) ∧ (s.ksAccess plan cost task).1.latches = s.latches := by
  obtain ⟨hx, cs, bs, n, q, p, i, hi, hf⟩ := s.ksAccess_waits task hgo
  rw [hf]
  refine ⟨hx, ⟨⟨i.id, i.owed, i.plan, i.params, ?_⟩, sameMemory_of_stores rfl rfl rfl rfl⟩, fun c => State.set_congr rfl rfl, rfl⟩
  rw [← hi]

end Sys2Proof.Machine

open Sys2Proof Sys2Proof.Machine

/-- Settles O40: a set closes at its deadline, and a scan forms the result of R286 from the sums. -/
theorem stepsCloseAndAreScanned : Obligations.StepsCloseAndAreScanned := by
  refine ⟨fun s hs => ?_, fun s b hruns hready hfirst => ⟨fun hgo => ?_, fun hgo => ?_⟩⟩
  · have hx : exec .deadlineClose s = .next s.deadlineClose := congrArg Host.Outcome.next (if_pos hs)
    rw [State.deadlineClose_sets] at hx
    refine ⟨_, hx, rfl, fun b => ?_⟩
    have hset : State.set { s with ctl := { s.ctl with setA := s.deadlineSet false, setB := s.deadlineSet true } } b = s.deadlineSet b := by
      cases b <;> rfl
    rw [hset, State.deadlineSet]
    exact if_congr (s.deadlineDue_iff b) rfl rfl
  · obtain ⟨hx, hw, hset, hlat⟩ := s.waits_ksAccess (.scanEnd b) hgo
    refine ⟨_, (exec_sealScanDone hruns hready hfirst).trans (congrArg Host.Outcome.next ?_), hw, hset _, hset _, hlat⟩
    rw [State.scanDone]
    exact if_pos hx
  · obtain ⟨hx, cs, bs, n, p, hf⟩ := s.ksAccess_goes (.scanEnd b) hgo
    obtain ⟨v, hv⟩ : ∃ v : State, v = { s with chans := cs, banks := bs, free := n, plumb := p } := ⟨_, rfl⟩
    have heq : s.scanDone b = v.sealScan b := by
      rw [State.scanDone, hx, hf, hv]
      rfl
    have hset : ∀ c, v.set c = s.set c := fun c => State.set_congr (by rw [hv]) (by rw [hv])
    have hmem : SameMemory s v := sameMemory_of_stores (by rw [hv]) (by rw [hv]) (by rw [hv]) (by rw [hv])
    have hlat : v.latches = s.latches := by rw [hv]
    obtain ⟨hstate, h0, h1, harrival, hresult, hirq, hother, hsame, hl⟩ := setIsScanned v b
    rw [← heq] at *
    rw [hset] at *
    exact ⟨_, exec_sealScanDone hruns hready hfirst, hstate, h0, h1, harrival, hresult, hirq, hother, hmem.trans hsame, hl.trans hlat⟩
end

section

/-!
PROOF. Updates start in their turn (O41): the run of a step, and the second pass of a factored group (R309, R325, R340).
-/

namespace Sys2Proof.Machine

variable {s t u : State} {b : Bool}

/-! ### What the engine moves for a run -/

/-- A move of the engine changes units, the budget's counts and the work items, whether it goes or waits (R203, R437). -/
theorem State.ksMove_frame (s : State) (plan : List Reach) (cost params : Nat) (task : KsTask) :
    ∃ cs bs n q p is, (s.ksMove plan cost params task).1 =
      { s with chans := cs, banks := bs, free := n, seq := q, plumb := p, ctl := { s.ctl with items := is } } := by
  unfold State.ksMove
  split
  · have h := sameButUnits_foldl (l := plan) (f := fun t r => t.doReach r) (State.SameButUnits.refl ((s.ksSpend cost).countParams params))
      fun r v hv => State.sameButUnits_doReach hv
    rw [h]
    exact ⟨_, _, _, _, _, _, rfl⟩
  · obtain ⟨cs, bs, n, q, heq⟩ := State.issue_frame (((s.ksSpend (min cost (s.ksRest / 4 * 4))).countParams
      (if cost = 0 then params else params * min cost (s.ksRest / 4 * 4) / cost)).bump) s.seq (splitPlan (cost - min cost (s.ksRest / 4 * 4)) plan).1
    dsimp only
    rw [heq]
    exact ⟨_, _, _, _, _, _, rfl⟩

/-! ### Lines of the record, written or waiting -/

theorem State.SameRows.lintelPut (s : State) (copy : Bool) (epoch : Nat) : s.SameRows (s.lintelPut copy epoch) := by
  unfold State.lintelPut
  dsimp only
  split
  · exact State.SameRows.lintelIssue _ _ _
  · exact .of_banks rfl

theorem State.groups_lintelPut (s : State) (copy : Bool) (epoch : Nat) : (s.lintelPut copy epoch).groups = s.groups := by
  unfold State.lintelPut
  dsimp only
  split
  · rw [(s.putsCopy_lintelIssue (copy := copy) (s.lintelBytes epoch)).frame]
  · rfl

/-- t has the steps, the journal and the groups of s, and its words outside the record. -/
structure State.NotesOnly (s t : State) : Prop where
  steps : s.KeepsSteps t
  journal : t.ctl.journal = s.ctl.journal
  groups : t.groups = s.groups
  rows : s.SameRows t
  mortar : t.mortar = s.mortar
  hasps : t.hasps = s.hasps
  word : ∀ w, (∀ c, ∀ p ∈ s.lintelLine c, p.word ≠ w) → t.word .stack w = s.word .stack w

theorem State.NotesOnly.line (h : s.NotesOnly t) (c : Bool) : t.lintelLine c = s.lintelLine c :=
  State.lintelLine_congr fun row => h.rows _ row

theorem State.NotesOnly.trans (h : s.NotesOnly t) (h' : t.NotesOnly u) : s.NotesOnly u where
  steps := h.steps.trans h'.steps
  journal := h'.journal.trans h.journal
  groups := h'.groups.trans h.groups
  rows := h.rows.trans h'.rows
  mortar := h'.mortar.trans h.mortar
  hasps := h'.hasps.trans h.hasps
  word w hw := (h'.word w fun c p hp => hw c p (h.line c ▸ hp)).trans (h.word w hw)

theorem State.notesOnly_wroteRecord (s : State) : s.NotesOnly s.wroteRecord := by
  have hk := s.keepsSteps_wroteRecord
  obtain ⟨cs, fb, n, heq⟩ := s.wroteRecord_frame
  rw [heq] at hk ⊢
  exact ⟨hk, rfl, rfl, .of_banks rfl, rfl, rfl, fun _ _ => rfl⟩

theorem State.notesOnly_lintelPut (s : State) (copy : Bool) (epoch : Nat) : s.NotesOnly (s.lintelPut copy epoch) := by
  have h := s.putsOrWaits_lintelPut copy epoch
  exact ⟨h.keepsSteps, by rw [h.ctl], s.groups_lintelPut copy epoch, State.SameRows.lintelPut s copy epoch, h.mortar, h.hasps,
    fun w hw => h.word w (hw copy)⟩

/-- A new configuration is noted in the record, at once or as its banks come free (R346, R347). -/
theorem State.notesOnly_configChanged (s : State) : s.NotesOnly s.configChanged := by
  obtain ⟨cs, fb, n, h⟩ := s.configNoted_frame
  have h0 : s.NotesOnly s.configNoted := by
    rw [h]
    exact ⟨⟨fun c => State.set_congr rfl rfl, rfl, rfl, fun _ => id⟩, rfl, rfl, .of_banks rfl, rfl, rfl, fun _ _ => rfl⟩
  rw [State.configChanged_eq]
  exact (h0.trans (State.notesOnly_lintelPut _ _ _)).trans (State.notesOnly_lintelPut _ _ _)

theorem State.notesOnly_newWork (s : State) (ctx1 : Bool) : s.NotesOnly (s.newWork ctx1) := by
  have hrows : s.SameRows (s.newWork ctx1) := by
    unfold State.newWork
    dsimp only
    generalize s.banks.map (·.1) = l
    induction l generalizing s with
    | nil => exact fun _ _ => rfl
    | cons k l ih =>
      rw [List.foldl_cons]
      refine State.SameRows.trans ?_ (ih _)
      exact State.SameRows.setBank k fun _ => rfl
  obtain ⟨bs, heq⟩ := s.newWork_frame ctx1
  rw [heq] at hrows ⊢
  exact ⟨⟨fun c => State.set_congr rfl rfl, rfl, rfl, fun _ => id⟩, rfl, rfl, hrows, rfl, rfl, fun _ _ => rfl⟩

/-! ### The groups of a run -/

theorem State.mem_groupList (hwf : s.memWf = true) {e : Nat × Group} : e ∈ s.groupList ↔ s.group e.1 = some e.2 := by
  obtain ⟨-, -, -, hg, -⟩ := s.memWf_iff.1 hwf
  have hrising : Sparse.rising none s.groups = true := (Bool.and_eq_true _ _ ▸ hg).1
  rw [State.groupList, List.mem_filterMap]
  constructor
  · rintro ⟨⟨k, v⟩, hm, hv⟩
    obtain ⟨g, rfl, rfl⟩ := Option.map_eq_some_iff.1 hv
    exact Sparse.get_of_mem hrising hm
  · intro h
    refine ⟨(e.1, some e.2), ?_, rfl⟩
    rw [State.group] at h
    generalize s.groups = m at h
    induction m with
    | nil => exact absurd h (by simp [Sparse.get])
    | cons a r ih =>
      obtain ⟨k, v⟩ := a
      rw [Sparse.get] at h
      split at h
      · next hk => exact List.mem_cons.2 (.inl (by rw [hk, h]))
      · exact List.mem_cons_of_mem _ (ih h)

theorem State.foldl_setGroup_frame (f : Group → Group) (l : List (Nat × Group)) (s : State) :
    l.foldl (fun s e => s.setGroup e.1 (some (f e.2))) s = { s with groups := (l.foldl (fun s e => s.setGroup e.1 (some (f e.2))) s).groups } := by
  induction l generalizing s with
  | nil => rfl
  | cons e l ih => exact (ih _).trans rfl

/-- Groups that are set in turn, each as a function of what it was: the order does not matter. -/
theorem State.foldl_setGroup (f : Group → Group) (was : Nat → Option Group) (l : List (Nat × Group)) (hl : ∀ e ∈ l, was e.1 = some e.2) (s : State)
    (i : Nat) : (l.foldl (fun s e => s.setGroup e.1 (some (f e.2))) s).group i = if i ∈ l.map (·.1) then (was i).map f else s.group i := by
  induction l generalizing s with
  | nil => rfl
  | cons e l ih =>
    rw [List.foldl_cons, ih (fun a ha => hl a (List.mem_cons_of_mem _ ha)), State.group_setGroup]
    by_cases hi : i = e.1
    · rw [hi, hl e List.mem_cons_self]
      simp
    · by_cases hm : i ∈ l.map (·.1) <;> simp only [hi, hm, List.map_cons, List.mem_cons, if_true, if_false, or_true, or_false]

/-- Groups lose the versions that their update writes over (R320), and a new record notes it. -/
theorem State.loseVersions_spec (s : State) (n : BitVec 64) (pick : Group → Bool) :
    ∃ gs, State.NotesOnly { s with groups := gs } (s.loseVersions n pick) ∧ (s.memWf = true → ∀ i g, s.group i = some g →
      (s.loseVersions n pick).group i = some { g with low := if pick g then g.lowDuring n else g.low }) := by
  unfold State.loseVersions
  dsimp only
  split
  · next hnone =>
    refine ⟨s.groups, ⟨⟨fun _ => rfl, rfl, rfl, fun _ => id⟩, rfl, rfl, .of_banks rfl, rfl, rfl, fun _ _ => rfl⟩, fun hwf i g hg => ?_⟩
    have hnot := List.filter_eq_nil_iff.1 (List.isEmpty_iff.1 hnone) (i, g) ((State.mem_groupList hwf).2 hg)
    rw [Bool.and_eq_true, bne_iff_ne, not_and, not_not] at hnot
    rw [hg]
    split
    · next hp => rw [hnot hp]
    · rfl
  · generalize hit : s.groupList.filter (fun e => pick e.2 && e.2.lowDuring n != e.2.low) = l
    have hframe := State.foldl_setGroup_frame (fun g => { g with low := g.lowDuring n }) l s
    have hget := fun hl => State.foldl_setGroup (fun g => { g with low := g.lowDuring n }) s.group l hl s
    generalize l.foldl (fun s e => s.setGroup e.1 (some { e.2 with low := e.2.lowDuring n })) s = v at hframe hget
    have hnote := v.notesOnly_configChanged
    refine ⟨v.groups, ?_, fun hwf i g hg => ?_⟩
    · rw [← hframe]
      exact hnote
    have hl : ∀ e ∈ l, s.group e.1 = some e.2 := fun e he => (State.mem_groupList hwf).1 (List.mem_filter.1 (hit ▸ he)).1
    have hmem : i ∈ l.map (·.1) ↔ pick g = true ∧ g.lowDuring n ≠ g.low := by
      rw [List.mem_map]
      constructor
      · rintro ⟨e, he, rfl⟩
        have heg : e.2 = g := Option.some.inj ((hl e he).symm.trans hg)
        rw [← hit, List.mem_filter, heg, Bool.and_eq_true, bne_iff_ne] at he
        exact he.2
      · rintro ⟨hp, hne⟩
        refine ⟨(i, g), ?_, rfl⟩
        rw [← hit, List.mem_filter, Bool.and_eq_true, bne_iff_ne]
        exact ⟨(State.mem_groupList hwf).2 hg, hp, hne⟩
    refine (congrArg (fun gs => Sparse.get none gs i) hnote.groups).trans ((hget hl i).trans ?_)
    rw [hg]
    by_cases hm : pick g = true ∧ g.lowDuring n ≠ g.low
    · rw [if_pos (hmem.2 hm), if_pos hm.1]
      rfl
    · rw [if_neg fun h => hm (hmem.1 h)]
      split
      · next hp =>
        have heq : g.lowDuring n = g.low := by
          by_contra hne
          exact hm ⟨hp, hne⟩
        rw [heq]
      · rfl

/-! ### UPDATE_START -/

theorem State.zeroCounts_eq (s : State) (b : Bool) (pick : Group → Bool) : ∃ gs, s.zeroCounts b pick = s.setSet b { s.set b with groups := gs } := by
  unfold State.zeroCounts
  generalize s.groupList = l
  have hself : ∃ gs, s = s.setSet b { s.set b with groups := gs } := ⟨(s.set b).groups, by cases b <;> rfl⟩
  have hgen (l : List (Nat × Group)) (v : State) (hv : ∃ gs, v = s.setSet b { s.set b with groups := gs }) :
      ∃ gs, l.foldl (fun s e => if pick e.2 then
        s.setSet b { s.set b with groups := Sparse.put e.1 { Sparse.get emptyReport (s.set b).groups e.1 with nfState := 0, poison := 0 } (s.set b).groups }
        else s) v = s.setSet b { s.set b with groups := gs } := by
    induction l generalizing v with
    | nil => exact hv
    | cons e l ih =>
      rw [List.foldl_cons]
      refine ih _ ?_
      obtain ⟨gs, rfl⟩ := hv
      split
      · exact ⟨_, by cases b <;> rfl⟩
      · exact ⟨gs, rfl⟩
  exact hgen l s hself

/-- A run of the step in set b as UPDATE_START leaves it (R340, R360). -/
structure State.Starts (s : State) (b spec : Bool) (clip : F32) (exp : BitVec 8) (t : State) : Prop where
  state : (t.set b).state = .updating
  runs : (t.set b).runs = (s.set b).runs + 1
  run : (t.set b).run = some { spec := spec, clip := clip, exp := exp, safeDone := false, pass2 := [] }
  other : t.set (!b) = s.set (!b)
  epoch : t.ctl.epoch = s.ctl.epoch
  journal : t.ctl.journal = s.ctl.journal
  latches : t.latches = s.latches
  memory : SameMemoryBut ((s.lintelLine false ++ s.lintelLine true).map (fun p => (p.space, p.word))) s t
  low : s.memWf = true → ∀ i g, s.group i = some g → t.group i = some { g with low := if spec && g.lean then g.low else g.lowDuring (s.set b).step }

/-- Words outside the record, as the statements name them. -/
theorem sameMemoryBut_record (hmortar : t.mortar = s.mortar) (hhasps : t.hasps = s.hasps)
    (hword : ∀ w, (∀ c, ∀ p ∈ s.lintelLine c, p.word ≠ w) → t.word .stack w = s.word .stack w) :
    SameMemoryBut ((s.lintelLine false ++ s.lintelLine true).map (fun p => (p.space, p.word))) s t := by
  intro sp w hsp hw
  cases sp with
  | pages => exact absurd rfl hsp
  | mortar => simp only [State.word, hmortar]
  | hasp => simp only [State.word, hhasps]
  | stack =>
    refine hword w fun c p hp heq => hw (List.mem_map.2 ⟨p, ?_, ?_⟩)
    · cases c
      · exact List.mem_append_left _ hp
      · exact List.mem_append_right _ hp
    · obtain ⟨i, -, rfl⟩ := List.mem_map.1 hp
      rw [heq]
      rfl

theorem State.starts_startRun (s : State) (b spec : Bool) (clip : F32) (exp : BitVec 8) : s.Starts b spec clip exp (s.startRun b spec clip exp) := by
  have hne : (!b) ≠ b := by cases b <;> decide
  obtain ⟨pick, hpick⟩ : ∃ pick : Group → Bool, pick = fun g => !spec || !g.lean := ⟨_, rfl⟩
  obtain ⟨reps, hv⟩ := s.zeroCounts_eq b pick
  obtain ⟨gs, hnote, hlow⟩ := (s.zeroCounts b pick).loseVersions_spec (s.set b).step pick
  have hset := s.set_setSet b { s.set b with groups := reps }
  have hframe : s.zeroCounts b pick = { s with ctl := { s.ctl with setA := (s.zeroCounts b pick).ctl.setA, setB := (s.zeroCounts b pick).ctl.setB } } := by
    rw [hv]
    cases b <;> rfl
  rw [← hv] at hset
  have hopen : s.startRun b spec clip exp = ((((s.zeroCounts b pick).loseVersions (s.set b).step pick).newWork true).wroteRecord.setSet b
      { ((((s.zeroCounts b pick).loseVersions (s.set b).step pick).newWork true).wroteRecord.set b).oneMoreRun with
        state := .updating, run := some { spec := spec, clip := clip, exp := exp, safeDone := false, pass2 := [] } }).startRows b := by
    rw [hpick]
    rfl
  rw [hopen]
  generalize s.zeroCounts b pick = v at *
  have hrest := (State.notesOnly_newWork (v.loseVersions (s.set b).step pick) true).trans (State.notesOnly_wroteRecord _)
  have hnote := hnote.trans hrest
  have hgroups := hrest.groups
  generalize ((v.loseVersions (s.set b).step pick).newWork true).wroteRecord = w at hnote hgroups
  have hwset : ∀ c, w.set c = v.set c := fun c => (hnote.steps.sets c).trans (State.set_congr rfl rfl)
  obtain ⟨x, hx⟩ : ∃ x : StepSet, x = { (w.set b).oneMoreRun with
    state := .updating, run := some { spec := spec, clip := clip, exp := exp, safeDone := false, pass2 := [] } } := ⟨_, rfl⟩
  rw [← hx]
  have hyset := w.set_setSet b x
  have hyframe : w.setSet b x = { w with ctl := { w.ctl with setA := (w.setSet b x).ctl.setA, setB := (w.setSet b x).ctl.setB } } := by
    cases b <;> rfl
  generalize w.setSet b x = y at hyset hyframe
  obtain ⟨cs, bs, n, q, p, is, ht⟩ : ∃ cs bs n q p is, y.startRows b =
      { y with chans := cs, banks := bs, free := n, seq := q, plumb := p, ctl := { y.ctl with items := is } } := by
    unfold State.startRows
    split
    · exact State.ksMove_frame _ _ _ _ _
    · exact ⟨_, _, _, _, _, _, rfl⟩
  generalize y.startRows b = t at ht
  have htset : ∀ c, t.set c = y.set c := fun c => State.set_congr (by rw [ht]) (by rw [ht])
  have htb : t.set b = x := by rw [htset, hyset, if_pos rfl]
  have hmem (m : Nat) : t.word .stack m = w.word .stack m := by
    have hty : t.word .stack m = y.word .stack m := by
      rw [ht]
      rfl
    exact hty.trans (by rw [hyframe]; rfl)
  have hline : ∀ c, State.lintelLine { v with groups := gs } c = s.lintelLine c := fun c => by
    rw [hframe]
    rfl
  refine ⟨?_, ?_, ?_, ?_, ?_, ?_, ?_, ?_, ?_⟩
  · rw [htb, hx]
  · rw [htb, hx, hwset, hset, if_pos rfl]
    rfl
  · rw [htb, hx]
  · rw [htset, hyset, if_neg hne, hwset, hset, if_neg hne]
  · rw [ht, hyframe]
    exact hnote.steps.epoch.trans (by rw [hframe])
  · rw [ht, hyframe]
    exact hnote.journal.trans (by rw [hframe])
  · rw [ht, hyframe]
    exact hnote.steps.latches.trans (by rw [hframe])
  · refine sameMemoryBut_record ?_ ?_ fun m hm => ?_
    · rw [ht, hyframe]
      exact hnote.mortar.trans (by rw [hframe])
    · rw [ht, hyframe]
      exact hnote.hasps.trans (by rw [hframe])
    · rw [hmem]
      refine (hnote.word m fun c p hp => hm c p (hline c ▸ hp)).trans ?_
      rw [hframe]
      rfl
  · intro hwf i g hg
    have hgt : t.group i = (v.loseVersions (s.set b).step pick).group i := by
      rw [State.group, State.group, ht, hyframe, hgroups]
    rw [hgt, hlow (by rw [hframe]; exact hwf) i g (by rw [hframe]; exact hg), hpick]
    cases spec with
    | false => rfl
    | true => cases hl : g.lean <;> simp [hl]

theorem State.mayUpdate_starts {spec : Bool} {clip : F32} {exp : BitVec 8} (h : s.Starts b spec clip exp t) : t.mayUpdate (!b) = s.mayUpdate (!b) := by
  have hl : t.latch 0 = s.latch 0 := by rw [State.latch, h.latches, State.latch]
  simp only [State.mayUpdate, h.other, h.epoch, hl]

theorem State.updateStart_of_may_not (h : s.mayUpdate b = false) : s.updateStart b = s := by
  unfold State.updateStart
  exact if_pos (by rw [h]; rfl)

theorem State.updateStart_eq (h : s.mayUpdate b = true) (hbusy : s.recordBusy = false) : s.updateStart b = match (s.set b).verdict with
    | some v => s.startRun b false v.clip v.exp
    | none => if (s.set b).result = .isSealed ∧ s.anySafe then s.startRun b true f32One (s.set b).lossExp else s := by
  unfold State.updateStart
  exact (if_neg (by rw [h, hbusy]; exact Bool.false_ne_true)).trans (by rfl)

/-- UPDATE_START where one set may update, and another cannot, before or after. -/
theorem exec_updateStart (hruns : s.wardenRuns = true) (hexp : s.exporting = false) (hother : s.mayUpdate (!b) = false)
    (ht : (s.updateStart b).mayUpdate (!b) = false) : exec .updateStart s = .next (s.updateStart b) := by
  refine congrArg Host.Outcome.next ?_
  rw [hruns, hexp]
  cases b with
  | false => exact State.updateStart_of_may_not ht
  | true => exact congrArg (fun u => State.updateStart u true) (State.updateStart_of_may_not hother)

/-! ### The second pass -/

/-- Every step of t stands as in s, but for what is counted of its groups. -/
def State.KeepsRuns (s t : State) : Prop := ∀ c, ∃ gs, t.set c = { s.set c with groups := gs }

theorem State.KeepsRuns.trans (h : s.KeepsRuns t) (h' : t.KeepsRuns u) : s.KeepsRuns u := fun c => by
  obtain ⟨gs, he⟩ := h c
  obtain ⟨gs', he'⟩ := h' c
  exact ⟨gs', by rw [he', he]⟩

theorem State.keepsRuns_of_ctl (h : t.ctl = s.ctl) : s.KeepsRuns t := fun c => ⟨(s.set c).groups, State.set_congr (by rw [h]) (by rw [h])⟩

theorem State.keepsRuns_foldl {α : Type} {f : State → α → State} (hf : ∀ u a, State.KeepsRuns u (f u a)) (l : List α) (s : State) :
    s.KeepsRuns (l.foldl f s) := by
  induction l generalizing s with
  | nil => exact State.keepsRuns_of_ctl rfl
  | cons a l ih => exact (hf s a).trans (ih _)

theorem State.keepsRuns_countRun (s : State) (c : UCtx) (m n : Nat) : s.KeepsRuns (s.countRun c m n) := by
  intro d
  unfold State.countRun
  dsimp only
  rw [State.set_setSet]
  split
  · next h =>
    rw [h]
    exact ⟨_, rfl⟩
  · exact ⟨_, rfl⟩

theorem State.sameButCounts_accountUpd (s : State) (c : UCtx) (ps : Sparse Place) : s.SameButCounts (s.accountUpd c ps) :=
  sameButCounts_foldl (.refl s) fun _ _ hv => State.sameButCounts_readPlace hv

theorem State.sameButCounts_unitReports (s : State) (c : UCtx) (ks : List Nat) : s.SameButCounts (s.unitReports c ks) := by
  unfold State.unitReports
  split
  · refine sameButCounts_foldl (.refl s) fun k u hu => ?_
    unfold State.unitReport
    split
    · exact hu
    · exact State.sameButCounts_cstat hu
  · exact .refl s

theorem SameMemory.of_counts (h : s.SameButCounts t) : SameMemory s t := sameMemory_of_stores (by rw [h]) (by rw [h]) (by rw [h]) (by rw [h])

/-- Pass 1 leaves the runs; that of a LEAN group leaves the words (R309, R338). -/
theorem State.pass1_spec (s : State) (c : UCtx) : s.KeepsRuns (s.pass1 c) ∧ (c.g.lean = true → SameMemory s (s.pass1 c)) := by
  unfold State.pass1
  dsimp only
  generalize hps : List.foldl _ _ (List.range c.g.rows) = ps
  have hacc := s.sameButCounts_accountUpd c ps
  generalize s.accountUpd c ps = v at hacc
  have hlast (w : State) (x : Option Group) : w.KeepsRuns ((w.wroteRecord.setGroup c.n x).unitReports c c.g.rowBanks) ∧
      SameMemory w ((w.wroteRecord.setGroup c.n x).unitReports c c.g.rowBanks) := by
    have hrep := (w.wroteRecord.setGroup c.n x).sameButCounts_unitReports c c.g.rowBanks
    obtain ⟨cs, fb, n, hw⟩ := w.wroteRecord_frame
    have hctl : (w.wroteRecord.setGroup c.n x).ctl = w.ctl := by
      rw [hw]
      rfl
    refine ⟨State.keepsRuns_of_ctl (hrep.ctl.trans hctl), SameMemory.trans ?_ (.of_counts hrep)⟩
    rw [hw]
    exact sameMemory_of_stores rfl rfl rfl rfl
  refine ⟨?_, fun hlean => ?_⟩
  · refine (State.keepsRuns_of_ctl hacc.ctl).trans (State.KeepsRuns.trans ?_ (hlast _ _).1)
    split
    · exact State.keepsRuns_of_ctl rfl
    · exact State.keepsRuns_foldl (fun u k => (State.keepsRuns_of_ctl (State.works_flush (.refl u)).ctl).trans (State.keepsRuns_countRun _ _ _ _)) _ _
  · refine (SameMemory.of_counts hacc).trans (SameMemory.trans ?_ (hlast _ _).2)
    rw [if_pos hlean]
    exact sameMemory_of_stores rfl rfl rfl rfl

theorem State.pass2Begin_spec {n : Nat} {r : Run} {g : Group} (hr : (s.set b).run = some r) (hg : s.group n = some g) :
    (∃ gs, (s.pass2Begin b n).set b = { s.set b with groups := gs, run := some { r with pass2 := r.pass2 ++ [n] } }) ∧
    (s.pass2Begin b n).set (!b) = { s.set (!b) with groups := ((s.pass2Begin b n).set (!b)).groups } ∧ (g.lean = true → SameMemory s (s.pass2Begin b n)) := by
  have hne : (!b) ≠ b := by cases b <;> decide
  have hx : ∃ v, s.KeepsRuns v ∧ (g.lean = true → SameMemory s v) ∧
      s.pass2Begin b n = v.setSet b { v.set b with run := some { r with pass2 := r.pass2 ++ [n] } } := by
    unfold State.pass2Begin
    rw [hr, hg]
    dsimp only
    split
    · exact ⟨s, State.keepsRuns_of_ctl rfl, fun _ => sameMemory_of_stores rfl rfl rfl rfl, rfl⟩
    · have h := s.pass1_spec (s.uctx b n g r.clip r.exp)
      exact ⟨_, h.1, h.2, rfl⟩
  obtain ⟨v, hk, hm, hx⟩ := hx
  rw [hx, State.set_setSet, State.set_setSet, if_pos rfl, if_neg hne]
  obtain ⟨gs, hv⟩ := hk b
  obtain ⟨gs', hv'⟩ := hk (!b)
  refine ⟨⟨gs, by rw [hv]⟩, by rw [hv'], fun hl => (hm hl).trans ?_⟩
  cases b <;> exact sameMemory_of_stores rfl rfl rfl rfl

theorem State.pass2Start_of_none {n : Nat} (h : (s.set b).run = none) : s.pass2Start b n = s := by
  unfold State.pass2Start
  dsimp only
  rw [h]

/-- FACTORED_PASS2_START of a group that the run of one set alone takes. -/
theorem exec_factoredPass2Start {n : Nat} (hruns : s.groupRuns n = true) (hother : (s.set (!b)).run = none)
    (ht : ((s.pass2Start b n).set (!b)).run = none) : exec (.factoredPass2Start n) s = .next (s.pass2Start b n) := by
  refine congrArg Host.Outcome.next ?_
  rw [hruns]
  cases b with
  | false => exact State.pass2Start_of_none ht
  | true => exact congrArg (fun u => State.pass2Start u true n) (State.pass2Start_of_none hother)

end Sys2Proof.Machine

open Sys2Proof Sys2Proof.Machine

/-- Settles O41: an update starts where its step may, and a factored group enters its second pass once the first is done. -/
theorem updatesStartInTheirTurn : Obligations.UpdatesStartInTheirTurn := by
  refine ⟨fun s b hruns hexp hmay hbusy hother => ?_, fun s b n g r hruns hheld hstate hrun hg hrule hspec hnone => ?_⟩
  · intro started
    have hgo (spec : Bool) (clip : F32) (exp : BitVec 8) (heq : s.updateStart b = s.startRun b spec clip exp) :
        ∃ t, exec .updateStart s = .next t ∧ started t spec clip exp := by
      have h := s.starts_startRun b spec clip exp
      refine ⟨_, exec_updateStart hruns hexp hother ?_, ?_⟩
      · rw [heq, State.mayUpdate_starts h, hother]
      · rw [heq]
        exact ⟨h.state, h.runs, h.run, h.other, h.epoch, h.journal, h.latches, h.memory, h.low⟩
    have heq := State.updateStart_eq hmay hbusy
    refine ⟨fun v hv => hgo false v.clip v.exp ?_, fun hv hres hsafe => hgo true f32One _ ?_, fun hv hnot => ?_⟩
    · rw [heq, hv]
    · rw [heq, hv]
      exact if_pos ⟨hres, hsafe⟩
    · have hstay : s.updateStart b = s := by
        rw [heq, hv]
        refine if_neg fun h => ?_
        obtain h' | h' := hnot
        · exact h' h.1
        · exact Bool.false_ne_true (h'.symm.trans h.2)
      have hx := exec_updateStart (b := b) hruns hexp hother (by rw [hstay, hother])
      rw [hstay] at hx
      exact hx
  · intro plan
    have hmatch : s.pass2Start b n = if n ∉ r.pass2 ∧ s.runPassed r (s.firstShare r) = true ∧ s.tasked (.pass2 b n) = false then
        (if (s.ksAccess plan 0 (.pass2 b n)).2 then (s.ksAccess plan 0 (.pass2 b n)).1 else (s.ksAccess plan 0 (.pass2 b n)).1.pass2Begin b n) else s := by
      unfold State.pass2Start
      dsimp only
      rw [hrun, hg]
      dsimp only
      refine if_congr ?_ rfl rfl
      simp [hheld, hstate, hrule, hspec]
    refine ⟨fun hp hpassed htask hgo => ?_, fun hp hpassed htask hgo => ?_, fun hstay => ?_⟩
    · rw [if_pos ⟨hp, hpassed, htask⟩] at hmatch
      obtain ⟨hx, cs, bs, k, p, hf⟩ := s.ksAccess_goes (.pass2 b n) hgo
      rw [hx, if_neg Bool.false_ne_true, hf] at hmatch
      obtain ⟨v, hv⟩ : ∃ v : State, v = { s with chans := cs, banks := bs, free := k, plumb := p } := ⟨_, rfl⟩
      rw [← hv] at hmatch
      have hset : ∀ c, v.set c = s.set c := fun c => State.set_congr (by rw [hv]) (by rw [hv])
      obtain ⟨⟨gs, hb⟩, ho, hm⟩ := State.pass2Begin_spec (s := v) (b := b) (n := n) ((congrArg StepSet.run (hset b)).trans hrun)
        ((congrArg (fun m => Sparse.get none m n) (by rw [hv])).trans hg)
      rw [← hmatch] at hb ho hm
      refine ⟨_, { r with pass2 := r.pass2 ++ [n] }, exec_factoredPass2Start hruns hnone ?_, by rw [hb], List.mem_append_right _ List.mem_cons_self, rfl, rfl, ?_, fun hl => ?_⟩
      · rw [ho, hset]
        exact hnone
      · rw [hb, hset]
        exact hstate
      · refine SameMemory.trans ?_ (hm hl)
        rw [hv]
        exact sameMemory_of_stores rfl rfl rfl rfl
    · rw [if_pos ⟨hp, hpassed, htask⟩] at hmatch
      obtain ⟨hx, hw, hset, -⟩ := s.waits_ksAccess (.pass2 b n) hgo
      rw [hx, if_pos rfl] at hmatch
      refine ⟨_, exec_factoredPass2Start hruns hnone ?_, ?_, ?_⟩
      · rw [hmatch, hset]
        exact hnone
      · rw [hmatch]
        exact hw
      · rw [hmatch]
        exact hset b
    · rw [if_neg] at hmatch
      · have hx := exec_factoredPass2Start (b := b) hruns hnone (by rw [hmatch, hnone])
        rw [hmatch] at hx
        exact hx
      · rintro ⟨hp, hpassed, htask⟩
        obtain h | h | h := hstay
        · exact hp h
        · exact Bool.false_ne_true (h.symm.trans hpassed)
        · exact Bool.false_ne_true (htask.symm.trans h)
end

section

/-!
PROOF. A group whose first moment has format 3, a format that DEFINE_GROUP refuses (R228, R294) and that the statements about updates do not
exclude. Its codes lie one byte apart, and an update writes four bytes for each of them: the last one of sixteen reaches the word after the
array, which is no word of the update. Poison in the element's accumulator makes the write visible there.
-/

namespace Sys2Proof.Machine

/-- A MOMENTUM group of 16 elements for the Keystone engine, LEAN or SAFE, with moment format 3. -/
def wideMoment (lean : Bool) : Group :=
  { rule := 2, flags := if lean then 0x11 else 0x10, mFmt := 3, vFmt := 0, wFmt := 0, rnd := 0, k := 1, stReg := 1, cfReg := 2, eLsb := 0, n := 16, rows := 0,
    cols := 0, beta1 := 0, beta2 := 0, eps := 0, lambda := 0, clipD := 0, start := 0, base := 0, slab := 16, slabs := 1, coffer := 100 * slabSize,
    knots := 1, low := 0, wRnd := 0, colA := [], colB := [], qA := (0, false), qB := (0, false), done := [], pass1 := false, rStage := [], cStage := [],
    meanR := (0, false), marked := false, undef := false, cofUndef := false, wSeed := 0 }

/-- A run of such a group: a LEAN one after the verdict, a SAFE one before it. -/
def wideRun (lean : Bool) : Run := { spec := !lean, clip := 0, exp := 0, safeDone := false, pass2 := [] }

/-- Crety serves, and set A runs the group; the accumulator of its last element is poisoned. -/
def wideRunning (lean : Bool) : State :=
  let s : State := { State.reset with
    start := { State.reset.start with mode := .serving },
    groups := [(0, some (wideMoment lean))],
    ctl := { State.reset.ctl with
      setA := { StepSet.init with kept := true, held := true, state := .updating, run := some (wideRun lean) },
      journal := [{ group := 0, unit := 0, step := 0, bytes := 0, at_ := 0 }] } }
  s.placeWrite (s.locPlace ((wideMoment lean).arrLoc false .acc 0 15) false) 0 true

/-- What the update of the group works with. -/
def wideCtx (lean : Bool) : UCtx := (wideRunning lean).uctx false 0 (wideMoment lean) 0 0

/-- The bytes that the statement lets its unit 0 write. -/
def wideUnitLocs : List Loc := (wideRunning true).updLocs (wideCtx true) ((wideCtx true).unitArrays 0) ((wideMoment true).unitElems 0)

/-- The bytes that the statement lets a SAFE update write. -/
def wideSafeLocs : List Loc :=
  (wideRunning false).updLocs (wideCtx false) ((wideCtx false).updArrays ((wideCtx false).shares.flatMap (·.2))) ((wideCtx false).shares.flatMap (·.2))

/-- The word after the last moment in the slot that is written. -/
def wordAfterMoments (lean : Bool) : Nat :=
  let l := (wideMoment lean).arrLoc false .m (if lean then 0 else 1) 15
  ((wideRunning lean).locPlace { l with byte := l.byte + 1 } false).word

theorem wideRunning_lean : (wideRunning true).groupRuns 0 = true ∧ (wideRunning true).leanRun = some (false, wideRun true) ∧
    (wideRunning true).group 0 = some (wideMoment true) ∧ (wideRunning true).inJournal 0 0 = true := by decide +kernel

theorem wordAfterMoments_unlisted : (.stack, wordAfterMoments true) ∉ (wideRunning true).wordsOf wideUnitLocs := by decide +kernel

theorem unitDone_writes_past_moments : ((wideRunning true).runTask (.unitDone 0 0)).word .stack (wordAfterMoments true) ≠
    (wideRunning true).word .stack (wordAfterMoments true) := by decide +kernel

theorem wideRunning_safe : (wideRunning false).wardenRuns = true ∧ ((wideRunning false).set false).held = true ∧
    ((wideRunning false).set false).state = .updating ∧ ((wideRunning false).set false).run = some (wideRun false) ∧
    (wideRunning false).recordBusy = false ∧ ((wideRunning false).set true).run = none ∧
    (∀ e ∈ (wideRunning false).groupList, (wideRunning false).groupRuns e.1 = true) ∧ (wideRunning false).tasked (.updateOut false) = false ∧
    (wideRunning false).memWf = true := by decide +kernel

theorem wideRunning_ready : (wideRunning false).runReady false (wideRun false) = true ∧
    (wideRunning false).goes ((wideRunning false).runTakes false (wideRun false)) 0 = true := by decide +kernel

theorem wideRunning_safeGroups : (wideRunning false).groupList.filter (fun e => !e.2.lean) = [(0, wideMoment false)] := by decide +kernel

theorem wordAfterMoments_unlisted_safe : (.stack, wordAfterMoments false) ∉ (wideRunning false).wordsOf wideSafeLocs := by decide +kernel

theorem updateDone_writes_past_moments : (((wideRunning false).updateDone false).updateDone true).word .stack (wordAfterMoments false) ≠
    (wideRunning false).word .stack (wordAfterMoments false) := by decide +kernel

theorem exec_updateDone_wideRunning : exec .updateDone (wideRunning false) = .next (((wideRunning false).updateDone false).updateDone true) := by
  refine congrArg Host.Outcome.next (if_pos ?_)
  decide +kernel

end Sys2Proof.Machine

open Sys2Proof Sys2Proof.Machine

/-- Refutes O42: with moments of format 3, the end of a LEAN unit poisons the word after its moments, which is none of the unit's words. -/
theorem not_leanUnitsAreJournaled : ¬ Obligations.LeanUnitsAreJournaled := by
  intro h
  obtain ⟨hruns, hrun, hg, hj⟩ := wideRunning_lean
  obtain ⟨-, -, -, -, -, -, -, hdone, -⟩ := h (wideRunning true) 0 0 false (wideRun true) (wideMoment true) hruns hrun hg
  obtain ⟨-, -, -, -, hmem, -⟩ := hdone rfl hj
  exact unitDone_writes_past_moments (hmem .stack (wordAfterMoments true) (by decide) wordAfterMoments_unlisted)

/-- Refutes O43: with moments of format 3, the end of a SAFE run poisons the word after its moments, which is none of the update's words. -/
theorem not_finishedUpdatesCommitAndMoveTheEpoch : ¬ Obligations.FinishedUpdatesCommitAndMoveTheEpoch := by
  intro h
  obtain ⟨hruns, hheld, hstate, hrun, hbusy, hnone, hgroups, htask, hwf⟩ := wideRunning_safe
  obtain ⟨hready, hgo⟩ := wideRunning_ready
  obtain ⟨hspec, -, -⟩ := h.1 (wideRunning false) false (wideRun false) hruns hheld hstate hrun hready hbusy hnone hgroups htask hwf
  obtain ⟨t, hx, -, -, -, hmem, -⟩ := hspec rfl hgo
  rw [exec_updateDone_wideRunning] at hx
  injection hx with ht
  rw [← ht] at hmem
  refine updateDone_writes_past_moments (hmem .stack (wordAfterMoments false) (by decide) fun hin => ?_)
  obtain ⟨e, he, hw⟩ := List.mem_flatMap.1 hin
  have hsafe : e ∈ [(0, wideMoment false)] := wideRunning_safeGroups ▸ he
  rw [List.mem_singleton.1 hsafe] at hw
  exact wordAfterMoments_unlisted_safe hw
end


section

/-!
SUPPORT. What the writes of records, the saving and the loading of ring contexts, a recovery and the end of the steps leave alone: time, the
ports, what is held and outbound, the background, the debug port and the settings (R107, R344 to R353, R398, R451).  The lemmas speak of any
relation that holds wherever those stay, so that each operation is looked at once; they are tagged `mono`.
-/

namespace Sys2Proof.Machine

set_option Elab.async false

/-! ### What stays -/

/-- No course begins in a bank, nothing more waits for it, it is not held anew, and its spares stay. -/
structure Bank.Rests (b c : Bank) : Prop where
  course : c.course = none ∨ c.course = b.course
  queue : c.queue ⊆ b.queue
  hold : c.hold = true → b.hold = true
  fused : c.fused = b.fused
  soft : c.soft = b.soft

/-- A channel keeps its self-refresh, its training and its fuse hold. -/
def Channel.Rests (c d : Channel) : Prop := d.sref = c.sref ∧ d.trained = c.trained ∧ d.fprogHold = c.fprogHold

theorem Bank.Rests.trans {b c d : Bank} (h : b.Rests c) (h' : c.Rests d) : b.Rests d := by
  obtain ⟨h1, h2, h3, h4, h5⟩ := h
  obtain ⟨h1', h2', h3', h4', h5'⟩ := h'
  exact ⟨h1'.elim .inl fun he => he ▸ h1, List.Subset.trans h2' h2, fun hd => h3 (h3' hd), h4'.trans h4, h5'.trans h5⟩

theorem Channel.Rests.trans {b c d : Channel} (h : b.Rests c) (h' : c.Rests d) : b.Rests d :=
  ⟨h'.1.trans h.1, h'.2.1.trans h.2.1, h'.2.2.trans h.2.2⟩

theorem Bank.Rests.refl (b : Bank) : b.Rests b := ⟨.inr rfl, fun _ => id, id, rfl, rfl⟩

theorem Channel.Rests.refl (c : Channel) : c.Rests c := ⟨rfl, rfl, rfl⟩

/-- Time, ports, holds, background, debug port, settings and the gates of banks and channels stay. -/
structure State.Rests (s t : State) : Prop where
  clk : t.clk = s.clk
  start : t.start = { s.start with cfgLost0 := t.start.cfgLost0, cfgLost1 := t.start.cfgLost1 }
  plumb : t.plumb = { s.plumb with ksUsed := t.plumb.ksUsed, ksParams := t.plumb.ksParams, fbBeats := t.plumb.fbBeats }
  dbg : t.dbg = s.dbg
  behind : ∀ p, (t.port p).behind = (s.port p).behind
  fab : t.fab = { s.fab with fo := t.fab.fo, ready := t.fab.ready }
  dies : t.dies = s.dies
  slates : t.slates = s.slates
  acq : s.acq = [] → t.acq = []
  bg : t.mbox.bg = s.mbox.bg
  regs : t.regs.stopped = s.regs.stopped ∧ t.regs.scrubInt = s.regs.scrubInt ∧ t.regs.noUnlock = s.regs.noUnlock ∧ t.regs.lock = s.regs.lock
  bank : ∀ k, (s.bank k).Rests (t.bank k)
  chan : ∀ c, (s.chan c).Rests (t.chan c)
  page : t.idPage = s.idPage ∧ t.idSyn = s.idSyn

theorem State.Rests.refl (s : State) : s.Rests s :=
  ⟨rfl, rfl, rfl, rfl, fun _ => rfl, rfl, rfl, rfl, id, rfl, ⟨rfl, rfl, rfl, rfl⟩, fun _ => .refl _, fun _ => .refl _, ⟨rfl, rfl⟩⟩

theorem State.Rests.trans {s t u : State} (h : s.Rests t) (h' : t.Rests u) : s.Rests u where
  clk := h'.clk.trans h.clk
  start := by rw [h'.start, h.start]
  plumb := by rw [h'.plumb, h.plumb]
  dbg := h'.dbg.trans h.dbg
  behind p := (h'.behind p).trans (h.behind p)
  fab := by rw [h'.fab, h.fab]
  dies := h'.dies.trans h.dies
  slates := h'.slates.trans h.slates
  acq ha := h'.acq (h.acq ha)
  bg := h'.bg.trans h.bg
  regs := by
    obtain ⟨h1, h2, h3, h4⟩ := h.regs
    obtain ⟨h1', h2', h3', h4'⟩ := h'.regs
    exact ⟨h1'.trans h1, h2'.trans h2, h3'.trans h3, h4'.trans h4⟩
  bank k := (h.bank k).trans (h'.bank k)
  chan c := (h.chan c).trans (h'.chan c)
  page := ⟨h'.page.1.trans h.page.1, h'.page.2.trans h.page.2⟩

/-- A relation between states that holds wherever all of that stays. -/
structure Frame where
  rel : State → State → Prop
  trans : ∀ {s t u}, rel s t → rel t u → rel s u
  rests : ∀ {s t}, State.Rests s t → rel s t

/-- The least such relation. -/
def Frame.least : Frame := ⟨State.Rests, State.Rests.trans, id⟩

/-- An access that the pulls, the Keystone engine or a unit makes. -/
def BankAccess.engine : BankAccess → Bool
  | .line _ _ _ _ => true
  | .keystone _ _ _ _ _ => true
  | .take _ _ _ => true
  | _ => false

/-- A relation that holds as well where such accesses come to wait for banks. -/
structure EngineFrame extends Frame where
  enqueue : ∀ {s : State} {k : Nat} {a : BankAccess}, a.engine = true → rel s (s.setBank k { s.bank k with queue := (s.bank k).queue ++ [a] })

variable {F : Frame} {E : EngineFrame}

@[mono] theorem Frame.refl (s : State) : F.rel s s := F.rests (.refl s)

theorem Frame.step {s₀ s t : State} (h : F.rel s₀ s) (h' : s.Rests t) : F.rel s₀ t := F.trans h (F.rests h')

@[mono] theorem Frame.ite {s t u : State} {c : Prop} [Decidable c] (h : F.rel s t) (h' : F.rel s u) : F.rel s (if c then t else u) := by
  split <;> assumption

@[mono] theorem Frame.foldl {α : Type} {s t : State} {f : State → α → State} {l : List α} (h : F.rel s t)
    (hf : ∀ a u, F.rel s u → F.rel s (f u a)) : F.rel s (l.foldl f t) := by
  induction l generalizing t with
  | nil => exact h
  | cons a l ih => exact ih (hf a t h)

/-! ### Updates of fields -/

section
variable {s₀ s : State} {pending : List Instr} {regs : Regs} {plumb : Plumb} {start : Start} {fab : Fabric} {ct : ControlPort}
  {latches : Sparse (BitVec 64)} {frameBase : Option Nat} {rings : Sparse Ring} {regions : Sparse (Option Region)}
  {groups : Sparse (Option Group)} {ctl : StepCtl} {mbox : Mailbox} {stack : Store} {bg : Nat} {mortar hasps : Store}
  {nodeId : BitVec 14} {jtagMfr : BitVec 11} {ipRev : BitVec 8} {seq : Nat} {crossing : Sparse Nat}
  {waits : List CclkWait} {dbWords : List Nat} {free : Nat}

/-- A change of fields that are not asked to stay. -/
theorem Frame.lit (h : F.rel s₀ s) (hstop : regs.stopped = s.regs.stopped := by rfl) (hscrub : regs.scrubInt = s.regs.scrubInt := by rfl)
    (hno : regs.noUnlock = s.regs.noUnlock := by rfl) (hlock : regs.lock = s.regs.lock := by rfl)
    (hstart : start = { s.start with cfgLost0 := start.cfgLost0, cfgLost1 := start.cfgLost1 } := by rfl)
    (hplumb : plumb = { s.plumb with ksUsed := plumb.ksUsed, ksParams := plumb.ksParams, fbBeats := plumb.fbBeats } := by rfl)
    (hfab : fab = { s.fab with fo := fab.fo, ready := fab.ready } := by rfl) (hbg : mbox.bg = s.mbox.bg := by rfl) :
    F.rel s₀ (State.mk pending s.clk regs plumb start s.dbg s.ports fab ct latches s.acq s.chans frameBase s.dies s.banks rings s.slates
      regions groups ctl mbox stack bg mortar hasps s.idPage s.idSyn nodeId jtagMfr ipRev seq crossing waits dbWords free) :=
  Frame.step h ⟨rfl, hstart, hplumb, rfl, fun _ => rfl, hfab, rfl, rfl, id, hbg, ⟨hstop, hscrub, hno, hlock⟩, fun _ => .refl _, fun _ => .refl _, ⟨rfl, rfl⟩⟩

end

section
variable {s₀ s : State} (hk : F.rel s₀ s)
include hk

@[mono] theorem State.setBank_rests {k : Nat} {b : Bank} (hb : (s.bank k).Rests b) : F.rel s₀ (s.setBank k b) := by
  refine Frame.step hk { State.Rests.refl s with bank := fun i => ?_ }
  rw [State.bank_setBank]
  split
  · next hi => exact hi ▸ hb
  · exact .refl _

@[mono] theorem State.setChan_rests {c : Nat} {x : Channel} (hx : (s.chan c).Rests x) : F.rel s₀ (s.setChan c x) := by
  refine Frame.step hk { State.Rests.refl s with chan := fun i => ?_ }
  rw [State.chan_setChan]
  split
  · next hi => exact hi ▸ hx
  · exact .refl _

@[mono] theorem State.setPort_rests {n : Nat} {x : PintlePort} (hx : x.behind = (s.port n).behind) : F.rel s₀ (s.setPort n x) := by
  refine Frame.step hk { State.Rests.refl s with behind := fun i => ?_ }
  rw [State.port_setPort]
  split
  · next hi => exact hx.trans (hi ▸ rfl)
  · rfl

@[mono] theorem State.setRing_rests {k : Nat} {r : Ring} : F.rel s₀ (s.setRing k r) := Frame.lit hk
@[mono] theorem State.setGroup_rests {n : Nat} {g : Option Group} : F.rel s₀ (s.setGroup n g) := Frame.lit hk
@[mono] theorem State.setLatch_rests {n : Nat} {x : BitVec 64} : F.rel s₀ (s.setLatch n x) := Frame.lit hk
@[mono] theorem State.setHasp_rests {n : Nat} {x : Hasp} : F.rel s₀ (s.setHasp n x) := Frame.lit hk
@[mono] theorem State.setSet_rests {b : Bool} {x : StepSet} : F.rel s₀ (s.setSet b x) := by
  cases b
  · exact Frame.lit hk
  · exact Frame.lit hk
@[mono] theorem State.bump_rests : F.rel s₀ s.bump := Frame.lit hk
@[mono] theorem State.countFab_rests {n} : F.rel s₀ (s.countFab n) := Frame.lit hk

end

@[mono] theorem Bank.rests_bank (b : Bank) : b.Rests b := .refl b

@[mono] theorem Bank.rests_mk (b : Bank) {owed acc refs barred ctx ctxSeen waited patrol patrolDue busyTo cstat rowLat rowCtr passed
    scalars saved bad} : b.Rests (Bank.mk owed acc refs b.course barred ctx ctxSeen b.queue waited patrol patrolDue busyTo cstat rowLat rowCtr
      passed scalars saved b.soft b.fused bad b.hold) := ⟨.inr rfl, fun _ => id, id, rfl, rfl⟩

@[mono] theorem Channel.rests_mk (c : Channel) {counts allow ceCnt ueCnt poisonCnt caparCnt refFull margin err hist begun ifSpares tsvUsed} :
    c.Rests (Channel.mk counts allow c.sref c.trained c.fprogHold ceCnt ueCnt poisonCnt caparCnt refFull margin err hist begun ifSpares
      tsvUsed) := ⟨rfl, rfl, rfl⟩

/-! ### Every operation -/

@[mono] theorem State.stkSet_rests {s₀ s : State} {w : Nat} {d : BondData} {syn : BitVec 16} (hk : F.rel s₀ s) :
    F.rel s₀ (s.stkSet w d syn) := by
  rw [State.stkSet_frame]
  exact Frame.lit hk

@[mono] theorem State.placeSet_rests {s₀ s : State} {p : Place} {d : BondData} {syn : BitVec 16} (hk : F.rel s₀ s) :
    F.rel s₀ (s.placeSet p d syn) := by
  rw [State.placeSet_frame]
  exact Frame.lit hk

@[mono] theorem State.irq_rests {s₀ s : State} {i} (hk : F.rel s₀ s) : F.rel s₀ (s.irq i) := Frame.lit hk

@[mono] theorem State.pushLog_rests {s₀ s : State} {src outcome syn agent where_} (hk : F.rel s₀ s) :
    F.rel s₀ (s.pushLog src outcome syn agent where_) := by
  unfold State.pushLog
  split
  · exact Frame.lit hk
  · split
    · exact hk
    · exact State.irq_rests (Frame.lit hk)

@[mono] theorem State.overrun_rests {s₀ s : State} {d} (hk : F.rel s₀ s) : F.rel s₀ (s.overrun d) := by
  unfold State.overrun
  mono <;> exact Frame.lit hk

@[mono] theorem State.cross_rests {s₀ s : State} {c} {event : State → State} (hk : F.rel s₀ s)
    (he : ∀ u, F.rel s₀ u → F.rel s₀ (event u)) : F.rel s₀ (s.cross c event) := by
  unfold State.cross
  split
  · exact he s hk
  · dsimp only
    split
    · exact he _ (Frame.lit hk)
    · exact State.overrun_rests hk

@[mono] theorem State.crossIrq_rests {s₀ s : State} {c i} (hk : F.rel s₀ s) : F.rel s₀ (s.crossIrq c i) :=
  State.irq_rests (State.cross_rests hk fun _ => id)

@[mono] theorem State.countCe_rests {s₀ s : State} (hk : F.rel s₀ s) : F.rel s₀ s.countCe := by
  unfold State.countCe
  mono <;> exact Frame.lit hk

@[mono] theorem State.siteIrq_rests {s₀ s : State} {site i} (hk : F.rel s₀ s) : F.rel s₀ (s.siteIrq site i) := by
  unfold State.siteIrq
  split <;> mono

@[mono] theorem State.siteCe_rests {s₀ s : State} {a} (hk : F.rel s₀ s) : F.rel s₀ (s.siteCe a) := by
  unfold State.siteCe
  split
  · exact State.cross_rests hk fun _ hu => State.countCe_rests (State.setChan_rests hu (Channel.rests_mk _))
  · exact State.setBank_rests hk (Bank.rests_mk _)
  · exact State.countCe_rests (Frame.lit hk)
  · exact State.cross_rests hk fun _ hu => State.countCe_rests (Frame.lit hu)
  · exact State.cross_rests hk fun _ hu => State.countCe_rests (Frame.lit hu)

@[mono] theorem State.siteUe_rests {s₀ s : State} {a} (hk : F.rel s₀ s) : F.rel s₀ (s.siteUe a) := by
  unfold State.siteUe
  split
  · exact State.cross_rests hk fun _ hu => State.setChan_rests hu (Channel.rests_mk _)
  · exact State.setBank_rests hk (Bank.rests_mk _)
  · exact Frame.lit hk
  · exact State.cross_rests hk fun _ hu => Frame.lit hu
  · exact State.cross_rests hk fun _ hu => Frame.lit hu

@[mono] theorem State.sitePoison_rests {s₀ s : State} {a} (hk : F.rel s₀ s) : F.rel s₀ (s.sitePoison a) := by
  unfold State.sitePoison
  split <;> mono <;> intros <;> mono

@[mono] theorem State.account_rests {s₀ s : State} {site w where_ o syn} (hk : F.rel s₀ s) :
    F.rel s₀ (s.account site w where_ o syn) := by
  unfold State.account
  split <;> mono

@[mono] theorem State.statePoison_rests {s₀ s : State} {site w where_} (hk : F.rel s₀ s) : F.rel s₀ (s.statePoison site w where_) := by
  unfold State.statePoison
  mono
  split
  · exact State.cross_rests hk fun _ hu => Frame.lit hu
  · exact Frame.lit hk

@[mono] theorem State.placeWrite_rests {s₀ s : State} {p d poisoned} (hk : F.rel s₀ s) : F.rel s₀ (s.placeWrite p d poisoned) := by
  unfold State.placeWrite
  mono

@[mono] theorem State.readPlace_rests {s₀ s : State} {w p} (hk : F.rel s₀ s) : F.rel s₀ (s.readPlace w p).2 := by
  unfold State.readPlace
  mono

@[mono] theorem State.readPlaces_rests {s₀ s : State} {w ps} (hk : F.rel s₀ s) : F.rel s₀ (s.readPlaces w ps).2 := by
  induction ps generalizing s with
  | nil => exact hk
  | cons p r ih =>
    unfold State.readPlaces
    mono

@[mono] theorem State.mergePlace_rests {s₀ s : State} {w p d poisoned ben} (hk : F.rel s₀ s) :
    F.rel s₀ (s.mergePlace w p d poisoned ben) := by
  unfold State.mergePlace
  dsimp only
  (repeat' split) <;> mono

@[mono] theorem State.writePlaces_rests {s₀ s : State} {l} (hk : F.rel s₀ s) : F.rel s₀ (s.writePlaces l) := by
  induction l generalizing s with
  | nil => exact hk
  | cons e r ih =>
    unfold State.writePlaces
    mono

@[mono] theorem State.sent_rests {s₀ s : State} {c op bank arg} (hk : F.rel s₀ s) : F.rel s₀ (s.sent c op bank arg) := State.setChan_rests hk (Channel.rests_mk _)
@[mono] theorem State.sendColumn_rests {s₀ s : State} {k c} (hk : F.rel s₀ s) : F.rel s₀ (s.sendColumn k c) := State.setChan_rests hk (Channel.rests_mk _)
@[mono] theorem State.sendPre_rests {s₀ s : State} {k} (hk : F.rel s₀ s) : F.rel s₀ (s.sendPre k) := State.setChan_rests hk (Channel.rests_mk _)

@[mono] theorem State.sendPhys_rests {s₀ s : State} {k phys cs} (hk : F.rel s₀ s) : F.rel s₀ (s.sendPhys k phys cs) := by
  unfold State.sendPhys
  mono <;> intros <;> mono

@[mono] theorem State.sendRow_rests {s₀ s : State} {k row cs} (hk : F.rel s₀ s) : F.rel s₀ (s.sendRow k row cs) := by
  unfold State.sendRow
  mono

@[mono] theorem State.occupy_rests {s₀ s : State} {k n} (hk : F.rel s₀ s) : F.rel s₀ (s.occupy k n) := by
  unfold State.occupy
  mono

@[mono] theorem State.occupyEven_rests {s₀ s : State} {k n} (hk : F.rel s₀ s) : F.rel s₀ (s.occupyEven k n) := by
  unfold State.occupyEven
  mono

@[mono] theorem State.rowAccess_rests {s₀ s : State} {k row cs} (hk : F.rel s₀ s) : F.rel s₀ (s.rowAccess k row cs) := by
  unfold State.rowAccess
  mono

@[mono] theorem State.corbel_rests {s₀ s : State} {k op arg n} (hk : F.rel s₀ s) : F.rel s₀ (s.corbel k op arg n) := by
  unfold State.corbel
  mono

@[mono] theorem State.sendSave_rests {s₀ s : State} {k ctx} (hk : F.rel s₀ s) : F.rel s₀ (s.sendSave k ctx) := by
  unfold State.sendSave
  mono

@[mono] theorem State.sendLoad_rests {s₀ s : State} {k ctx} (hk : F.rel s₀ s) : F.rel s₀ (s.sendLoad k ctx) := by
  unfold State.sendLoad
  mono

@[mono] theorem State.sendAbort_rests {s₀ s : State} {k ctx} (hk : F.rel s₀ s) : F.rel s₀ (s.sendAbort k ctx) := by
  unfold State.sendAbort
  mono

@[mono] theorem State.fillLatch_rests {s₀ s : State} {k one use data} (hk : F.rel s₀ s) : F.rel s₀ (s.fillLatch k one use data) := by
  unfold State.fillLatch
  dsimp only
  exact Frame.lit (by mono)

@[mono] theorem State.latchOut_rests {s₀ s : State} {k data} (hk : F.rel s₀ s) : F.rel s₀ (s.latchOut k data) := by
  unfold State.latchOut
  mono <;> intros <;> mono <;> intros <;> mono

@[mono] theorem State.addChan_rests {s₀ s : State} {c ce ue po} (hk : F.rel s₀ s) : F.rel s₀ (s.addChan c ce ue po) := by
  unfold State.addChan
  mono <;> intros <;> mono

@[mono] theorem State.cstat_rests {s₀ s : State} {k} (hk : F.rel s₀ s) : F.rel s₀ (s.cstat k) := by
  unfold State.cstat
  mono
  intro u hu
  mono

@[mono] theorem State.unitReport_rests {s₀ s : State} {k} (hk : F.rel s₀ s) : F.rel s₀ (s.unitReport k) := by
  unfold State.unitReport
  mono

@[mono] theorem State.refpb_rests {s₀ s : State} {k} (hk : F.rel s₀ s) : F.rel s₀ (s.refpb k) := by
  unfold State.refpb
  mono
  exact Bank.rests_mk _

@[mono] theorem State.fullRefresh_rests {s₀ s : State} {k} (hk : F.rel s₀ s) : F.rel s₀ (s.fullRefresh k) := by
  unfold State.fullRefresh
  mono

@[mono] theorem State.newWork_rests {s₀ s : State} {ctx1} (hk : F.rel s₀ s) : F.rel s₀ (s.newWork ctx1) := by
  unfold State.newWork
  mono <;> intros <;> mono

@[mono] theorem State.moveRows_rests {s₀ s : State} {write rows} (hk : F.rel s₀ s) : F.rel s₀ (s.moveRows write rows) := by
  unfold State.moveRows
  mono <;> intros <;> mono

@[mono] theorem State.moveWords_rests {s₀ s : State} {write ws} (hk : F.rel s₀ s) : F.rel s₀ (s.moveWords write ws) := by
  unfold State.moveWords
  mono

@[mono] theorem State.freeFrames_rests {s₀ s : State} (hk : F.rel s₀ s) : F.rel s₀ s.freeFrames := Frame.lit (by mono <;> intros <;> mono)
@[mono] theorem State.forgetDb_rests {s₀ s : State} (hk : F.rel s₀ s) : F.rel s₀ s.forgetDb := Frame.lit hk

@[mono] theorem State.wroteRecord_rests {s₀ s : State} (hk : F.rel s₀ s) : F.rel s₀ s.wroteRecord := by
  unfold State.wroteRecord
  mono

@[mono] theorem State.moveAccess_rests {s₀ s : State} {acc} (hk : F.rel s₀ s) : F.rel s₀ (s.moveAccess acc) := by
  unfold State.moveAccess
  mono <;> intros <;> mono

@[mono] theorem State.doReach_rests {s₀ s : State} {a} (hk : F.rel s₀ s) : F.rel s₀ (s.doReach a) := by
  unfold State.doReach
  split <;> mono

@[mono] theorem State.queueReach_rests {s₀ s : State} {id r} (hk : E.rel s₀ s) : E.rel s₀ (s.queueReach id r) := by
  unfold State.queueReach
  refine State.bump_rests (E.trans hk (E.enqueue ?_))
  cases r <;> rfl

@[mono] theorem State.issue_rests {s₀ s : State} {id plan} (hk : E.rel s₀ s) : E.rel s₀ (s.issue id plan) := by
  unfold State.issue
  mono <;> intros <;> mono

@[mono] theorem State.ksSpend_rests {s₀ s : State} {n} (hk : F.rel s₀ s) : F.rel s₀ (s.ksSpend n) := Frame.lit hk
@[mono] theorem State.countParams_rests {s₀ s : State} {n} (hk : F.rel s₀ s) : F.rel s₀ (s.countParams n) := Frame.lit hk

@[mono] theorem State.ksMove_rests {s₀ s : State} {plan cost params task} (hk : E.rel s₀ s) :
    E.rel s₀ (s.ksMove plan cost params task).1 := by
  unfold State.ksMove
  split
  · mono
    intros
    mono
  · exact Frame.lit (State.issue_rests (State.bump_rests (State.countParams_rests (State.ksSpend_rests hk))))

@[mono] theorem State.owe_rests {s₀ s : State} {n} (hk : F.rel s₀ s) : F.rel s₀ (s.owe n) := Frame.lit hk

@[mono] theorem State.addTask_rests {s₀ s : State} {task} (hk : F.rel s₀ s) : F.rel s₀ (s.addTask task) := by
  unfold State.addTask
  mono <;> exact Frame.lit hk

@[mono] theorem State.dropRecordEnd_rests {s₀ s : State} (hk : F.rel s₀ s) : F.rel s₀ s.dropRecordEnd := Frame.lit hk

@[mono] theorem State.dropTasks_rests {s₀ s : State} {pick} (hk : F.rel s₀ s) : F.rel s₀ (s.dropTasks pick) := by
  unfold State.dropTasks
  exact Frame.lit (Frame.foldl hk fun k u hu => State.setBank_rests hu ⟨.inr rfl, fun _ ha => (List.mem_filter.1 ha).1, id, rfl, rfl⟩)

@[mono] theorem State.dropItems_rests {s₀ s : State} (hk : F.rel s₀ s) : F.rel s₀ s.dropItems := by
  unfold State.dropItems
  mono

@[mono] theorem State.foPush_rests {s₀ s : State} {o} (hk : F.rel s₀ s) : F.rel s₀ (s.foPush o) := by
  unfold State.foPush
  split
  · exact Frame.lit (State.countFab_rests hk)
  · exact Frame.lit hk

@[mono] theorem State.errResp_rests {s₀ s : State} {src tag stat} (hk : F.rel s₀ s) : F.rel s₀ (s.errResp src tag stat) := by
  unfold State.errResp
  mono

@[mono] theorem State.wake_rests {s₀ s : State} {i} (hk : F.rel s₀ s) : F.rel s₀ (s.wake i) := by
  refine Frame.step hk { State.Rests.refl s with acq := fun ha => ?_, regs := ⟨rfl, rfl, rfl, rfl⟩ }
  simp only [State.wake, ha, List.map_nil]

@[mono] theorem State.release_rests {s₀ s : State} {i value scope agent} (hk : F.rel s₀ s) : F.rel s₀ (s.release i value scope agent) := by
  unfold State.release
  mono

@[mono] theorem State.haspPut_rests {s₀ s : State} {h o bs} (hk : F.rel s₀ s) : F.rel s₀ (s.haspPut h o bs) := by
  unfold State.haspPut
  mono <;> intros <;> mono

@[mono] theorem State.answerHasp_rests {s₀ s : State} {h code d payload} (hk : F.rel s₀ s) : F.rel s₀ (s.answerHasp h code d payload) := by
  unfold State.answerHasp
  dsimp only
  mono <;> refine Frame.lit ?_ <;> mono

@[mono] theorem State.sweepUpTo_rests {s₀ s : State} {n} (hk : F.rel s₀ s) : F.rel s₀ (s.sweepUpTo n) := by
  induction n generalizing s with
  | zero => exact hk
  | succ n ih =>
    unfold State.sweepUpTo
    split <;> mono

@[mono] theorem State.sweepBad_rests {s₀ s : State} (hk : F.rel s₀ s) : F.rel s₀ s.sweepBad := by
  unfold State.sweepBad
  mono

@[mono] theorem State.complete_rests {s₀ s : State} {h code d payload} (hk : F.rel s₀ s) : F.rel s₀ (s.complete h code d payload) := by
  unfold State.complete
  mono

@[mono] theorem State.finish_rests {s₀ s : State} {h st detail payload} (hk : F.rel s₀ s) : F.rel s₀ (s.finish h st detail payload) := by
  unfold State.finish
  mono <;> exact Frame.lit hk

@[mono] theorem State.applyCompat_rests {s₀ s : State} {h} (hk : F.rel s₀ s) : F.rel s₀ (s.applyCompat h) := Frame.lit hk

@[mono] theorem State.applySeed_rests {s₀ s : State} (hk : F.rel s₀ s) : F.rel s₀ s.applySeed := by
  unfold State.applySeed
  split
  · exact Frame.lit hk
  · exact hk

@[mono] theorem State.endAfter_rests {s₀ s : State} (hk : F.rel s₀ s) : F.rel s₀ s.endAfter := by
  unfold State.endAfter
  dsimp only
  (repeat' split) <;> mono <;> refine Frame.lit ?_ <;> mono

@[mono] theorem State.flush_rests {s₀ s : State} {who role own known l} (hk : F.rel s₀ s) : F.rel s₀ (s.flush who role own known l).1 := by
  induction l generalizing s with
  | nil => exact hk
  | cons e r ih =>
    unfold State.flush
    mono

@[mono] theorem State.accountWords_rests {s₀ s : State} {who ps} (hk : F.rel s₀ s) : F.rel s₀ (s.accountWords who ps) := by
  unfold State.accountWords
  mono <;> intros <;> mono

@[mono] theorem State.ringFault_rests {s₀ s : State} {k err seq} (hk : F.rel s₀ s) : F.rel s₀ (s.ringFault k err seq) := by
  unfold State.ringFault
  mono

@[mono] theorem State.putImage_rests {s₀ s : State} {place f} (hk : F.rel s₀ s) : F.rel s₀ (s.putImage place f) := by
  unfold State.putImage
  mono <;> intros <;> mono

@[mono] theorem State.putImages_rests {s₀ s : State} {k place} (hk : F.rel s₀ s) : F.rel s₀ (s.putImages k place) := by
  unfold State.putImages
  mono

@[mono] theorem State.descAccount_rests {s₀ s : State} {k q} (hk : F.rel s₀ s) : F.rel s₀ (s.descAccount k q) := by
  unfold State.descAccount
  mono <;> intros <;> mono

@[mono] theorem State.accountImages_rests {s₀ s : State} {k place} (hk : F.rel s₀ s) : F.rel s₀ (s.accountImages k place) := by
  unfold State.accountImages
  mono <;> intros <;> mono

@[mono] theorem State.dropLatch_rests {s₀ s : State} {k} (hk : F.rel s₀ s) : F.rel s₀ (s.dropLatch k) := by
  unfold State.dropLatch
  mono

@[mono] theorem State.accountLoad_rests {s₀ s : State} {k place} (hk : F.rel s₀ s) : F.rel s₀ (s.accountLoad k place) := by
  unfold State.accountLoad
  dsimp only
  (repeat' split) <;> mono <;> intros <;> mono

@[mono] theorem State.loadImages_rests {s₀ s : State} {k place rest} (hk : F.rel s₀ s) : F.rel s₀ (s.loadImages k place rest) := by
  unfold State.loadImages
  dsimp only
  split
  · exact State.setRing_rests (by mono)
  · exact State.ringFault_rests (State.setRing_rests (State.accountLoad_rests hk))

@[mono] theorem State.markContexts_rests {s₀ s : State} {k} (hk : F.rel s₀ s) : F.rel s₀ (s.markContexts k) := by
  unfold State.markContexts
  mono

@[mono] theorem State.clearSaveValid_rests {s₀ s : State} {k} (hk : F.rel s₀ s) : F.rel s₀ (s.clearSaveValid k) := by
  unfold State.clearSaveValid
  mono <;> intros <;> mono

@[mono] theorem State.abortNow_rests {s₀ s : State} {k} (hk : F.rel s₀ s) : F.rel s₀ (s.abortNow k) := by
  unfold State.abortNow
  mono

@[mono] theorem State.restoreNow_rests {s₀ s : State} {k} (hk : F.rel s₀ s) : F.rel s₀ (s.restoreNow k) := by
  unfold State.restoreNow
  mono

@[mono] theorem State.ringDue_rests {s₀ s : State} {k} (hk : F.rel s₀ s) : F.rel s₀ (s.ringDue k) := by
  unfold State.ringDue
  mono

@[mono] theorem State.saveRing_rests {s₀ s : State} {k} (hk : F.rel s₀ s) : F.rel s₀ (s.saveRing k) := by
  unfold State.saveRing
  mono

@[mono] theorem State.saveAborted_rests {s₀ s : State} (hk : F.rel s₀ s) : F.rel s₀ s.saveAborted := by
  unfold State.saveAborted
  mono <;> intros <;> mono

@[mono] theorem State.blankImages_rests {s₀ s : State} {c save} (hk : F.rel s₀ s) : F.rel s₀ (s.blankImages c save) :=
  State.setChan_rests hk (Channel.rests_mk _)

@[mono] theorem State.everyRing_rests {s₀ s : State} {save} {one : State → Nat → State} (hk : F.rel s₀ s)
    (h1 : ∀ k u, F.rel s₀ u → F.rel s₀ (one u k)) : F.rel s₀ (s.everyRing save one) := by
  unfold State.everyRing
  mono
  intro c u hu
  mono
  exact fun b v hv => h1 _ v hv

@[mono] theorem State.saveRings_rests {s₀ s : State} (hk : F.rel s₀ s) : F.rel s₀ s.saveRings :=
  State.everyRing_rests hk fun _ _ => State.saveRing_rests

@[mono] theorem State.loadRing_rests {s₀ s : State} {k} (hk : F.rel s₀ s) : F.rel s₀ (s.loadRing k) := by
  unfold State.loadRing
  mono

@[mono] theorem State.loadRings_rests {s₀ s : State} (hk : F.rel s₀ s) : F.rel s₀ s.loadRings := by
  unfold State.loadRings
  mono
  intro k u hu
  mono

@[mono] theorem State.putLine_rests {s₀ s : State} {ps bs} (hk : F.rel s₀ s) : F.rel s₀ (s.putLine ps bs) := by
  unfold State.putLine
  mono

@[mono] theorem State.lintelPutBytes_rests {s₀ s : State} {copy bs n} (hk : F.rel s₀ s) : F.rel s₀ (s.lintelPutBytes copy bs n) := by
  induction n generalizing s with
  | zero => exact State.irq_rests (Frame.lit hk)
  | succ n ih =>
    unfold State.lintelPutBytes
    dsimp only
    mono

@[mono] theorem State.lintelIssue_rests {s₀ s : State} {copy bs} (hk : F.rel s₀ s) : F.rel s₀ (s.lintelIssue copy bs) := by
  unfold State.lintelIssue
  mono <;> intros <;> mono

@[mono] theorem State.lintelRun_rests {s₀ s : State} {n} (hk : F.rel s₀ s) : F.rel s₀ (s.lintelRun n) := by
  induction n generalizing s with
  | zero => exact hk
  | succ n ih =>
    unfold State.lintelRun
    dsimp only
    (repeat' split) <;> mono <;> refine Frame.lit ?_ <;> mono

@[mono] theorem State.lintelForce_rests {s₀ s : State} (hk : F.rel s₀ s) : F.rel s₀ s.lintelForce := by
  unfold State.lintelForce
  mono

@[mono] theorem State.lintelPut_rests {s₀ s : State} {copy epoch} (hk : F.rel s₀ s) : F.rel s₀ (s.lintelPut copy epoch) := by
  unfold State.lintelPut
  mono <;> exact Frame.lit hk

@[mono] theorem State.lintelSeq_rests {s₀ s : State} (hk : F.rel s₀ s) : F.rel s₀ s.lintelSeq := Frame.lit hk

@[mono] theorem State.lintelWrite_rests {s₀ s : State} (hk : F.rel s₀ s) : F.rel s₀ s.lintelWrite := by
  unfold State.lintelWrite
  mono

@[mono] theorem State.lintelCopy1_rests {s₀ s : State} (hk : F.rel s₀ s) : F.rel s₀ s.lintelCopy1 := by
  unfold State.lintelCopy1
  split <;> mono

@[mono] theorem State.configChanged_rests {s₀ s : State} (hk : F.rel s₀ s) : F.rel s₀ s.configChanged :=
  State.lintelWrite_rests (Frame.lit (State.wroteRecord_rests hk) (hstart := by rw [State.wroteRecord_start]))

@[mono] theorem State.lintelAccount_rests {s₀ s : State} (hk : F.rel s₀ s) : F.rel s₀ s.lintelAccount := by
  unfold State.lintelAccount
  mono <;> intros <;> mono

@[mono] theorem State.lintelRepair_rests {s₀ s : State} {r copy} (hk : F.rel s₀ s) : F.rel s₀ (s.lintelRepair r copy) := by
  unfold State.lintelRepair
  split <;> mono

@[mono] theorem State.dropIntake_rests {s₀ s : State} {b} (hk : F.rel s₀ s) : F.rel s₀ (s.dropIntake b) :=
  Frame.lit (State.setSet_rests (Frame.foldl hk fun _ _ hu => State.errResp_rests hu))

@[mono] theorem State.accountUpd_rests {s₀ s : State} {c ps} (hk : F.rel s₀ s) : F.rel s₀ (s.accountUpd c ps) := by
  unfold State.accountUpd
  mono <;> intros <;> mono

@[mono] theorem State.unitReports_rests {s₀ s : State} {c ks} (hk : F.rel s₀ s) : F.rel s₀ (s.unitReports c ks) := by
  unfold State.unitReports
  mono <;> intros <;> mono

@[mono] theorem State.countRun_rests {s₀ s : State} {c nonfin poison} (hk : F.rel s₀ s) : F.rel s₀ (s.countRun c nonfin poison) := by
  unfold State.countRun
  mono

@[mono] theorem State.updElems_rests {s₀ s : State} {c bank seen is rows rstat} (hk : F.rel s₀ s) :
    F.rel s₀ (s.updElems c bank seen is rows rstat) := by
  unfold State.updElems
  dsimp only
  mono <;> refine Frame.lit ?_ <;> mono

@[mono] theorem State.pass1_rests {s₀ s : State} {c} (hk : F.rel s₀ s) : F.rel s₀ (s.pass1 c) := by
  unfold State.pass1
  mono <;> intros <;> mono

@[mono] theorem State.storeQ_rests {s₀ s : State} {c} (hk : F.rel s₀ s) : F.rel s₀ (s.storeQ c) := by
  unfold State.storeQ
  split <;> mono

@[mono] theorem State.runSafe_rests {s₀ s : State} {b r n g} (hk : F.rel s₀ s) : F.rel s₀ (s.runSafe b r n g) := by
  unfold State.runSafe
  dsimp only
  (repeat' split) <;> mono <;> intros <;> mono

@[mono] theorem State.journalPut_rests {s₀ s : State} {c unit at_} (hk : F.rel s₀ s) : F.rel s₀ (s.journalPut c unit at_) := by
  unfold State.journalPut
  dsimp only
  exact Frame.lit (by mono)

@[mono] theorem State.undo_rests {s₀ s : State} {c e} (hk : F.rel s₀ s) : F.rel s₀ (s.undo c e) := by
  unfold State.undo
  mono

@[mono] theorem State.accountStart_rests {s₀ s : State} {c unit} (hk : F.rel s₀ s) : F.rel s₀ (s.accountStart c unit) := by
  unfold State.accountStart
  dsimp only
  exact Frame.lit (by mono)

@[mono] theorem State.unitStarted_rests {s₀ s : State} {n unit} (hk : F.rel s₀ s) : F.rel s₀ (s.unitStarted n unit) := by
  unfold State.unitStarted
  dsimp only
  (repeat' split) <;> mono

@[mono] theorem State.unitFinished_rests {s₀ s : State} {n unit} (hk : F.rel s₀ s) : F.rel s₀ (s.unitFinished n unit) := by
  unfold State.unitFinished
  dsimp only
  (repeat' split) <;> mono <;> refine Frame.lit ?_ <;> mono

@[mono] theorem State.zeroCounts_rests {s₀ s : State} {b pick} (hk : F.rel s₀ s) : F.rel s₀ (s.zeroCounts b pick) := by
  unfold State.zeroCounts
  mono <;> intros <;> mono

@[mono] theorem State.spoilSafe_rests {s₀ s : State} (hk : F.rel s₀ s) : F.rel s₀ s.spoilSafe := by
  unfold State.spoilSafe
  mono <;> intros <;> mono

@[mono] theorem State.spoilRun_rests {s₀ s : State} {b} (hk : F.rel s₀ s) : F.rel s₀ (s.spoilRun b) := by
  unfold State.spoilRun
  mono

@[mono] theorem State.loseVersions_rests {s₀ s : State} {t pick} (hk : F.rel s₀ s) : F.rel s₀ (s.loseVersions t pick) := by
  unfold State.loseVersions
  mono <;> intros <;> mono

@[mono] theorem State.openRun_rests {s₀ s : State} {b spec clip exp} (hk : F.rel s₀ s) : F.rel s₀ (s.openRun b spec clip exp) := by
  unfold State.openRun
  mono

@[mono] theorem State.startRows_rests {s₀ s : State} {b} (hk : E.rel s₀ s) : E.rel s₀ (s.startRows b) := by
  unfold State.startRows
  split <;> mono

@[mono] theorem State.startRun_rests {s₀ s : State} {b spec clip exp} (hk : E.rel s₀ s) : E.rel s₀ (s.startRun b spec clip exp) := by
  unfold State.startRun
  mono

@[mono] theorem State.pass2Begin_rests {s₀ s : State} {b n} (hk : F.rel s₀ s) : F.rel s₀ (s.pass2Begin b n) := by
  unfold State.pass2Begin
  split <;> mono

@[mono] theorem State.finishRun_rests {s₀ s : State} {b r} (hk : F.rel s₀ s) : F.rel s₀ (s.finishRun b r) := by
  unfold State.finishRun
  dsimp only
  (repeat' split) <;> mono <;> intros <;> (repeat' split) <;> mono

@[mono] theorem State.beginCommit_rests {s₀ s : State} {b} (hk : F.rel s₀ s) : F.rel s₀ (s.beginCommit b) := by
  have record (u : State) (hu : F.rel s₀ u) : F.rel s₀ { u.wroteRecord with start := { u.start with cfgLost0 := false, cfgLost1 := false } } :=
    Frame.lit (State.wroteRecord_rests hu) (hstart := by rw [State.wroteRecord_start])
  unfold State.beginCommit
  dsimp only
  exact State.lintelPut_rests (Frame.lit (State.lintelSeq_rests (Frame.ite (record _ (State.setSet_rests hk)) (State.setSet_rests hk))))

@[mono] theorem State.updateEnd_rests {s₀ s : State} {b} (hk : F.rel s₀ s) : F.rel s₀ (s.updateEnd b) := by
  unfold State.updateEnd
  dsimp only
  split <;> mono

@[mono] theorem State.installGroups_rests {s₀ s : State} {b} (hk : F.rel s₀ s) : F.rel s₀ (s.installGroups b) := by
  unfold State.installGroups
  mono <;> intros <;> mono

@[mono] theorem State.freezeLow_rests {s₀ s : State} {b} (hk : F.rel s₀ s) : F.rel s₀ (s.freezeLow b) := by
  unfold State.freezeLow
  mono

@[mono] theorem State.commitFinish_rests {s₀ s : State} {b} (hk : F.rel s₀ s) : F.rel s₀ (s.commitFinish b) := by
  unfold State.commitFinish
  dsimp only
  mono <;> refine Frame.lit ?_ <;> mono

@[mono] theorem State.leanAfter_rests {s₀ s : State} {b r} (hk : F.rel s₀ s) : F.rel s₀ (s.leanAfter b r) := by
  unfold State.leanAfter
  mono

@[mono] theorem State.afterVerdict_rests {s₀ s : State} {b v} (hk : E.rel s₀ s) : E.rel s₀ (s.afterVerdict b v) := by
  unfold State.afterVerdict
  dsimp only
  split <;> mono

@[mono] theorem State.recordFinish_rests {s₀ s : State} (hk : E.rel s₀ s) : E.rel s₀ s.recordFinish := by
  unfold State.recordFinish
  dsimp only
  (repeat' split) <;> mono <;> refine Frame.lit ?_ <;> mono

@[mono] theorem State.recordDone_rests {s₀ s : State} (hk : E.rel s₀ s) : E.rel s₀ s.recordDone := by
  unfold State.recordDone
  mono

@[mono] theorem State.endWrites_rests {s₀ s : State} {n} (hk : E.rel s₀ s) : E.rel s₀ (s.endWrites n) := by
  induction n generalizing s with
  | zero => exact hk
  | succ n ih =>
    unfold State.endWrites
    mono

@[mono] theorem State.deriveWeights_rests {s₀ s : State} {n g v} (hk : F.rel s₀ s) : F.rel s₀ (s.deriveWeights n g v) := by
  unfold State.deriveWeights
  mono

@[mono] theorem State.restoreCoffer_rests {s₀ s : State} {ns} (hk : F.rel s₀ s) : F.rel s₀ (s.restoreCoffer ns) := by
  unfold State.restoreCoffer
  mono
  intro n u hu
  split <;> mono

@[mono] theorem State.completeWrites_rests {s₀ s : State} (hk : F.rel s₀ s) : F.rel s₀ s.completeWrites := by
  have hu : F.rel s₀ (if s.ctl.writing.isNone || s.tasked .recordEnd then s else s.lintelCopy1).lintelForce := by mono
  unfold State.completeWrites
  dsimp only
  split
  · mono
  · exact Frame.lit (State.dropRecordEnd_rests hu)
  · exact hu

@[mono] theorem State.stopSteps_rests {s₀ s : State} (hk : F.rel s₀ s) : F.rel s₀ s.stopSteps := by
  unfold State.stopSteps
  mono

@[mono] theorem State.undoJournal_rests {s₀ s : State} (hk : F.rel s₀ s) : F.rel s₀ s.undoJournal := by
  unfold State.undoJournal
  mono
  intro e u hu
  split <;> mono

@[mono] theorem State.runWhole_rests {s₀ s : State} {b v} (hk : E.rel s₀ s) : E.rel s₀ (s.runWhole b v) := by
  unfold State.runWhole
  dsimp only
  mono
  split
  · mono
    · intro e u hu
      mono
    · intro e u hu
      mono
      intro n v hv
      split <;> mono
  · mono
    · intro e u hu
      mono
    · intro e u hu
      mono
      intro n v hv
      split <;> mono

@[mono] theorem State.recover_rests {s₀ s : State} {cause} (hk : E.rel s₀ s) : E.rel s₀ (s.recover cause).state := by
  unfold State.recover
  extract_lets u
  have hu : E.rel s₀ u := State.lintelAccount_rests hk
  clear_value u
  split
  · exact hu
  · next r copy _ =>
    extract_lets u1 ctl u2 u3 ev u4 u5 u6 has u7 ctl8 u8 ns
    have h1 : E.rel s₀ u1 := State.lintelRepair_rests hu
    have h2 : E.rel s₀ u2 := Frame.lit h1
    have h6 : E.rel s₀ u6 := State.setSet_rests (State.setSet_rests (Frame.ite (State.irq_rests (State.setLatch_rests h2))
      (State.setLatch_rests h2)))
    have h8 : E.rel s₀ u8 := Frame.lit (State.undoJournal_rests h6)
    clear_value u8 u6
    split
    · exact h6
    · split
      · change E.rel s₀ (match u8.heldSet r.epoch with | some b => _ | none => _)
        split
        · split <;> mono
        · exact h8
      · split
        · exact State.restoreCoffer_rests (State.moveAccess_rests h8)
        · exact h8

@[mono] theorem State.saveContext_rests {s₀ s : State} {k ctx} (hk : F.rel s₀ s) : F.rel s₀ (s.saveContext k ctx) := by
  unfold State.saveContext
  mono <;> intros <;> mono

@[mono] theorem State.saveBank_rests {s₀ s : State} {k} (hk : F.rel s₀ s) : F.rel s₀ (s.saveBank k) := by
  unfold State.saveBank
  mono



@[mono] theorem State.settle_rests {s₀ s : State} {port} (hk : F.rel s₀ s) : F.rel s₀ (s.settle port) := by
  unfold State.settle
  mono

@[mono] theorem State.settleAll_rests {s₀ s : State} (hk : F.rel s₀ s) : F.rel s₀ s.settleAll := by
  unfold State.settleAll
  mono <;> intros <;> mono

@[mono] theorem State.saveRingsOnce_rests {s₀ s : State} {esr} (hk : F.rel s₀ s) : F.rel s₀ (s.saveRingsOnce esr) := by
  unfold State.saveRingsOnce
  mono

@[mono] theorem State.stopRings_rests {s₀ s : State} (hk : F.rel s₀ s) : F.rel s₀ s.stopRings :=
  State.loadRings_rests (Frame.foldl hk fun _ _ hu => State.setRing_rests hu)

end Sys2Proof.Machine

end


section

/-!
PROOF. Repairs of rows and lanes (O51): the copy of a row into its spare, the mapping, the fuse, and their ends (R470, R471, R447).
-/

namespace Sys2Proof.Machine

variable {s t u : State} {h k row sp : Nat}

/-! ### What is read at a channel changes no bank -/

theorem State.bank_congr (h : t.banks = s.banks) (k : Nat) : t.bank k = s.bank k := congrArg (fun bs => Sparse.get Bank.init bs k) h

theorem State.banks_cross {c : Nat} {event : State → State} (he : ∀ u, (event u).banks = u.banks) (s : State) :
    (s.cross c event).banks = s.banks := by
  unfold State.cross
  dsimp only
  split
  · exact he _
  · split
    · exact he _
    · unfold State.overrun
      dsimp only
      split <;> rfl

theorem State.banks_pushLog (s : State) (a b : Nat) (c : BitVec 16) (d e : Nat) : (s.pushLog a b c d e).banks = s.banks := by
  unfold State.pushLog
  split
  · rfl
  · split <;> rfl

theorem State.banks_countCe (s : State) : s.countCe.banks = s.banks := by
  unfold State.countCe
  dsimp only
  split <;> rfl

theorem State.banks_siteIrq_chan (s : State) (c : Nat) (i : Irq) : (s.siteIrq (.chan c) i).banks = s.banks :=
  State.banks_cross (event := fun u => u) (fun _ => rfl) s

theorem State.banks_siteCe_chan (s : State) (c : Nat) : (s.siteCe (.chan c)).banks = s.banks :=
  State.banks_cross (event := fun u => (u.setChan c { u.chan c with ceCnt := satAdd (u.chan c).ceCnt 1 }).countCe)
    (fun _ => State.banks_countCe _) s

theorem State.banks_siteUe_chan (s : State) (c : Nat) : (s.siteUe (.chan c)).banks = s.banks :=
  State.banks_cross (event := fun u => u.setChan c { u.chan c with ueCnt := satAdd (u.chan c).ueCnt 1 }) (fun _ => rfl) s

theorem State.banks_sitePoison_chan (s : State) (c : Nat) : (s.sitePoison (.chan c)).banks = s.banks :=
  State.banks_cross (event := fun u => u.setChan c { u.chan c with poisonCnt := satAdd (u.chan c).poisonCnt 1 }) (fun _ => rfl) s

theorem State.banks_account_chan (s : State) (c : Nat) (w : Who) (n : Nat) (o : BondOutcome) (syn : BitVec 16) :
    (s.account (.chan c) w n o syn).banks = s.banks := by
  have hce := s.banks_siteCe_chan c
  have hue := s.banks_siteUe_chan c
  have hpo := s.banks_sitePoison_chan c
  unfold State.account
  cases o with
  | clean => rfl
  | corrected d =>
    dsimp only
    split
    · exact (State.banks_pushLog _ _ _ _ _ _).trans hce
    · exact hce
  | uncorrectable => exact (State.banks_siteIrq_chan _ _ _).trans ((State.banks_pushLog _ _ _ _ _ _).trans hue)
  | poison => exact hpo

theorem State.banks_statePoison_chan (s : State) (c : Nat) (w : Who) (n : Nat) : (s.statePoison (.chan c) w n).banks = s.banks := by
  unfold State.statePoison
  refine (State.banks_siteIrq_chan _ _ _).trans ((State.banks_pushLog _ _ _ _ _ _).trans ?_)
  exact State.banks_cross (event := fun u => { u with regs := { u.regs with statePoison := satAdd u.regs.statePoison 1 } }) (fun _ => rfl) s

theorem State.banks_foldl {α : Type} {f : State → α → State} (hf : ∀ u a, (f u a).banks = u.banks) (l : List α) (s : State) :
    (l.foldl f s).banks = s.banks := by
  induction l generalizing s with
  | nil => rfl
  | cons a l ih => exact (ih _).trans (hf s a)

/-- CSTAT empties the unit's counts and keeps what it saw of the contexts (R116). -/
theorem State.bank_cstat (s : State) (k : Nat) : ∃ x, (s.cstat k).bank k = { s.bank k with cstat := (0, 0, 0), ctxSeen := x } := by
  have hadd (u : State) (c a b d : Nat) : (u.addChan c a b d).banks = u.banks := by
    unfold State.addChan
    exact (State.banks_foldl (fun u _ => u.banks_sitePoison_chan c) _ _).trans ((State.banks_foldl (fun u _ => u.banks_siteUe_chan c) _ _).trans
      (State.banks_foldl (fun u _ => u.banks_siteCe_chan c) _ _))
  obtain ⟨x, hx⟩ : ∃ x, x = BitVec.ofNat 8 (field ((s.bank k).status (s.bank k).course.isSome) 0 1) := ⟨_, rfl⟩
  refine ⟨x, ?_⟩
  have hset : (((s.sent (k / 16) 0x2A k 0).setBank k { s.bank k with cstat := (0, 0, 0), ctxSeen := x }).bank k) =
      { s.bank k with cstat := (0, 0, 0), ctxSeen := x } := State.bank_setBank_self _ _ _
  refine Eq.trans (State.bank_congr ?_ k) hset
  rw [hx]
  unfold State.cstat
  dsimp only
  split
  · exact (State.banks_cross (event := fun u => u.setChan (k / 16) { u.chan (k / 16) with err := (u.chan (k / 16)).err ||| 4 }) (fun _ => rfl) _).trans
      (hadd _ _ _ _ _)
  · exact hadd _ _ _ _ _

/-! ### Accesses of one bank -/

/-- t is s but for what is counted, the words listed, and the time that the bank's accesses take. -/
structure State.Copies (k : Nat) (ws : List (Space × Nat)) (s t : State) : Prop where
  frame : t = { s with regs := t.regs, chans := t.chans, banks := t.banks, crossing := t.crossing, stack := t.stack, mortar := t.mortar,
                       hasps := t.hasps }
  words : SameMemoryBut ws s t
  own : (s.bank k).SameButCounts (t.bank k)
  other : ∀ j, j ≠ k → t.bank j = s.bank j
  held : ∀ c, (t.chan c).fprogHold = (s.chan c).fprogHold

namespace State.Copies

variable {ws : List (Space × Nat)}

theorem refl (s : State) : s.Copies k ws s := ⟨rfl, fun _ _ _ _ => rfl, rfl, fun _ _ => rfl, fun _ => rfl⟩

theorem trans (h : s.Copies k ws t) (h' : t.Copies k ws u) : s.Copies k ws u where
  frame := by rw [h'.frame, h.frame]
  words sp w hsp hw := (h'.words sp w hsp hw).trans (h.words sp w hsp hw)
  own := h.own.trans h'.own
  other j hj := (h'.other j hj).trans (h.other j hj)
  held c := (h'.held c).trans (h.held c)

theorem stored (h : State.Stored ws s t) (ho : ∀ j, j ≠ k → t.bank j = s.bank j) : s.Copies k ws t where
  frame := congrArg (fun u : State => { u with stack := t.stack, mortar := t.mortar, hasps := t.hasps }) h.counted.same
  words := h.words
  own := h.counted.bank k
  other := ho
  held c := by
    have hc := h.counted.chan c
    rw [Channel.SameButCounts] at hc
    exact (congrArg Channel.fprogHold hc).trans rfl

theorem counted (h : s.Counted t) (ho : ∀ j, j ≠ k → t.bank j = s.bank j) : s.Copies k ws t :=
  stored (h.stored.mono (List.nil_subset _)) ho

theorem foldl {α : Type} {f : State → α → State} (l : List α) (hf : ∀ a ∈ l, ∀ u : State, u.Copies k ws (f u a)) (s : State) :
    s.Copies k ws (l.foldl f s) := by
  induction l generalizing s with
  | nil => exact refl s
  | cons a l ih => exact (hf a List.mem_cons_self s).trans (ih (fun b hb => hf b (List.mem_cons_of_mem _ hb)) _)

theorem sent (s : State) (c op bank arg : Nat) : s.Copies k ws (s.sent c op bank arg) := counted (State.counted_sent (.refl s)) fun _ _ => rfl

theorem occupy (s : State) (n : Nat) : s.Copies k ws (s.occupy k n) :=
  counted (State.counted_occupy (.refl s)) fun _ hj => (State.bank_setBank _ _ _ _).trans (if_neg hj)

theorem sendRow (s : State) (row : Nat) (cs : List Column) : s.Copies k ws (s.sendRow k row cs) :=
  ((sent s _ _ _ _).trans (foldl cs (fun _ _ u => sent u _ _ _ _) _)).trans (sent _ _ _ _ _)

theorem rowAccess (s : State) (row : Nat) (cs : List Column) : s.Copies k ws (s.rowAccess k row cs) := (sendRow s row cs).trans (occupy _ _)

/-- A word of a row that is read. -/
theorem readPlace (s : State) (w : Who) {p : Place} {c : Nat} (hp : p.site = .chan c) : s.Copies k ws (s.readPlace w p).2 := by
  have hb : (s.readPlace w p).2.banks = s.banks := by
    rw [State.readPlace, hp]
    exact s.banks_account_chan _ _ _ _ _
  exact counted (State.counted_readPlace (.refl s)) fun j _ => State.bank_congr hb j

theorem statePoison (s : State) (c : Nat) (w : Who) (n : Nat) : s.Copies k ws (s.statePoison (.chan c) w n) := by
  have hb := s.banks_statePoison_chan c w n
  have hs := s.sameButCounts_statePoison (.chan c) w n
  have hr : State.Rests s (s.statePoison (.chan c) w n) := State.statePoison_rests (F := Frame.least) (State.Rests.refl s)
  generalize s.statePoison (.chan c) w n = t at *
  have hbank : ∀ j, t.bank j = s.bank j := fun j => State.bank_congr hb j
  refine ⟨?_, fun sp w hsp _ => hs.word w hsp, (hbank k).symm ▸ rfl, fun j _ => hbank j, fun c => (hr.chan c).2.2⟩
  have hm : t.stack = s.stack ∧ t.mortar = s.mortar ∧ t.hasps = s.hasps := by
    rw [hs]
    exact ⟨rfl, rfl, rfl⟩
  rw [hm.1, hm.2.1, hm.2.2]
  exact hs

theorem placeWrite (s : State) {p : Place} (hp : p.space ≠ .pages) (hw : (p.space, p.word) ∈ ws) (d : BondData) (b : Bool) :
    s.Copies k ws (s.placeWrite p d b) := by
  refine stored ((s.placeWrite_spec hp d b).1.mono fun e he => List.mem_singleton.1 he ▸ hw) fun j _ => ?_
  rw [State.placeWrite, State.placeSet_frame]
  rfl

end State.Copies

/-! ### The copy of a row, and its mapping (R470) -/

/-- The words of a spare's row. -/
def spareWords (k sp : Nat) : List (Space × Nat) := (List.range 128).map (fun i => (.stack, (sparePlace k sp i).word))

theorem mem_spareWords {space : Space} {w : Nat} (h : (space, w) ∈ spareWords k sp) : space = .stack ∧ ∃ i, i < 128 ∧ (sparePlace k sp i).word = w := by
  obtain ⟨i, hi, heq⟩ := List.mem_map.1 h
  obtain ⟨rfl, rfl⟩ := Prod.mk.inj heq
  exact ⟨rfl, i, List.mem_range.1 hi, rfl⟩

theorem State.copies_copyRow (s : State) (k row sp : Nat) : s.Copies k (spareWords k sp) (s.copyRow k row sp) := by
  unfold State.copyRow
  extract_lets det inState w s1 s2
  have h2 : s.Copies k (spareWords k sp) s2 := by
    have h1 : s.Copies k (spareWords k sp) s1 := .sendRow s row _
    refine h1.trans (State.Copies.trans ?_ (.occupy _ _))
    exact ((State.Copies.sent s1 _ _ _ _).trans (.foldl _ (fun _ _ u => .sent u _ _ _ _) _)).trans (.sent _ _ _ _ _)
  clear_value s2
  refine h2.trans (.foldl _ (fun wi hwi u => ?_) _)
  dsimp only
  have hrd := State.Copies.readPlace (k := k) (ws := spareWords k sp) u w (p := u.rowPlace k row wi det) rfl
  generalize (u.readPlace w (u.rowPlace k row wi det)) = x at hrd ⊢
  have hwr := hrd.trans (.placeWrite x.2 (p := sparePlace k sp wi) (by exact nofun) (List.mem_map.2 ⟨wi, hwi, rfl⟩) x.1.1 x.1.2)
  split
  · exact hwr.trans (.statePoison _ _ _ _)
  · exact hwr

theorem Sparse.find?_put {α : Type} {p : Nat × α → Bool} {n : Nat} {v : α} {l : Sparse α} (hp : p (n, v) = true) (hl : ∀ e ∈ l, p e = false) :
    (Sparse.put n v l).find? p = some (n, v) := by
  induction l with
  | nil => simp [Sparse.put, hp]
  | cons e l ih =>
    obtain ⟨k, w⟩ := e
    rw [List.forall_mem_cons] at hl
    unfold Sparse.put
    split
    · rw [List.find?_cons_of_pos hp]
    · split
      · rw [List.find?_cons_of_pos hp]
      · rw [List.find?_cons_of_neg (by rw [hl.1]; exact Bool.false_ne_true), ih hl.2]

/-- A row that has been mapped stands in its spare (R127). -/
theorem Bank.mapSoft_spec (b : Bank) (row sp : Nat) : (∃ e, (e, (row, sp)) ∈ (b.mapSoft row sp).soft) ∧ (b.mapSoft row sp).physRow row = 9216 + sp := by
  have hfind : (b.mapSoft row sp).soft.find? (fun e => e.2.1 == row) = some ((b.unmapSoft row).freeEntry, (row, sp)) := by
    refine Sparse.find?_put (beq_self_eq_true row) fun e he => ?_
    have := (List.mem_filter.1 he).2
    exact bne_iff_ne.1 this |> fun h => beq_eq_false_iff_ne.2 h
  exact ⟨⟨_, List.mem_of_find?_eq_some hfind⟩, by rw [Bank.physRow, hfind]⟩

/-- The frames of a mapping, and the mapping. -/
theorem State.softMap_frame (s : State) (k row sp : Nat) : ∃ cs bs, s.softMap k row sp = { s with chans := cs, banks := bs } ∧
    (s.softMap k row sp).bank k = (s.bank k).mapSoft row sp ∧ ∀ j, j ≠ k → (s.softMap k row sp).bank j = s.bank j := by
  unfold State.softMap
  dsimp only
  split
  · exact ⟨_, _, rfl, State.bank_setBank_self _ _ _, fun j hj => (State.bank_setBank _ _ _ _).trans (if_neg hj)⟩
  · exact ⟨_, _, rfl, State.bank_setBank_self _ _ _, fun j hj => (State.bank_setBank _ _ _ _).trans (if_neg hj)⟩

/-- A record of the calibration changes frames and what is kept for the next start. -/
theorem State.noteCalib_frame (s : State) : ∃ cs fb n x, s.noteCalib = { s with chans := cs, frameBase := fb, dbWords := [], free := n, start := x } ∧
    x.calib.pending = s.start.calib.pending ∧ ∀ c, (s.noteCalib.chan c).fprogHold = (s.chan c).fprogHold := by
  have hr : State.Rests s s.wroteRecord := State.wroteRecord_rests (F := Frame.least) (State.Rests.refl s)
  have heq : s.noteCalib = { s.wroteRecord with start := s.noteCalib.start } := rfl
  have hp : s.noteCalib.start.calib.pending = s.start.calib.pending := rfl
  obtain ⟨cs, fb, n, hw⟩ := s.wroteRecord_frame
  refine ⟨cs, fb, n, s.noteCalib.start, ?_, hp, fun c => (hr.chan c).2.2⟩
  generalize s.noteCalib.start = x at heq
  rw [heq, hw]

/-! ### The end of a repair -/

theorem State.SameButAnswers.banks (h : s.SameButAnswers t) : t.banks = s.banks := by rw [h]

theorem State.SameButAnswers.start (h : s.SameButAnswers t) : t.start = s.start := by rw [h]

theorem State.SameButAnswers.chans (h : s.SameButAnswers t) : t.chans = s.chans := by rw [h]

theorem SameMemoryButHasp.of_before (hm : SameMemoryButHasp h u t) (hmem : SameMemory s u) (hh : ∀ j, j ≠ h → u.hasp j = s.hasp j) :
    SameMemoryButHasp h s t := fun sp w hsp hq =>
  (hm sp w hsp fun he => ⟨(hq he).1, (State.badStatus_congr (hh _ (hq he).1)).trans (hq he).2⟩).trans (hmem sp w hsp)

theorem State.repairEnd_some (s : State) (h : Nat) (st : MStatus) (bs : List Byte) :
    s.repairEnd (some h) st bs = (s.dropBg Background.isRepair).finish h st 0 bs := rfl

/-- A repair of the mailbox ends with its status, and is in the background no more. -/
theorem State.repairEnd_spec (s : State) {st : MStatus} {bs : List Byte} (hlen : bs.length ≤ 1984)
    (hb : st = .okay → isBackground (s.hasp h).opcode = true) :
    (s.repairEnd (some h) st bs).done h st ∧ (s.repairEnd (some h) st bs).respBytes h bs ∧
      s.SameButAnswers (s.repairEnd (some h) st bs) ∧ SameMemoryButHasp h s (s.repairEnd (some h) st bs) ∧
      (s.repairEnd (some h) st bs).mbox.bg = s.mbox.bg.filter (fun b => !b.isRepair) := by
  have hc : (s.dropBg Background.isRepair).Completes ((s.dropBg Background.isRepair).finish h st 0 bs) h st bs := by
    have hgo : ¬(st = .okay ∧ (s.dropBg Background.isRepair).recordWaits h = true) := by
      by_cases hst : st = .okay
      · exact State.recordWaits_of_background (s := s.dropBg Background.isRepair) (hb hst) st
      · exact fun hw => hst hw.1
    simp only [State.finish, if_neg hgo]
    exact State.completes_complete_of_le _ h _ st hlen
  have hbg := (s.dropBg Background.isRepair).bg_finish h st 0 bs
  rw [State.repairEnd_some]
  generalize (s.dropBg Background.isRepair).finish h st 0 bs = t at *
  refine ⟨hc.done, hc.bytes, hc.frame, hc.sameMemoryButHasp, hbg⟩

theorem filter_isRepair {b : Background} {l : List Background} (hb : b.isRepair = true) (hl : ∀ b ∈ l, b.isRepair = false) :
    (b :: l).filter (fun b => !b.isRepair) = l := by
  rw [List.filter_cons_of_neg (by rw [hb]; exact Bool.false_ne_true)]
  exact List.filter_eq_self.2 fun c hc => by rw [hl c hc]; rfl

theorem State.repairing_cons {b : Background} {l : List Background} (hbg : s.mbox.bg = b :: l) (hb : b.isRepair = true) : s.repairing = some b := by
  unfold State.repairing
  rw [hbg]
  cases b with
  | repair => rfl
  | _ => exact absurd hb nofun

/-- A soft repair whose bank is free ends with its copy, its mapping and its record (R470). -/
theorem State.softDone_eq {h : Option Nat} {t0 : Nat} {issued : Bool} (hrep : s.repairing = some (.repair h false k row sp t0 issued))
    (hruns : s.repairRuns h = true) (hcourse : (s.bank k).course = none) (howed : (s.bank k).owed < 8) :
    s.softDone = (((s.copyRow k row sp).softMap k row sp).noteCalib.repairEnd h .okay (BitVec.ofNat 8 sp :: List.replicate 7 0)).releaseBank k := by
  unfold State.softDone
  rw [hrep]
  refine if_neg ?_
  rw [hruns, hcourse, decide_eq_false (Nat.not_le.2 howed)]
  decide

/-- The end of a soft repair (R470). -/
theorem softDone_spec {t0 : Nat} {issued : Bool} {l : List Background} (hruns : s.repairRuns (some h) = true)
    (hback : isBackground (s.hasp h).opcode = true) (hbg : s.mbox.bg = .repair (some h) false k row sp t0 issued :: l)
    (hcourse : (s.bank k).course = none) (howed : (s.bank k).owed < 8) (hl : ∀ b ∈ l, b.isRepair = false) :
    ∃ u : State, exec .repairSoftDone s = .next (u.releaseBank k) ∧ u.done h .okay ∧
      u.respBytes h (BitVec.ofNat 8 sp :: List.replicate 7 0) ∧ (∃ e, (e, (row, sp)) ∈ (u.bank k).soft) ∧ (u.bank k).physRow row = 9216 + sp ∧
      u.mbox.bg = l ∧ (∀ j, j ≠ k → u.bank j = s.bank j) ∧
      (∀ space w, space ≠ .pages → (space = .hasp → s.haspQuiet h (w / 256)) →
        (space = .stack → ∀ i, i < 128 → (sparePlace k sp i).word ≠ w) → u.word space w = s.word space w) := by
  have heq := State.softDone_eq (State.repairing_cons hbg rfl) hruns hcourse howed
  have hcopy := s.copies_copyRow k row sp
  generalize s.copyRow k row sp = a at heq hcopy
  obtain ⟨cs, bs, hsoft, hown, hother⟩ := a.softMap_frame k row sp
  generalize hb : a.softMap k row sp = b at heq hsoft hown hother
  obtain ⟨cs', fb, n, x, hnote, -, -⟩ := b.noteCalib_frame
  generalize b.noteCalib = v at heq hnote
  have hvhasp : ∀ j, v.hasp j = s.hasp j := fun j => by rw [hnote, hsoft, hcopy.frame]; rfl
  have hvbg : v.mbox.bg = s.mbox.bg := by rw [hnote, hsoft, hcopy.frame]
  have hvbank : ∀ j, v.bank j = b.bank j := fun j => by rw [hnote]; rfl
  have hvword : SameMemory a v := sameMemory_of_stores (by rw [hnote, hsoft]) (by rw [hnote, hsoft]) (by rw [hnote, hsoft]) (by rw [hnote, hsoft])
  obtain ⟨hdone, hbytes, hans, hmem, hbg'⟩ := v.repairEnd_spec (h := h) (st := .okay) (bs := BitVec.ofNat 8 sp :: List.replicate 7 0) (by simp)
    fun _ => by rw [hvhasp]; exact hback
  generalize v.repairEnd (some h) .okay (BitVec.ofNat 8 sp :: List.replicate 7 0) = u at heq hdone hbytes hans hmem hbg'
  have hubank : ∀ j, u.bank j = b.bank j := fun j => (State.bank_congr (congrArg State.banks hans) j).trans (hvbank j)
  obtain ⟨hsoft', hrow⟩ := (a.bank k).mapSoft_spec row sp
  refine ⟨u, congrArg Host.Outcome.next heq, hdone, hbytes, ?_, ?_, ?_, fun j hj => ?_, fun space w hsp hq hw => ?_⟩
  · rw [hubank, hown]
    exact hsoft'
  · rw [hubank, hown]
    exact hrow
  · rw [hbg', hvbg, hbg]
    exact filter_isRepair rfl hl
  · rw [hubank, hother j hj, hcopy.other j hj]
  · refine (hmem space w hsp fun he => ?_).trans ((hvword space w hsp).trans (hcopy.words space w hsp fun hm => ?_))
    · exact ⟨(hq he).1, (State.badStatus_congr (hvhasp _)).trans (hq he).2⟩
    · obtain ⟨hst, i, hi, heqw⟩ := mem_spareWords hm
      exact hw hst i hi heqw

/-! ### Repairs that begin (R470, R471) -/

theorem State.exec_repairSoft (hturn : s.turn h 0x11) : exec (.repairSoft h) s = .next (s.runCommand h 0x11 (fun s => s.repairSoft h)) :=
  guard_eq_next.2 ⟨decide_eq_true hturn.1, rfl⟩

theorem State.exec_repairFuse (hturn : s.turn h 0x12) : exec (.repairFuse h) s = .next (s.runCommand h 0x12 (fun s => s.repairFuse h)) :=
  guard_eq_next.2 ⟨decide_eq_true hturn.1, rfl⟩

theorem State.repairSoft_eq (hk : (s.hasp h).pay 0 2 < 4096) (hrow : (s.hasp h).pay 2 2 < 9208) (hno : s.repairing = none) :
    s.repairSoft h = s.softBegin (some h) ((s.hasp h).pay 0 2) ((s.hasp h).pay 2 2) := by
  unfold State.repairSoft
  refine (if_neg (Nat.not_le.2 hk)).trans ((if_neg (Nat.not_le.2 hrow)).trans (if_neg ?_))
  rw [hno]
  exact Bool.false_ne_true

/-- A repair that goes on in the background: what the command leaves of the state in which its body has left it. -/
theorem State.runs_repair {op : Nat} {body : State → State} {b : State} (hturn : s.turn h op) (hbody : body (s.begin_ h) = b)
    (hmem : SameMemory s b) (hhasp : ∀ j, b.hasp j = (s.begin_ h).hasp j) :
    (s.runCommand h op body).mbox.bg = b.mbox.bg ∧ ((s.runCommand h op body).hasp h).state = .running ∧
      SameMemoryButHasp h s (s.runCommand h op body) ∧ (s.noneBad → SameMemory s (s.runCommand h op body)) ∧
      b.SameButAnswers (s.runCommand h op body) := by
  have hrun := State.runsOn_runCommand hturn body
  rw [hbody] at hrun
  have hself : (b.hasp h).state = .running := by rw [hhasp, State.hasp_begin_self]
  have hne : ∀ j, j ≠ h → b.hasp j = s.hasp j := fun j hj => (hhasp j).trans (s.hasp_begin_ne hj)
  have hnp : (b.hasp h).state ≠ .pending := by rw [hself]; exact nofun
  exact ⟨hrun.keeps.bg, by rw [hrun.self hnp, hself], hrun.sameMemoryButHasp hmem hne, hrun.sameMemory hmem hne hnp,
    hrun.causes.sameButAnswers⟩

/-- A command that ends as its body does, from a state with the words and the hasps of the one before. -/
theorem State.ends_repair {op d : Nat} {st : MStatus} {bs : List Byte} {body : State → State} {w : State} (hturn : s.turn h op)
    (hbody : body (s.begin_ h) = w.finish h st d bs) (hmem : SameMemory s w) (hhasp : ∀ j, w.hasp j = (s.begin_ h).hasp j) (hlen : bs.length < 16)
    (hb : st = .okay → isBackground (w.hasp h).opcode = true) :
    (s.runCommand h op body).done h st ∧ (s.runCommand h op body).mbox.bg = w.mbox.bg ∧ SameMemoryButHasp h s (s.runCommand h op body) ∧
      w.SameButAnswers (s.runCommand h op body) := by
  have hgo : ¬(st = .okay ∧ w.recordWaits h = true) := by
    by_cases hst : st = .okay
    · exact State.recordWaits_of_background (hb hst) st
    · exact fun hw => hst hw.1
  have hfin : w.Completes (w.finish h st d bs) h st bs := by
    simp only [State.finish, if_neg hgo]
    exact w.completes_complete h _ st hlen
  have hc : w.Completes (s.runCommand h op body) h st bs := State.completes_runCommand hturn hlen (by rw [hbody]; exact hfin)
  refine ⟨hc.done, (State.bg_runCommand hturn).trans ((congrArg (fun u : State => u.mbox.bg) hbody).trans (w.bg_finish h st d bs)), ?_, hc.frame⟩
  exact hc.sameMemoryButHasp.of_before hmem fun j hj => (hhasp j).trans (s.hasp_begin_ne hj)

/-- The beginning of a soft repair (R470). -/
theorem repairSoft_spec (hturn : s.turn h 0x11) (hk : (s.hasp h).pay 0 2 < 4096) (hrow : (s.hasp h).pay 2 2 < 9208) (hno : s.repairing = none)
    (hsp : (s.bank ((s.hasp h).pay 0 2)).freeSpare = some sp) :
    let k := (s.hasp h).pay 0 2
    ((s.bank k).soft.length < 4 →
      ∃ t, exec (.repairSoft h) s = .next t ∧ (t.bank k) = { s.bank k with hold := true } ∧ (∀ j, j ≠ k → t.bank j = s.bank j) ∧
        t.mbox.bg = s.mbox.bg ++ [.repair (some h) false k ((s.hasp h).pay 2 2) sp 0 false] ∧ (t.hasp h).state = .running ∧ SameMemoryButHasp h s t ∧
        (s.noneBad → SameMemory s t)) ∧
    (4 ≤ (s.bank k).soft.length →
      ∃ t, exec (.repairSoft h) s = .next t ∧ t.done h .repairNoSpare ∧ t.banks = s.banks ∧ SameMemoryButHasp h s t) := by
  intro k
  have hpay := s.pay_begin h
  have hbody : (s.begin_ h).repairSoft h = (s.begin_ h).softBegin (some h) k ((s.hasp h).pay 2 2) := by
    have := State.repairSoft_eq (s := s.begin_ h) (h := h) (by rw [hpay]; exact hk) (by rw [hpay]; exact hrow) hno
    rw [hpay, hpay] at this
    exact this
  refine ⟨fun hfew => ?_, fun hfull => ?_⟩
  · have hbegin := hbody.trans (State.softBegin_free (s := s.begin_ h) (some h) ((s.hasp h).pay 2 2) hsp hfew)
    obtain ⟨hbg, hstate, hmem, hquiet, hans⟩ := State.runs_repair (body := fun s => s.repairSoft h) hturn hbegin
      (sameMemory_of_stores rfl rfl rfl rfl) fun _ => rfl
    refine ⟨_, State.exec_repairSoft hturn, ?_, fun j hj => ?_, hbg, hstate, hmem, hquiet⟩
    · exact (State.bank_congr (congrArg State.banks hans) k).trans (State.bank_setBank_self _ _ _)
    · exact (State.bank_congr (congrArg State.banks hans) j).trans ((State.bank_setBank _ _ _ _).trans (if_neg hj))
  · have hbegin := hbody.trans (State.softBegin_full (s := s.begin_ h) (some h) ((s.hasp h).pay 2 2) hfull)
    have hends := State.ends_repair (w := (s.begin_ h).dropBg Background.isRepair) (body := fun s => s.repairSoft h) (bs := []) hturn
      (hbegin.trans (State.repairEnd_some _ _ _ _))
      (sameMemory_of_stores rfl rfl rfl rfl) (fun _ => rfl) (by decide) nofun
    obtain ⟨hdone, -, hmem, hans⟩ := hends
    exact ⟨_, State.exec_repairSoft hturn, hdone, hans.banks, hmem⟩

/-! ### Fuses (R471) -/

theorem State.repairFuse_row (hkind : (s.hasp h).pay 0 1 = 0) (hk : (s.hasp h).pay 2 2 < 4096) (hrow : (s.hasp h).pay 4 2 < 9216)
    (hno : s.repairing = none) : s.repairFuse h = (s.fuseBegin (some h) ((s.hasp h).pay 2 2) ((s.hasp h).pay 4 2)).fuseIssue := by
  unfold State.repairFuse
  dsimp only
  rw [hkind, if_neg (by decide), if_neg (by omega), if_neg (by omega), hno, if_neg (by decide), if_neg (by decide)]

theorem State.repairFuse_lane (hkind : (s.hasp h).pay 0 1 = 1) (hc : (s.hasp h).pay 2 2 < 256) (hlane : (s.hasp h).pay 4 2 < 169)
    (hno : s.repairing = none) : s.repairFuse h = ({ s with start := { s.start with calib := { s.start.calib with
      tsv := s.start.calib.tsv ++ [((s.hasp h).pay 2 2, (s.hasp h).pay 4 2)] } } } : State).wroteRecord.finish h .okay 0 [0, 1, 0, 0, 0, 0, 0, 0] := by
  unfold State.repairFuse
  dsimp only
  rw [hkind, if_neg (by decide), if_neg (by omega), if_neg (by omega), hno, if_neg (by decide), if_pos rfl]

/-- A fuse repair in the background. -/
def State.fusing (s : State) (h k row sp : Nat) (issued : Bool) : State :=
  { s with mbox := { s.mbox with bg := s.mbox.bg ++ [.repair (some h) true k row sp (s.now + 100000000) issued] } }

theorem State.fuseBegin_eq (hsp : (s.bank k).softSpare row = some sp ∨ (s.bank k).softSpare row = none ∧ (s.bank k).freeSpare = some sp) :
    s.fuseBegin (some h) k row = s.fusing h k row sp false := by
  unfold State.fuseBegin
  obtain hs | ⟨hs, hf⟩ := hsp
  · simp only [hs]
    rfl
  · simp only [hs, hf]
    rfl

theorem State.isRepair_of_repairing (hno : s.repairing = none) : ∀ b ∈ s.mbox.bg, b.isRepair = false := by
  intro b hb
  have := List.find?_eq_none.1 hno b hb
  cases b with
  | repair => exact absurd rfl this
  | _ => rfl

theorem State.repairing_fusing (hno : s.repairing = none) (issued : Bool) :
    (s.fusing h k row sp issued).repairing = some (.repair (some h) true k row sp (s.now + 100000000) issued) := by
  unfold State.repairing State.fusing
  dsimp only
  rw [List.find?_append]
  unfold State.repairing at hno
  rw [hno]
  rfl

/-- Without its conditions a fuse waits (R471). -/
theorem State.fuseIssue_waits (hno : s.repairing = none) (hcond : s.fuseCond k = false) :
    (s.fusing h k row sp false).fuseIssue = s.fusing h k row sp false := by
  have hcond' : (s.fusing h k row sp false).fuseCond k = false := hcond
  unfold State.fuseIssue
  rw [State.repairing_fusing hno]
  refine if_pos ?_
  rw [hcond', Bool.not_false, Bool.or_true, Bool.true_or]

/-- The fuse of a row that is SOFT is issued: its bank and its channel are held, and FPROG_PENDING stands (R130, R471). -/
def State.fuseSent (s : State) (k row sp : Nat) : State :=
  let v := s.setBank k { s.bank k with hold := true }
  let v : State := { v.wroteRecord with start := { v.start with calib := { v.start.calib with pending := some (k, row, sp) } } }
  (v.setChan (k / 16) { v.chan (k / 16) with fprogHold := true }).sent (k / 16) 0x0D k (row * 4 + sp * 2 ^ 16)

theorem State.fuseSent_frame (s : State) (k row sp : Nat) : ∃ bs cs fb n x, s.fuseSent k row sp =
    { s with banks := bs, chans := cs, frameBase := fb, dbWords := [], free := n, start := x } ∧
    x.calib = { s.start.calib with pending := some (k, row, sp) } ∧
    (s.fuseSent k row sp).bank k = { s.bank k with hold := true } ∧ ((s.fuseSent k row sp).chan (k / 16)).fprogHold = true := by
  obtain ⟨cs, fb, n, h⟩ := (s.setBank k { s.bank k with hold := true }).wroteRecord_frame
  have hheld : ((s.fuseSent k row sp).chan (k / 16)).fprogHold = true := by
    unfold State.fuseSent State.sent
    dsimp only
    rw [State.chan_setChan_self, State.chan_setChan_self]
  have hbanks : (s.fuseSent k row sp).banks = (s.setBank k { s.bank k with hold := true }).banks := by
    unfold State.fuseSent
    dsimp only
    rw [h]
    rfl
  refine ⟨(s.setBank k { s.bank k with hold := true }).banks, (s.fuseSent k row sp).chans, fb, n,
    { s.start with calib := { s.start.calib with pending := some (k, row, sp) } }, ?_, rfl, (State.bank_congr hbanks k).trans (State.bank_setBank_self _ _ _), hheld⟩
  generalize hc : (s.fuseSent k row sp).chans = c
  rw [← hc]
  unfold State.fuseSent
  dsimp only
  rw [h]
  rfl

theorem State.fuseIssue_goes (hno : s.repairing = none) (hsoft : (s.bank k).softSpare row = some sp) (hruns : s.repairRuns (some h) = true)
    (hcond : s.fuseCond k = true) (hcourse : (s.bank k).course = none) (howed : (s.bank k).owed < 8) :
    (s.fusing h k row sp false).fuseIssue = { (s.fusing h k row sp false).fuseSent k row sp with mbox := { s.mbox with
      bg := s.mbox.bg ++ [.repair (some h) true k row sp (s.now + 100000000) true] } } := by
  have hcond' : (s.fusing h k row sp false).fuseCond k = true := hcond
  have hruns' : (s.fusing h k row sp false).repairRuns (some h) = true := hruns
  have hsoft' : ((s.fusing h k row sp false).bank k).softSpare row = some sp := hsoft
  have hcourse' : ((s.fusing h k row sp false).bank k).course = none := hcourse
  have howed' : ((s.fusing h k row sp false).bank k).owed < 8 := howed
  have hnow : ¬ s.now + 100000000 ≤ (s.fusing h k row sp false).now := by
    show ¬ s.now + 100000000 ≤ s.now
    omega
  have hmap : (s.fusing h k row sp false).mbox.bg.map (fun b => if b.isRepair then .repair (some h) true k row sp (s.now + 100000000) true else b) =
      s.mbox.bg ++ [.repair (some h) true k row sp (s.now + 100000000) true] := by
    rw [State.fusing, List.map_append, List.map_congr_left (g := id) fun b hb => by rw [State.isRepair_of_repairing hno b hb]; rfl, List.map_id]
    rfl
  unfold State.fuseIssue
  rw [State.repairing_fusing hno]
  refine (if_neg ?_).trans ((if_neg ?_).trans ?_)
  · rw [hruns', hcond', decide_eq_false hnow]
    decide
  · rw [hcourse', decide_eq_false (Nat.not_le.2 howed')]
    decide
  · rw [if_pos hsoft']
    obtain ⟨bs, cs, fb, n, x, hsent, -⟩ := (s.fusing h k row sp false).fuseSent_frame k row sp
    have hm : ((s.fusing h k row sp false).fuseSent k row sp).mbox = (s.fusing h k row sp false).mbox := by rw [hsent]
    have hgo : ∀ v : State, v.mbox = (s.fusing h k row sp false).mbox → ({ v with mbox := { v.mbox with bg := v.mbox.bg.map (fun b =>
        if b.isRepair then .repair (some h) true k row sp (s.now + 100000000) true else b) } } : State) = { v with mbox := { s.mbox with
          bg := s.mbox.bg ++ [.repair (some h) true k row sp (s.now + 100000000) true] } } := fun v hv => by
      rw [hv, hmap]
      rfl
    exact hgo _ hm

/-- The beginning of a fuse repair of a row (R471). -/
theorem repairFuse_row_spec (hturn : s.turn h 0x12) (hkind : (s.hasp h).pay 0 1 = 0) (hk : (s.hasp h).pay 2 2 < 4096)
    (hrow : (s.hasp h).pay 4 2 < 9216) (hno : s.repairing = none) :
    let k := (s.hasp h).pay 2 2
    let row := (s.hasp h).pay 4 2
    let bg := fun (t : State) (issued : Bool) =>
      t.mbox.bg = s.mbox.bg ++ [.repair (some h) true k row sp (s.now + 100000000) issued] ∧ (t.hasp h).state = .running ∧
      SameMemoryButHasp h s t ∧ (s.noneBad → SameMemory s t)
    ((s.bank k).softSpare row = none → (s.bank k).freeSpare = some sp → s.fuseCond k = false →
      ∃ t, exec (.repairFuse h) s = .next t ∧ bg t false ∧ t.banks = s.banks) ∧
    ((s.bank k).softSpare row = some sp → s.repairRuns (some h) = true → s.fuseCond k = true → (s.bank k).course = none → (s.bank k).owed < 8 →
      ∃ t, exec (.repairFuse h) s = .next t ∧ bg t true ∧ t.bank k = { s.bank k with hold := true } ∧ (t.chan (k / 16)).fprogHold = true ∧
        t.start.calib = { s.start.calib with pending := some (k, row, sp) }) := by
  intro k row bg
  have hpay := s.pay_begin h
  have hbody : (s.begin_ h).repairFuse h = ((s.begin_ h).fuseBegin (some h) k row).fuseIssue := by
    have := State.repairFuse_row (s := s.begin_ h) (h := h) (by rw [hpay]; exact hkind) (by rw [hpay]; exact hk) (by rw [hpay]; exact hrow) hno
    rw [hpay, hpay] at this
    exact this
  refine ⟨fun hsoft hfree hcond => ?_, fun hsoft hruns hcond hcourse howed => ?_⟩
  · have hbegin := State.fuseBegin_eq (s := s.begin_ h) (h := h) (.inr ⟨hsoft, hfree⟩)
    rw [hbegin, State.fuseIssue_waits (s := s.begin_ h) hno hcond] at hbody
    obtain ⟨hbg, hstate, hmem, hquiet, hans⟩ := State.runs_repair (body := fun s => s.repairFuse h) hturn hbody
      (sameMemory_of_stores rfl rfl rfl rfl) fun _ => rfl
    exact ⟨_, State.exec_repairFuse hturn, ⟨hbg, hstate, hmem, hquiet⟩, hans.banks⟩
  · have hbegin := State.fuseBegin_eq (s := s.begin_ h) (h := h) (.inl hsoft)
    rw [hbegin, State.fuseIssue_goes (s := s.begin_ h) hno hsoft hruns hcond hcourse howed] at hbody
    obtain ⟨bs, cs, fb, n, x, hsent, hcal, hbank, hheld⟩ := ((s.begin_ h).fusing h k row sp false).fuseSent_frame k row sp
    have hf : (s.begin_ h).fusing h k row sp false = { s with mbox := ((s.begin_ h).fusing h k row sp false).mbox } := rfl
    have hfbank : ((s.begin_ h).fusing h k row sp false).bank k = s.bank k := rfl
    have hfstart : ((s.begin_ h).fusing h k row sp false).start = s.start := rfl
    rw [hfbank] at hbank
    rw [hfstart] at hcal
    generalize ((s.begin_ h).fusing h k row sp false).fuseSent k row sp = v at hbody hsent hbank hheld
    generalize (s.begin_ h).fusing h k row sp false = f at hf hsent
    rw [hf] at hsent
    have hst : v.stack = s.stack ∧ v.bg = s.bg ∧ v.mortar = s.mortar ∧ v.hasps = s.hasps := by
      rw [hsent]
      exact ⟨rfl, rfl, rfl, rfl⟩
    obtain ⟨w, hw⟩ : ∃ w : State, w = { v with mbox := { (s.begin_ h).mbox with
      bg := (s.begin_ h).mbox.bg ++ [.repair (some h) true k row sp ((s.begin_ h).now + 100000000) true] } } := ⟨_, rfl⟩
    have hwst : w.stack = s.stack ∧ w.bg = s.bg ∧ w.mortar = s.mortar ∧ w.hasps = s.hasps := by rw [hw]; exact hst
    have hwhasp : ∀ j, w.hasp j = (s.begin_ h).hasp j := fun j => by rw [hw]; rfl
    have hwbg : w.mbox.bg = s.mbox.bg ++ [.repair (some h) true k row sp (s.now + 100000000) true] := by rw [hw]; rfl
    have hwbanks : w.banks = v.banks := by rw [hw]
    have hwchans : w.chans = v.chans := by rw [hw]
    have hwstart : w.start = v.start := by rw [hw]
    rw [← hw] at hbody
    clear hw
    obtain ⟨hbg, hstate, hmem, hquiet, hans⟩ := State.runs_repair (body := fun s => s.repairFuse h) hturn hbody
      (sameMemory_of_stores hwst.1 hwst.2.1 hwst.2.2.1 hwst.2.2.2) hwhasp
    refine ⟨_, State.exec_repairFuse hturn, ⟨hbg.trans hwbg, hstate, hmem, hquiet⟩, ?_, ?_, ?_⟩
    · rw [State.bank_congr (hans.banks.trans hwbanks), hbank]
    · rw [State.chan, hans.chans, hwchans]
      exact hheld
    · rw [hans.start, hwstart, hsent]
      exact hcal

/-- A lane's fuse is recorded at once (R471). -/
theorem repairFuse_lane_spec (hturn : s.turn h 0x12) (hkind : (s.hasp h).pay 0 1 = 1) (hc : (s.hasp h).pay 2 2 < 256)
    (hlane : (s.hasp h).pay 4 2 < 169) (hno : s.repairing = none) :
    ∃ t, exec (.repairFuse h) s = .next t ∧ t.done h .okay ∧ t.banks = s.banks ∧ t.mbox.bg = s.mbox.bg ∧ SameMemoryButHasp h s t ∧
      t.start.calib = { s.start.calib with tsv := s.start.calib.tsv ++ [((s.hasp h).pay 2 2, (s.hasp h).pay 4 2)] } := by
  have hpay := s.pay_begin h
  have hbody := State.repairFuse_lane (s := s.begin_ h) (h := h) (by rw [hpay]; exact hkind) (by rw [hpay]; exact hc) (by rw [hpay]; exact hlane) hno
  obtain ⟨v, hv⟩ : ∃ v : State, v = { s.begin_ h with start := { (s.begin_ h).start with calib := { (s.begin_ h).start.calib with
      tsv := (s.begin_ h).start.calib.tsv ++ [(((s.begin_ h).hasp h).pay 2 2, ((s.begin_ h).hasp h).pay 4 2)] } } } := ⟨_, rfl⟩
  rw [← hv] at hbody
  rw [hpay, hpay] at hv
  obtain ⟨cs, fb, n, hw⟩ := v.wroteRecord_frame
  generalize v.wroteRecord = w at hbody hw
  have hop : (s.hasp h).opcode = 0x12 := by
    have := hturn.2.1
    simp only [State.ready, Bool.and_eq_true, beq_iff_eq] at this
    exact this.1.1.2
  have hhasp : ∀ j, w.hasp j = (s.begin_ h).hasp j := fun j => by rw [hw, hv]; rfl
  obtain ⟨hdone, hbg, hmem, hans⟩ := State.ends_repair (w := w) (body := fun s => s.repairFuse h) hturn hbody
    (sameMemory_of_stores (by rw [hw, hv]; rfl) (by rw [hw, hv]; rfl) (by rw [hw, hv]; rfl) (by rw [hw, hv]; rfl)) hhasp (by decide)
    fun _ => by rw [hhasp, State.hasp_begin_self]; exact hop ▸ rfl
  refine ⟨_, State.exec_repairFuse hturn, hdone, hans.banks.trans ?_, hbg.trans ?_, hmem, ?_⟩
  · rw [hw, hv]; rfl
  · rw [hw, hv]; rfl
  · rw [hans.start, hw, hv]; rfl

/-! ### Fuses that end (R471, R447) -/

/-- A repair whose conditions were not met ends, or waits on. -/
theorem fuseTimeout_spec {t0 : Nat} {l : List Background} (hl : ∀ b ∈ l, b.isRepair = false)
    (hbg : s.mbox.bg = .repair (some h) true k row sp t0 false :: l) :
    (t0 ≤ s.now → s.repairRuns (some h) = true →
      ∃ u : State, exec .repairCondTimeout s = .next (u.releaseBank k) ∧ u.done h .repairCond ∧ u.mbox.bg = l ∧ u.banks = s.banks) ∧
    ((s.now < t0 ∨ s.repairRuns (some h) = false) → exec .repairCondTimeout s = .next s) := by
  have hrep := State.repairing_cons hbg rfl
  have heq : s.fuseTimeout = if (!s.repairRuns (some h) || decide (s.now < t0)) = true then s
      else (s.repairEnd (some h) .repairCond []).releaseBank k := by
    unfold State.fuseTimeout
    rw [hrep]
  refine ⟨fun hnow hruns => ?_, fun hno => congrArg Host.Outcome.next (heq.trans (if_pos ?_))⟩
  · have hgo := heq.trans (if_neg (by rw [hruns, decide_eq_false (Nat.not_lt.2 hnow)]; decide))
    obtain ⟨hdone, -, hans, -, hbg'⟩ := s.repairEnd_spec (h := h) (st := .repairCond) (bs := []) (by simp) nofun
    exact ⟨_, congrArg Host.Outcome.next hgo, hdone, by rw [hbg', hbg, filter_isRepair rfl hl], hans.banks⟩
  · obtain hn | hn := hno
    · rw [decide_eq_true hn, Bool.or_true]
    · rw [hn, Bool.not_false, Bool.true_or]

/-- The hold of a channel has ended, and its repair page has been read. -/
def State.fuseEnded (s : State) (k : Nat) : State :=
  (s.setChan (k / 16) { s.chan (k / 16) with fprogHold := false }).readRepairPage k

theorem State.fuseEnded_frame (s : State) (k : Nat) : ∃ cs, s.fuseEnded k = { s with chans := cs } ∧ ((s.fuseEnded k).chan (k / 16)).fprogHold = false := by
  have hr : State.Rests (s.setChan (k / 16) { s.chan (k / 16) with fprogHold := false }) (s.fuseEnded k) := by
    unfold State.fuseEnded State.readRepairPage State.idrLine
    exact State.sent_rests (F := Frame.least) (State.Rests.refl _)
  refine ⟨_, rfl, (hr.chan (k / 16)).2.2.trans ?_⟩
  rw [State.chan_setChan_self]

/-- What an issued fuse leaves once it has ended: the spare FUSED, or context 0 in FAULT. -/
def State.fuseDone (s : State) (k row sp : Nat) (refused : Bool) : State :=
  if refused then ((s.fuseEnded k).setBank k { (s.fuseEnded k).bank k with ctx := setAt ((s.fuseEnded k).bank k).ctx 0 .fault }).cstat k
  else (s.fuseEnded k).setBank k (((s.fuseEnded k).bank k).fuse row sp)

theorem State.fprogDone_eq {t0 : Nat} (hrep : s.repairing = some (.repair (some h) true k row sp t0 true)) (refused : Bool) :
    s.fprogDone refused = if (!s.fprogRuns (some h) || !(s.chan (k / 16)).fprogHold) = true then s
      else ((s.fuseDone k row sp refused).lateEntry k).fuseFinish := by
  unfold State.fprogDone
  rw [hrep]
  cases refused <;> rfl

theorem State.bank_fuseEnded (s : State) (j : Nat) : (s.fuseEnded k).bank j = s.bank j := rfl

theorem State.fuseDone_fused (s : State) (k row sp : Nat) : (s.fuseDone k row sp false).bank k = (s.bank k).fuse row sp :=
  State.bank_setBank_self _ _ _

/-- What an ended fuse leaves alone. -/
theorem State.fuseDone_keeps (s : State) (k row sp : Nat) (refused : Bool) :
    (s.fuseDone k row sp refused).mbox = s.mbox ∧ (s.fuseDone k row sp refused).plumb = s.plumb ∧ (s.fuseDone k row sp refused).dbg = s.dbg ∧
      (s.fuseDone k row sp refused).start = s.start ∧ (s.fuseDone k row sp refused).regs.stopped = s.regs.stopped ∧
      ((s.fuseDone k row sp refused).chan (k / 16)).fprogHold = false := by
  obtain ⟨cs, hf, hheld⟩ := s.fuseEnded_frame k
  unfold State.fuseDone
  cases refused with
  | false =>
    rw [if_neg Bool.false_ne_true]
    refine ⟨?_, ?_, ?_, ?_, ?_, hheld⟩
    all_goals
      rw [hf]
      rfl
  | true =>
    rw [if_pos rfl]
    generalize s.fuseEnded k = v at *
    have hs := State.sameButCounts_cstat (k := k) (.refl (v.setBank k { v.bank k with ctx := setAt (v.bank k).ctx 0 .fault }))
    have hr : State.Rests v ((v.setBank k { v.bank k with ctx := setAt (v.bank k).ctx 0 .fault }).cstat k) :=
      State.cstat_rests (State.setBank_rests (F := Frame.least) (State.Rests.refl v) (Bank.rests_mk _))
    generalize (v.setBank k { v.bank k with ctx := setAt (v.bank k).ctx 0 .fault }).cstat k = t at *
    refine ⟨?_, ?_, ?_, ?_, ?_, (hr.chan _).2.2.trans hheld⟩
    · rw [hs, hf]; rfl
    · rw [hs, hf]; rfl
    · rw [hs, hf]; rfl
    · rw [hs, hf]; rfl
    · rw [hr.regs.1, hf]

/-- A refused fuse leaves the bank's context 0 in FAULT. -/
theorem State.fuseDone_refused (s : State) (k row sp : Nat) : ((s.fuseDone k row sp true).bank k).fused = (s.bank k).fused ∧
    ((s.fuseDone k row sp true).bank k).ctx = setAt (s.bank k).ctx 0 .fault := by
  obtain ⟨x, hx⟩ := State.bank_cstat ((s.fuseEnded k).setBank k { (s.fuseEnded k).bank k with ctx := setAt ((s.fuseEnded k).bank k).ctx 0 .fault }) k
  rw [State.bank_setBank_self] at hx
  have hbank : (s.fuseDone k row sp true).bank k = _ := hx
  rw [hbank]
  exact ⟨rfl, rfl⟩

theorem State.repairing_congr (hm : t.mbox = s.mbox) : t.repairing = s.repairing := by rw [State.repairing, hm]; rfl

theorem State.repairRuns_congr (hs : t.start = s.start) (hd : t.dbg = s.dbg) (hp : t.plumb = s.plumb) (hr : t.regs.stopped = s.regs.stopped)
    (x : Option Nat) : t.repairRuns x = s.repairRuns x := by
  simp only [State.repairRuns, State.runs, State.serving, hs, hd, hp, hr]

theorem State.fullRefresh_frame (s : State) (k : Nat) : ∃ bs cs, s.fullRefresh k = { s with banks := bs, chans := cs } := by
  unfold State.fullRefresh
  split
  · exact ⟨_, _, rfl⟩
  · exact ⟨_, _, rfl⟩

theorem State.counted_readRow (s : State) (k row : Nat) (det : Bool) : s.Counted (s.readRow k row det) := by
  unfold State.readRow
  exact counted_foldl (State.counted_rowAccess (.refl s)) fun _ _ hu => State.counted_readPlace hu

/-- The row of a fused spare has been read back: the bank's spares and the holds stay, and so does the mailbox (R471). -/
theorem State.readBack_spec (s : State) (k row : Nat) (det : Bool) :
    ((s.fullRefresh k).readRow k row det).mbox = s.mbox ∧ ((s.fullRefresh k).readRow k row det).start = s.start ∧
      (∀ j, (s.bank j).Rests (((s.fullRefresh k).readRow k row det).bank j)) ∧
      ∀ c, (s.chan c).Rests (((s.fullRefresh k).readRow k row det).chan c) := by
  obtain ⟨bs, cs, hf⟩ := s.fullRefresh_frame k
  have hr : State.Rests s (s.fullRefresh k) := State.fullRefresh_rests (F := Frame.least) (State.Rests.refl s)
  have hc := (s.fullRefresh k).counted_readRow k row det
  generalize (s.fullRefresh k).readRow k row det = t at *
  generalize s.fullRefresh k = v at *
  refine ⟨?_, ?_, fun j => (hr.bank j).trans ?_, fun c => (hr.chan c).trans ?_⟩
  · rw [hc.same, hf]
  · rw [hc.same, hf]
  · have hb := hc.bank j
    rw [Bank.SameButCounts] at hb
    rw [hb]
    exact ⟨.inr rfl, fun _ => id, id, rfl, rfl⟩
  · have hb := hc.chan c
    rw [Channel.SameButCounts] at hb
    rw [hb]
    exact ⟨rfl, rfl, rfl⟩

/-- No repair is pending any more. -/
def State.noPending (s : State) : State := { s with start := { s.start with calib := { s.start.calib with pending := none } } }

/-- A fuse that has blown: the row is read back, and the command ends (R471). -/
theorem fuseFinish_okay {t0 : Nat} {l : List Background} (hbg : s.mbox.bg = .repair (some h) true k row sp t0 true :: l)
    (hl : ∀ b ∈ l, b.isRepair = false) (hruns : s.repairRuns (some h) = true) (hheld : (s.chan (k / 16)).fprogHold = false)
    (hfused : (row, sp) ∈ (s.bank k).fused) (hback : isBackground (s.hasp h).opcode = true) :
    ∃ u : State, s.fuseFinish = u.releaseBank k ∧ u.done h .okay ∧ (u.bank k).fused = (s.bank k).fused ∧ (u.bank k).soft = (s.bank k).soft ∧
      u.mbox.bg = l ∧ u.start.calib.pending = none ∧ (u.chan (k / 16)).fprogHold = false := by
  have hrep := State.repairing_cons hbg rfl
  obtain ⟨det, hdet⟩ : ∃ det, det = Region.policy (s.regionAtSlab row) := ⟨_, rfl⟩
  have heq : s.fuseFinish = ((((s.fullRefresh k).readRow k row det).noPending.noteCalib).repairEnd (some h) .okay
      (BitVec.ofNat 8 sp :: List.replicate 7 0)).releaseBank k := by
    unfold State.fuseFinish
    rw [hrep, hdet]
    refine (if_neg (by rw [hheld, hruns]; decide)).trans (if_pos ?_)
    rw [List.contains_iff_mem]
    exact hfused
  obtain ⟨hm, -, hbank, hchan⟩ := s.readBack_spec k row det
  generalize (s.fullRefresh k).readRow k row det = v at heq hm hbank hchan
  have hpend : v.noPending.start.calib.pending = none := rfl
  have hpm : v.noPending.mbox = s.mbox := hm
  have hpb : v.noPending.banks = v.banks := rfl
  have hpc : v.noPending.chans = v.chans := rfl
  generalize v.noPending = p at heq hpend hpm hpb hpc
  obtain ⟨cs, fb, n, x, hnote, hx, hheld'⟩ := p.noteCalib_frame
  generalize p.noteCalib = w at heq hnote hheld'
  have hwm : w.mbox = s.mbox := by rw [hnote, hpm]
  have hwb : w.banks = v.banks := by rw [hnote, hpb]
  have hws : w.start.calib.pending = none := by rw [hnote, ← hpend, ← hx]
  obtain ⟨hdone, -, hans, -, hbg'⟩ := w.repairEnd_spec (h := h) (st := .okay) (bs := BitVec.ofNat 8 sp :: List.replicate 7 0) (by simp)
    fun _ => by rw [State.hasp, hwm]; exact hback
  generalize w.repairEnd (some h) .okay (BitVec.ofNat 8 sp :: List.replicate 7 0) = u at heq hdone hans hbg'
  have hub := State.bank_congr (hans.banks.trans hwb) k
  refine ⟨u, heq, hdone, by rw [hub]; exact (hbank k).fused, by rw [hub]; exact (hbank k).soft, ?_, by rw [hans.start, hws], ?_⟩
  · rw [hbg', hwm, hbg, filter_isRepair rfl hl]
  · have huc : u.chan (k / 16) = w.chan (k / 16) := by rw [State.chan, hans.chans]; rfl
    have hpc' : p.chan (k / 16) = v.chan (k / 16) := by rw [State.chan, hpc]; rfl
    rw [huc, hheld', hpc', (hchan _).2.2, hheld]

/-- A fuse that the stack refused ends with REPAIR_FAULT (R471). -/
theorem fuseFinish_fault {t0 : Nat} {l : List Background} (hbg : s.mbox.bg = .repair (some h) true k row sp t0 true :: l)
    (hl : ∀ b ∈ l, b.isRepair = false) (hruns : s.repairRuns (some h) = true) (hheld : (s.chan (k / 16)).fprogHold = false)
    (hfused : (row, sp) ∉ (s.bank k).fused) :
    ∃ u : State, s.fuseFinish = u.releaseBank k ∧ u.done h .repairFault ∧ u.banks = s.banks ∧ u.mbox.bg = l ∧ u.start.calib.pending = none := by
  have hrep := State.repairing_cons hbg rfl
  have heq : s.fuseFinish = (({ s.wroteRecord with start := s.noPending.start } : State).repairEnd (some h) .repairFault []).releaseBank k := by
    unfold State.fuseFinish
    rw [hrep]
    refine (if_neg (by rw [hheld, hruns]; decide)).trans ((if_neg ?_).trans rfl)
    rw [List.contains_iff_mem]
    exact hfused
  obtain ⟨cs, fb, n, hw⟩ := s.wroteRecord_frame
  rw [hw] at heq
  generalize hv : ({ s with chans := cs, frameBase := fb, dbWords := [], free := n, start := s.noPending.start } : State) = v at heq
  obtain ⟨hdone, -, hans, -, hbg'⟩ := v.repairEnd_spec (h := h) (st := .repairFault) (bs := []) (by simp) nofun
  have hvb : v.banks = s.banks := by rw [← hv]
  have hvm : v.mbox = s.mbox := by rw [← hv]
  have hvs : v.start.calib.pending = none := by rw [← hv]; rfl
  exact ⟨_, heq, hdone, hans.banks.trans hvb, by rw [hbg', hvm, hbg, filter_isRepair rfl hl], by rw [hans.start, hvs]⟩

/-! ### A fuse that ends in emergency self-refresh (R447) -/

/-- The background, the emergency, the fused spares and the fuse holds stay. -/
structure State.KeepsFuses (s t : State) : Prop where
  bg : t.mbox.bg = s.mbox.bg
  esr : t.plumb.esr = s.plumb.esr
  fused : ∀ k, (t.bank k).fused = (s.bank k).fused
  held : ∀ c, (t.chan c).fprogHold = (s.chan c).fprogHold

def Frame.fuses : EngineFrame where
  rel := State.KeepsFuses
  trans h h' := ⟨h'.bg.trans h.bg, h'.esr.trans h.esr, fun k => (h'.fused k).trans (h.fused k), fun c => (h'.held c).trans (h.held c)⟩
  rests h := ⟨h.bg, by rw [h.plumb], fun k => (h.bank k).fused, fun c => (h.chan c).2.2⟩
  enqueue _ := by
    refine ⟨rfl, rfl, fun i => ?_, fun _ => rfl⟩
    rw [State.bank_setBank]
    split
    · next hi => rw [hi]
    · rfl

theorem State.keepsFuses_srefChan {s₀ : State} (hk : Frame.fuses.rel s₀ s) (c : Nat) : Frame.fuses.rel s₀ (s.srefChan c) := by
  have hpay (u : State) (j : Nat) (hu : Frame.fuses.rel s₀ u) : Frame.fuses.rel s₀ (u.payRefresh j) := by
    unfold State.payRefresh
    dsimp only
    refine Frame.ite hu (Frame.foldl (State.setBank_rests hu (Bank.rests_mk _)) fun _ v hv => State.sent_rests hv)
  unfold State.srefChan
  refine Frame.ite hk ?_
  have hall : Frame.fuses.rel s₀ ((List.range 16).foldl (fun s b => s.payRefresh (16 * c + b)) s) := Frame.foldl hk fun b u hu => hpay u _ hu
  generalize (List.range 16).foldl (fun s b => s.payRefresh (16 * c + b)) s = v at hall
  refine State.sent_rests (Frame.fuses.trans hall ⟨rfl, rfl, fun _ => rfl, fun i => ?_⟩)
  rw [State.chan_setChan]
  split
  · next hi => rw [hi]
  · rfl

theorem State.keepsFuses_lateSref (s : State) (c k : Nat) (hesr : s.plumb.esr = true) : s.KeepsFuses (s.lateSref c k) := by
  have htakes : s.serveTakes k = s := if_pos (by unfold State.bankHeld; dsimp only; rw [hesr]; simp only [Bool.true_or])
  unfold State.lateSref
  rw [htakes]
  unfold State.emptyContexts
  have hsave : Frame.fuses.rel s ((((s.lintelForce).endWrites writeFuel).saveRing k).saveBank k) :=
    State.saveBank_rests (State.saveRing_rests (State.endWrites_rests (State.lintelForce_rests (Frame.refl s))))
  refine Frame.foldl (Frame.foldl hsave fun c u hu => State.keepsFuses_srefChan hu c) fun k u hu => ?_
  refine Frame.ite hu (State.setBank_rests hu ⟨.inl rfl, fun _ => id, id, rfl, rfl⟩)

theorem State.fuseFinish_esr (h : s.plumb.esr = true) {hasp : Nat} {t0 : Nat} {l : List Background}
    (hbg : s.mbox.bg = .repair (some hasp) true k row sp t0 true :: l) : s.fuseFinish = s := by
  have hrep := State.repairing_cons hbg rfl
  unfold State.fuseFinish
  rw [hrep]
  refine if_pos ?_
  have hno : s.repairRuns (some hasp) = false := by simp [State.repairRuns, h]
  rw [hno, Bool.not_false, Bool.or_true]

end Sys2Proof.Machine

open Sys2Proof Sys2Proof.Machine

/-- Settles O51: soft repairs from their begin to their end, and fuses through their conditions, their hold and their two outcomes. -/
theorem repairsMapAndFuseSpares : Obligations.RepairsMapAndFuseSpares := by
  unfold Obligations.RepairsMapAndFuseSpares
  refine ⟨?_, ?_, ?_, ?_, ?_⟩
  · exact fun s h sp hturn hk hrow hno => repairSoft_spec hturn hk hrow hno
  · exact fun s h k row sp t0 issued l hruns _ _ hback hbg hcourse howed hl => softDone_spec hruns hback hbg hcourse howed hl
  · exact fun s h sp hturn hkind hk hrow hno => repairFuse_row_spec hturn hkind hk hrow hno
  · exact fun s h hturn hkind hc hlane hno => repairFuse_lane_spec hturn hkind hc hlane hno
  · intro s h k row sp t0 l _ _ hl
    refine ⟨fun hbg => fuseTimeout_spec hl hbg, fun hbg => ⟨fun hno => ?_, fun hheld hruns hesr => ?_⟩, fun hbg hruns hback hheld => ?_⟩
    · have heq (b : Bool) : s.fprogDone b = s := by
        rw [State.fprogDone_eq (State.repairing_cons hbg rfl), hno]
        exact if_pos (by rw [Bool.not_false, Bool.or_true])
      exact ⟨congrArg Host.Outcome.next (heq false), congrArg Host.Outcome.next (heq true)⟩
    · have heq : s.fprogDone false = ((s.fuseDone k row sp false).lateEntry k).fuseFinish := by
        rw [State.fprogDone_eq (State.repairing_cons hbg rfl), hruns, hheld]
        exact if_neg (by decide)
      obtain ⟨hm, hp, -, -, -, hend⟩ := s.fuseDone_keeps k row sp false
      have hfused : ((s.fuseDone k row sp false).bank k).fused = (s.bank k).fused ++ [(row, sp)] := by
        rw [State.fuseDone_fused]
        rfl
      generalize s.fuseDone k row sp false = v at heq hm hp hend hfused
      have hve : v.plumb.esr = true := by rw [hp]; exact hesr
      have hlate : v.lateEntry k = v.lateSref (k / 16) k := if_pos hve
      have hkf := v.keepsFuses_lateSref (k / 16) k hve
      rw [hlate] at heq
      generalize v.lateSref (k / 16) k = w at heq hkf
      have hwbg : w.mbox.bg = s.mbox.bg := by rw [hkf.bg, hm]
      rw [State.fuseFinish_esr (hkf.esr.trans hve) (hwbg.trans hbg)] at heq
      exact ⟨w, congrArg Host.Outcome.next heq, by rw [hkf.fused, hfused]; simp, (hkf.held _).trans hend, hwbg⟩
    · have hesr : s.plumb.esr = false := by
        simp only [State.repairRuns, Bool.and_eq_true, Bool.not_eq_true'] at hruns
        exact hruns.2.2
      have hruns' : s.fprogRuns (some h) = true := by
        refine Eq.trans ?_ hruns
        unfold State.fprogRuns State.repairRuns
        dsimp only
        rw [hesr]
        rfl
      have heq (b : Bool) : s.fprogDone b = ((s.fuseDone k row sp b).lateEntry k).fuseFinish := by
        rw [State.fprogDone_eq (State.repairing_cons hbg rfl), hruns', hheld]
        exact if_neg (by decide)
      have hv (b : Bool) : (s.fuseDone k row sp b).lateEntry k = s.fuseDone k row sp b ∧ (s.fuseDone k row sp b).mbox.bg = s.mbox.bg ∧
          (s.fuseDone k row sp b).repairRuns (some h) = true ∧ ((s.fuseDone k row sp b).chan (k / 16)).fprogHold = false ∧
          isBackground ((s.fuseDone k row sp b).hasp h).opcode = true := by
        obtain ⟨hm, hp, hd, hs, hr, hend⟩ := s.fuseDone_keeps k row sp b
        exact ⟨if_neg (by rw [hp, hesr]; exact Bool.false_ne_true), by rw [hm], (State.repairRuns_congr hs hd hp hr _).trans hruns, hend,
          by rw [State.hasp, hm]; exact hback⟩
      refine ⟨?_, fun hnot => ?_⟩
      · obtain ⟨hlate, hvbg, hvruns, hvheld, hvback⟩ := hv false
        have hvbank := s.fuseDone_fused k row sp
        have heq := heq false
        rw [hlate] at heq
        generalize s.fuseDone k row sp false = v at heq hvbg hvruns hvheld hvback hvbank
        have hin : (row, sp) ∈ (v.bank k).fused := by rw [hvbank, Bank.fuse]; simp
        obtain ⟨u, hu, hdone, hfused, hsoft, hubg, hpend, huheld⟩ := fuseFinish_okay (hvbg.trans hbg) hl hvruns hvheld hin hvback
        refine ⟨u, congrArg Host.Outcome.next (heq.trans hu), hdone, hfused ▸ hin, fun e he => ?_, hubg, hpend, huheld⟩
        rw [hsoft, hvbank] at he
        exact bne_iff_ne.1 (List.mem_filter.1 he).2
      · obtain ⟨hlate, hvbg, hvruns, hvheld, -⟩ := hv true
        obtain ⟨hfused, hctx⟩ := s.fuseDone_refused k row sp
        have heq := heq true
        rw [hlate] at heq
        generalize s.fuseDone k row sp true = v at heq hvbg hvruns hvheld hfused hctx
        obtain ⟨u, hu, hdone, hub, hubg, hpend⟩ := fuseFinish_fault (hvbg.trans hbg) hl hvruns hvheld (by rw [hfused]; exact hnot)
        refine ⟨u, congrArg Host.Outcome.next (heq.trans hu), hdone, ?_, ?_, hubg, hpend⟩
        · rw [State.bank_congr hub, hfused]
        · rw [State.bank_congr hub, hctx]

end


section

/-!
SUPPORT. What the beds of a course leave alone (R112, R195, R387): all that rests, but the slates, which a reduction writes.
-/

namespace Sys2Proof.Machine

set_option Elab.async false

/-- A relation that holds as well where the slates change. -/
structure UnitFrame extends EngineFrame where
  slates : ∀ {s : State} (x : Sparse (Option SlateTag)), rel s { s with slates := x }

/-- Either way out of a branch with a second result. -/
theorem Frame.ite_fst {F : Frame} {α : Type} {p : Prop} [Decidable p] {s : State} {a b : State × α} (ha : F.rel s a.1) (hb : F.rel s b.1) :
    F.rel s (if p then a else b).1 := by split <;> assumption

variable {F : Frame} {E : EngineFrame} {U : UnitFrame}

@[mono] theorem State.setSlateTag_rests {s₀ s : State} {n x} (hk : U.rel s₀ s) : U.rel s₀ (s.setSlateTag n x) := U.trans hk (U.slates _)

@[mono] theorem State.ksAccess_rests {s₀ s : State} {plan cost task} (hk : E.rel s₀ s) : E.rel s₀ (s.ksAccess plan cost task).1 := by
  unfold State.ksAccess
  mono

@[mono] theorem State.ringAccount_rests {s₀ s : State} {k a n} (hk : F.rel s₀ s) : F.rel s₀ (s.ringAccount k a n) := by
  unfold State.ringAccount
  mono <;> intros <;> mono

@[mono] theorem State.ringFlush_rests {s₀ s : State} {k m f ops fresh} (hk : F.rel s₀ s) : F.rel s₀ (s.ringFlush k m f ops fresh).1 := by
  unfold State.ringFlush
  mono

@[mono] theorem State.slatePut_rests {s₀ s : State} {n row i c} (hk : U.rel s₀ s) : U.rel s₀ (s.slatePut n row i c) := by
  unfold State.slatePut
  mono

@[mono] theorem State.unitElementwise_rests {s₀ s : State} {k d f} (hk : U.rel s₀ s) : U.rel s₀ (s.unitElementwise k d f).1 := by
  unfold State.unitElementwise
  mono

@[mono] theorem State.unitSlateCopy_rests {s₀ s : State} {k d f} (hk : U.rel s₀ s) : U.rel s₀ (s.unitSlateCopy k d f).1 := by
  obtain ⟨put, hput⟩ : ∃ put, put = State.ringPut := ⟨_, rfl⟩
  unfold State.unitSlateCopy
  rw [← hput]
  split
  · exact hk
  · dsimp only
    mono

@[mono] theorem State.unitReduce_rests {s₀ s : State} {k d f} (hk : U.rel s₀ s) : U.rel s₀ (s.unitReduce k d f).1 := by
  unfold State.unitReduce
  dsimp only
  (repeat' split) <;> mono

@[mono] theorem State.normRow_rests {s₀ s : State} {k d f bs short bad} (hk : U.rel s₀ s) :
    U.rel s₀ (s.normRow k d f bs short bad).1 := by
  have h : ∀ x : InFlight, U.rel s₀ (s.setRing k ((s.ring k).set short false), x).1 := fun _ => State.setRing_rests hk
  exact h _

@[mono] theorem State.unitRow_rests {s₀ s : State} {k d f} (hk : U.rel s₀ s) : U.rel s₀ (s.unitRow k d f).1 := by
  unfold State.unitRow
  refine Frame.ite_fst ?_ ?_
  · refine Frame.ite_fst (State.ringAccount_rests hk) ?_
    exact Frame.ite (State.ringAccount_rests (State.ringAccount_rests hk)) (State.ringAccount_rests hk)
  · refine State.ringFlush_rests ?_
    exact Frame.ite (State.ringAccount_rests (Frame.ite (State.ringAccount_rests (State.ringAccount_rests hk)) (State.ringAccount_rests hk)))
      (Frame.ite (State.ringAccount_rests (State.ringAccount_rests hk)) (State.ringAccount_rests hk))

@[mono] theorem State.unitNorm_rests {s₀ s : State} {k d f} (hk : U.rel s₀ s) : U.rel s₀ (s.unitNorm k d f).1 := by
  unfold State.unitNorm
  dsimp only
  (repeat' split) <;> mono

@[mono] theorem State.gemvRow_rests {s₀ s : State} {k d f vec vbad} (hk : U.rel s₀ s) : U.rel s₀ (s.gemvRow k d f vec vbad).1 := by
  unfold State.gemvRow
  mono <;> intros <;> mono

@[mono] theorem State.unitGemv_rests {s₀ s : State} {k d f} (hk : U.rel s₀ s) : U.rel s₀ (s.unitGemv k d f).1 := by
  unfold State.unitGemv
  split <;> mono

@[mono] theorem State.ringUnit_rests {s₀ s : State} {k f} (hk : U.rel s₀ s) : U.rel s₀ (s.ringUnit k f).1 := by
  unfold State.ringUnit
  dsimp only
  (repeat' split) <;> mono

@[mono] theorem State.ringWork_rests {s₀ s : State} {k i n} (hk : U.rel s₀ s) : U.rel s₀ (s.ringWork k i n) := by
  induction n generalizing s with
  | zero => exact hk
  | succ n ih =>
    unfold State.ringWork
    split
    · exact hk
    · next f _ => exact ih (State.setRing_rests (State.ringUnit_rests (k := k) (f := f) hk))

@[mono] theorem State.endCourse_rests {s₀ s : State} {k} (hk : F.rel s₀ s) : F.rel s₀ (s.endCourse k) := by
  unfold State.endCourse
  dsimp only
  split
  · exact hk
  · exact State.cstat_rests (State.sent_rests (State.setBank_rests hk ⟨.inl rfl, fun _ => id, id, rfl, rfl⟩))

@[mono] theorem State.weightsOut_rests {s₀ s : State} {k c line last} (hk : E.rel s₀ s) : E.rel s₀ (s.weightsOut k c line last) := by
  unfold State.weightsOut
  split <;> mono

@[mono] theorem State.updBed_rests {s₀ s : State} {k work} (hk : E.rel s₀ s) : E.rel s₀ (s.updBed k work) := by
  unfold State.updBed
  split <;> mono

@[mono] theorem State.bedWork_rests {s₀ s : State} {k ctx work} (hk : U.rel s₀ s) : U.rel s₀ (s.bedWork k ctx work) := by
  unfold State.bedWork
  dsimp only
  (repeat' split) <;> mono

@[mono] theorem State.lastBed_rests {s₀ s : State} {k} (hk : U.rel s₀ s) : U.rel s₀ (s.lastBed k) := by
  unfold State.lastBed
  split <;> mono <;> exact Frame.lit hk

@[mono] theorem State.endCourses_rests {s₀ s : State} (hk : U.rel s₀ s) : U.rel s₀ s.endCourses := by
  unfold State.endCourses
  mono <;> intros <;> mono

@[mono] theorem State.endBankWork_rests {s₀ s : State} (hk : U.rel s₀ s) : U.rel s₀ s.endBankWork := by
  unfold State.endBankWork
  refine Frame.foldl (State.endCourses_rests hk) fun k u hu => ?_
  exact State.setBank_rests hu ⟨.inr rfl, fun _ => id, fun h => absurd h Bool.false_ne_true, rfl, rfl⟩
end Sys2Proof.Machine

end


section

/-!
PROOF. The tick edge (O34): the debt of the tick that ends is paid in whole lines, the tick's energy leaves the bucket, and the next tick
starts with its tiers and budgets in force.
-/

namespace Sys2Proof.Machine

set_option Elab.async false

variable {F : Frame} {E : EngineFrame}

/-! ### What the payment leaves alone (R437) -/

@[mono] theorem State.mapItems_rests {s₀ s : State} {f} (hk : F.rel s₀ s) : F.rel s₀ (s.mapItems f) := Frame.lit hk

@[mono] theorem State.itemIssue_rests {s₀ s : State} {i} (hk : E.rel s₀ s) : E.rel s₀ (s.itemIssue i) := by
  unfold State.itemIssue
  mono

/-- A line that the engine moves takes nothing that waits at a port along: its row access is for it alone. -/
@[mono] theorem State.bankAccess_line_rests {s₀ s : State} {k ks off words n} (hk : E.rel s₀ s) :
    E.rel s₀ (s.bankAccess k (.line ks off words n)) := by
  unfold State.bankAccess
  refine Frame.ite (E.trans hk (E.enqueue rfl)) ?_
  have hwrite : ∀ u : State, E.rel s₀ u → E.rel s₀ (u.serveAccess k (.line ks off words n)) := fun u hu => by
    unfold State.serveAccess
    dsimp only
    split <;> mono
  have hrow : ∀ (cs : List Column) (u : State), E.rel s₀ u → E.rel s₀ (if cs.isEmpty then u else u.rowAccess k (s.accessLoc (.line ks off words n)).row cs) :=
    fun cs u hu => Frame.ite hu (State.rowAccess_rests hu)
  exact hwrite _ (hrow _ _ (Frame.ite (State.setChan_rests hk ⟨rfl, rfl, rfl⟩) hk))

@[mono] theorem State.putImageLine_rests {s₀ s : State} {r off bs} (hk : E.rel s₀ s) : E.rel s₀ (s.putImageLine r off bs) :=
  State.bump_rests (State.bankAccess_line_rests hk)

@[mono] theorem State.linesOut_rests {s₀ s : State} {first last} (hk : E.rel s₀ s) : E.rel s₀ (s.linesOut first last) := by
  unfold State.linesOut
  split
  · exact Frame.foldl (State.accountWords_rests hk) fun _ _ hu => State.putImageLine_rests hu
  · exact hk

@[mono] theorem State.exportMove_rests {s₀ s : State} {first last} (hk : E.rel s₀ s) : E.rel s₀ (s.exportMove first last) := by
  unfold State.exportMove
  refine Frame.ite hk ?_
  split
  · dsimp only
    mono
  · exact hk

@[mono] theorem State.showExport_rests {s₀ s : State} (hk : F.rel s₀ s) : F.rel s₀ s.showExport := by
  unfold State.showExport
  split <;> mono

@[mono] theorem State.payMoves_rests {s₀ s : State} {n} (hk : E.rel s₀ s) : E.rel s₀ (s.payMoves n) := by
  have hdebt : E.rel s₀ { s with ctl := { s.ctl with debt := s.ctl.debt - n } } := Frame.lit hk
  unfold State.payMoves
  dsimp only
  split
  · exact State.showExport_rests (State.exportMove_rests hdebt)
  · exact hdebt

@[mono] theorem State.payDebt_rests {s₀ s : State} (hk : E.rel s₀ s) : E.rel s₀ s.payDebt := by
  unfold State.payDebt
  refine Frame.ite hk ?_
  dsimp only
  mono <;> intros <;> mono

/-- The end of the tick finds its clock, its settings, the patrol's interval and the identity page as they were. -/
structure State.TickGoesOn (s t : State) : Prop where
  clk : t.clk = s.clk
  mode : t.start.mode = s.start.mode
  plumb : t.plumb = { s.plumb with ksUsed := t.plumb.ksUsed, ksParams := t.plumb.ksParams, fbBeats := t.plumb.fbBeats }
  scrub : t.regs.scrubInt = s.regs.scrubInt
  page : t.idPage = s.idPage ∧ t.idSyn = s.idSyn

theorem State.TickGoesOn.trans {s t u : State} (h : s.TickGoesOn t) (h' : t.TickGoesOn u) : s.TickGoesOn u where
  clk := h'.clk.trans h.clk
  mode := h'.mode.trans h.mode
  plumb := by rw [h'.plumb, h.plumb]
  scrub := h'.scrub.trans h.scrub
  page := ⟨h'.page.1.trans h.page.1, h'.page.2.trans h.page.2⟩

/-- Its frame: an access of the engine that comes to wait changes none of it. -/
def EngineFrame.tick : EngineFrame where
  rel := State.TickGoesOn
  trans := State.TickGoesOn.trans
  rests h := ⟨h.clk, (congrArg Start.mode h.start).trans rfl, h.plumb, h.regs.2.1, h.page⟩
  enqueue _ := ⟨rfl, rfl, rfl, rfl, ⟨rfl, rfl⟩⟩

theorem State.payDebt_goesOn (s : State) : s.TickGoesOn s.payDebt := State.payDebt_rests (E := .tick) ⟨rfl, rfl, rfl, rfl, ⟨rfl, rfl⟩⟩

/-! ### The lines of a running export (R484) -/

/-- With no item of the engine waiting, only the debt of an export is paid. -/
theorem State.payDebt_of_no_items {s : State} (h : s.ctl.items = []) :
    s.payDebt =
      if !s.leavesRun || !s.runs 1 || s.plumb.esr then s
      else if min s.ctl.debt (s.ksRest / 8 * 8) = 0 || !s.debtRuns then s
      else (s.ksSpend (min s.ctl.debt (s.ksRest / 8 * 8))).payMoves (min s.ctl.debt (s.ksRest / 8 * 8)) := by
  have hsame : ((s.ksSpend (s.ksRest - s.ksRest)).countParams 0).mapItems (fun _ => []) = s := by
    rw [Nat.sub_self]
    show ({ s with ctl := { s.ctl with items := [] } } : State) = s
    rw [← h]
  unfold State.payDebt
  rw [h]
  simp only [payItems, hsame]
  rw [h]
  rfl

theorem State.ksRest_of_not_leavesRun {s : State} (h : s.leavesRun = false) : s.ksRest = 0 := by
  rw [State.ksRest, h]
  rfl

/-- A debt that may not be paid, or for which nothing is left, leaves the state as it is. -/
theorem State.payDebt_of_waits {s : State} (h : s.ctl.items = [])
    (hw : min s.ctl.debt (s.ksRest / 8 * 8) = 0 ∨ s.debtRuns = false ∨ s.runs 1 = false ∨ s.plumb.esr = true) : s.payDebt = s := by
  rw [State.payDebt_of_no_items h]
  rcases hw with hw | hw | hw | hw <;> simp [hw]

/-- What is left of the tick's sectors moves the export's next lines, and PROGRESS follows. -/
theorem State.payDebt_of_export {s : State} {x : ExportJob} (h : s.ctl.items = []) (hn : min s.ctl.debt (s.ksRest / 8 * 8) ≠ 0)
    (hd : s.debtRuns = true) (hr : s.runs 1 = true) (he : s.plumb.esr = false) (hx : s.export? = some x) :
    s.payDebt = ((({ s with
        ctl := { s.ctl with debt := s.ctl.debt - min s.ctl.debt (s.ksRest / 8 * 8) },
        plumb := { s.plumb with ksUsed := s.plumb.ksUsed + min s.ctl.debt (s.ksRest / 8 * 8) } } : State).exportMove (s.linesMoved x s.ctl.debt)
      (s.linesMoved x (s.ctl.debt - min s.ctl.debt (s.ksRest / 8 * 8)))).showExport) := by
  have hl : s.leavesRun = true := by
    cases hl : s.leavesRun with
    | true => rfl
    | false => simp [State.ksRest_of_not_leavesRun hl] at hn
  rw [State.payDebt_of_no_items h, if_neg (by simp [hl, hr, he]), if_neg (by simp only [hd, Bool.not_true, Bool.or_false, decide_eq_true_eq]; exact hn)]
  generalize min s.ctl.debt (s.ksRest / 8 * 8) = n
  unfold State.payMoves
  have hx' : ({ s.ksSpend n with ctl := { (s.ksSpend n).ctl with debt := (s.ksSpend n).ctl.debt - n } } : State).export? = some x := hx
  simp only [hx']
  rfl

/-! ### The edge -/

/-- Changing each of the first n dies changes those alone. -/
theorem State.die_foldl_setDie (f : Die → Die) (s : State) (n i : Nat) :
    ((List.range n).foldl (fun s d => s.setDie d (f (s.die d))) s).die i = if i < n then f (s.die i) else s.die i := by
  induction n with
  | zero => rfl
  | succ n ih =>
    rw [List.range_succ, List.foldl_append]
    show (State.setDie _ n _).die i = _
    rw [State.die_setDie]
    by_cases hi : i = n
    · subst hi
      simp [ih]
    · rw [if_neg hi, ih]
      exact if_congr (by omega) rfl rfl

/-- The die as a new tick finds it: the tier that was decided is in force. -/
def Die.edge (d : Die) : Die :=
  { d with tier := d.nextTier, below := if d.nextTier = d.tier && d.read then d.below else 0, read := false, act := 0,
           actHist := (d.act :: d.actHist).take 500 }

theorem State.edgeDies_eq (s : State) : s.edgeDies = (List.range 16).foldl (fun s d => s.setDie d (s.die d).edge) s := by
  unfold State.edgeDies
  generalize List.range 16 = l
  rfl

theorem State.edgeDies_frame (s : State) : ∃ ds, s.edgeDies = { s with dies := ds } ∧
    ∀ d, d < 16 → (({ s with dies := ds } : State).die d).tier = (s.die d).nextTier := by
  have heq := State.sameButDies_foldl_setDie (fun s d => (s.die d).edge) (List.range 16) s
  have hdie := State.die_foldl_setDie Die.edge s 16
  rw [← State.edgeDies_eq] at heq hdie
  generalize s.edgeDies = e at heq hdie
  refine ⟨e.dies, heq, fun d hd => ?_⟩
  have htier := congrArg Die.tier ((hdie d).trans (if_pos hd))
  exact htier

/-- Every bank may have two REFpb again: of the banks in a list, nothing else of what is owed and waits changes. -/
theorem State.freshBanks_frame (s : State) (l : List Nat) (hl : ∀ k, k ∈ l ∨ (s.bank k).refs = 0) :
    ∃ bs, l.foldl (fun s k => s.setBank k { s.bank k with refs := 0, barred := false, busyTo := 0 }) s = { s with banks := bs } ∧
      ∀ k, (({ s with banks := bs } : State).bank k).refs = 0 ∧ (({ s with banks := bs } : State).bank k).owed = (s.bank k).owed ∧
        (({ s with banks := bs } : State).bank k).queue = (s.bank k).queue := by
  induction l generalizing s with
  | nil => exact ⟨s.banks, rfl, fun k => ⟨(hl k).elim (fun h => absurd h List.not_mem_nil) id, rfl, rfl⟩⟩
  | cons j l ih =>
    obtain ⟨bs, heq, hb⟩ := ih (s.setBank j { s.bank j with refs := 0, barred := false, busyTo := 0 }) fun k => by
      rw [State.bank_setBank]
      split
      · exact .inr rfl
      · next hk => exact (hl k).imp_left fun hm => (List.mem_cons.1 hm).resolve_left hk
    refine ⟨bs, heq, fun k => ?_⟩
    obtain ⟨hr, ho, hq⟩ := hb k
    refine ⟨hr, ho.trans ?_, hq.trans ?_⟩ <;>
    · rw [State.bank_setBank]
      split
      · next hk => exact hk ▸ rfl
      · rfl

theorem State.zeroUse_frame (s : State) : ∃ cs, s.zeroUse =
    { s with chans := cs, plumb := { s.plumb with ksUsed := 0, ksParams := 0, ptBeats := 0, fbBeats := 0 } } := by
  have h := State.sameButChans_foldl_setChan (fun s c => { s.chan c with counts := .zero }) (s.chans.map (·.1)) s
  unfold State.zeroUse
  rw [h]
  exact ⟨_, rfl⟩

theorem State.edgeCounts_frame (s : State) : ∃ bs cs, s.edgeCounts =
      { s with banks := bs, chans := cs, plumb := { s.plumb with ksUsed := 0, ksParams := 0, ptBeats := 0, fbBeats := 0 } } ∧
    ∀ k, (({ s with banks := bs } : State).bank k).refs = 0 ∧ (({ s with banks := bs } : State).bank k).owed = (s.bank k).owed ∧
      (({ s with banks := bs } : State).bank k).queue = (s.bank k).queue := by
  obtain ⟨bs, heq, hb⟩ := s.freshBanks_frame (s.banks.map (·.1)) fun k => or_iff_not_imp_left.2 fun h => congrArg Bank.refs (Sparse.get_of_not_mem h)
  unfold State.edgeCounts
  rw [heq]
  dsimp only
  rw [State.sameButChans_foldl_setChan (fun s c => { s.chan c with begun := [] })]
  generalize State.chans (List.foldl _ _ _) = cs
  obtain ⟨cs', hz⟩ := State.zeroUse_frame { s with banks := bs, chans := cs }
  exact ⟨bs, cs', hz, hb⟩

/-- The edge up to its windows: the next tick's number, tiers, counts and patrol interval. -/
def State.edge (s : State) : State :=
  let t := ((s.nextTick.edgeDies).edgeCounts).edgeScrub
  t.closeCeWindow t.clk.tick.toNat

/-- u is a state at the start of the tick after s: time, tiers, the right to two REFpb and the patrol's interval move on, and what is stored,
owed and waiting, the steps and the start stay. -/
structure State.NextOf (s u : State) : Prop where
  clk : u.clk = { s.clk with tick := s.clk.tick + 1, phase := 0, openPhase := false }
  tier : ∀ d, d < 16 → (u.die d).tier = (s.die d).nextTier
  bank : ∀ k, (u.bank k).refs = 0 ∧ (u.bank k).owed = (s.bank k).owed ∧ (u.bank k).queue = (s.bank k).queue
  memory : SameMemory s u
  steps : u.ctl = s.ctl
  start : u.start = s.start
  scrub : u.regs.scrubOn = s.regs.scrubInt
  page : u.idPage = s.idPage ∧ u.idSyn = s.idSyn

/-- What is charged against the bucket, and what a charge reads, are the same in p and q. -/
structure Plumb.SameBucket (p q : Plumb) : Prop where
  watts : q.watts = p.watts ∧ q.wattsOn = p.wattsOn
  caps : q.caps = p.caps ∧ q.capsOn = p.capsOn ∧ q.capLvl = p.capLvl
  level : q.level = p.level
  last : q.hostLast = p.hostLast
  samples : q.samples = p.samples

theorem Plumb.SameBucket.trans {p q r : Plumb} (h : p.SameBucket q) (h' : q.SameBucket r) : p.SameBucket r where
  watts := ⟨h'.watts.1.trans h.watts.1, h'.watts.2.trans h.watts.2⟩
  caps := ⟨h'.caps.1.trans h.caps.1, h'.caps.2.1.trans h.caps.2.1, h'.caps.2.2.trans h.caps.2.2⟩
  level := h'.level.trans h.level
  last := h'.last.trans h.last
  samples := h'.samples.trans h.samples

theorem State.closeCeWindow_frame (s : State) (n : Nat) : ∃ w f, s.closeCeWindow n = { s with regs := { s.regs with ceWindow := w, ceFired := f } } := by
  unfold State.closeCeWindow
  split
  · exact ⟨0, false, rfl⟩
  · exact ⟨s.regs.ceWindow, s.regs.ceFired, rfl⟩

theorem State.nextOf_edge (s : State) : s.NextOf s.edge ∧ s.plumb.SameBucket s.edge.plumb := by
  obtain ⟨ds, hd, htier⟩ := s.nextTick.edgeDies_frame
  obtain ⟨bs, cs, hc, hbank⟩ := State.edgeCounts_frame { s.nextTick with dies := ds }
  obtain ⟨w, f, hw⟩ := (s.nextTick.edgeDies.edgeCounts.edgeScrub).closeCeWindow_frame (s.nextTick.edgeDies.edgeCounts.edgeScrub).clk.tick.toNat
  have hedge : s.edge = _ := hw
  rw [hedge, hd, hc]
  exact ⟨⟨rfl, htier, hbank, sameMemory_of_stores rfl rfl rfl rfl, rfl, rfl, rfl, ⟨rfl, rfl⟩⟩, ⟨⟨rfl, rfl⟩, ⟨rfl, rfl, rfl⟩, rfl, rfl, rfl⟩⟩

/-! ### The bucket (R436) -/

/-- The stack energy that a tick takes from the bucket. -/
def State.stackEnergy (s : State) (n : TickCounts) : Nat :=
  s.plumb.charge 0 ((s.modelEnergy n).getD 0 0) + s.plumb.charge 1 ((s.modelEnergy n).getD 1 0) + s.plumb.charge 3 ((s.modelEnergy n).getD 3 0)

theorem State.chargeTick_frame (s : State) (n : TickCounts) : ∃ q, s.chargeTick n = { s with plumb := q } ∧
    q.watts = s.plumb.watts ∧ q.caps = s.plumb.caps ∧ q.capLvl = s.plumb.capLvl ∧ q.hostLast = s.hostEnergy ∧
    q.samples = [none, none, none, none] ∧
    q.level = if s.plumb.ceil.isSome then s.plumb.level - (s.stackEnergy n : Int) else s.plumb.level :=
  ⟨_, rfl, rfl, rfl, rfl, rfl, rfl, rfl⟩

/-- The plumb records with the budgets in force and the bucket filled for a tick. -/
def Plumb.filled (p : Plumb) (fill : Nat → Int) : Plumb :=
  let q : Plumb := { p with wattsOn := p.watts, capsOn := p.caps }
  match q.ceil with
  | none => q
  | some w => { q with level := min (q.level + fill (ceilEnergy w)) ((8 * ceilEnergy w : Nat) : Int) }

theorem State.fillBucket_eq (s : State) : s.fillBucket = { s with plumb := s.plumb.filled s.fillEnergy } := by
  unfold State.fillBucket Plumb.filled
  dsimp only
  generalize Plumb.ceil _ = c
  cases c <;> rfl

theorem Plumb.filled_settings (p : Plumb) (fill : Nat → Int) :
    (p.filled fill).wattsOn = p.watts ∧ (p.filled fill).capsOn = p.caps ∧ (p.filled fill).hostLast = p.hostLast ∧ (p.filled fill).samples = p.samples := by
  unfold Plumb.filled
  dsimp only
  split <;> exact ⟨rfl, rfl, rfl, rfl⟩

theorem Plumb.level_filled {p : Plumb} {fill : Nat → Int} {w : Nat} (h : ({ p with wattsOn := p.watts, capsOn := p.caps } : Plumb).ceil = some w) :
    (p.filled fill).level = min (p.level + fill (ceilEnergy w)) ((8 * ceilEnergy w : Nat) : Int) := by
  unfold Plumb.filled
  simp only [h]

/-! ### The rest of a serving edge -/

/-- u differs from s in a plumb record of the same bucket, in interrupts, in allowances and in throttles alone. -/
structure State.SameTick (s u : State) : Prop where
  frame : u = { s with plumb := u.plumb, regs := { s.regs with irqStatus := u.regs.irqStatus }, dies := u.dies, chans := u.chans }
  bucket : s.plumb.SameBucket u.plumb
  tier : ∀ d, (u.die d).tier = (s.die d).tier

theorem State.SameTick.trans {s t u : State} (h : s.SameTick t) (h' : t.SameTick u) : s.SameTick u where
  frame := by rw [h'.frame, h.frame]
  bucket := h.bucket.trans h'.bucket
  tier d := (h'.tier d).trans (h.tier d)

theorem State.SameTick.refl (s : State) : s.SameTick s := ⟨rfl, ⟨⟨rfl, rfl⟩, ⟨rfl, rfl, rfl⟩, rfl, rfl, rfl⟩, fun _ => rfl⟩

theorem State.sameTick_mapPlumb (s : State) (f : Plumb → Plumb) (hf : s.plumb.SameBucket (f s.plumb)) : s.SameTick (s.mapPlumb f) :=
  ⟨rfl, hf, fun _ => rfl⟩

theorem State.sameTick_closeWindows (s : State) (n : Nat) : s.SameTick (s.closeWindows n) := by
  unfold State.closeWindows
  have hmin : ∀ u : State, s.SameTick u → s.SameTick (if n % minuteTicks = 0 then
      u.mapPlumb (fun p => { p with due60 := some (p.sum60.record (n / minuteTicks - 1) minuteTicks 1000000000), sum60 := .zero }) else u) := by
    intro u hu
    split
    · exact hu.trans (u.sameTick_mapPlumb _ ⟨⟨rfl, rfl⟩, ⟨rfl, rfl, rfl⟩, rfl, rfl, rfl⟩)
    · exact hu
  apply hmin
  split
  · exact s.sameTick_mapPlumb _ ⟨⟨rfl, rfl⟩, ⟨rfl, rfl, rfl⟩, rfl, rfl, rfl⟩
  · exact .refl s

theorem State.sameTick_irq (s : State) (i : Irq) : s.SameTick (s.irq i) := ⟨rfl, ⟨⟨rfl, rfl⟩, ⟨rfl, rfl, rfl⟩, rfl, rfl, rfl⟩, fun _ => rfl⟩

theorem State.sameTick_throttle (s : State) (d n : Nat) : s.SameTick (s.setDie d { s.die d with throttle := n }) := by
  refine ⟨rfl, ⟨⟨rfl, rfl⟩, ⟨rfl, rfl, rfl⟩, rfl, rfl, rfl⟩, fun i => ?_⟩
  rw [State.die_setDie]
  split
  · next hi => exact hi ▸ rfl
  · rfl

theorem State.sameTick_throttleDies (s : State) : s.SameTick s.throttleDies := by
  unfold State.throttleDies
  generalize List.range 16 = l
  induction l generalizing s with
  | nil => exact .refl s
  | cons d l ih =>
    refine State.SameTick.trans ?_ (ih _)
    dsimp only
    split
    · exact (s.sameTick_throttle d _).trans (State.sameTick_irq _ _)
    · exact s.sameTick_throttle d _

theorem State.sameTick_hostOver (s : State) : s.SameTick s.hostOver := by
  unfold State.hostOver
  split
  · exact (s.sameTick_mapPlumb _ ⟨⟨rfl, rfl⟩, ⟨rfl, rfl, rfl⟩, rfl, rfl, rfl⟩).trans (State.sameTick_irq _ _)
  · exact .refl s

theorem State.sameTick_divide (s : State) : s.SameTick s.divide := by
  obtain ⟨cs, hc⟩ : ∃ cs, s.divide = { s with chans := cs } := ⟨_, s.sameButChans_divide⟩
  rw [hc]
  exact ⟨rfl, ⟨⟨rfl, rfl⟩, ⟨rfl, rfl, rfl⟩, rfl, rfl, rfl⟩, fun _ => rfl⟩

theorem State.sameTick_planTick (s : State) : s.SameTick s.planTick :=
  State.SameTick.trans (t := s.mapPlumb fun p => { p with
      allow := min (s.plan s.fillEnergy).1 (s.plumb.allow + s.plumb.ramp.toNat),
      ksAllow := min (s.plan s.fillEnergy).2 (s.plumb.ksAllow + s.plumb.ramp.toNat * s.unitEnergy * 200 / s.sectorEnergy) })
    (s.sameTick_mapPlumb _ ⟨⟨rfl, rfl⟩, ⟨rfl, rfl, rfl⟩, rfl, rfl, rfl⟩) (State.sameTick_divide _)

theorem State.sameTick_tickFlags (s : State) : s.SameTick s.tickFlags := s.sameTick_mapPlumb _ ⟨⟨rfl, rfl⟩, ⟨rfl, rfl, rfl⟩, rfl, rfl, rfl⟩

theorem State.NextOf.sameTick {s t u : State} (h : s.NextOf t) (h' : t.SameTick u) : s.NextOf u where
  clk := (congrArg State.clk h'.frame).trans h.clk
  tier d hd := (h'.tier d).trans (h.tier d hd)
  bank k := by
    have hb : u.bank k = t.bank k := State.bank_congr ((congrArg State.banks h'.frame).trans rfl) k
    rw [hb]
    exact h.bank k
  memory := h.memory.trans (sameMemory_of_stores ((congrArg State.stack h'.frame).trans rfl) ((congrArg State.bg h'.frame).trans rfl)
    ((congrArg State.mortar h'.frame).trans rfl) ((congrArg State.hasps h'.frame).trans rfl))
  steps := (congrArg State.ctl h'.frame).trans h.steps
  start := (congrArg State.start h'.frame).trans h.start
  scrub := (congrArg (fun s => s.regs.scrubOn) h'.frame).trans h.scrub
  page := ⟨(congrArg State.idPage h'.frame).trans h.page.1, (congrArg State.idSyn h'.frame).trans h.page.2⟩

/-- The edge of a tick in which Crety serves, after the charge. -/
def State.servingEdge (s : State) : State :=
  (((s.edge.closeWindows s.edge.clk.tick.toNat).throttleDies.fillBucket).hostOver).tickFlags.planTick

/-- What fills the bucket is read from the identity page. -/
theorem State.fillEnergy_congr {s u : State} (h : u.idPage = s.idPage ∧ u.idSyn = s.idSyn) (r : Nat) : u.fillEnergy r = s.fillEnergy r := by
  have hpage : ∀ w, w < 32 → u.peek (pagePlace w) = s.peek (pagePlace w) := fun w hw => by
    have hword : u.pageWord w = s.pageWord w := by
      unfold State.pageWord
      refine congrArg (fun l => BitVec.ofNat 128 (leNat l)) (List.map_congr_left fun i hi => ?_)
      have hi : i < 16 := List.mem_range.1 hi
      unfold State.pageByte
      simp only [Nat.div_eq_of_lt (show 16 * w + i < 512 by omega), ↓reduceIte, h.1]
    show ((bondCheck false (u.pageWord w) (Sparse.get 0 u.idSyn w)).value (u.pageWord w)) = _
    rw [hword, h.2]
    rfl
  have hbytes : u.idBytes = s.idBytes := by
    unfold State.idBytes
    rw [h.1, h.2, List.map_congr_left fun w hw => by rw [hpage w (List.mem_range.1 hw)]]
  unfold State.fillEnergy State.overEnergy State.coef
  rw [hbytes]

/-- A fill of the same bucket gives the same bucket. -/
theorem Plumb.SameBucket.filled {p q : Plumb} (h : p.SameBucket q) {f g : Nat → Int} (hfg : ∀ r, g r = f r) : (p.filled f).SameBucket (q.filled g) := by
  obtain ⟨⟨hw, -⟩, ⟨hc, -, hl⟩, hlevel, hlast, hsamples⟩ := h
  have hceil : ({ q with wattsOn := q.watts, capsOn := q.caps } : Plumb).ceil = ({ p with wattsOn := p.watts, capsOn := p.caps } : Plumb).ceil := by
    simp only [Plumb.ceil, hw, hc, hl]
  obtain rfl : g = f := funext hfg
  unfold Plumb.filled
  dsimp only
  rw [hceil]
  generalize Plumb.ceil _ = c
  cases c with
  | none => exact ⟨⟨hw, hw⟩, ⟨hc, hc, hl⟩, hlevel, hlast, hsamples⟩
  | some w => exact ⟨⟨hw, hw⟩, ⟨hc, hc, hl⟩, by rw [hlevel], hlast, hsamples⟩

/-- A serving edge fills the bucket that it found, by the budgets that it puts in force. -/
theorem State.servingEdge_spec (s : State) : s.NextOf s.servingEdge ∧ (s.plumb.filled s.fillEnergy).SameBucket s.servingEdge.plumb := by
  obtain ⟨hedge, hbucket⟩ := s.nextOf_edge
  have hb : s.edge.SameTick (s.edge.closeWindows s.edge.clk.tick.toNat).throttleDies :=
    (s.edge.sameTick_closeWindows _).trans (State.sameTick_throttleDies _)
  unfold State.servingEdge
  generalize (s.edge.closeWindows s.edge.clk.tick.toNat).throttleDies = b at hb ⊢
  have hnext : s.NextOf b := hedge.sameTick hb
  have htail : b.fillBucket.SameTick b.fillBucket.hostOver.tickFlags.planTick :=
    ((State.sameTick_hostOver _).trans (State.sameTick_tickFlags _)).trans (State.sameTick_planTick _)
  refine ⟨State.NextOf.sameTick ?_ htail, Plumb.SameBucket.trans ?_ htail.bucket⟩
  · rw [State.fillBucket_eq]
    exact ⟨hnext.clk, hnext.tier, hnext.bank, hnext.memory, hnext.steps, hnext.start, hnext.scrub, hnext.page⟩
  · rw [State.fillBucket_eq]
    exact (hbucket.trans hb.bucket).filled (State.fillEnergy_congr hnext.page)

/-! ### The whole edge -/

theorem State.tickEdge_of_idle {s : State} (n : TickCounts) (h : s.start.mode = .reset ∨ s.runs 4 = false) : s.tickEdge n = s :=
  if_pos (h.imp_right fun hr => by rw [hr]; rfl)

theorem State.payDebt_serving (s : State) : s.payDebt.serving = s.serving := by rw [State.serving, s.payDebt_goesOn.mode]; rfl

/-- Where Crety does not serve, an edge charges and fills no bucket. -/
theorem State.tickEdge_of_not_serving {s : State} (n : TickCounts) (hm : s.start.mode ≠ .reset) (hr : s.runs 4 = true) (hs : s.serving = false) :
    s.tickEdge n = s.payDebt.edge.fuseIssue.fuseFinish.edgeBanks.goOn := by
  have hp : s.payDebt.serving = false := s.payDebt_serving.trans hs
  have hedge : s.payDebt.edge.serving = false := by
    rw [State.serving, s.payDebt.nextOf_edge.1.start]
    exact hp
  unfold State.tickEdge
  rw [if_neg (by rw [hr]; simp [hm])]
  dsimp only
  rw [hp]
  exact if_pos (by rw [Bool.not_eq_true']; exact hedge)

theorem State.tickEdge_of_serving {s : State} (n : TickCounts) (hr : s.runs 4 = true) (hs : s.serving = true) :
    s.tickEdge n = ((s.payDebt.chargeTick n).servingEdge.edgeBanks.fuseIssue.fuseFinish.goOn.startCourses).pumpPulls pumpFuel := by
  have hp : s.payDebt.serving = true := s.payDebt_serving.trans hs
  have hedge : (s.payDebt.chargeTick n).edge.serving = true := by
    rw [State.serving, (s.payDebt.chargeTick n).nextOf_edge.1.start]
    exact hp
  have hm : s.start.mode ≠ .reset := fun hm => by simp [State.serving, hm] at hs
  unfold State.tickEdge
  rw [if_neg (by rw [hr]; simp [hm])]
  dsimp only
  rw [hp]
  exact if_neg (by rw [Bool.not_eq_true', Bool.not_eq_false]; exact hedge)

/-- The state that a serving edge starts the next tick with. -/
theorem State.chargedEdge_spec {s : State} (n : TickCounts) :
    ∃ u, u = (s.payDebt.chargeTick n).servingEdge ∧ s.payDebt.NextOf u ∧ u.plumb.wattsOn = s.plumb.watts ∧ u.plumb.capsOn = s.plumb.caps ∧
      u.plumb.hostLast = s.payDebt.hostEnergy ∧ u.plumb.samples = [none, none, none, none] := by
  obtain ⟨q, hq, hw, hc, -, hlast, hsamples, -⟩ := s.payDebt.chargeTick_frame n
  obtain ⟨hnext, hb⟩ := (s.payDebt.chargeTick n).servingEdge_spec
  rw [hq] at hnext hb ⊢
  obtain ⟨hfw, hfc, hfl, hfs⟩ := q.filled_settings (State.fillEnergy { s.payDebt with plumb := q })
  have hpw : s.payDebt.plumb.watts = s.plumb.watts := (congrArg Plumb.watts s.payDebt_goesOn.plumb).trans rfl
  have hpc : s.payDebt.plumb.caps = s.plumb.caps := (congrArg Plumb.caps s.payDebt_goesOn.plumb).trans rfl
  exact ⟨_, rfl, ⟨hnext.clk, hnext.tier, hnext.bank, hnext.memory, hnext.steps, hnext.start, hnext.scrub, hnext.page⟩,
    (hb.watts.2.trans hfw).trans (hw.trans hpw), (hb.caps.2.1.trans hfc).trans (hc.trans hpc), (hb.last.trans hfl).trans hlast,
    (hb.samples.trans hfs).trans hsamples⟩

/-- What the bucket of that state holds, with a ceiling before and after. -/
theorem State.chargedEdge_level {s : State} (n : TickCounts) {w0 w : Nat} (h0 : s.plumb.ceil = some w0)
    (h : ({ s.plumb with wattsOn := s.plumb.watts, capsOn := s.plumb.caps } : Plumb).ceil = some w) :
    (s.payDebt.chargeTick n).servingEdge.plumb.level =
      min (s.plumb.level - (s.payDebt.stackEnergy n : Int) + s.fillEnergy (ceilEnergy w)) ((8 * ceilEnergy w : Nat) : Int) := by
  have hp := s.payDebt_goesOn.plumb
  obtain ⟨q, hq, hw, hc, hl, -, -, hlevel⟩ := s.payDebt.chargeTick_frame n
  obtain ⟨-, hb⟩ := (s.payDebt.chargeTick n).servingEdge_spec
  have hlvl : s.payDebt.plumb.level = s.plumb.level := (congrArg Plumb.level hp).trans rfl
  have hpceil : s.payDebt.plumb.ceil = some w0 := (congrArg Plumb.ceil hp).trans h0
  have hqceil : ({ q with wattsOn := q.watts, capsOn := q.caps } : Plumb).ceil = some w := by
    rw [← h]
    simp only [Plumb.ceil, hw, hc, hl]
    rw [(congrArg Plumb.watts hp).trans rfl, (congrArg Plumb.caps hp).trans rfl, (congrArg Plumb.capLvl hp).trans rfl]
  have hfill : State.fillEnergy { s.payDebt with plumb := q } (ceilEnergy w) = s.fillEnergy (ceilEnergy w) :=
    State.fillEnergy_congr s.payDebt_goesOn.page _
  rw [hb.level, hq, Plumb.level_filled hqceil, hfill, hlevel, hpceil, hlvl]
  rfl

end Sys2Proof.Machine

open Sys2Proof Sys2Proof.Machine

/-- Settles O34: the debt is paid first, then the charge, the edge and the fill give the state of the next tick. -/
theorem tickEdgeStartsTheNextTick : Obligations.TickEdgeStartsTheNextTick := by
  refine ⟨fun s n hm hr hs => ?_, fun s n hm => ?_, fun s n hs hr => ?_, fun s hi => ⟨fun hw => ?_, fun x hn hd hr he hx => ?_⟩, fun s n hr => ?_,
    fun s n w0 w hs hr h0 hw => ?_⟩
  · have hnext := s.payDebt.nextOf_edge.1
    refine ⟨s.payDebt.edge, congrArg Host.Outcome.next (State.tickEdge_of_not_serving n hm hr hs), ?_, hnext.tier, hnext.bank, hnext.memory,
      hnext.steps, hnext.start, hnext.scrub.trans s.payDebt_goesOn.scrub⟩
    rw [← s.payDebt_goesOn.clk]
    exact hnext.clk
  · exact congrArg Host.Outcome.next (State.tickEdge_of_idle n (.inl hm))
  · obtain ⟨u, hu, hnext, hwatts, hcaps, hlast, hsamples⟩ := State.chargedEdge_spec (s := s) n
    refine ⟨u, congrArg Host.Outcome.next ((State.tickEdge_of_serving n hr hs).trans (hu ▸ rfl)), ?_, hnext.tier, hwatts, hcaps, hlast, hsamples,
      hnext.scrub.trans s.payDebt_goesOn.scrub, fun k => ⟨(hnext.bank k).1, (hnext.bank k).2.1⟩, hnext.memory, hnext.steps⟩
    rw [← s.payDebt_goesOn.clk]
    exact hnext.clk
  · exact State.payDebt_of_waits hi hw
  · exact State.payDebt_of_export hi hn hd hr he hx
  · exact congrArg Host.Outcome.next (State.tickEdge_of_idle n (.inr hr))
  · exact ⟨_, congrArg Host.Outcome.next (State.tickEdge_of_serving n hr hs), State.chargedEdge_level n h0 hw⟩

end
